-- ==== Sys2Proof/Word.lean ====
section
/-! DEFINITION. The word types of the RGX-96 and the indices of its units (00_scope.md, Table 0.3). -/

namespace Sys2Proof

/-- A management register word (R16, R567). -/
abbrev Word := BitVec 32
/-- A byte. -/
abbrev Byte := BitVec 8
/-- A general register, a DMEM word, a stamp as it is read (R17, R190). -/
abbrev Dword := BitVec 64
/-- A galley word and an accumulator (R190, R317). -/
abbrev Qword := BitVec 128
/-- A codeword of the vault: check bits [143:128], data [127:0] (R383, R598). -/
abbrev Codeword := BitVec 144
/-- A point of the model's time axis, in units of 1/64 ps (notes/assumptions/1.md). -/
abbrev Instant := Nat

/-- CH00 to CH95. -/
abbrev Chan := Fin 96
/-- Lane index 2n for H, 2n + 1 for L. -/
abbrev LaneIx := Fin 192
/-- P0 to P7. -/
abbrev Pier := Fin 8
/-- PC00 to PC31. -/
abbrev Pch := Fin 32
/-- Host ring 0 to 31. -/
abbrev Ring := Fin 32
/-- SW0 to SW7, then the deck (8) and the vault (9) synthesizer. -/
abbrev Synth := Fin 10
/-- Power domain index (PD_CH00 to PD_CH95, PD_P0 to PD_P7). -/
abbrev Dom := Fin 104
/-- Truss source. -/
abbrev Source := Fin 256
/-- Rail index of Table 15.5. -/
abbrev RailIx := Fin 6

end Sys2Proof
end

