-- ==== Sys2Proof/Syntax.lean ====
section
/-! DEFINITION. The commands of the RGX-96, one constructor of `Instr` for each row of opcode_table.json, and
the structured content of the configuration image (14_configuration_image.md) that RESET_RELEASE brings. -/

namespace Sys2Proof

/-- The configuration words of one channel, each in the layout of its register table
(Tables 2.4, 2.6, 2.9, 5.8, 8.5, 8.6, 8.8, 8.9, R312, R343). The forme's Channel block and the registers in force
are both of this type. -/
structure ChanCfg where
  lnCfgH : Word
  lnCfgL : Word
  lnXchkH : Word
  lnXchkL : Word
  deskewH : BitVec 14
  deskewL : BitVec 14
  ptnr : Word
  fldCfg : Word
  gateSc : Word
  dslot : List Word
  redCfg : List Word
  redSc : Word
  momCfg : Word
  regCfg : Word
  histCfg : Word
  histBase : Word
  phsCfg : Word
  maskRef : Word
  /-- 16 windows: control, START, END. -/
  maskWin : List (Word × Word × Word)
  trgCfg : Word
  trgAuto : Word
  /-- 8 conditions: words +0x0, +0x4, +0x8. -/
  trgCond : List (Word × Word × Word)
  circ : Word
  seg : Word
  segFmt : Word
  post : Word
  folio : Word
  chmap : Word
deriving DecidableEq, Repr

/-- A PROGRAM section (R489): its header words and its images. -/
structure Program where
  engCtl : Word
  evqCfg : Word
  emitCfg : Word
  library : Bool
  imem : List Word
  dmem : List Dword
deriving DecidableEq, Repr

/-- The configuration of a sweep synthesizer (Table 14.6, Tables 4.5 to 4.12). -/
structure SweepCfg where
  cfg : Word
  int : Word
  frac : Word
  ssc : Word
  ramp : Word
  /-- segments: word +0x0, SLOPE, DWELL. -/
  segs : List (Word × Word × Word)
  /-- store entries: words +0x0, +0x4. -/
  store : List (Word × Word)
deriving DecidableEq, Repr

/-- One channel block of a forme: the channel, the program it names, its fields. -/
structure FormeChan where
  ch : Chan
  program : Nat
  cfg : ChanCfg
deriving DecidableEq, Repr

/-- A FORME section (R487, Table 14.6). `overrun` says that a block overruns its section (Table 14.9, code 0x01). -/
structure Forme where
  number : Nat
  placement : Nat
  tbsCfg : Word
  tbsSeed : Word
  tbsSlew : Word
  deckSsc : Word
  vaultSsc : Word
  sweeps : List SweepCfg
  power : BitVec 104
  shed : BitVec 128
  spares : List (Chan × Chan)
  chans : List FormeChan
  overrun : Bool
deriving DecidableEq, Repr

/-- The VAULT section (R491). -/
structure VaultSection where
  cfg : Word
  ports : List Word
  mnt : Word
deriving DecidableEq, Repr

/-- A directory entry (Table 14.3). -/
structure DirEntry where
  type : Byte
  index : Byte
  offset : Nat
  length : Nat
  digest : BitVec 256
deriving DecidableEq, Repr

/-- The image header (Table 14.2). `reservedZero`: every reserved field and every directory entry from NSECT on is zero. -/
structure ImgHeader where
  magic : Word
  fmtver : BitVec 16
  nsect : Nat
  imglen : Nat
  imgver : Word
  bootf : Nat
  flags : Byte
  reservedZero : Bool
  pubkey : BitVec 512
  sig : BitVec 512
  dir : List DirEntry
deriving DecidableEq, Repr

/-- One table record of a trim slot (R467): the trim of one channel in one band (R463). -/
structure TrimTable where
  cv : Bool
  dv : Bool
  leadH : Bool
  leadL : Bool
  gen : BitVec 16
  /-- selection masks of H PING, H PONG, L PING, L PONG: delay cells (80 bits), vernier cells (40 bits). -/
  masks : List (BitVec 80 × BitVec 40)
  deskewH : BitVec 14
  deskewL : BitVec 14
  /-- the figures of R449 and R450 as the registers show them: FIGA, FIGB of each interpolator, AGREE of each lane. -/
  figs : List Word
deriving DecidableEq, Repr

/-- A trim slot (Table 13.6); what the table reserves holds what the table says. -/
structure TrimSlot where
  magic : Word
  gen : Word
  bodyLen : Word
  crc : Word
  commit : Word
  /-- 384 records, record 4 x channel + band. -/
  tables : List TrimTable
deriving DecidableEq, Repr

/-- The training slot (Table 14.7). -/
structure TrainSlot where
  magic : Word
  bodyLen : Word
  crc : Word
  vhash : BitVec 256
  /-- 1,152 lane records in the layout of Table 12.12. -/
  lanes : List Word
  modeRegs : List Word
  commit : Word
deriving DecidableEq, Repr

/-- The content of the attached flash (R479 to R492), and what its SFDP table states. -/
structure Flash where
  sfdpOk : Bool
  jedec : BitVec 24
  density : BitVec 2
  header : ImgHeader
  firmware : List Byte
  vault : VaultSection
  formes : List (Nat × Forme)
  programs : List (Nat × Program)
  tables : List (Nat × List (List Word))
  slotA : Option TrimSlot
  slotB : Option TrimSlot
  train : Option TrainSlot
deriving DecidableEq, Repr

/-- What code density measures on one interpolator (R448, R449): widths in 10^-18 s, and the edges converted. -/
structure CellMeas where
  delay : List Nat
  vernier : List Nat
  hits : Nat
deriving DecidableEq, Repr

/-- A host ring descriptor as the device reads it (Table 9.10, bytes 0 to 15). -/
structure Desc where
  addr : Dword
  len : Word
  ctrl : Word
deriving DecidableEq, Repr

/-- What a register write comes through: the MSPI port or PCIe BAR0. -/
inductive Access where
  | mspi
  | bar0
deriving DecidableEq, Repr

/-- A soft error that strikes an on-die memory (R192, Table 17.2): word `pos` of a pier's chunk buffer, oldest first, with
the bits it reads changed where the code cannot correct it; the management core's memory; a word of IMEM or DMEM. The
table has no row of its own for it (notes/assumptions/52.md). -/
inductive Upset where
  | chunkBuffer (pier : Pier) (pos : Nat) (flips : Qword) (unc : Bool)
  | coreMemory (unc : Bool)
  | imem (ch : Chan) (addr : BitVec 12) (unc : Bool)
  | dmem (ch : Chan) (addr : BitVec 10) (unc : Bool)
deriving DecidableEq, Repr

/-- The commands. `at` is the instant at which an outside event happens; a row without it happens at the instant the
device's own state gives it (notes/assumptions/2.md). -/
inductive Instr where
  -- 16_management_port.md: commands of the mailbox (R554), with TAG and the argument words of Table 16.4
  | nop (at_ : Instant) (tag : Byte)
  | readTime (at_ : Instant) (tag : Byte)
  | selectForme (at_ : Instant) (tag : Byte) (arg0 : Word)
  | arm (at_ : Instant) (tag : Byte) (mask : BitVec 96)
  | disarm (at_ : Instant) (tag : Byte) (mask : BitVec 96)
  | setPost (at_ : Instant) (tag : Byte) (arg0 arg1 : Word)
  | release (at_ : Instant) (tag : Byte) (arg0 : Word)
  | remap (at_ : Instant) (tag : Byte) (arg0 : Word) (when_ : Dword)
  | calibrate (at_ : Instant) (tag : Byte) (mask : BitVec 96) (arg3 : Word)
  | storeCal (at_ : Instant) (tag : Byte)
  | throttleAck (at_ : Instant) (tag : Byte)
  | shedExit (at_ : Instant) (tag : Byte)
  | state (at_ : Instant) (tag : Byte)
  | challenge (at_ : Instant) (tag : Byte)
  | respond (at_ : Instant) (tag : Byte) (key sig : BitVec 512)
  | token (at_ : Instant) (tag : Byte) (key sig : BitVec 512)
  | advance (at_ : Instant) (tag : Byte) (target : BitVec 4) (key : BitVec 512) (cdata : BitVec 256)
  | diagRead (at_ : Instant) (tag : Byte) (arg0 arg1 : Word)
  | diagWrite (at_ : Instant) (tag : Byte) (arg0 arg1 : Word) (data : List Qword)
  | commandComplete
  -- MSPI frames and register accesses
  | read (at_ : Instant) (addr : Word) (n : Nat)
  | write (at_ : Instant) (addr : Word) (data : List Word) (dcrc : Byte)
  | frameAbort (at_ : Instant) (isWrite : Bool) (addr : Word) (n : Nat)
  | registerWrite (at_ : Instant) (port : Access) (addr : Word) (value : Word)
  | captureRead (at_ : Instant) (addr : Word)
  | rcRead (at_ : Instant) (addr : Word)
  | ack (at_ : Instant) (src : Source)
  | ackAll (at_ : Instant)
  | srcCfgWrite (at_ : Instant) (src : Source) (value : Word)
  | assert (at_ : Instant) (value : Word)
  | tstOn (at_ : Instant) (creact : Bool)
  | tstOff (at_ : Instant)
  | eccInj (at_ : Instant) (value : Word)
  | mkProg (at_ : Instant) (value : Word)
  -- 09_records_and_readout.md: PCIe
  | ringTail (at_ : Instant) (ring : Ring) (value : Word)
  | ringEnable (at_ : Instant) (ring : Ring)
  | ringDisable (at_ : Instant) (ring : Ring)
  | bar2Read (at_ : Instant) (g : BitVec 30) (flips : Codeword)
  | bar2Write (at_ : Instant)
  | linkDown (at_ : Instant)
  | flr (at_ : Instant)
  | hotReset (at_ : Instant)
  | perstN (at_ : Instant)
  | descerr (at_ : Instant) (ring : Ring)
  | descriptorRead (at_ : Instant) (ring : Ring) (desc : Desc)
  | readPortTransfer (port : Fin 4)
  | starved (ring : Ring)
  -- 20_pins_and_timing.md: SYNC words: payload [27:0] (the TYPE is the row's), and whether a FRAME break abandoned it
  | syncNop (at_ : Instant) (payload : BitVec 28) (frameBreak : Bool)
  | syncStep (at_ : Instant) (payload : BitVec 28) (frameBreak : Bool)
  | syncArm (at_ : Instant) (payload : BitVec 28) (frameBreak : Bool)
  | syncDisarm (at_ : Instant) (payload : BitVec 28) (frameBreak : Bool)
  | syncTrig (at_ : Instant) (payload : BitVec 28) (frameBreak : Bool)
  | syncMark (at_ : Instant) (payload : BitVec 28) (frameBreak : Bool)
  -- 03_timebase.md, 10_sites_and_placement.md
  | epochMark (at_ : Instant)
  | fence
  | acquireQualified
  | lockCheck (meanErr : Int) (anchor : Instant)
  | lossOfReference (byPhase : Bool) (edges : List Instant)
  | qualifyStart (at_ : Instant)
  | subWindow (freqPpb phaseShift : Int) (edges : List Int) (nextEdge : Instant)
  | missingEdge (last : Instant)
  | reanchor (at_ : Instant)
  | slewStart (at_ : Instant)
  | settleWindowEnd (meanErr : Int)
  | slewEnd
  | loopFault (at_ : Instant)
  | switchOver (at_ : Instant) (abMean : Int)
  | standbyLock (at_ : Instant) (ab : Int := 0)
  -- 04_sweep_synthesizers.md
  | hop (at_ : Instant) (k : Fin 8)
  | storedHopRelease (k : Fin 8) (rises : List Instant)
  | fullSearchRelease (k : Fin 8) (rises : List Instant)
  | lockDetectDeadline (k : Fin 8) (bandFound : Bool)
  | unlock (at_ : Instant) (k : Synth)
  | windowMonitor (at_ : Instant) (k : Fin 8) (count : Nat) (rises : List Instant := [])
  | rampStart (k : Fin 8)
  | segmentEnd (k : Fin 8)
  | synthLock (vault lockDetected : Bool) (bandFound : Bool := true)
  | deckVaultWindow (at_ : Instant) (vault : Bool) (count : Nat)
  -- 02_stamping_lanes.md
  | transition (at_ : Instant) (lane : LaneIx) (level : Bool)
  | crossCheck (lane : LaneIx) (followerCode : BitVec 11)
  | laneFifoWrite (lane : LaneIx)
  | lossIntervalClose (lane : LaneIx)
  | mergeRead (ch : Chan)
  | mergeResume (ch : Chan)
  -- 05_compositor.md
  | folderIntake (ch : Chan)
  | gateClose (ch : Chan)
  | reductionIntervalClose (ch : Chan)
  | phaseSample (ch : Chan)
  | maskWindowClose (ch : Chan)
  | eventPost (ch : Chan)
  | folderResume (ch : Chan)
  | imageReload (ch : Chan)
  | engineStart (ch : Chan)
  -- 06_compositor_instructions.md: the engine of `ch` executes the instruction with these fields
  | engineNop (ch : Chan)
  | add (ch : Chan) (d a b : BitVec 4)
  | sub (ch : Chan) (d a b : BitVec 4)
  | and (ch : Chan) (d a b : BitVec 4)
  | or (ch : Chan) (d a b : BitVec 4)
  | xor (ch : Chan) (d a b : BitVec 4)
  | shl (ch : Chan) (d a b : BitVec 4)
  | shr (ch : Chan) (d a b : BitVec 4)
  | sar (ch : Chan) (d a b : BitVec 4)
  | mul (ch : Chan) (d a b : BitVec 4)
  | min (ch : Chan) (d a b : BitVec 4)
  | max (ch : Chan) (d a b : BitVec 4)
  | minu (ch : Chan) (d a b : BitVec 4)
  | maxu (ch : Chan) (d a b : BitVec 4)
  | cmp (ch : Chan) (a b : BitVec 4)
  | addi (ch : Chan) (d a : BitVec 4) (imm : BitVec 18)
  | andi (ch : Chan) (d a : BitVec 4) (imm : BitVec 18)
  | ori (ch : Chan) (d a : BitVec 4) (imm : BitVec 18)
  | xori (ch : Chan) (d a : BitVec 4) (imm : BitVec 18)
  | shli (ch : Chan) (d a : BitVec 4) (count : BitVec 6)
  | shri (ch : Chan) (d a : BitVec 4) (count : BitVec 6)
  | sari (ch : Chan) (d a : BitVec 4) (count : BitVec 6)
  | cmpi (ch : Chan) (a : BitVec 4) (imm : BitVec 18)
  | movz (ch : Chan) (d : BitVec 4) (h : BitVec 2) (imm : BitVec 16)
  | movk (ch : Chan) (d : BitVec 4) (h : BitVec 2) (imm : BitVec 16)
  | csel (ch : Chan) (d a b cond : BitVec 4)
  | clz (ch : Chan) (d a : BitVec 4)
  | aclr (ch : Chan) (d : BitVec 3)
  | amovs (ch : Chan) (d : BitVec 3) (a : BitVec 4)
  | aaddg (ch : Chan) (d : BitVec 3) (a : BitVec 4)
  | muls (ch : Chan) (d : BitVec 3) (a b : BitVec 4)
  | mulu (ch : Chan) (d : BitVec 3) (a b : BitVec 4)
  | macs (ch : Chan) (d : BitVec 3) (a b : BitVec 4)
  | macu (ch : Chan) (d : BitVec 3) (a b : BitVec 4)
  | aadd (ch : Chan) (d a b : BitVec 3)
  | asub (ch : Chan) (d a b : BitVec 3)
  | ashr (ch : Chan) (d a : BitVec 3) (count : BitVec 7)
  | ashl (ch : Chan) (d a : BitVec 3) (count : BitVec 7)
  | aget (ch : Chan) (d : BitVec 4) (a : BitVec 3) (h : BitVec 1)
  | asat (ch : Chan) (d : BitVec 4) (a : BitVec 3)
  | anorm (ch : Chan) (d : BitVec 4) (a : BitVec 3)
  | acmp (ch : Chan) (a b : BitVec 3)
  | apack (ch : Chan) (d : BitVec 3) (a b : BitVec 4)
  | divu (ch : Chan) (d : BitVec 4) (a : BitVec 3) (b : BitVec 4)
  | divs (ch : Chan) (d : BitVec 4) (a : BitVec 3) (b : BitVec 4)
  | evt (ch : Chan) (d : BitVec 4)
  | evtWaitEnd (ch : Chan)
  | evtp (ch : Chan) (d : BitVec 4)
  | emit (ch : Chan) (a : BitVec 3)
  | emitwEnd (ch : Chan)
  | tokenRefill (ch : Chan)
  | trig (ch : Chan) (a : BitVec 4)
  | ld (ch : Chan) (d a : BitVec 4) (off : BitVec 18)
  | st (ch : Chan) (d a : BitVec 4) (off : BitVec 18)
  | lda (ch : Chan) (d : BitVec 3) (a : BitVec 4) (off : BitVec 18)
  | sta (ch : Chan) (d : BitVec 3) (a : BitVec 4) (off : BitVec 18)
  | stop (ch : Chan)
  | halt (ch : Chan)
  | gset (ch : Chan) (a : BitVec 4)
  | sysr (ch : Chan) (d : BitVec 4) (sel : BitVec 18)
  | b (ch : Chan) (cond : BitVec 4) (off : BitVec 12)
  | bl (ch : Chan) (off : BitVec 12)
  | jr (ch : Chan) (a : BitVec 4)
  | runaway (ch : Chan)
  | closeTo (ch : Chan)
  -- 08_trigger_and_galley.md
  | triggerCondition (ch : Chan)
  | collectEnd (ch : Chan)
  | holdoffEnd (ch : Chan)
  | handOver (ch : Chan)
  | heldRearm (ch : Chan)
  | formeRearm (ch : Chan)
  -- 11_vault_controller.md, 12_vault_maintenance.md
  | flush (pier : Pier)
  | vaultCommand (q : Pch) (blocked : List Nat)
  | readDataReturn (id : Nat) (flips0 flips1 : Codeword)
  | capar (at_ : Instant) (q : Pch)
  | promotion (id : Nat)
  | rowIdleClose (q : Pch) (bank : Fin 16)
  | refreshCeiling (q : Pch)
  | nrrWindowEnd (q : Pch)
  | temperatureReading (at_ : Instant) (reading : Option Int)
  | selfRefreshEntry
  | selfRefreshEntered
  | selfRefreshExit
  | selfRefreshExitDone
  | scrubRead (q : Pch)
  | trainingEnd (lanes : List Word) (passed : Bool)
  | quickRestoreEnd (verified : Bool)
  | stackInitEnd
  -- 13_trim.md
  | acquisitionEnd (ch : Chan) (cells : List CellMeas) (agreeH agreeL : List Int)
  | deskewPhase (ch : Chan)
  | trimWindowEnd (ch : Chan) (edgesH edgesL : List Int)
  | eraseDone (blank : Bool)
  | pageProgramDone (verified : Bool)
  -- 14_configuration_image.md, 15_modes_and_power_up.md
  | formeReread
  | auth
  | image
  | cal
  | admission
  | clocks
  | clocksLocked
  | train
  | init
  | dist
  | trim
  | runReady
  | powerOn (at_ : Instant)
  | resetNLow (at_ : Instant)
  | railBelowReset (at_ : Instant) (rail : RailIx)
  | resetRelease (at_ : Instant) (flash : Option Flash) (nvmv : Bool) (order : BitVec 6)
  | dipStart (at_ : Instant) (rail : RailIx)
  | dipEnd (at_ : Instant)
  | long
  | ov (at_ : Instant) (rail : RailIx)
  | powerGoodCheck (d : Dom) (good : Bool)
  | domainOn (d : Dom)
  | domainOff (d : Dom)
  -- 17_truss.md
  | trussEvent (upset : Option (Instant × Upset) := none)
  | escalation (src : Source)
  | trapAction (src : Source)
  | aliveToggle
  -- 18_thermal.md
  | sensorSample (at_ : Instant) (k : Fin 17) (reading : Option Int)
  | bandEvaluation (at_ : Instant)
  | rateEvaluation (at_ : Instant) (k : Fin 17)
  | graceExpiry
  | shedTo (ch : Chan)
  | cut (at_ : Instant)
  -- 19_lifecycle.md
  | fuseWordDone (verified : Bool)
  -- rows the table lists last
  | reservedSyncWord (at_ : Instant) (type : Fin 10) (payload : BitVec 28) (frameBreak : Bool)
  | headerRejected (at_ : Instant) (bytes : List Byte)
  | linkTrained (at_ : Instant) (speed : BitVec 4) (width : BitVec 6)
  | aerError (at_ : Instant) (uncorrectable : Bool)
  | configurationRequest (at_ : Instant)
  | firmwareWatchdogExpiry (at_ : Instant)
  | stallPulse
  | standbyLoopFault (at_ : Instant)
  | refinLossInAcquire (at_ : Instant) (absent : Bool)
deriving DecidableEq, Repr

end Sys2Proof
end

