-- ==== Sys2Proof/Config.lean ====
section
/-! DEFINITION. What the spec leaves to an implementation, or names by another standard: constants without a body, so that
no proof can see a value of theirs (notes/assumptions/9.md, 10.md). -/

namespace Sys2Proof.Config

/-- SHA-256 of a string of octets (R480, R637; the standard is named, not given). -/
opaque sha256 : List Byte → BitVec 256

/-- ECDSA P-256 verification: key, digest of the signed octets, signature (R482, R638). -/
opaque ecdsaOk : BitVec 512 → BitVec 256 → BitVec 512 → Bool

/-- The key is a point on the curve (R638). -/
opaque onCurve : BitVec 512 → Bool

/-- The maker key hash in on-die ROM (R634). -/
opaque makerKeyHash : BitVec 256

/-- The octets of the firmware section, of a forme, a program, a table and the vault section as the flash holds them.
The spec gives the sections' content, not a byte layout of all of it. -/
opaque formeOctets : Forme → List Byte
opaque programOctets : Program → List Byte
opaque tableOctets : List (List Word) → List Byte
opaque vaultOctets : VaultSection → List Byte

/-- The next nonce (R637): random, a fresh value for every draw. -/
opaque nonce : Nat → BitVec 256

/-- BAND and CTUNE that a band search finds (R151): analog results, a fresh value for every search. -/
opaque searchBand : Nat → BitVec 6
opaque searchTune : Nat → BitVec 8

/-- Where in its period a new clock of a sweep synthesizer stands at its release, and the cycle of a search at which lock
detect asserts, each within its bound (R148, R150): analog, keyed by the instant. -/
opaque clockPhase : Nat → Nat
opaque lockCycle : Nat → Nat

/-- What the spec does not give of the compositor library: where its program stands (channel, dc), and the words that hold
its state (channel, dc of the last event taken, address). -/
opaque libraryPc : Nat → Nat → BitVec 12
opaque libraryWord : Nat → Nat → Nat → Dword

/-- The codes of the scan instructions other than BYPASS, and the bits that Capture-IR loads above the two that IEEE 1149.1
fixes: the spec gives neither (R663). -/
opaque tapCode : List Bool → Nat
opaque tapCapture : List Bool

/-- A byte of a result that the spec leaves open, a fresh value for every draw. -/
opaque freeByte : Nat → Byte

end Sys2Proof.Config
end

