-- ==== Sys2Proof/Machine/State.lean ====
section
/-! DEFINITION. The state of the RGX-96: every register, queue, buffer, counter, mode and pin the spec names, and the
queue of the commands that wait. Plain data throughout. `State.reset` is the device at reset release after a power-on
(notes/assumptions/4.md). -/

namespace Sys2Proof.Machine

/-- Why a command stops the machine. No command of this block does: every fault of the device is itself state
(INVENTORY.md, Faults). Kept as the closed type the interface asks for. -/
inductive Fault where
  /-- Raised by nobody: safe, since a stop proves nothing false. -/
  | halted
deriving DecidableEq, Repr

/-- Why a command has no meaning. -/
inductive Refusal where
  /-- Raised only by an arm of `exec` whose command is not modelled yet: safe, the machine stops. -/
  | notModelled (mnemonic : String)
deriving DecidableEq, Repr

/-! ## Clocks -/

/-- One clock domain: the period of its rising edges on the time axis, and the instant and the number of one of them,
and, where that one is the first since a change of clock, the period before it and the instant of the edge before it (R3
to R5, R161). -/
structure Clock where
  period : Nat
  phase : Nat
  base : Nat
  was : Option (Nat × Instant)
deriving DecidableEq, Repr

/-- The domains of Table 0.2 but SPAN, whose edges follow the timebase's scale (State.span). -/
structure Clocks where
  deck : Clock
  vault : Clock
  link : Clock
  mgmt : Clock
  sync : Clock
deriving DecidableEq, Repr

/-! ## Streams, events and words -/

/-- A stream entry (Table 2.1) as lane FIFO, merge and folder carry it. `conv` is the instant of conversion, with `sub` units
of the axis beyond it, and `abs` that instant plus the deskew of generation `kgen`, both in LSB on the time axis; `time` is the stamp on the scale in force at conversion. -/
structure Entry where
  conv : Nat
  sub : Nat
  abs : Int
  kgen : BitVec 2
  time : Int
  type : BitVec 2
  lane : Bool
  pol : Bool
  ptnr : Bool
  psrc : BitVec 4
  edges : BitVec 13
  lost : Nat
  xck : BitVec 2
  dskc : Bool
  coast : Bool
  slew : Bool
  sup : Bool
  inj : Bool
  lock : Bool
  dgen : BitVec 2
deriving DecidableEq, Repr

/-- A discontinuity (R128) or fence (R361) record on its way through the merge. `inst` is T_D, T_S, T_M or T_F in LSB
on the time axis, with `sub` units beyond it, `time` its stamp on the scale in force from then on. -/
structure Insert where
  fence : Bool
  inst : Nat
  sub : Nat
  time : Int
  cause : BitVec 3
  loop : Bool
  tstate : BitVec 4
  step : Int
  newStep : Byte
  newEpoch : BitVec 16
  newSite : BitVec 12
  oldStep : Byte
  oldEpoch : BitVec 16
  oldSite : BitVec 12
deriving DecidableEq, Repr

/-- What the merge emits. -/
inductive Item where
  | entry (e : Entry)
  | ins (r : Insert)
deriving DecidableEq, Repr

/-- An engine event (Table 5.5). -/
structure Ev where
  type : Byte
  head : BitVec 56
  time : Int
  val : Dword
deriving DecidableEq, Repr

/-- A word in a channel's output queue, with what the colophon states of the raw path after it (R332). -/
structure OutWord where
  word : Qword
  emit : Bool
  eH : BitVec 13
  eL : BitVec 13
  fH : BitVec 6
  fL : BitVec 6
  last : Dword
  /-- dc of its hand-over, and the galley word it is written to (none: not written, R294). -/
  dc : Nat
  g : Option Nat
  /-- a colophon word (R391). -/
  final : Bool
deriving DecidableEq, Repr

/-- Site, touchdown step and epoch (R353). -/
structure Placement where
  site : BitVec 12
  step : Byte
  epoch : BitVec 16
deriving DecidableEq, Repr

/-! ## Lanes -/

/-- An entry written into a lane FIFO and its readers to come (R70, R80). -/
structure FifoEntry where
  e : Entry
  /-- the SPAN edge of the FIFO write. -/
  wr : Instant
  own : Bool
  subs : List Chan
deriving DecidableEq, Repr

/-- An open loss interval (R71 to R73). -/
structure Loss where
  firstConv : Nat
  firstSub : Nat
  firstAbs : Int
  firstTime : Int
  firstPol : Bool
  firstDgen : BitVec 2
  lastTime : Int
  lastDgen : BitVec 2
  count : Nat
deriving DecidableEq, Repr

/-- One lane (02_stamping_lanes.md). LN_CFG and LN_XCHK are in the channel's `cfg`. -/
structure Lane where
  level : Bool
  dgen : BitVec 2
  deskew : BitVec 14
  dskc : Bool
  /-- the deskew of each generation, for entries in flight (R64). -/
  genDeskew : List (BitVec 14)
  lead : Bool
  hwm : Nat
  rise : BitVec 48
  fall : BitVec 48
  lost : BitVec 48
  capRise : BitVec 48
  capFall : BitVec 48
  capLost : BitVec 48
  mismatch : BitVec 16
  abandon : BitVec 16
  /-- instant of the last converted edge, before deskew (R57). -/
  lastConv : Option Instant
  /-- selected edges since the last stamp or restart, and the count at which the next conversion falls (R65, R67). -/
  edges : Nat
  need : Nat
  /-- the count runs from a restart: its first edge is due, whatever the factor (R67). -/
  fromStart : Bool
  /-- instant and polarity of the first of those edges; the arm instant that the lane has not reached yet (R82). -/
  first : Option (Instant × Bool)
  restartAt : Option Instant
  /-- conversions since arm, the interpolator that takes the next (false PING), a cross-check mark waiting (R58, R59). -/
  convCount : Nat
  pong : Bool
  xmark : Bool
  /-- the open check: conversion instant and the leader's fine code (R60). -/
  xopen : Option (Instant × BitVec 11)
  /-- entries reserved and not yet written, with their write edge (R71). -/
  reserved : List (Instant × Entry)
  fifo : List FifoEntry
  /-- entries that their readers have freed while a staged subscription to the lane may still claim them (R95). -/
  past : List FifoEntry
  loss : Option Loss
deriving DecidableEq, Repr

/-! ## Merge, folder and engine -/

/-- The channel merge (R40, R41, R76, R77, R326). -/
structure Merge where
  /-- reads of the last 64 dc: dc and slots counted. -/
  window : List (Nat × Nat)
  eH : BitVec 13
  eL : BitVec 13
  fH : BitVec 6
  fL : BitVec 6
  first : Bool
  /-- stamped time of the last entry counted (R321). -/
  last : Int
  fill : Nat
  /-- the reorder window: item, dc from which the folder may take it, FIFO write edge (Table 20.14). -/
  reorder : List (Item × Nat × Instant)
  /-- items that have reached the folder and belong to a record that has not opened (R26, R274, R671). -/
  taken : List Item
  ins : List Insert
  /-- entries of a new partner lane that its own channel had read before the subscription took effect (R95). -/
  late : List FifoEntry
  held : Bool
deriving DecidableEq, Repr

/-- A moment set (R184). -/
structure Moments where
  n : Nat
  sx : Nat
  sxx : Nat
  mn : Nat
  mx : Nat
  sat : Bool
deriving DecidableEq, Repr

/-- The regression set (R184). -/
structure Regr where
  n : Nat
  t0 : Int
  k : Nat
  st : Nat
  skt : Nat
  sk : Nat
  skk : Nat
  sat : Bool
deriving DecidableEq, Repr

/-- The open gate (R183, Table 5.4). -/
structure Gate where
  isOpen : Bool
  idx : Nat
  start : Int
  flags : BitVec 12
  counts : List Nat
  lost : Nat
  steps : Int
  m0 : Moments
  m1 : Moments
  reg : Regr
  underCnt : Nat
  overCnt : Nat
  /-- histogram bins that are not zero: bin, count. -/
  bins : List (Nat × Nat)
  pass : Nat
  fail : Nat
  abortRef : Nat
  abortOvf : Nat
deriving DecidableEq, Repr

/-- What an item or a verdict adds to its gate (R184, R185, R188): a stamp of a class with its EDGES and gate flags; a
delta of a slot, with DSAT; an OVF mark of an input with its LOST count; flags; a STEP; a verdict's code. -/
inductive GateOp where
  | stamp (cls edges : Nat) (flags : BitVec 12)
  | delta (j d : Nat) (sat : Bool)
  | mark (input lost : Nat)
  | flags (bits : BitVec 12)
  | step (by_ : Int)
  | verdict (code : Nat)
deriving DecidableEq, Repr

/-- A min/max reducer (R187). -/
structure Reducer where
  idx : Nat
  any : Bool
  mn : Nat
  mx : Nat
deriving DecidableEq, Repr

/-- A mask window without a verdict (R188): window number, reference time, start, end, overlap with a loss interval. -/
structure MaskPend where
  w : Nat
  ref : Int
  start : Int
  stop : Int
  ovf : Bool
deriving DecidableEq, Repr

/-- The folder (05_compositor.md). Times are compensated (R130, R178). -/
structure Folder where
  recOpen : Bool
  o : Int
  recNo : BitVec 16
  /-- scale in force at O: a compensated time is an LSB of the time axis plus this. -/
  base : Int
  /-- sum of the STEPs of the record's discontinuity records so far (R130). -/
  comp : Int
  last : Int
  slots : List (Option Int)
  restartH : Bool
  restartL : Bool
  restartP : Bool
  gate : Gate
  /-- what has reached the folder and may still belong to the next engine gate, with its time (R235). -/
  ops : List (Int × GateOp)
  /-- stamps taken that stream time has not passed: time, class (R188). -/
  ahead : List (Int × Nat)
  red : List Reducer
  phsI : Nat
  phsK : Nat
  phsSeen : Bool
  mask : List MaskPend
  rawOpen : List Word
  eH : BitVec 13
  eL : BitVec 13
  fH : BitVec 6
  fL : BitVec 6
  rawFirst : Bool
  rawLast : Int
  due : List Ev
  /-- bank images of the SUMMARY events in `due`. -/
  sums : List (List Dword)
  /-- the first entry of an OVF mark whose second entry has not come; the last loss interval of H, L and partner. -/
  mark1 : Option Entry
  lossIv : List (Option (Int × Int))
  lastPost : Option Nat
  held : Bool
  /-- stream time at which a hold froze it (R178, R198). -/
  frozen : Option Int
  /-- stop time of a FAIL verdict under MSTOP that has not been acted on (R286). -/
  stopAsk : Option Int
  /-- the closing time once decided, and whether CLOSE has been posted (dc). -/
  closing : Option Int
  byDisarm : Bool
  /-- dc in which a record that its trigger closes posts CLOSE (R293). -/
  closeDc : Nat
  closePosted : Option Nat
  /-- the units have been closed at the closing time. -/
  done : Bool
deriving DecidableEq, Repr

/-- STATE of CMP.ENG_STAT (Table 5.10). -/
inductive EngState where
  | off | ready | run | wait | emitw | halt | fault
deriving DecidableEq, Repr

/-- The flags of the engine (R219). -/
structure EngFlags where
  z : Bool
  n : Bool
  c : Bool
  v : Bool
deriving DecidableEq, Repr

/-- What the compositor library still has to do for the event it has taken: emit a word, execute TRIG with a time, execute
STOP (R268, R270); each after so many dc (R271). -/
inductive LibDo where
  | emit (word : Qword)
  | trig (time : Int)
  | stop
deriving DecidableEq, Repr

/-- What the library has still to do, and in how many dc (R270, R271). -/
structure LibAct where
  cost : Nat
  what : LibDo
deriving DecidableEq, Repr

/-- The phase history of ADEV, newest sample first (none: invalid), and S_j and M_j of each tau (R262, R263). -/
structure AdevSt where
  hist : List (Option Int)
  acc : List (Nat × Nat)
deriving DecidableEq, Repr

/-- The compositor library of a forme that carries its marker (07_measurements.md): the channel, the dc of the last event
taken, what is still to do for it; of the record the state of ADEV, the time of the first sample, the flags of the gates
so far, and the limit violations (R247, R262, R268). -/
structure LibSt where
  ch : Nat
  took : Nat
  acts : List LibAct
  adev : AdevSt
  first : Option Int
  flags : BitVec 12
  viol : Nat
deriving DecidableEq, Repr

/-- The engine (R190). -/
structure Engine where
  g : Vector Dword 16
  a : Vector Qword 8
  fl : EngFlags
  pc : BitVec 12
  st : EngState
  /-- IMEM and DMEM words that are not zero: address, word. -/
  imem : List (Nat × Word)
  dmem : List (Nat × Dword)
  /-- words with a soft error: address, uncorrectable (R192). -/
  imemErr : List (Nat × Bool)
  dmemErr : List (Nat × Bool)
  imemCorr : BitVec 16
  dmemCorr : BitVec 16
  faultCode : BitVec 4
  faultPc : BitVec 12
  /-- dc of the start at ENTRY, and dc on which the next instruction starts (R193, R213). -/
  startDc : Nat
  readyDc : Nat
  /-- address of the instruction last started. -/
  pcRun : BitVec 12
  tokens : Nat
  nextRefill : Nat
  queue : List Ev
  hwm : Nat
  holds : BitVec 16
  /-- dc from which the watchdog counts while the queue holds an event (R229). -/
  wdFrom : Option Nat
  spanOpen : Bool
  /-- STOP has acted in the current record span (R233). -/
  stopped : Bool
  spanRec : BitVec 16
  spanO : Int
  spanSteps : Int
  lastTime : Int
  tookClose : Bool
  bank : Option Nat
  boundary : Option Int
  /-- the reload of R193 still to complete (its latest instant), whether it is the one of a switch-on, before which the
  channel cannot be armed (R49), and an arm that waits to start the engine. -/
  reloadDue : Option Instant
  fresh : Bool
  startDue : Option Instant
  /-- destination of the EVT that waits; accumulator of the EMIT that waits. -/
  evtD : BitVec 4
  emitA : BitVec 3
  /-- the engine runs the compositor library. -/
  lib : Option LibSt
deriving DecidableEq, Repr

/-- A summary bank: 192 words, and whether it is held (R194). -/
structure Bank where
  words : List Dword
  held : Bool
deriving DecidableEq, Repr

/-! ## Trigger unit and galley -/

/-- STATE of CMP.TRG_STAT (R309). -/
inductive TrgState where
  | idle | holdoff | armed | collect | fill | held
deriving DecidableEq, Repr

/-- A condition that is met and waits to be acted on: its number, its time, and the earliest dc of the action. -/
structure Cond where
  i : Nat
  time : Int
  dc : Nat
deriving DecidableEq, Repr

/-- The trigger unit (08_trigger_and_galley.md). -/
structure Trigger where
  st : TrgState
  a : Int
  sums : List Nat
  pat : BitVec 24
  /-- crossbar edges not applied yet: deskewed time, lane of the pier, polarity (R278). -/
  cross : List (Int × Nat × Bool)
  patWas : List Bool
  pend : List Cond
  declTime : Int
  declDc : Nat
  cause : BitVec 8
  time : Int
  final : Bool
  ignored : BitVec 16
  missed : BitVec 16
  last : Word
  lastTime : Dword
  cap : Dword
deriving DecidableEq, Repr

/-- Fill state of the writer for one record (R297). -/
inductive FillState where
  | pre | waitTw | fill
deriving DecidableEq, Repr

/-- The open record of a channel (R291 to R297, R332). -/
structure Rec where
  isOpen : Bool
  isSeg : Bool
  slot : Nat
  base : Nat
  r : Nat
  p : Nat
  folio : Nat
  recNo : BitVec 16
  o : Int
  /-- instant of O on the LSB axis. -/
  oAbs : Int
  wp : Nat
  fs : FillState
  tw : Option Nat
  twWord : Qword
  post : Nat
  unwrit : Nat
  flags : Word
  maskFail : Nat
  plO : Option Placement
  plC : Option Placement
  plOpen : Placement
  lastW : OutWord
  written : Nat
  forme : BitVec 6
  trimGen : BitVec 16
  band : BitVec 2
  /-- flags of the DISARM, STOP or switch-off that closes the record. -/
  closeFlags : Word
deriving DecidableEq, Repr

/-- A closed record that awaits readout or is in delivery (R298, R334, R373). -/
structure Closed where
  ch : Chan
  folio : Nat
  isSeg : Bool
  slot : Nat
  base : Nat
  words : Nat
  r : Nat
  wend : Nat
  wrap : Bool
  recNo : BitVec 16
  ring : Ring
  /-- placement epochs of the first and the last entry, none for a record without entries (R373). -/
  epochO : Option (BitVec 16)
  epochC : Option (BitVec 16)
  at_ : Instant
deriving DecidableEq, Repr

/-! ## Trim -/

/-- The trim of one channel (13_trim.md). -/
structure Trim where
  store : List TrimTable
  /-- band of the table in force, none for the default selection of R465. -/
  inForce : Option Nat
  staged : Bool
  pendCells : Bool
  pendDeskew : Bool
  pending : Bool
  running : Bool
  w0 : Instant
  b0 : BitVec 2
  wasArmed : Bool
  wasHeld : Bool
  cellsOk : Bool
  trial : TrimTable
  failReason : BitVec 4
  result : BitVec 2
  reason : BitVec 4
  lastGen : BitVec 16
  figs : List Word
  dskmH : Word
  dskmL : Word
  notrim : Bool
  bandst : Bool
  supply : Bool
deriving DecidableEq, Repr

/-! ## Channel -/

/-- One channel. -/
structure Channel where
  cfg : ChanCfg
  engCtl : Word
  evqCfg : Word
  emitCfg : Word
  armed : Bool
  armAt : Nat
  disarmAt : Option Nat
  laneH : Lane
  laneL : Lane
  merge : Merge
  folder : Folder
  banks : List Bank
  eng : Engine
  outq : List OutWord
  trg : Trigger
  rcd : Rec
  held : Bool
  recCount : BitVec 16
  heldRearm : Option Instant
  formeRearm : Option Instant
  wantRearm : Bool
  /-- an arm taken while the closing record has not reached its boundary (R556): its instant and the scale
  there. -/
  armNext : Option (Nat × Int)
  /-- a disarm of the record that opens then, and the flags of the record that a disarm closes as it opens. -/
  disarmNext : Option Nat
  lateFlags : Word
  /-- number of the first dc at or after the disarm instant. -/
  disarmDc : Nat
  /-- the galley writer's copy of the trigger word of the record that closes: address, word (R392). -/
  twHeld : Option (Nat × Qword)
  forme : Option Nat
  program : Option Nat
  stagedForme : Option Nat
  stagedGalley : Option ChanCfg
  stagedPost : Option (BitVec 30)
  /-- the staged count was given after the switch that is staged, which leaves it (R30, R557). -/
  postLate : Bool
  shedPend : Bool
  pdoffPend : Bool
  trim : Trim
  subOut : Bool
  subIn : Bool
deriving DecidableEq, Repr

/-! ## Placement, SYNC, timebase -/

/-- A fence that waits for its time (R356): its T_F on the time axis if the grid fixes it, and its kind. -/
structure FencePend where
  isRemap : Bool
  subst : Bool
  armB : Bool
  step : Byte
  a : Nat
  b : Nat
  when_ : Dword
  /-- LSB instant from which the first grid instant is taken. -/
  from_ : Nat
deriving DecidableEq, Repr

/-- 10_sites_and_placement.md. -/
structure Place where
  step : Byte
  epoch : BitVec 16
  /-- entries that are not zero: index, word (Table 10.1). -/
  table : List (Nat × Word)
  tableNo : Option Nat
  staged : Option (List (Nat × Word) × Nat)
  subFail : Bool
  rCancel : Bool
  sel : BitVec 15
  ftime : Dword
  capF : Dword
  capP : Dword
  pend : List FencePend
  spares : List (Chan × Chan)
deriving DecidableEq, Repr

/-- The SYNC receiver (R664 to R673). -/
structure SyncSt where
  valid : BitVec 16
  type : BitVec 4
  lastEdge : Option Instant
  errCrc : Byte
  errFrame : Byte
  errRsvd : Byte
  errRefused : Byte
  last : Word
  trig : Dword
  cap : Dword
  /-- instant from which T_M is taken (R104). -/
  mark : Option Instant
deriving DecidableEq, Repr

/-- STATE of TBS.STAT (Table 3.2). -/
inductive TbState where
  | off | acquire | locked | coast | qualify | settle | slew
deriving DecidableEq, Repr

/-- The timebase (03_timebase.md). -/
structure Timebase where
  cfg : Word
  seed : Word
  slewCfg : Word
  st : TbState
  marked : Bool
  /-- REFIN rising edges keep arriving, and the last one known where they may not. -/
  refok : Bool
  lastRef : Option Instant
  sbyOk : Bool
  active : Bool
  step : BitVec 32
  slewRem : Int
  abDiff : BitVec 16
  marks : Byte
  switches : Byte
  reanchors : Byte
  losses : Byte
  phaseTrim : BitVec 16
  /-- stamp of an instant = its LSB count on the time axis plus this. -/
  scale : Int
  /-- what the LFSRs of loops A and B loaded, and when (R100). -/
  lfsrA : BitVec 24
  lfsrB : BitVec 24
  ditherAt : Instant
  /-- the instant of the last divider and modulator reset (R105). -/
  divAt : Instant
  /-- the instant whose control value both loops hold frozen (R114). -/
  frozen : Option Instant
  /-- a phase change of the reference that the active loop follows: its first edge and its size in units (R675). -/
  jump : Option (Instant × Int)
  staged : Option (Word × Word × Word)
  /-- start of the qualification or settle that runs; whether ACQUIRE is in its settle. -/
  since : Instant
  settling : Bool
  subDone : Nat
  measured : Option Int
  tdFrom : Option Instant
  /-- offset between the physical SPAN phase and the scale, in LSB, and the T_D from which it moves to zero (R121). -/
  offset : Int
  glide : Option Instant
  slewStart : Instant
  /-- the loop that failed and when, while the switch-over is to come. -/
  switchDue : Option (Bool × Instant)
  /-- an instant on which SWREF has a rising edge (R141). -/
  swref : Instant
deriving DecidableEq, Repr

/-- STATE of SWP.STAT (Table 4.9). -/
inductive SwState where
  | off | hold | hop | search | run | ramp | fail | safe
deriving DecidableEq, Repr

/-- What an output of a sweep synthesizer presents (R143, R144, R147). -/
inductive SwOut where
  | highZ | parkLow | holdDiv | clock
deriving DecidableEq, Repr

/-- One store entry (Table 4.12). -/
structure StoreEntry where
  valid : Bool
  /-- the forme names the entry, so that a search fills it (R151). -/
  named : Bool
  odiv : BitVec 4
  nint : BitVec 7
  band : BitVec 6
  ctune : Byte
  nfrac : BitVec 24
deriving DecidableEq, Repr

/-- A hop, search or lock in progress: its start, its release, whether it is a full search, the target word
(ODIV, NINT, NFRAC), and whether the stored hop has fallen back. -/
structure HopSt where
  start : Instant
  full : Bool
  fellBack : Bool
  odiv : BitVec 4
  nint : BitVec 7
  nfrac : BitVec 24
  entry : Option Nat
deriving DecidableEq, Repr

/-- One synthesizer (04_sweep_synthesizers.md). -/
structure SynthSt where
  cfg : Word
  odiv : BitVec 4
  nint : BitVec 7
  nfrac : BitVec 24
  ssc : Word
  ramp : Word
  segs : List (Word × Word × Word)
  store : List StoreEntry
  st : SwState
  seg : BitVec 6
  entry : BitVec 6
  pend : Bool
  spread : Bool
  lock : Bool
  hops : Byte
  searches : Byte
  guards : Byte
  advLost : Byte
  hop : Option HopSt
  out : SwOut
  holdDiv : Nat
  /-- the first rising edge of the clock that the output shows, and the last falling edge before it (R147, R148). -/
  rise : Instant
  fall : Instant
  /-- the instant at which the spread modulation last began at its upper extreme (R146). -/
  modAt : Instant
  rampOn : Bool
  /-- the ramp word in units of 2^-32 of the ratio, the SWREF cycles of the segment, and the instant of its t = 0. -/
  w : Int
  t0 : Instant
  tDone : Nat
  startDue : Option Instant
  advance : Option Instant
  staged : Option SweepCfg
  stagedSsc : Option Word
  lockStart : Option Instant
  /-- store entry of the current chain (R157); entries that a refill has still to search (R151). -/
  chain : BitVec 6
  refill : List Nat
  refilling : Bool
  /-- the forme whose coming into force has reached the ramp (R158). -/
  inForce : Option Nat
deriving DecidableEq, Repr

/-! ## Folios and writers -/

/-- A folio entry (Table 8.2). -/
structure Folio where
  ttime : Dword
  addr : BitVec 30
  ch : BitVec 7
  seg : Bool
  trig : Bool
  stop : Bool
  trunc : Bool
  ovf : Bool
  st : BitVec 2
  recNo : BitVec 16
deriving DecidableEq, Repr

/-- A word in a chunk buffer: galley word address, data, dc of its arrival, and whether it closes a record. -/
structure BufWord where
  ch : Chan
  g : Nat
  word : Qword
  dc : Nat
  final : Bool
deriving DecidableEq, Repr

/-! ## Vault -/

/-- STATE of VLT.STAT (Table 11.12). -/
inductive VltState where
  | off | train | init | run | selfref | safe | frozen
deriving DecidableEq, Repr

/-- What a request does. -/
inductive ReqKind where
  | writeBurst | rmw | readBurst | scrub | writeBack | codewordRead | codewordWrite | nrr
deriving DecidableEq, Repr

/-- A request of the table (R389). `burst` is g div 2; `row` names the row of a neighbour refresh. -/
structure Req where
  id : Nat
  port : Nat
  kind : ReqKind
  pc : Nat
  bank : Nat
  row : Nat
  burst : Nat
  /-- words to write: half, data. -/
  data : List (Bool × Qword)
  accepted : Nat
  promoted : Bool
  hint : Bool
  /-- the last command has been issued; data have not returned yet. -/
  issued : Bool
  /-- the read half of a read-modify-write or scrub has returned. -/
  gotRead : Bool
  presented : Bool
  /-- the half that the port writes, where the request carries the other one along (R392). -/
  only : Option Bool
deriving DecidableEq, Repr

/-- One command of the history (Table 12.4). -/
structure HistCmd where
  vct : BitVec 16
  cmd : BitVec 4
  port : BitVec 4
  bg : BitVec 2
  ba : BitVec 2
  row : BitVec 15
  col : BitVec 5
  req : BitVec 12
deriving DecidableEq, Repr

/-- One pseudo-channel. -/
structure PcSt where
  ce : Word
  ceLog : BitVec 30
  /-- refresh debt: value at vc `dAt` (R419). -/
  debt : Nat
  dAt : Nat
  rptr : BitVec 4
  forced : BitVec 16
  nrrs : BitVec 16
  /-- units committed in the window of R429, units committed and not yet issued (R420). -/
  units : Nat
  owed : Nat
  /-- open row and vc of last access of each bank. -/
  rows : List (Option (Nat × Nat))
  /-- neighbour tables: bank, entry, row, count (R427). -/
  nrr : List (Nat × Nat × Nat × Nat)
  scrubAt : Nat
  scrubLast : Nat
  hist : List HistCmd
  /-- vc until which the pseudo-channel is occupied by refresh. -/
  busyTo : Nat
  /-- chunks of galley writers in progress (R420): galley word address / 128. -/
  chunks : List Nat
  /-- vc until which each bank is occupied by a per-bank refresh, vc of the last of them, and whether the rest of a set is
  forced at the Insert level (R418, R420). -/
  bankTo : List Nat
  lastPb : Nat
  insert : Bool
deriving DecidableEq, Repr

/-- The vault (11_vault_controller.md, 12_vault_maintenance.md). -/
structure Vault where
  cfg : Word
  st : VltState
  admDone : Bool
  admResult : BitVec 4
  admPierNo : BitVec 3
  admTotal : Word
  admPier : List Word
  admPcl : Word
  poolMin : Nat
  portCfg : List Word
  promo : List (BitVec 16)
  late : List (BitVec 16)
  reqs : List Req
  nextId : Nat
  mnt : Word
  dbl : Bool
  rdFail : Bool
  badReads : Nat
  goodReads : Nat
  stemp : Byte
  srcnt : Byte
  scrubPass : Word
  scrubbed : Nat
  pcs : Vector PcSt 32
  /-- mc at which the idle timer last restarted (R424). -/
  idleFrom : Option Nat
  /-- vc at which self-refresh entry began (kept until the exit), at which exit began; vc of the first event that asks
  for an exit (R425, R426). -/
  srEntry : Option Nat
  srExit : Option Nat
  srWake : Option Nat
  /-- the freeze vc (R435). -/
  frzVc : Option Nat
  frzStat : Word
  frzAddr : BitVec 30
  frzPaddr : BitVec 34
  frzSyn : BitVec 16
  frzHsel : BitVec 6
  frzHist : List HistCmd
  capHist : Dword
  trnResult : BitVec 4
  trnWlane : BitVec 11
  trnWeye : Byte
  trnSel : BitVec 11
  trnLanes : List Word
  /-- start of training or restore (mc), whether it is a quick restore. -/
  trnStart : Option (Nat × Bool)
  initStart : Option Nat
deriving DecidableEq, Repr

/-! ## Viaduct -/

/-- STATE of VIA.RING_STAT (Table 9.13). -/
inductive RingState where
  | off | idle | busy | starved | err
deriving DecidableEq, Repr

/-- A delivery in progress: folio, words of the stream asked for and words put into descriptors, bytes in the descriptor
in use, SOP due, ABANDON asked (R341), words read that no descriptor has taken yet, and the LINK edge at which the last
of them is at the endpoint (R670). -/
structure Delivery where
  folio : Nat
  asked : Nat
  sent : Nat
  inDesc : Nat
  first : Bool
  abandon : Bool
  fetched : List Qword
  arrived : Instant
deriving DecidableEq, Repr

/-- A transfer of a read port (R335): its ring, the galley words it asks for in stream order, those that have come, and
whether its delivery still stands. -/
structure Xfer where
  ring : Ring
  gs : List Nat
  got : List (Nat × Qword)
  live : Bool
deriving DecidableEq, Repr

/-- One host ring (Tables 9.11 to 9.13). -/
structure RingSt where
  base : Dword
  en : Bool
  autorel : Bool
  irqen : Bool
  log2n : BitVec 5
  tail : BitVec 16
  head : BitVec 16
  st : RingState
  done : Word
  seq : BitVec 16
  queue : List Nat
  descs : List Desc
  /-- the VAULT visibility edge of each of them: a read port sees it from there on (Table 20.13). -/
  descVis : List Instant
  delivery : Option Delivery
  starvedFrom : Option Instant
deriving DecidableEq, Repr

/-- A memory write the endpoint issues (R339, R348): data of a buffer with the instant from which the endpoint holds it
(R670), a write-back, or a vector. -/
inductive PcieOut where
  | data (addr : Dword) (words : List Qword) (ready : Instant)
  | writeBack (ring : Ring) (index : BitVec 16) (wlen : Word) (folio : BitVec 16) (ch : Byte) (flg : Byte)
      (recNo : BitVec 16) (seq : BitVec 16)
  | msix (ring : Ring)
  | completion (data : Qword) (poisoned : Bool)
  | completerAbort
  | retry
  | success
deriving DecidableEq, Repr

/-- The viaduct and endpoint (09_records_and_readout.md). -/
structure Viaduct where
  starve : BitVec 16
  width : BitVec 6
  speed : BitVec 4
  irqStat : Word
  rings : Vector RingSt 32
  linkUp : Bool
  msix : List (Nat × Word)
  msixPend : Word
  /-- pier whose ring each read port serves next, and the transfer each port is making. -/
  rr : List Nat
  xfers : List (Option Xfer)
  /-- what the endpoint has issued, oldest first (the model's own record; notes/assumptions/32.md). -/
  out : List PcieOut
deriving DecidableEq, Repr

/-! ## Truss -/

/-- One history entry (Table 17.9). -/
structure Hist where
  span : Dword
  mclk : Word
  source : Byte
  cause : Byte
  merge : Byte
  inj : Bool
  real : Bool
  react : BitVec 3
  /-- the entry's own number, by which its source refers to it (the model's; not a field of Table 17.9). -/
  id : Nat
deriving DecidableEq, Repr

/-- One source (R574, R605). -/
structure SrcSt where
  cfg : Word
  pend : Bool
  level : BitVec 3
  lreal : Bool
  linj : Bool
  latch : Byte
  /-- mc of expiry of the escalation timer. -/
  timer : Option Nat
  entReal : Option Nat
  entInj : Option Nat
  entTimer : Option Nat
  /-- mc of the 64th edge of TRAP, of BLOCK (R579). -/
  trapDue : Option Nat
  blockDue : Option Nat
  /-- mc of the last recognition edge, and the causes that are no levels, which read LIVE for that mc (R576). -/
  pulseMc : Nat
  pulse : Byte
deriving DecidableEq, Repr

/-- A condition on its way to its recognition edge (R576): mc of the edge, source, causes, real, injected, CONTAIN. -/
structure Recog where
  mc : Nat
  src : Source
  causes : Byte
  real : Bool
  inj : Bool
  contain : Bool
deriving DecidableEq, Repr

/-- The truss (17_truss.md). -/
structure Truss where
  srcs : Vector SrcSt 256
  incoming : List Recog
  hist : List Hist
  nextEnt : Nat
  histLost : Byte
  histSel : BitVec 4
  capHist : Qword
  capMclk : BitVec 48
  alivePeriod : BitVec 10
  aliveStopped : Bool
  aliveSrc : Byte
  alive : Bool
  aliveNext : Option Nat
  aliveStopAt : Option Nat
  /-- mc from which nINT follows the pending state last changed (R565). -/
  nintAt : Nat
  /-- mc of the change before that one. -/
  nintPrev : Nat
deriving DecidableEq, Repr

/-- The TST block (Table 17.12). -/
structure Tst where
  on : Bool
  creact : Bool
  xdlySel : Byte
  /-- crossing delays that are not zero: index, d. -/
  xdly : List (Nat × Byte)
  stallEn : Bool
  stallTarget : BitVec 5
  stallLen : BitVec 16
  stallPer : BitVec 24
  /-- a pulse lasts; the cycle count (dc or vc) of its next edge. -/
  stalling : Bool
  stallNext : Nat
  vschedPc : Word
  vschedDly : Byte
  rpost : Word
  eccArm : Bool
  eccMode : BitVec 2
  eccPort : BitVec 4
  eccB : Byte
  /-- galley word addresses of the injected codewords listed, newest first (R598). -/
  eccList : List Nat
  /-- override of each sensor: EN, reading in °C. -/
  tovr : List (Bool × Byte)
deriving DecidableEq, Repr

/-! ## Thermal, power, image, port, life cycle -/

/-- One sensor (18_thermal.md). Readings in 1/8 °C. -/
structure Sensor where
  reading : Int
  broken : Bool
  invalid : Bool
  fails : Nat
  differs : Nat
  warn : Bool
  hot : Nat
  samples : List Int
  means : List Int
  rateArmed : Bool
deriving DecidableEq, Repr

/-- A pier's temperature (R611, R612); T_k in 1/16 °C. -/
structure PierTemp where
  t : Int
  last : List Int
  band : BitVec 2
  fallback : Bool
deriving DecidableEq, Repr

/-- The thermal monitor. -/
structure Thermal where
  sens : Vector Sensor 18
  piers : Vector PierTemp 8
  evaluated : Bool
  req : Option Nat
  deadline : Nat
  /-- ACKEXT in ms that applies to the standing request: that in force when it started (R618). -/
  reqExt : Nat
  acked : Bool
  expired : Bool
  shDone : Bool
  shedFrom : Option Nat
  shed : BitVec 96
  cfg : Word
  sdLog : Word
  /-- T_SD in mc, the sensor whose reading began the shutdown, that reading (R623, Table 18.7). -/
  shutdown : Option (Nat × Fin 18 × Int)
  /-- mc at which the request last started or ended, which the THROTTLE pin follows (R566). -/
  throttleAt : Nat
deriving DecidableEq, Repr

/-- Phase of a switched domain (R531). -/
inductive DomSt where
  | off
  | waiting
  | turningOn (start : Nat)
  | on
  | turningOff (start : Nat)
deriving DecidableEq, Repr

/-- Mode (Table 15.1). -/
inductive Mode where
  | reset | load | trim | run | shed | freeze
deriving DecidableEq, Repr

/-- One rail monitor. -/
structure Rail where
  warn : Bool
  overLvl : Bool
  dips : BitVec 16
deriving DecidableEq, Repr

/-- 15_modes_and_power_up.md. -/
structure Power where
  mode : Mode
  prev : Mode
  rstSrc : Byte
  rstRail : BitVec 3
  rstTherm : Bool
  rstTruss : Bool
  rstSupply : Bool
  rstPin : Bool
  rstPor : Bool
  rstCount : BitVec 16
  nvmv : Bool
  rails : Vector Rail 6
  dipActive : Bool
  dipLong : Bool
  dipRails : BitVec 6
  dipStart : Nat
  dipDuration : Nat
  /-- SPAN visibility edges of dip start and end, in LSB on the time axis (R526). -/
  dipS : Nat
  dipE : Option Nat
  /-- the intervals [S, E) of earlier dips that mark entries. -/
  sups : List (Nat × Nat)
  dipStamp : Dword
  capDip : Dword
  doms : Vector DomSt 104
  /-- pier domains that a switch-off or a cycle waits to switch; channel domains to switch on again (Table 17.4). -/
  cycle : List Nat
  pdFail : BitVec 7
  thermHold : Bool
  /-- a thermal shutdown acted: release waits for the central sensor too. -/
  thermWait : Bool
  trussHold : Option Nat
  mclk0 : Nat
deriving DecidableEq, Repr

/-- A STORE_CAL in progress (R469): step 3 to 7. -/
structure StoreSt where
  copy : List TrimTable
  target : BitVec 2
  gen : Word
  step : Nat
  pages : Nat
  retried : Bool
  stopping : Bool
deriving DecidableEq, Repr

/-- The NVM block (13_trim.md, 14_configuration_image.md). -/
structure Nvm where
  flash : Option Flash
  dev : Word
  phase : BitVec 4
  quick : Bool
  rfail : Bool
  /-- wait of R496 in units of 250,000 mc. -/
  shift : Nat
  /-- the timebase and both synthesizers have locked (R496). -/
  clocksOk : Bool
  result : BitVec 4
  why : BitVec 4
  dirent : Byte
  nforme : Byte
  imgVer : Word
  ok : BitVec 64
  sel : BitVec 6
  whys : List Word
  runPhase : BitVec 2
  target : BitVec 6
  noForme : Bool
  bootf : BitVec 6
  stagedForme : Option Nat
  /-- forme whose power map, shed list and spare list are in force (Table 14.10). -/
  powerForme : Option Nat
  calState : BitVec 4
  calResult : BitVec 4
  inForce : BitVec 2
  pages : Byte
  genA : Word
  genB : Word
  tgen : BitVec 16
  store : Option StoreSt
  /-- an NVM page program or erase is in progress (R527, R625). -/
  programming : Bool
deriving DecidableEq, Repr

/-- The command in progress (R549): opcode, latched arguments and buffer, issue edge, what was seen at that edge, and
its outcome once the command has acted. -/
structure Cmd where
  opc : Byte
  arg : List Word
  buf : List Word
  issue : Nat
  reqAtIssue : Bool
  coolAtIssue : Bool
  outcome : Option (Byte × List Word × Option (List Word))
  doneAt : Option Nat
  /-- DIAG_READ, DIAG_WRITE: requests of port DG that are not done, and the words read: position, word. -/
  left : List Nat
  got : List (Nat × Qword)
  /-- DIAG_READ: position of the word found uncorrectable. -/
  bad : Option Nat
deriving DecidableEq, Repr

/-- The MSP block (16_management_port.md). -/
structure Msp where
  fwup : Bool
  last : Byte
  errCrc : Byte
  errBadop : Byte
  errAbort : Byte
  errBusy : Byte
  busy : Bool
  done : Bool
  tag : Byte
  opc : Byte
  code : Byte
  arg : Vector Word 8
  resp : Vector Word 8
  buf : Vector Word 64
  cmd : Option Cmd
  /-- the bytes after the wait bytes of the last frame: start byte, STATUS, data, RCRC (Table 16.1). -/
  miso : List Byte
deriving DecidableEq, Repr

/-- An ADVANCE that programs fuse words (R640), or one word of the maker window. -/
structure FuseSeq where
  target : BitVec 4
  words : List (Nat × Word)
  start : Nat
  byAdvance : Bool
deriving DecidableEq, Repr

/-- The LCY block and the fuses (19_lifecycle.md). -/
structure LifeCycle where
  /-- fuse words that are not zero. -/
  fuses : List (Nat × Word)
  /-- the state as last read from fuse word 4 (R633). -/
  state : BitVec 4
  csess : Bool
  mtok : Bool
  nonce : Option (BitVec 256)
  why : BitVec 4
  last : BitVec 4
  words : Byte
  mkSel : BitVec 7
  seq : Option FuseSeq
deriving DecidableEq, Repr

/-- The states of the TAP controller (IEEE 1149.1, R663). -/
inductive TapState where
  | testLogicReset | runTestIdle | selectDr | captureDr | shiftDr | exit1Dr | pauseDr | exit2Dr | updateDr
  | selectIr | captureIr | shiftIr | exit1Ir | pauseIr | exit2Ir | updateIr
deriving DecidableEq, Repr

/-- The instructions of boundary scan (R663). -/
inductive TapInstr where
  | bypass | samplePreload | extest | extestPulse | extestTrain
deriving DecidableEq, Repr

/-- The TAP: controller, instruction register and its shift stage, bypass register, boundary register (shift and update
stages, the cell next to TDO first), and whether the test signal of IEEE 1149.6 stands turned. -/
structure Tap where
  st : TapState
  ir : TapInstr
  irShift : List Bool
  bypass : Bool
  scan : List Bool
  held : List Bool
  turned : Bool
deriving DecidableEq, Repr

def Tap.reset : Tap :=
  { st := .testLogicReset, ir := .bypass, irShift := [], bypass := false, scan := [], held := [], turned := false }

/-- The machine. -/
structure State where
  now : Instant
  clocks : Clocks
  /-- counter with which free values are drawn (the model's own field, notes/assumptions/9.md). -/
  free : Nat
  chans : Vector Channel 96
  place : Place
  sync : SyncSt
  tb : Timebase
  synths : Vector SynthSt 10
  folios : List (Nat × Folio)
  folioSel : BitVec 16
  closed : List Closed
  /-- galley data: byte cells (BAR2 address), and stored check bits that differ from those of R384. -/
  mem : List Host.Cell
  chk : List (Nat × BitVec 16)
  writers : Vector (List BufWord) 8
  vlt : Vault
  via : Viaduct
  truss : Truss
  tst : Tst
  thm : Thermal
  pwr : Power
  nvm : Nvm
  msp : Msp
  lcy : LifeCycle
  /-- boundary scan: no chip reset touches it (notes/assumptions/72.md). -/
  tap : Tap
  pending : List Instr
deriving DecidableEq, Repr

/-! ## Reset -/

/-- Channel configuration words at reset (Tables 2.4, 2.6, 5.8, 8.4 to 8.9). -/
def ChanCfg.reset : ChanCfg :=
  { lnCfgH := 0, lnCfgL := 0, lnXchkH := 0x00080000, lnXchkL := 0x00080000, deskewH := 0, deskewL := 0, ptnr := 0
    fldCfg := 0, gateSc := 0x001312D0, dslot := List.replicate 4 0, redCfg := List.replicate 2 0, redSc := 0x4E2
    momCfg := 0, regCfg := 0, histCfg := 0, histBase := 0, phsCfg := 0, maskRef := 0
    maskWin := List.replicate 16 (0, 0, 0), trgCfg := 0x10000000, trgAuto := 0x001312D0
    trgCond := List.replicate 8 (0, 0, 0), circ := 0x00010000, seg := 0, segFmt := 0x000C07D0, post := 0
    folio := 0, chmap := 0 }

/-- A lane at reset. The receiver output is taken as low (notes/assumptions/5.md). -/
def Lane.reset : Lane :=
  { level := false, dgen := 0, deskew := 0, dskc := false, genDeskew := List.replicate 4 0, lead := false, hwm := 0
    rise := 0, fall := 0, lost := 0, capRise := 0, capFall := 0, capLost := 0, mismatch := 0, abandon := 0
    lastConv := none, edges := 0, need := 1, fromStart := true, first := none, restartAt := none, convCount := 0, pong := false, xmark := false, xopen := none
    reserved := [], fifo := [], past := [], loss := none }

def Moments.reset : Moments := { n := 0, sx := 0, sxx := 0, mn := 0, mx := 0, sat := false }
def Regr.reset : Regr := { n := 0, t0 := 0, k := 0, st := 0, skt := 0, sk := 0, skk := 0, sat := false }

def Gate.reset : Gate :=
  { isOpen := false, idx := 0, start := 0, flags := 0, counts := List.replicate 6 0, lost := 0, steps := 0
    m0 := Moments.reset, m1 := Moments.reset, reg := Regr.reset, underCnt := 0, overCnt := 0, bins := []
    pass := 0, fail := 0, abortRef := 0, abortOvf := 0 }

def Reducer.reset : Reducer := { idx := 0, any := false, mn := 0, mx := 0 }

def Merge.reset : Merge :=
  { window := [], eH := 1, eL := 1, fH := 0, fL := 0, first := true, last := 0, fill := 0, reorder := [], taken := [], ins := [], late := [], held := false }

def Folder.reset : Folder :=
  { recOpen := false, o := 0, recNo := 0, base := 0, comp := 0, last := 0, slots := List.replicate 4 none
    restartH := false, restartL := false, restartP := false, gate := Gate.reset, ops := [], ahead := []
    red := List.replicate 2 Reducer.reset, phsI := 0, phsK := 0, phsSeen := false, mask := [], rawOpen := []
    eH := 1, eL := 1, fH := 0, fL := 0, rawFirst := true, rawLast := 0, due := [], sums := []
    mark1 := none, lossIv := [none, none, none], lastPost := none, held := false, frozen := none, stopAsk := none
    closing := none, byDisarm := false, closeDc := 0, closePosted := none, done := false }

def Engine.reset : Engine :=
  { g := Vector.replicate 16 0, a := Vector.replicate 8 0, fl := ⟨false, false, false, false⟩, pc := 0, st := .off
    imem := [], dmem := [], imemErr := [], dmemErr := [], imemCorr := 0, dmemCorr := 0, faultCode := 0, faultPc := 0
    startDc := 0, readyDc := 0, pcRun := 0, tokens := 0, nextRefill := 0, queue := [], hwm := 0, holds := 0, wdFrom := none
    spanOpen := false, stopped := false, spanRec := 0, spanO := 0, spanSteps := 0, lastTime := 0, tookClose := false
    bank := none, boundary := none, reloadDue := none, fresh := false, startDue := none, evtD := 0, emitA := 0
    lib := none }

def Bank.reset : Bank := { words := List.replicate 192 0, held := false }

def Trigger.reset : Trigger :=
  { st := .idle, a := 0, sums := List.replicate 8 0, pat := 0, cross := [], patWas := List.replicate 8 false
    pend := [], declTime := 0, declDc := 0, cause := 0, time := 0, final := false, ignored := 0, missed := 0
    last := 0, lastTime := 0, cap := 0 }

def OutWord.none : OutWord := { word := 0, emit := false, eH := 0, eL := 0, fH := 0, fL := 0, last := 0, dc := 0, g := Option.none, final := false }

def Rec.reset : Rec :=
  { isOpen := false, isSeg := false, slot := 0, base := 0, r := 0, p := 0, folio := 0, recNo := 0, o := 0, oAbs := 0
    wp := 0, fs := .pre, tw := none, twWord := 0, post := 0, unwrit := 0, flags := 0, maskFail := 0
    plO := none, plC := none, plOpen := ⟨0, 0, 0⟩, lastW := OutWord.none, written := 0, forme := 0, trimGen := 0
    band := 0, closeFlags := 0 }

/-- A trim table without content (CV = DV = 0). -/
def TrimTable.blank : TrimTable :=
  { cv := false, dv := false, leadH := false, leadL := false, gen := 0, masks := List.replicate 4 (0, 0)
    deskewH := 0, deskewL := 0, figs := List.replicate 10 0 }

def Trim.reset : Trim :=
  { store := List.replicate 4 TrimTable.blank, inForce := none, staged := false, pendCells := false
    pendDeskew := false, pending := false, running := false, w0 := 0, b0 := 0, wasArmed := false, wasHeld := false
    cellsOk := false, trial := TrimTable.blank, failReason := 0, result := 0, reason := 0, lastGen := 0
    figs := List.replicate 10 0, dskmH := 0, dskmL := 0, notrim := true, bandst := false, supply := false }

def Channel.reset : Channel :=
  { cfg := ChanCfg.reset, engCtl := 0x1000, evqCfg := 0, emitCfg := 0, armed := false, armAt := 0, disarmAt := none
    laneH := Lane.reset, laneL := Lane.reset, merge := Merge.reset, folder := Folder.reset
    banks := List.replicate 4 Bank.reset, eng := Engine.reset, outq := [], trg := Trigger.reset, rcd := Rec.reset
    held := false, recCount := 0, heldRearm := none, formeRearm := none, wantRearm := false, armNext := none, disarmNext := none, disarmDc := 0, lateFlags := 0, twHeld := none
    forme := none, program := none, stagedForme := none, stagedGalley := none, stagedPost := none, postLate := false
    shedPend := false, pdoffPend := false, trim := Trim.reset, subOut := false, subIn := false }

def Place.reset : Place :=
  { step := 0, epoch := 0, table := [], tableNo := none, staged := none, subFail := false, rCancel := false, sel := 0
    ftime := 0, capF := 0, capP := 0xFFFFFFFFFFFFFFFF, pend := [], spares := [] }

def SyncSt.reset : SyncSt :=
  { valid := 0, type := 0, lastEdge := none, errCrc := 0, errFrame := 0, errRsvd := 0, errRefused := 0, last := 0
    trig := 0, cap := 0, mark := none }

/-- PHASE_TRIM is maker-set: it is taken from fuse word 32 at reset (R134, R634; notes/assumptions/7.md). -/
def Timebase.reset (phaseTrim : BitVec 16) : Timebase :=
  { cfg := 0, seed := 1, slewCfg := 0x10000028, st := .off, marked := false, refok := false, lastRef := none, sbyOk := false
    active := false, step := 0, slewRem := 0, abDiff := 0, marks := 0, switches := 0, reanchors := 0, losses := 0
    phaseTrim := phaseTrim, scale := 0, lfsrA := 1, lfsrB := 1, ditherAt := 0, divAt := 0, frozen := none, jump := none
    staged := none, since := 0, settling := false
    subDone := 0, measured := none, tdFrom := none, offset := 0, glide := none, slewStart := 0, switchDue := none
    swref := 0 }

def StoreEntry.reset : StoreEntry := { valid := false, named := false, odiv := 0, nint := 0, band := 0, ctune := 0, nfrac := 0 }

/-- A synthesizer at reset; `flim` is 0xCE4 for SW0 to SW7 and 0x3F2 for DECK and VAULT (R169, R170). -/
def SynthSt.reset (cfg : Word) (st : SwState) : SynthSt :=
  { cfg := cfg, odiv := 0, nint := 0, nfrac := 0, ssc := 0x7D, ramp := 0, segs := List.replicate 64 (0, 0, 0)
    store := List.replicate 64 StoreEntry.reset, st := st, seg := 0, entry := 0, pend := false, spread := false
    lock := false, hops := 0, searches := 0, guards := 0, advLost := 0, hop := none, out := .highZ, holdDiv := 0
    rise := 0, fall := 0, modAt := 0, inForce := none
    rampOn := false, w := 0, t0 := 0, tDone := 0, startDue := none, advance := none, staged := none
    stagedSsc := none, lockStart := none, chain := 0, refill := []
    refilling := false }

def PcSt.reset : PcSt :=
  { ce := 0, ceLog := 0, debt := 0, dAt := 0, rptr := 0, forced := 0, nrrs := 0, units := 0, owed := 0
    rows := List.replicate 16 none, nrr := [], scrubAt := 0, scrubLast := 0, hist := [], busyTo := 0
    chunks := [], bankTo := List.replicate 16 0, lastPb := 0, insert := false }

/-- VLT.PORT_CFG at reset (R412). -/
def portCfgReset : List Word :=
  List.replicate 8 0x04000100 ++ List.replicate 4 0x08000080 ++ [0x20000040, 0x40000020]

def Vault.reset : Vault :=
  { cfg := 0x00100040, st := .off, admDone := false, admResult := 0, admPierNo := 0, admTotal := 0
    admPier := List.replicate 8 0, admPcl := 0
    poolMin := 0, portCfg := portCfgReset, promo := List.replicate 14 0, late := List.replicate 14 0, reqs := []
    nextId := 0, mnt := 0x64408000, dbl := false, rdFail := false, badReads := 0, goodReads := 0, stemp := 0
    srcnt := 0, scrubPass := 0, scrubbed := 0, pcs := Vector.replicate 32 PcSt.reset, idleFrom := none
    srEntry := none, srExit := none, srWake := none, frzVc := none, frzStat := 0, frzAddr := 0, frzPaddr := 0, frzSyn := 0, frzHsel := 0, frzHist := []
    capHist := 0, trnResult := 0, trnWlane := 0, trnWeye := 0, trnSel := 0, trnLanes := [], trnStart := none
    initStart := none }

def RingSt.reset : RingSt :=
  { base := 0, en := false, autorel := false, irqen := false, log2n := 4, tail := 0, head := 0, st := .off, done := 0
    seq := 0, queue := [], descs := [], descVis := [], delivery := none, starvedFrom := none }

def Viaduct.reset : Viaduct :=
  { starve := 0, width := 0, speed := 0, irqStat := 0, rings := Vector.replicate 32 RingSt.reset, linkUp := false
    msix := (List.range 32).map (fun r => (4 * r + 3, 1)), msixPend := 0, rr := List.replicate 4 0
    xfers := List.replicate 4 none, out := [] }

/-- TRS.SRC_CFG at reset (Table 17.1). -/
def srcCfgReset (n : Nat) : Word :=
  if n ≤ 95 then 0x2D800000
  else if n ≤ 103 then 0x60200000
  else if n ≤ 135 then 0x00E00000
  else if n = 136 then 0x21100000
  else if n = 137 then 0x80300000
  else if n ≤ 151 then 0
  else if n = 152 then 0x20300000
  else if n = 153 then 0x21700000
  else if n ≤ 163 then 0x22300000
  else if n ≤ 187 then 0x2FF00000
  else if n ≤ 193 then 0x20300000
  else if n = 194 then 0x20100000
  else if n ≤ 203 then 0
  else if n = 204 then 0x20900000
  else if n ≤ 209 then 0x20100000
  else if n ≤ 219 then 0
  else if n = 220 then 0x27F00000
  else if n = 221 then 0x20F00000
  else if n = 222 then 0x21E00000
  else if n = 223 then 0
  else if n ≤ 231 then 0x2FF00000
  else if n = 232 then 0x00700000
  else if n = 233 then 0x80500000
  else if n ≤ 239 then 0
  else if n = 240 then 0x20400000
  else 0

def SrcSt.reset (n : Nat) : SrcSt :=
  { cfg := srcCfgReset n, pend := false, level := 0, lreal := false, linj := false, latch := 0, timer := none
    entReal := none, entInj := none, entTimer := none, trapDue := none, blockDue := none
    pulseMc := 0, pulse := 0 }

def Truss.reset : Truss :=
  { srcs := (Vector.range 256).map SrcSt.reset, incoming := [], hist := [], nextEnt := 0, histLost := 0, histSel := 0
    capHist := 0, capMclk := 0, alivePeriod := 10, aliveStopped := false, aliveSrc := 0, alive := false
    aliveNext := none, aliveStopAt := none, nintAt := 0, nintPrev := 0 }

def Tst.reset : Tst :=
  { on := false, creact := false, xdlySel := 0, xdly := [], stallEn := false, stallTarget := 0, stallLen := 0
    stallPer := 0, stalling := false, stallNext := 0, vschedPc := 0, vschedDly := 0, rpost := 0, eccArm := false
    eccMode := 0, eccPort := 0, eccB := 0, eccList := [], tovr := List.replicate 18 (false, 0) }

def Sensor.reset : Sensor :=
  { reading := 0, broken := false, invalid := false, fails := 0, differs := 0, warn := false, hot := 0
    samples := [], means := [], rateArmed := true }

def PierTemp.reset : PierTemp := { t := 0, last := [], band := 0, fallback := false }

def Thermal.reset (sdLog : Word) : Thermal :=
  { sens := Vector.replicate 18 Sensor.reset, piers := Vector.replicate 8 PierTemp.reset, evaluated := false
    req := none, deadline := 0, reqExt := 0, acked := false, expired := false, shDone := false, shedFrom := none, shed := 0
    cfg := 0x07D001F4, sdLog := sdLog, shutdown := none, throttleAt := 0 }

def Rail.reset : Rail := { warn := false, overLvl := false, dips := 0 }

/-- The power plane after a power-on, at reset release (R539). -/
def Power.reset : Power :=
  { mode := .load, prev := .reset, rstSrc := 0, rstRail := 0, rstTherm := false, rstTruss := false
    rstSupply := false, rstPin := false, rstPor := true, rstCount := 0, nvmv := false
    rails := Vector.replicate 6 Rail.reset, dipActive := false, dipLong := false, dipRails := 0, dipStart := 0
    dipDuration := 0, dipS := 0, dipE := some 0, sups := [], dipStamp := 0, capDip := 0
    doms := Vector.replicate 104 DomSt.off, cycle := [], pdFail := 0x7F, thermHold := false, thermWait := false, trussHold := none
    mclk0 := 0 }

def Nvm.reset (flash : Option Flash) : Nvm :=
  { flash := flash, dev := 0, phase := 0, quick := false, rfail := false, shift := 0, clocksOk := false, result := 0, why := 0
    dirent := 0xFF, nforme := 0, imgVer := 0, ok := 0, sel := 0, whys := List.replicate 64 0xFF7F0000
    runPhase := 0, target := 0, noForme := false, bootf := 0, stagedForme := Option.none, powerForme := Option.none, calState := 0
    calResult := 0, inForce := 0, pages := 0, genA := 0, genB := 0, tgen := 1, store := Option.none
    programming := false }

def Msp.reset : Msp :=
  { fwup := false, last := 0, errCrc := 0, errBadop := 0, errAbort := 0, errBusy := 0, busy := false, done := false
    tag := 0, opc := 0, code := 0, arg := Vector.replicate 8 0, resp := Vector.replicate 8 0
    buf := Vector.replicate 64 0, cmd := none, miso := [] }

/-- The life-cycle block with the given fuses: STATE is read from fuse word 4 (R633). -/
def LifeCycle.reset (fuses : List (Nat × Word)) (state : BitVec 4) : LifeCycle :=
  { fuses := fuses, state := state, csess := false, mtok := false, nonce := none, why := 0, last := 0, words := 0
    mkSel := 0, seq := none }

/-- Nominal periods of Table 0.2; phases zero (notes/assumptions/1.md). -/
def Clocks.nominal : Clocks :=
  { deck := ⟨64000, 0, 0, none⟩, vault := ⟨64000, 0, 0, none⟩, link := ⟨64000, 0, 0, none⟩
    mgmt := ⟨256000, 0, 0, none⟩, sync := ⟨256000, 0, 0, none⟩ }

/-- From reset until LOAD locks them, DECK and VAULT run from the MGMT safe clock (R161). -/
def Clocks.safe : Clocks := { Clocks.nominal with deck := Clocks.nominal.mgmt, vault := Clocks.nominal.mgmt }

/-- The ten synthesizers at reset: SW0 to SW7 OFF, DECK and VAULT on the safe clock (R161, R169). -/
def synthsReset : Vector SynthSt 10 :=
  (Vector.range 10).map fun k =>
    if k < 8 then SynthSt.reset 0xCE400000 .off else SynthSt.reset 0x3F200000 .safe

/-- The device right after reset release that follows a power-on. Every register holds the reset value of its table;
the values that the spec does not give are named in notes/assumptions/. -/
def State.reset : State :=
  { now := 0, clocks := Clocks.safe, free := 0, chans := Vector.replicate 96 Channel.reset, place := Place.reset
    sync := SyncSt.reset, tb := Timebase.reset 0, synths := synthsReset, folios := [], folioSel := 0, closed := []
    mem := [], chk := [], writers := Vector.replicate 8 [], vlt := Vault.reset, via := Viaduct.reset
    truss := Truss.reset, tst := Tst.reset, thm := Thermal.reset 0, pwr := Power.reset, nvm := Nvm.reset none
    msp := Msp.reset, lcy := LifeCycle.reset [] 0, tap := Tap.reset, pending := [] }

end Sys2Proof.Machine
end

