-- ==== Sys2Proof/Machine/Ops.lean ====
section
/-! DEFINITION. Named operations over words, sparse tables, time, the units of the state and the galley. -/

namespace Sys2Proof.Machine

/-! ## Bits -/

/-- Bits [lo + len - 1 : lo] of a word, as a number. -/
def fld {n : Nat} (w : BitVec n) (lo len : Nat) : Nat := w.toNat / 2 ^ lo % 2 ^ len

/-- The word with those bits replaced by the low bits of `v`. -/
def putFld {n : Nat} (w : BitVec n) (lo len v : Nat) : BitVec n :=
  BitVec.ofNat n (w.toNat - fld w lo len * 2 ^ lo + v % 2 ^ len * 2 ^ lo)

/-- A word made of fields, each given with its lowest bit. -/
def pack (n : Nat) (fs : List (Nat × Nat)) : BitVec n :=
  fs.foldr (fun f acc => BitVec.ofNat n (f.2 * 2 ^ f.1) ||| acc) 0

/-- A Bool as a bit. -/
def bit (b : Bool) : Nat := if b then 1 else 0

/-- A Bool field of a word, shown at bit `i`. -/
def bitAt (i : Nat) (b : Bool) : Nat × Nat := (i, bit b)

/-- Two's complement of `len` bits. -/
def sInt (len v : Nat) : Int := if v % 2 ^ len < 2 ^ (len - 1) then (v % 2 ^ len : Nat) else (v % 2 ^ len : Nat) - (2 ^ len : Nat)

/-- A counter that saturates at all ones (R13, R68). -/
def satAdd {n : Nat} (b : BitVec n) (k : Nat) : BitVec n :=
  if b.toNat + k < 2 ^ n then BitVec.ofNat n (b.toNat + k) else BitVec.allOnes n

/-- The value clamped to the range of `len` bits of two's complement. -/
def clampS (len : Nat) (v : Int) : Int := max (-(2 ^ (len - 1) : Int)) (min v (2 ^ (len - 1) - 1))

/-- A number shown in a field of `len` bits that saturates. -/
def satNat (len v : Nat) : Nat := min v (2 ^ len - 1)

/-- Words of 32 bits of a wider value. -/
def lo32 (w : Dword) : Word := w.extractLsb' 0 32
def hi32 (w : Dword) : Word := w.extractLsb' 32 32

/-- The list with the element at `i` replaced (unchanged when there is none). -/
def setAt {α : Type} (l : List α) (i : Nat) (x : α) : List α := l.set i x

/-! ## Sparse tables: address and value, addresses rising, no value equal to the default -/

/-- Read a sparse table. -/
def sget {α : Type} (d : α) : List (Nat × α) → Nat → α
  | [], _ => d
  | (k, v) :: t, a => if a = k then v else sget d t a

/-- Write a sparse table, keeping its canonical form. -/
def sset {α : Type} [DecidableEq α] (d : α) : List (Nat × α) → Nat → α → List (Nat × α)
  | [], a, v => if v = d then [] else [(a, v)]
  | (k, w) :: t, a, v =>
    if a < k then (if v = d then (k, w) :: t else (a, v) :: (k, w) :: t)
    else if a = k then (if v = d then t else (a, v) :: t)
    else (k, w) :: sset d t a v

/-- The canonical form of a sparse table. -/
def Sparse {α : Type} (d : α) (l : List (Nat × α)) : Prop :=
  l.Pairwise (fun p q => p.1 < q.1) ∧ ∀ p ∈ l, p.2 ≠ d

/-- Write consecutive entries. -/
def ssets {α : Type} [DecidableEq α] (d : α) (l : List (Nat × α)) (a : Nat) : List α → List (Nat × α)
  | [] => l
  | v :: vs => ssets d (sset d l a v) (a + 1) vs

/-! ## Time (R3 to R11; notes/assumptions/1.md) -/

/-- Units of the time axis per stamp LSB and per span cycle. -/
def lsbUnits : Nat := 25
def scUnits : Nat := 51200


/-- The first instant at or after `t` on the grid of `period` through `at_`. -/
def gridNext (period : Nat) (at_ t : Instant) : Instant :=
  if period = 0 then t
  else if t ≤ at_ then t + (at_ - t) % period
  else t + (period - (t - at_) % period) % period

/-- The first edge at or after `t`. -/
def Clock.next (c : Clock) (t : Instant) : Instant :=
  match c.was with
  | none => gridNext c.period c.phase t
  | some (period, last) =>
    if c.phase ≤ t then gridNext c.period c.phase t
    else if last < t then c.phase
    else gridNext period last t

/-- The number of the last edge at or before `t`, and the instant of edge `n`. -/
def Clock.no (c : Clock) (t : Instant) : Nat :=
  if c.phase ≤ t then c.base + (t - c.phase) / c.period
  else
    match c.was with
    | none => c.base - (c.phase - t + c.period - 1) / c.period
    | some (period, last) => c.base - 1 - (last - t + period - 1) / period
def Clock.edge (c : Clock) (n : Nat) : Instant :=
  if c.base ≤ n then c.phase + (n - c.base) * c.period
  else
    match c.was with
    | none => c.phase - (c.base - n) * c.period
    | some (period, last) => last - (c.base - 1 - n) * period

/-- A domain moves from its clock to another at `t`, without a glitch (R148, R161): the next edge, which its count takes
as the next number, is the first of the new clock from `t` on that falls at least one new period after the last falling edge, which
is half a period after its rising edge (notes/assumptions/22.md). A clock of the same period is the one in force. -/
def Clock.retime (c new : Clock) (t : Instant) : Clock :=
  if c.period = new.period then c
  else
    { period := new.period, phase := new.next (max t (c.edge (c.no t) + c.period / 2 + new.period)), base := c.no t + 1
      was := some (c.period, c.edge (c.no t)) }

/-- Set-up windows of Table 20.13: 250 ps, 300 ps and 400 ps. -/
def win250 : Nat := 16000
def win300 : Nat := 19200
def win400 : Nat := 25600

/-- The visibility edge (R7) of an instant in a clock, through a crossing with set-up window `w`. -/
def Clock.vis (c : Clock) (w : Nat) (t : Instant) : Instant := c.next (t + w)

/-- A crossing latency of `l` destination cycles from `t` (R8). -/
def Clock.cross (c : Clock) (w l : Nat) (t : Instant) : Instant := c.edge (c.no (c.vis w t) + l)

/-- An event of the outside world at `t`: time never runs back (notes/assumptions/2.md). -/
def State.at_ (s : State) (t : Instant) : State := { s with now := max s.now t }

/-- LSB of an instant on the time axis. -/
def lsbOf (t : Instant) : Nat := t / lsbUnits

/-- LSB instants in a time of the axis, rounded up. -/
def lsbUp (t : Instant) : Nat := (t + lsbUnits - 1) / lsbUnits

/-- The stamp of an instant on the scale in force (R17, R103). -/
def State.stamp (s : State) (t : Instant) : Int := (lsbOf t : Int) + s.tb.scale

/-! SPAN's rising edges are the instants whose stamp is a whole number of span cycles (R17, R103), but for the offset that
the timebase holds after a REANCHOR (R121). -/

/-- Span cycles of a settle window in which the physical phase moves, after the first 500 (notes/assumptions/57.md). -/
def glideCycles : Nat := 62000

/-- SPAN: the instant of its edge 0, and, where its phase moves, the edge from which it does and by how much in all. -/
structure SpanClk where
  phase : Nat
  glide : Option (Nat × Int)
deriving DecidableEq, Repr

/-- How far edge `n` has moved. -/
def SpanClk.shift (c : SpanClk) (n : Nat) : Int :=
  match c.glide with
  | none => 0
  | some (n0, m) => m * (min (n - n0) glideCycles : Nat) / (glideCycles : Nat)

/-- The instant of edge `n`, and the number of the last edge at or before `t`. -/
def SpanClk.edge (c : SpanClk) (n : Nat) : Instant := ((c.phase + n * scUnits : Nat) + c.shift n).toNat
def SpanClk.no (c : SpanClk) (t : Instant) : Nat :=
  match c.glide with
  | none => (t - c.phase) / scUnits
  | some (n0, m) =>
    let u : Int := (t : Int) - c.phase - (n0 * scUnits : Nat)
    let j := (u * (glideCycles : Nat) / ((scUnits * glideCycles : Nat) + m)).toNat
    let k := if u < 0 then (t - c.phase) / scUnits
      else if j ≤ glideCycles then n0 + j
      else (((t : Int) - c.phase - m) / (scUnits : Nat)).toNat
    if t < c.edge k then k - 1 else if c.edge (k + 1) ≤ t then k + 1 else k

/-- The first edge at or after `t`, the visibility edge (R7), and the `k`-th edge after the one at `t`. -/
def SpanClk.next (c : SpanClk) (t : Instant) : Instant :=
  match c.glide with
  | none => gridNext scUnits c.phase t
  | some _ => if t ≤ c.edge (c.no t) then c.edge (c.no t) else c.edge (c.no t + 1)
def SpanClk.vis (c : SpanClk) (w : Nat) (t : Instant) : Instant := c.next (t + w)
def SpanClk.after (c : SpanClk) (k : Nat) (t : Instant) : Instant := c.edge (c.no t + k)

/-- SPAN. -/
def State.span (s : State) : SpanClk :=
  let phase := ((s.tb.offset - s.tb.scale) % 2048).toNat * lsbUnits
  { phase := phase, glide := s.tb.glide.map fun t => ((t - phase) / scUnits + 500, -s.tb.offset * (lsbUnits : Nat)) }

/-- The offset that the timebase still holds at `t`, in LSB (R121). -/
def State.offsetAt (s : State) (t : Instant) : Int := s.tb.offset + s.span.shift (s.span.no t) / (lsbUnits : Nat)

/-- A stamp as it is read: 64 bits (R17, R18). -/
def stamp64 (i : Int) : Dword := BitVec.ofInt 64 i

/-- The stamp nearest to `ref` that a word of 64 bits spells: the difference is taken modulo 2^64 (R18). -/
def stampNear (ref : Int) (w : Dword) : Int := ref + (w - stamp64 ref).toInt

/-- The stamp that the word spells where it is later than `now`: it reads as a greater unsigned integer (R17), or lies less
than half a wrap ahead across a wrap (R18; notes/assumptions/51.md). -/
def stampLater (now : Int) (w : Dword) : Option Int :=
  let d := (w - stamp64 now).toNat
  if stamp64 now < w ∨ (0 < d ∧ d < 2 ^ 63) then some (now + d) else none

/-- The word clamped to the stamps from `o` to `t`: a later one gives `t`, an earlier one `o`, in the unsigned order of R17
(notes/assumptions/51.md). -/
def stampClamp (o t : Int) (w : Dword) : Int :=
  let d := (w - stamp64 o).toNat
  if (d : Int) ≤ t - o then o + d else if stamp64 t < w then max o t else o

/-- dc, vc and mc numbers of an instant. -/
def State.dc (s : State) (t : Instant) : Nat := s.clocks.deck.no t
def State.vc (s : State) (t : Instant) : Nat := s.clocks.vault.no t
def State.mc (s : State) (t : Instant) : Nat := s.clocks.mgmt.no t
def State.dcAt (s : State) (n : Nat) : Instant := s.clocks.deck.edge n
def State.vcAt (s : State) (n : Nat) : Instant := s.clocks.vault.edge n
def State.mcAt (s : State) (n : Nat) : Instant := s.clocks.mgmt.edge n

/-- The clock of DECK or VAULT, and that domain's move to the safe clock or to its synthesizer (R161, R164). -/
def State.domClk (s : State) (vault : Bool) : Clock := if vault then s.clocks.vault else s.clocks.deck
def State.onClock (s : State) (vault : Bool) (new : Clock) : State :=
  { s with clocks :=
    if vault then { s.clocks with vault := s.clocks.vault.retime new s.now }
    else { s.clocks with deck := s.clocks.deck.retime new s.now } }

/-- The edge from which a reset source that is recognised now acts: the 8th mc edge after it (R515); at once in RESET. -/
def State.resetEdge (s : State) : Instant :=
  if s.pwr.mode = .reset then s.now else max s.now (s.mcAt (s.mc (s.clocks.mgmt.next s.now) + 8))

/-- TRS.MCLK: mc from reset release (R589). -/
def State.mclk (s : State) (t : Instant) : Nat := s.mc t - s.pwr.mclk0

/-- Draw a number for a free value (notes/assumptions/9.md). -/
def State.drawn (s : State) : State := { s with free := s.free + 1 }

/-! ## Units -/

def pierOf (c : Chan) : Pier := ⟨c.val / 12, by omega⟩
def posOf (c : Chan) : Nat := c.val % 12

def State.chan (s : State) (c : Chan) : Channel := s.chans[c]
def State.setChan (s : State) (c : Chan) (x : Channel) : State := { s with chans := s.chans.set c x }
def State.modChan (s : State) (c : Chan) (f : Channel → Channel) : State := s.setChan c (f (s.chan c))

def State.synth (s : State) (k : Synth) : SynthSt := s.synths[k]
def State.setSynth (s : State) (k : Synth) (x : SynthSt) : State := { s with synths := s.synths.set k x }
def State.modSynth (s : State) (k : Synth) (f : SynthSt → SynthSt) : State := s.setSynth k (f (s.synth k))

def State.ring (s : State) (r : Ring) : RingSt := s.via.rings[r]
def State.setRing (s : State) (r : Ring) (x : RingSt) : State :=
  { s with via := { s.via with rings := s.via.rings.set r x } }
def State.modRing (s : State) (r : Ring) (f : RingSt → RingSt) : State := s.setRing r (f (s.ring r))

def State.pch (s : State) (q : Pch) : PcSt := s.vlt.pcs[q]
def State.setPch (s : State) (q : Pch) (x : PcSt) : State :=
  { s with vlt := { s.vlt with pcs := s.vlt.pcs.set q x } }
def State.modPch (s : State) (q : Pch) (f : PcSt → PcSt) : State := s.setPch q (f (s.pch q))

def State.src (s : State) (n : Source) : SrcSt := s.truss.srcs[n]
def State.setSrc (s : State) (n : Source) (x : SrcSt) : State :=
  { s with truss := { s.truss with srcs := s.truss.srcs.set n x } }

def State.dom (s : State) (d : Dom) : DomSt := s.pwr.doms[d]
def State.setDom (s : State) (d : Dom) (x : DomSt) : State :=
  { s with pwr := { s.pwr with doms := s.pwr.doms.set d x } }

/-- The domain of a channel, of a pier (Table 1.6). -/
def chDom (c : Chan) : Dom := ⟨c.val, by omega⟩
def pierDom (k : Pier) : Dom := ⟨96 + k.val, by omega⟩

/-- The domain of the channel is on. -/
def State.chOn (s : State) (c : Chan) : Bool := s.dom (chDom c) == .on
def State.pierOn (s : State) (k : Pier) : Bool := s.dom (pierDom k) == .on

/-- Lane `i` of a channel: false H, true L. -/
def Channel.lane (x : Channel) (l : Bool) : Lane := if l then x.laneL else x.laneH
def Channel.setLane (x : Channel) (l : Bool) (y : Lane) : Channel :=
  if l then { x with laneL := y } else { x with laneH := y }

def laneChan (i : LaneIx) : Chan := ⟨i.val / 2, by omega⟩
def laneIsL (i : LaneIx) : Bool := i.val % 2 == 1

def allChans : List Chan := List.finRange 96

/-- Apply a step to every channel of a list. -/
def State.forChans (s : State) (l : List Chan) (f : Chan → State → State) : State := l.foldl (fun t c => f c t) s

/-! ## Galley writers (R391, R393, Table 17.5) -/

/-- Words that WPk holds: those in its buffer and those of requests that wait to be presented. -/
def State.writerHeld (s : State) (k : Pier) : Nat :=
  (s.writers[k]).length + ((s.vlt.reqs.filter fun r => r.port == k.val && !r.presented).map (·.data.length)).foldl (· + ·) 0

/-- A stall pulse of the intake of WPk lasts (Table 17.5). -/
def State.intakeStalled (s : State) (k : Pier) : Bool :=
  s.tst.on && s.tst.stallEn && s.tst.stallTarget.toNat == k.val && s.tst.stalling

/-- WPk takes a word: its 256 KiB are not full, and no stall pulse of its intake lasts. -/
def State.writerRoom (s : State) (k : Pier) : Bool := s.writerHeld k < 16384 && !s.intakeStalled k

/-! ## Host rings (R337, R338, Table 9.13) -/

/-- Descriptors posted and not yet returned. -/
def RingSt.posted (r : RingSt) : Nat := (r.tail.toNat + 2 ^ r.log2n.toNat - r.head.toNat % 2 ^ r.log2n.toNat) % 2 ^ r.log2n.toNat

/-- STATE of a ring after a change at `t`: ERR stays until the ring is enabled, a record without a posted descriptor
starves. -/
def RingSt.settle (r : RingSt) (t : Instant) : RingSt :=
  if !r.en then (if r.st = .err then { r with starvedFrom := none } else { r with st := .off, starvedFrom := none })
  else if r.queue.isEmpty then { r with st := .idle, starvedFrom := none }
  else if r.posted = 0 then { r with st := .starved, starvedFrom := if r.st = .starved then r.starvedFrom else some t }
  else { r with st := .busy, starvedFrom := none }

/-! ## Self-refresh (R424 to R426) -/

/-- The idle timer restarts at zero. -/
def State.idleRestart (s : State) : State := { s with vlt := { s.vlt with idleFrom := some (s.mc s.now) } }

/-- An event at `t` that ends self-refresh: a request at any port, or an arm instant. -/
def State.wakeVault (s : State) (t : Instant) : State :=
  if (s.vlt.srEntry.isSome || s.vlt.st == .selfref) && s.vlt.srWake.isNone then
    { s with vlt := { s.vlt with srWake := some (s.vc (s.clocks.vault.next t)) } }
  else s

/-! ## Galley (R347, R380, R381): BAR2 byte 16g + b -/

/-- What a galley byte that nothing has written reads as (notes/assumptions/6.md). -/
def memDefault : Byte := 0

/-- Memory is in its canonical form. -/
abbrev Memory.wf (m : List Host.Cell) : Prop :=
  m.Pairwise (fun p q => p.1 < q.1) ∧ ∀ p ∈ m, p.2 ≠ memDefault

/-- One byte of the galley. -/
def State.byte (s : State) (a : Nat) : Byte := sget memDefault s.mem a

/-- The 16 bytes of a galley word, lowest first (R16). -/
def bytesOf (w : Qword) : List Byte := (List.range 16).map fun b => w.extractLsb' (8 * b) 8

/-- The word that 16 bytes spell. -/
def wordOf (f : Nat → Byte) : Qword :=
  (List.range 16).foldr (fun b acc => (f b).setWidth 128 <<< (8 * b) ||| acc) 0

/-- The data of galley word g. -/
def State.galley (s : State) (g : Nat) : Qword := wordOf fun b => s.byte (16 * g + b)

/-- Store the data of galley word g. -/
def State.setGalley (s : State) (g : Nat) (w : Qword) : State :=
  { s with mem := ssets memDefault s.mem (16 * g) (bytesOf w) }

end Sys2Proof.Machine
end

