-- ==== Sys2Proof/Machine/Records.lean ====
section
/-! DEFINITION. Record formats (09_records_and_readout.md): attribute words, packed slots and escape words. -/

namespace Sys2Proof.Machine

/-! ## Entries (Table 2.1, Table 5.1) -/

/-- A mark entry of a loss interval. -/
def Entry.isMark (e : Entry) : Bool := e.type == 1 || e.type == 2

/-- The attribute word with DGEN zero, as it reads beyond the merge (Table 2.1). -/
def Entry.attr (e : Entry) : Word :=
  let common := [(30, e.type.toNat), bitAt 29 e.lane, bitAt 28 e.pol, bitAt 27 e.ptnr, (23, e.psrc.toNat)]
  if e.isMark then pack 32 ((0, e.lost % 2 ^ 23) :: common)
  else pack 32 (common ++ [(10, e.edges.toNat), (8, e.xck.toNat), bitAt 7 e.dskc, bitAt 6 e.coast, bitAt 5 e.slew,
    bitAt 4 e.sup, bitAt 3 e.inj, bitAt 2 e.lock])

/-- Class of a stamp (Table 5.1). -/
def Entry.cls (e : Entry) : Nat :=
  if e.ptnr then (if e.pol then 4 else 5) else 2 * bit e.lane + (if e.pol then 0 else 1)

/-- A stamp of class `c` is of the class coded `code`. -/
def inClass (code c : Nat) : Bool := if code = 6 then c ≤ 3 else code == c

/-- Input of an entry: 0 lane H, 1 lane L, 2 the partner lane. -/
def Entry.input (e : Entry) : Nat := if e.ptnr then 2 else bit e.lane

/-- A class covers an input. -/
def coversInput (code i : Nat) : Bool :=
  if code = 6 then i ≤ 1 else if i = 2 then code == 4 || code == 5 else code / 2 == i

/-- LOCK, DSKC, COAST, SLEW, SUP, INJ as a flags state (Table 9.3). -/
def Entry.flags (e : Entry) : BitVec 6 :=
  pack 6 [bitAt 5 e.lock, bitAt 4 e.dskc, bitAt 3 e.coast, bitAt 2 e.slew, bitAt 1 e.sup, bitAt 0 e.inj]

/-! ## Word kinds (Tables 9.1, 9.3 to 9.8) -/

/-- [127:108] of an escape word of a KIND. -/
def escape (kind : Nat) : Nat × Nat := (108, 0xFFFF0 + kind)

/-- An EMPTY slot. -/
def emptySlot : Word := 0x3FFFFFFF

/-- Four slots, slot 0 lowest (R320). -/
def packedWord (l : List Word) : Qword :=
  pack 128 ((List.range 4).map fun i => (32 * i, (l.getD i emptySlot).toNat))

/-- Largest DELTA of a stamp slot. -/
def maxDelta : Int := 0x3FFEFFFF

/-- An ABS word (Table 9.4). -/
def absWord (e : Entry) : Qword := pack 128 [escape 0, (32, (stamp64 e.time).toNat), (0, e.attr.toNat)]

/-- A stamp slot (Table 9.3). -/
def stampSlot (e : Entry) (delta : Int) : Word := pack 32 [bitAt 31 e.lane, bitAt 30 e.pol, (0, delta.toNat)]

/-- The code slots before a stamp slot, given the states of its lane (R323, R324). -/
def codeSlots (e : Entry) (es : BitVec 13) (fs : BitVec 6) : List Word :=
  if e.ptnr then [BitVec.ofNat 32 (0x3FFF8000 + e.psrc.toNat)]
  else
    (if e.edges = es then [] else [BitVec.ofNat 32 (0x3FFF0000 + 0x2000 * bit e.lane + (es ^^^ e.edges).toNat)])
      ++ (if e.flags = fs then [] else [BitVec.ofNat 32 (0x3FFF4000 + 0x2000 * bit e.lane + (fs ^^^ e.flags).toNat)])

/-- The entry is written as an ABS word in a RAW record (R322). -/
def Entry.rawAbs (e : Entry) (first : Bool) (last : Int) : Bool :=
  first || e.isMark || e.xck == 2 || e.time < last || maxDelta < e.time - last

/-- A REDUCED word (Table 9.5). -/
def reducedWord (unit idx : Nat) (any : Bool) (mx mn : Nat) : Qword :=
  pack 128 [escape 1, bitAt 107 (!any), (106, unit), (96, idx % 1024), (48, if any then mx else 0), (0, if any then mn else 0)]

/-- DISC words A and B (Table 9.7). -/
def discWords (r : Insert) : List Qword :=
  [pack 128 [escape 3, (105, r.cause.toNat % 4), bitAt 104 r.loop, (100, r.tstate.toNat), (32, (stamp64 r.time).toNat)],
   pack 128 [escape 3, (107, 1), (0, (stamp64 r.step).toNat)]]

/-- FENCE words A and B (Table 9.7). -/
def fenceWords (r : Insert) : List Qword :=
  [pack 128 [escape 4, (104, r.cause.toNat), (96, r.newStep.toNat), (32, (stamp64 r.time).toNat),
     (16, r.newEpoch.toNat), (4, r.newSite.toNat)],
   pack 128 [escape 4, (107, 1), (96, r.oldStep.toNat), (16, r.oldEpoch.toNat), (4, r.oldSite.toNat)]]

def insertWords (r : Insert) : List Qword := if r.fence then fenceWords r else discWords r

/-- What the writer makes of an EMIT word (R330): the word, and whether it was replaced. -/
def emitWord (w : Qword) : Qword × Bool :=
  let top := fld w 108 20
  if top = 0xFFFF2 ∨ top = 0xFFFFF then (w, false) else (putFld w 108 20 0xFFFFF, true)

/-- Colophon word `n` with its fields (R332). -/
def coloWord (n : Nat) (fs : List (Nat × Nat)) : Qword := pack 128 (escape 6 :: (105, n) :: fs)

end Sys2Proof.Machine
end

