-- ==== Sys2Proof/Machine/Fill.lean ====
section
/-! DEFINITION. The writer's handling of a record, per word handed over (R291 to R297, R330). -/

namespace Sys2Proof.Machine

def Channel.modRec (x : Channel) (f : Rec → Rec) : Channel := { x with rcd := f x.rcd }
def Channel.modF (x : Channel) (f : Folder → Folder) : Channel := { x with folder := f x.folder }
def Channel.modTrg (x : Channel) (f : Trigger → Trigger) : Channel := { x with trg := f x.trg }
def Channel.modEng (x : Channel) (f : Engine → Engine) : Channel := { x with eng := f x.eng }

/-- Set flags of Table 9.9 in the open record. -/
def Channel.flag (x : Channel) (bits : Word) : Channel := x.modRec fun r => { r with flags := r.flags ||| bits }

/-- KIND of CMP.FLD_CFG is RAW or ABS. -/
def Channel.writesRaw (x : Channel) : Bool := fld x.cfg.fldCfg 30 2 < 2

/-- The open record closes by its trigger in dc `n`: C = t + 1, t the last entry taken (R293). A disarm whose instant has
not come yet then falls into the next record. -/
def Channel.closeFull (x : Channel) (n : Nat) : Channel :=
  let f := x.folder
  if f.closing.isNone then x.modF fun f => { f with closing := some (f.last + 1), closeDc := n }
  else if f.byDisarm && !f.done && n < x.disarmDc then
    { x.modF fun f => { f with closing := some (f.last + 1), byDisarm := false, closeDc := n } with lateFlags := x.rcd.closeFlags }
  else x

/-- The record after its word is written at the write pointer. -/
def Rec.put (r : Rec) (w : OutWord) : Rec :=
  { r with wp := (r.wp + 1) % r.r, written := r.written + 1, lastW := w
           flags := if r.wp + 1 = r.r then r.flags ||| 0x4000 else r.flags }

/-- A word is handed over in dc `n` (R291 to R294): it is written at the write pointer, or counted as not written.
`w` carries the states of the raw path after the word. -/
def Channel.handWord (x : Channel) (n : Nat) (w : OutWord) : Channel :=
  let r := x.rcd
  if !r.isOpen then x
  else if r.fs = .fill && r.tw = some r.wp then
    let y := { x with
      rcd := { r with unwrit := r.unwrit + 1, flags := r.flags ||| 4 }
      outq := x.outq ++ [{ w with dc := n, g := none }] }
    y
  else
    let e := if w.emit then emitWord w.word else (w.word, false)
    let w1 := { w with word := e.1, dc := n, g := some (r.base + 8 + r.wp) }
    let r1 := { r.put w1 with flags := (r.put w1).flags ||| (if e.2 then 0x8000 else 0) }
    let y := { x with outq := x.outq ++ [w1] }
    match r.fs with
    | .pre => { y with rcd := r1 }
    | .waitTw =>
      let z := { y with rcd := { r1 with tw := some r.wp, twWord := w1.word, fs := .fill } }
      if r.p = 0 then z.closeFull n else z
    | .fill =>
      let z := { y with rcd := { r1 with post := r.post + 1 } }
      if r.post + 1 = r.p then z.closeFull n else z

/-- A word that leaves the raw path's states alone: reductions, EMIT, DISC and FENCE words. -/
def Channel.handOther (x : Channel) (n : Nat) (emit : Bool) (w : Qword) : Channel :=
  x.handWord n { x.rcd.lastW with word := w, emit := emit }

/-- A word of the raw path, with its states and last entry (R332). -/
def Channel.handRaw (x : Channel) (n : Nat) (w : Qword) : Channel :=
  let f := x.folder
  x.handWord n { word := w, emit := false, eH := f.eH, eL := f.eL, fH := f.fH, fL := f.fL
                 last := if x.writesRaw then stamp64 f.rawLast else 0, dc := n, g := none, final := false }

/-- Close the open packed word with EMPTY slots (R325). -/
def Channel.closePacked (x : Channel) (n : Nat) : Channel :=
  if x.folder.rawOpen.isEmpty then x
  else (x.handRaw n (packedWord x.folder.rawOpen)).modF fun f => { f with rawOpen := [] }

/-- Put one slot into the open packed word; the fourth hands it over. `f` applies what the slot says to the states. -/
def Channel.slot (x : Channel) (n : Nat) (w : Word) (g : Folder → Folder) : Channel :=
  let y := x.modF fun f => { g f with rawOpen := f.rawOpen ++ [w] }
  if 4 ≤ y.folder.rawOpen.length then y.closePacked n else y

/-- States of the raw path at record open: EDGES state N, flags zero, no entry yet (R322, R323). -/
def Channel.rawOpenStates (x : Channel) : Channel :=
  let eH := BitVec.ofNat 13 (fld x.cfg.lnCfgH 13 12 + 1)
  let eL := BitVec.ofNat 13 (fld x.cfg.lnCfgL 13 12 + 1)
  let y := x.modF fun f => { f with rawOpen := [], eH := eH, eL := eL, fH := 0, fL := 0, rawFirst := true, rawLast := 0 }
  y.modRec fun r => { r with lastW := { OutWord.none with eH := eH, eL := eL } }

/-- What a code slot does to the states (Table 9.3). -/
def applyCode (w : Word) (f : Folder) : Folder :=
  let v := fld w 0 16
  if v < 0x2000 then { f with eH := f.eH ^^^ BitVec.ofNat 13 v }
  else if v < 0x4000 then { f with eL := f.eL ^^^ BitVec.ofNat 13 v }
  else if v < 0x6000 then { f with fH := f.fH ^^^ BitVec.ofNat 6 v }
  else if v < 0x8000 then { f with fL := f.fL ^^^ BitVec.ofNat 6 v }
  else f

/-- The raw path takes an entry (R319 to R325). -/
def Channel.rawEntry (x : Channel) (n : Nat) (e : Entry) : Channel :=
  let kind := fld x.cfg.fldCfg 30 2
  if 2 ≤ kind && !e.isMark then x
  else
    let f := x.folder
    let done := fun (f : Folder) => { f with rawLast := e.time, rawFirst := false }
    if kind != 0 || e.rawAbs f.rawFirst f.rawLast then
      let y := (x.closePacked n).modF done
      y.handRaw n (absWord e)
    else
      let es := if e.lane then f.eL else f.eH
      let fs := if e.lane then f.fL else f.fH
      let y := (codeSlots e es fs).foldl (fun y w => y.slot n w (applyCode w)) x
      y.slot n (stampSlot e (e.time - f.rawLast)) done

/-- The raw path takes an inserted record (R325, R331); after a discontinuity record the next entry is an ABS word. -/
def Channel.rawInsert (x : Channel) (n : Nat) (r : Insert) : Channel :=
  let y := (insertWords r).foldl (fun y w => y.handOther n false w) (x.closePacked n)
  if r.fence then y else y.modF fun f => { f with rawFirst := true }

end Sys2Proof.Machine
end

