-- ==== Sys2Proof/Machine/Reset.lean ====
section
/-! DEFINITION. Entering RESET (15_modes_and_power_up.md, R510 to R518): what a recognised reset source leaves. -/

namespace Sys2Proof.Machine

/-- The life-cycle state that fuse word 4 shows (R633). -/
def fuseState (fuses : List (Nat × Word)) : BitVec 4 :=
  let w := sget 0 fuses 4
  if w.getLsbD 3 then 4 else if w.getLsbD 2 then 3 else if w.getLsbD 1 then 2 else if w.getLsbD 0 then 1 else 0

/-- The power plane in RESET: RST_CAUSE and RST_COUNT are kept (R518), the strap and the holds stand. -/
def Power.inReset (p : Power) : Power :=
  { Power.reset with
    mode := .reset, prev := p.mode, rstSrc := p.rstSrc, rstRail := p.rstRail, rstTherm := p.rstTherm
    rstTruss := p.rstTruss, rstSupply := p.rstSupply, rstPin := p.rstPin, rstPor := p.rstPor
    rstCount := if p.mode = .reset then p.rstCount else satAdd p.rstCount 1
    nvmv := p.nvmv, thermHold := p.thermHold, thermWait := p.thermWait, trussHold := p.trussHold, mclk0 := p.mclk0 }

/-- PHASE_TRIM as fuse word 32 holds it (R134, R634; notes/assumptions/7.md). -/
def fusePhaseTrim (fuses : List (Nat × Word)) : BitVec 16 := (sget 0 fuses 32).setWidth 16

/-- A reset source is recognised (R515): from the 8th mc edge after it, every register outside R518 takes its reset value. THM.SD_LOG (R626), the
fuses (R634) and what the central sensor reads (R510) stay; the attached flash, the TAP and the waiting commands are outside. -/
def State.toReset (s : State) (f : Power → Power) : State :=
  let z := { s with now := s.resetEdge }
  { State.reset with
    now := z.now, clocks := ((z.onClock false z.clocks.mgmt).onClock true z.clocks.mgmt).clocks, free := s.free, pwr := (f s.pwr).inReset
    tb := Timebase.reset (fusePhaseTrim s.lcy.fuses)
    thm := { Thermal.reset s.thm.sdLog with sens := (Thermal.reset 0).sens.set 16 s.thm.sens[16] }
    nvm := Nvm.reset s.nvm.flash, lcy := LifeCycle.reset s.lcy.fuses (fuseState s.lcy.fuses)
    tap := s.tap, pending := s.pending }

/-- The reaction CHIP of a source (R517): TRUSS is set, [31:24] takes the source, the hold is 25,000 mc. -/
def State.chipReset (s : State) (src : Source) (mc : Nat) : State :=
  s.toReset fun p => { p with rstTruss := true, rstSrc := BitVec.ofNat 8 src.val, trussHold := some (mc + 25000) }

end Sys2Proof.Machine
end

