-- ==== Sys2Proof/Machine/Truss.lean ====
section
/-! DEFINITION. The truss (17_truss.md): how a unit raises a cause, and what a recognition edge, an escalation and an
acknowledgement do. -/

namespace Sys2Proof.Machine

/-! ## Raising -/

/-- The unit behind a source runs on MGMT (Table 1.1). -/
def mgmtSource (n : Nat) : Bool := (164 ≤ n ∧ n ≤ 203) ∨ 220 ≤ n

/-- mc of the recognition edge of a condition at `t` (Table 20.14). -/
def State.recogMc (s : State) (mgmt : Bool) (t : Instant) : Nat :=
  if mgmt then s.mc (s.clocks.mgmt.next t) else s.mc (s.clocks.mgmt.vis win400 t) + 2

/-- A crossing delay other than zero acts on crossing `i` of Table 17.6. -/
def State.xdlyOf (s : State) (i : Nat) : Nat := if s.tst.on then (sget 0 s.tst.xdly i).toNat else 0

/-- A stall of TARGET `k` acts. -/
def State.stallOn (s : State) (k : Nat) : Bool := s.tst.on && s.tst.stallEn && s.tst.stallTarget.toNat == k

/-- A scheduler delay or a refresh postponement acts. -/
def State.schedOn (s : State) : Bool :=
  s.tst.on && ((s.tst.vschedPc != 0 && s.tst.vschedDly != 0) || s.tst.rpost != 0)

/-- A temperature override acts. -/
def State.tovrOn (s : State) : Bool := s.tst.on && s.tst.tovr.any (·.1)

/-- Some crossing delay, or some stall, acts. -/
def State.xdlyAny (s : State) : Bool := s.tst.on && !s.tst.xdly.isEmpty
def State.stallAny (s : State) : Bool := s.tst.on && s.tst.stallEn

/-- A perturbation acts on the unit of a source (R597). -/
def State.perturbed (s : State) (n : Nat) : Bool :=
  if n ≤ 95 then
    s.xdlyOf (2 * n) != 0 || s.xdlyOf (2 * n + 1) != 0 || s.xdlyOf (192 + n / 12) != 0 || s.xdlyOf 204 != 0
      || s.stallOn (n / 12) || s.stallOn (8 + n / 12) || s.schedOn
  else if n ≤ 103 then
    s.xdlyOf (192 + (n - 96)) != 0 || s.stallOn (n - 96) || s.stallOn (8 + (n - 96)) || s.schedOn
  else if n = 136 then s.xdlyAny || s.stallAny || s.schedOn || s.tovrOn
  else if n ≤ 137 then s.stallAny || s.schedOn
  else if 164 ≤ n ∧ n ≤ 187 then s.tovrOn
  else false

/-- Queue a condition for its recognition edge. In RESET the truss does not run. -/
def State.recog (s : State) (r : Recog) : State :=
  if s.pwr.mode = .reset then s else { s with truss := { s.truss with incoming := s.truss.incoming ++ [r] } }

/-- A unit raises causes of a source at `now`; `mgmt` says that the unit runs on MGMT. -/
def State.raiseFrom (s : State) (mgmt : Bool) (n : Source) (causes : Byte) (inj : Bool) : State :=
  if causes = 0 then s
  else s.recog { mc := s.recogMc mgmt s.now, src := n, causes := causes, real := true
                 inj := inj || s.perturbed n.val, contain := false }

/-- A unit of the plane of Table 1.1 raises causes of a source. -/
def State.raise (s : State) (n : Source) (causes : Byte) : State :=
  s.raiseFrom (mgmtSource n.val) n causes false

/-- A management unit raises causes of any source. -/
def State.raiseM (s : State) (n : Source) (causes : Byte) : State := s.raiseFrom true n causes false

/-- The source of a channel, a pier, a pseudo-channel, a synthesizer. -/
def chSrc (c : Chan) : Source := ⟨c.val, by omega⟩
def pierSrc (k : Pier) : Source := ⟨96 + k.val, by omega⟩
def pcSrc (q : Pch) : Source := ⟨104 + q.val, by omega⟩
def synSrc (k : Synth) : Source := ⟨154 + k.val, by omega⟩

/-! ## Fields of TRS.SRC_CFG (Table 17.10) -/

def SrcSt.react (x : SrcSt) : Nat := fld x.cfg 29 3
def SrcSt.cmask (x : SrcSt) : Byte := x.cfg.extractLsb' 20 8
def SrcSt.esc (x : SrcSt) : Nat := fld x.cfg 0 20

/-! ## Levels -/

/-- Some source is pending with a reaction INT or above (R565). -/
def Truss.anyPend (t : Truss) : Bool := t.srcs.any (·.pend)

/-- Note the edge at which the pending state of the device changed, for nINT. -/
def State.nintFrom (s : State) (was : Bool) (mc : Nat) : State :=
  if s.truss.anyPend = was then s else { s with truss := { s.truss with nintAt := mc, nintPrev := s.truss.nintAt } }

/-- The effects of a level from the edge `mc` at which it is taken, `old` being the level before (R579, R580, R582, R591).
A trap action that has not been taken when BLOCK is taken falls on the 64th edge of BLOCK, with the block action. -/
def State.takeLevel (s : State) (n : Source) (old lvl mc : Nat) : State :=
  if lvl = 5 then s.chipReset n mc
  else if lvl = 4 then
    if s.truss.aliveStopped then s
    else { s with truss := { s.truss with
      aliveStopped := true, aliveSrc := BitVec.ofNat 8 n.val, aliveStopAt := some (mc + 8) } }
  else if (lvl = 2 ∨ lvl = 3) ∧ s.msp.fwup then
    let x := s.src n
    s.setSrc n { x with
      trapDue := if lvl = 3 ∧ old = 2 ∧ x.trapDue.isNone then none else some (mc + 64)
      blockDue := if lvl = 3 then some (mc + 64) else x.blockDue }
  else s

/-! ## History (R586, R587) -/

/-- Put a new entry in front; the queue holds 16. -/
def Truss.open_ (t : Truss) (e : Hist) : Truss :=
  { t with hist := (e :: t.hist).take 16, nextEnt := t.nextEnt + 1
           histLost := if t.hist.length < 16 then t.histLost else satAdd t.histLost 1 }

/-- Change the entry with a number, where it is still in the queue. -/
def Truss.modEntry (t : Truss) (id : Nat) (f : Hist → Hist) : Truss :=
  { t with hist := t.hist.map fun e => if e.id = id then f e else e }

/-- The SPAN field of an entry at mc edge `mc` (R589). -/
def State.histSpan (s : State) (mc : Nat) : Dword :=
  if s.tb.st = .off ∨ s.tb.st = .acquire then BitVec.allOnes 64
  else stamp64 (s.stamp (s.span.vis win400 (s.mcAt mc)))

/-! ## A recognition edge (R577, R578, R581, R587, R588) -/

/-- The pending entry of a source into which an event of this kind merges. -/
def State.mergeInto (s : State) (x : SrcSt) (real : Bool) : Option Nat :=
  if x.pend then
    match (if real then x.entReal else x.entInj) with
    | some id => if s.truss.hist.any (·.id == id) then some id else none
    | none => none
  else none

/-- One event: source, recognition edge, causes, REAL, INJ, and whether it is a CONTAIN assertion alone. -/
def State.event (s : State) (n : Source) (mc : Nat) (causes : Byte) (real inj contain : Bool) : State :=
  let x := s.src n
  let was := s.truss.anyPend
  let x1 := { x with latch := x.latch ||| causes, lreal := x.lreal || real, linj := x.linj || inj
                     pulseMc := mc, pulse := causes }
  if causes &&& x.cmask = 0 then s.setSrc n x1
  else
    let react := if contain then (if s.tst.creact then 1 else 0) else x.react
    let merged := s.mergeInto x real
    let id := merged.getD s.truss.nextEnt
    let entry : Hist :=
      { span := s.histSpan mc, mclk := BitVec.ofNat 32 (mc - s.pwr.mclk0), source := BitVec.ofNat 8 n.val
        cause := causes, merge := 0, inj := inj, real := real, react := BitVec.ofNat 3 react, id := id }
    let tr := match merged with
      | some i => s.truss.modEntry i fun e =>
          { e with cause := e.cause ||| causes, merge := satAdd e.merge 1, inj := e.inj || inj
                   react := BitVec.ofNat 3 (max e.react.toNat react) }
      | none => s.truss.open_ entry
    let starts := !contain && react != 0 && x.timer.isNone && x.esc != 0
    let level := max x.level.toNat react
    let x2 := { x1 with
      pend := x.pend || react != 0
      level := BitVec.ofNat 3 level
      timer := if starts then some (mc + min x.esc 1000000 * 250) else x.timer
      entReal := if real then some id else x.entReal
      entInj := if real then x.entInj else some id
      entTimer := if starts then some id else x.entTimer }
    let s2 := ({ s with truss := tr }.setSrc n x2).nintFrom was mc
    if level > x.level.toNat then s2.takeLevel n x.level.toNat level mc else s2

/-- The conditions that share the earliest recognition edge and its lowest source: edge, source. -/
def Truss.nextRecog (t : Truss) : Option (Nat × Source) :=
  t.incoming.foldl (fun acc r =>
    match acc with
    | none => some (r.mc, r.src)
    | some (m, n) => if r.mc < m ∨ (r.mc = m ∧ r.src.val < n.val) then some (r.mc, r.src) else acc) none

/-- The next recognition edge takes its effect. All conditions of one source at one edge form one event (R577). A cause
that is no level reads LIVE for one mc, so the same cause on the very next edge is no rise. -/
def State.recognise (s : State) : State :=
  match s.truss.nextRecog with
  | none => s
  | some (m, n) =>
    let here := s.truss.incoming.filter fun r => r.mc == m && r.src == n
    let rest := s.truss.incoming.filter fun r => !(r.mc == m && r.src == n)
    let causes := here.foldl (fun acc r => acc ||| r.causes) 0
    let real := here.any (·.real)
    let asserted := here.any fun r => !r.real
    let x := s.src n
    let rising := if !asserted && x.pulseMc + 1 == m then causes &&& ~~~ x.pulse else causes
    let s1 := { s.at_ (s.mcAt m) with truss := { s.truss with incoming := rest } }
    if rising = 0 then s1.setSrc n { x with pulseMc := m, pulse := causes }
    else s1.event n m rising real (here.any fun r => r.inj || !r.real) (!real && here.any (·.contain))

/-! ## Escalation (R584) and acknowledgement (R583) -/

/-- The level after an escalation step. -/
def escalate (lvl : Nat) : Nat :=
  match lvl with
  | 1 => 2
  | 2 => 3
  | 3 => 5
  | 4 => 5
  | l => l

/-- The escalation timer of a source expires. -/
def State.escalation (s : State) (n : Source) : State :=
  match (s.src n).timer with
  | none => s
  | some m =>
    let x := s.src n
    let lvl := escalate x.level.toNat
    let x1 := { x with level := BitVec.ofNat 3 lvl
                       timer := if x.esc = 0 then none else some (m + min x.esc 1000000 * 250) }
    let tr := match x.entTimer with
      | some id => s.truss.modEntry id fun e => { e with react := BitVec.ofNat 3 (max e.react.toNat lvl) }
      | none => s.truss
    ({ s.at_ (s.mcAt m) with truss := tr }.setSrc n x1).takeLevel n x.level.toNat lvl m

/-- Acknowledge a source at mc edge `mc`. -/
def State.ackSrc (s : State) (n : Source) (mc : Nat) : State :=
  let x := s.src n
  let was := s.truss.anyPend
  (s.setSrc n { x with pend := false, level := 0, timer := none, entReal := none, entInj := none
                       entTimer := none }).nintFrom was mc

/-- nINT is driven low (R565): each change of the pending state shows from its second mc edge on. -/
def State.nintLow (s : State) (t : Instant) : Bool :=
  let x := s.truss
  if s.pwr.mode = .reset ∨ s.thm.shutdown.isSome then false
  else if x.nintAt = 0 ∨ x.nintAt + 2 ≤ s.mc t then x.anyPend
  else if x.nintPrev + 2 ≤ s.mc t then !x.anyPend
  else x.anyPend

end Sys2Proof.Machine
end

