-- ==== Sys2Proof/Machine/Lanes.lean ====
section
/-! DEFINITION. The stamping lanes (02_stamping_lanes.md): transitions, conversion, cross-check, lane FIFO, loss
intervals. -/

namespace Sys2Proof.Machine

/-! ## Configuration fields -/

/-- LN_CFG and LN_XCHK of a lane. -/
def Channel.lnCfg (x : Channel) (l : Bool) : Word := if l then x.cfg.lnCfgL else x.cfg.lnCfgH
def Channel.lnXchk (x : Channel) (l : Bool) : Word := if l then x.cfg.lnXchkL else x.cfg.lnXchkH

/-- Decimation factor N (R65). -/
def decN (cfg : Word) : Nat := fld cfg 13 12 + 1

/-- SEL chooses this polarity (R53, R89). -/
def selects (cfg : Word) (rising : Bool) : Bool := cfg.getLsbD (if rising then 4 else 5)

/-- The lane FIFO's depth (R70), and the room at which a loss interval closes (R72). -/
def fifoDepth : Nat := 4096

/-- Lockout of R57 and busy time of R58, in units of the time axis. -/
def lockout : Nat := 51200
def busyTime : Nat := 89600

/-- The disarm instant that ends the latest arm. -/
def Channel.lastDisarm (x : Channel) : Option Nat := if x.armNext.isSome then x.disarmNext else x.disarmAt

/-- The channel is armed at instant `t` (R82, R83). -/
def Channel.armedAt (x : Channel) (t : Instant) : Bool :=
  x.armAt ≤ t && (x.armed || match x.lastDisarm with | some d => t < d | none => false)

/-- The timebase takes stamps (Table 3.2). -/
def State.stamping (s : State) : Bool := s.tb.st != .off && s.tb.st != .acquire

/-- Entries converted now carry COAST, SLEW (Table 3.2). -/
def State.coasting (s : State) : Bool := s.tb.st == .coast || s.tb.st == .qualify || s.tb.st == .settle
def State.slewing (s : State) : Bool := s.tb.st == .slew

/-- An entry of lane `i` carries INJ (R597). -/
def State.entryInj (s : State) (i : LaneIx) : Bool :=
  let k := (pierOf (laneChan i)).val
  s.xdlyOf i.val != 0 || s.xdlyOf (192 + k) != 0 || s.xdlyOf 204 != 0 || s.stallOn k || s.stallOn (8 + k) || s.schedOn

/-- The channels that subscribe to a lane and take an entry converted at `t` (R78 to R80). -/
def State.subscribers (s : State) (i : LaneIx) (t : Instant) : List Chan :=
  allChans.filter fun c =>
    let x := s.chan c
    pierOf c == pierOf (laneChan i) && x.cfg.ptnr.getLsbD 31 && x.cfg.ptnr.getLsbD 8 == laneIsL i
      && fld x.cfg.ptnr 0 4 == posOf (laneChan i) && s.chOn c && x.armedAt t

/-- The edge that ends the span cycle holding `t`, and the write edge 7 sc after it (Table 20.14). -/
def State.writeEdge (s : State) (t : Instant) : Instant := s.span.after 7 (s.span.next (t + 1))

/-! ## One edge of a lane -/

/-- What the arm instant does to a lane (R58, R67, R82): the leader takes the first converted edge. -/
def Lane.restart (ln : Lane) : Lane :=
  { ln with edges := 0, need := 1, fromStart := true, first := none, lastConv := none, convCount := 0, pong := ln.lead, xmark := false
            restartAt := none }

/-- The lane reaches its arm instant if `t` is at or after it. -/
def Lane.reach (ln : Lane) (t : Instant) : Lane :=
  match ln.restartAt with
  | some a => if a ≤ t then ln.restart else ln
  | none => ln

/-- An arm at instant `t`: counters clear (R68, R93), the restart waits for the instant. -/
def Lane.arm (ln : Lane) (t : Instant) : Lane :=
  { ln with rise := 0, fall := 0, lost := 0, mismatch := 0, abandon := 0, restartAt := some t }

/-- A lane whose domain goes off: FIFO, counts and open intervals are lost (R49); deskew and leader are kept. -/
def Lane.powerOff (ln : Lane) : Lane :=
  { Lane.reset with level := ln.level, dgen := ln.dgen, deskew := ln.deskew, dskc := ln.dskc, lead := ln.lead
                    genDeskew := ln.genDeskew }

/-- Count a transition (R54, R68). -/
def Lane.count (ln : Lane) (rising : Bool) : Lane :=
  if rising then { ln with rise := ln.rise + 1 } else { ln with fall := ln.fall + 1 }

/-- Largest count of a loss interval (R73). -/
def lostMax : Nat := 2 ^ 46 - 1

/-- Count a selected edge: since the last stamp, and as lost while a loss interval is open (R66, R71). -/
def Lane.select (ln : Lane) (t : Instant) (rising armed : Bool) : Lane :=
  let ln := { ln with edges := ln.edges + 1, first := if ln.edges = 0 then some (t, rising) else ln.first }
  match ln.loss with
  | some l => if armed then { ln with loss := some { l with count := min (l.count + 1) lostMax }, lost := ln.lost + 1 }
              else ln
  | none => ln

/-- The selected edge is converted (R57, R65). -/
def Lane.converts (ln : Lane) (t : Instant) : Bool :=
  ln.need ≤ ln.edges && match ln.lastConv with | some p => p + lockout ≤ t | none => true

/-- The next edge abandons a check that is still open (R61). -/
def Lane.abandonCheck (ln : Lane) (t : Instant) : Lane :=
  match ln.xopen with
  | some (p, _) =>
    if t < p + busyTime then
      let f := fun e : Entry => if e.conv = lsbOf p then { e with xck := 3 } else e
      { ln with xopen := none, abandon := satAdd ln.abandon 1, reserved := ln.reserved.map fun r => (r.1, f r.2)
                fifo := ln.fifo.map fun r => { r with e := f r.e } }
    else ln
  | none => ln

/-- A change of LN_CFG: the edge that is due next follows the new decimation factor (R65, R95). -/
def Lane.redecimate (ln : Lane) (cfg : Word) : Lane := if ln.fromStart then ln else { ln with need := decN cfg }

/-- Marking and opening of a cross-check at a conversion (R59). `prev` is the conversion before. From where the count of
2^(n + 2) runs the spec does not say: it restarts at the arm instant, and stands while RATE is zero
(DESIGN CHOICE, notes/assumptions/54.md). -/
def Lane.markCheck (ln : Lane) (xchk : Word) (t : Instant) (prev : Option Instant) (code : BitVec 11) : Lane :=
  let n := fld xchk 0 4
  if n = 0 then ln
  else
    let cc := ln.convCount + 1
    let mark := ln.xmark || cc % 2 ^ (n + 2) == 0
    let free := match prev with | some p => p + busyTime ≤ t | none => true
    if mark && free then { ln with convCount := cc, xmark := false, xopen := some (t, code) }
    else { ln with convCount := cc, xmark := mark }

/-- The entry of a conversion at `t` (R55, R62, R66). -/
def State.entryOf (s : State) (i : LaneIx) (ln : Lane) (t : Instant) (rising lock : Bool) (edges : Nat) : Entry :=
  { conv := lsbOf t, sub := t % lsbUnits, abs := (lsbOf t : Int) + ln.deskew.toInt, kgen := ln.dgen, time := s.stamp t + ln.deskew.toInt, type := 0
    lane := laneIsL i, pol := rising, ptnr := false, psrc := BitVec.ofNat 4 (posOf (laneChan i))
    edges := BitVec.ofNat 13 (satNat 13 edges), lost := 0, xck := 0, dskc := ln.dskc, coast := s.coasting
    slew := s.slewing, sup := false, inj := s.entryInj i, lock := lock, dgen := ln.dgen }

/-- Room is taken by written and reserved entries (R71). -/
def Lane.taken (ln : Lane) : Nat := ln.fifo.length + ln.reserved.length

/-- The entry of an armed conversion is reserved, lost in the open loss interval, or opens one (R71). `edges` is what
the entry counts, `first` the first of those edges. -/
def State.store (s : State) (ln : Lane) (t : Instant) (e : Entry) (edges : Nat) (first : Instant × Bool) : Lane :=
  match ln.loss with
  | some l => { ln with loss := some { l with lastTime := e.time, lastDgen := ln.dgen } }
  | none =>
    if ln.taken < fifoDepth then { ln with reserved := ln.reserved ++ [(s.writeEdge t, e)] }
    else { ln with
      lost := ln.lost + BitVec.ofNat 48 edges
      loss := some { firstConv := lsbOf first.1, firstSub := first.1 % lsbUnits, firstAbs := (lsbOf first.1 : Int) + ln.deskew.toInt
                     firstTime := s.stamp first.1 + ln.deskew.toInt, firstPol := first.2, firstDgen := ln.dgen, lastTime := e.time
                     lastDgen := ln.dgen
                     count := min edges lostMax } }

/-- Crossbar: a converted edge reaches every trigger unit of the pier (R278, Table 20.14). -/
def State.toCrossbar (s : State) (i : LaneIx) (abs : Int) (rising : Bool) : State :=
  let lane := 2 * posOf (laneChan i) + bit (laneIsL i)
  s.forChans (allChans.filter fun c => pierOf c == pierOf (laneChan i) && s.chOn c) fun c =>
    State.modChan (c := c) (f := fun x => { x with trg := { x.trg with cross := x.trg.cross ++ [(abs, lane, rising)] } })

/-- A selected edge of a lane whose channel domain is on. -/
def State.selectedEdge (s : State) (i : LaneIx) (t : Instant) (rising armed : Bool) : State :=
  let c := laneChan i
  let x := s.chan c
  let ln := (x.lane (laneIsL i)).select t rising armed
  let put := fun (y : Lane) (z : State) => z.modChan c fun x => x.setLane (laneIsL i) y
  if !ln.converts t then put ln s
  else
    let e := s.entryOf i ln t rising (ln.need < ln.edges) ln.edges
    let n := ln.edges
    let first := ln.first.getD (t, rising)
    let ln1 := { ln.abandonCheck t with
      edges := 0, first := none, need := decN (x.lnCfg (laneIsL i)), fromStart := false, lastConv := some t, pong := !ln.pong }
    let s1 := s.toCrossbar i e.abs rising
    if !armed then put ln1 s1
    else
      let code := BitVec.ofInt 11 (s.stamp t)
      let ln2 := ln1.markCheck (x.lnXchk (laneIsL i)) t ln.lastConv code
      let ln3 := s.store ln2 t e n first
      let opens := ln2.loss.isNone && ln3.loss.isSome && x.laneH.loss.isNone && x.laneL.loss.isNone
      let s2 := put ln3 s1
      if opens then s2.raise (chSrc c) 0x01 else s2

/-- The receivers reach the lane: always outside a trim window, and in the deskew phase of one that asks for DESKEW
(Table 13.4). -/
def Trim.connected (t : Trim) (now : Instant) : Bool :=
  !t.running || (t.pendDeskew && t.w0 + 1875000 * scUnits ≤ now)

/-- TRANSITION: the receiver output of a lane changes to `level` (R52 to R67). -/
def State.transition (s : State) (t0 : Instant) (i : LaneIx) (level : Bool) : State :=
  let s := s.at_ t0
  let c := laneChan i
  let l := laneIsL i
  let x := s.chan c
  if (x.lane l).level = level then s
  else
    let cfg := x.lnCfg l
    let rising := level != cfg.getLsbD 3
    let on := s.chOn c && s.stamping && x.trim.connected s.now
    let armed := x.armedAt s.now
    let ln := { (x.lane l) with level := level }
    if !on then s.setChan c (x.setLane l ln)
    else
      let ln1 := ln.reach s.now
      let ln2 := if armed then ln1.count rising else ln1
      let s1 := s.setChan c (x.setLane l ln2)
      if selects cfg rising then s1.selectedEdge i s.now rising armed else s1

/-! ## Cross-check (R60) -/

/-- How far two codes lie apart, in LSB. -/
def codeDiff (a b : BitVec 11) : Nat := max a.toNat b.toNat - min a.toNat b.toNat

/-- CROSS_CHECK: the open check of a lane is settled 1,400 ps after its edge. -/
def State.crossCheck (s : State) (i : LaneIx) (follower : BitVec 11) : State :=
  let c := laneChan i
  let l := laneIsL i
  let x := s.chan c
  let ln := x.lane l
  match ln.xopen with
  | none => s
  | some (t, leader) =>
    let bad := fld (x.lnXchk l) 16 8 < codeDiff leader follower
    let f := fun e : Entry => if e.conv = lsbOf t && e.type = 0 then { e with xck := if bad then 2 else 1 } else e
    let ln1 := { ln with
      xopen := none, mismatch := if bad then satAdd ln.mismatch 1 else ln.mismatch
      reserved := ln.reserved.map fun r => (r.1, f r.2), fifo := ln.fifo.map fun r => { r with e := f r.e } }
    let s1 := (s.at_ (t + busyTime)).setChan c (x.setLane l ln1)
    if bad then s1.raise (chSrc c) 0x02 else s1

/-! ## FIFO write and loss intervals -/

/-- LANE_FIFO_WRITE: the oldest reserved entry is written 7 sc after its conversion (R71, Table 20.14). -/
def State.laneFifoWrite (s : State) (i : LaneIx) : State :=
  let c := laneChan i
  let x := s.chan c
  let ln := x.lane (laneIsL i)
  match ln.reserved with
  | [] => s
  | (wr, e) :: rest =>
    let w : FifoEntry := { e := e, wr := wr, own := true, subs := s.subscribers i (e.conv * lsbUnits) }
    let fifo := ln.fifo ++ [w]
    let ln1 := { ln with reserved := rest, fifo := fifo, hwm := max ln.hwm fifo.length }
    (s.at_ wr).setChan c (x.setLane (laneIsL i) ln1)

/-- A mark entry (R72). -/
def markEntry (i : LaneIx) (l : Loss) (second : Bool) : Entry :=
  { conv := l.firstConv, sub := l.firstSub, abs := l.firstAbs, kgen := l.firstDgen, time := if second then l.lastTime else l.firstTime
    type := if second then 2 else 1, lane := laneIsL i, pol := l.firstPol, ptnr := false
    psrc := BitVec.ofNat 4 (posOf (laneChan i)), edges := 0, lost := if second then l.count / 2 ^ 23 else l.count % 2 ^ 23
    xck := 0, dskc := false, coast := false, slew := false, sup := false, inj := false, lock := false
    dgen := if second then l.lastDgen else l.firstDgen }

/-- The free entries at which an open loss interval closes (R72). -/
def Channel.closeRoom (x : Channel) (t : Instant) : Nat := if x.armedAt t then 64 else 2

/-- LOSS_INTERVAL_CLOSE: at the first SPAN edge with room, the two marks are written and decimation restarts (R67,
R72). Entries reserved before the interval stand before the marks (R75). -/
def State.lossClose (s : State) (i : LaneIx) : State :=
  let c := laneChan i
  let x := s.chan c
  let ln := x.lane (laneIsL i)
  match ln.loss with
  | none => s
  | some l =>
    let t := s.span.next s.now
    if fifoDepth < ln.taken + x.closeRoom t then s
    else
      let own := fun (wr : Instant) (e : Entry) =>
        ({ e := e, wr := wr, own := true, subs := s.subscribers i (e.conv * lsbUnits) } : FifoEntry)
      let marks := [own t (markEntry i l false), own t (markEntry i l true)]
      let fifo := ln.fifo ++ ln.reserved.map (fun r => own r.1 r.2) ++ marks
      let ln1 := { ln with
        reserved := [], fifo := fifo, hwm := max ln.hwm fifo.length, loss := none, edges := 0, first := none, need := 1
        fromStart := true }
      (s.at_ t).setChan c (x.setLane (laneIsL i) ln1)

/-! ## Meanings -/

def execTransition (at_ : Instant) (i : LaneIx) (level : Bool) (s : State) : Host.Outcome State Fault Refusal :=
  .next (s.transition at_ i level)
def execCrossCheck (i : LaneIx) (follower : BitVec 11) (s : State) : Host.Outcome State Fault Refusal :=
  .next (s.crossCheck i follower)
def execLaneFifoWrite (i : LaneIx) (s : State) : Host.Outcome State Fault Refusal := .next (s.laneFifoWrite i)
def execLossIntervalClose (i : LaneIx) (s : State) : Host.Outcome State Fault Refusal := .next (s.lossClose i)

end Sys2Proof.Machine
end

