-- ==== Sys2Proof/Machine/Stream.lean ====
section
/-! DEFINITION. The channel merge (R40, R41, R64, R76 to R80, R128, R129, R326, R360, R361, R526) and stream time
(R178, R671). -/

namespace Sys2Proof.Machine

/-! ## Order of the stream -/

/-- Place among entries of equal time: H, L, partner (R76). -/
def Entry.rank (e : Entry) : Nat := if e.ptnr then 2 else bit e.lane

/-- An inserted record stands before an entry: a discontinuity record by the instant of conversion (R129), a fence
record by the deskewed time (R360). -/
def Insert.precedes (r : Insert) (e : Entry) : Bool :=
  if r.fence then (r.inst : Int) ≤ e.abs else r.inst < e.conv || (r.inst == e.conv && r.sub ≤ e.sub)

/-- Order of two items of the stream (R76, R129, R361). -/
def Item.before (a b : Item) : Bool :=
  match a, b with
  | .entry x, .entry y => x.abs < y.abs || (x.abs == y.abs && x.rank < y.rank)
  | .ins r, .entry y => r.precedes y
  | .entry x, .ins r => !r.precedes x
  | .ins r, .ins q => r.inst < q.inst || (r.inst == q.inst && (r.sub < q.sub || (r.sub == q.sub && !r.fence && q.fence)))

def Item.isIns : Item → Bool
  | .ins _ => true
  | .entry _ => false

/-- Put an entry into the reorder window: after every inserted record that stands before it, in order of time there. -/
def insertEntry (x : Item × Nat × Instant) : List (Item × Nat × Instant) → List (Item × Nat × Instant)
  | [] => [x]
  | y :: t =>
    if (y :: t).any fun z => z.1.isIns && z.1.before x.1 then y :: insertEntry x t
    else if x.1.before y.1 then x :: y :: t
    else y :: insertEntry x t

/-- An item in its place of the stream. -/
def placeItem (x : Item × Nat × Instant) (l : List (Item × Nat × Instant)) : List (Item × Nat × Instant) :=
  if x.1.isIns then l.filter (fun y => !x.1.before y.1) ++ x :: l.filter (fun y => x.1.before y.1)
  else insertEntry x l

/-- Put an item into the reorder window. Each read gives the folder one dc in which it takes an item, and it takes the
first of the window then (R76, R177). -/
def insertItem (x : Item × Nat × Instant) (l : List (Item × Nat × Instant)) : List (Item × Nat × Instant) :=
  (placeItem x l).zipWith (fun r n => (r.1, n, r.2.2)) (l.map (·.2.1) ++ [x.2.1])

/-- Put an item among those that the folder holds for the next record. -/
def insertTaken (x : Item) (l : List Item) : List Item := (insertItem (x, 0, 0) (l.map (·, 0, 0))).map (·.1)

/-! ## Inputs -/

/-- Lane of the partner subscription (R78). -/
def partnerOf (g : ChanCfg) (c : Chan) : Option LaneIx :=
  if g.ptnr.getLsbD 31 && fld g.ptnr 0 4 < 12 then
    some (Fin.ofNat 192 (2 * (12 * (pierOf c).val + fld g.ptnr 0 4) + bit (g.ptnr.getLsbD 8)))
  else none
def Channel.partner (x : Channel) (c : Chan) : Option LaneIx := partnerOf x.cfg c

/-- Forme f of the image, the block of a channel in it, and a program. -/
def State.formeOf (s : State) (f : Nat) : Option Forme := s.nvm.flash.bind fun fl => fl.formes.lookup f
def formeChan (f : Forme) (c : Chan) : Option FormeChan := f.chans.find? (·.ch == c)
def State.programOf (s : State) (p : Nat) : Option Program := s.nvm.flash.bind fun fl => fl.programs.lookup p

/-- A staged switch will subscribe a channel of the pier to the lane (R95). -/
def State.awaited (s : State) (i : LaneIx) : Bool :=
  allChans.any fun d => pierOf d == pierOf (laneChan i) && (s.chan d).partner d != some i &&
    match ((s.chan d).stagedForme.bind s.formeOf).bind (formeChan · d) with
    | some b => partnerOf b.cfg d == some i
    | none => false

/-- Lane `i` of a channel as a lane index. -/
def laneIx (c : Chan) (l : Bool) : LaneIx := Fin.ofNat 192 (2 * c.val + bit l)

/-- dc from which an entry of lane `i` written at `wr` can be read (Table 20.14, R600). -/
def State.readable (s : State) (i : LaneIx) (wr : Instant) : Nat :=
  s.dc (s.clocks.deck.cross win250 (4 + s.xdlyOf i.val) wr)

/-- LSB of the largest deskew either way (R63). -/
def deskewMax : Nat := 5243

/-- dc from which an inserted record can be read: every entry that precedes it can have been read by then. -/
def State.insReadable (s : State) (r : Insert) : Nat :=
  s.dc (s.clocks.deck.cross win250 4 (s.writeEdge ((r.inst + deskewMax) * lsbUnits)))

/-- Where the next item of an input comes from. -/
inductive Input where
  | lane (i : LaneIx) (partner : Bool)
  | mark
deriving DecidableEq, Repr

/-- The lane of an input in the state. -/
def State.laneAt (s : State) (i : LaneIx) : Lane := (s.chan (laneChan i)).lane (laneIsL i)

/-- The oldest entry of a lane that this channel has not read. -/
def State.headOf (s : State) (c : Chan) (i : LaneIx) (partner : Bool) : Option FifoEntry :=
  let next := (s.laneAt i).fifo.find? fun f => if partner then f.subs.contains c else f.own
  if partner then (match (s.chan c).merge.late with | f :: _ => some f | [] => next) else next

/-- Rails whose dip marks entries (Table 15.6): VCORE, VTDC, VIO, VAUX. -/
def supRails : BitVec 6 := 0b010111

/-- An entry converted at LSB `t` of the axis falls into a dip that marks entries (R526). -/
def Power.inDip (p : Power) (t : Nat) : Bool :=
  (p.dipRails &&& supRails != 0 && p.dipS ≤ t && match p.dipE with | some e => t < e | none => true)
    || p.sups.any fun i => i.1 ≤ t && t < i.2

/-- What a change of deskew since generation `g` adds (R64). -/
def Lane.shift (ln : Lane) (g : BitVec 2) : Int :=
  if g = ln.dgen then 0 else ln.deskew.toInt - (ln.genDeskew.getD g.toNat 0).toInt

/-- The entry corrected to the deskew in force in its lane (R64). The second entry of an OVF mark keeps the place of the
first (R76). -/
def Lane.correct (ln : Lane) (e : Entry) : Entry :=
  { e with abs := e.abs + ln.shift e.kgen, kgen := ln.dgen, time := e.time + ln.shift e.dgen, dgen := ln.dgen }

/-- The entry as the merge passes it on: correction to the deskew in force (R64), SUP (R526), PTNR (R79). -/
def State.dress (s : State) (i : LaneIx) (partner : Bool) (e : Entry) : Entry :=
  { (s.laneAt i).correct e with sup := e.type == 0 && s.pwr.inDip e.conv, ptnr := partner }

/-- Heads of the inputs of a channel: item, dc from which it can be read, write edge, where it stands. -/
def State.heads (s : State) (c : Chan) : List (Item × Nat × Instant × Input) :=
  let x := s.chan c
  let lanes := [(laneIx c false, false), (laneIx c true, false)] ++
    (match x.partner c with | some i => [(i, true)] | none => [])
  let es := lanes.filterMap fun p =>
    (s.headOf c p.1 p.2).map fun f => (Item.entry (s.dress p.1 p.2 f.e), s.readable p.1 f.wr, f.wr, Input.lane p.1 p.2)
  let is := match x.merge.ins with
    | r :: _ => [(Item.ins r, s.insReadable r, s.writeEdge (r.inst * lsbUnits), Input.mark)]
    | [] => []
  es ++ is

/-! ## Rate (R40, R77, R326) -/

/-- KIND of CMP.FLD_CFG (Table 5.8). -/
def Channel.kind (x : Channel) : Nat := fld x.cfg.fldCfg 30 2

/-- The merge's states as they restart (R326): at arm, at a change of the channel's lane or folder fields, and at a
discontinuity record. -/
def Channel.restartMerge (x : Channel) : Merge :=
  { x.merge with eH := BitVec.ofNat 13 (decN x.cfg.lnCfgH), eL := BitVec.ofNat 13 (decN x.cfg.lnCfgL), fH := 0, fL := 0
                 first := true, fill := 0 }

/-- Slots that an item counts, with the merge's own states after it. -/
def Channel.readCost (x : Channel) (it : Item) : Nat × Merge :=
  let m := x.merge
  if 2 ≤ x.kind then (1, m)
  else
    let pad := if m.fill = 0 then 0 else 4 - m.fill
    match it with
    | .ins r => (8 + pad, if r.fence then { m with fill := 0 } else x.restartMerge)
    | .entry e =>
      let es := if e.lane then m.eL else m.eH
      let fs := if e.lane then m.fL else m.fH
      if x.kind = 1 || e.rawAbs m.first m.last then (4 + pad, { m with fill := 0, first := false, last := e.time })
      else
        let n := (codeSlots e es fs).length + 1
        let m1 := { m with fill := (m.fill + n) % 4, last := e.time }
        (n, if e.ptnr then m1
            else if e.lane then { m1 with eL := e.edges, fL := e.flags } else { m1 with eH := e.edges, fH := e.flags })

/-- Slots counted in the 64 dc that end at dc `n`. -/
def Merge.used (m : Merge) (n : Nat) : Nat :=
  (m.window.filter fun p => n < p.1 + 64 && p.1 ≤ n).foldl (fun a p => a + p.2) 0

/-- The dc at which an item of cost `k` that can be read from dc `n` is read. -/
def Merge.slotAt (m : Merge) (raw : Bool) (k n : Nat) : Nat :=
  let n1 := m.window.foldl (fun a p => max a (p.1 + 1)) n
  if raw then ((List.range 65).map (n1 + ·)).find? (fun j => m.used j + k ≤ 40) |>.getD (n1 + 64) else n1

/-! ## Merge read -/

/-- A reader claims the entry. -/
def FifoEntry.claimed (f : FifoEntry) : Bool := f.own || !f.subs.isEmpty

/-- A reader drops its claim on an entry. -/
def FifoEntry.drop (c : Chan) (partner : Bool) (f : FifoEntry) : FifoEntry :=
  if partner then { f with subs := f.subs.filter (· != c) } else { f with own := false }

/-- Readers' claims change as `g` says; an entry with no reader left is freed (R70, R80), and remembered where `keep` says
that a staged subscription may still claim it. -/
def Lane.release (ln : Lane) (keep : Bool) (g : FifoEntry → FifoEntry) : Lane :=
  { ln with
    fifo := (ln.fifo.map g).filter (·.claimed)
    past := if keep then ln.past ++ ln.fifo.filter fun f => !(g f).claimed else [] }

/-- Drop the reader's claim on the oldest unread entry of a lane. -/
def takeFrom (c : Chan) (partner : Bool) : List FifoEntry → List FifoEntry
  | [] => []
  | f :: t =>
    if (if partner then f.subs.contains c else f.own) then
      let f1 := f.drop c partner
      if f1.claimed then f1 :: t else t
    else f :: takeFrom c partner t

/-- The entry that this read frees. -/
def freedBy (c : Chan) (partner : Bool) (l : List FifoEntry) : List FifoEntry :=
  ((l.find? fun f => if partner then f.subs.contains c else f.own).filter fun f => !(f.drop c partner).claimed).toList

/-- Remove what was read from its input. -/
def State.consume (s : State) (c : Chan) (k : Input) : State :=
  match k with
  | .lane i p =>
    if p && !(s.chan c).merge.late.isEmpty then
      s.modChan c fun x => { x with merge := { x.merge with late := x.merge.late.drop 1 } }
    else
      let keep := s.awaited i
      s.modChan (laneChan i) fun x =>
        let ln := x.lane (laneIsL i)
        x.setLane (laneIsL i) { ln with
          fifo := takeFrom c p ln.fifo, past := if keep then ln.past ++ freedBy c p ln.fifo else [] }
  | .mark => s.modChan c fun x => { x with merge := { x.merge with ins := x.merge.ins.drop 1 } }

/-- The marks still to come of the loss intervals open in the inputs of a channel: the merge reads nothing that they precede
(R75, R76, Table 3.4). -/
def State.openMarks (s : State) (c : Chan) : List Item :=
  ([(laneIx c false, false), (laneIx c true, false)] ++ (((s.chan c).partner c).map (·, true)).toList).filterMap fun p =>
    ((s.laneAt p.1).loss.map fun l => Item.entry (s.dress p.1 p.2 (markEntry p.1 l false)))

/-- The next item in the order of R76 among those that can be read first, with the dc from which it can be. -/
def State.nextRead (s : State) (c : Chan) : Option (Item × Nat × Instant × Input) :=
  let hs := (s.heads c).filter fun h => !(s.openMarks c).any fun m => m.before h.1
  let start := (s.chan c).merge.window.foldl (fun a p => max a (p.1 + 1)) 0
  match (hs.map fun h => max h.2.1 start).min? with
  | none => none
  | some n0 =>
    (hs.filter fun h => h.2.1 ≤ n0).foldl (fun a h =>
      match a with
      | none => some (h.1, n0, h.2.2)
      | some b => if h.1.before b.1 then some (h.1, n0, h.2.2) else some b) none

/-- MERGE_READ: the merge reads the next item into the reorder window (R40, R76, R77, Table 20.14). -/
def State.mergeRead (s : State) (c : Chan) : State :=
  let x := s.chan c
  if x.merge.held || !s.chOn c then s
  else
    match s.nextRead c with
    | none => s
    | some (it, n0, wr, k) =>
      let raw := x.kind < 2
      let (cost, m) := x.readCost it
      let n := x.merge.slotAt raw cost n0
      let m1 := { m with
        window := (m.window.filter fun p => n < p.1 + 64) ++ [(n, cost)]
        reorder := insertItem (it, n + 97, wr) m.reorder }
      (((s.at_ (s.dcAt n)).modChan c fun y => { y with merge := m1 }).consume c k)

/-! ## Stream time (R178, R671) -/

/-- dc between the visibility edge of a SPAN edge and the dc whose stream time it gives. -/
def streamDc : Nat := 101

/-- The last SPAN edge that is visible in DECK 101 dc before dc `e`, through a lengthened lane crossing if one acts. -/
def State.streamEdge (s : State) (e : Nat) : Instant :=
  s.span.edge (s.span.no (s.dcAt (e - streamDc) - win250))

/-- LSB that conversion and the largest negative deskew take off (R671). -/
def streamLag : Int := 14336 + 5243

/-- Deskewed instant of an item. -/
def Item.abs : Item → Int
  | .entry e => e.abs
  | .ins r => r.inst

/-- Entries of the channel's stream that have not reached the folder: deskewed instant, write edge. The marks of a loss
interval that is still open can still reach it (R178, DEDUCED, notes/assumptions/68.md). -/
def State.waiting (s : State) (c : Chan) : List (Int × Instant) :=
  let x := s.chan c
  let lane := fun (i : LaneIx) (p : Bool) =>
    ((s.headOf c i p).toList.map fun f => ((s.dress i p f.e).abs, f.wr)) ++
      (if p then [] else ((s.laneAt i).reserved.take 1).map fun r => (r.2.abs, r.1))
  lane (laneIx c false) false ++ lane (laneIx c true) false
    ++ (match x.partner c with
        | some i => lane i true ++ ((s.laneAt i).reserved.take 1).map fun r => (r.2.abs, r.1)
        | none => [])
    ++ (s.openMarks c).map (fun m => (m.abs, 0)) ++ x.merge.reorder.map (fun r => (r.1.abs, r.2.2))
    ++ x.merge.ins.map (fun r => ((r.inst : Int), s.writeEdge (r.inst * lsbUnits)))

/-- Stream time of a channel in dc `e`, in LSB on the time axis. -/
def State.streamAxis (s : State) (c : Chan) (e : Nat) : Int :=
  let edge := s.streamEdge e
  let lim := (s.waiting c).filter fun p => p.2 ≤ edge
  lim.foldl (fun a p => min a p.1) ((lsbOf edge : Int) - streamLag)

/-- Stream time, compensated (R130, R178); it stands still during a hold. -/
def State.streamTime (s : State) (c : Chan) (e : Nat) : Int :=
  let f := (s.chan c).folder
  let t := s.streamAxis c e + f.base
  match f.frozen with
  | some z => min t z
  | none => t

/-- The first dc, not before the present one, in which stream time reaches the compensated time `x`; none while a
backlog or a hold keeps it below. -/
def State.streamDue (s : State) (c : Chan) (x : Int) : Option Nat :=
  let y := (x - (s.chan c).folder.base + streamLag).toNat
  let e := max (s.dc (s.clocks.deck.vis win250 (s.span.next (y * lsbUnits))) + streamDc) (s.dc s.now)
  if x ≤ s.streamTime c e then some e else none

/-! ## Meanings -/

/-- After a hold the waiting items become due one per dc (R177, R198). -/
def Merge.rebase (m : Merge) (n : Nat) : Merge :=
  { m with reorder := m.reorder.mapIdx fun i r => (r.1, max r.2.1 (n + i), r.2.2) }

/-- MERGE_RESUME: the merge reads again once the cause of its hold has gone (R41). -/
def State.mergeResume (s : State) (c : Chan) : State :=
  let x := s.chan c
  if x.merge.held && !x.folder.held && s.writerRoom (pierOf c) then
    s.modChan c fun x => { x with
      folder := { x.folder with frozen := none }
      merge := ({ x.merge with held := false, window := x.merge.window ++ [(s.dc s.now - 1, 0)] }).rebase (s.dc s.now) }
  else s

def execMergeRead (c : Chan) (s : State) : Host.Outcome State Fault Refusal := .next (s.mergeRead c)
def execMergeResume (c : Chan) (s : State) : Host.Outcome State Fault Refusal := .next (s.mergeResume c)

end Sys2Proof.Machine
end

