-- ==== Sys2Proof/Machine/Folder.lean ====
section
/-! DEFINITION. The folder's units (05_compositor.md, R177 to R189, R194 to R199) and the conditions that the folder
gives the trigger unit (R276, R277, R285). Times are compensated (R130, R178). -/

namespace Sys2Proof.Machine

/-! ## Configuration (Table 5.8) -/

def Channel.engOn (x : Channel) : Bool := x.engCtl.getLsbD 0
/-- GATE: 0 RECORD, 1 TIME, 2 ENGINE. -/
def Channel.gateKind (x : Channel) : Nat := fld x.cfg.fldCfg 28 2
/-- Lengths in LSB. -/
def Channel.gateLen (x : Channel) : Nat := x.cfg.gateSc.toNat * 2048
def Channel.redLen (x : Channel) : Nat := x.cfg.redSc.toNat * 2048
def Channel.tauLen (x : Channel) : Nat := fld x.cfg.phsCfg 0 28 * 2048
def Channel.dslot (x : Channel) (j : Nat) : Word := x.cfg.dslot.getD j 0
def Channel.redCfg (x : Channel) (i : Nat) : Word := x.cfg.redCfg.getD i 0
def Channel.phsOn (x : Channel) : Bool := x.cfg.phsCfg.getLsbD 31
def Channel.phsClass (x : Channel) : Nat := fld x.cfg.phsCfg 28 3
def Channel.regOn (x : Channel) : Bool := x.cfg.regCfg.getLsbD 31
def Channel.regClass (x : Channel) : Nat := fld x.cfg.regCfg 0 3
/-- The delta slot of moment set i, if it is enabled. -/
def Channel.momSlot (x : Channel) (i : Nat) : Option Nat :=
  if i = 0 then (if x.cfg.momCfg.getLsbD 31 then some (fld x.cfg.momCfg 24 2) else none)
  else if x.cfg.momCfg.getLsbD 15 then some (fld x.cfg.momCfg 8 2) else none
/-- Mask reference: 0 class, 1 gate open; none when disabled. -/
def Channel.maskKind (x : Channel) : Option Nat :=
  if x.cfg.maskRef.getLsbD 31 then some (fld x.cfg.maskRef 28 1) else none
def Channel.maskWin (x : Channel) (w : Nat) : Word × Word × Word := x.cfg.maskWin.getD w (0, 0, 0)
/-- Condition i of the trigger unit (Table 8.6). -/
def Channel.trgCond (x : Channel) (i : Nat) : Word × Word × Word := x.cfg.trgCond.getD i (0, 0, 0)
/-- KIND of an enabled condition, 0 for one that is not. -/
def Channel.condKind (x : Channel) (i : Nat) : Nat :=
  if x.cfg.trgCfg.getLsbD (16 + i) then fld (x.trgCond i).1 28 4 else 0

/-! ## Events (R195, R196) -/

/-- Order of posting among events of equal time; OPEN comes before every event of its record. -/
def evRank (type : Byte) : Nat := ([1, 8, 9, 10, 3, 5, 6, 7, 11, 4, 2] : List Nat).idxOf type.toNat

/-- Unit of an event whose type has several: window of MASK, reducer of REDUCE. -/
def Ev.unit (v : Ev) : Nat :=
  if v.type = 6 then v.head.toNat / 256 % 16 else if v.type = 7 then v.head.toNat % 2 else 0

/-- Order of posting (R196). -/
def Ev.before (v u : Ev) : Bool :=
  v.time < u.time || (v.time == u.time &&
    (evRank v.type < evRank u.type || (evRank v.type == evRank u.type && v.unit < u.unit)))

/-- Put an event in its place. -/
def insertEv (v : Ev) : List Ev → List Ev
  | [] => [v]
  | u :: t =>
    if v.before u then v :: u :: t else u :: insertEv v t

/-- An event falls due. While EN = 0 there is none (R199). -/
def Channel.ev (x : Channel) (type : Byte) (head : Nat) (time : Int) (val : Dword) : Channel :=
  if x.engOn then
    x.modF fun f => { f with due := insertEv { type := type, head := BitVec.ofNat 56 head, time := time, val := val } f.due }
  else x

/-- A subscription bit of CMP.EVQ_CFG. -/
def Channel.sub (x : Channel) (i : Nat) : Bool := x.evqCfg.getLsbD i

/-! ## Trigger conditions -/

/-- A condition is met; the unit acts on it when stream time reaches it (R275). -/
def Channel.meet (x : Channel) (n i : Nat) (time : Int) : Channel :=
  x.modTrg fun t => { t with pend := t.pend ++ [{ i := i, time := time, dc := n }] }

/-- Conditions of one kind. -/
def Channel.condsOf (x : Channel) (kind : Nat) : List Nat := (List.range 8).filter fun i => x.condKind i == kind

/-- COUNT: a class count grows by `k` at `time` (R276). `who` says to which classes the edges belong. -/
def Channel.countEdges (x : Channel) (n : Nat) (time : Int) (k : Nat) (who : Nat → Bool) : Channel :=
  (x.condsOf 1).foldl (fun y i =>
    let c := y.trgCond i
    if who (fld c.1 0 3) && y.trg.a ≤ time then
      let was := y.trg.sums.getD i 0
      let y1 := y.modTrg fun t => { t with sums := setAt t.sums i (was + k) }
      if was < c.2.1.toNat && c.2.1.toNat ≤ was + k then y1.meet n i time else y1
    else y) x

/-- QUAL: delta slot j gives a delta (R277). -/
def Channel.qual (x : Channel) (n j : Nat) (time : Int) (d : Nat) : Channel :=
  (x.condsOf 2).foldl (fun y i =>
    let c := y.trgCond i
    let inside := c.2.1.toNat ≤ d && d ≤ c.2.2.toNat
    if fld c.1 4 2 = j && (inside != c.1.getLsbD 8) then y.meet n i time else y) x

/-! ## Accumulators -/

/-- A 128-bit accumulator that saturates: value, overflow (R184). -/
def acc128 (a k : Nat) : Nat × Bool := if a + k < 2 ^ 128 then (a + k, false) else (2 ^ 128 - 1, true)

def Moments.add (m : Moments) (d : Nat) : Moments :=
  let a := acc128 m.sx d
  let b := acc128 m.sxx (d * d)
  { n := m.n + 1, sx := a.1, sxx := b.1, mn := if m.n = 0 then d else min m.mn d, mx := max m.mx d
    sat := m.sat || a.2 || b.2 }

/-- A stamp of the class enters the regression (R184). -/
def Regr.add (g : Regr) (t : Int) (edges : Nat) : Regr :=
  if g.n = 0 then { g with n := 1, t0 := t, k := 0 }
  else
    let k := g.k + edges
    let dt := (t - g.t0).toNat
    let a := acc128 g.st dt
    let b := acc128 g.skt (k * dt)
    let c := acc128 g.sk k
    let d := acc128 g.skk (k * k)
    { g with n := g.n + 1, k := k, st := a.1, skt := b.1, sk := c.1, skk := d.1, sat := g.sat || a.2 || b.2 || c.2 || d.2 }

def Channel.modG (x : Channel) (g : Gate → Gate) : Channel := x.modF fun f => { f with gate := g f.gate }

/-- The histogram takes a delta (R185). -/
def Gate.histAdd (g : Gate) (base shift d : Nat) : Gate :=
  let b := (d - base) / 2 ^ shift
  if d < base then { g with underCnt := satNat 32 (g.underCnt + 1) }
  else if 255 < b then { g with overCnt := satNat 32 (g.overCnt + 1) }
  else { g with bins := sset 0 g.bins b (satNat 32 (sget 0 g.bins b + 1)) }

/-- The gate takes what an item or a verdict adds at `t` (R184, R185, R188, Table 5.4). -/
def Channel.gateTake (x : Channel) (g : Gate) (t : Int) : GateOp → Gate
  | .stamp cls k fl =>
    { g with counts := setAt g.counts cls (g.counts.getD cls 0 + k), flags := g.flags ||| fl
             reg := if x.regOn && inClass x.regClass cls then g.reg.add t k else g.reg }
  | .delta j d sat =>
    let g1 := { g with
      flags := if sat then g.flags ||| 2 else g.flags
      m0 := if x.momSlot 0 = some j then g.m0.add d else g.m0
      m1 := if x.momSlot 1 = some j then g.m1.add d else g.m1 }
    if x.cfg.histCfg.getLsbD 31 && fld x.cfg.histCfg 0 2 == j then
      g1.histAdd x.cfg.histBase.toNat (fld x.cfg.histCfg 24 5) d
    else g1
  | .mark i lost =>
    { g with lost := g.lost + lost, flags := g.flags ||| 0x20
             reg := if x.regOn && coversInput x.regClass i && g.reg.n != 0 then { g.reg with k := g.reg.k + lost } else g.reg }
  | .flags bits => { g with flags := g.flags ||| bits }
  | .step d => { g with steps := g.steps + d, flags := g.flags ||| 0x40 }
  | .verdict code =>
    match code with
    | 0 => { g with pass := satNat 16 (g.pass + 1) }
    | 1 => { g with fail := satNat 16 (g.fail + 1) }
    | 2 => { g with abortRef := satNat 16 (g.abortRef + 1) }
    | _ => { g with abortOvf := satNat 16 (g.abortOvf + 1) }

/-- Something adds to its gate at `t`: at once, but for an engine gate, whose boundary may still be set below `t`: there
it waits until stream time has passed `t` (R235). -/
def Channel.gateDo (x : Channel) (t : Int) (op : GateOp) : Channel :=
  if x.gateKind = 2 then x.modF fun f => { f with ops := f.ops ++ [(t, op)] } else x.modG fun g => x.gateTake g t op

/-- The open gate takes what waits, as far as `p` says. -/
def Channel.flush (x : Channel) (p : Int → Bool) : Channel :=
  if x.gateKind ≠ 2 then x
  else x.modF fun f =>
    { f with gate := (f.ops.filter fun o => p o.1).foldl (fun g o => x.gateTake g o.1 o.2) f.gate
             ops := f.ops.filter fun o => !p o.1 }

/-- A count of 48 bits that saturates. -/
def sat48 (n : Nat) : Nat := satNat 48 n

/-! ## Mask checker (R188, R189) -/

/-- A verdict: 0 PASS, 1 FAIL, 2 ABORT_REF, 3 ABORT_OVF. -/
def Channel.verdict (x : Channel) (n : Nat) (p : MaskPend) (code : Nat) (time : Int) : Channel :=
  let y := x.gateDo time (.verdict code)
  let z := if y.sub 9 then y.ev 6 (p.w * 256 + code) time (stamp64 p.ref) else y
  if code = 1 then
    let z1 := z.modRec fun r => { r with maskFail := r.maskFail + 1 }
    let z2 := (z1.condsOf 6).foldl (fun z i => if (z.trgCond i).2.1.getLsbD p.w then z.meet n i time else z) z1
    if z2.cfg.trgCfg.getLsbD 0 then
      z2.modF fun f => { f with stopAsk := some (match f.stopAsk with | some t => min t time | none => time) }
    else z2
  else z

def maskSense (w : Word) : Bool := w.getLsbD 30

/-- The windows that end by `t` take the verdict of their close, in ascending order. -/
def Channel.maskCloseAt (x : Channel) (n : Nat) (t : Int) : Channel :=
  let (out, keep) := x.folder.mask.partition fun p => p.stop ≤ t
  out.foldl (fun y p =>
    y.verdict n p (if p.ovf then 3 else if maskSense (y.maskWin p.w).1 then 0 else 1) p.stop)
    (x.modF fun f => { f with mask := keep })

/-- A loss interval of an input that a class covers overlaps a window. -/
def Channel.ovfOver (x : Channel) (code : Nat) (start stop : Int) : Bool :=
  (List.range 3).any fun i => coversInput code i &&
    match x.folder.lossIv.getD i none with
    | some (a, b) => a < stop && start ≤ b
    | none => false

/-- A stamp is tested in the windows that hold it. -/
def Channel.maskStamp (x : Channel) (n cls : Nat) (t : Int) : Channel :=
  let hit := fun (p : MaskPend) => p.start ≤ t && t < p.stop && inClass (fld (x.maskWin p.w).1 0 3) cls
  let (out, keep) := x.folder.mask.partition hit
  out.foldl (fun y p => y.verdict n p (if maskSense (y.maskWin p.w).1 then 1 else 0) t)
    (x.modF fun f => { f with mask := keep })

/-- A reference event at `t`: windows that have ended by then take the verdict of their close, those of the previous
reference without a verdict take ABORT_REF, and new windows open, in which the stamps already taken at `t` or later are
tested. The spec does not say which of the two a window takes that ends at `t` itself; it is the verdict of its close
(DESIGN CHOICE, notes/assumptions/67.md). -/
def Channel.maskRefer (x : Channel) (n : Nat) (t : Int) : Channel :=
  let x1 := x.maskCloseAt n t
  let old := x1.folder.mask
  let y := old.foldl (fun y p => y.verdict n p 2 t) (x1.modF fun f => { f with mask := [] })
  let wins := (List.range 16).filterMap fun w =>
    let c := y.maskWin w
    if c.1.getLsbD 31 then
      let a := t + c.2.1.toNat
      let b := t + c.2.2.toNat
      some ({ w := w, ref := t, start := a, stop := b, ovf := y.ovfOver (fld c.1 0 3) a b } : MaskPend)
    else none
  (y.folder.ahead.filter fun p => t ≤ p.1).foldl (fun z p => z.maskStamp n p.2 p.1) (y.modF fun f => { f with mask := wins })

/-! ## Gates (R183, R194, Table 5.4) -/

/-- Words of a moment set. -/
def Moments.words (m : Moments) : List Dword :=
  [BitVec.ofNat 64 m.n, BitVec.ofNat 64 m.sx, BitVec.ofNat 64 (m.sx / 2 ^ 64), BitVec.ofNat 64 m.sxx,
   BitVec.ofNat 64 (m.sxx / 2 ^ 64), BitVec.ofNat 64 m.mn, BitVec.ofNat 64 m.mx, 0]

/-- The summary bank of a gate that closes at `t` (Table 5.4). -/
def Gate.bank (g : Gate) (t : Int) (extra : BitVec 12) : List Dword :=
  let fl := g.flags ||| extra ||| pack 12 [bitAt 2 g.m0.sat, bitAt 3 g.m1.sat, bitAt 4 g.reg.sat]
  let w128 := fun (v : Nat) => [BitVec.ofNat 64 v, (BitVec.ofNat 64 (v / 2 ^ 64) : Dword)]
  [stamp64 g.start, stamp64 t, pack 64 [(32, g.idx % 2 ^ 32), (0, fl.toNat)]]
    ++ (List.range 6).map (fun c => BitVec.ofNat 64 (sat48 (g.counts.getD c 0)))
    ++ [BitVec.ofNat 64 (sat48 g.lost), stamp64 g.steps, 0] ++ g.m0.words ++ g.m1.words
    ++ [BitVec.ofNat 64 g.reg.n] ++ w128 g.reg.st ++ w128 g.reg.skt ++ w128 g.reg.sk ++ w128 g.reg.skk
    ++ [stamp64 g.reg.t0, pack 64 [(32, g.underCnt), (0, g.overCnt)],
        pack 64 [(48, g.pass), (32, g.fail), (16, g.abortRef), (0, g.abortOvf)]]
    ++ List.replicate 24 0
    ++ (List.range 128).map fun i => pack 64 [(0, sget 0 g.bins (2 * i)), (32, sget 0 g.bins (2 * i + 1))]

/-- A gate opens; the opening may be the mask's reference event. -/
def Channel.gateOpen (x : Channel) (n idx : Nat) (t : Int) : Channel :=
  let y := x.modF fun f => { f with gate := { Gate.reset with isOpen := true, idx := idx, start := t } }
  if y.maskKind = some 1 then y.maskRefer n t else y

/-- The open gate closes at `t`: its SUMMARY falls due. -/
def Channel.gateEnd (x : Channel) (t : Int) (extra : BitVec 12) : Channel :=
  let g := x.folder.gate
  let y := if x.engOn then x.modF fun f => { f with sums := f.sums ++ [g.bank t extra] } else x
  (y.ev 4 0 t (BitVec.ofNat 64 g.idx)).modG fun g => { g with isOpen := false }

/-- End of the open gate, where it has one before the record closes. -/
def Channel.gateStop (x : Channel) : Option Int :=
  let e := match x.gateKind with
    | 1 => some (x.folder.gate.start + x.gateLen)
    | 2 => x.eng.boundary
    | _ => none
  match e, x.folder.closing with
  | some t, some c => if t < c then some t else none
  | e, _ => e

/-- Close the gate at its end and open the next one there (R183, R235). -/
def Channel.gateNext (x : Channel) (n : Nat) (t : Int) : Channel :=
  let i := x.folder.gate.idx
  (((x.flush (· < t)).gateEnd t 0).modEng fun e => { e with boundary := if x.gateKind = 2 then none else e.boundary }).gateOpen n (i + 1) t

/-! ## Reducers (R187) and the phase sampler (R186) -/

/-- The unit's interval ends at `t`: its word, and its event. -/
def Channel.reduceOut (x : Channel) (n i : Nat) (t : Int) : Channel :=
  let q := x.folder.red.getD i Reducer.reset
  let y := if x.kind = 2 then x.handOther n false (reducedWord i q.idx q.any q.mx q.mn) else x
  let z := if y.sub 10 then y.ev 7 (i + 2 * bit (!q.any)) t (BitVec.ofNat 64 (if q.any then q.mx - q.mn else 0)) else y
  z.modF fun f => { f with red := setAt f.red i { idx := q.idx + 1, any := false, mn := 0, mx := 0 } }

/-- End of the interval of unit `i`. -/
def Channel.redStop (x : Channel) (i : Nat) : Int :=
  x.folder.o + ((x.folder.red.getD i Reducer.reset).idx + 1) * x.redLen

/-- Close every interval that ends by `t`, at most `fuel` of them; unit 0 first where both end. -/
def Channel.reduceTo (x : Channel) (n : Nat) (t : Int) : Nat → Channel
  | 0 => x
  | fuel + 1 =>
    match (List.range 2).find? fun i => (x.redCfg i).getLsbD 31 && x.redStop i ≤ t
        && (i = 0 || !(x.redCfg 0).getLsbD 31 || x.redStop i < x.redStop 0) with
    | some i => (x.reduceOut n i (x.redStop i)).reduceTo n t fuel
    | none => x

/-- The next sampling instant without a sample. -/
def Channel.phsAt (x : Channel) (i : Nat) : Int := x.folder.o + i * x.tauLen

/-- A phase sample: k, or none for no stamp. -/
def Channel.phaseOut (x : Channel) (t : Int) (k : Option Nat) : Channel :=
  let y := if x.sub 8 then
      x.ev 5 (bit k.isNone) t (match k with | some k => BitVec.ofNat 64 k | none => BitVec.allOnes 64)
    else x
  y.modF fun f => { f with phsI := f.phsI + 1 }

/-- Samples whose next instant is reached by `t` are delivered with no stamp. -/
def Channel.phaseTo (x : Channel) (t : Int) : Nat → Channel
  | 0 => x
  | fuel + 1 =>
    if x.phsOn && x.phsAt (x.folder.phsI + 1) ≤ t then
      (x.phaseOut (x.phsAt (x.folder.phsI + 1)) none).phaseTo t fuel
    else x

/-- A stamp of the sampler's class: k grows, and it is the sample of the instant it follows. -/
def Channel.phaseStamp (x : Channel) (t : Int) (edges : Nat) : Channel :=
  let y := x.modF fun f => { f with phsSeen := true, phsK := if f.phsSeen then f.phsK + edges else 0 }
  if y.phsAt y.folder.phsI ≤ t then y.phaseOut t (some y.folder.phsK) else y

/-! ## Everything that ends by a time -/

/-- Mask windows and gates that end by `t`, in order of time; a verdict at a gate's end is the next gate's. -/
def Channel.windowsTo (x : Channel) (n : Nat) (t : Int) : Nat → Channel
  | 0 => x
  | fuel + 1 =>
    let m := (x.folder.mask.map (·.stop)).min?
    match x.gateStop, m with
    | some g, some w =>
      if g ≤ w then (if g ≤ t then (x.gateNext n g).windowsTo n t fuel else x)
      else if w ≤ t then (x.maskCloseAt n w).windowsTo n t fuel
      else x
    | some g, none => if g ≤ t then (x.gateNext n g).windowsTo n t fuel else x
    | none, some w => if w ≤ t then (x.maskCloseAt n w).windowsTo n t fuel else x
    | none, none => x

/-- Steps that suffice to bring a unit of a length from a time to another. -/
def steps (start t : Int) (len : Nat) : Nat := (t - start).toNat / max len 1 + 2

/-- Each gate, reduction interval, sample and mask window that ends by `t` closes (R178). -/
def Channel.catchUp (x : Channel) (n : Nat) (t : Int) : Channel :=
  let y := x.windowsTo n t (17 * (steps x.folder.gate.start t x.gateLen + 2))
  let z := y.reduceTo n t (2 * steps y.folder.o t y.redLen)
  z.phaseTo t (steps z.folder.o t z.tauLen)

/-! ## Stamps (R181, R182, R184, R185) -/

/-- Restart every pairing chain. -/
def Channel.restartChains (x : Channel) : Channel := x.modF fun f => { f with slots := List.replicate 4 none }

/-- A delta of slot `j` reaches its units. -/
def Channel.delta (x : Channel) (n j : Nat) (t : Int) (d : Nat) (sat : Bool) : Channel :=
  let x3 := x.gateDo t (.delta j d sat)
  let x4 := (List.range 2).foldl (fun y i =>
    if (y.redCfg i).getLsbD 31 && fld (y.redCfg i) 0 2 == j then
      y.modF fun f =>
        let q := f.red.getD i Reducer.reset
        { f with red := setAt f.red i
                   { q with any := true, mn := if q.any then min q.mn d else d, mx := if q.any then max q.mx d else d } }
    else y) x3
  x4.qual n j t d

/-- Delta slot `j` sees a stamp (R181). -/
def Channel.pair (x : Channel) (n j cls : Nat) (t : Int) : Channel :=
  let c := x.dslot j
  if !c.getLsbD 31 then x
  else
    let y :=
      if inClass (fld c 0 3) cls then
        match x.folder.slots.getD j none with
        | some u =>
          let raw := (t - u).toNat
          let d := satNat 48 raw
          (x.delta n j t d (2 ^ 48 ≤ raw)).modF fun f => { f with slots := setAt f.slots j none }
        | none => x
      else x
    if inClass (fld c 8 3) cls then y.modF fun f => { f with slots := setAt f.slots j (some t) } else y

/-- A stamp reaches every unit. -/
def Channel.stampUnits (x : Channel) (n : Nat) (e : Entry) (t : Int) : Channel :=
  let cls := e.cls
  let k := e.edges.toNat
  let need := if e.ptnr then x.folder.restartP else if e.lane then x.folder.restartL else x.folder.restartH
  let x1 := if need then
      x.restartChains.modF fun f =>
        if e.ptnr then { f with restartP := false } else if e.lane then { f with restartL := false }
        else { f with restartH := false }
    else x
  let x2 := x1.gateDo t
    (.stamp cls k (pack 12 [bitAt 8 e.coast, bitAt 9 e.slew, bitAt 10 e.sup, bitAt 11 e.inj]))
  let x3 := if x2.phsOn && inClass x2.phsClass cls then x2.phaseStamp t k else x2
  let x4 := (List.range 4).foldl (fun y j => y.pair n j cls t) x3
  let x5 := x4.maskStamp n cls t
  let x6 := if x5.maskKind = some 0 && inClass (fld x5.cfg.maskRef 0 3) cls then x5.maskRefer n t else x5
  let x7 := x6.countEdges n t k (fun code => inClass code cls)
  let x8 := x7.modF fun f => { f with ahead := f.ahead ++ [(t, cls)] }
  if cls < 6 && x8.sub cls then x8.ev 3 (cls * 2 ^ 32 + e.attr.toNat) t (BitVec.ofNat 64 k) else x8

/-- The pair of entries of an OVF mark is complete (R182, R184, R188, R276). `one` says that the lane's SEL selects one
polarity only. -/
def Channel.markUnits (x : Channel) (n : Nat) (e1 e2 : Entry) (t1 t2 : Int) (one : Bool) : Channel :=
  let lost := e1.lost + e2.lost * 2 ^ 23
  let i := e1.input
  let x1 := x.gateDo t1 (.mark i lost)
  let x2 := x1.modF fun f =>
    let g := if i = 2 then { f with restartP := true } else if i = 1 then { f with restartL := true }
             else { f with restartH := true }
    { g with
      lossIv := setAt g.lossIv i (some (t1, t2))
      phsK := if x1.phsOn && coversInput x1.phsClass i && f.phsSeen then f.phsK + lost else f.phsK
      mask := g.mask.map fun p =>
        if coversInput (fld (x1.maskWin p.w).1 0 3) i && t1 < p.stop && p.start ≤ t2 then { p with ovf := true } else p }
  let x3 := x2.countEdges n t1 lost fun code =>
    if code = 6 then i ≤ 1 else one && code == e1.cls
  x3.ev 10 (bit e1.lane) t1 (BitVec.ofNat 64 lost)

/-! ## Intake -/

/-- Compensated time of an item (R130). The second entry of an OVF mark has its place in the stream, and so in stream
time, at the time of the first (R76, R178). -/
def Folder.compTime (f : Folder) : Item → Int
  | .entry e => if e.type = 2 then e.abs + f.base else e.time - f.comp
  | .ins r => r.time - f.comp - (if r.fence then 0 else r.step)

/-- Note the placement of an entry (R363). -/
def Rec.place (r : Rec) (p : Placement) : Rec := { r with plO := some (r.plO.getD p), plC := some p }

/-- Record flags that an entry brings (Table 9.9). -/
def entryFlags (e : Entry) : Word :=
  if e.isMark then 8
  else pack 32 [bitAt 4 e.coast, bitAt 5 e.slew, bitAt 6 e.sup, bitAt 7 e.inj, bitAt 16 e.dskc, bitAt 17 (e.xck == 2)]

/-- The folder takes an item in dc `n`, in which stream time is `now`. -/
def Channel.intake (x : Channel) (n : Nat) (now : Int) (it : Item) (one : Bool) : Channel :=
  let t := x.folder.compTime it
  let x1 := ((x.catchUp n t).flush (· < now)).modF fun f =>
    { f with last := max f.last t, ahead := f.ahead.filter fun p => now ≤ p.1 }
  match it with
  | .ins r =>
    if r.fence then
      let pl : Placement := { site := r.newSite, step := r.newStep, epoch := r.newEpoch }
      let y := ((x1.modRec fun q => { q.place pl with plOpen := pl }).flag 0x200).rawInsert n r
      (y.restartChains.gateDo t (.flags 0x80)).ev 9 r.newSite.toNat t (r.newStep.setWidth 64)
    else
      let y := ((x1.modRec fun q => q.place q.plOpen).flag 0x100).rawInsert n r
      ((y.modF fun f => { f with comp := f.comp + r.step }).gateDo t (.step r.step)).ev 8 (r.cause.toNat % 4) t (stamp64 r.step)
  | .entry e =>
    let y := ((x1.modRec fun q => q.place q.plOpen).flag (entryFlags e)).rawEntry n e
    if e.type = 1 then (y.gateDo t (.flags 0x20)).modF fun f => { f with mark1 := some e }
    else if e.type = 2 then
      match y.folder.mark1 with
      | some e1 =>
        (y.markUnits n e1 e (e1.time - y.folder.comp) (e.time - y.folder.comp) one).modF fun f => { f with mark1 := none }
      | none => y
    else y.stampUnits n e t

/-! ## Closing and opening -/

/-- The units end at the closing time C: windows, last reductions, last samples, the gate, the tail, then CLOSE. The spec
does not say which verdict a window takes that ends at C itself; it is that of its close (DESIGN CHOICE,
notes/assumptions/67.md). -/
def Channel.finish (x : Channel) (n : Nat) (c : Int) : Channel :=
  let x1 := (x.modF fun f => { f with done := true }).catchUp n c
  let x2 := x1.folder.mask.foldl (fun y p => y.verdict n p (if p.ovf then 3 else 2) c)
    (x1.modF fun f => { f with mask := [] })
  let x3 := (List.range 2).foldl (fun y i =>
    if (y.redCfg i).getLsbD 31 && y.redStop i - y.redLen < c then y.reduceOut n i c else y) x2
  let x4 := if x3.phsOn && x3.phsAt x3.folder.phsI < c then x3.phaseOut c none else x3
  let ends := match x4.gateKind with
    | 0 => true
    | 1 => x4.folder.gate.start + x4.gateLen == c
    | _ => x4.eng.boundary == some c
  let x5 := ((x4.flush fun _ => true).gateEnd c (if ends then 0 else 1)).modEng fun e => { e with boundary := none }
  let x6 := x5.closePacked n
  x6.ev 2 (bit x6.folder.byDisarm) c (x6.folder.recNo.setWidth 64)

/-- The units restart at the open time O (R182, R183, R186, R187), and OPEN falls due. -/
def Channel.openUnits (x : Channel) (n : Nat) (o base : Int) (recNo : BitVec 16) (forme : Nat) : Channel :=
  let y := x.modF fun f =>
    { Folder.reset with
      recOpen := true, o := o, recNo := recNo, base := base, last := o - 1, lastPost := f.lastPost, held := f.held
      frozen := f.frozen, due := f.due, sums := f.sums }
  ((y.rawOpenStates).ev 1 recNo.toNat o (BitVec.ofNat 64 forme)).gateOpen n 0 o

/-! ## State level -/

/-- SEL of the lane that produced an entry selects one polarity only (R276). -/
def State.onePol (s : State) (c : Chan) (it : Item) : Bool :=
  match it with
  | .entry e =>
    let src : Chan := Fin.ofNat 96 (12 * (pierOf c).val + e.psrc.toNat)
    let cfg := (s.chan src).lnCfg e.lane
    cfg.getLsbD 4 != cfg.getLsbD 5
  | .ins _ => false

/-- The folder takes an item now: it belongs to the open record (R83, R293). -/
def Folder.belongs (f : Folder) (x : Channel) (it : Item) : Bool :=
  f.recOpen &&
  match f.closing with
  | none => true
  | some c =>
    match it with
    | .entry e => if f.byDisarm then (match x.disarmAt with | some d => e.conv < lsbOf d | none => true)
                  else f.compTime it < c
    | .ins r => if f.byDisarm then (match x.disarmAt with | some d => r.inst < lsbOf d | none => true)
                else f.compTime (.ins r) < c

end Sys2Proof.Machine
end

