-- ==== Sys2Proof/Machine/Synth.lean ====
section
/-! DEFINITION. The ten synthesizers (04_sweep_synthesizers.md): hops, searches, ramps, limits, and the locks of DECK and
VAULT. -/

namespace Sys2Proof.Machine

/-! ## Fields -/

/-- One SWREF cycle is 10 sc (R141); one 5 MHz input cycle is 200 ns (R140). -/
def swUnits : Nat := 512000
def inUnits : Nat := 12800000

/-- SWREF. -/
def State.swClk (s : State) : Clock := ⟨swUnits, s.tb.swref % swUnits, 0, none⟩

def SynthSt.flim (x : SynthSt) : Nat := fld x.cfg 20 12
def SynthSt.holdMode (x : SynthSt) : Bool := x.cfg.getLsbD 16
def SynthSt.sscMode (x : SynthSt) : Nat := fld x.ssc 30 2
def SynthSt.rampEn (x : SynthSt) : Bool := x.ramp.getLsbD 31
def SynthSt.rampEnd (x : SynthSt) : Nat := fld x.ramp 12 2
def SynthSt.advSync (x : SynthSt) : Bool := fld x.ramp 10 2 = 1
def SynthSt.startSel (x : SynthSt) : Nat := fld x.ramp 8 2
def SynthSt.lastSeg (x : SynthSt) : Nat := fld x.ramp 0 6

/-- SWk as a synthesizer. -/
def swOf (k : Fin 8) : Synth := ⟨k.val, by omega⟩
/-- DECK or VAULT as a synthesizer. -/
def dvOf (vault : Bool) : Synth := if vault then 9 else 8

/-- Segment j: CONT, IDX, SLOPE, DWELL (Table 4.11). -/
def SynthSt.segW (x : SynthSt) (j : Nat) : Word × Word × Word := x.segs.getD j (0, 0, 0)
def SynthSt.cont (x : SynthSt) (j : Nat) : Bool := (x.segW j).1.getLsbD 31
def SynthSt.segIdx (x : SynthSt) (j : Nat) : Nat := fld (x.segW j).1 0 6
def SynthSt.slope (x : SynthSt) (j : Nat) : Int := (x.segW j).2.1.toInt
def SynthSt.dwell (x : SynthSt) (j : Nat) : Nat := (x.segW j).2.2.toNat

def SynthSt.entryAt (x : SynthSt) (i : Nat) : StoreEntry := x.store.getD i StoreEntry.reset

/-- The store entry that holds a word: a valid one before one that is only named. -/
def SynthSt.findEntry (x : SynthSt) (odiv : BitVec 4) (nint : BitVec 7) (nfrac : BitVec 24) : Option Nat :=
  let holds := fun (i : Nat) => (x.entryAt i).odiv == odiv && (x.entryAt i).nint == nint && (x.entryAt i).nfrac == nfrac
  ((List.range 64).find? fun i => (x.entryAt i).valid && holds i) <|>
    (List.range 64).find? fun i => (x.entryAt i).named && holds i

/-! ## The word in force and the clock it makes (R142, R146, R155) -/

/-- SWREF cycles of the segment that have run at `t`. -/
def SynthSt.ran (x : SynthSt) (t : Instant) : Nat := if x.st = .ramp then x.tDone + (t - x.t0) / swUnits else x.tDone

/-- W at cycle n of the segment, which stands still at its last word (R155, R159). -/
def SynthSt.wordAt (x : SynthSt) (n : Nat) : Int :=
  x.w + x.slope x.seg.toNat * (min n (x.dwell x.seg.toNat - 1) : Nat)

/-- The word in force at `t`: during a ramp W truncated to 2^-24 at each SWREF edge (R155). -/
def SynthSt.forceWord (x : SynthSt) (t : Instant) : BitVec 7 × BitVec 24 :=
  if x.rampOn && x.st = .ramp then
    let w := x.wordAt (x.ran t)
    (BitVec.ofInt 7 (w / 2 ^ 32), BitVec.ofInt 24 (w / 2 ^ 8))
  else (x.nint, x.nfrac)

/-- That word as a number, in units of 2^-24. -/
def SynthSt.forceNat (x : SynthSt) (t : Instant) : Nat := (x.forceWord t).1.toNat * 2 ^ 24 + (x.forceWord t).2.toNat

/-- A word with the spread modulation at `t`: a triangle whose period is `rate` / FMOD input cycles of `unit` and which began
at its upper extreme, from f to 0.995 f or from 1.0025 f to 0.9975 f and back (R145, R146). -/
def SynthSt.spreadWord (x : SynthSt) (unit rate : Nat) (t : Instant) (w : Int) : Int :=
  if !x.spread then w
  else
    let p := rate / fld x.ssc 0 9
    let n := (t - x.modAt) / unit % p
    let tri : Int := min (2 * n) (2 * (p - n))
    if x.sscMode = 1 then w - w * 5 * tri / (1000 * p) else w + w * 25 * ((p : Int) - 2 * tri) / (10000 * p)

/-- A clock with edges at `rise` + n x `num` / `den`. -/
structure Wave where
  rise : Instant
  num : Nat
  den : Nat
deriving DecidableEq, Repr

/-- Edge `n`, the falling edge after it, and the number of the last edge at or before `t`. -/
def Wave.edge (v : Wave) (n : Nat) : Instant := v.rise + n * v.num / v.den
def Wave.fallAt (v : Wave) (n : Nat) : Instant := v.rise + (2 * n + 1) * v.num / (2 * v.den)
def Wave.no (v : Wave) (t : Instant) : Nat := ((t - v.rise + 1) * v.den - 1) / v.num

/-- A VCO cycle of 5.0 GHz on the time axis. -/
def vcoUnits : Nat := 12800

/-- The clock that the output shows at `t`: the bypass divider in HOLD (R147), otherwise f_out (R142). -/
def SynthSt.wave (x : SynthSt) (t : Instant) : Wave :=
  if x.out = .holdDiv then ⟨x.rise, x.holdDiv * vcoUnits, 1⟩
  else ⟨x.rise, 2 ^ (x.odiv.toNat + 2) * 2 ^ 24 * swUnits, (x.spreadWord swUnits 500000 t (x.forceNat t)).toNat⟩

/-- The end of the high phase of the last cycle that the output began before `t` (R147, R154). -/
def SynthSt.endFall (x : SynthSt) (t : Instant) : Instant :=
  if (x.out = .clock ∨ x.out = .holdDiv) ∧ x.rise ≤ t then (x.wave t).fallAt ((x.wave t).no t) else x.fall

/-- Mh = ceil(5.0 GHz / f_old), from 2 to 500 (R147). -/
def holdRatio (odiv : BitVec 4) (nint : BitVec 7) (nfrac : BitVec 24) : Nat :=
  let w := nint.toNat * 2 ^ 24 + nfrac.toNat
  if w = 0 then 2 else max 2 (min 500 ((40 * 2 ^ 24 * 2 ^ (odiv.toNat + 2) + w - 1) / w))

/-! ## Hops (R147 to R151) -/

/-- A hop at `t` to a word: the output enters its hold state and the loop opens. `full` makes it a full search, `entry`
is the store entry the hop uses or fills. A clock from the bypass divider takes the first edge that R147 allows. Where there is
no running old clock, so that the spec gives no f_old, the divider keeps the ratio it had (DESIGN CHOICE,
notes/assumptions/63.md). -/
def SynthSt.startHop (x : SynthSt) (t : Instant) (full : Bool) (odiv : BitVec 4) (nint : BitVec 7) (nfrac : BitVec 24)
    (entry : Option Nat) : SynthSt :=
  let m := if x.out = .clock then holdRatio x.odiv (x.forceWord t).1 (x.forceWord t).2 else x.holdDiv
  { x with
    st := if full then .search else .hop
    fall := x.endFall t, rise := x.endFall t + m * vcoUnits
    hop := some { start := t, full := full, fellBack := false, odiv := odiv, nint := nint, nfrac := nfrac, entry := entry }
    out := if x.holdMode then .holdDiv else .parkLow
    holdDiv := m
    hops := satAdd x.hops 1, searches := if full then satAdd x.searches 1 else x.searches
    lock := false, spread := false
    entry := match entry with | some i => BitVec.ofNat 6 i | none => x.entry }

/-- A hop to a word: stored where a valid entry holds it, otherwise a full search (R149). -/
def SynthSt.hopTo (x : SynthSt) (t : Instant) (odiv : BitVec 4) (nint : BitVec 7) (nfrac : BitVec 24) : SynthSt :=
  let e := x.findEntry odiv nint nfrac
  x.startHop t (match e with | some i => !(x.entryAt i).valid | none => true) odiv nint nfrac e

/-- A hop to store entry `i` (R156). -/
def SynthSt.hopEntry (x : SynthSt) (t : Instant) (i : Nat) : SynthSt :=
  let e := x.entryAt i
  x.startHop t (!e.valid) e.odiv e.nint e.nfrac (some i)

/-- HOP: a hop of SWk to its current word. -/
def State.hop (s : State) (t0 : Instant) (k : Fin 8) : State :=
  let s := s.at_ t0
  if s.pierOn k then s.modSynth (swOf k) fun x => x.hopTo s.now x.odiv x.nint x.nfrac else s

/-- A hop to the current word with a full search: the block action of Table 17.4. -/
def State.hopFull (s : State) (k : Fin 8) : State :=
  if s.pierOn k then s.modSynth (swOf k) fun x => x.startHop s.now true x.odiv x.nint x.nfrac
    (x.findEntry x.odiv x.nint x.nfrac) else s

/-- SWREF cycle of the release of a hop (Table 4.2). -/
def HopSt.releaseAt (h : HopSt) : Instant := h.start + (if h.full then 8192 else 2048) * swUnits

/-- The output is released: the target is the word in force; a ramp segment starts or resumes its count (R148, R156). The
first rising edge falls one new period or more after the last falling edge of the hold state, where the new clock's phase, which
is free, has one (notes/assumptions/66.md). Only from the release on, also after a failed search, do SWP.INT and SWP.FRAC show
the target (DESIGN CHOICE, notes/assumptions/64.md). -/
def SynthSt.release (x : SynthSt) (h : HopSt) (t : Instant) : SynthSt :=
  let fall := x.endFall t
  let y := { x with
    odiv := h.odiv, nint := h.nint, nfrac := h.nfrac, hop := none, out := .clock, lock := true, fall := fall
    st := if x.rampOn then .ramp else .run, spread := x.sscMode = 1 ∨ x.sscMode = 2, t0 := t, modAt := t }
  let v := y.wave t
  let p := v.num / v.den + 1
  { y with rise := max t (fall + p) + Config.clockPhase t % p }

/-- Of consecutive rising edges on the output path, those that the cycle guard holds: a held one passes when 1/FLIM has passed
since the one before (R153). -/
def SynthSt.heldEdges (x : SynthSt) : List Instant → Nat
  | [] => 0
  | r :: l =>
    (l.foldl (fun (p : Instant × Nat) e =>
      if e * x.flim < p.1 * x.flim + 64000000 then ((p.1 * x.flim + 64000000 + x.flim - 1) / x.flim, p.2 + 1)
      else (e, p.2)) (r, 0)).2

/-- The cycle guard meets these edges. -/
def State.guard (s : State) (k : Fin 8) (rises : List Instant) : State :=
  let n := (s.synth (swOf k)).heldEdges rises
  if n = 0 then s
  else (s.modSynth (swOf k) fun x => { x with guards := satAdd x.guards n }).raise (synSrc (swOf k)) 0x10

/-- The next entry of a refill (R151), or the first hop to the word of the forme when the refill is done. A ramp start
waits for the refill (notes/assumptions/22.md). While the store refills the output stands at PARK-LOW whatever HOLD says, which
the spec leaves open (DESIGN CHOICE, notes/assumptions/65.md). -/
def SynthSt.refillNext (x0 : SynthSt) (t : Instant) : SynthSt :=
  let x := { x0 with startDue := x0.startDue.map (max t) }
  match x.refill with
  | i :: rest =>
    let e := x.entryAt i
    { x.startHop t true e.odiv e.nint e.nfrac (some i) with
      refill := rest, refilling := true, out := .parkLow, hops := x.hops }
  | [] => { x with refilling := false }.hopTo t x.odiv x.nint x.nfrac

/-- STORED_HOP_RELEASE. -/
def State.storedRelease (s : State) (k : Fin 8) (rises : List Instant) : State :=
  let x := s.synth (swOf k)
  match x.hop with
  | some h =>
    if h.full then s
    else
      let s := s.at_ h.releaseAt
      (s.setSynth (swOf k) (x.release h h.releaseAt)).guard k rises
  | none => s

/-- BAND and CTUNE of a search are analog results: free values (R151, notes/assumptions/9.md). -/
def StoreEntry.fill (e : StoreEntry) (n : Nat) : StoreEntry :=
  { e with valid := true, band := Config.searchBand n, ctune := Config.searchTune n }

/-- An entry as it reads at `t`: from cycle 4,096 of a search that fills it, with the result (Table 4.2); VALID follows once the
search has passed. -/
def SynthSt.entrySeen (x : SynthSt) (t : Instant) (n i : Nat) : StoreEntry :=
  match x.hop with
  | some h =>
    if h.full && h.entry = some i && decide (h.start + 4096 * swUnits ≤ t) then
      { (x.entryAt i).fill n with valid := (x.entryAt i).valid }
    else x.entryAt i
  | none => x.entryAt i

/-- FULL_SEARCH_RELEASE: the result is written to the entry that names the word; the output is released, or the refill
goes on to its next entry. -/
def State.fullRelease (s : State) (k : Fin 8) (rises : List Instant) : State :=
  let x := s.synth (swOf k)
  match x.hop with
  | some h =>
    if !h.full then s
    else
      let s := s.at_ h.releaseAt
      let x1 := match h.entry with
        | some i => { x with store := setAt x.store i ((x.entryAt i).fill s.free) }
        | none => x
      let s1 := s.drawn
      if x.refilling then s1.setSynth (swOf k) (x1.refillNext h.releaseAt)
      else (s1.setSynth (swOf k) (x1.release h h.releaseAt)).guard k rises
  | none => s

/-- LOCK_DETECT_DEADLINE: no lock detect by cycle 1,792 (a full search starts, STALE) or 7,936 (FAIL, LOCKFAIL; for a
refill the entry stays invalid, BANDFAIL as well, and the next one follows: R151, R168). -/
def State.lockDeadline (s : State) (k : Fin 8) (bandFound : Bool) : State :=
  let x := s.synth (swOf k)
  match x.hop with
  | some h =>
    if !h.full then
      let t := h.start + 1792 * swUnits
      let x1 := { x with
        st := .search, searches := satAdd x.searches 1, hop := some { h with start := t, full := true, fellBack := true } }
      ((s.at_ t).setSynth (swOf k) x1).raise (synSrc (swOf k)) 0x04
    else
      let t := h.start + 7936 * swUnits
      if x.refilling then
        ((s.at_ t).setSynth (swOf k) (x.refillNext (h.start + 8192 * swUnits))).raise (synSrc (swOf k)) 0x03
      else
        ((s.at_ t).setSynth (swOf k) { x with st := .fail, hop := none }).raise (synSrc (swOf k))
          (if bandFound then 0x01 else 0x03)
  | none => s

/-- The recovery hop of R150: stored with the chain's entry while a ramp runs, stored where the last entry is valid,
otherwise a full search; always to the word in force. -/
def SynthSt.recover (x : SynthSt) (t : Instant) : SynthSt :=
  let e := if x.rampOn then x.chain.toNat else x.entry.toNat
  let full := !x.rampOn && !(x.entryAt e).valid
  x.startHop t full x.odiv x.nint x.nfrac (if full then x.findEntry x.odiv x.nint x.nfrac else some e)

/-! ## Ramps (R155 to R160) -/

/-- The ramp's count stops at `t` with the word then in force. -/
def SynthSt.freeze (x : SynthSt) (t : Instant) : SynthSt :=
  if x.rampOn && x.st = .ramp then
    { x with tDone := x.ran t, t0 := t, nint := (x.forceWord t).1, nfrac := (x.forceWord t).2 }
  else x

/-- A segment with CONT = 0 begins with a hop to its entry, which starts a chain (R156, R157). -/
def SynthSt.beginSeg (x : SynthSt) (j : Nat) (t : Instant) : SynthSt :=
  let e := x.entryAt (x.segIdx j)
  let x1 := { x with
    seg := BitVec.ofNat 6 j, rampOn := true, tDone := 0, chain := BitVec.ofNat 6 (x.segIdx j)
    w := ((e.nint.toNat * 2 ^ 24 + e.nfrac.toNat) * 2 ^ 8 : Nat) }
  x1.hopEntry t (x.segIdx j)

/-- A start event at `t`: 0 SYNC arm, 1 SYNC trigger, 2 forme in force (R158). It is none while the ramp runs. -/
def State.rampEvent (s : State) (k : Fin 8) (sel : Nat) (t : Instant) : State :=
  let x := s.synth (swOf k)
  if s.pierOn k && x.rampEn && x.startSel == sel && !x.rampOn && x.startDue.isNone then
    s.setSynth (swOf k) { x with startDue := some (s.swClk.next t) }
  else s

/-- A SYNC trigger advances a running ramp, or is kept pending, or is discarded (R159). -/
def State.rampAdvance (s : State) (k : Fin 8) (t : Instant) : State :=
  let x := s.synth (swOf k)
  if x.rampOn && x.advSync then
    if x.advance.isSome then
      (s.setSynth (swOf k) { x with advLost := satAdd x.advLost 1 }).raise (synSrc (swOf k)) 0x80
    else s.setSynth (swOf k) { x with advance := some t, pend := x.ran t < x.dwell x.seg.toNat }
  else s

/-- RAMP_START at the SWREF edge after the start event. -/
def State.rampStart (s : State) (k : Fin 8) : State :=
  let x := s.synth (swOf k)
  match x.startDue with
  | some t => if x.refilling then s else (s.at_ t).setSynth (swOf k) { x.beginSeg 0 t with startDue := none }
  | none => s

/-- The SWREF edge at which the segment ends, if it is known. -/
def State.segEndAt (s : State) (x : SynthSt) : Option Instant :=
  let full := x.t0 + (x.dwell x.seg.toNat - x.tDone) * swUnits
  if x.advSync then x.advance.map fun a => max full (s.swClk.next a) else some full

/-- SEGMENT_END: the next segment, the loop, the last word, or PARK-LOW follows (R156, R159, R160). -/
def State.segmentEnd (s : State) (k : Fin 8) : State :=
  let x := s.synth (swOf k)
  if x.rampOn && x.st = .ramp then
    match s.segEndAt x with
    | none => s
    | some t =>
      let s := s.at_ t
      let j := x.seg.toNat
      let x0 := { x.freeze t with advance := none, pend := false }
      let last := x.wordAt (x.dwell j - 1)
      if j < x.lastSeg then
        if x.cont (j + 1) then
          s.setSynth (swOf k) { x0 with seg := BitVec.ofNat 6 (j + 1), w := last + x.slope j, tDone := 0, t0 := t }
        else s.setSynth (swOf k) (x0.beginSeg (j + 1) t)
      else if x.rampEnd = 1 then s.setSynth (swOf k) (x0.beginSeg 0 t)
      else if x.rampEnd = 2 then s.setSynth (swOf k) { x0 with rampOn := false, st := .hold, out := .parkLow, fall := x.endFall t }
      else s.setSynth (swOf k) { x0 with rampOn := false, st := .run }
  else s

/-! ## Limits, unlock, epoch mark -/

/-- WINDOW_MONITOR: `rises` are edges that the cycle guard met in the window of 64 SWREF cycles. With more than
floor(FLIM x 512 ns) + 1 edges the output parks at the end of its current high phase (R154, Table 4.3). That this also ends a hop in
progress and a ramp and clears LOCK and SPREAD is the model's choice (DESIGN CHOICE, notes/assumptions/22.md). -/
def State.windowMonitor (s : State) (t0 : Instant) (k : Fin 8) (count : Nat) (rises : List Instant) : State :=
  let s := (s.at_ t0).guard k rises
  let x := s.synth (swOf k)
  if s.pierOn k && x.flim * 512 / 1000 + 1 < count then
    (s.setSynth (swOf k) { x.freeze s.now with
      st := .fail, out := .parkLow, fall := x.endFall s.now, hop := none, rampOn := false, lock := false, spread := false }).raise
        (synSrc (swOf k)) 0x20
  else s

/-- D of a pseudo-channel rises (R419): not in self-refresh, not on the safe clock. -/
def State.debtRises (s : State) : Bool :=
  match s.vlt.st with
  | .train | .init | .run => true
  | .frozen => (s.synth 9).st != .safe && s.vlt.srExit.isNone && s.vlt.srWake.isNone
  | _ => false

/-- D at vc `v`. -/
def State.debtAt (s : State) (p : PcSt) (v : Nat) : Nat := if s.debtRises then p.debt + (v - p.dAt) else p.debt

/-- Every debt is brought to vc `v`. -/
def State.rebaseDebt (s : State) (v : Nat) : State :=
  { s with vlt := { s.vlt with pcs := s.vlt.pcs.map fun p => { p with debt := s.debtAt p v, dAt := v } } }

/-- Codes of Table 12.4. -/
def cmdAct : BitVec 4 := 0
def cmdRd : BitVec 4 := 1
def cmdWr : BitVec 4 := 2
def cmdPre : BitVec 4 := 3
def cmdPrea : BitVec 4 := 4
def cmdRefab : BitVec 4 := 5
def cmdRefpb : BitVec 4 := 6
def cmdSre : BitVec 4 := 7
def cmdSrx : BitVec 4 := 8

/-- A command is issued. -/
def PcSt.log (p : PcSt) (v : Nat) (cmd : BitVec 4) (port bank row col req : Nat) : PcSt :=
  { p with hist := ({ vct := BitVec.ofNat 16 v, cmd := cmd, port := BitVec.ofNat 4 port, bg := BitVec.ofNat 2 (bank / 4)
                      ba := BitVec.ofNat 2 bank, row := BitVec.ofNat 15 row, col := BitVec.ofNat 5 col
                      req := BitVec.ofNat 12 req } :: p.hist).take 64 }

/-- A command the vault makes itself. -/
def PcSt.logOwn (p : PcSt) (v : Nat) (cmd : BitVec 4) (bank row : Nat) : PcSt := p.log v cmd 15 bank row 0 0

/-- A pseudo-channel begins to enter self-refresh: its rows close (R425). -/
def PcSt.toSelfRefresh (p : PcSt) (v : Nat) : PcSt :=
  ({ p with rows := List.replicate 16 none }.logOwn v cmdPrea 0 0).logOwn v cmdSre 0 0

/-- The vault begins to enter self-refresh at vc `v` (R425). -/
def State.srBegin (s : State) (v : Nat) : State :=
  { s with vlt := { s.vlt with srEntry := some v, srWake := none, pcs := s.vlt.pcs.map (·.toSelfRefresh v) } }

/-- A pseudo-channel after self-refresh: D is zero and the neighbour tables are clear (R419, R429). -/
def PcSt.awake (p : PcSt) (v : Nat) : PcSt :=
  { p with debt := 0, dAt := v, nrr := [], owed := 0, insert := false, rows := List.replicate 16 none, chunks := [] }

/-- The stack is in self-refresh while the VAULT domain is on the safe clock, and the vault accepts no request (R164). After
the lock it leaves self-refresh, as R426 says (R162). A vault that was frozen before enters no self-refresh and keeps its debts
meanwhile (R436). -/
def State.vaultClock (s : State) (safe : Bool) : State :=
  let v := s.vc s.now
  let toSafe := { s.vlt with st := .safe, srEntry := none, srExit := none, srWake := none }
  match s.vlt.st, safe with
  | .run, true =>
    let entered := if s.vlt.srEntry.isSome then s.vlt.pcs else s.vlt.pcs.map (·.toSelfRefresh v)
    { s with vlt := { toSafe with
      srcnt := satAdd s.vlt.srcnt 1, pcs := entered.map fun p => { p with debt := 0, dAt := v } } }
  | .selfref, true => { s with vlt := toSafe }
  | .safe, false => { s with vlt := { s.vlt with st := .selfref, srExit := some v } }
  | .frozen, true => s.rebaseDebt v
  | .frozen, false =>
    if s.vlt.srWake.isSome then { s with vlt := { s.vlt with srExit := some v, srWake := none } }
    else { s with vlt := { s.vlt with pcs := s.vlt.pcs.map fun p => { p with dAt := v } } }
  | _, _ => s

/-- DECK or VAULT starts a lock on the safe clock (R161, R164). -/
def State.relock (s : State) (k : Synth) (causes : Byte) : State :=
  let s0 := s.onClock (k.val = 9) s.clocks.mgmt
  let s1 := if k.val = 9 then s0.vaultClock true else s0
  (s1.modSynth k fun x =>
    { x with st := .safe, lock := false, spread := false, lockStart := some s.now }).raise (synSrc k) causes

/-- UNLOCK: lock detect drops for 64 input cycles (R150, R164). -/
def State.unlock (s : State) (t0 : Instant) (k : Synth) : State :=
  let s := s.at_ t0
  let x := s.synth k
  if x.st = .run ∨ x.st = .ramp then
    if k.val < 8 then (s.setSynth k ((x.freeze s.now).recover s.now)).raise (synSrc k) 0x08
    else s.relock k 0x48
  else s

/-- DECK_VAULT_WINDOW: more than 202 edges in one 5 MHz input cycle (R163). -/
def State.deckVaultWindow (s : State) (t0 : Instant) (vault : Bool) (count : Nat) : State :=
  let s := s.at_ t0
  if 202 < count && (s.synth (dvOf vault)).st = .run then s.relock (dvOf vault) 0x60 else s

/-- SYNTH_LOCK at input cycle 4,096 of a lock (R161). While the reference is lost the release waits (Table 4.3). Without
lock detect LOCKFAIL is raised, with BANDFAIL where the search found no band (R168), and the lock starts again. -/
def State.synthLock (s : State) (vault lockDetected bandFound : Bool) : State :=
  let k := dvOf vault
  let x := s.synth k
  match x.lockStart with
  | none => s
  | some t =>
    if s.tb.st = .coast ∨ s.tb.st = .qualify then s
    else
      let s := s.at_ (t + 4096 * inUnits)
      if lockDetected then
        let s1 := (s.onClock vault (if vault then Clocks.nominal.vault else Clocks.nominal.deck)).setSynth k { x with
          st := .run, lock := true, lockStart := none, spread := x.sscMode = 1 ∨ x.sscMode = 2, modAt := s.now }
        if vault then s1.vaultClock false else s1
      else (s.setSynth k { x with lockStart := some s.now }).raise (synSrc k) (if bandFound then 0x01 else 0x03)

/-- Table 4.3: an epoch mark at T_M restarts SWREF and the hops; a released output makes a stored hop. -/
def SynthSt.mark (x : SynthSt) (t : Instant) : SynthSt :=
  match x.hop with
  | some h => { x with hop := some { h with start := t } }
  | none =>
    if x.st = .run ∨ x.st = .ramp then
      let y := x.freeze t
      y.startHop t false y.odiv y.nint y.nfrac (some (if y.rampOn then y.chain.toNat else y.entry.toNat))
    else x

/-- Every sweep synthesizer meets an epoch mark. -/
def State.markSynths (s : State) (t : Instant) : State :=
  let s1 := { s with tb := { s.tb with swref := t } }
  { s1 with synths := Vector.ofFn fun k => if k.val < 8 then (s.synth k).mark t else s.synth k }

/-- DECK and VAULT stop their spread at a loss of reference, and restart it at its upper extreme when the timebase leaves QUALIFY;
meanwhile both loops hold the control value that the timebase's do (R165). -/
def State.spreadDv (s : State) (on : Bool) : State :=
  { s with synths := Vector.ofFn fun k =>
      let x := s.synth k
      if k.val < 8 then x
      else { x with spread := on && x.st = .run && (x.sscMode = 1 ∨ x.sscMode = 2), modAt := if on then s.now else x.modAt } }

/-! ## Configuration (R151, R162, Table 4.3) -/

/-- The forme names a store entry whose word is not zero; VALID itself is zero in a forme (Table 14.6). -/
def namesEntry (w : Word × Word) : Bool := fld w.1 20 11 != 0 || fld w.2 0 24 != 0

/-- A store entry of the image; the results of an unchanged word are kept. -/
def storeFrom (old : StoreEntry) (w : Word × Word) : StoreEntry :=
  let e : StoreEntry :=
    { valid := false, named := namesEntry w, odiv := w.1.extractLsb' 27 4, nint := w.1.extractLsb' 20 7
      band := 0, ctune := 0, nfrac := w.2.extractLsb' 0 24 }
  if old.odiv = e.odiv && old.nint = e.nint && old.nfrac = e.nfrac then
    { e with valid := old.valid, band := old.band, ctune := old.ctune }
  else e

/-- The configuration fields of a sweep synthesizer. -/
def SynthSt.load (x : SynthSt) (c : SweepCfg) : SynthSt :=
  { x with
    cfg := c.cfg, ssc := c.ssc, ramp := c.ramp, segs := c.segs
    store := (List.range 64).map fun i => storeFrom (x.entryAt i) (c.store.getD i (0, 0)) }

/-- The word that the synthesizer goes to: the target of a hop in progress, otherwise the word in force. -/
def SynthSt.target (x : SynthSt) (t : Instant) : BitVec 4 × BitVec 7 × BitVec 24 :=
  match x.hop with
  | some h => (h.odiv, h.nint, h.nfrac)
  | none => (x.odiv, x.forceWord t)

/-- A configuration takes effect: a changed word is a hop, an unchanged one is none (Table 4.3). -/
def SynthSt.configure (x : SynthSt) (c : SweepCfg) (t : Instant) : SynthSt :=
  let y := x.load c
  let odiv : BitVec 4 := c.int.extractLsb' 8 4
  let nint : BitVec 7 := c.int.extractLsb' 0 7
  let nfrac : BitVec 24 := c.frac.extractLsb' 0 24
  if x.target t = (odiv, nint, nfrac) && x.st != .off then y
  else { y with rampOn := false }.hopTo t odiv nint nfrac

/-- A channel of the pier is armed. -/
def State.pierArmed (s : State) (k : Pier) : Bool := allChans.any fun c => pierOf c == k && (s.chan c).armed

/-- A staged configuration of SWk takes effect once no channel of its pier is armed. -/
def State.sweepApply (s : State) (k : Fin 8) : State :=
  let x := s.synth (swOf k)
  match x.staged with
  | some c =>
    if s.pierArmed k then s
    else if s.pierOn k then
      (s.setSynth (swOf k) { x.configure c s.now with staged := none, inForce := s.nvm.powerForme }).rampEvent k 2 s.now
    else s
  | none => s

/-- PD_Pk comes on: the store refills by full searches, with no entry valid before its own, then the first hop follows (R151). -/
def SynthSt.powerOn (x : SynthSt) (c : SweepCfg) (t : Instant) : SynthSt :=
  let y := { x.load c with
    odiv := c.int.extractLsb' 8 4, nint := c.int.extractLsb' 0 7, nfrac := c.frac.extractLsb' 0 24, staged := none
    store := (x.load c).store.map fun (e : StoreEntry) => { e with valid := false }
    refill := (List.range 64).filter fun i => namesEntry (c.store.getD i (0, 0)) }
  y.refillNext t

/-- PD_Pk goes off: the ramp state is lost, the outputs go PARK-LOW and then high-impedance (Table 15.7). -/
def SynthSt.powerOff (x : SynthSt) (out : SwOut) : SynthSt :=
  { x with st := .off, hop := none, out := out, rampOn := false, startDue := none, advance := none, pend := false
           lock := false, spread := false, refill := [], refilling := false, staged := none, tDone := 0 }

/-! ## Registers (Tables 4.5, 4.9, 4.10, 4.12) -/

def SwState.code : SwState → Nat
  | .off => 0 | .hold => 1 | .hop => 2 | .search => 3 | .run => 4 | .ramp => 5 | .fail => 6 | .safe => 7

/-- Lock detect at `t`: of a search or lock in progress from a cycle that is free, after the loop has closed and by the deadline
(Table 4.2, R150, R161; notes/assumptions/66.md). While the reference is lost no lock of DECK or VAULT detects (Table 4.3). -/
def SynthSt.lockSeen (x : SynthSt) (lost : Bool) (t : Instant) : Bool :=
  let by_ := fun (start lo hi unit : Nat) => decide (start + (lo + Config.lockCycle start % (hi - lo + 1)) * unit ≤ t)
  x.lock || (x.hop.any fun h => if h.full then by_ h.start 4160 7936 swUnits else by_ h.start 128 1792 swUnits)
    || (!lost && x.lockStart.any fun e => by_ e 2111 3840 inUnits)

/-- SWP.STAT as it reads at `t`. -/
def SynthSt.stat (x : SynthSt) (lost : Bool) (t : Instant) : Word :=
  pack 32 [(24, x.st.code), (16, x.seg.toNat), (8, x.entry.toNat), bitAt 2 x.pend, bitAt 1 x.spread,
    bitAt 0 (x.lockSeen lost t)]

def SynthSt.evcnt (x : SynthSt) : Word :=
  pack 32 [(24, x.hops.toNat), (16, x.searches.toNat), (8, x.guards.toNat), (0, x.advLost.toNat)]

def StoreEntry.word0 (e : StoreEntry) : Word :=
  pack 32 [bitAt 31 e.valid, (27, e.odiv.toNat), (20, e.nint.toNat), (14, e.band.toNat), (6, e.ctune.toNat)]

/-! ## Meanings -/

def execHop (at_ : Instant) (k : Fin 8) (s : State) : Host.Outcome State Fault Refusal := .next (s.hop at_ k)
def execStoredHopRelease (k : Fin 8) (g : List Instant) (s : State) : Host.Outcome State Fault Refusal :=
  .next (s.storedRelease k g)
def execFullSearchRelease (k : Fin 8) (g : List Instant) (s : State) : Host.Outcome State Fault Refusal :=
  .next (s.fullRelease k g)
def execLockDetectDeadline (k : Fin 8) (b : Bool) (s : State) : Host.Outcome State Fault Refusal :=
  .next (s.lockDeadline k b)
def execUnlock (at_ : Instant) (k : Synth) (s : State) : Host.Outcome State Fault Refusal := .next (s.unlock at_ k)
def execWindowMonitor (at_ : Instant) (k : Fin 8) (n : Nat) (s : State) (g : List Instant := []) :
    Host.Outcome State Fault Refusal := .next (s.windowMonitor at_ k n g)
def execRampStart (k : Fin 8) (s : State) : Host.Outcome State Fault Refusal := .next (s.rampStart k)
def execSegmentEnd (k : Fin 8) (s : State) : Host.Outcome State Fault Refusal := .next (s.segmentEnd k)
def execSynthLock (v l : Bool) (s : State) (b : Bool := true) : Host.Outcome State Fault Refusal := .next (s.synthLock v l b)
def execDeckVaultWindow (at_ : Instant) (v : Bool) (n : Nat) (s : State) : Host.Outcome State Fault Refusal :=
  .next (s.deckVaultWindow at_ v n)

end Sys2Proof.Machine
end

