-- ==== Sys2Proof/Machine/Timebase.lean ====
section
/-! DEFINITION. Timebase, reference and device alignment (03_timebase.md). -/

namespace Sys2Proof.Machine

/-! ## Configuration (Tables 3.1, 3.7, 3.8) -/

/-- A VCO cycle of 5.0 GHz in LSB, and the output stage that divides it by 4 to SPAN (R97). -/
def vcoLsb : Nat := 512
def outDiv : Nat := 4
/-- The feedback divider's N; its fraction F is zero with every reference of Table 3.1. -/
def Timebase.fbN (tb : Timebase) : Nat := [500, 200, 50, 20].getD (fld tb.cfg 0 2) 500
/-- Reference period P in LSB, N cycles of the VCO, and anchor period in LSB. -/
def Timebase.refP (tb : Timebase) : Nat := tb.fbN * vcoLsb
def Timebase.anchorP (tb : Timebase) : Nat := [256000, 102400, 51200, 10240].getD (fld tb.cfg 0 2) 256000
def Timebase.sbyEn (tb : Timebase) : Bool := tb.cfg.getLsbD 12
/-- POLICY: true SLEW, false REANCHOR. -/
def Timebase.slewPolicy (tb : Timebase) : Bool := tb.cfg.getLsbD 8
def Timebase.maxStep (tb : Timebase) : Nat := fld tb.slewCfg 16 16
def Timebase.rate (tb : Timebase) : Nat := fld tb.slewCfg 0 8

/-- Change the timebase. -/
def State.modTb (s : State) (f : Timebase → Timebase) : State := { s with tb := f s.tb }

/-- Both LFSRs load the seed at `t` (R100). -/
def Timebase.seedLfsr (tb : Timebase) (t : Instant) : Timebase :=
  { tb with lfsrA := tb.seed.setWidth 24, lfsrB := tb.seed.setWidth 24, ditherAt := t }

/-- One step of a dither LFSR, x^24 + x^23 + x^22 + x^17 + 1 (R100). -/
def lfsrNext (w : BitVec 24) : BitVec 24 :=
  (w <<< 1) ||| BitVec.ofNat 24 (bit ((w.getLsbD 23 ^^ w.getLsbD 22) ^^ (w.getLsbD 21 ^^ w.getLsbD 16)))

/-- A loop's dither LFSR at `t`: one step in each cycle of its feedback divider since it loaded (notes/assumptions/24.md). -/
def Timebase.lfsrAt (tb : Timebase) (loopB : Bool) (t : Instant) : BitVec 24 :=
  Nat.repeat lfsrNext ((t - tb.ditherAt) / (tb.refP * lsbUnits)) (if loopB then tb.lfsrB else tb.lfsrA)

/-- ±3 ps: the bound of a lock check (Table 3.3, R121). -/
def lockOk (meanErr : Int) : Bool := meanErr.natAbs ≤ 192

/-- A mean rounded to the nearest whole number, halves away from zero (R117). -/
def meanRound (l : List Int) : Int :=
  let n : Int := l.length
  let t := l.foldl (· + ·) 0
  if n = 0 then 0 else if 0 ≤ t then (2 * t + n) / (2 * n) else -((2 * -t + n) / (2 * n))

/-- d_i of an edge with old-scale stamp `x`: (-x) modulo P, in -P/2 exclusive to +P/2 inclusive (R117). -/
def stepOf (p : Nat) (x : Int) : Int :=
  let r := (-x) % (p : Int)
  if 2 * r ≤ p then r else r - p

/-- The whole multiple of P nearest to a stamp (R119). Of two that lie equally near, which the spec does not settle, it is the
higher (DESIGN CHOICE, notes/assumptions/58.md). -/
def nearestP (p : Nat) (x : Int) : Int := (2 * x + p) / (2 * p) * p

/-- Any channel is armed. -/
def State.anyArmed (s : State) : Bool := allChans.any fun c => (s.chan c).armed

/-- A staged change of the timebase takes effect once it is LOCKED and no channel is armed; REF_FREQ and FIRST only at
LOAD (R139). -/
def State.tbApply (s : State) : State :=
  match s.tb.staged with
  | none => s
  | some (cfg, seed, slew) =>
    if s.tb.st = .locked && !s.anyArmed then
      s.modTb fun tb =>
        let c := putFld (putFld cfg 0 2 (fld tb.cfg 0 2)) 4 1 (fld tb.cfg 4 1)
        { tb with cfg := c, seed := seed, slewCfg := slew, staged := none, sbyOk := tb.sbyOk && c.getLsbD 12 }
    else s

/-! ## REFIN edges on the scale (R102, R104, R113, R125, R675) -/

/-- Units of the time axis in 2 P. -/
def Timebase.twoP (tb : Timebase) : Nat := 2 * tb.refP * lsbUnits

/-- The offset still to slew at instant `t` (TBS.SLEW_REM). -/
def Timebase.slewLeft (tb : Timebase) (t : Instant) : Int :=
  if tb.st = .slew then
    let done := (t - tb.slewStart) * tb.rate / 100000000000
    if 0 ≤ tb.slewRem then max 0 (tb.slewRem - done) else min 0 (tb.slewRem + done)
  else 0

/-- How far `t` lies from the nearest instant whose stamp, with what is left to slew, is a whole multiple of `m` LSB, in units
of the time axis. -/
def State.gridErr (s : State) (m : Nat) (t : Instant) : Int :=
  let p : Int := (m * lsbUnits : Nat)
  let r := ((t : Int) + (s.tb.scale + s.tb.slewLeft t) * (lsbUnits : Nat)) % p
  if 2 * r ≤ p then r else r - p

/-- The deviation that REFIN edges may show: 3 ps (R102), more for 1 ms after a phase change that the loop follows (R675),
200 ps while the loop moves to a new scale (R113). -/
def Timebase.refTol (tb : Timebase) (t : Instant) : Nat :=
  if tb.st = .settle then 12800
  else match tb.jump with
    | some (t0, d) => if t < t0 + 64000000000 then d.natAbs + 192 else 192
    | none => 192

/-- The loops follow the reference: a loss can be declared (Table 3.3). -/
def Timebase.engaged (tb : Timebase) : Bool := tb.st == .locked || tb.st == .slew || tb.st == .settle

/-- `t` is the first REFIN rising edge, of those that lie `m` LSB apart, from `from_` on: with the loops engaged it lies on
the grid of `m` and the one before it may lie before `from_`; otherwise the command alone says where REFIN edges fall (DEDUCED,
notes/assumptions/61.md). -/
def State.firstEdge (s : State) (m : Nat) (from_ t : Instant) : Bool :=
  let e := s.gridErr m t
  let tol := s.tb.refTol t
  from_ ≤ t && (!s.tb.engaged || (e.natAbs ≤ tol && (t : Int) - e - (m * lsbUnits : Nat) - tol < from_))

/-- The last REFIN rising edge up to now, the loops being engaged. -/
def State.lastEdge (s : State) : Instant :=
  let p : Int := (s.tb.refP * lsbUnits : Nat)
  ((s.now : Int) - ((s.now : Int) + (s.tb.scale + s.tb.slewLeft s.now) * (lsbUnits : Nat)) % p).toNat

/-! ## Discontinuity records (R128) -/

/-- The channel was armed at an instant before `t` and not disarmed before it. -/
def Channel.armedThrough (x : Channel) (t : Instant) : Bool :=
  x.armAt < t && (x.armed || match x.lastDisarm with | some d => t ≤ d | none => false)

/-- Insert a record into the stream of every channel it concerns. -/
def State.insertAll (s : State) (t : Instant) (r : Insert) : State :=
  s.forChans (allChans.filter fun c => s.chOn c && (s.chan c).armedThrough t) fun c =>
    State.modChan (c := c) (f := fun x => { x with merge := { x.merge with ins := x.merge.ins ++ [r] } })

/-- A loss, a discontinuity or an epoch mark fails every trim that is in its deskew phase with TIMEBASE (Table 13.7). -/
def State.trimTimebase (s : State) : State :=
  s.forChans (allChans.filter fun c =>
      let t := (s.chan c).trim
      t.running && t.pendDeskew && t.failReason == 0 && t.w0 + 1875000 * scUnits ≤ s.now) fun c =>
    State.modChan (c := c) (f := fun x => { x with trim := { x.trim with failReason := 8 } })

/-- Codes of Table 3.2. -/
def TbState.code : TbState → BitVec 4
  | .off => 0 | .acquire => 1 | .locked => 2 | .coast => 3 | .qualify => 4 | .settle => 5 | .slew => 6

/-- The fault cause of a loop on source 153 (Table 3.5). -/
def loopFaultBit (loopB : Bool) : Byte := if loopB then 0x04 else 0x02

/-! ## Acquisition (Table 3.3) -/

/-- LOAD starts the timebase (CLOCKS): the first loop is FIRST, the LFSRs load at the start of acquisition. -/
def State.startAcquire (s : State) : State :=
  s.modTb fun tb => { tb.seedLfsr s.now with
    st := .acquire, since := s.now, settling := false, active := tb.cfg.getLsbD 4, refok := true }

/-- Acquisition starts again with a new qualification. -/
def State.restartAcquire (s : State) : State :=
  s.modTb fun tb => { tb.seedLfsr s.now with since := s.now, settling := false }

/-- ACQUIRE_QUALIFIED: REFIN, which is present, has been qualified for 250,000 mc, and the settle starts. -/
def State.acquireQualified (s : State) : State :=
  if s.tb.st = .acquire && !s.tb.settling && s.tb.refok then
    let s := s.at_ (s.tb.since + 250000 * s.clocks.mgmt.period)
    s.modTb fun tb => { tb with settling := true, since := s.now }
  else s

/-- LOCK_CHECK at the end of the 12,500 mc settle. At the end of acquisition the coarse count is zero at the first
anchor edge, `anchor` (R103). -/
def State.lockCheck (s : State) (meanErr : Int) (anchor : Instant) : State :=
  if s.tb.st = .acquire && s.tb.settling then
    let s := s.at_ (s.tb.since + 12500 * s.clocks.mgmt.period)
    if lockOk meanErr then
      (s.modTb fun tb =>
        { tb with st := .locked, settling := false, scale := -(lsbOf (max s.now anchor) : Int) }).tbApply
    else s.restartAcquire.raise 153 0x01
  else s

/-- Locks of DECK and VAULT in progress start again: their 5 MHz input comes from REFIN (the example under R499). -/
def State.locksRestart (s : State) : State :=
  { s with synths := s.synths.map fun x => { x with lockStart := x.lockStart.map fun _ => s.now } }

/-- REFIN_LOSS_IN_ACQUIRE: REFIN absent (LOSS) or outside ±100 ppm (FREQ); acquisition restarts. -/
def State.refinLossInAcquire (s : State) (t0 : Instant) (absent : Bool) : State :=
  let s := s.at_ t0
  if s.tb.st = .acquire then
    ((if absent then s.locksRestart else s).restartAcquire.modTb fun tb => { tb with refok := !absent }).raise 152
      (if absent then 0x01 else 0x04)
  else s

/-! ## Loss, qualification, return -/

/-- Enter COAST at T_C = now with a declared loss (R113, R114): both loops hold the control value of 16 P before, less what
the slew added; the slew's remaining offset and a settle window are dropped; DECK and VAULT stop their spread (R165). `last` is
the last REFIN rising edge. -/
def State.declareLoss (s : State) (last : Instant) : State :=
  (s.trimTimebase.spreadDv false).modTb fun tb =>
    { tb with st := .coast, losses := satAdd tb.losses 1, slewRem := 0, offset := s.offsetAt s.now, glide := none
              measured := none, tdFrom := none, refok := false, lastRef := some last, jump := none
              frozen := some (s.now - 8 * tb.twoP) }

/-- The phase error of a REFIN rising edge exceeds ±200 ps (R113). -/
def State.phaseBad (s : State) (t : Instant) : Bool := 12800 < (s.gridErr s.tb.refP t).natAbs

/-- The active loop follows a phase change that declares no loss: the first of the edges that lies outside 3 ps starts the
millisecond in which the deviation decays (R675). -/
def State.follow (s : State) (edges : List Instant) : State :=
  match edges.find? fun t => 192 < (s.gridErr s.tb.refP t).natAbs with
  | some t => s.modTb fun tb => { tb with jump := some (t, s.gridErr s.tb.refP t) }
  | none => s

/-- LOSS_OF_REFERENCE: `edges` are the last REFIN rising edges. T_C is the first SPAN edge at which none has arrived for 2 P
since the last of them, or at which the phase error of 4 consecutive ones has exceeded ±200 ps (R113); a phase change that meets
neither declares nothing (R675). -/
def State.lossOfReference (s : State) (byPhase : Bool) (edges : List Instant) : State :=
  match edges.getLast? with
  | none => s
  | some last =>
    if !s.tb.engaged then s
    else if !byPhase then ((s.at_ (s.span.next (last + s.tb.twoP))).declareLoss last).raise 152 0x01
    else if 4 ≤ edges.length && (edges.drop (edges.length - 4)).all s.phaseBad then
      ((s.at_ (s.span.next last)).declareLoss last).raise 152 0x02
    else (s.at_ last).follow edges

/-- QUALIFY_START: the first REFIN rising edge after the loss. In ACQUIRE it is REFIN's return, and the qualification of R112
runs from it. -/
def State.qualifyStart (s : State) (t0 : Instant) : State :=
  let s := s.at_ t0
  if s.tb.st = .coast then
    s.modTb fun tb => { tb with st := .qualify, since := s.now, subDone := 0, refok := true, measured := none
                                tdFrom := none }
  else if s.tb.st = .acquire && !s.tb.refok then s.restartAcquire.modTb fun tb => { tb with refok := true }
  else s

/-- SUB_WINDOW: the next 100 µs sub-window of qualification ends (R116). `freqPpb` is the REFIN frequency error in 10^-9,
`phaseShift` the change of its mean phase in units of the time axis, `edges` the old-scale stamps of the last 256 REFIN
edges, `nextEdge` the next REFIN rising edge. A failed check restarts qualification there; after ten, STEP is measured over
the 256 edges (R117) and T_D falls at least 4,096 sc after the last of them (R118). -/
def State.subWindow (s : State) (freqPpb phaseShift : Int) (edges : List Int) (nextEdge : Instant) : State :=
  if s.tb.st = .qualify && s.tb.measured.isNone then
    let n := s.tb.subDone
    let s := s.at_ (s.tb.since + (n + 1) * 125000 * scUnits)
    if freqPpb.natAbs ≤ 10000 && (n == 0 || phaseShift.natAbs ≤ 64000) then
      if n + 1 < 10 then s.modTb fun tb => { tb with subDone := n + 1 }
      else if edges.length ≠ 256 then s
      else
        let step := meanRound (edges.map (stepOf s.tb.refP))
        let s1 := s.modTb fun tb =>
          { tb with subDone := n + 1, measured := some step, step := BitVec.ofInt 32 step
                    tdFrom := some ((edges.getLastD 0 - tb.scale).toNat * lsbUnits + 4096 * scUnits) }
        if s.tb.slewPolicy && s.tb.maxStep < step.natAbs then s1.raise 153 0x20 else s1
    else (s.modTb fun tb => { tb with since := max s.now nextEdge, subDone := 0 }).raise 152 0x08
  else s

/-- MISSING_EDGE: the first SPAN edge at which no REFIN rising edge has arrived for 2 P since `last`, during QUALIFY. -/
def State.missingEdge (s : State) (last : Instant) : State :=
  if s.tb.st = .qualify then
    (s.at_ (s.span.next (last + s.tb.twoP))).modTb fun tb =>
      { tb with st := .coast, refok := false, lastRef := some last, measured := none, tdFrom := none, subDone := 0 }
  else s

/-- SLEW applies to a measured STEP (R123). -/
def Timebase.slewApplies (tb : Timebase) (step : Int) : Bool := tb.slewPolicy && step.natAbs ≤ tb.maxStep

/-- `s.now` is T_D: the first REFIN rising edge from `from_` on whose new-scale stamp is a whole multiple of the anchor period.
An earlier one lies an anchor period before it, within the 1 ns that qualification allows the phase (R118). -/
def State.isTd (s : State) (step : Int) (from_ : Instant) : Bool :=
  from_ ≤ s.now && nearestP s.tb.refP (s.stamp s.now + step) % s.tb.anchorP == 0
    && s.now < from_ + s.tb.anchorP * lsbUnits + 64000

/-- SLEW_START at T_D = `t0` (R122): the remaining offset starts at STEP; no record is issued. -/
def State.slewBegin (s : State) (t0 : Instant) : State :=
  let s := s.at_ t0
  match s.tb.measured, s.tb.tdFrom with
  | some step, some from_ =>
    if s.tb.st = .qualify && s.isTd step from_ && s.tb.slewApplies step then
      (s.spreadDv true).modTb fun tb =>
        { tb with st := .slew, slewRem := step, slewStart := s.now, frozen := none
                  glide := if tb.offset = 0 then none else some s.now, measured := none, tdFrom := none }
    else s
  | _, _ => s

/-- Units of the time axis that a slew of `n` LSB lasts at RATE x 0.25 ps/ms (R122). -/
def slewTime (n rate : Nat) : Nat := n * 100000000000 / rate

/-- SLEW_END: the remaining offset reaches zero. -/
def State.slewEnd (s : State) : State :=
  if s.tb.st = .slew then
    let s := s.at_ (s.tb.slewStart + slewTime s.tb.slewRem.natAbs s.tb.rate)
    (s.modTb fun tb => { tb with st := .locked, slewRem := 0 }).tbApply
  else s

/-- SETTLE_WINDOW_END: the lock check of a 62,500 sc window (R121). On a failure a usable standby loop takes over. -/
def State.settleWindowEnd (s : State) (meanErr : Int) : State :=
  if s.tb.st = .settle then
    let s := s.at_ (s.tb.since + 62500 * scUnits)
    if lockOk meanErr then (s.modTb fun tb => { tb with st := .locked, offset := 0, glide := none }).tbApply
    else
      (s.modTb fun tb =>
        { tb.seedLfsr s.now with
          since := s.now, switchDue := if tb.sbyOk then some (tb.active, s.now) else tb.switchDue }).raise 153 0x01
  else s

/-! ## Loops (R125 to R127) -/

/-- The active loop fails: the usable standby loop takes over at T_S; with none, the failure is a loss of reference. -/
def State.activeFault (s : State) : State :=
  if s.tb.st = .off then s
  else if s.tb.sbyOk then s.modTb fun tb => { tb with switchDue := tb.switchDue <|> some (tb.active, s.now) }
  else if s.tb.engaged then (s.declareLoss s.lastEdge).raise 153 (loopFaultBit s.tb.active)
  else s.raise 153 (loopFaultBit s.tb.active)

/-- The standby loop fails (Table 3.4). -/
def State.standbyFault (s : State) : State :=
  if s.tb.sbyEn then (s.modTb fun tb => { tb with sbyOk := false }).raise 153 (loopFaultBit !s.tb.active) else s

/-- TBS.AB_DIFF for a comparator that stands at `d` LSB: 16 bits, saturating at ±32,767 (Table 3.6). -/
def abField (d : Int) : BitVec 16 := BitVec.ofInt 16 (max (-32767) (min d 32767))

/-- STANDBY_LOCK: a re-acquiring loop passes its lock check and becomes the usable standby loop; `ab` is what the A/B comparator
then shows. While the loops are frozen (R114) none re-acquires. -/
def State.standbyLock (s : State) (t0 : Instant) (ab : Int) : State :=
  let s := s.at_ t0
  if s.tb.sbyEn && s.tb.st != .off && s.tb.st != .coast && s.tb.st != .qualify then
    s.modTb fun tb => { tb with sbyOk := true, abDiff := abField ab }
  else s

/-! ## Registers (Tables 3.9, 3.10) -/

/-- REFOK at `t`: a REFIN rising edge has arrived within the last 2 P; while the loops are engaged, 4 edges outside ±200 ps
have declared a loss (R113, R137). -/
def Timebase.refokAt (tb : Timebase) (t : Instant) : Bool := tb.refok || tb.lastRef.any fun l => t ≤ l + tb.twoP

/-- TBS.STAT as it reads at `t`. -/
def Timebase.stat (tb : Timebase) (t : Instant) : Word :=
  pack 32 [(24, tb.st.code.toNat), bitAt 16 tb.marked, bitAt 8 (tb.refokAt t), bitAt 4 (tb.sbyEn && tb.sbyOk), bitAt 0 tb.active]

/-- TBS.EVCNT. -/
def Timebase.evcnt (tb : Timebase) : Word :=
  pack 32 [(24, tb.marks.toNat), (16, tb.switches.toNat), (8, tb.reanchors.toNat), (0, tb.losses.toNat)]

/-! ## Meanings -/

def execAcquireQualified (s : State) : Host.Outcome State Fault Refusal := .next s.acquireQualified
def execLockCheck (e : Int) (anchor : Instant) (s : State) : Host.Outcome State Fault Refusal :=
  .next (s.lockCheck e anchor)
def execLossOfReference (p : Bool) (e : List Instant) (s : State) : Host.Outcome State Fault Refusal :=
  .next (s.lossOfReference p e)
def execQualifyStart (at_ : Instant) (s : State) : Host.Outcome State Fault Refusal := .next (s.qualifyStart at_)
def execSubWindow (f p : Int) (e : List Int) (n : Instant) (s : State) : Host.Outcome State Fault Refusal :=
  .next (s.subWindow f p e n)
def execMissingEdge (last : Instant) (s : State) : Host.Outcome State Fault Refusal := .next (s.missingEdge last)
def execSlewStart (at_ : Instant) (s : State) : Host.Outcome State Fault Refusal := .next (s.slewBegin at_)
def execSettleWindowEnd (e : Int) (s : State) : Host.Outcome State Fault Refusal := .next (s.settleWindowEnd e)
def execSlewEnd (s : State) : Host.Outcome State Fault Refusal := .next s.slewEnd
def execLoopFault (at_ : Instant) (s : State) : Host.Outcome State Fault Refusal := .next (s.at_ at_).activeFault
def execStandbyLock (at_ : Instant) (s : State) (ab : Int := 0) : Host.Outcome State Fault Refusal :=
  .next (s.standbyLock at_ ab)
def execStandbyLoopFault (at_ : Instant) (s : State) : Host.Outcome State Fault Refusal :=
  .next (s.at_ at_).standbyFault
def execRefinLossInAcquire (at_ : Instant) (a : Bool) (s : State) : Host.Outcome State Fault Refusal :=
  .next (s.refinLossInAcquire at_ a)

end Sys2Proof.Machine
end

