-- ==== Sys2Proof/Machine/Capture.lean ====
section
/-! DEFINITION. Records of a channel (08_trigger_and_galley.md, 09_records_and_readout.md): opening, closing, the record
boundary and what takes effect there, arm and disarm. -/

namespace Sys2Proof.Machine

/-! ## Flags of Table 9.9 -/

def flagTrig : Word := 0x1
def flagStop : Word := 0x2
def flagTrunc : Word := 0x4
def flagCloseTo : Word := 0x400
def flagDisarm : Word := 0x800
def flagFault : Word := 0x1000
def flagPdoff : Word := 0x2000
def flagStale : Word := 0x40000
def flagHeld : Word := 0x80000

/-! ## Folios (Table 8.2, R304 to R306) -/

/-- A free folio entry: all zero. -/
def Folio.free : Folio :=
  { ttime := 0, addr := 0, ch := 0, seg := false, trig := false, stop := false, trunc := false, ovf := false, st := 0, recNo := 0 }

def State.folio (s : State) (i : Nat) : Folio := sget Folio.free s.folios i
def State.setFolio (s : State) (i : Nat) (f : Folio) : State := { s with folios := sset Folio.free s.folios i f }
def State.modFolio (s : State) (i : Nat) (f : Folio → Folio) : State := s.setFolio i (f (s.folio i))

/-- The entry as 128 bits. -/
def Folio.word (f : Folio) : Qword :=
  pack 128 [(64, f.ttime.toNat), (34, f.addr.toNat), (27, f.ch.toNat), bitAt 26 f.seg, bitAt 25 f.trig, bitAt 24 f.stop,
    bitAt 23 f.trunc, bitAt 22 f.ovf, (20, f.st.toNat), (0, f.recNo.toNat)]

/-- The channel's range, and the lowest free folio of it (R304). -/
def folioBase (g : ChanCfg) : Nat := fld g.folio 0 16
def folioCount (g : ChanCfg) : Nat := fld g.folio 16 16 + 1
def State.freeFolio (s : State) (g : ChanCfg) : Nat :=
  ((List.range (min (folioCount g) (s.folios.length + 1))).map (folioBase g + ·)).find? (fun i => (s.folio i).st == 0)
    |>.getD (folioBase g)

/-! ## Places (R288, R289, R299, R316) -/

def sheetWords : Nat := 65536
def circBase (g : ChanCfg) : Nat := fld g.circ 0 14
def circSheets (g : ChanCfg) : Nat := fld g.circ 16 15
def segOn (g : ChanCfg) : Bool := g.seg.getLsbD 31
def segBase (g : ChanCfg) : Nat := fld g.seg 0 14
def segSheets (g : ChanCfg) : Nat := fld g.seg 16 15
def segLog (g : ChanCfg) : Nat := fld g.segFmt 16 5
def segSlots (g : ChanCfg) : Nat := if segOn g then segSheets g * 2 ^ (16 - segLog g) else 0

/-- Ring length of the circular region. -/
def circRing (g : ChanCfg) : Nat := circSheets g * sheetWords - 8
def segRing (g : ChanCfg) : Nat := 2 ^ segLog g - 8

/-- POST of GAL.POST, and the effective counts (R293, R303). -/
def postOf (g : ChanCfg) : Nat := fld g.post 0 30
def circPost (g : ChanCfg) : Nat := min (postOf g) (circRing g - 1)
def segPost (g : ChanCfg) : Nat := min (fld g.segFmt 0 16) (segRing g - 1)

/-- A closed record occupies some word of [lo, lo + n). -/
def Closed.overlaps (r : Closed) (lo n : Nat) : Bool := r.base < lo + n && lo < r.base + r.r + 8

/-- Records of the channel that await readout (R298). -/
def State.closedOf (s : State) (c : Chan) : List Closed := s.closed.filter fun r => r.ch == c

/-- The circular region holds no record that awaits readout. -/
def State.circFree (s : State) (c : Chan) (g : ChanCfg) : Bool :=
  !(s.closedOf c).any fun r => r.overlaps (circBase g * sheetWords) (circSheets g * sheetWords)

/-- Base of a slot, and whether it is free. -/
def slotBase (g : ChanCfg) (j : Nat) : Nat := segBase g * sheetWords + j * 2 ^ segLog g
def State.slotFree (s : State) (c : Chan) (g : ChanCfg) (j : Nat) : Bool :=
  !(s.closedOf c).any fun r => r.overlaps (slotBase g j) (2 ^ segLog g)

/-- A place for a record: segment or not, slot, base address, ring length, effective post count. -/
structure RecPlace where
  isSeg : Bool
  slot : Nat
  base : Nat
  r : Nat
  p : Nat
deriving DecidableEq, Repr

/-- The first place that R299 allows; `taken` is a record that is counted as awaiting readout though it is open. -/
def State.placeFor (s : State) (c : Chan) (g : ChanCfg) (taken : Option (Nat × Nat)) : Option RecPlace :=
  let hits := fun (lo n : Nat) => match taken with
    | some (b, r) => b < lo + n && lo < b + r + 8
    | none => false
  if s.circFree c g && !hits (circBase g * sheetWords) (circSheets g * sheetWords) then
    some { isSeg := false, slot := 0, base := circBase g * sheetWords, r := circRing g, p := circPost g }
  else
    ((List.range (min (segSlots g) ((s.closedOf c).length + 2))).find? fun j =>
        s.slotFree c g j && !hits (slotBase g j) (2 ^ segLog g)).map fun j =>
      { isSeg := true, slot := j, base := slotBase g j, r := segRing g, p := segPost g }

/-- A record that awaits readout lies in the new places or folio range (R316). -/
def State.clash (s : State) (c : Chan) (g : ChanCfg) : Bool :=
  (s.closedOf c).any fun r =>
    let lo := r.base / sheetWords
    let hi := (r.base + r.r + 7) / sheetWords
    let hit := fun (b n : Nat) => lo < b + n && b ≤ hi
    hit (circBase g) (circSheets g) || (segOn g && hit (segBase g) (segSheets g))
      || (folioBase g ≤ r.folio && r.folio < folioBase g + folioCount g)

/-! ## Placement (R351 to R353) -/

/-- Entry step × 96 + channel of the table in force: BOUND and SITE. -/
def State.plcEntry (s : State) (step c : Nat) : Word := sget 0 s.place.table (step * 96 + c)
def plcBound (w : Word) : Bool := w.getLsbD 31
def plcSite (w : Word) : BitVec 12 := w.extractLsb' 0 12
def State.bound (s : State) (c : Chan) : Bool := plcBound (s.plcEntry s.place.step.toNat c.val)

/-- The channel's placement. -/
def State.placement (s : State) (c : Chan) : Placement :=
  let w := s.plcEntry s.place.step.toNat c.val
  { site := if plcBound w then plcSite w else 0, step := s.place.step, epoch := s.place.epoch }

/-! ## Trim in force (R462 to R466) -/

/-- The band of the channel's pier. -/
def State.bandOf (s : State) (c : Chan) : BitVec 2 := (s.thm.piers[pierOf c]).band

def Trim.table (t : Trim) (b : Nat) : TrimTable := t.store.getD b TrimTable.blank

/-- The trim in force is stale. -/
def Trim.stale (t : Trim) : Bool := t.notrim || t.bandst || t.supply

/-- A deskew value clamped to ±5,243 LSB (R63): value, clamped. -/
def clampDeskew (d : BitVec 14) : BitVec 14 × Bool :=
  if d.toInt < -5243 then (BitVec.ofInt 14 (-5243), true)
  else if 5243 < d.toInt then (BitVec.ofInt 14 5243, true) else (d, false)

/-- The deskew that is to be in force for a lane (R462). -/
def Channel.wantDeskew (x : Channel) (l : Bool) : BitVec 14 × Bool :=
  match x.trim.inForce with
  | some b =>
    let t := x.trim.table b
    if t.dv then clampDeskew (if l then t.deskewL else t.deskewH) else clampDeskew (if l then x.cfg.deskewL else x.cfg.deskewH)
  | none => clampDeskew (if l then x.cfg.deskewL else x.cfg.deskewH)

/-- A deskew change takes effect under the next generation, unless an entry of that generation is in the FIFO (R64). -/
def Lane.setDeskew (ln : Lane) (d : BitVec 14 × Bool) : Lane :=
  if ln.deskew = d.1 then { ln with dskc := d.2 }
  else
    let g := ln.dgen + 1
    if ln.fifo.any (·.e.dgen == g) || ln.reserved.any (·.2.dgen == g) then ln
    else { ln with dgen := g, deskew := d.1, dskc := d.2, genDeskew := setAt ln.genDeskew g.toNat d.1 }

/-- The table of band `b` comes into force: LEAD bits, and the reasons it ends (R451, Table 13.5). -/
def Channel.tableIn (x : Channel) (b : Nat) (cur : Nat) : Channel :=
  let t := x.trim.table b
  let x1 := { x with
    trim := { x.trim with inForce := some b, notrim := false, bandst := if b = cur then false else x.trim.bandst }
    laneH := { x.laneH with lead := t.leadH }, laneL := { x.laneL with lead := t.leadL } }
  { x1 with cfg := { x1.cfg with lnXchkH := putFld x1.cfg.lnXchkH 7 1 (bit t.leadH)
                                 lnXchkL := putFld x1.cfg.lnXchkL 7 1 (bit t.leadL) } }

/-- A staged switch of the band's table takes effect (R464); what the merge holds for the next record is corrected too
(R64). -/
def Channel.applyTrim (x : Channel) (band : Nat) : Channel :=
  let x1 := if x.trim.staged then
      let y := { x with trim := { x.trim with staged := false } }
      if (x.trim.table band).cv then y.tableIn band band else y
    else x
  let x2 := { x1 with
    laneH := x1.laneH.setDeskew (x1.wantDeskew false), laneL := x1.laneL.setDeskew (x1.wantDeskew true) }
  let item := fun (it : Item) => match it with
    | .entry e => Item.entry (if e.ptnr then e else (x2.lane e.lane).correct e)
    | .ins r => .ins r
  { x2 with merge := { x2.merge with
      reorder := x2.merge.reorder.foldl (fun l r => insertItem (item r.1, r.2) l) [], taken := x2.merge.taken.map item } }

/-! ## Formes (R500 to R502, Table 14.10) -/

/-- Program of a channel that holds nothing: EN = 0 and no image. -/
def Program.none : Program :=
  { engCtl := 0, evqCfg := 0, emitCfg := 0, library := false, imem := [], dmem := [] }

def State.programFor (s : State) (x : Channel) : Program := (x.program.bind s.programOf).getD Program.none

/-- The fields whose change restarts the merge's states (R326): lane and folder fields. -/
def streamFields (g : ChanCfg) : List Word := [g.lnCfgH, g.lnCfgL, g.lnXchkH, g.lnXchkL, g.ptnr, g.fldCfg]

/-- The configuration of a forme's block, with the places kept and LEAD as trim set it. -/
def takeForme (old new : ChanCfg) : ChanCfg :=
  { new with
    circ := old.circ, seg := old.seg, segFmt := old.segFmt, folio := old.folio
    lnXchkH := putFld new.lnXchkH 7 1 (fld old.lnXchkH 7 1), lnXchkL := putFld new.lnXchkL 7 1 (fld old.lnXchkL 7 1) }

/-- The merge meets a change of the channel's lane or folder fields. -/
def Channel.remerge (x : Channel) (old : ChanCfg) : Channel :=
  if streamFields x.cfg = streamFields old then x else { x with merge := x.restartMerge }

/-- The lanes meet a change of LN_CFG. -/
def Channel.redecimate (x : Channel) (old : ChanCfg) : Channel :=
  { x with
    laneH := if x.cfg.lnCfgH = old.lnCfgH then x.laneH else x.laneH.redecimate x.cfg.lnCfgH
    laneL := if x.cfg.lnCfgL = old.lnCfgL then x.laneL else x.laneL.redecimate x.cfg.lnCfgL }

/-- A change of the partner subscription (R95): entries of the old partner lane are freed for this channel. Of the new one
it reads those whose deskewed instant is at or after the closing time `t`, the ones that their own channel has read
already among them; at an idle point those converted from `t` on. -/
def State.rePartner (s : State) (c : Chan) (old : Option LaneIx) (t : Int) (idle : Bool) : State :=
  let new := (s.chan c).partner c
  if old = new then s
  else
    let mod := fun (i : LaneIx) (f : FifoEntry → FifoEntry) (z : State) =>
      let keep := z.awaited i
      z.modChan (laneChan i) fun x => x.setLane (laneIsL i) ((x.lane (laneIsL i)).release keep f)
    let mine := fun (f : FifoEntry) => if idle then t ≤ (f.e.conv : Int) else t ≤ f.e.abs
    let own := fun (it : Item) => match it with | .entry e => !e.ptnr | .ins _ => true
    let (taken, late) := match new with
      | some i => ((s.laneAt i).past.filter mine).partition fun (f : FifoEntry) => s.readable i f.wr + 97 ≤ s.dc s.now
      | none => ([], [])
    let dress := fun (f : FifoEntry) => match new with | some i => Item.entry (s.dress i true f.e) | none => .entry f.e
    let s0 := s.modChan c fun x => { x with
      merge := { x.merge with
        reorder := x.merge.reorder.filter fun r => own r.1
        taken := taken.foldl (fun l f => insertTaken (dress f) l) (x.merge.taken.filter own), late := late } }
    let s1 := match old with
      | some i => mod i (·.drop c true) s0
      | none => s0
    match new with
    | some i => mod i (fun f => if mine f then { f with subs := f.subs ++ [c] } else f) s1
    | none => s1

/-- The staged forme of a channel takes effect; `t` is the closing time on the axis, or at an idle point the present
instant. The second result says that the engine's images change (R206). The spec does not say which edge of a lane is the
first under a new LN_CFG or LN_XCHK at a boundary: it is the first after the boundary's DECK edge, and what was converted
under the old fields keeps its stamp in the new record (DESIGN CHOICE, notes/assumptions/55.md). Of a PROGRAM section the
images and ENG_CTL count as the engine's program, EVQ_CFG and EMIT_CFG as folder fields (DESIGN CHOICE,
notes/assumptions/56.md). -/
def State.applyForme (s : State) (c : Chan) (t : Int) (idle : Bool) : State × Bool :=
  let x := s.chan c
  match x.stagedForme with
  | none => (s, false)
  | some f =>
    match (s.formeOf f).bind (formeChan · c) with
    | none => (s.setChan c { x with stagedForme := none, forme := some f, program := none }, false)
    | some b =>
      let p := (s.programOf b.program).getD Program.none
      let was := s.programFor x
      let y := { x with
        cfg := takeForme x.cfg b.cfg, forme := some f, program := some b.program, stagedForme := none
        stagedGalley := some b.cfg, stagedPost := if x.postLate then x.stagedPost else none, postLate := false
        engCtl := p.engCtl, evqCfg := p.evqCfg, emitCfg := p.emitCfg }
      ((s.setChan c ((y.remerge x.cfg).redecimate x.cfg)).rePartner c (x.partner c) t idle,
        was.imem != p.imem || was.dmem != p.dmem || was.engCtl != p.engCtl)

/-- Staged places take effect where no record that awaits readout lies in them (R316). -/
def State.applyPlaces (s : State) (c : Chan) : State :=
  let x := s.chan c
  match x.stagedGalley with
  | none => s
  | some g =>
    if s.clash c g then s
    else s.setChan c { x with stagedGalley := none
                              cfg := { x.cfg with circ := g.circ, seg := g.seg, segFmt := g.segFmt, folio := g.folio } }

/-- A staged SET_POST takes effect. -/
def Channel.applyPost (x : Channel) : Channel :=
  match x.stagedPost with
  | some n => { x with cfg := { x.cfg with post := n.setWidth 32 }, stagedPost := none, postLate := false }
  | none => x

/-- Everything staged for a channel takes effect (R29, R32, R34). -/
def State.applyStaged (s : State) (c : Chan) (t : Int) (idle : Bool) : State × Bool :=
  let (s1, prog) := s.applyForme c t idle
  let s2 := s1.applyPlaces c
  (s2.modChan c fun x => x.applyPost.applyTrim (s2.bandOf c).toNat, prog)

/-- Every channel runs under the target: the switch is done (R500 step 6). -/
def State.formeDone (s : State) : State :=
  if s.nvm.runPhase = 2 && !(allChans.any fun c => (s.chan c).stagedForme.isSome) then
    { s with nvm := { s.nvm with runPhase := 0, stagedForme := none } }.raiseM 221 0x10
  else s

/-! ## Engine images (R193, R206) -/

/-- mc that a reload takes, and the wait of a re-arm. -/
def reloadMc : Nat := 2048
def rearmMc : Nat := 6144

/-- The management core starts a reload at `t`. -/
def State.startReload (s : State) (c : Chan) (t : Instant) : State :=
  s.modChan c fun x => x.modEng fun e => { e with reloadDue := some (s.mcAt (s.mc t + reloadMc)) }

/-- IMEM and DMEM take the forme's sections; words beyond them are zero (R241). -/
def Engine.load (e : Engine) (p : Program) (en : Bool) : Engine :=
  { e with
    imem := ssets 0 [] 0 p.imem, dmem := ssets 0 [] 0 p.dmem, imemErr := [], dmemErr := [], reloadDue := none, fresh := false, lib := none
    st := if en then (if e.st = .fault ∨ e.st = .halt then e.st else .ready) else .off }

/-- The DECK edge at which the engine starts for an arm at `t`, once its reload has completed (R193). -/
def State.startAt (s : State) (x : Channel) (t : Instant) : Instant :=
  let a := s.clocks.deck.cross win250 2 t
  match x.eng.reloadDue with
  | some r => max a (s.clocks.deck.next (r + 1))
  | none => a

/-! ## Opening a record (R299, R304) -/

/-- Empty trigger state of a record with arm point `a` (R274). Conditions still to be acted on are kept, on the new
record's scale. -/
def Trigger.open_ (t : Trigger) (o a shift : Int) : Trigger :=
  { t with
    st := if o < a then .holdoff else .armed, a := a, sums := List.replicate 8 0, cause := 0, final := false
    declTime := 0, declDc := 0, pend := t.pend.map fun c => { c with time := c.time + shift } }

/-- Open a record at dc `n` in a place, with open time `o`, scale `base`, placement `pl` and arm point `a`. -/
def State.openRecord (s : State) (c : Chan) (n : Nat) (o base a shift : Int) (pl : Placement) (p : RecPlace) : State :=
  let x := s.chan c
  let fo := s.freeFolio x.cfg
  let no := x.recCount
  let table := x.trim.inForce.map fun b => x.trim.table b
  let r : Rec := { Rec.reset with
    isOpen := true, isSeg := p.isSeg, slot := p.slot, base := p.base, r := p.r, p := p.p, folio := fo, recNo := no, o := o
    oAbs := o - base, plOpen := pl, flags := if x.trim.stale then flagStale else 0
    forme := BitVec.ofNat 6 (x.forme.getD 0), trimGen := match table with | some t => t.gen | none => 0
    band := BitVec.ofNat 2 (x.trim.inForce.getD 0) }
  let y := { x with rcd := r, recCount := no + 1, trg := x.trg.open_ o a shift, held := false }
  (s.setChan c (y.openUnits n o base no (x.forme.getD 0))).setFolio fo
    { ttime := BitVec.allOnes 64, addr := BitVec.ofNat 30 p.base, ch := BitVec.ofNat 7 c.val, seg := p.isSeg, trig := false
      stop := false, trunc := false, ovf := false, st := 1, recNo := no }

/-! ## Arm and disarm -/

/-- Nothing of an unarmed channel's stream is kept: its own lanes' unread entries, its claims on a partner lane, and what
the merge holds, up to the LSB instant `t`. -/
def State.purge (s : State) (c : Chan) (t : Nat) : State :=
  let own := fun (i : LaneIx) (ln : Lane) =>
    { ln.release (s.awaited i) fun f => if f.e.conv < t then f.drop c false else f with
              reserved := ln.reserved.filter fun r => t ≤ r.2.conv }
  let s1 := s.modChan c fun x => { x with
    laneH := own (laneIx c false) x.laneH, laneL := own (laneIx c true) x.laneL
    merge := { x.merge with
      ins := x.merge.ins.filter (fun r => t ≤ r.inst), late := x.merge.late.filter (fun f => t ≤ f.e.conv)
      reorder := x.merge.reorder.filter fun r => match r.1 with | .entry e => t ≤ e.conv | .ins r => t ≤ r.inst
      taken := x.merge.taken.filter fun r => match r with | .entry e => t ≤ e.conv | .ins r => t ≤ r.inst } }
  match (s.chan c).partner c with
  | some i => s1.modChan (laneChan i) fun x =>
      x.setLane (laneIsL i) ((x.lane (laneIsL i)).release (s.awaited i) fun f => if f.e.conv < t then f.drop c true else f)
  | none => s1


/-- The record number restarts, counters clear, the lanes wait for the arm instant (R68, R82, R93, R212); the engine's
fault register is kept until now (Table 5.8). -/
def Channel.armUnits (x : Channel) (t : Instant) : Channel :=
  { x with
    armed := true, armAt := t, held := false, recCount := 0
    laneH := x.laneH.arm t, laneL := x.laneL.arm t
    heldRearm := none, formeRearm := none, wantRearm := false
    eng := { x.eng with faultCode := 0, faultPc := 0, hwm := 0, holds := 0
                        st := if x.eng.st = .fault ∨ x.eng.st = .halt then .ready else x.eng.st } }

/-- At the dc `n` in which a record opens it holds what had reached the folder for it (R26, R177). -/
def State.takeWaiting (s : State) (c : Chan) (n : Nat) : State :=
  let x := s.chan c
  let (mine, later) := x.merge.taken.partition fun it => x.folder.belongs x it
  let y := mine.foldl (fun z it => z.intake n (s.streamTime c n) it (s.onePol c it)) { x with merge := { x.merge with taken := later } }
  s.setChan c (if y.folder.closing.isSome && !y.folder.byDisarm then
      y.modF fun f => { f with closing := some (f.last + 1) }
    else y)

/-- The placement in force at an arm whose entries from then on are still in the stream: that before the first fence record
there, else the one in force now (R360, R363). -/
def State.placeAtArm (s : State) (c : Chan) : Placement :=
  let m := (s.chan c).merge
  let old := fun (it : Item) =>
    match it with
    | .ins r => if r.fence then some { site := r.oldSite, step := r.oldStep, epoch := r.oldEpoch } else none
    | .entry _ => none
  ((m.taken ++ m.reorder.map (·.1) ++ m.ins.map Item.ins).findSome? old).getD (s.placement c)

/-- The first record of an arm opens with its arm instant as O and A; OPEN is in the queue when the engine starts
(R193, R274). -/
def State.firstRecord (s : State) (c : Chan) (t : Instant) (scale : Int) : State :=
  let x := s.chan c
  match s.placeFor c x.cfg none with
  | none => s
  | some p =>
    let o := (lsbOf t : Int) + scale
    let s1 := (s.purge c (lsbOf t)).modChan c fun x => { x with
      disarmAt := none, folder := { Folder.reset with lastPost := none }, merge := { x.restartMerge with window := [] } }
    let s2 := s1.openRecord c (s.dc t) o scale o 0 (s1.placeAtArm c) p
    s2.modChan c fun x =>
      let f := x.folder
      let e := x.eng
      match f.due with
      | v :: rest =>
        { x with folder := { f with due := rest }
                 eng := { e with queue := [v], hwm := max e.hwm 1, wdFrom := some (s.dc t)
                                 startDue := if x.engOn then some (s.startAt x t) else none } }
      | [] => { x with eng := { e with startDue := if x.engOn then some (s.startAt x t) else none } }

/-- Arm a channel at the SPAN instant `t` (R82, R556): at once where it holds no unfinished record, otherwise its record
opens at the boundary of the closing one. -/
def State.armAtInstant (s0 : State) (c : Chan) (t : Instant) : State :=
  let s := s0.wakeVault t
  let x := s.chan c
  let y := x.armUnits t
  if x.rcd.isOpen then s.setChan c { y with armNext := some (t, s.tb.scale), disarmNext := none }
  else (s.setChan c y).firstRecord c t s.tb.scale

/-- A declared trigger is made final (R282, R286). -/
def Channel.finalTrigger (x : Channel) : Channel :=
  let t := x.trg
  if t.cause = 0 || t.final then x
  else
    let prim := ((List.range 8).find? fun i => t.cause.getLsbD i).getD 0
    { x with trg := { t with
        final := true, last := pack 32 [(16, x.rcd.recNo.toNat), (8, prim), (0, t.cause.toNat)]
        lastTime := stamp64 t.time } }

/-- The folio of the open record shows a final trigger, where it was not so under `old` (R282). -/
def State.showTrigger (s : State) (c : Chan) (old : Trigger) : State :=
  let x := s.chan c
  let t := x.trg
  if t.final && x.rcd.isOpen && (!old.final || t.time != old.time) then
    s.modFolio x.rcd.folio fun f => { f with ttime := stamp64 t.time, trig := true }
  else s

/-- A disarm lets staged timebase and sweep fields take effect, and restarts the idle timer (R139, R424, Table 4.3). -/
def State.disarmed (s : State) (c : Chan) : State :=
  let k := pierOf c
  ((if s.anyArmed then s else s.tbApply).sweepApply k).idleRestart

/-- A staged spread of DECK or VAULT takes effect by a lock. Before a VAULT lock a running vault enters self-refresh
(R162). -/
def State.sscLock (s : State) (k : Synth) : State :=
  match (s.synth k).stagedSsc with
  | some w =>
    if k.val = 9 ∧ s.vlt.st = .run then
      if s.vlt.srEntry.isSome then s else s.srBegin (s.vc (s.clocks.vault.next s.now))
    else (s.modSynth k fun x => { x with ssc := w, stagedSsc := none }).relock k 0x40
  | none => s

/-- A change of DECK or VAULT spread takes effect at a device idle point with no readout outstanding (R27, R162). -/
def State.sscApply (s : State) : State :=
  let busy := allChans.any fun c => (s.chan c).armed || (s.chan c).rcd.isOpen
  let reading := (List.finRange 32).any fun r => (s.ring r).delivery.isSome
  if busy || reading then s else (s.sscLock 8).sscLock 9

/-- Number of the first dc at or after an instant. -/
def State.dcFrom (s : State) (t : Instant) : Nat := s.dc (s.clocks.deck.next t)

/-- The open record closes at the disarm instant `t`, which dc `n` is the first to reach. -/
def Channel.closeAt (x : Channel) (t : Instant) (n : Nat) (flags : Word) : Channel :=
  let y := (x.modRec fun r => { r with closeFlags := flags }).modF fun f =>
    { f with closing := some ((lsbOf t : Int) + f.base), byDisarm := true }
  { y with disarmAt := some t, disarmDc := n, lateFlags := 0 }

/-- Disarm an armed channel at the SPAN instant `t`, with flags for the record it closes (R28, R83). A record that is
closing already stands; the record that opens at its boundary then closes at once (Table 16.6). -/
def State.disarm (s : State) (c : Chan) (t : Instant) (flags : Word) : State :=
  let x := s.chan c
  if !x.armed then s
  else
    let y := { x with armed := false, heldRearm := none, wantRearm := false }
    if x.armNext.isSome then (s.setChan c { y with disarmNext := some t, lateFlags := flags }).disarmed c
    else if x.folder.closing.isSome then (s.setChan c { y with disarmAt := some t, lateFlags := flags }).disarmed c
    else
      ((s.setChan c (y.finalTrigger.closeAt t (s.dcFrom t) flags)).showTrigger c x.trg).disarmed c

/-- The SPAN visibility edge of a DECK edge (Table 20.13): the disarm instant of what is decided there. -/
def State.spanVis (s : State) (n : Nat) : Instant := s.span.vis win250 (s.dcAt n)

/-- The capture stops in dc `n` (R286). -/
def State.stop (s : State) (c : Chan) (n : Nat) : State := s.disarm c (s.spanVis n) flagStop

/-! ## Closing (R332, Tables 9.8, 9.9) -/

/-- Flags of the colophon of the record that closes. -/
def Channel.finalFlags (x : Channel) (closeTo held : Bool) : Word :=
  let r := x.rcd
  let trig := x.trg.cause != 0
  r.flags ||| (if x.folder.byDisarm then r.closeFlags else 0) ||| (if trig then flagTrig else 0)
    ||| (if r.unwrit != 0 || (trig && !r.isSeg && r.r - 1 < postOf x.cfg) then flagTrunc else 0)
    ||| (if closeTo then flagCloseTo else 0) ||| (if held then flagHeld else 0)
    ||| (if x.trim.stale then flagStale else 0)

/-- The eight colophon words. -/
def Channel.colophon (x : Channel) (c : Chan) (flags : Word) : List Qword :=
  let r := x.rcd
  let t := x.trg
  let trig := t.cause != 0
  let prim := ((List.range 8).find? fun i => t.cause.getLsbD i).getD 0
  let po := r.plO.getD r.plOpen
  let pc := r.plC.getD r.plOpen
  [coloWord 0 [(88, 1), (72, r.recNo.toNat), (65, c.val), bitAt 64 r.isSeg, (48, r.folio), (0, flags.toNat)],
   coloWord 1 [(32, (stamp64 r.o).toNat), (0, r.r)],
   coloWord 2 [(32, (stamp64 (x.folder.closing.getD x.folder.last)).toNat), (0, r.wp)],
   coloWord 3 [(32, if trig then (stamp64 t.time).toNat else 2 ^ 64 - 1), (24, t.cause.toNat), (21, prim)],
   coloWord 4 [(66, r.tw.getD 0x3FFFFFFF), (36, r.post), (6, r.unwrit)],
   coloWord 5 [(84, po.site.toNat), (76, po.step.toNat), (60, po.epoch.toNat), (48, pc.site.toNat), (40, pc.step.toNat),
     (24, pc.epoch.toNat), (18, r.forme.toNat), (2, r.trimGen.toNat), (0, r.band.toNat)],
   coloWord 6 [(64, satNat 32 r.maskFail), (51, r.lastW.eH.toNat), (38, r.lastW.eL.toNat), (32, r.lastW.fH.toNat),
     (26, r.lastW.fL.toNat)],
   coloWord 7 [(32, r.lastW.last.toNat)]]

/-- The record as it awaits readout. -/
def Channel.closedRec (x : Channel) (c : Chan) (t : Instant) : Closed :=
  let r := x.rcd
  let wrap := r.flags.getLsbD 14
  { ch := c, folio := r.folio, isSeg := r.isSeg, slot := r.slot, base := r.base, words := if wrap then r.r else r.wp
    r := r.r, wend := r.wp, wrap := wrap, recNo := r.recNo
    ring := Fin.ofNat 32 (4 * (pierOf c).val + fld x.cfg.chmap 0 2), epochO := r.plO.map (·.epoch)
    epochC := r.plC.map (·.epoch), at_ := t }

/-- The folio of the closed record (Table 8.2). -/
def State.closeFolio (s : State) (x : Channel) (flags : Word) : State :=
  s.modFolio x.rcd.folio fun f =>
    { f with
      ttime := if x.trg.cause != 0 then stamp64 x.trg.time else BitVec.allOnes 64, trig := x.trg.cause != 0
      stop := flags &&& flagStop != 0, trunc := flags &&& flagTrunc != 0, ovf := flags &&& 8 != 0, st := 2 }

/-- The vault is frozen: a colophon is handed over and never written (R513). -/
def State.frozen (s : State) : Bool := s.vlt.st == .frozen

/-- A subscriber of this channel's lanes is armed (R456). -/
def State.subscribed (s : State) (c : Chan) : Bool :=
  allChans.any fun d => (s.chan d).armed && pierOf d == pierOf c && d != c && (s.chan d).cfg.ptnr.getLsbD 31
    && fld (s.chan d).cfg.ptnr 0 4 == posOf c

/-- A closed record joins its ring's queue: after those of earlier boundaries, and of the same boundary after those of
lower channels (R335). -/
def State.enqueued (s : State) (l : List Nat) (r : Closed) : List Nat :=
  let later := fun f => s.closed.any fun q => q.folio == f && q.at_ == r.at_ && r.ch < q.ch
  l.filter (fun f => !later f) ++ r.folio :: l.filter later

/-- The trim window begins at `w0` (R455, R460, R461). -/
def State.startTrim (s : State) (c : Chan) (w0 : Instant) (wasArmed wasHeld : Bool) : State :=
  s.modChan c fun x => { x with trim := { x.trim with
    pending := false, running := true, w0 := w0, b0 := s.bandOf c, wasArmed := wasArmed, wasHeld := wasHeld
    cellsOk := false, failReason := 0, trial := TrimTable.blank } }

/-- A channel whose domain goes off: FIFO contents, folder, engine and trigger state are lost, a trim that runs fails with
POWER; the trim store and the configuration that the management core holds stay (R49, R453, R532). -/
def Channel.powerOff (x : Channel) : Channel :=
  { x with
    laneH := x.laneH.powerOff, laneL := x.laneL.powerOff, merge := Merge.reset, folder := Folder.reset
    banks := List.replicate 4 Bank.reset, eng := Engine.reset, trg := Trigger.reset, held := false, wantRearm := false
    heldRearm := none, formeRearm := none, armNext := none, disarmNext := none, armed := false, recCount := 0
    trim := { x.trim with pending := false, wasArmed := false
                          failReason := if x.trim.running && x.trim.failReason == 0 then 0xA else x.trim.failReason } }

/-- The management core requests the switch-off of a channel domain past its last boundary (R531). -/
def State.requestOff (s : State) (c : Chan) : State :=
  let x := s.chan c
  if (x.shedPend || x.pdoffPend) && !x.armed && !x.rcd.isOpen && s.chOn c then
    (s.modChan c fun x => { x.powerOff with shedPend := false, pdoffPend := false }).setDom (chDom c)
      (.turningOff (s.mc (s.clocks.mgmt.next s.now)))
  else s

/-! ## Idle points -/

/-- At an idle point everything staged takes effect at once (R29, R32), and a pending trim begins (R455). -/
def State.settleIdle (s : State) (c : Chan) : State :=
  let x := s.chan c
  if x.armed || x.rcd.isOpen || x.trim.running then s
  else
    let (s1, prog) := s.applyStaged c (lsbUp s.now) true
    let s2 := (if prog && s1.chOn c then s1.startReload c s1.now else s1).formeDone
    if (s2.chan c).trim.pending && s2.chOn c && !s2.subscribed c then
      s2.startTrim c (s2.span.vis win400 s2.now) false (s2.chan c).held
    else s2.requestOff c

/-- The channel has closed its last record: it is at an idle point, its images reload, and an arm or a switch-off that
waits goes on. -/
def State.endOfArm (s : State) (c : Chan) : State :=
  let x := s.chan c
  let upto := match x.armNext with | some (t, _) => lsbOf t | none => (lsbOf s.now) + 1
  let s1 := (s.purge c upto).startReload c (s.clocks.mgmt.vis win400 s.now)
  let s2 := s1.modChan c fun x => { x with
    disarmAt := if x.armNext.isSome then x.disarmAt else none
    folder := { x.folder with recOpen := false, closing := none, due := [], sums := [], held := false, frozen := none, done := false }
    trg := { x.trg with
      st := if x.held then .held else .idle, ignored := satAdd x.trg.ignored x.trg.pend.length, pend := [] }
    eng := { x.eng with st := if x.eng.st = .halt ∨ x.eng.st = .fault then x.eng.st else if x.engOn then .ready else .off
                        queue := if x.eng.st = .fault then [] else x.eng.queue, wdFrom := none, spanOpen := false
                        tookClose := false } }
  match x.armNext with
  | some (t, scale) =>
    let s3 := (s2.modChan c fun x => { x with armNext := none }).firstRecord c t scale
    match (s3.chan c).disarmNext with
    | some d =>
      (s3.modChan c fun x => { x.closeAt d (s3.dcFrom d) x.lateFlags with disarmNext := none }).takeWaiting c (s3.dc s3.now)
    | none => s3.takeWaiting c (s3.dc s3.now)
  | none =>
    let y := s2.chan c
    let s3 := if y.trim.pending && s2.chOn c && !s2.subscribed c then s2.startTrim c (x.disarmAt.getD s2.now) false y.held
      else s2
    ((allChans.filter fun d => pierOf d == pierOf c && d != c && (s3.chan d).trim.pending).foldl
      (fun z d => z.settleIdle d) (s3.requestOff c)).sscApply

/-- What ends the arm of a channel at its boundary, though nothing disarmed it before (R206, R455, R531, Table 14.10):
flags for the record that opens and closes at once. -/
def State.boundaryDisarm (s : State) (c : Chan) (prog : Bool) : Option Word :=
  let x := s.chan c
  if x.shedPend || x.pdoffPend then some flagPdoff
  else if x.trim.pending && !s.subscribed c then some flagDisarm
  else if prog then some flagDisarm
  else none

/-- The record boundary (R26) at dc `n`. -/
def State.recordBoundary (s : State) (c : Chan) (n : Nat) (closeTo : Bool) : State :=
  let s := s.at_ (s.dcAt n)
  let x := (s.chan c).finalTrigger.modEng fun e => { e with tookClose := false }
  let f := x.folder
  let cl := f.closing.getD (f.last + 1)
  let frozen := s.frozen
  let rec_ := x.closedRec c s.now
  let s0 := (s.setChan c x).showTrigger c (s.chan c).trg
  let s1 := if frozen then s0 else { s0 with closed := s0.closed ++ [rec_] }
  let (s2, prog) := s1.applyStaged c (cl - f.base) false
  let again := x.armed && x.armNext.isNone || (x.disarmAt.isSome && !f.byDisarm)
  let place := if again then s2.placeFor c (s2.chan c).cfg none else none
  let live := x.armed || x.disarmAt.any (s.now < ·)
  let held := again && place.isNone && live
  let flags := x.finalFlags closeTo held
  let words := (x.colophon c flags).mapIdx fun i w =>
    ({ OutWord.none with word := w, dc := n, g := some (x.rcd.base + i), final := true } : OutWord)
  let s3 := s2.modChan c fun y => { y with
    outq := y.outq ++ words, rcd := { y.rcd with isOpen := false }
    twHeld := x.rcd.tw.map fun j => (x.rcd.base + 8 + j, x.rcd.twWord) }
  let s4 := if frozen then s3
    else (s3.closeFolio x flags).modRing rec_.ring fun q => { q with queue := s.enqueued q.queue rec_ }.settle s.now
  let tail := s4.formeDone
  if !again then tail.endOfArm c
  else
    match place with
    | none =>
      let s5 := if held then
          ((tail.disarm c (s.spanVis n) 0).modChan c fun y => { y with
            held := true, disarmAt := some (min (s.spanVis n) (x.disarmAt.getD (s.spanVis n))), wantRearm := x.armed }).raise
            (chSrc c) 0x10
        else tail
      let s6 := if held && (s5.chan c).trim.pending && !s5.subscribed c then s5.startTrim c (s.spanVis n) true true else s5
      s6.endOfArm c
    | some p =>
      let o := cl + f.comp
      let s5 := tail.openRecord c n o (f.base + f.comp) (o + 819200) f.comp (x.rcd.plOpen) p
      let x6 := s5.chan c
      match x6.disarmAt with
      | some d => (s5.modChan c fun y => y.closeAt d (s.dcFrom d) y.lateFlags).takeWaiting c n
      | none =>
        let s6 := s5.takeWaiting c n
        match s6.boundaryDisarm c prog with
        | some fl =>
          let d := s.spanVis n
          let s7 := s6.disarm c d fl
          if fl = flagPdoff then s7
          else if x6.trim.pending && !s6.subscribed c then s7.startTrim c d true false
          else s7.modChan c fun y => { y with formeRearm := some (s.mcAt (s.mc (s.clocks.mgmt.vis win400 s.now) + rearmMc)) }
        | none => s6

/-! ## Rows of the folder -/

/-- FOLDER_INTAKE: the folder takes the oldest item of the reorder window (R177). An item of the next record waits in the
folder until that record opens. -/
def State.folderIntake (s : State) (c : Chan) : State :=
  let x := s.chan c
  match x.merge.reorder with
  | [] => s
  | (it, n, _) :: rest =>
    if x.folder.held || x.folder.frozen.isSome || !s.chOn c || !x.folder.recOpen then s
    else if x.folder.belongs x it then
      let y := { x with merge := { x.merge with reorder := rest } }
      (s.at_ (s.dcAt n)).setChan c (y.intake n (s.streamTime c n) it (s.onePol c it))
    else (s.at_ (s.dcAt n)).setChan c { x with merge := { x.merge with reorder := rest, taken := x.merge.taken ++ [it] } }

/-- A unit of the folder closes at `t`, once stream time reaches it. -/
def State.unitAt (s : State) (c : Chan) (t : Option Int) (f : Nat → Int → Channel → Channel) : State :=
  let x := s.chan c
  match t with
  | none => s
  | some t =>
    if !x.folder.recOpen || x.folder.done || !s.chOn c then s
    else
      match x.folder.closing with
      | some cl => if cl < t then s else
          match s.streamDue c t with
          | some n => (s.at_ (s.dcAt n)).setChan c (f n t x)
          | none => s
      | none =>
        match s.streamDue c t with
        | some n => (s.at_ (s.dcAt n)).setChan c (f n t x)
        | none => s

/-- GATE_CLOSE. -/
def State.gateClose (s : State) (c : Chan) : State :=
  s.unitAt c (s.chan c).gateStop fun n t x => x.windowsTo n t 36

/-- REDUCTION_INTERVAL_CLOSE. -/
def State.reductionClose (s : State) (c : Chan) : State :=
  let x := s.chan c
  let ends := (List.range 2).filterMap fun i => if (x.redCfg i).getLsbD 31 then some (x.redStop i) else none
  s.unitAt c ends.min? fun n t x => x.reduceTo n t 2

/-- PHASE_SAMPLE: the next instant comes with no stamp of the class. -/
def State.phaseSample (s : State) (c : Chan) : State :=
  let x := s.chan c
  s.unitAt c (if x.phsOn then some (x.phsAt (x.folder.phsI + 1)) else none) fun _ t x => x.phaseTo t 1

/-- MASK_WINDOW_CLOSE. -/
def State.maskWindowClose (s : State) (c : Chan) : State :=
  s.unitAt c ((s.chan c).folder.mask.map (·.stop)).min? fun n t x => x.windowsTo n t 36

/-! ## Events (R195 to R199, R203) -/

/-- The engine takes no event before its next arm (R203). -/
def Engine.deaf (e : Engine) : Bool :=
  e.st == .fault || e.st == .halt || e.st == .off || (e.st == .ready && e.startDue.isNone)

/-- Instants of conversion of what has not reached the folder. -/
def State.waitingConv (s : State) (c : Chan) : List Nat :=
  let x := s.chan c
  let lane := fun (i : LaneIx) (p : Bool) =>
    (((s.laneAt i).fifo.filter fun f => if p then f.subs.contains c else f.own).map (·.e.conv))
      ++ (s.laneAt i).reserved.map (·.2.conv)
  lane (laneIx c false) false ++ lane (laneIx c true) false
    ++ (match x.partner c with | some i => lane i true | none => []) ++ x.merge.late.map (·.e.conv)
    ++ x.merge.reorder.map (fun r => match r.1 with | .entry e => e.conv | .ins r => r.inst)
    ++ x.merge.ins.map (·.inst)

/-- The dc in which the units close: a trigger's P-th word gives it (R293); a disarm's is the dc in which stream time
reaches C with every entry of the record taken (R83). -/
def State.closeDue (s : State) (c : Chan) : Option Nat :=
  let x := s.chan c
  match x.folder.closing with
  | none => none
  | some cl =>
    let late := match x.disarmAt with
      | some d => x.folder.byDisarm && ((s.waitingConv c).any (· < lsbOf d) || x.laneH.loss.isSome || x.laneL.loss.isSome)
      | none => false
    if late then none else if x.folder.byDisarm then s.streamDue c cl else some x.folder.closeDc

/-- A free summary bank (R194). -/
def Channel.freeBank (x : Channel) : Option Nat := (List.range 4).find? fun i => !(x.banks.getD i Bank.reset).held

/-- The queue takes an event in dc `n`. -/
def Channel.enqueue (x : Channel) (n : Nat) (v : Ev) : Channel :=
  x.modEng fun e =>
    let q := e.queue ++ [v]
    { e with queue := q, hwm := max e.hwm q.length, wdFrom := if e.queue.isEmpty then some n else e.wdFrom }

/-- Post the first due event in dc `n`. -/
def State.post (s : State) (c : Chan) (n : Nat) (v : Ev) (rest : List Ev) : State :=
  let s := s.at_ (s.dcAt n)
  let x := s.chan c
  let f := x.folder
  if x.eng.deaf then
    let y := x.modF fun f => { f with due := rest, lastPost := some n, sums := if v.type = 4 then f.sums.drop 1 else f.sums }
    if v.type = 2 then (s.setChan c y).recordBoundary c n false else s.setChan c y
  else
    let full := x.eng.queue.length ≥ 64 || (v.type == 4 && x.freeBank.isNone)
    if full then
      (s.setChan c { x with
        folder := { f with held := true, frozen := some (s.streamTime c n) }
        merge := { x.merge with held := true }
        eng := { x.eng with holds := satAdd x.eng.holds 1 } }).raise (chSrc c) 0x04
    else
      let y := x.modF fun f => { f with due := rest, lastPost := some n, closePosted := if v.type = 2 then some n else f.closePosted }
      if v.type = 4 then
        let b := x.freeBank.getD 0
        let z := y.modF fun f => { f with sums := f.sums.drop 1 }
        s.setChan c ({ z with banks := setAt z.banks b { words := f.sums.headD [], held := true } }.enqueue n
          { v with head := BitVec.ofNat 56 b })
      else s.setChan c (y.enqueue n v)

/-- EVENT_POST: the units close if the closing time is reached, and the next due event is posted; with EN = 0 the record
boundary comes instead (R199, R203). -/
def State.eventPost (s : State) (c : Chan) : State :=
  let x := s.chan c
  if !x.folder.recOpen || x.folder.held || !s.chOn c then s
  else
    let s1 := match s.closeDue c with
      | some n => if x.folder.done then s else
          (s.at_ (s.dcAt n)).setChan c (x.finish n (x.folder.closing.getD 0))
      | none => s
    let y := s1.chan c
    match y.folder.due with
    | [] => if y.folder.done && !y.engOn then s1.recordBoundary c (s1.dc s1.now) false else s1
    | v :: rest =>
      let due := if v.type = 1 || y.folder.done then some (s1.dc s1.now) else s1.streamDue c (v.time + 1)
      match due with
      | none => s1
      | some d => s1.post c (match y.folder.lastPost with | some p => max d (p + 20) | none => d) v rest

/-- FOLDER_RESUME: the first dc on which the queue has room (R198). -/
def State.folderResume (s : State) (c : Chan) : State :=
  let x := s.chan c
  let blocked := x.eng.queue.length ≥ 64 || (match x.folder.due with
    | v :: _ => v.type == 4 && x.freeBank.isNone
    | [] => false)
  if x.folder.held && !(blocked && !x.eng.deaf) then
    s.setChan c { x with
      folder := { x.folder with held := false, frozen := if s.writerRoom (pierOf c) then none else x.folder.frozen }
      merge := x.merge.rebase (s.dc s.now) }
  else s

/-- IMAGE_RELOAD: a reload of the engine's images completes (R193). -/
def State.imageReload (s : State) (c : Chan) : State :=
  let x := s.chan c
  match x.eng.reloadDue with
  | none => s
  | some t => (s.at_ t).setChan c (x.modEng fun e => e.load (s.programFor x) (x.engOn && s.chOn c))

/-! ## Re-arms -/

/-- HELD_REARM (R300): the first SPAN instant after exactly 6,144 mc from the completion of the RELEASE. -/
def State.heldRearm (s : State) (c : Chan) : State :=
  let x := s.chan c
  match x.heldRearm with
  | none => s
  | some t =>
    let s1 := (s.at_ (s.span.next (t + 1))).modChan c fun x => { x with heldRearm := none }
    if s1.chOn c && s1.bound c && !x.trim.running && (s1.placeFor c x.cfg none).isSome then s1.armAtInstant c s1.now else s1

/-- FORME_REARM (R206): the first SPAN instant after exactly 6,144 mc. -/
def State.formeRearm (s : State) (c : Chan) : State :=
  let x := s.chan c
  match x.formeRearm with
  | none => s
  | some t =>
    let s1 := (s.at_ (s.span.next (t + 1))).modChan c fun x => { x with formeRearm := none }
    if s1.chOn c && s1.bound c && !x.armed && !x.trim.running && (s1.placeFor c x.cfg none).isSome then
      s1.armAtInstant c s1.now
    else s1

/-! ## Meanings -/

def execFolderIntake (c : Chan) (s : State) : Host.Outcome State Fault Refusal := .next (s.folderIntake c)
def execGateClose (c : Chan) (s : State) : Host.Outcome State Fault Refusal := .next (s.gateClose c)
def execReductionIntervalClose (c : Chan) (s : State) : Host.Outcome State Fault Refusal := .next (s.reductionClose c)
def execPhaseSample (c : Chan) (s : State) : Host.Outcome State Fault Refusal := .next (s.phaseSample c)
def execMaskWindowClose (c : Chan) (s : State) : Host.Outcome State Fault Refusal := .next (s.maskWindowClose c)
def execEventPost (c : Chan) (s : State) : Host.Outcome State Fault Refusal := .next (s.eventPost c)
def execFolderResume (c : Chan) (s : State) : Host.Outcome State Fault Refusal := .next (s.folderResume c)
def execImageReload (c : Chan) (s : State) : Host.Outcome State Fault Refusal := .next (s.imageReload c)
def execHeldRearm (c : Chan) (s : State) : Host.Outcome State Fault Refusal := .next (s.heldRearm c)
def execFormeRearm (c : Chan) (s : State) : Host.Outcome State Fault Refusal := .next (s.formeRearm c)

end Sys2Proof.Machine
end

