-- ==== Sys2Proof/Machine/Isa.lean ====
section
/-! DEFINITION. Encodings of the engine's instructions (R217, R218, Tables 6.1 to 6.5). -/

namespace Sys2Proof.Machine

/-- Format R: OP, D, A, B, COND. -/
def fmtR (op : BitVec 6) (d a b cond : BitVec 4) : Word := op ++ d ++ a ++ b ++ cond ++ (0 : BitVec 10)
/-- Format I: OP, D, A, IMM18. -/
def fmtI (op : BitVec 6) (d a : BitVec 4) (imm : BitVec 18) : Word := op ++ d ++ a ++ imm
/-- Format U: OP, D, H, IMM16. -/
def fmtU (op : BitVec 6) (d : BitVec 4) (h : BitVec 2) (imm : BitVec 16) : Word :=
  op ++ d ++ h ++ (0 : BitVec 4) ++ imm
/-- Format B: OP, COND, OFF. -/
def fmtB (op : BitVec 6) (cond : BitVec 4) (off : BitVec 12) : Word := op ++ cond ++ (0 : BitVec 10) ++ off

/-- An accumulator number in a register field: bit [3] is zero. -/
def accF (a : BitVec 3) : BitVec 4 := a.setWidth 4

/-- The word of an engine instruction, none for any other command. -/
def encodeEng : Instr → Option Word
  | .engineNop _ => some (fmtR 0x01 0 0 0 0)
  | .add _ d a b => some (fmtR 0x02 d a b 0)
  | .sub _ d a b => some (fmtR 0x03 d a b 0)
  | .and _ d a b => some (fmtR 0x04 d a b 0)
  | .or _ d a b => some (fmtR 0x05 d a b 0)
  | .xor _ d a b => some (fmtR 0x06 d a b 0)
  | .shl _ d a b => some (fmtR 0x07 d a b 0)
  | .shr _ d a b => some (fmtR 0x08 d a b 0)
  | .sar _ d a b => some (fmtR 0x09 d a b 0)
  | .mul _ d a b => some (fmtR 0x0A d a b 0)
  | .min _ d a b => some (fmtR 0x0B d a b 0)
  | .max _ d a b => some (fmtR 0x0C d a b 0)
  | .minu _ d a b => some (fmtR 0x0D d a b 0)
  | .maxu _ d a b => some (fmtR 0x0E d a b 0)
  | .cmp _ a b => some (fmtR 0x0F 0 a b 0)
  | .addi _ d a i => some (fmtI 0x10 d a i)
  | .andi _ d a i => some (fmtI 0x11 d a i)
  | .ori _ d a i => some (fmtI 0x12 d a i)
  | .xori _ d a i => some (fmtI 0x13 d a i)
  | .shli _ d a k => some (fmtI 0x14 d a (k.setWidth 18))
  | .shri _ d a k => some (fmtI 0x15 d a (k.setWidth 18))
  | .sari _ d a k => some (fmtI 0x16 d a (k.setWidth 18))
  | .cmpi _ a i => some (fmtI 0x17 0 a i)
  | .movz _ d h i => some (fmtU 0x18 d h i)
  | .movk _ d h i => some (fmtU 0x19 d h i)
  | .csel _ d a b cond => some (fmtR 0x1A d a b cond)
  | .clz _ d a => some (fmtR 0x1B d a 0 0)
  | .evt _ d => some (fmtI 0x1C d 0 0)
  | .evtp _ d => some (fmtI 0x1D d 0 0)
  | .emit _ a => some (fmtR 0x1E 0 (accF a) 0 0)
  | .trig _ a => some (fmtR 0x1F 0 a 0 0)
  | .ld _ d a i => some (fmtI 0x20 d a i)
  | .st _ d a i => some (fmtI 0x21 d a i)
  | .lda _ d a i => some (fmtI 0x22 (accF d) a i)
  | .sta _ d a i => some (fmtI 0x23 (accF d) a i)
  | .stop _ => some (fmtR 0x24 0 0 0 0)
  | .halt _ => some (fmtR 0x25 0 0 0 0)
  | .gset _ a => some (fmtR 0x26 0 a 0 0)
  | .sysr _ d i => some (fmtI 0x27 d 0 i)
  | .aclr _ d => some (fmtR 0x28 (accF d) 0 0 0)
  | .amovs _ d a => some (fmtR 0x29 (accF d) a 0 0)
  | .aaddg _ d a => some (fmtR 0x2A (accF d) a 0 0)
  | .muls _ d a b => some (fmtR 0x2B (accF d) a b 0)
  | .mulu _ d a b => some (fmtR 0x2C (accF d) a b 0)
  | .macs _ d a b => some (fmtR 0x2D (accF d) a b 0)
  | .macu _ d a b => some (fmtR 0x2E (accF d) a b 0)
  | .aadd _ d a b => some (fmtR 0x2F (accF d) (accF a) (accF b) 0)
  | .asub _ d a b => some (fmtR 0x30 (accF d) (accF a) (accF b) 0)
  | .ashr _ d a k => some (fmtI 0x31 (accF d) (accF a) (k.setWidth 18))
  | .ashl _ d a k => some (fmtI 0x32 (accF d) (accF a) (k.setWidth 18))
  | .aget _ d a h => some (fmtI 0x33 d (accF a) (h.setWidth 18))
  | .asat _ d a => some (fmtR 0x34 d (accF a) 0 0)
  | .anorm _ d a => some (fmtR 0x35 d (accF a) 0 0)
  | .acmp _ a b => some (fmtR 0x36 0 (accF a) (accF b) 0)
  | .apack _ d a b => some (fmtR 0x37 (accF d) a b 0)
  | .divu _ d a b => some (fmtR 0x38 d (accF a) b 0)
  | .divs _ d a b => some (fmtR 0x39 d (accF a) b 0)
  | .b _ cond off => some (fmtB 0x3C cond off)
  | .bl _ off => some (fmtB 0x3D 0 off)
  | .jr _ a => some (fmtR 0x3E 0 a 0 0)
  | _ => none

/-- The instruction that the fields of a word name, if its OP is defined. -/
def readEng (c : Chan) (w : Word) : Option Instr :=
  let d : BitVec 4 := w.extractLsb' 22 4
  let a : BitVec 4 := w.extractLsb' 18 4
  let b : BitVec 4 := w.extractLsb' 14 4
  let cond : BitVec 4 := w.extractLsb' 10 4
  let d3 : BitVec 3 := w.extractLsb' 22 3
  let a3 : BitVec 3 := w.extractLsb' 18 3
  let b3 : BitVec 3 := w.extractLsb' 14 3
  let i : BitVec 18 := w.extractLsb' 0 18
  let h : BitVec 2 := w.extractLsb' 20 2
  let i16 : BitVec 16 := w.extractLsb' 0 16
  let k6 : BitVec 6 := w.extractLsb' 0 6
  let k7 : BitVec 7 := w.extractLsb' 0 7
  let off : BitVec 12 := w.extractLsb' 0 12
  match (w.extractLsb' 26 6 : BitVec 6) with
  | 0x01 => some (.engineNop c)
  | 0x02 => some (.add c d a b)
  | 0x03 => some (.sub c d a b)
  | 0x04 => some (.and c d a b)
  | 0x05 => some (.or c d a b)
  | 0x06 => some (.xor c d a b)
  | 0x07 => some (.shl c d a b)
  | 0x08 => some (.shr c d a b)
  | 0x09 => some (.sar c d a b)
  | 0x0A => some (.mul c d a b)
  | 0x0B => some (.min c d a b)
  | 0x0C => some (.max c d a b)
  | 0x0D => some (.minu c d a b)
  | 0x0E => some (.maxu c d a b)
  | 0x0F => some (.cmp c a b)
  | 0x10 => some (.addi c d a i)
  | 0x11 => some (.andi c d a i)
  | 0x12 => some (.ori c d a i)
  | 0x13 => some (.xori c d a i)
  | 0x14 => some (.shli c d a k6)
  | 0x15 => some (.shri c d a k6)
  | 0x16 => some (.sari c d a k6)
  | 0x17 => some (.cmpi c a i)
  | 0x18 => some (.movz c d h i16)
  | 0x19 => some (.movk c d h i16)
  | 0x1A => some (.csel c d a b cond)
  | 0x1B => some (.clz c d a)
  | 0x1C => some (.evt c d)
  | 0x1D => some (.evtp c d)
  | 0x1E => some (.emit c a3)
  | 0x1F => some (.trig c a)
  | 0x20 => some (.ld c d a i)
  | 0x21 => some (.st c d a i)
  | 0x22 => some (.lda c d3 a i)
  | 0x23 => some (.sta c d3 a i)
  | 0x24 => some (.stop c)
  | 0x25 => some (.halt c)
  | 0x26 => some (.gset c a)
  | 0x27 => some (.sysr c d i)
  | 0x28 => some (.aclr c d3)
  | 0x29 => some (.amovs c d3 a)
  | 0x2A => some (.aaddg c d3 a)
  | 0x2B => some (.muls c d3 a b)
  | 0x2C => some (.mulu c d3 a b)
  | 0x2D => some (.macs c d3 a b)
  | 0x2E => some (.macu c d3 a b)
  | 0x2F => some (.aadd c d3 a3 b3)
  | 0x30 => some (.asub c d3 a3 b3)
  | 0x31 => some (.ashr c d3 a3 k7)
  | 0x32 => some (.ashl c d3 a3 k7)
  | 0x33 => some (.aget c d a3 (w.extractLsb' 0 1))
  | 0x34 => some (.asat c d a3)
  | 0x35 => some (.anorm c d a3)
  | 0x36 => some (.acmp c a3 b3)
  | 0x37 => some (.apack c d3 a b)
  | 0x38 => some (.divu c d a3 b)
  | 0x39 => some (.divs c d a3 b)
  | 0x3C => some (.b c cond' off)
  | 0x3D => some (.bl c off)
  | 0x3E => some (.jr c a)
  | _ => none
where cond' : BitVec 4 := w.extractLsb' 22 4

/-- COND 0xF, D above 13 of EVT and EVTP, and the selectors that Table 6.6 does not list are undefined (R218). -/
def engFieldsOk : Instr → Bool
  | .csel _ _ _ _ cond => cond != 15
  | .b _ cond _ => cond != 15
  | .evt _ d => d.toNat ≤ 13
  | .evtp _ d => d.toNat ≤ 13
  | .sysr _ _ sel => sel.toNat ≤ 8
  | _ => true

/-- The instruction a word spells, none for an undefined encoding (R218): OP defined, every field that the instruction
does not use zero, every value in its range. -/
def decodeEng (c : Chan) (w : Word) : Option Instr :=
  match readEng c w with
  | some i => if encodeEng i = some w ∧ engFieldsOk i = true then some i else none
  | none => none

end Sys2Proof.Machine
end

