-- ==== Sys2Proof/Machine/Measure.lean ====
section
/-! DEFINITION. What the compositor library computes (07_measurements.md): the results of a descriptor from a summary bank
and from the phase samples of a record, and what they cost. -/

namespace Sys2Proof.Machine

/-! ## Descriptors (R243, Table 7.2) -/

/-- A measurement descriptor. -/
structure MeasDesc where
  func : Nat
  action : Nat
  src : Nat
  src2 : Nat
  cmask : Nat
  n : Nat
  lo : Dword
  hi : Dword
  pnom : Nat
deriving DecidableEq, Repr

/-- Descriptor `d` of a data image. -/
def descOf (dmem : List (Nat × Dword)) (d : Nat) : MeasDesc :=
  let w := fun i => sget 0 dmem (0x10 + 4 * d + i)
  { func := fld (w 0) 56 8, action := fld (w 0) 54 2, src := fld (w 0) 50 2, src2 := fld (w 0) 48 2, cmask := fld (w 0) 40 8
    n := fld (w 0) 28 12 + 1, lo := w 1, hi := w 2, pnom := (w 3).toNat }

/-- The descriptors the library reads: in index order, up to the first whose FUNC is zero (R242). -/
def libraryDescs (dmem : List (Nat × Dword)) : List (Nat × MeasDesc) :=
  ((List.range 16).map fun d => (d, descOf dmem d)).takeWhile fun p => p.2.func != 0

/-! ## Units and rounding (R245, Table 7.4) -/

/-- `p / q` rounded to the nearest whole number, halves away from zero; `q` is above zero. -/
def roundQ (p : Int) (q : Nat) : Int :=
  let m : Int := ((2 * p.natAbs + q) / (2 * q) : Nat)
  if p < 0 then -m else m

/-- The whole part of a root, bit by bit from bit `k` - 1 down, from `a` on. -/
def rootFrom (n a : Nat) : Nat → Nat
  | 0 => a
  | k + 1 => rootFrom n (if (a + 2 ^ k) * (a + 2 ^ k) ≤ n then a + 2 ^ k else a) k

/-- The root of `p / q`, rounded the same way. -/
def roundRoot (p q : Nat) : Int :=
  let n := 4 * p / q
  ((rootFrom n 0 (n.log2 / 2 + 1) + 1) / 2 : Nat)

/-- A value of a unit: its code, the value encoded, and whether it was clamped. -/
structure Encoded where
  unit : Nat
  value : Int
  clamped : Bool
deriving DecidableEq, Repr

/-- Least and greatest value of a unit's encoding. -/
def unitRange (u : Nat) : Int × Int :=
  match u with
  | 1 => (0, 18000000000000000000)
  | 2 => (-2 ^ 63, 2 ^ 63 - 1)
  | 3 => (-2 ^ 63, 2 ^ 63 - 1)
  | 4 => (-2 ^ 63, 2 ^ 63 - 1)
  | 5 => (0, 2 ^ 32)
  | 6 => (-2 ^ 31, 2 ^ 31 - 1)
  | _ => (0, 2 ^ 64 - 1)

/-- A rounded value in a unit. -/
def encodeIn (u : Nat) (v : Int) : Encoded :=
  let r := unitRange u
  { unit := u, value := max r.1 (min v r.2), clamped := v < r.1 || r.2 < v }

/-- A time of `p / q` LSB: TIME_Q32 below 2^31 LSB, else TIME_Q16. -/
def encodeTime (p : Int) (q : Nat) : Encoded :=
  if (roundQ (p * 2 ^ 32) q).natAbs < 2 ^ 63 then encodeIn 2 (roundQ (p * 2 ^ 32) q) else encodeIn 3 (roundQ (p * 2 ^ 16) q)

/-- A turn: `p / q` less the floor of `p / q + 1/2` (R258, R259). -/
def encodeTurn (p : Int) (q : Nat) : Encoded :=
  let f := (2 * p + q) / (2 * q : Int)
  encodeIn 6 (roundQ ((p - f * q) * 2 ^ 32) q)

/-! ## The summary bank as the library reads it (Table 5.4) -/

structure MomentSet where
  n : Nat
  sx : Nat
  sxx : Nat
  mn : Nat
  mx : Nat
deriving DecidableEq, Repr

def bankWord (b : List Dword) (i : Nat) : Nat := (b.getD i 0).toNat
def bankWide (b : List Dword) (i : Nat) : Nat := bankWord b i + 2 ^ 64 * bankWord b (i + 1)

def bankSet (b : List Dword) (k : Nat) : MomentSet :=
  let o := 12 + 8 * k
  { n := bankWord b o, sx := bankWide b (o + 1), sxx := bankWide b (o + 3), mn := bankWord b (o + 5), mx := bankWord b (o + 6) }

def bankFlags (b : List Dword) : BitVec 12 := (b.getD 2 0).extractLsb' 0 12

/-- Moment set k is unusable: ASAT of the set, or DSAT (R247). -/
def setBad (b : List Dword) (k : Nat) : Bool := (bankFlags b).getLsbD 1 || (bankFlags b).getLsbD (2 + k)

/-- The fit of R252: D, the numerator of b, n and S of the regression; none below three stamps or with D = 0. -/
structure Fit where
  n : Nat
  d : Nat
  num : Int
  st : Nat
  sk : Nat
deriving DecidableEq, Repr

def bankFit (b : List Dword) : Option Fit :=
  let n := bankWord b 28
  let st := bankWide b 29
  let skt := bankWide b 31
  let sk := bankWide b 33
  let skk := bankWide b 35
  if n < 3 ∨ n * skk ≤ sk * sk ∨ (bankFlags b).getLsbD 4 then none
  else some { n := n, d := n * skk - sk * sk, num := (n * skt : Nat) - (sk * st : Nat), st := st, sk := sk }

/-! ## Frequency and period (R250, R251) -/

/-- Class of the TO stamps of the slot that feeds moment set k. -/
def setClass (g : ChanCfg) (k : Nat) : Nat := fld (g.dslot.getD (fld g.momCfg (if k = 0 then 24 else 8) 2) 0) 0 3

/-- Periods P of set SRC, and whether the count check failed. -/
def periods (b : List Dword) (cls n N : Nat) : Nat × Bool :=
  let f := bankFlags b
  let p := n * N
  if !f.getLsbD 5 && !f.getLsbD 7 && !f.getLsbD 0 && bankWord b 2 / 2 ^ 32 != 0 && bankWord b (3 + cls) != p then
    (bankWord b (3 + cls), true)
  else (p, false)

/-- A result before its limit test: PARAM, the value (none: NVAL), CNTERR. -/
structure MeasOut where
  param : Nat
  val : Option Encoded
  cntErr : Bool
deriving DecidableEq, Repr

def oneOut (v : Option Encoded) : List MeasOut := [{ param := 0, val := v, cntErr := false }]

def freqRecip (g : ChanCfg) (b : List Dword) (d : MeasDesc) (asFreq : Bool) : List MeasOut :=
  let m := bankSet b d.src
  let p := periods b (setClass g d.src) m.n d.n
  let num : Nat := if asFreq then p.1 * 2560000000000000000 else m.sx
  let den := if asFreq then m.sx else p.1
  if setBad b d.src ∨ m.n = 0 ∨ m.sx = 0 ∨ den = 0 then [{ param := 0, val := none, cntErr := p.2 }]
  else [{ param := 0, val := some (if asFreq then encodeIn 1 (roundQ num den) else encodeTime num den), cntErr := p.2 }]

def freqReg (b : List Dword) (asFreq : Bool) : List MeasOut :=
  oneOut <| (bankFit b).bind fun f =>
    if asFreq then
      (if f.num = 0 then none
       else some (encodeIn 1 (roundQ ((2560000000000000000 * f.d : Nat) * f.num.sign) f.num.natAbs)))
    else some (encodeTime f.num f.d)

/-! ## Statistics, width, phase, totals (R254 to R260) -/

def meanOut (b : List Dword) (d : MeasDesc) : List MeasOut :=
  let m := bankSet b d.src
  oneOut (if setBad b d.src ∨ m.n = 0 then none else some (encodeTime m.sx m.n))

def sdevOut (b : List Dword) (d : MeasDesc) : List MeasOut :=
  let m := bankSet b d.src
  oneOut (if setBad b d.src ∨ m.n < 2 then none
    else some (encodeIn 3 (roundRoot ((m.n * m.sxx - m.sx * m.sx) * 2 ^ 32) (m.n * (m.n - 1)))))

def extremeOut (b : List Dword) (d : MeasDesc) (isMax : Bool) : List MeasOut :=
  let m := bankSet b d.src
  oneOut (if setBad b d.src ∨ m.n = 0 then none else some (encodeIn 4 (if isMax then m.mx else m.mn)))

def dutyOut (b : List Dword) (d : MeasDesc) : List MeasOut :=
  let p := bankSet b d.src
  let q := bankSet b d.src2
  oneOut (if setBad b d.src ∨ setBad b d.src2 ∨ p.n = 0 ∨ q.n = 0 ∨ p.sx + q.sx = 0 then none
    else some (encodeIn 5 (roundQ (p.sx * 2 ^ 32 : Nat) (p.sx + q.sx))))

def phaseRefOut (b : List Dword) (d : MeasDesc) : List MeasOut :=
  let p := bankSet b d.src
  let q := bankSet b d.src2
  oneOut (if setBad b d.src ∨ setBad b d.src2 ∨ p.n = 0 ∨ q.n = 0 ∨ q.sx = 0 then none
    else some (encodeTurn (p.sx * q.n : Nat) (p.n * q.sx)))

/-- T_0 + a over PNOM, all in 2^-16 LSB: a = (S_t - b S_k) / n with b = num / d. -/
def phaseSpanOut (b : List Dword) (d : MeasDesc) : List MeasOut :=
  oneOut <| (bankFit b).bind fun f =>
    if d.pnom = 0 then none
    else
      let t0 := bankWord b 37
      let num : Int := (t0 * f.n + f.st) * f.d - f.num * f.sk
      some (encodeTurn (num * 2 ^ 16) (f.n * f.d * d.pnom))

def totalOut (b : List Dword) (d : MeasDesc) : List MeasOut :=
  let c := (List.range 6).foldl (fun a i => if d.cmask.testBit i then a + bankWord b (3 + i) else a) 0
  oneOut (some (encodeIn 8 (c + bankWord b 9 : Nat)))

def histOut (b : List Dword) : List MeasOut :=
  (List.range 129).map fun i => { param := i, val := some (encodeIn 9 (bankWord b (if i = 128 then 38 else 64 + i))), cntErr := false }

/-- The results of a gate-scope descriptor (Table 7.3); none for one of record scope. -/
def gateOut (g : ChanCfg) (b : List Dword) (d : MeasDesc) : List MeasOut :=
  match d.func with
  | 0x01 => freqRecip g b d true
  | 0x02 => freqReg b true
  | 0x03 => freqRecip g b d false
  | 0x04 => freqReg b false
  | 0x05 => meanOut b d
  | 0x06 => sdevOut b d
  | 0x07 => extremeOut b d false
  | 0x08 => extremeOut b d true
  | 0x09 => dutyOut b d
  | 0x0A => phaseRefOut b d
  | 0x0B => phaseSpanOut b d
  | 0x0C => totalOut b d
  | 0x0D => histOut b
  | _ => []

/-! ## Limit tests and result words (R266 to R269, R329) -/

/-- A value on the scale on which its descriptor's limits are given: TIME_Q16 for the time functions. -/
def limitScale (e : Encoded) : Int :=
  if e.unit = 3 then e.value * 2 ^ 16 else if e.unit = 4 then e.value * 2 ^ 32 else e.value

/-- A limit on that scale; only those of TURN_Q32 are signed. -/
def limitOf (u : Nat) (l : Dword) : Int :=
  if u = 2 ∨ u = 3 ∨ u = 4 then l.toNat * 2 ^ 16 else if u = 6 then l.toInt else (l.toNat : Int)

/-- The result violates the descriptor's limits. -/
def violates (d : MeasDesc) (e : Encoded) : Bool :=
  d.action != 0 && d.func != 0x0D && d.func != 0x0F && (limitScale e < limitOf e.unit d.lo || limitOf e.unit d.hi < limitScale e)

/-- Unit of a result that carries NVAL. -/
def funcUnit (f : Nat) : Nat :=
  match f with
  | 0x01 => 1 | 0x02 => 1 | 0x03 => 2 | 0x04 => 2 | 0x05 => 2 | 0x06 => 3 | 0x07 => 4 | 0x08 => 4 | 0x09 => 5
  | 0x0A => 6 | 0x0B => 6 | 0x0D => 9 | 0x0E => 7 | _ => 8

def MeasOut.fails (o : MeasOut) (d : MeasDesc) : Bool := match o.val with | some e => violates d e | none => false

/-- The RESULT word (Table 9.6). -/
def resultWord (idx : Nat) (d : MeasDesc) (gflags : BitVec 12) (o : MeasOut) : Qword :=
  pack 128 [(108, 0xFFFF2), (100, d.func), (96, match o.val with | some e => e.unit | none => funcUnit d.func), (92, idx), (84, o.param),
    bitAt 83 o.val.isNone, bitAt 82 (match o.val with | some e => e.clamped | none => false), bitAt 81 o.cntErr,
    bitAt 80 (o.fails d), (68, gflags.toNat), (0, match o.val with | some e => (BitVec.ofInt 64 e.value).toNat | none => 0)]

/-! ## Allan deviation (R261 to R263) -/

/-- The multiplier table: its entries up to the first zero (R261). -/
def tauTable (dmem : List (Nat × Dword)) : List Nat :=
  ((List.range 16).map fun j => fld (sget 0 dmem (0x50 + j)) 0 9).takeWhile (· != 0)

/-- The record's OPEN clears history and accumulators. -/
def AdevSt.clear (taus : List Nat) : AdevSt := { hist := [], acc := taus.map fun _ => (0, 0) }

/-- The second difference of the newest sample at m. -/
def secondDiff (h : List (Option Int)) (m : Nat) : Option Int :=
  match h[0]?, h[m]?, h[2 * m]? with
  | some (some a), some (some b), some (some c) => some (a - 2 * b + c)
  | _, _, _ => none

/-- One PHASE event: the sample's time from the record's first sample in LSB and its k, none where it is invalid. -/
def AdevSt.take (a : AdevSt) (taus : List Nat) (pnom : Nat) (smp : Option (Int × Nat)) : AdevSt :=
  let x : Option Int := smp.map fun p => p.1 * 65536 - ((p.2 * pnom : Nat) : Int)
  let h := x :: a.hist
  { hist := h.take 512
    acc := taus.mapIdx fun j m =>
      let s := a.acc.getD j (0, 0)
      match secondDiff h m with
      | some d => (s.1 + d.natAbs * d.natAbs, s.2 + 1)
      | none => s }

/-- The ADEV results at CLOSE: σ_j in units of 2^-64, τ0 being `tau0` span cycles. -/
def AdevSt.results (a : AdevSt) (taus : List Nat) (tau0 : Nat) : List MeasOut :=
  taus.mapIdx fun j m =>
    let s := a.acc.getD j (0, 0)
    let t := m * tau0 * 2048 * 65536
    { param := j, cntErr := false
      val := if s.2 = 0 ∨ t = 0 then none else some (encodeIn 7 (roundRoot (s.1 * 2 ^ 128) (2 * s.2 * (t * t)))) }

/-! ## What an event asks for, and its cost (R268 to R271, Table 7.8) -/

/-- dc that the library spends on a descriptor at a SUMMARY. -/
def gateCost (d : MeasDesc) : Nat :=
  match d.func with
  | 0x01 => 47 | 0x02 => 176 | 0x03 => 44 | 0x04 => 140 | 0x05 => 44 | 0x06 => 212 | 0x07 => 8 | 0x08 => 8 | 0x09 => 48
  | 0x0A => 96 | 0x0B => 230 | 0x0C => 4 + 2 * ((List.range 6).countP fun i => d.cmask.testBit i) | 0x0D => 774 | _ => 0

/-- The limit test is made of the result (R266, R267, Table 7.9). -/
def MeasOut.tested (o : MeasOut) (d : MeasDesc) : Bool := d.action != 0 && d.func != 0x0D && d.func != 0x0F && o.val.isSome

/-- One result of `k` dc: its test, its word, and a limit action where `act` gives one. Within the total of R271 the word
is emitted last, and the action takes the last dc (DESIGN CHOICE, notes/assumptions/18.md). -/
def resultActs (idx : Nat) (d : MeasDesc) (flags : BitVec 12) (k : Nat) (act : Option LibDo) (o : MeasOut) : List LibAct :=
  let all := k + if o.tested d then 6 else 0
  let w := LibDo.emit (resultWord idx d flags o)
  match act.filter fun _ => o.fails d with
  | some a => [{ cost := all - 1, what := w }, { cost := 1, what := a }]
  | none => [{ cost := all, what := w }]

/-- ACTION of a gate result (R268). -/
def gateAct (d : MeasDesc) (close : Int) : Option LibDo :=
  if d.action = 2 then some (.trig close) else if d.action = 3 then some .stop else none

/-- What a gate-scope descriptor asks for at the SUMMARY of a bank. -/
def gateActs (g : ChanCfg) (b : List Dword) (close : Int) (p : Nat × MeasDesc) : List LibAct :=
  (gateOut g b p.2).flatMap (resultActs p.1 p.2 (bankFlags b) (if p.2.func = 0x0D then 6 else gateCost p.2) (gateAct p.2 close))

/-- Violations among the results of a SUMMARY. -/
def gateViolations (g : ChanCfg) (b : List Dword) (ds : List (Nat × MeasDesc)) : Nat :=
  (ds.map fun p => (gateOut g b p.2).countP (·.fails p.2)).sum

/-- ADEV results of a record, each with its descriptor. -/
def adevOuts (ds : List (Nat × MeasDesc)) (a : AdevSt) (taus : List Nat) (tau0 : Nat) : List ((Nat × MeasDesc) × MeasOut) :=
  ds.flatMap fun p => if p.2.func = 0x0E then (a.results taus tau0).map fun o => (p, o) else []

/-- What the library does at CLOSE: ADEV, then LIMCNT with the record's violations (R269, R270). -/
def closeActs (ds : List (Nat × MeasDesc)) (l : LibSt) (taus : List Nat) (tau0 : Nat) : List LibAct :=
  let os := adevOuts ds l.adev taus tau0
  let n := l.viol + os.countP fun q => q.2.fails q.1.2
  os.flatMap (fun q => resultActs q.1.1 q.1.2 l.flags 160 none q.2)
    ++ ds.flatMap fun p =>
      if p.2.func = 0x0F then resultActs p.1 p.2 l.flags 6 none { param := 0, val := some (encodeIn 8 n), cntErr := false } else []

/-- dc of a PHASE event with `j` taus. -/
def phaseCost (j : Nat) : Nat := 14 + 11 * j

/-- The library as its engine starts. -/
def LibSt.init (ch : Nat) : LibSt :=
  { ch := ch, took := 0, acts := [], adev := { hist := [], acc := [] }, first := none, flags := 0, viol := 0 }

/-- The library takes an event: its state, and the dc before it goes on with what it has to do (R244, R262, R263, R271). -/
def LibSt.take (l : LibSt) (g : ChanCfg) (dmem : List (Nat × Dword)) (bank : List Dword) (v : Ev) : LibSt × Nat :=
  let ds := libraryDescs dmem
  let taus := tauTable dmem
  match v.type.toNat with
  | 1 => ({ l with adev := AdevSt.clear taus, first := none, flags := 0, viol := 0 }, 9)
  | 2 => ({ l with acts := closeActs ds l taus (fld g.phsCfg 0 28) }, 8)
  | 4 => ({ l with acts := ds.flatMap (gateActs g bank v.time), flags := l.flags ||| bankFlags bank
                   viol := l.viol + gateViolations g bank ds }, 10)
  | 5 =>
    match ds.find? fun p => p.2.func == 0x0E with
    | none => (l, 9)
    | some p =>
      let t0 := l.first.getD v.time
      ({ l with first := some t0
                adev := l.adev.take taus p.2.pnom (if v.head.getLsbD 0 then none else some (v.time - t0, v.val.toNat)) },
        phaseCost taus.length)
  | _ => (l, 9)

/-- DMEM words that the library reads for an event: the descriptors, and for ADEV the multiplier table (R242). -/
def libraryReads (dmem : List (Nat × Dword)) (v : Ev) : List Nat :=
  let ds := libraryDescs dmem
  if v.type = 2 ∨ v.type = 4 ∨ v.type = 5 then
    (List.range (4 * ds.length + 1)).map (0x10 + ·) ++
      (if v.type ≠ 4 then (List.range ((tauTable dmem).length + 1)).map (0x50 + ·) else [])
  else []

end Sys2Proof.Machine
end

