-- ==== Sys2Proof/Machine/Flags.lean ====
section
/-! DEFINITION. The engine's flags and conditions (R219, R220, R222, Tables 6.2, 6.4a). -/

namespace Sys2Proof.Machine

/-- Z and N of a result. -/
def EngFlags.zn {n : Nat} (f : EngFlags) (r : BitVec n) : EngFlags := { f with z := r == 0, n := r.msb }

/-- Flags after an addition: C the carry out, V when the signed sum does not fit. -/
def addFlags {n : Nat} (a b : BitVec n) : EngFlags :=
  let r := a + b
  { z := r == 0, n := r.msb, c := decide (2 ^ n ≤ a.toNat + b.toNat), v := decide (r.toInt ≠ a.toInt + b.toInt) }

/-- Flags after a subtraction or compare: C the borrow. -/
def subFlags {n : Nat} (a b : BitVec n) : EngFlags :=
  let r := a - b
  { z := r == 0, n := r.msb, c := decide (a.toNat < b.toNat), v := decide (r.toInt ≠ a.toInt - b.toInt) }

/-- Z, N and C after a shift. -/
def EngFlags.shifted {n : Nat} (f : EngFlags) (r : BitVec n) (c : Bool) : EngFlags := { f.zn r with c := c }

/-- Last bit shifted out to the left, to the right: 0 for count 0 and for a count beyond the width (R219, R222). -/
def outLeft {n : Nat} (a : BitVec n) (k : Nat) : Bool := decide (1 ≤ k ∧ k ≤ n) && a.getLsbD (n - k)
def outRight {n : Nat} (a : BitVec n) (k : Nat) : Bool := decide (1 ≤ k ∧ k ≤ n) && a.getLsbD (k - 1)

/-- MUL: C when the unsigned product, V when the signed product, exceeds 64 bits (Table 6.3). -/
def mulFlags (a b : Dword) : EngFlags :=
  let r := a * b
  { z := r == 0, n := r.msb, c := decide (2 ^ 64 ≤ a.toNat * b.toNat), v := decide (r.toInt ≠ a.toInt * b.toInt) }

/-- A condition code holds (Table 6.2); 0xF is reserved. -/
def EngFlags.holds (f : EngFlags) (cond : BitVec 4) : Bool :=
  match cond.toNat with
  | 0 => true
  | 1 => f.z
  | 2 => !f.z
  | 3 => f.n != f.v
  | 4 => f.n == f.v
  | 5 => f.z || f.n != f.v
  | 6 => !f.z && f.n == f.v
  | 7 => f.c
  | 8 => !f.c
  | 9 => f.c || f.z
  | 10 => !f.c && !f.z
  | 11 => f.n
  | 12 => !f.n
  | 13 => f.v
  | 14 => !f.v
  | _ => false

/-- DIVU: quotient, C, V (R224, Table 6.4a). -/
def divU (a : Qword) (b : Dword) : Dword × Bool × Bool :=
  if b = 0 then (BitVec.allOnes 64, true, true)
  else
    let q := a.toNat / b.toNat
    if q < 2 ^ 64 then (BitVec.ofNat 64 q, false, false) else (BitVec.allOnes 64, false, true)

/-- The limits of the signed 64-bit range. -/
def maxS64 : Dword := 0x7FFFFFFFFFFFFFFF
def minS64 : Dword := 0x8000000000000000

/-- DIVS: quotient truncated toward zero, C, V (R224, Table 6.4a). -/
def divS (a : Qword) (b : Dword) : Dword × Bool × Bool :=
  if b = 0 then (if a.msb then minS64 else maxS64, true, true)
  else
    let q := a.toInt.tdiv b.toInt
    if -(2 ^ 63) ≤ q ∧ q < 2 ^ 63 then (BitVec.ofInt 64 q, false, false)
    else (if q < 0 then minS64 else maxS64, false, true)

/-- Number of leading zero bits. -/
def clz64 (a : Dword) : Nat := ((List.range 64).find? fun i => a.getLsbD (63 - i)).getD 64

/-- ANORM: length of the run of bits equal to bit 127, from bit 126 down (Table 6.4). -/
def norm128 (a : Qword) : Nat := ((List.range 127).find? fun i => a.getLsbD (126 - i) != a.msb).getD 127

end Sys2Proof.Machine
end

