-- ==== Sys2Proof/Machine/Operands.lean ====
section
/-! DEFINITION. Operand forms of the engine (R190, R191, R216, R221 to R223, R226): registers, shifts, the data address
space. -/

namespace Sys2Proof.Machine

/-- A general register; G0 reads as zero (R216). -/
def Engine.gr (e : Engine) (i : BitVec 4) : Dword := if i = 0 then 0 else e.g[i.toFin]

/-- Write a general register; a write to G0 is discarded (R216). -/
def Engine.gw (e : Engine) (i : BitVec 4) (v : Dword) : Engine := if i = 0 then e else { e with g := e.g.set i.toFin v }

/-- An accumulator. -/
def Engine.ar (e : Engine) (i : BitVec 3) : Qword := e.a[i.toFin]
def Engine.aw (e : Engine) (i : BitVec 3) (v : Qword) : Engine := { e with a := e.a.set i.toFin v }

def Engine.setFl (e : Engine) (f : EngFlags) : Engine := { e with fl := f }

/-- Shifts of a general register by a count of 0 to 255 (R222). -/
def shl64 (a : Dword) (k : Nat) : Dword := a <<< k
def shr64 (a : Dword) (k : Nat) : Dword := a >>> k
def sar64 (a : Dword) (k : Nat) : Dword := a.sshiftRight k

/-- The count of a register shift: Gb[7:0]. -/
def shiftCount (b : Dword) : Nat := (b.extractLsb' 0 8).toNat

/-- s18, u18 (R217). -/
def s18 (i : BitVec 18) : Dword := i.signExtend 64
def u18 (i : BitVec 18) : Dword := i.setWidth 64

/-- Replace the 16-bit slot h (Table 6.3, MOVK). -/
def slot16 (g : Dword) (h : BitVec 2) (imm : BitVec 16) : Dword :=
  let k := 16 * h.toNat
  (g &&& ~~~((0xFFFF : Dword) <<< k)) ||| (imm.setWidth 64 <<< k)

/-- Where a data address lies (Table 5.3): DMEM word, summary bank and word of it, or nowhere. -/
inductive DataArea where
  | dmem (i : Nat)
  | bank (b i : Nat)
  | bad
deriving DecidableEq, Repr

def dataArea (a : Dword) : DataArea :=
  let n := a.toNat
  if n < 0x400 then .dmem n
  else if 0x800 ≤ n ∧ n < 0xC00 then .bank ((n - 0x800) / 0x100) (n % 0x100)
  else .bad

/-- A word of the data address space; words of a bank beyond 192 read as zero (Table 5.3). -/
def Channel.dataWord (x : Channel) (a : DataArea) : Dword :=
  match a with
  | .dmem i => sget 0 x.eng.dmem i
  | .bank b i => ((x.banks.getD b Bank.reset).words.getD i 0)
  | .bad => 0

/-- The full 64-bit sum of Ga and the sign-extended offset (R226). -/
def Engine.addr (e : Engine) (a : BitVec 4) (off : BitVec 18) : Dword := e.gr a + s18 off

/-- The program counter in dc `n`; where the library's program stands the spec does not give (notes/assumptions/18.md). -/
def Engine.pcAt (e : Engine) (n : Nat) : BitVec 12 :=
  match e.lib with
  | some l => Config.libraryPc l.ch n
  | none => e.pc

end Sys2Proof.Machine
end

