-- ==== Sys2Proof/Machine/Engine.lean ====
section
/-! DEFINITION. The engine's execution (05_compositor.md R193 to R205, 06_compositor_instructions.md R213 to R216,
R227 to R238): the step every instruction shares, faults, watchdogs, starts, events taken. -/

namespace Sys2Proof.Machine

/-! ## Settings (Table 5.9) -/

def Channel.entry (x : Channel) : BitVec 12 := x.engCtl.extractLsb' 20 12
/-- The watchdog's length in dc. -/
def Channel.wdogDc (x : Channel) : Nat := fld x.engCtl 8 8 * 1024
def Channel.emitRate (x : Channel) : Nat := fld x.emitCfg 0 8

/-- The engine executes or waits. -/
def EngState.active (t : EngState) : Bool := t == .run || t == .wait || t == .emitw

/-! ## Watchdogs (R203, R229) -/

/-- dc in which the count of R229 reaches its limit; an engine that waits for its start counts too. -/
def Channel.runawayAt (x : Channel) : Option Nat :=
  if x.eng.st.active || (x.eng.st == .ready && x.eng.startDue.isSome) then x.eng.wdFrom.map fun w => w + x.wdogDc - 1
  else none

/-- dc of the close timeout. -/
def Channel.closeToAt (x : Channel) : Option Nat :=
  if x.eng.st.active && x.rcd.isOpen then x.folder.closePosted.map fun p => max p x.eng.startDc + x.wdogDc else none

/-- A watchdog expires before dc `n`, so that what would end there is abandoned (R238). -/
def Channel.cutBefore (x : Channel) (n : Nat) : Bool :=
  x.runawayAt.any (· < n) || x.closeToAt.any (· < n)

/-- The close timeout expires before dc `n`; taking an event in time ends the count of R229, but not this one. -/
def Channel.closesBy (x : Channel) (n : Nat) : Bool := x.closeToAt.any (· < n)

/-! ## Faults (R205, R238) -/

/-- An engine fault in dc `n`: destinations and flags stay, the queue is emptied, a hold ends, the channel is disarmed,
and its record closes. -/
def State.engineFault (s : State) (c : Chan) (n : Nat) (code : BitVec 4) : State :=
  let s0 := s.at_ (s.dcAt n)
  let s1 := s0.modChan c fun x => { x with
    eng := { x.eng with st := .fault, faultCode := code, faultPc := x.eng.pcAt n, queue := [], wdFrom := none
                        spanOpen := false, tookClose := false, startDue := none }
    folder := { x.folder with held := false, frozen := if s0.writerRoom (pierOf c) then none else x.folder.frozen }
    merge := if x.folder.held then x.merge.rebase n else x.merge }
  let s2 := (s1.raise (chSrc c) 0x08).disarm c (s1.spanVis n) flagFault
  let x := s2.chan c
  if x.folder.closePosted.isSome && x.rcd.isOpen then s2.recordBoundary c n false else s2

/-! ## The step that every instruction shares (R192, R213, R214, R218) -/

/-- One instruction: the word at PC must be the one of this command (notes/assumptions/13.md). `cycles` is its count of
dc, `body` its effect from the dc on which it starts. -/
def State.engStep (s : State) (c : Chan) (i : Instr) (cycles : Nat) (body : Nat → State → State) : State :=
  let x := s.chan c
  let e := x.eng
  let n := e.readyDc
  if !s.chOn c || e.st != .run || e.lib.isSome || x.cutBefore (n + cycles) then s
  else
    let s1 := (s.at_ (s.dcAt n)).modChan c fun x => x.modEng fun e => { e with pcRun := e.pc }
    let err := e.imemErr.lookup e.pc.toNat
    if err = some true then s1.engineFault c n 2
    else
      match decodeEng c (sget 0 e.imem e.pc.toNat) with
      | none => s1.engineFault c n 1
      | some j =>
        if j ≠ i then s
        else body n (if err.isSome then
          s1.modChan c fun x => x.modEng fun e => { e with imemCorr := satAdd e.imemCorr 1 } else s1)

/-- The next instruction starts `k` dc after dc `n`, at the next word. -/
def Engine.advance (e : Engine) (n k : Nat) : Engine := { e with readyDc := n + k, pc := e.pc + 1 }

/-- An instruction whose effect lies within the engine. -/
def State.engOp (s : State) (c : Chan) (i : Instr) (k : Nat) (f : Engine → Engine) : State :=
  s.engStep c i k fun n z => z.modChan c fun x => x.modEng fun e => (f e).advance n k

/-! ## Loads and stores (R191, R192, R226) -/

/-- Addresses of an access: the word, and for 128 bits the next; none where R191 forbids it. -/
def accessOf (a : Dword) (wide store : Bool) : Option (List DataArea) :=
  if wide && a.getLsbD 0 then none
  else
    let l := if wide then [dataArea a, dataArea (a + 1)] else [dataArea a]
    let ok := l.all fun d => match d with
      | .dmem _ => true
      | .bank _ _ => !store
      | .bad => false
    if ok then some l else none

/-- State of the error-correcting code of the words loaded: an uncorrectable one, the number of corrected ones. -/
def Engine.dmemCheck (e : Engine) (l : List DataArea) : Bool × Nat :=
  let r := l.filterMap fun d => match d with
    | .dmem i => e.dmemErr.lookup i
    | _ => none
  (r.any id, (r.filter (! ·)).length)

/-- A load: `f` puts the words loaded into their destination. -/
def State.engLoad (s : State) (c : Chan) (i : Instr) (wide : Bool) (addr : Engine → Dword)
    (f : List Dword → Engine → Engine) : State :=
  s.engStep c i 2 fun n z =>
    let x := z.chan c
    match accessOf (addr x.eng) wide false with
    | none => z.engineFault c n 4
    | some l =>
      let k := x.eng.dmemCheck l
      if k.1 then z.engineFault c n 3
      else z.setChan c (x.modEng fun e =>
        (f (l.map x.dataWord) { e with dmemCorr := satAdd e.dmemCorr k.2 }).advance n 2)

/-- Store a word in DMEM: a full word, which leaves no error behind (notes/assumptions/13.md). -/
def Engine.putDmem (e : Engine) (d : DataArea) (v : Dword) : Engine :=
  match d with
  | .dmem i => { e with dmem := sset 0 e.dmem i v, dmemErr := e.dmemErr.filter fun p => p.1 != i }
  | _ => e

/-- A store of `k` dc: `f` gives the words to store. -/
def State.engStore (s : State) (c : Chan) (i : Instr) (wide : Bool) (k : Nat) (addr : Engine → Dword)
    (f : Engine → List Dword) : State :=
  s.engStep c i k fun n z =>
    let x := z.chan c
    match accessOf (addr x.eng) wide true with
    | none => z.engineFault c n 4
    | some l => z.setChan c (x.modEng fun e => ((l.zip (f e)).foldl (fun e p => e.putDmem p.1 p.2) e).advance n k)

/-! ## Taking events (R194, R227, R229, R231) -/

/-- HEAD of an event as the engine reads it. -/
def Ev.headWord (v : Ev) : Dword := v.type ++ v.head

/-- The engine takes the oldest event in dc `n` and writes it to G[d], G[d + 1], G[d + 2]. Every summary bank that neither
this event nor a queued one names is free (R194). -/
def Channel.takeEvent (x : Channel) (n : Nat) (d : BitVec 4) : Channel :=
  match x.eng.queue with
  | [] => x
  | v :: rest =>
    let e := x.eng
    let named := (x.eng.queue.filter (·.type == 4)).map fun u => u.head.toNat % 4
    let banks := x.banks.mapIdx fun b k => { k with held := k.held && named.contains b }
    let e1 := ((e.gw d v.headWord).gw (d + 1) (stamp64 v.time)).gw (d + 2) v.val
    let opens := v.type == 1
    let e2 := { e1 with
      queue := rest, wdFrom := if rest.isEmpty then none else some (n + 1), lastTime := v.time
      bank := if v.type = 4 then some (v.head.toNat % 4) else none
      spanOpen := opens || (e.spanOpen && v.type != 2), stopped := e.stopped && !opens, spanRec := if opens then v.head.setWidth 16 else e.spanRec
      spanO := if opens then v.time else e.spanO
      spanSteps := if opens then 0 else if v.type = 8 then e.spanSteps + v.val.toInt else e.spanSteps
      tookClose := v.type == 2 || (e.tookClose && !opens) }
    { x with banks := banks, eng := e2 }

/-- EVT (R227, R228): an event that is present is taken and EVT completes 3 dc after its start; on an empty queue the
engine waits, and the record boundary comes if CLOSE has been taken. -/
def State.evt (s : State) (c : Chan) (i : Instr) (d : BitVec 4) : State :=
  s.engStep c i 0 fun n z =>
    let x := z.chan c
    if x.eng.queue.isEmpty then
      let z1 := z.setChan c (x.modEng fun e => { e with st := .wait, evtD := d })
      if x.eng.tookClose && x.rcd.isOpen then z1.recordBoundary c n false else z1
    else if x.closesBy (n + 3) then z
    else z.setChan c ((x.takeEvent n d).modEng fun e => e.advance n 3)

/-- EVT completes 3 dc after the first dc on which the queue holds an event. -/
def State.evtWaitEnd (s : State) (c : Chan) : State :=
  let x := s.chan c
  if s.chOn c && x.eng.st == .wait && !x.eng.queue.isEmpty then
    let n := max (x.eng.wdFrom.getD 0) x.eng.readyDc
    if x.closesBy (n + 3) then s
    else (s.at_ (s.dcAt n)).setChan c ((x.takeEvent n x.eng.evtD).modEng fun e => { e.advance n 3 with st := .run })
  else s

/-- EVTP: as EVT with Z = 0, or Z = 1 and no register written. -/
def State.evtp (s : State) (c : Chan) (i : Instr) (d : BitVec 4) : State :=
  s.engStep c i (bit (s.chan c).eng.queue.isEmpty) fun n z =>
    let x := z.chan c
    if x.eng.queue.isEmpty then
      z.setChan c (x.modEng fun e => { e.setFl { e.fl with z := true } with readyDc := n + 1, pc := e.pc + 1 })
    else if x.closesBy (n + 3) then z
    else z.setChan c ((x.takeEvent n d).modEng fun e => (e.setFl { e.fl with z := false }).advance n 3)

/-! ## EMIT (R200, R230, R234) -/

/-- EMIT with a token passes its word; without one the engine waits in EMITW. -/
def State.emit (s : State) (c : Chan) (i : Instr) (a : BitVec 3) : State :=
  s.engStep c i 1 fun n z =>
    let x := z.chan c
    if x.emitRate = 0 then z.engineFault c n 5
    else if x.eng.tokens = 0 then z.setChan c (x.modEng fun e => { e with st := .emitw, emitA := a })
    else
      z.setChan c ((x.handOther n true (x.eng.ar a)).modEng fun e => { e.advance n 1 with tokens := e.tokens - 1 })

/-- EMIT completes 1 dc after the dc on which a token becomes available. -/
def State.emitwEnd (s : State) (c : Chan) : State :=
  let x := s.chan c
  let n := x.eng.nextRefill - 1024
  if s.chOn c && x.eng.st == .emitw && x.eng.tokens != 0 && !x.cutBefore (n + 1) then
    (s.at_ (s.dcAt n)).setChan c ((x.handOther n true (x.eng.ar x.eng.emitA)).modEng fun e =>
      { e.advance n 1 with st := .run, tokens := e.tokens - 1 })
  else s

/-- RATE tokens arrive every 1,024 dc from the start; the bucket holds 16. -/
def State.tokenRefill (s : State) (c : Chan) : State :=
  let x := s.chan c
  if s.chOn c && (x.eng.st.active || x.eng.st == .halt) then
    (s.at_ (s.dcAt x.eng.nextRefill)).setChan c (x.modEng fun e =>
      { e with tokens := min 16 (e.tokens + x.emitRate), nextRefill := e.nextRefill + 1024 })
  else s

/-! ## TRIG, STOP, HALT, GSET (R201, R202, R204, R231 to R236) -/

/-- The engine condition is presented to the trigger unit 1 dc later (Table 20.14), within a record span. -/
def Channel.trigger (x : Channel) (n : Nat) (v : Dword) : Channel :=
  if x.eng.spanOpen then
    (x.condsOf 4).foldl (fun y k => y.meet (n + 1) k (stampClamp x.eng.spanO x.eng.lastTime v)) x
  else x

/-- TRIG. -/
def State.trigOp (s : State) (c : Chan) (i : Instr) (a : BitVec 4) : State :=
  s.engStep c i 1 fun n z => z.modChan c fun x => (x.trigger n (x.eng.gr a)).modEng fun e => e.advance n 1

/-- The first STOP of a record span ends the channel's capture in dc `n` (R233). -/
def State.stopIn (s : State) (c : Chan) (n : Nat) : State :=
  let e := (s.chan c).eng
  let z := s.modChan c fun x => x.modEng fun e => { e with stopped := e.stopped || e.spanOpen }
  if e.spanOpen && !e.stopped then z.stop c n else z

/-- STOP. -/
def State.stopOp (s : State) (c : Chan) (i : Instr) : State :=
  s.engStep c i 1 fun n z => (z.modChan c fun x => x.modEng fun e => e.advance n 1).stopIn c n

/-- HALT: queued events are discarded; a CLOSE already posted gives the record boundary. -/
def State.haltOp (s : State) (c : Chan) (i : Instr) : State :=
  s.engStep c i 1 fun n z =>
    let z1 := z.modChan c fun x => x.modEng fun e =>
      { e.advance n 1 with st := .halt, queue := [], wdFrom := none }
    let x := z1.chan c
    if x.folder.closePosted.isSome && x.rcd.isOpen then z1.recordBoundary c n false else z1

/-- GSET: the pending boundary of the engine gate. -/
def State.gset (s : State) (c : Chan) (i : Instr) (a : BitVec 4) : State :=
  s.engStep c i 1 fun n z => z.modChan c fun x =>
    let y := if x.eng.spanOpen && x.gateKind == 2 then
        let now := z.streamTime c n
        let t := stampLater now (x.eng.gr a)
        x.modEng fun e => { e.setFl { e.fl with c := t.isNone } with boundary := some (t.getD now) }
      else x
    y.modEng fun e => e.advance n 1

/-- Table 6.6. -/
def State.sysrValue (s : State) (c : Chan) (n sel : Nat) : Dword :=
  let x := s.chan c
  let e := x.eng
  match sel with
  | 0 => BitVec.ofNat 64 c.val
  | 1 => BitVec.ofNat 64 (pierOf c).val
  | 2 => BitVec.ofNat 64 (x.forme.getD 0)
  | 3 => if e.spanOpen then e.spanRec.setWidth 64 else 0
  | 4 => stamp64 (s.streamTime c n)
  | 5 => BitVec.ofNat 64 (n - e.startDc)
  | 6 => BitVec.ofNat 64 e.queue.length
  | 7 => BitVec.ofNat 64 e.tokens
  | 8 => stamp64 e.spanSteps
  | _ => 0

/-! ## Start, watchdog rows -/

/-- ENGINE_START (R193, R200): the registers are cleared, the bucket holds 16 tokens. -/
def State.engineStart (s : State) (c : Chan) : State :=
  let x := s.chan c
  match x.eng.startDue with
  | none => s
  | some t =>
    if !s.chOn c || !x.engOn then s
    else
      let n := s.dc t
      let e0 := if x.eng.reloadDue.isSome then x.eng.load (s.programFor x) true else x.eng
      (s.at_ t).setChan c { x with eng := { e0 with
        g := Vector.replicate 16 0, a := Vector.replicate 8 0, fl := ⟨false, false, false, false⟩, pc := x.entry
        st := .run, startDue := none, startDc := n, readyDc := n, tokens := 16, nextRefill := n + 1024
        lib := if (s.programFor x).library then some (LibSt.init c.val) else none
        spanOpen := false, stopped := false, spanRec := 0, spanO := 0, spanSteps := 0, lastTime := 0, tookClose := false, bank := none
        boundary := none } }

/-- RUNAWAY (R229). -/
def State.runaway (s : State) (c : Chan) : State :=
  match (s.chan c).runawayAt with
  | some n => if s.chOn c then s.engineFault c n 6 else s
  | none => s

/-- CLOSE_TO (R203): the colophon records the close timeout, and the engine faults. -/
def State.closeTo (s : State) (c : Chan) : State :=
  match (s.chan c).closeToAt with
  | some n => if s.chOn c then (s.recordBoundary c n true).engineFault c n 7 else s
  | none => s

end Sys2Proof.Machine
end

