-- ==== Sys2Proof/Machine/Accumulator.lean ====
section
/-! DEFINITION. Accumulator and divide instructions of the engine (06_compositor_instructions.md, R223, R224, Tables 6.4,
6.4a). -/

namespace Sys2Proof.Machine

/-- The full products. -/
def prodS (a b : Dword) : Qword := a.signExtend 128 * b.signExtend 128
def prodU (a b : Dword) : Qword := a.setWidth 128 * b.setWidth 128

/-- The signed 128-bit value clamped to the signed 64-bit range, and whether it was clamped (Table 6.4, ASAT). -/
def sat64 (a : Qword) : Dword × Bool :=
  if a.toInt < -(2 ^ 63) then (minS64, true)
  else if 2 ^ 63 ≤ a.toInt then (maxS64, true) else (a.setWidth 64, false)

/-- Gd takes a quotient, with Z and N of it and C and V of Table 6.4a. -/
def Engine.quotient (e : Engine) (d : BitVec 4) (q : Dword × Bool × Bool) : Engine :=
  (e.gw d q.1).setFl { z := q.1 == 0, n := q.1.msb, c := q.2.1, v := q.2.2 }

/-- ACLR (Table 6.4). -/
def execAclr (c : Chan) (d : BitVec 3) (s : State) : Host.Outcome State Fault Refusal :=
  .next (s.engOp c (.aclr c d) 1 fun e => e.aw d 0)

/-- AMOVS (Table 6.4). -/
def execAmovs (c : Chan) (d : BitVec 3) (a : BitVec 4) (s : State) : Host.Outcome State Fault Refusal :=
  .next (s.engOp c (.amovs c d a) 1 fun e => e.aw d ((e.gr a).signExtend 128))

/-- AADDG (Table 6.4). -/
def execAaddg (c : Chan) (d : BitVec 3) (a : BitVec 4) (s : State) : Host.Outcome State Fault Refusal :=
  .next (s.engOp c (.aaddg c d a) 1 fun e => 
    let k : Qword := (e.gr a).signExtend 128
    (e.aw d (e.ar d + k)).setFl (addFlags (e.ar d) k))

/-- MULS: the full product (Table 6.4). -/
def execMuls (c : Chan) (d : BitVec 3) (a b : BitVec 4) (s : State) : Host.Outcome State Fault Refusal :=
  .next (s.engOp c (.muls c d a b) 2 fun e => 
    let r := prodS (e.gr a) (e.gr b)
    (e.aw d r).setFl (e.fl.zn r))

/-- MULU: the full product (Table 6.4). -/
def execMulu (c : Chan) (d : BitVec 3) (a b : BitVec 4) (s : State) : Host.Outcome State Fault Refusal :=
  .next (s.engOp c (.mulu c d a b) 2 fun e => 
    let r := prodU (e.gr a) (e.gr b)
    (e.aw d r).setFl (e.fl.zn r))

/-- MACS (Table 6.4). -/
def execMacs (c : Chan) (d : BitVec 3) (a b : BitVec 4) (s : State) : Host.Outcome State Fault Refusal :=
  .next (s.engOp c (.macs c d a b) 2 fun e => 
    let p := prodS (e.gr a) (e.gr b)
    (e.aw d (e.ar d + p)).setFl (addFlags (e.ar d) p))

/-- MACU (Table 6.4). -/
def execMacu (c : Chan) (d : BitVec 3) (a b : BitVec 4) (s : State) : Host.Outcome State Fault Refusal :=
  .next (s.engOp c (.macu c d a b) 2 fun e => 
    let p := prodU (e.gr a) (e.gr b)
    (e.aw d (e.ar d + p)).setFl (addFlags (e.ar d) p))

/-- AADD (Table 6.4). -/
def execAadd (c : Chan) (d a b : BitVec 3) (s : State) : Host.Outcome State Fault Refusal :=
  .next (s.engOp c (.aadd c d a b) 1 fun e => 
    (e.aw d (e.ar a + e.ar b)).setFl (addFlags (e.ar a) (e.ar b)))

/-- ASUB (Table 6.4). -/
def execAsub (c : Chan) (d a b : BitVec 3) (s : State) : Host.Outcome State Fault Refusal :=
  .next (s.engOp c (.asub c d a b) 1 fun e => 
    (e.aw d (e.ar a - e.ar b)).setFl (subFlags (e.ar a) (e.ar b)))

/-- ASHR (Table 6.4). -/
def execAshr (c : Chan) (d a : BitVec 3) (count : BitVec 7) (s : State) : Host.Outcome State Fault Refusal :=
  .next (s.engOp c (.ashr c d a count) 1 fun e => 
    let r := (e.ar a).sshiftRight count.toNat
    (e.aw d r).setFl (e.fl.shifted r (outRight (e.ar a) count.toNat)))

/-- ASHL (Table 6.4). -/
def execAshl (c : Chan) (d a : BitVec 3) (count : BitVec 7) (s : State) : Host.Outcome State Fault Refusal :=
  .next (s.engOp c (.ashl c d a count) 1 fun e => 
    let r := e.ar a <<< count.toNat
    (e.aw d r).setFl (e.fl.shifted r (outLeft (e.ar a) count.toNat)))

/-- AGET (Table 6.4). -/
def execAget (c : Chan) (d : BitVec 4) (a : BitVec 3) (h : BitVec 1) (s : State) : Host.Outcome State Fault Refusal :=
  .next (s.engOp c (.aget c d a h) 1 fun e => 
    e.gw d ((e.ar a).extractLsb' (64 * h.toNat) 64))

/-- ASAT (Table 6.4). -/
def execAsat (c : Chan) (d : BitVec 4) (a : BitVec 3) (s : State) : Host.Outcome State Fault Refusal :=
  .next (s.engOp c (.asat c d a) 1 fun e => 
    let r := sat64 (e.ar a)
    (e.gw d r.1).setFl { e.fl.zn r.1 with v := r.2 })

/-- ANORM (Table 6.4). -/
def execAnorm (c : Chan) (d : BitVec 4) (a : BitVec 3) (s : State) : Host.Outcome State Fault Refusal :=
  .next (s.engOp c (.anorm c d a) 1 fun e => 
    let r : Dword := BitVec.ofNat 64 (norm128 (e.ar a))
    (e.gw d r).setFl { e.fl with z := r == 0 })

/-- ACMP (Table 6.4). -/
def execAcmp (c : Chan) (a b : BitVec 3) (s : State) : Host.Outcome State Fault Refusal :=
  .next (s.engOp c (.acmp c a b) 1 fun e => e.setFl (subFlags (e.ar a) (e.ar b)))

/-- APACK (Table 6.4). -/
def execApack (c : Chan) (d : BitVec 3) (a b : BitVec 4) (s : State) : Host.Outcome State Fault Refusal :=
  .next (s.engOp c (.apack c d a b) 1 fun e => e.aw d (e.gr a ++ e.gr b))

/-- DIVU: 34 dc (R224). -/
def execDivu (c : Chan) (d : BitVec 4) (a : BitVec 3) (b : BitVec 4) (s : State) : Host.Outcome State Fault Refusal :=
  .next (s.engOp c (.divu c d a b) 34 fun e => e.quotient d (divU (e.ar a) (e.gr b)))

/-- DIVS: 34 dc (R224). -/
def execDivs (c : Chan) (d : BitVec 4) (a : BitVec 3) (b : BitVec 4) (s : State) : Host.Outcome State Fault Refusal :=
  .next (s.engOp c (.divs c d a b) 34 fun e => e.quotient d (divS (e.ar a) (e.gr b)))

end Sys2Proof.Machine
end

