-- ==== Sys2Proof/Machine/Library.lean ====
section
/-! DEFINITION. The engine of a forme with the library marker (07_measurements.md, R242 to R271). The spec gives what the
library does and what it costs, and not its instructions: EVT takes an event for it, and EMIT, TRIG and STOP are what it
then executes, in its order (notes/assumptions/18.md). -/

namespace Sys2Proof.Machine

/-- The library goes on at dc `n`. -/
def Engine.libNext (e : Engine) (l : LibSt) (n : Nat) : Engine :=
  { e with st := .run, readyDc := n, lib := some { l with acts := l.acts.drop 1 } }

/-- The library takes the oldest event in dc `n`. -/
def Channel.libTake (x : Channel) (n : Nat) (d : BitVec 4) (l : LibSt) : Channel :=
  match x.eng.queue with
  | [] => x
  | v :: _ =>
    let r := l.take x.cfg x.eng.dmem (x.banks.getD (v.head.toNat % 4) Bank.reset).words v
    (x.takeEvent n d).modEng fun e => { e with st := .run, readyDc := n + r.2, lib := some { r.1 with took := n } }

/-- An event is taken in dc `n`; an uncorrectable error in a word that the library then loads is a fault (R192). -/
def State.libTakeAt (s : State) (c : Chan) (n : Nat) (d : BitVec 4) (l : LibSt) : State :=
  let x := s.chan c
  let k := x.eng.dmemCheck ((x.eng.queue.head?.map (libraryReads x.eng.dmem)).getD [] |>.map DataArea.dmem)
  if x.closesBy (n + 3) then s
  else if k.1 then (s.setChan c (x.takeEvent n d)).engineFault c (n + 3) 3
  else s.setChan c ((x.libTake n d l).modEng fun e => { e with dmemCorr := satAdd e.dmemCorr k.2 })

/-- EVT of the library, once it has nothing more to do for the event before (R227, R270). -/
def State.libEvt (s : State) (c : Chan) (d : BitVec 4) (l : LibSt) : State :=
  let x := s.chan c
  let n := x.eng.readyDc
  if !s.chOn c || x.eng.st != .run || x.cutBefore n || !l.acts.isEmpty then s
  else
    let z := s.at_ (s.dcAt n)
    if x.eng.queue.isEmpty then
      let z1 := z.setChan c (x.modEng fun e => { e with st := .wait, evtD := d })
      if x.eng.tookClose && x.rcd.isOpen then z1.recordBoundary c n false else z1
    else z.libTakeAt c n d l

/-- EVT_WAIT_END of the library. -/
def State.libWaitEnd (s : State) (c : Chan) (l : LibSt) : State :=
  let x := s.chan c
  if s.chOn c && x.eng.st == .wait && !x.eng.queue.isEmpty then
    let n := max (x.eng.wdFrom.getD 0) x.eng.readyDc
    (s.at_ (s.dcAt n)).libTakeAt c n x.eng.evtD l
  else s

/-- What the library has to do next takes `k` dc; `body` is its effect in the last of them. -/
def State.libDue (s : State) (c : Chan) (k : Nat) (body : Nat → State → State) : State :=
  let x := s.chan c
  let n := x.eng.readyDc + k - 1
  if !s.chOn c || x.eng.st != .run || x.cutBefore (n + 1) then s else body n (s.at_ (s.dcAt n))

/-- EMIT of the library (R230, R269, R270). -/
def State.libEmit (s : State) (c : Chan) (l : LibSt) : State :=
  match l.acts with
  | ⟨k, .emit w⟩ :: _ => s.libDue c k fun n z =>
    let x := z.chan c
    if x.emitRate = 0 then z.engineFault c n 5
    else if x.eng.tokens = 0 then z.setChan c (x.modEng fun e => { e with st := .emitw })
    else z.setChan c ((x.handOther n true w).modEng fun e => { e.libNext l (n + 1) with tokens := e.tokens - 1 })
  | _ => s

/-- EMITW_END of the library. -/
def State.libEmitEnd (s : State) (c : Chan) (l : LibSt) : State :=
  let x := s.chan c
  let n := x.eng.nextRefill - 1024
  match l.acts with
  | ⟨_, .emit w⟩ :: _ =>
    if s.chOn c && x.eng.st == .emitw && x.eng.tokens != 0 && !x.cutBefore (n + 1) then
      (s.at_ (s.dcAt n)).setChan c ((x.handOther n true w).modEng fun e =>
        { e.libNext l (n + 1) with tokens := e.tokens - 1 })
    else s
  | _ => s

/-- TRIG of the library, with the gate's close time (R268). -/
def State.libTrig (s : State) (c : Chan) (l : LibSt) : State :=
  match l.acts with
  | ⟨k, .trig t⟩ :: _ => s.libDue c k fun n z =>
    z.modChan c fun x => (x.trigger n (stamp64 t)).modEng fun e => e.libNext l (n + 1)
  | _ => s

/-- STOP of the library (R268). -/
def State.libStop (s : State) (c : Chan) (l : LibSt) : State :=
  match l.acts with
  | ⟨k, .stop⟩ :: _ => s.libDue c k fun n z => (z.modChan c fun x => x.modEng fun e => e.libNext l (n + 1)).stopIn c n
  | _ => s

end Sys2Proof.Machine
end

