-- ==== Sys2Proof/Machine/Control.lean ====
section
/-! DEFINITION. Memory, control and channel instructions of the engine (06_compositor_instructions.md, R225 to R237,
Table 6.5), and the engine's timed rows. -/

namespace Sys2Proof.Machine

/-- PC after a branch by OFF (R214). -/
def Engine.jump (e : Engine) (n k : Nat) (pc : BitVec 12) : Engine := { e with readyDc := n + k, pc := pc }

/-- EVT (R227). -/
def execEvt (c : Chan) (d : BitVec 4) (s : State) : Host.Outcome State Fault Refusal :=
  .next (match (s.chan c).eng.lib with
    | some l => s.libEvt c d l
    | none => s.evt c (.evt c d) d)

/-- EVT_WAIT_END (R227). -/
def execEvtWaitEnd (c : Chan) (s : State) : Host.Outcome State Fault Refusal :=
  .next (match (s.chan c).eng.lib with
    | some l => s.libWaitEnd c l
    | none => s.evtWaitEnd c)

/-- EVTP (R228). -/
def execEvtp (c : Chan) (d : BitVec 4) (s : State) : Host.Outcome State Fault Refusal :=
  .next (s.evtp c (.evtp c d) d)

/-- EMIT (R200). -/
def execEmit (c : Chan) (a : BitVec 3) (s : State) : Host.Outcome State Fault Refusal :=
  .next (match (s.chan c).eng.lib with
    | some l => s.libEmit c l
    | none => s.emit c (.emit c a) a)

/-- EMITW_END (R230). -/
def execEmitwEnd (c : Chan) (s : State) : Host.Outcome State Fault Refusal :=
  .next (match (s.chan c).eng.lib with
    | some l => s.libEmitEnd c l
    | none => s.emitwEnd c)

/-- TOKEN_REFILL (R200). -/
def execTokenRefill (c : Chan) (s : State) : Host.Outcome State Fault Refusal :=
  .next (s.tokenRefill c)

/-- TRIG (R232). -/
def execTrig (c : Chan) (a : BitVec 4) (s : State) : Host.Outcome State Fault Refusal :=
  .next (match (s.chan c).eng.lib with
    | some l => s.libTrig c l
    | none => s.trigOp c (.trig c a) a)

/-- LD (R226). -/
def execLd (c : Chan) (d a : BitVec 4) (off : BitVec 18) (s : State) : Host.Outcome State Fault Refusal :=
  .next (s.engLoad c (.ld c d a off) false (fun e => e.addr a off) fun l e => e.gw d (l.getD 0 0))

/-- ST (R226). -/
def execSt (c : Chan) (d a : BitVec 4) (off : BitVec 18) (s : State) : Host.Outcome State Fault Refusal :=
  .next (s.engStore c (.st c d a off) false 1 (fun e => e.addr a off) fun e => [e.gr d])

/-- LDA (R226). -/
def execLda (c : Chan) (d : BitVec 3) (a : BitVec 4) (off : BitVec 18) (s : State) : Host.Outcome State Fault Refusal :=
  .next (s.engLoad c (.lda c d a off) true (fun e => e.addr a off) fun l e => e.aw d (l.getD 1 0 ++ l.getD 0 0))

/-- STA (R226). -/
def execSta (c : Chan) (d : BitVec 3) (a : BitVec 4) (off : BitVec 18) (s : State) : Host.Outcome State Fault Refusal :=
  .next (s.engStore c (.sta c d a off) true 2 (fun e => e.addr a off) fun e =>
    [(e.ar d).setWidth 64, (e.ar d).extractLsb' 64 64])

/-- STOP (R202). -/
def execStop (c : Chan) (s : State) : Host.Outcome State Fault Refusal :=
  .next (match (s.chan c).eng.lib with
    | some l => s.libStop c l
    | none => s.stopOp c (.stop c))

/-- HALT (R204). -/
def execHalt (c : Chan) (s : State) : Host.Outcome State Fault Refusal :=
  .next (s.haltOp c (.halt c))

/-- GSET (R235, R236). -/
def execGset (c : Chan) (a : BitVec 4) (s : State) : Host.Outcome State Fault Refusal :=
  .next (s.gset c (.gset c a) a)

/-- SYSR (R237). -/
def execSysr (c : Chan) (d : BitVec 4) (sel : BitVec 18) (s : State) : Host.Outcome State Fault Refusal :=
  .next (s.engStep c (.sysr c d sel) 1 fun n z =>
    let v := z.sysrValue c n sel.toNat
    z.modChan c fun x => x.modEng fun e => (e.gw d v).advance n 1)

/-- B (Table 6.5). -/
def execB (c : Chan) (cond : BitVec 4) (off : BitVec 12) (s : State) : Host.Outcome State Fault Refusal :=
  .next (
    let k := if (s.chan c).eng.fl.holds cond then 2 else 1
    s.engStep c (.b c cond off) k fun n z => z.modChan c fun x => x.modEng fun e =>
      if e.fl.holds cond then e.jump n 2 (e.pc + off) else e.advance n 1)

/-- BL (Table 6.5). -/
def execBl (c : Chan) (off : BitVec 12) (s : State) : Host.Outcome State Fault Refusal :=
  .next (s.engStep c (.bl c off) 2 fun n z => z.modChan c fun x => x.modEng fun e =>
    (e.gw 15 ((e.pc + 1).setWidth 64)).jump n 2 (e.pc + off))

/-- JR (Table 6.5). -/
def execJr (c : Chan) (a : BitVec 4) (s : State) : Host.Outcome State Fault Refusal :=
  .next (s.engStep c (.jr c a) 2 fun n z => z.modChan c fun x => x.modEng fun e =>
    e.jump n 2 ((e.gr a).setWidth 12))

/-- ENGINE_START (R193). -/
def execEngineStart (c : Chan) (s : State) : Host.Outcome State Fault Refusal :=
  .next (s.engineStart c)

/-- RUNAWAY (R229). -/
def execRunaway (c : Chan) (s : State) : Host.Outcome State Fault Refusal :=
  .next (s.runaway c)

/-- CLOSE_TO (R203). -/
def execCloseTo (c : Chan) (s : State) : Host.Outcome State Fault Refusal :=
  .next (s.closeTo c)

end Sys2Proof.Machine
end

