-- ==== Sys2Proof/Machine/Trims.lean ====
section
/-! DEFINITION. Trim (13_trim.md): selection of cells and their figures, checks, the trim window, bands and staleness.
Widths are in 10^-18 s: 12.5 ps is 12,500,000 of them, a step 390,625. -/

namespace Sys2Proof.Machine

def tapIdeal : Nat := 12500000
def stepIdeal : Nat := 390625

/-! ## Selection (R447, R448, R451) -/

/-- Distance of two widths. -/
def dist (a b : Nat) : Nat := max a b - min a b

/-- Put a cell in order of distance from the ideal width, equal ones by physical index. -/
def insertCell (ideal : Nat) (c : Nat × Nat) : List (Nat × Nat) → List (Nat × Nat)
  | [] => [c]
  | d :: t => if dist c.2 ideal < dist d.2 ideal then c :: d :: t else d :: insertCell ideal c t

/-- Indices of the `k` cells nearest to the ideal width; of equally near ones the lower index. -/
def nearestCells (ideal k : Nat) (ws : List Nat) : List Nat :=
  (((ws.mapIdx fun i w => (i, w)).foldl (fun l c => insertCell ideal c l) []).take k).map (·.1)

/-- Widths of the selected cells in ascending physical order. -/
def selected (ws sel : List Nat) : List Nat := (ws.mapIdx fun i w => (i, w)).filterMap fun c =>
  if sel.contains c.1 then some c.2 else none

/-- A selection mask. -/
def cellMask (n : Nat) (sel : List Nat) : BitVec n := BitVec.ofNat n (sel.foldl (fun a i => a + 2 ^ i) 0)

/-- Widths u_c of the 2,048 codes (R447). -/
def codeWidths (taps steps : List Nat) : List Int :=
  let low := steps.take 31
  let sum : Int := (low.foldl (· + ·) 0 : Nat)
  taps.flatMap fun (w : Nat) => low.map Int.ofNat ++ [Int.ofNat w - sum]

/-! ## Figures (R449, R450) -/

/-- The figures of an interpolator: SPAN, the greatest abs(u - ideal), MONO, the sum of the squares of twice the
integral errors, HITS. -/
structure Figures where
  span : Nat
  dnl : Nat
  mono : Bool
  inl2 : Nat
  hits : Nat
deriving DecidableEq, Repr

def figuresOf (m : CellMeas) : Figures :=
  let taps := selected m.delay (nearestCells tapIdeal 64 m.delay)
  let steps := selected m.vernier (nearestCells stepIdeal 32 m.vernier)
  let us := codeWidths taps steps
  let acc := us.foldl (fun (a : Int × Nat × Nat) u =>
    let e := 2 * a.1 + u - (2 * a.2.1 + 1) * stepIdeal
    (a.1 + u, a.2.1 + 1, a.2.2 + e.natAbs * e.natAbs)) (0, 0, 0)
  { span := taps.foldl (· + ·) 0, dnl := us.foldl (fun a u => max a (u - (stepIdeal : Int)).natAbs) 0, mono := us.any (· ≤ 0)
    inl2 := acc.2.2, hits := m.hits }

/-- INL in fs: root of the mean of the squares of half the sum's terms. -/
def Figures.inlFs (f : Figures) : Nat := Nat.sqrt (f.inl2 / 8192) / 1000

/-- CMP.TRM_FIGA, CMP.TRM_FIGB (Table 13.8). -/
def Figures.figA (f : Figures) : Word := pack 32 [(16, satNat 16 f.inlFs), (0, satNat 10 (f.dnl * 256 / stepIdeal))]
def Figures.figB (f : Figures) : Word :=
  let d : Int := (f.span / 1000 : Nat) - 800000
  pack 32 [(16, (BitVec.ofInt 16 (max (-32767) (min d 32767))).toNat), bitAt 8 f.mono, (0, satNat 8 (f.hits / 4096))]

/-- Sum and sum of squares of PONG - PING over the shared edges. -/
def agreeSums (l : List Int) : Int × Nat := (l.foldl (· + ·) 0, l.foldl (fun a d => a + d.natAbs * d.natAbs) 0)

/-- CMP.TRM_AGREE. -/
def agreeWord (l : List Int) : Word :=
  let n := max l.length 1
  let s := agreeSums l
  let rms := Nat.sqrt (s.2 * stepIdeal * stepIdeal / n) / 1000
  let mean := (s.1 * stepIdeal).tdiv (1000 * (n : Int))
  pack 32 [(16, satNat 16 rms), (0, (BitVec.ofInt 16 mean).toNat)]

/-! ## Checks (R452) -/

/-- The reason code of the first failing row of Table 13.2, 0 when all pass. -/
def cellsReason (fs : List Figures) (agH agL : List Int) : BitVec 4 :=
  let agree := fun (l : List Int) =>
    let s := agreeSums l
    s.1.natAbs ≤ l.length && s.2 * stepIdeal * stepIdeal ≤ l.length * 1000000000000
  if fs.any (·.hits < 200000) then 1
  else if fs.any fun f => f.span < 784000000 || 816000000 < f.span then 2
  else if fs.any (·.mono) then 4
  else if fs.any fun f => 3 * stepIdeal ≤ 5 * f.dnl then 3
  else if !(agree agH && agree agL) then 5
  else 0

/-! ## Rows of the window (Table 13.4) -/

/-- The first reason of a trim that fails stands. -/
def Trim.fail (t : Trim) (code : BitVec 4) : Trim := if t.failReason = 0 then { t with failReason := code } else t

/-- ACQUISITION_END: at 1,562,500 sc selection, figures and checks. -/
def State.acquisitionEnd (s : State) (c : Chan) (cells : List CellMeas) (agH agL : List Int) : State :=
  let x := s.chan c
  let t := x.trim
  if !t.running then s
  else
    let s1 := s.at_ (t.w0 + 1562500 * scUnits)
    if !t.pendCells || t.cellsOk then s1
    else
      let fs := cells.map figuresOf
      let f := fun i => fs.getD i ⟨0, 0, false, 0, 0⟩
      let code := cellsReason fs agH agL
      let figs := ((List.range 4).flatMap fun i => [(f i).figA, (f i).figB]) ++ [agreeWord agH, agreeWord agL]
      let trial : TrimTable :=
        { cv := true, dv := false, leadH := (f 1).inl2 < (f 0).inl2, leadL := (f 3).inl2 < (f 2).inl2, gen := 0
          masks := cells.map fun m => (cellMask 80 (nearestCells tapIdeal 64 m.delay),
            cellMask 40 (nearestCells stepIdeal 32 m.vernier))
          deskewH := 0, deskewL := 0, figs := figs }
      let t1 := { t with figs := figs, trial := trial, cellsOk := code == 0 }
      s1.setChan c { x with trim := if code = 0 then t1 else t1.fail code }

/-- DESKEW_PHASE: at 1,875,000 sc the receivers reconnect; DESKEW alone needs a cells table of the band. -/
def State.deskewPhase (s : State) (c : Chan) : State :=
  let x := s.chan c
  let t := x.trim
  if !t.running then s
  else
    let s1 := s.at_ (t.w0 + 1875000 * scUnits)
    if !t.pendDeskew then s1
    else
      let t1 := if !t.pendCells && !(t.table t.b0.toNat).cv then t.fail 0xC else t
      s1.setChan c { x with trim := if s.tb.st = .locked then t1 else t1.fail 8 }

/-- The square of the rms of some numbers about their mean, times the square of how many they are. -/
def variance (ds : List Int) : Nat :=
  ds.length * ds.foldl (fun a d => a + d.natAbs * d.natAbs) 0 - (ds.foldl (· + ·) 0).natAbs ^ 2

/-- Measured deskew of a lane, the variance of its d_i times the square of their number, and that number (R458). -/
def measureDeskew (p : Nat) (stamps : List Int) : Int × Nat × Nat :=
  let ds := stamps.map (stepOf p)
  (meanRound ds, variance ds, ds.length)

/-- The rms of a lane's d_i is above 26 LSB (Table 13.3). -/
def spreadWide (m : Int × Nat × Nat) : Bool := 676 * m.2.2 ^ 2 < m.2.1

/-- CMP.TRM_DSKM. -/
def dskmWord (m : Int × Nat × Nat) : Word :=
  pack 32 [(24, satNat 8 (Nat.sqrt (m.2.1 / m.2.2 ^ 2))), (16, satNat 8 (m.2.2 / 256)), (0, (BitVec.ofInt 14 m.1).toNat)]

/-- The measured value as the table holds it; a value outside R63 keeps its excess, so that DSKC shows the clamp. -/
def deskewStore (m : Int) : BitVec 14 := BitVec.ofInt 14 (clampS 14 m)

/-- The next generation (R463). -/
def nextGen (g : BitVec 16) : BitVec 16 := if g = 0xFFFF then 1 else g + 1

/-- TRIM_WINDOW_END: at 2,500,000 sc the results enter the store or are discarded, the current band's table comes into
force, and the channel is re-armed where R461 allows it. -/
def State.trimWindowEnd (s : State) (c : Chan) (edgesH edgesL : List Int) : State :=
  let x := s.chan c
  let t := x.trim
  if !t.running then s
  else
    let e := t.w0 + 2500000 * scUnits
    let s1 := s.at_ e
    let mh := measureDeskew s.tb.refP edgesH
    let ml := measureDeskew s.tb.refP edgesL
    let t1 := if t.pendDeskew then
        let t2 := if mh.2.2 < 1024 ∨ ml.2.2 < 1024 then t.fail 6
          else if spreadWide mh ∨ spreadWide ml then t.fail 7 else t
        let t3 := if s.tb.st = .locked then t2 else t2.fail 8
        { t3 with dskmH := dskmWord mh, dskmL := dskmWord ml }
      else t
    let t2 := if t1.pendCells && !t1.cellsOk then t1.fail 1 else t1
    let ok := t2.failReason == 0
    let old := t2.table t2.b0.toNat
    let gen := s.nvm.tgen
    let base := if t2.pendCells then
        { t2.trial with dv := old.dv, deskewH := old.deskewH, deskewL := old.deskewL }
      else old
    let new := if t2.pendDeskew then
        { base with dv := true, deskewH := deskewStore mh.1, deskewL := deskewStore ml.1 }
      else base
    let t3 : Trim := { t2 with
      running := false, staged := true, result := if ok then 1 else 2, reason := t2.failReason
      store := if ok then setAt t2.store t2.b0.toNat { new with gen := gen } else t2.store
      lastGen := if ok then gen else t2.lastGen, supply := t2.supply && !(ok && t2.pendCells) }
    let s2 := s1.setChan c { x with trim := t3 }
    let s3 := if ok then { s2 with nvm := { s2.nvm with tgen := nextGen gen } } else s2.raise (chSrc c) 0x40
    let s4 := s3.settleIdle c
    let y := s4.chan c
    if t.wasArmed && !t.wasHeld && !y.armed && s4.chOn c && s4.bound c && (s4.placeFor c y.cfg none).isSome then
      s4.armAtInstant c e
    else s4

/-! ## CALIBRATE, bands, staleness (R454, R464, R466) -/

/-- A trim becomes pending on a channel; it replaces one that is still pending. -/
def State.calibrate (s : State) (c : Chan) (cells deskew : Bool) : State :=
  (s.modChan c fun x => { x with trim := { x.trim with pending := true, pendCells := cells, pendDeskew := deskew } }).settleIdle c

/-- Set a stale reason: the source is raised with TRIM_STALE, which is a level (R576, R577), and an open record carries
STALE. -/
def State.setStale (s : State) (c : Chan) (f : Trim → Trim) : State :=
  let s1 := s.modChan c fun x =>
    { x with trim := f x.trim, rcd := if x.rcd.isOpen then { x.rcd with flags := x.rcd.flags ||| flagStale } else x.rcd }
  if (s.chan c).trim.stale then s1 else s1.raise (chSrc c) 0x80

/-- The channel's band becomes `b`: a switch is staged. -/
def State.bandChange (s : State) (c : Chan) (b : Nat) : State :=
  let s1 := s.modChan c fun x => { x with trim := { x.trim with staged := true } }
  let s2 := if ((s.chan c).trim.table b).cv then s1 else s1.setStale c fun t => { t with bandst := true }
  s2.settleIdle c

/-! ## Registers (Table 13.9) -/

def Trim.stat (t : Trim) : Word :=
  let state := if t.running then 2 else if t.pending then 1 else 0
  let bits := fun (f : TrimTable → Bool) => (List.range 4).map fun b => bitAt b (f (t.table b))
  let shift := fun (k : Nat) (l : List (Nat × Nat)) => l.map fun p => (p.1 + k, p.2)
  pack 32 ([(28, state), bitAt 27 ((t.running || t.pending) && t.pendCells), bitAt 26 ((t.running || t.pending) && t.pendDeskew),
    (24, t.result.toNat), (20, t.reason.toNat), (16, t.inForce.getD 0), bitAt 10 t.notrim, bitAt 9 t.bandst,
    bitAt 8 t.supply] ++ shift 4 (bits (·.dv)) ++ bits (·.cv))

/-- CMP.TRM_GEN. -/
def Trim.genWord (t : Trim) : Word :=
  pack 32 [(16, t.lastGen.toNat), (0, match t.inForce with | some b => (t.table b).gen.toNat | none => 0)]

/-! ## Meanings -/

def execAcquisitionEnd (c : Chan) (cells : List CellMeas) (agH agL : List Int) (s : State) :
    Host.Outcome State Fault Refusal :=
  .next (s.acquisitionEnd c cells agH agL)
def execDeskewPhase (c : Chan) (s : State) : Host.Outcome State Fault Refusal := .next (s.deskewPhase c)
def execTrimWindowEnd (c : Chan) (edgesH edgesL : List Int) (s : State) : Host.Outcome State Fault Refusal :=
  .next (s.trimWindowEnd c edgesH edgesL)

end Sys2Proof.Machine
end

