-- ==== Sys2Proof/Machine/Domains.lean ====
section
/-! DEFINITION. Power domains: switching on and off, shedding's switch-offs, the power-good check
(15_modes_and_power_up.md, R531 to R533; 01_architecture.md, R47 to R51). -/

namespace Sys2Proof.Machine

/-! ## Requests (R48, R531) -/

def allPiers : List Pier := List.finRange 8
def allDoms : List Dom := List.finRange 104

/-- Channels of a pier. -/
def chansOf (k : Pier) : List Chan := allChans.filter fun c => pierOf c == k

/-- Switch-ons in progress, and requests that wait. -/
def State.turningOn (s : State) : Nat :=
  allDoms.countP fun d => match s.dom d with | .turningOn _ => true | _ => false
def State.waitingDoms (s : State) : Nat := allDoms.countP fun d => s.dom d == .waiting

/-- The pier domain that a domain needs (R48). -/
def State.pierReady (s : State) (d : Dom) : Bool :=
  if h : d.val < 96 then s.pierOn (pierOf ⟨d.val, h⟩) else true

/-- The first mc edge at or after now. -/
def State.nowMc (s : State) : Nat := s.mc (s.clocks.mgmt.next s.now)

/-- Requests that wait start in ascending domain index, at most eight at once. -/
def State.pumpOn (s : State) : State :=
  let m := s.nowMc
  allDoms.foldl (fun z d =>
    if z.dom d == .waiting && z.pierReady d && z.turningOn < 8 then z.setDom d (.turningOn m) else z) s

/-- The channel is on the shed list while shedding lasts. -/
def State.shedHeld (s : State) (d : Dom) : Bool := s.thm.shedFrom.isSome && d.val < 96 && s.thm.shed.getLsbD d.val

/-- The management core requests a switch-on. A domain that is switching off switches on again afterwards; a shed channel
stays off until SHED ends (Table 18.2). -/
def State.askOn (s : State) (d : Dom) : State :=
  if s.shedHeld d then s
  else match s.dom d with
    | .off => s.setDom d .waiting
    | .turningOff _ => { s with pwr := { s.pwr with cycle := if s.pwr.cycle.contains d.val then s.pwr.cycle else s.pwr.cycle ++ [d.val] } }
    | _ => s

def State.requestOn (s : State) (ds : List Dom) : State := (ds.foldl State.askOn s).pumpOn

/-! ## Pier switch-off (R48, R531, R621, Table 14.10, Table 17.4) -/

/-- The power map of the forme in force has the domain. -/
def State.inPowerMap (s : State) (d : Dom) : Bool :=
  match s.nvm.powerForme.bind s.formeOf with
  | some f => f.power.getLsbD d.val
  | none => false

/-- The pier is to be switched off once its channels are. -/
def State.pierOffWanted (s : State) (k : Pier) : Bool :=
  s.pwr.cycle.contains (96 + k.val) || !s.inPowerMap (pierDom k)
    || (chansOf k).any fun c => s.shedHeld (chDom c)

/-- All twelve channel domains are off. -/
def State.chansOff (s : State) (k : Pier) : Bool := (chansOf k).all fun c => s.dom (chDom c) == .off

/-- WPk has presented every word it holds; a frozen vault drops them. -/
def State.writerEmpty (s : State) (k : Pier) : Bool :=
  s.frozen || (s.writers[k].isEmpty && !(s.vlt.reqs.any fun r => r.port == k.val && !r.presented))

/-- The words that a writer holds when its pier goes off in FREEZE are dropped. -/
def State.dropWriter (s : State) (k : Pier) : State :=
  if s.frozen then
    { s with writers := s.writers.set k []
             vlt := { s.vlt with reqs := s.vlt.reqs.filter fun r => r.port != k.val || r.presented } }
  else s

/-- The switch-off of a pier domain is requested as soon as it may be. -/
def State.pierOffCheck (s : State) (k : Pier) : State :=
  if s.pierOn k && s.pierOffWanted k && s.chansOff k && s.writerEmpty k then
    ((s.dropWriter k).modSynth (swOf k) (·.powerOff .parkLow)).setDom (pierDom k) (.turningOff s.nowMc)
  else s

/-! ## Shedding ends its switch-offs (R621) -/

/-- A pier that shedding switches off. -/
def State.shedPier (s : State) (k : Pier) : Bool := s.chansOff k && (chansOf k).any fun c => s.shedHeld (chDom c)

/-- The last shed domain is off. -/
def State.shedComplete (s : State) : Bool :=
  (allChans.all fun c => !s.shedHeld (chDom c) || s.dom (chDom c) == .off)
    && allPiers.all fun k => !s.shedPier k || s.dom (pierDom k) == .off

def State.shedCheck (s : State) : State :=
  if s.thm.shedFrom.isSome && !s.thm.shDone && s.shedComplete then
    ({ s with thm := { s.thm with shDone := true } }).raise 182 0x10
  else s

/-- Every pier that waits for its writer, or for its channels, is looked at again. -/
def State.pierOffAll (s : State) : State := allPiers.foldl State.pierOffCheck s

/-! ## Rows (Table 15.7) -/

/-- POWER_GOOD_CHECK at mc 10,000 of a switch-on (R533). -/
def State.powerGood (s : State) (d : Dom) (good : Bool) : State :=
  match s.dom d with
  | .turningOn m =>
    let s1 := s.at_ (s.mcAt (m + 10000))
    if good then s1
    else
      let s2 := s1.setDom d (.turningOff (m + 10000))
      ({ s2 with pwr := { s2.pwr with pdFail := BitVec.ofNat 7 d.val } }).pumpOn.raise 194 0x01
  | _ => s

/-- The configuration of SWk in the forme in force. -/
def State.sweepOf (s : State) (k : Pier) : Option SweepCfg :=
  (s.nvm.powerForme.bind s.formeOf).bind fun f => f.sweeps[k.val]?

/-- A pier domain comes on: its store refills, and a forme that comes into force with it is a start event of its ramp (R151,
R158); at a later switch-on under the same forme the ramp waits (Table 4.3). -/
def State.pierComesOn (s : State) (k : Pier) : State :=
  match s.sweepOf k with
  | some c =>
    let s1 := s.modSynth (swOf k) fun x => { x.powerOn c s.now with inForce := s.nvm.powerForme }
    if (s.synth (swOf k)).inForce = s.nvm.powerForme then s1 else s1.rampEvent k 2 s.now
  | none => s

/-- The pattern units of the pier clear the bits of a channel's lanes (R278). -/
def State.clearPattern (s : State) (c : Chan) : State :=
  (allChans.filter fun d => pierOf d == pierOf c).foldl (fun z d => z.modChan d fun x =>
    x.modTrg fun t => { t with pat := putFld t.pat (2 * posOf c) 2 0 }) s

/-- A channel domain comes on: its images reload, and everything staged takes effect (R49, R193). A channel that is shed
meanwhile goes off again. -/
def State.chanComesOn (s : State) (c : Chan) : State :=
  let s1 := (((s.clearPattern c).startReload c s.now).modChan c fun x => x.modEng fun e => { e with fresh := true }).settleIdle c
  if s1.shedHeld (chDom c) then (s1.modChan c fun x => { x with shedPend := true }).requestOff c else s1

/-- DOMAIN_ON at mc 15,000. -/
def State.domainOn (s : State) (d : Dom) : State :=
  match s.dom d with
  | .turningOn m =>
    let s1 := (s.at_ (s.mcAt (m + 15000))).setDom d .on
    let s2 := if h : d.val < 96 then s1.chanComesOn ⟨d.val, h⟩ else s1.pierComesOn (Fin.ofNat 8 (d.val - 96))
    s2.pumpOn
  | _ => s

/-- What a domain that has gone off does next: its pier follows, or it switches on again (Table 17.4). -/
def State.afterOff (s : State) (d : Dom) : State :=
  let drop := fun (z : State) (f : Nat → Bool) => { z with pwr := { z.pwr with cycle := z.pwr.cycle.filter fun i => !f i } }
  if h : d.val < 96 then
    let k := pierOf ⟨d.val, h⟩
    if s.pwr.cycle.contains (96 + k.val) then s.pierOffCheck k
    else if s.pwr.cycle.contains d.val then (drop s (· == d.val)).requestOn [d]
    else s.pierOffCheck k
  else
    let k : Pier := Fin.ofNat 8 (d.val - 96)
    let s1 := s.modSynth (swOf k) (·.powerOff .highZ)
    if s1.pwr.cycle.contains d.val then
      let back := (chansOf k).filter fun c => s1.pwr.cycle.contains c.val
      (drop s1 fun i => i == d.val || back.any (·.val == i)).requestOn (d :: back.map chDom)
    else s1

/-- DOMAIN_OFF at mc 1,024. -/
def State.domainOff (s : State) (d : Dom) : State :=
  match s.dom d with
  | .turningOff m => (((s.at_ (s.mcAt (m + 1024))).setDom d .off).afterOff d).shedCheck
  | _ => s

/-! ## Outputs and registers (Tables 15.8, 15.11) -/

/-- What a pin of STIMkA or STIMkB presents: nothing, a level (low is PARK-LOW, R144), or a clock, divided by `div` from its
first rising edge and inverted or not. -/
inductive Stim where
  | highZ
  | level (high : Bool)
  | clock (wave : Wave) (div : Nat) (inverted : Bool)
deriving DecidableEq, Repr

/-- The output path of a sweep synthesizer after the hold selection at `t`, as division and inversion show it (R143, R154). -/
def SynthSt.path (x : SynthSt) (t : Instant) (div : Nat) (inverted : Bool) : Stim :=
  match x.out with
  | .highZ => .highZ
  | .parkLow => .level (decide (t < x.fall) != inverted)
  | .holdDiv | .clock => if t < x.rise then .level (decide (t < x.fall) != inverted) else .clock (x.wave t) div inverted

/-- STIMkA under AEN and STIMkB under BSEL (R143, Table 4.6). -/
def SynthSt.pin (x : SynthSt) (b : Bool) (t : Instant) : Stim :=
  if !b then (if x.cfg.getLsbD 0 then x.path t 1 false else if x.out = .highZ then .highZ else .level false)
  else match fld x.cfg 8 3 with
    | 1 => x.path t 1 false
    | 2 => x.path t 1 true
    | 3 => x.path t 2 false
    | 4 => x.path t 4 false
    | 5 => x.path t 8 false
    | _ => if x.out = .highZ then .highZ else .level false

/-- What STIMkA, or STIMkB, presents at `t`: 128 mc into its switch-off it is high-impedance (Table 15.7). -/
def State.stim (s : State) (k : Pier) (b : Bool) (t : Instant) : Stim :=
  match s.dom (pierDom k) with
  | .on => (s.synth (swOf k)).pin b t
  | .turningOff m => if s.mc t < m + 128 then .level false else .highZ
  | _ => .highZ

/-- PWR.PD_STAT[w], PWR.PD_BUSY. -/
def State.pdStat (s : State) (w : Nat) : Word :=
  pack 32 ((allDoms.filter fun d => d.val / 32 == w).map fun d => bitAt (d.val % 32) (s.dom d == .on))
def State.pdBusy (s : State) : Word := pack 32 [(24, s.turningOn), (16, s.waitingDoms)]

/-! ## Meanings -/

def execPowerGoodCheck (d : Dom) (good : Bool) (s : State) : Host.Outcome State Fault Refusal := .next (s.powerGood d good)
def execDomainOn (d : Dom) (s : State) : Host.Outcome State Fault Refusal := .next (s.domainOn d)
def execDomainOff (d : Dom) (s : State) : Host.Outcome State Fault Refusal := .next (s.domainOff d)

end Sys2Proof.Machine
end

