-- ==== Sys2Proof/Machine/Thermal.lean ====
section
/-! DEFINITION. Thermal management and shedding (18_thermal.md). Readings are in 1/8 °C, T_k in 1/16 °C. -/

namespace Sys2Proof.Machine

/-! ## Sensors (R607 to R610) -/

abbrev SensorIx := Fin 18

def State.sens (s : State) (i : SensorIx) : Sensor := s.thm.sens[i]
def State.setSens (s : State) (i : SensorIx) (x : Sensor) : State :=
  { s with thm := { s.thm with sens := s.thm.sens.set i x } }

/-- The source of a sensor. -/
def senSrc (i : SensorIx) : Source := ⟨164 + i.val, by omega⟩

/-- Die and central sensors. -/
def dieAndCentral : List SensorIx := (List.finRange 18).filter fun i => i.val ≤ 16
def dieSensors : List SensorIx := (List.finRange 18).filter fun i => i.val ≤ 15

/-- The override of sensor i is the reading in force (R599). -/
def State.overridden (s : State) (i : SensorIx) : Bool :=
  match s.tst.tovr[i.val]? with
  | some (en, t) => s.tst.on && en && (s.sens i).reading < 8 * (t.toNat : Int)
  | none => false

/-- The reading in force of sensor i. -/
def State.temp (s : State) (i : SensorIx) : Int :=
  if s.overridden i then 8 * (((s.tst.tovr.getD i.val (false, 0)).2.toNat : Nat) : Int) else (s.sens i).reading

def State.valid (s : State) (i : SensorIx) : Bool := !(s.sens i).broken && !(s.sens i).invalid

/-- Valid die and central sensors. -/
def State.validDie (s : State) : List SensorIx := dieAndCentral.filter s.valid

/-- The die sensor that stands in for neighbour `j` of sensor `i`: the first along the ring that is not broken. -/
def State.neighbour (s : State) (i : Nat) (start : Nat) (up : Bool) : Option SensorIx :=
  ((List.range 16).map fun n => (Fin.ofNat 18 ((if up then start + n else start + 16 - n) % 16))).find? fun j =>
    j.val != i && !(s.sens j).broken

/-- Both neighbours of a die or central sensor (Table 18.1). -/
def State.neighbours (s : State) (i : SensorIx) : Option SensorIx × Option SensorIx :=
  if i.val = 16 then (s.neighbour 16 4 false, s.neighbour 16 11 true)
  else (s.neighbour i.val (i.val + 15) false, s.neighbour i.val (i.val + 1) true)

/-- The real reading differs by more than 6.0 °C from the real readings of both neighbours. -/
def State.differs (s : State) (i : SensorIx) : Bool :=
  match s.neighbours i with
  | (some a, some b) =>
    let r := (s.sens i).reading
    48 < (r - (s.sens a).reading).natAbs && 48 < (r - (s.sens b).reading).natAbs
  | _ => false

/-- A conversion takes its effect on the sensor: the reading, or a failure (R608), which a broken sensor does not report
(R609). -/
def State.convert (s : State) (i : SensorIx) (r : Option Int) : State :=
  let x := s.sens i
  match r.filter fun v => -320 ≤ v && v ≤ 1200 with
  | some v => s.setSens i { x with reading := v, fails := 0, invalid := false }
  | none =>
    let s1 := s.setSens i { x with fails := x.fails + 1, invalid := x.invalid || 3 ≤ x.fails + 1 }
    if x.broken then s1 else s1.raise (senSrc i) 0x08

/-- The broken mark, after the sample has taken its effect (R609). -/
def State.markBroken (s : State) (i : SensorIx) : State :=
  let x := s.sens i
  if i.val = 17 || x.broken then s
  else if s.differs i then
    if x.differs + 1 < 8 then s.setSens i { x with differs := x.differs + 1 }
    else (s.setSens i { x with differs := 8, broken := true, warn := false }).raise (senSrc i) 0x04
  else s.setSens i { x with differs := 0 }

/-! ## Pier temperature and bands (R611 to R613) -/

/-- A sensor in order of its reading. -/
def insertInt (v : Int) : List Int → List Int
  | [] => [v]
  | w :: t => if v ≤ w then v :: w :: t else w :: insertInt v t

/-- Twice the median of some readings in 1/8 °C, which is the median in 1/16 °C. -/
def median2 (l : List Int) : Int :=
  let o := l.foldl (fun a v => insertInt v a) []
  let n := o.length
  if n % 2 = 1 then 2 * o.getD (n / 2) 0 else o.getD (n / 2 - 1) 0 + o.getD (n / 2) 0

/-- The hottest of some sensors; of equally hot ones the lowest index. -/
def State.hottest (s : State) (l : List SensorIx) : Option SensorIx :=
  l.foldl (fun a i => match a with
    | none => some i
    | some j => if s.temp j < s.temp i then some i else some j) none

/-- T_k in 1/16 °C and whether it comes from the fallback; none when no die or central sensor is valid. -/
def State.pierTemp (s : State) (k : Pier) : Option (Int × Bool) :=
  let near := ([15, 0, 1, 2].map fun d => Fin.ofNat 18 ((2 * k.val + d) % 16)).filter s.valid
  if !near.isEmpty then some (median2 (near.map s.temp), false)
  else if s.valid 16 then some (2 * s.temp 16, true)
  else (s.hottest (dieSensors.filter s.valid)).map fun i => (2 * s.temp i, true)

/-- No die or central sensor is valid. -/
def State.noSensor (s : State) : Bool := s.validDie.isEmpty

/-- A pier uses the fallback. -/
def State.fallbackNow (s : State) : Bool := s.thm.piers.any (·.fallback)

/-- The pier's band becomes `b` (R464, R613). -/
def State.setBand (s : State) (k : Pier) (b : Nat) : State :=
  let x := s.thm.piers[k]
  if x.band.toNat = b then s
  else
    let s1 := { s with thm := { s.thm with piers := s.thm.piers.set k { x with band := BitVec.ofNat 2 b } } }
    (chansOf k).foldl (fun z c => z.bandChange c b) (s1.raise 184 (BitVec.ofNat 8 (2 ^ k.val)))

/-- Every pier takes its T_k; pier `push`, where given, adds it to its last ten (notes/assumptions/33.md). -/
def State.pierTemps (s : State) (push : Option Pier) : State :=
  allPiers.foldl (fun z k =>
    let x := z.thm.piers[k]
    let y := match z.pierTemp k with
      | some (t, f) => { x with t := t, fallback := f, last := if push = some k then (t :: x.last).take 10 else x.last }
      | none => { x with fallback := false }
    { z with thm := { z.thm with piers := z.thm.piers.set k y } }) s

/-- A sample has changed the readings: T_k, and the levels of source 182 (R611). -/
def State.piersFollow (s : State) (push : Option Pier) (was wasNone : Bool) : State :=
  let s1 := s.pierTemps push
  let s2 := if s1.fallbackNow && !was then s1.raise 182 0x20 else s1
  if s2.noSensor then
    allPiers.foldl (fun z k => z.setBand k 3) (if wasNone then s2 else s2.raise 182 0x40)
  else s2

/-- Band boundaries in 1/16 °C. -/
def bandBound (b : Nat) : Int := match b with | 1 => 720 | 2 => 1040 | _ => 1360

/-- The band after an evaluation; `first` is the one after reset release. -/
def nextBand (first : Bool) (b n : Nat) (sum : Int) : Nat :=
  if first then ((List.range 3).filter fun i => bandBound (i + 1) * n ≤ sum).length
  else if b < 3 && bandBound (b + 1) * n ≤ sum then b + 1
  else if 0 < b && sum < (bandBound b - 32) * n then b - 1
  else b

/-- BAND_EVALUATION. -/
def State.bandEvaluation (s : State) (t : Instant) : State :=
  let s := s.at_ t
  if s.pwr.mode = .reset then s
  else
    let first := !s.thm.evaluated
    let s1 := { s with thm := { s.thm with evaluated := true } }
    if s1.noSensor then allPiers.foldl (fun z k => z.setBand k 3) s1
    else allPiers.foldl (fun z k =>
      let x := z.thm.piers[k]
      let l := if x.last.isEmpty then [x.t] else x.last
      z.setBand k (nextBand first x.band.toNat l.length (l.foldl (· + ·) 0))) s1

/-! ## Warning, rate (R614, R615) -/

/-- WARN of a sensor at its sample. -/
def State.warnAt (s : State) (i : SensorIx) : State :=
  let x := s.sens i
  let t := s.temp i
  let hi : Int := if i.val = 17 then 760 else 840
  let lo : Int := if i.val = 17 then 744 else 824
  if x.broken then s
  else if hi ≤ t && !x.warn then (s.setSens i { x with warn := true }).raise (senSrc i) 0x01
  else if t ≤ lo then s.setSens i { x with warn := false }
  else s

/-- RATE_EVALUATION: A now against A 100 ms before, as sums of 100 samples in 1/8 °C. -/
def State.rateEvaluation (s : State) (t : Instant) (i : Fin 17) : State :=
  let s := s.at_ t
  let ix : SensorIx := ⟨i.val, by omega⟩
  let x := s.sens ix
  if s.pwr.mode = .reset || !s.valid ix || x.samples.length < 100 then s
  else
    let a := (x.samples.take 100).foldl (· + ·) 0
    let means := (a :: x.means).take 101
    let y := { x with means := means }
    match means[100]? with
    | none => s.setSens ix y
    | some old =>
      if 400 ≤ a - old && x.rateArmed then (s.setSens ix { y with rateArmed := false }).raise (senSrc ix) 0x02
      else s.setSens ix { y with rateArmed := x.rateArmed || a - old < 200 }

/-! ## Throttle request (R616 to R618) -/

def msMc : Nat := 250000
def Thermal.grace (t : Thermal) : Nat := fld t.cfg 0 16
def Thermal.ackExt (t : Thermal) : Nat := fld t.cfg 16 16

/-- THM.CFG from the shed-list block, clamped (R618, R619). -/
def thmCfg (shed : BitVec 128) : Word :=
  let g := max 10 (min (fld shed 96 16) 5000)
  pack 32 [(16, max g (min (fld shed 112 16) 60000)), (0, g)]

/-- A sample decides the request. -/
def State.throttleAt (s : State) : State :=
  let t := s.thm
  let stack := s.valid 17
  let hot := s.noSensor || s.validDie.any (fun i => 880 ≤ s.temp i) || (stack && 800 ≤ s.temp 17)
  let cool := !s.noSensor && s.validDie.all (fun i => s.temp i ≤ 848) && (!stack || s.temp 17 ≤ 768)
  let m := s.nowMc
  match t.req with
  | none =>
    if hot then
      ({ s with thm := { t with req := some m, deadline := m + t.grace * msMc, reqExt := t.ackExt, acked := false, throttleAt := m } }).raise 182 0x01
    else s
  | some _ =>
    if cool then { s with thm := { t with req := none, deadline := 0, acked := false, throttleAt := m } } else s

/-- THROTTLE_ACK at its issue edge `m`: the request stands (RESP[0][0]). -/
def State.throttleAck (s : State) (m : Nat) : State :=
  let t := s.thm
  match t.req with
  | some q =>
    if m ≤ t.deadline && !t.acked && !t.expired then
      ({ s with thm := { t with acked := true, deadline := q + t.reqExt * msMc } }).raise 182 0x02
    else s
  | none => s

/-- THROTTLE is driven high (R566). -/
def State.throttleHigh (s : State) (t : Instant) : Bool :=
  if s.pwr.mode = .reset ∨ s.thm.shutdown.isSome then false
  else if s.thm.throttleAt + 2 ≤ s.mc t then s.thm.req.isSome else s.thm.req.isNone && s.thm.throttleAt != 0

/-! ## Shedding (R619 to R622) -/

/-- A shed channel that is on: an armed one waits for its boundary, any other goes off now; a pending trim is cancelled. -/
def State.shedChan (s : State) (c : Chan) : State :=
  let x := s.chan c
  if !s.chOn c then
    if s.dom (chDom c) == .waiting then s.setDom (chDom c) .off else s
  else
    let s1 := s.setChan c { x with shedPend := true, trim := { x.trim with pending := false } }
    if x.armed && x.trim.pending then (s1.disarm c (s.span.vis win400 s.now) flagPdoff).requestOff c
    else s1.requestOff c

/-- Shedding of the channels of a list starts. -/
def State.shedChans (s : State) : State :=
  ((allChans.filter fun c => s.thm.shed.getLsbD c.val).foldl State.shedChan s).pierOffAll.shedCheck

/-- Shedding starts at `now`. -/
def State.startShed (s : State) : State :=
  ({ s with thm := { s.thm with shedFrom := some s.nowMc, shDone := false } }).shedChans

/-- The device changes its mode. -/
def State.toMode (s : State) (m : Mode) : State := { s with pwr := { s.pwr with prev := s.pwr.mode, mode := m } }

/-- The device enters SHED. -/
def State.enterShed (s : State) : State := ((s.toMode .shed).raise 182 0x04).startShed

/-- GRACE_EXPIRY: the deadline falls while its request stands (R620). -/
def State.graceExpiry (s : State) : State :=
  if s.thm.req.isSome && !s.thm.expired && s.pwr.mode != .shed && s.pwr.mode != .reset then
    let s1 := s.at_ (s.mcAt s.thm.deadline)
    let s2 := { s1 with thm := { s1.thm with expired := true } }
    match s.pwr.mode with
    | .run => s2.enterShed
    | .freeze => if s2.thm.shedFrom.isSome then s2 else s2.startShed
    | _ => s2
  else s

/-- SHED_TO: a shed channel has reached no boundary in 100 ms (R621). -/
def State.shedTimeout (s : State) (c : Chan) : State :=
  match s.thm.shedFrom with
  | some m =>
    let x := s.chan c
    if x.shedPend && x.armed then
      let s1 := s.at_ (s.mcAt (m + 25000000))
      ((s1.disarm c (s1.span.vis win400 s1.now) flagPdoff).requestOff c).raise 182 0x08
    else s
  | none => s

/-- The conditions of SHED_EXIT (R622). -/
def State.mayExitShed (s : State) : Bool :=
  s.thm.req.isNone && s.validDie.all (fun i => s.temp i ≤ 824) && s.thm.shDone

/-- SHED ends: the mode becomes RUN, and the shed channels of the power map and their piers switch on (R563). -/
def State.exitShed (s : State) : State :=
  let shed := allDoms.filter fun d => s.inPowerMap d && s.dom d == .off &&
    (if d.val < 96 then s.thm.shed.getLsbD d.val
     else (chansOf (Fin.ofNat 8 (d.val - 96))).any fun c => s.thm.shed.getLsbD c.val)
  let s1 := { s.toMode .run with thm := { s.thm with expired := false, shDone := false, shedFrom := none } }
  (s1.forChans allChans fun c z => z.modChan c fun x => { x with shedPend := false }).requestOn shed

/-! ## Shutdown (R623 to R626) -/

/-- THM.SD_LOG (Table 18.7). -/
def sdLogWord (i : SensorIx) (t : Int) (hard waited : Bool) : Word :=
  pack 32 [bitAt 31 true, bitAt 30 hard, bitAt 29 waited, (16, i.val), (0, (BitVec.ofInt 12 t).toNat)]

/-- The cut: THM.SD_LOG records the shutdown, and reset source THERM is recognised (R625, R626). -/
def State.cut (s : State) (hard waited : Bool) : State :=
  match s.thm.shutdown with
  | none => s
  | some (_, i, t) =>
    { s with thm := { s.thm with sdLog := sdLogWord i t hard waited } }.toReset fun p =>
      { p with rstTherm := true, thermHold := true, thermWait := true }

/-- T_SD while a page program is in progress: every domain off without order, the stack in reset, every clock but MGMT
stopped (R624). -/
def State.stopAll (s : State) : State :=
  { s with
    chans := s.chans.map (·.powerOff), mem := [], chk := [], writers := Vector.replicate 8 [], vlt := Vault.reset
    folios := [], closed := [], via := Viaduct.reset, synths := synthsReset, tb := { s.tb with st := .off }
    pwr := { s.pwr with doms := Vector.replicate 104 .off, cycle := [] }
    thm := { s.thm with shedFrom := none } }

/-- A shutdown reading of sensor i at its sample. -/
def State.shutdownAt (s : State) (i : SensorIx) : State :=
  let x := s.sens i
  let t := s.temp i
  if i.val = 17 || !s.valid i then s
  else
    let hot := if 1000 ≤ t then x.hot + 1 else 0
    let s1 := s.setSens i { x with hot := hot }
    if s1.thm.shutdown.isSome then if 1064 ≤ t then s1.cut true true else s1
    else if 2 ≤ hot ∨ 1064 ≤ t then
      let s2 := ({ s1 with thm := { s1.thm with shutdown := some (s1.nowMc, i, t) } }).raise 183 0x01
      if s2.nvm.programming && t < 1064 then s2.stopAll.raise 183 0x02 else s2.cut (1064 ≤ t) false
    else s1

/-- CUT: the page program in progress is found complete, or 1,000,000 mc have passed since T_SD. -/
def State.cutRow (s : State) (t : Instant) : State :=
  match s.thm.shutdown with
  | some (m, _, _) => (s.at_ (min t (s.mcAt (m + 1000000)))).cut false true
  | none => s.at_ t

/-! ## A sample -/

/-- A sample of sensor i takes its effect. In RESET only the central sensor runs (R510). -/
def State.sample (s : State) (t : Instant) (i : SensorIx) (r : Option Int) : State :=
  let s := s.at_ t
  if s.pwr.mode = .reset then
    if i.val = 16 then
      match r with
      | some v => s.setSens i { s.sens i with reading := v }
      | none => s
    else s
  else
    let was := s.fallbackNow
    let wasNone := s.noSensor
    let s1 := s.convert i r
    let x := s1.sens i
    let s2 := s1.setSens i { x with samples := if i.val = 17 then [] else (s1.temp i :: x.samples).take 100 }
    let push : Option Pier := if i.val < 16 ∧ i.val % 2 = 1 then some (Fin.ofNat 8 (i.val / 2)) else none
    let s3 := (s2.piersFollow push was wasNone).warnAt i
    let s4 := s3.throttleAt.shutdownAt i
    if s4.pwr.mode = .reset then s4 else s4.markBroken i

/-! ## Registers (Tables 18.4 to 18.6) -/

def State.sensWord (s : State) (i : SensorIx) : Word :=
  let x := s.sens i
  pack 32 [bitAt 31 x.broken, bitAt 30 x.invalid, bitAt 29 (s.overridden i), (0, (BitVec.ofInt 12 (s.temp i)).toNat)]

def State.pierWord (s : State) (k : Pier) : Word :=
  let x := s.thm.piers[k]
  pack 32 [(28, x.band.toNat), bitAt 27 x.fallback, (0, (BitVec.ofInt 12 (x.t / 2)).toNat)]

def State.thmStat (s : State) : Word :=
  let h := s.hottest s.validDie
  pack 32 [bitAt 31 s.thm.req.isSome, bitAt 30 s.thm.acked, bitAt 29 s.thm.expired, bitAt 28 s.thm.shDone,
    bitAt 27 (s.thm.sens.any (·.warn)), (16, match h with | some i => i.val | none => 0),
    (0, match h with | some i => (BitVec.ofInt 12 (s.temp i)).toNat | none => 0)]

/-- THM.TIMER at `t`: ms to the deadline of the standing request, a part of one counting as one. -/
def State.thmTimer (s : State) (t : Instant) : Word :=
  if s.thm.req.isSome then BitVec.ofNat 32 ((s.thm.deadline - s.mc t + msMc - 1) / msMc) else 0

/-! ## Meanings -/

def execSensorSample (at_ : Instant) (i : Fin 17) (r : Option Int) (s : State) : Host.Outcome State Fault Refusal :=
  .next (s.sample at_ ⟨i.val, by omega⟩ r)
def execBandEvaluation (at_ : Instant) (s : State) : Host.Outcome State Fault Refusal := .next (s.bandEvaluation at_)
def execRateEvaluation (at_ : Instant) (i : Fin 17) (s : State) : Host.Outcome State Fault Refusal :=
  .next (s.rateEvaluation at_ i)
def execGraceExpiry (s : State) : Host.Outcome State Fault Refusal := .next s.graceExpiry
def execShedTo (c : Chan) (s : State) : Host.Outcome State Fault Refusal := .next (s.shedTimeout c)
def execCut (at_ : Instant) (s : State) : Host.Outcome State Fault Refusal := .next (s.cutRow at_)

end Sys2Proof.Machine
end

