-- ==== Sys2Proof/Machine/VaultCode.lean ====
section
/-! DEFINITION. The vault's address map and code (11_vault_controller.md, R380 to R386). -/

namespace Sys2Proof.Machine

/-! ## Address map (Table 11.2) -/

/-- Bits [lo + len - 1 : lo] of a number. -/
def bits (g lo len : Nat) : Nat := g / 2 ^ lo % 2 ^ len

/-- Fields of a galley word address. -/
def gH (g : Nat) : Nat := bits g 0 1
def gCol (g : Nat) : Nat := bits g 1 5
def gPc (g : Nat) : Nat := (bits g 6 5 ^^^ bits g 11 5) ^^^ bits g 16 5
def gBg (g : Nat) : Nat := bits g 11 2 ^^^ bits g 15 2
def gBa (g : Nat) : Nat := bits g 13 2 ^^^ bits g 17 2
def gRow (g : Nat) : Nat := bits g 15 15

/-- BG × 4 + BA. -/
def gBank (g : Nat) : Nat := 4 * gBg g + gBa g

/-- The galley word address of a stack location, with H = 0 (the inverse of Table 11.2). -/
def galleyOf (pc bank row col : Nat) : Nat :=
  let b11 := (bank / 4) ^^^ bits row 0 2
  let b13 := (bank % 4) ^^^ bits row 2 2
  let hi := row * 2 ^ 15 + b13 * 2 ^ 13 + b11 * 2 ^ 11
  hi + ((pc ^^^ bits hi 11 5) ^^^ bits hi 16 5) * 2 ^ 6 + col * 2

/-- The physical word address (R382). -/
def physAddr (g : Nat) : Nat :=
  gPc g * 2 ^ 29 + gBg g * 2 ^ 25 + gBa g * 2 ^ 23 + gRow g * 2 ^ 6 + gCol g * 2 + gH g

/-! ## Check bits (R384) -/

/-- The pairs i < k drawn from 0 to 11, in lexicographic order. -/
def colPairs : List (Nat × Nat) :=
  (List.range 12).flatMap fun i => ((List.range 12).filter fun k => i < k).map fun k => (i, k)

/-- The column of data bit i. -/
def dataCol (i : Nat) : BitVec 16 :=
  let p := colPairs.getD (i / 4) (0, 0)
  BitVec.ofNat 16 (2 ^ (12 + i % 4) + 2 ^ p.1 + 2 ^ p.2)

/-- XOR of the columns of the set bits. -/
def dataCheck (w : Qword) : BitVec 16 :=
  (List.range 128).foldl (fun c i => if w.getLsbD i then c ^^^ dataCol i else c) 0

/-- The address bits that vary, each with its column (Table 11.3). -/
def addrCols (g : Nat) : List (Nat × BitVec 16) :=
  let low := [gH g, bits (gCol g) 0 1, bits (gCol g) 1 1, bits (gCol g) 2 1, bits (gCol g) 3 1, bits (gCol g) 4 1,
    bits (gBa g) 0 1, bits (gBa g) 1 1, bits (gBg g) 0 1, bits (gBg g) 1 1, bits (gPc g) 0 1, bits (gPc g) 1 1,
    bits (gPc g) 2 1, bits (gPc g) 3 1, bits (gPc g) 4 1]
  (low.mapIdx fun i b => (b, BitVec.ofNat 16 (1 + 2 ^ (i + 1))))
    ++ ((List.range 14).map fun r => (bits (gRow g) r 1, BitVec.ofNat 16 (2 ^ (r + 1) + 2 ^ (r + 2))))
    ++ [(bits (gRow g) 14 1, 0x000F)]

def addrCheck (g : Nat) : BitVec 16 := (addrCols g).foldl (fun c p => if p.1 = 1 then c ^^^ p.2 else c) 0

/-- C[15:0] of a galley word. -/
def checkBits (g : Nat) (w : Qword) : BitVec 16 := dataCheck w ^^^ addrCheck g

/-- The codeword as the stack holds it. -/
def State.stored (s : State) (g : Nat) : Codeword :=
  ((checkBits g (s.galley g) ^^^ sget 0 s.chk g) ++ s.galley g : BitVec (16 + 128))

/-! ## Reads (R385) -/

/-- What a read comes to: the bit that is inverted, if any; none when it is uncorrectable. -/
def classify (syn : BitVec 16) : Option (Option Nat) :=
  if syn = 0 then some none
  else match (List.range 144).find? fun i => syn == (if i < 128 then dataCol i else BitVec.ofNat 16 (2 ^ (i - 128))) with
    | some i => some (some i)
    | none => none

/-- The syndrome of a codeword that is read at address g. -/
def syndrome (g : Nat) (c : Codeword) : BitVec 16 := c.extractLsb' 128 16 ^^^ checkBits g (c.extractLsb' 0 128)

/-- A codeword read: data after correction, syndrome, corrected, uncorrectable. -/
structure ReadResult where
  word : Qword
  syn : BitVec 16
  corrected : Bool
  bad : Bool
deriving DecidableEq, Repr

def readCode (g : Nat) (c : Codeword) : ReadResult :=
  let syn := syndrome g c
  let d : Qword := c.extractLsb' 0 128
  match classify syn with
  | some none => { word := d, syn := syn, corrected := false, bad := false }
  | some (some i) => { word := if i < 128 then d ^^^ BitVec.ofNat 128 (2 ^ i) else d, syn := syn, corrected := true, bad := false }
  | none => { word := d, syn := syn, corrected := false, bad := true }

/-! ## Writes (R598) -/

/-- Bits that TST.ECC_INJ flips: 1 single, 2 double, 3 nibble. -/
def injFlips (mode : BitVec 2) (b : Nat) : Codeword :=
  if mode = 1 then BitVec.ofNat 144 (2 ^ b)
  else if mode = 2 then BitVec.ofNat 144 (2 ^ b) ^^^ BitVec.ofNat 144 (2 ^ ((b + 1) % 144))
  else if mode = 3 then BitVec.ofNat 144 (15 * 2 ^ (b / 4 * 4))
  else 0

/-- Store a codeword with its check bits, some of its bits flipped after they are formed. -/
def State.storeFlipped (s : State) (g : Nat) (w : Qword) (flips : Codeword) : State :=
  let d : Qword := flips.extractLsb' 0 128
  let s1 := s.setGalley g (w ^^^ d)
  { s1 with chk := sset 0 s1.chk g (dataCheck d ^^^ flips.extractLsb' 128 16) }

/-- A codeword is written for a port: its `own`, or one that its burst carries along. An armed injection acts on the port's
own; a listed codeword leaves the list. -/
def State.storeCode (s : State) (port g : Nat) (w : Qword) (own : Bool) : State :=
  let list := s.tst.eccList.filter (· != g)
  if own && s.tst.on && s.tst.eccArm && s.tst.eccPort.toNat == port then
    { s.storeFlipped g w (injFlips s.tst.eccMode s.tst.eccB.toNat) with
      tst := { s.tst with eccArm := false, eccList := (g :: list).take 16 } }
  else { s.storeFlipped g w 0 with tst := { s.tst with eccList := list } }

end Sys2Proof.Machine
end

