-- ==== Sys2Proof/Machine/Vault.lean ====
section
/-! DEFINITION. The vault: request table, freeze, refresh debt, the scheduler and what its commands do
(11_vault_controller.md; 12_vault_maintenance.md). Banks are numbered BG × 4 + BA. -/

namespace Sys2Proof.Machine

def Vault.mod (s : State) (f : Vault → Vault) : State := { s with vlt := f s.vlt }

/-! ## Configuration -/

def portTarget (v : Vault) (p : Nat) : Nat := fld (v.portCfg.getD p 0) 16 16
def portResv (v : Vault) (p : Nat) : Nat := fld (v.portCfg.getD p 0) 0 12
def Vault.idlec (v : Vault) : Nat := fld v.cfg 16 8
def Vault.flush (v : Vault) : Nat := fld v.cfg 0 8
def Vault.sridle (v : Vault) : Nat := fld v.mnt 24 8
def Vault.scrubInt (v : Vault) : Nat := fld v.mnt 16 8
def Vault.nrrTh (v : Vault) : Nat := fld v.mnt 4 12

/-- The refresh interval I (R414). -/
def Vault.interval (v : Vault) : Nat := if v.dbl then 1936 else 3872

/-- A pseudo-channel by number. -/
def pcOf (q : Nat) : Pch := Fin.ofNat 32 q

/-! ## Request table (R389) -/

/-- Requests of a port that are in flight, entries drawn from the pool, free pool entries. -/
def inFlight (l : List Req) (p : Nat) : Nat := l.countP fun r => r.presented && r.port == p
def poolSize (v : Vault) : Nat := 4096 - (List.range 14).foldl (fun a p => a + portResv v p) 0
def poolUsed (v : Vault) (l : List Req) : Nat := (List.range 14).foldl (fun a p => a + (inFlight l p - portResv v p)) 0
def poolFree (v : Vault) (l : List Req) : Nat := poolSize v - poolUsed v l

/-- A port may present one more request. -/
def hasRoom (v : Vault) (l : List Req) (p : Nat) : Bool := inFlight l p < portResv v p || 0 < poolFree v l

/-- The vault accepts requests (R162, R164, R426, R436); those presented around self-refresh wait in the table. -/
def State.accepts (s : State) : Bool := s.vlt.st == .run || s.vlt.st == .selfref

/-- The port presents no request while a stall pulse lasts (Table 17.5). -/
def State.portStalled (s : State) (p : Nat) : Bool := s.stallOn (8 + p) && s.tst.stalling

/-- Waiting requests are presented at vc `v`, each port's in order, as the table has room. -/
def State.presentAll (s : State) (v : Nat) : State :=
  if !s.accepts then s
  else
    let (l, _, woke) := s.vlt.reqs.foldl (fun (acc : List Req × List Nat × Bool) r =>
      let (out, shut, woke) := acc
      if r.presented then (out ++ [r], shut, woke)
      else if shut.contains r.port || s.portStalled r.port || !hasRoom s.vlt (out ++ s.vlt.reqs.filter fun x => x.presented && r.id < x.id) r.port then
        (out ++ [r], r.port :: shut, woke)
      else (out ++ [{ r with presented := true, accepted := max v r.accepted }], shut, true)) ([], [], false)
    let s1 := Vault.mod s fun w => { w with reqs := l, poolMin := min w.poolMin (poolFree w l) }
    if woke then (s1.wakeVault (s.vcAt v)).idleRestart else s1

/-- Half and data of a request that writes one codeword and has not started (R392). -/
def Req.single (r : Req) : Option (Bool × Qword) :=
  if r.kind = .rmw && !r.issued && !r.gotRead then
    match r.data with
    | [d] => some d
    | _ => none
  else none

/-- A new request takes its place at the end of the table's queue. -/
def State.addReq (s : State) (v port : Nat) (kind : ReqKind) (pc bank row burst : Nat) (data : List (Bool × Qword)) (hint : Bool) :
    State :=
  let r : Req :=
    { id := s.vlt.nextId, port := port, kind := kind, pc := pc, bank := bank, row := row, burst := burst, data := data
      accepted := v, promoted := false, hint := hint, issued := false, gotRead := false, presented := false, only := none }
  (Vault.mod s fun w => { w with nextId := w.nextId + 1, reqs := w.reqs ++ [r] }).presentAll v

/-- Change one request. -/
def State.modReq (s : State) (id : Nat) (f : Req → Req) : State :=
  Vault.mod s fun w => { w with reqs := w.reqs.map fun x => if x.id = id then f x else x }

/-- The newest request of a burst, where it is a pending write of the codeword that `data` does not write (R392). -/
def State.mergeable (s : State) (kind : ReqKind) (burst : Nat) (data : List (Bool × Qword)) : Option (Nat × List (Bool × Qword)) :=
  match kind, data, (s.vlt.reqs.filter fun r => r.burst == burst && r.kind != .nrr).getLast? with
  | .rmw, [n], some r =>
    match r.single with
    | some d => if d.1 = n.1 then none else some (r.id, [d, n])
    | none => none
  | _, _, _ => none

/-- Ask for an access to a burst at vc `v`. Two pending single-codeword writes of one burst merge into one burst write. -/
def State.submit (s : State) (v port : Nat) (kind : ReqKind) (burst : Nat) (data : List (Bool × Qword)) (hint : Bool) : State :=
  let g := 2 * burst
  match s.mergeable kind burst data with
  | some (id, both) => s.modReq id fun x => { x with kind := .writeBurst, data := both }
  | none => s.addReq v port kind (gPc g) (gBank g) (gRow g) burst data hint

/-- A row access for neighbour refresh (R428). -/
def State.submitNrr (s : State) (v q bank row : Nat) : State := s.addReq v 12 .nrr q bank row (2 ^ 29) [] false

/-- A request is done at vc `v`: its entry is free. DIAG commands count their requests (R564). -/
def State.finishReq (s : State) (r : Req) (v : Nat) : State :=
  let s1 := (Vault.mod s fun w => { w with reqs := w.reqs.filter fun x => x.id != r.id }).idleRestart
  let s2 := { s1 with msp := { s.msp with cmd := s.msp.cmd.map fun (c : Cmd) => { c with left := c.left.filter fun i => i != r.id } } }
  (s2.presentAll v).pierOffAll

/-! ## Command history (Table 12.4) -/

def HistCmd.word (h : HistCmd) : Dword :=
  pack 64 [(48, h.vct.toNat), (44, h.cmd.toNat), (36, h.port.toNat), (34, h.bg.toNat), (32, h.ba.toNat), (17, h.row.toNat),
    (12, h.col.toNat), (0, h.req.toNat)]

/-! ## Freeze (R435 to R437, R513) -/

/-- LOAD halts (R495). -/
def State.halt (s : State) (why : BitVec 4) (cause : Byte) : State :=
  ({ s with nvm := { s.nvm with phase := 0xF, result := 2, why := why } }).raise 220 (0x40 ||| cause)

/-- Deliveries stop where they stand (R436). -/
def State.dropDeliveries (s : State) : State :=
  { s with via := { s.via with xfers := List.replicate 4 none, rings := s.via.rings.map fun r => { r with delivery := none } } }

/-- The device enters FREEZE at the freeze vc: every armed channel is disarmed at one SPAN instant (R513). -/
def State.enterFreeze (s : State) (t : Instant) : State :=
  let d := s.span.vis win250 t
  let s1 := allChans.foldl (fun z c => (z.disarm c d flagDisarm).modChan c fun x =>
    { x with heldRearm := none, formeRearm := none, wantRearm := false
             trim := if x.trim.running then { x.trim.fail 0xB with wasArmed := false } else { x.trim with wasArmed := false } }) s
  let s2 := s1.dropDeliveries
  let s3 := if s2.pwr.mode = .load ∨ s2.pwr.mode = .trim then s2.halt 0xA 0 else s2
  s3.toMode .freeze

/-- The freeze log (Table 12.3): `log` is VLT.FRZ_STAT, `addr` the galley word address and syndrome of an uncorrectable
read, q the pseudo-channel. -/
def State.frzLog (s : State) (q : Nat) (log : Word) (addr : Option (Nat × BitVec 16)) : State :=
  Vault.mod s fun w => { w with
    frzStat := log
    frzAddr := match addr with | some (g, _) => BitVec.ofNat 30 g | none => 0
    frzPaddr := match addr with | some (g, _) => BitVec.ofNat 34 (physAddr g) | none => 0
    frzSyn := match addr with | some (_, x) => x | none => 0
    frzHist := (s.pch (pcOf q)).hist.reverse }

/-- The vault freezes in vc `v` on pseudo-channel q. A further error increments MORE; in the freeze vc itself the
lower-numbered pseudo-channel is the one logged (R437). An exit from self-refresh goes on to its end, and a stack in
self-refresh on the safe clock leaves it after the lock (Table 12.6). -/
def State.freeze (s : State) (v q : Nat) (log : Word) (addr : Option (Nat × BitVec 16)) (cause : Byte) : State :=
  if s.vlt.st = .frozen then
    let more := satNat 8 (fld s.vlt.frzStat 0 8 + 1)
    if s.vlt.frzVc = some v ∧ q < fld s.vlt.frzStat 16 5 then s.frzLog q (putFld log 0 8 more) addr
    else Vault.mod s fun w => { w with frzStat := putFld w.frzStat 0 8 more }
  else
    let s1 := (s.rebaseDebt v).frzLog q log addr
    let s2 := Vault.mod s1 fun w => { w with
      st := .frozen, frzVc := some v, srEntry := none, srExit := if s.vlt.st = .selfref then s.vlt.srExit else none
      srWake := if s.vlt.st = .safe then some v else none, idleFrom := none }
    (s2.raise 137 cause).enterFreeze (s.vcAt v)

/-- KIND of VLT.FRZ_STAT (Table 12.10). -/
def frzKind (k : ReqKind) : Nat :=
  match k with
  | .rmw => 1
  | .codewordWrite => 1
  | .scrub => 2
  | .codewordRead => 3
  | _ => 0

/-! ## Refresh debt (R417 to R421) -/

/-- The ceiling at vc `v`: units are committed until D < 8I, each a forced refresh. -/
def State.ceilAt (s : State) (q : Pch) (v : Nat) : State :=
  let p := s.pch q
  let i := s.vlt.interval
  let d := s.debtAt p v
  if 8 * i ≤ d then
    let n := d / i - 7
    (s.setPch q { p with debt := d - n * i, dAt := v, owed := p.owed + n, units := p.units + n
                         forced := satAdd p.forced n }).raiseFrom false (pcSrc q) 0x10
      (s.tst.on && s.tst.rpost.getLsbD q.val)
  else s

/-- The refresh band changes at vc `v` (R413, R421). -/
def State.setBandDbl (s : State) (v : Nat) (dbl : Bool) : State :=
  if s.vlt.dbl = dbl then s
  else
    let s1 := (Vault.mod (s.rebaseDebt v) fun w => { w with dbl := dbl }).raise 136 (if dbl then 0x04 else 0x08)
    (List.finRange 32).foldl (fun z q => if z.debtRises then z.ceilAt q v else z) s1

/-- TEMPERATURE_READING: the stack sensor of R607, and the refresh band of R413 to R416. -/
def State.stackReading (s0 : State) (t : Instant) (r : Option Int) : State :=
  let s := s0.sample t 17 (r.map (8 * ·))
  if s.pwr.mode = .reset then s
  else
    let v := s.vc (s.clocks.vault.next s.now)
    match r with
    | none =>
      let s1 := Vault.mod s fun w => { w with badReads := w.badReads + 1, goodReads := 0 }
      if s1.vlt.badReads = 2 then
        ((Vault.mod s1 fun w => { w with rdFail := true }).setBandDbl v true).raise 136 0x10
      else s1
    | some x =>
      let s1 := Vault.mod s fun w => { w with badReads := 0, goodReads := w.goodReads + 1, stemp := BitVec.ofInt 8 x }
      let held := s1.vlt.rdFail && s1.vlt.goodReads < 2
      let temp := if s1.tst.on && (s1.tst.tovr.getD 17 (false, 0)).1 then max x ((s1.tst.tovr.getD 17 (false, 0)).2.toNat : Int) else x
      if held then s1
      else
        let s2 := Vault.mod s1 fun w => { w with rdFail := false }
        if 85 ≤ temp then s2.setBandDbl v true else if temp ≤ 81 then s2.setBandDbl v false else s2

/-- The postponement facility acts on the pseudo-channel (R423). -/
def State.postponed (s : State) (q : Pch) : Bool := s.tst.on && s.tst.rpost.getLsbD q.val

/-- The unit that is due becomes forced at the Insert level (Table 12.1). -/
def State.insertAt (s : State) (q : Pch) (v : Nat) : State :=
  let p := s.pch q
  if 4 * s.vlt.interval ≤ s.debtAt p v && p.chunks.isEmpty && !s.postponed q && p.owed = 0 && s.vlt.st != .frozen then
    s.setPch q { p with insert := true }
  else s

/-- A forced refresh is pending. -/
def PcSt.forcing (p : PcSt) : Bool := p.owed != 0 || p.insert

/-- A unit ends at vc `v`: committed before (owed), or now. -/
def State.unitDone (s : State) (q : Pch) (v : Nat) : State :=
  let p := s.pch q
  if p.owed != 0 then s.setPch q { p with owed := p.owed - 1 }
  else
    (s.setPch q { p with debt := s.debtAt p v - s.vlt.interval, dAt := v, units := p.units + 1, insert := false }).idleRestart

/-- REFab in vc `v`. -/
def State.refab (s : State) (q : Pch) (v : Nat) : State :=
  let p := s.pch q
  (s.setPch q ({ p with busyTo := v + 140, rows := List.replicate 16 none }.logOwn v cmdRefab 0 0)).unitDone q v

/-- REFpb to the bank at the pointer in vc `v`. -/
def State.refpb (s : State) (q : Pch) (v : Nat) : State :=
  let p := s.pch q
  let b := p.rptr.toNat
  let p1 := { p with rptr := p.rptr + 1, bankTo := setAt p.bankTo b (v + 80), lastPb := v, busyTo := max p.busyTo (v + 1)
                     rows := setAt p.rows b none }
  let s1 := s.setPch q (p1.logOwn v cmdRefpb b 0)
  if b = 15 then s1.unitDone q v else s1

/-- The vc from which a forced refresh can be chosen, none before `v`. -/
def PcSt.forcedAt (p : PcSt) (v : Nat) : Nat :=
  if p.rptr = 0 then p.bankTo.foldl max (max v p.busyTo)
  else max (max v p.busyTo) (max (if p.lastPb = 0 then 0 else p.lastPb + 4) (p.bankTo.getD p.rptr.toNat 0))

/-! ## Neighbour refresh (R427 to R429) -/

/-- The table of a bank after an activate of a row, and whether an entry reached the threshold. -/
def nrrTouch (l : List (Nat × Nat × Nat × Nat)) (bank row th : Nat) : List (Nat × Nat × Nat × Nat) × Bool :=
  let mine := l.filter fun e => e.1 == bank
  let bump := fun (e c : Nat) =>
    let rest := l.filter fun x => !(x.1 == bank && x.2.1 == e)
    if th ≤ c then (rest ++ [(bank, e, row, 0)], true) else (rest ++ [(bank, e, row, c)], false)
  match mine.find? fun e => e.2.2.1 == row with
  | some (_, e, _, c) => bump e (c + 1)
  | none =>
    match (List.range 16).find? fun e => !(mine.any fun x => x.2.1 == e) with
    | some e => bump e 1
    | none =>
      let low := mine.foldl (fun (a : Option (Nat × Nat)) x => match a with
        | none => some (x.2.1, x.2.2.2)
        | some (e, c) => if x.2.2.2 < c ∨ (x.2.2.2 = c ∧ x.2.1 < e) then some (x.2.1, x.2.2.2) else some (e, c)) none
      match low with
      | some (e, c) => bump e (c + 1)
      | none => (l, false)

/-- An activate of a row that counts. -/
def State.activated (s : State) (q : Pch) (v bank row : Nat) : State :=
  let p := s.pch q
  let (l, hit) := nrrTouch p.nrr bank row s.vlt.nrrTh
  let s1 := s.setPch q { p with nrr := l }
  if hit then
    let rows := (if 2 ≤ row then [row - 2] else []) ++ (if 1 ≤ row then [row - 1] else [])
      ++ (if row + 1 < 32768 then [row + 1] else []) ++ (if row + 2 < 32768 then [row + 2] else [])
    let s2 := (s1.modPch q fun p => { p with nrrs := satAdd p.nrrs 1 }).raise (pcSrc q) 0x20
    rows.foldl (fun z r => z.submitNrr v q.val bank r) s2
  else s1

/-! ## Choice (R390, R394 to R397) -/

def portClass (p : Nat) : Nat := if p < 8 then 0 else if p < 12 then 2 else if p = 12 then 3 else 4

/-- Urgency level at vc `v` (R396). -/
def Req.urgency (r : Req) (w : Vault) (v : Nat) : Nat :=
  let a := v - r.accepted
  let t := portTarget w r.port
  if 4 * a < t then 0 else if 4 * a < 2 * t then 1 else if 4 * a < 3 * t then 2 else 3

/-- The request may have a command chosen for it: it is presented, not waiting for data, and no older request of its
burst is in the table (R390). -/
def Req.eligible (r : Req) (l : List Req) : Bool :=
  r.presented && !r.issued
    && !(l.any fun x => x.burst == r.burst && x.id != r.id && x.presented && r.kind != .nrr && x.kind != .nrr
          && (x.accepted < r.accepted || (x.accepted == r.accepted && (x.port < r.port || (x.port == r.port && x.id < r.id)))))

/-- Lexicographic order of keys. -/
def keyLt : List Nat → List Nat → Bool
  | _, [] => false
  | [], _ => true
  | a :: t, b :: u => a < b || (a == b && keyLt t u)

/-- The order of R394 as a key; the request's row is open. -/
def Req.key (r : Req) (w : Vault) (p : PcSt) (v : Nat) : List Nat :=
  let openRow := match p.rows.getD r.bank none with | some (x, _) => x == r.row | none => false
  if r.promoted then [0, r.accepted, r.port, r.id]
  else [1, portClass r.port, 3 - r.urgency w v, if openRow then 0 else 1, r.accepted, r.port, r.id]

/-- Key of a REFpb at the Due level: below RT, above RD, MT and DG. -/
def dueKey : List Nat := [1, 1]

/-- Requests of the pseudo-channel whose next command the timing permits, with the vc from which it does. -/
def State.candidates (s : State) (q : Pch) (blocked : List Nat) : List (Req × Nat) :=
  let p := s.pch q
  let mine := s.vlt.reqs.filter fun r => r.pc == q.val && r.eligible s.vlt.reqs && !blocked.contains r.id
  mine.map fun r => (r, max r.accepted (p.bankTo.getD r.bank 0))

/-- An MT scrub is held back while an RD request of the pseudo-channel stands at level 2 or above. -/
def State.scrubHeld (s : State) (q : Pch) (r : Req) (v : Nat) : Bool :=
  r.kind == .scrub && s.vlt.reqs.any fun x => x.presented && x.pc == q.val && portClass x.port == 2 && 2 ≤ x.urgency s.vlt v

/-- The vc from which a REFpb is due to the bank at the pointer, if the Due level may act. -/
def State.dueAt (s : State) (q : Pch) (v : Nat) : Option Nat :=
  let p := s.pch q
  if s.postponed q || s.vlt.st == .frozen then none
  else
    let d := if s.debtRises then p.dAt + (s.vlt.interval - p.debt) else if s.vlt.interval ≤ p.debt then v else v + 2 ^ 40
    some (max (max v d) (max (if p.lastPb = 0 then 0 else p.lastPb + 4) (p.bankTo.getD p.rptr.toNat 0)))

/-- No RT request is pending on the bank at the pointer in vc `v`. -/
def State.bankQuiet (s : State) (q : Pch) (v : Nat) : Bool :=
  let b := (s.pch q).rptr.toNat
  !(s.vlt.reqs.any fun r => r.presented && r.pc == q.val && r.bank == b && r.port < 8 && r.accepted ≤ v)

/-! ## What a command does -/

/-- The last command of a write comes later than its TARGET (R396). -/
def State.lateCheck (s : State) (q : Pch) (r : Req) (v : Nat) : State :=
  if r.port < 8 && portTarget s.vlt r.port < v - r.accepted then
    (Vault.mod s fun w => { w with late := setAt w.late r.port (satAdd (w.late.getD r.port 0) 1) }).raise (pcSrc q) 0x08
  else s

/-- A chunk of a galley writer begins, goes on or ends with this burst (R420). -/
def State.chunkStep (s : State) (q : Pch) (r : Req) (write : Bool) : State :=
  if r.port < 8 then
    let n := r.burst / 64
    let more := !write ||
      s.vlt.reqs.any fun x => x.presented && x.id != r.id && x.port == r.port && x.pc == q.val && x.burst / 64 == n
    s.modPch q fun p => { p with chunks := (p.chunks.filter (· != n)) ++ (if more then [n] else []) }
  else s

/-- The column command of a request in vc `v`: a read waits for its data, a write stores its codewords. -/
def State.column (s : State) (q : Pch) (r : Req) (v : Nat) : State :=
  let write := r.kind == .writeBurst || r.kind == .writeBack || r.gotRead
  let p := s.pch q
  let rows := if r.hint then setAt p.rows r.bank (some (r.row, v)) else setAt p.rows r.bank none
  let s1 := s.setPch q ({ p with rows := rows, busyTo := max p.busyTo (v + 1) }.log v (if write then cmdWr else cmdRd) r.port r.bank
    r.row (gCol (2 * r.burst)) r.id)
  if write then
    let s2 := r.data.foldl (fun z d => z.storeCode r.port (2 * r.burst + bit d.1) d.2 (r.only.all (· == d.1))) s1
    let s3 := if r.kind = .writeBack then s2.raiseFrom false (pcSrc q) 0x40 false else s2
    ((s3.lateCheck q r v).chunkStep q r true).finishReq r v
  else
    (s1.modReq r.id fun x => { x with issued := true }).chunkStep q r false

/-- The next command of a request in vc `v`: precharge, activate, or its column command. -/
def State.issue (s : State) (q : Pch) (r : Req) (v : Nat) : State :=
  let p := s.pch q
  let cell := p.rows.getD r.bank none
  let busy := fun (p : PcSt) => { p with busyTo := max p.busyTo (v + 1) }
  if r.kind = .nrr && r.gotRead then
    let p1 := (busy { p with rows := setAt p.rows r.bank none }).log v cmdPre r.port r.bank r.row 0 r.id
    (s.setPch q p1).finishReq r v
  else match cell with
    | some (row, _) =>
      if row = r.row && r.kind != .nrr then s.column q r v
      else s.setPch q ((busy { p with rows := setAt p.rows r.bank none }).log v cmdPre r.port r.bank row 0 r.id)
    | none =>
      let p1 := (busy { p with rows := setAt p.rows r.bank (some (r.row, v)) }).log v cmdAct r.port r.bank r.row 0 r.id
      let s1 := s.setPch q p1
      if r.kind = .nrr then s1.modReq r.id fun x => { x with gotRead := true }
      else s1.activated q v r.bank r.row

/-- The best of the candidates ready at vc `v`. -/
def bestOf (w : Vault) (p : PcSt) (v : Nat) (l : List Req) : Option Req :=
  l.foldl (fun a r => match a with
    | none => some r
    | some b => if keyLt (r.key w p v) (b.key w p v) then some r else some b) none

/-- A forced refresh is chosen, none before vc `v`. -/
def State.forceNow (s : State) (q : Pch) (v : Nat) : State :=
  let p := s.pch q
  let f := p.forcedAt v
  let s1 := s.at_ (s.vcAt f)
  if p.rptr = 0 then s1.refab q f else s1.refpb q f

/-- Refresh alone, where no request is served: TRAIN, INIT, or a frozen vault, which issues every unit that falls due as a
REFab at once (R432, R436). -/
def State.refreshOnly (s : State) (q : Pch) (v : Nat) : State :=
  let p := s.pch q
  if p.forcing then s.forceNow q v
  else if s.vlt.st = .frozen then
    let d := if s.vlt.interval ≤ p.debt then p.dAt else p.dAt + (s.vlt.interval - p.debt)
    let f := p.bankTo.foldl max (max (max v d) p.busyTo)
    if s.debtRises then (s.at_ (s.vcAt f)).refab q f else s
  else
    match s.dueAt q (max v p.busyTo) with
    | some f => (s.at_ (s.vcAt f)).refpb q f
    | none => s

/-- The choice of vc `v` among the candidates and a REFpb that is due. -/
def State.chooseAt (s : State) (q : Pch) (cands : List (Req × Nat)) (due : Bool) (v : Nat) : State :=
  let p := s.pch q
  let ready := (cands.filter fun c => c.2 ≤ v && !s.scrubHeld q c.1 v).map (·.1)
  let s1 := s.at_ (s.vcAt v)
  match bestOf s.vlt p v ready, due && s.bankQuiet q v with
  | some r, true => if keyLt (r.key s.vlt p v) dueKey then s1.issue q r v else s1.refpb q v
  | some r, false => s1.issue q r v
  | none, true => s1.refpb q v
  | none, false => s

/-- The next choice of a running vault, none before vc `v0`. -/
def State.chooseRun (s0 : State) (q : Pch) (blocked : List Nat) (v0 : Nat) : State :=
  let s := (s0.ceilAt q v0).insertAt q v0
  if (s.pch q).forcing then s.forceNow q v0
  else
    let cands := s.candidates q blocked
    let due := s.dueAt q v0
    let times := cands.map (·.2) ++ due.toList
    match times.min? with
    | none => s
    | some t =>
      let v := max (max v0 t) (s.pch q).busyTo
      let s1 := (s.ceilAt q v).insertAt q v
      if (s1.pch q).forcing then s1.forceNow q v
      else s1.chooseAt q cands (match due with | some d => d ≤ v | none => false) v

/-- VAULT_COMMAND: the pseudo-channel chooses its next command. `blocked` names the requests whose next command the
stack's timing does not permit. -/
def State.vaultCommand (s : State) (q : Pch) (blocked : List Nat) : State :=
  let dly := if s.tst.on && s.tst.vschedPc.getLsbD q.val then s.tst.vschedDly.toNat else 0
  let v0 := s.vc (s.clocks.vault.next s.now) + dly
  match s.vlt.st with
  | .train => (s.ceilAt q v0).refreshOnly q v0
  | .init => (s.ceilAt q v0).refreshOnly q v0
  | .frozen => if s.debtRises then (s.ceilAt q v0).refreshOnly q v0 else s
  | .run => if s.vlt.srEntry.isSome || s.vlt.srExit.isSome then s else s.chooseRun q blocked v0
  | _ => s

/-! ## Data return (R385, R387, R435, R436) -/

/-- A corrected read of a codeword: count, log, cause CE. -/
def State.countCe (s : State) (q : Pch) (g : Nat) : State :=
  (s.modPch q fun p => { p with ce := satAdd p.ce 1, ceLog := BitVec.ofNat 30 g }).raiseFrom false (pcSrc q) 0x01
    (s.tst.eccList.contains g)

/-- An uncorrectable read of a codeword: cause UE, and the freeze. -/
def State.countUe (s : State) (q : Pch) (g port kind v : Nat) (syn : BitVec 16) : State :=
  (s.raiseFrom false (pcSrc q) 0x02 (s.tst.eccList.contains g)).freeze v q.val
    (pack 32 [bitAt 31 true, (24, port), (16, q.val), (12, kind), (8, gH g)]) (some (g, syn)) 0x01

/-- One codeword of a read is classified. -/
def State.account (s : State) (q : Pch) (g port kind v : Nat) (x : ReadResult) : State :=
  if x.bad then s.countUe q g port kind v x.syn
  else if x.corrected then s.countCe q g
  else s

/-- The codewords that a request reads. -/
def Req.halves (r : Req) : List Nat :=
  match r.kind, r.data with
  | .codewordRead, [(h, _)] => [2 * r.burst + bit h]
  | _, _ => [2 * r.burst, 2 * r.burst + 1]

/-- The words of a read of port RD or DG go to the port. -/
def State.giveData (s : State) (r : Req) (ws : List (Nat × Qword)) : State :=
  if 8 ≤ r.port ∧ r.port < 12 then
    { s with via := { s.via with xfers := s.via.xfers.mapIdx fun i x =>
        if i + 8 = r.port then x.map fun y => { y with got := y.got ++ ws.filter fun w => y.gs.contains w.1 } else x } }
  else if r.port = 13 && r.kind = .codewordRead then
    { s with msp := { s.msp with cmd := s.msp.cmd.map fun c => { c with got := c.got ++ ws } } }
  else s

/-- The last burst of the pseudo-channel's scrub has been read (R430). -/
def Req.lastScrub (r : Req) : Bool := r.row == 32767 && r.bank == 15 && gCol (2 * r.burst) == 31

/-- A pseudo-channel has read its last scrub burst; when all 32 have, a pass is complete. -/
def State.scrubStep (s : State) (r : Req) : State :=
  if r.lastScrub then
    if s.vlt.scrubbed + 1 = 32 then
      (Vault.mod s fun w => { w with scrubbed := 0, scrubPass := w.scrubPass + 1 }).raise 137 0x10
    else Vault.mod s fun w => { w with scrubbed := w.scrubbed + 1 }
  else s

/-- The read data of a request return. `flips0` and `flips1` are what the stack changed in its two codewords. -/
def State.readReturn (s : State) (id : Nat) (flips0 flips1 : Codeword) : State :=
  match s.vlt.reqs.find? fun r => r.id == id && r.issued with
  | none => s
  | some r =>
    let q := pcOf r.pc
    let v := s.vc (s.clocks.vault.next s.now)
    let frozen := s.frozen
    let read := r.halves.map fun g => (g, readCode g (s.stored g ^^^ (if g % 2 = 0 then flips0 else flips1)))
    let s1 := read.foldl (fun z x => z.account q x.1 r.port (frzKind r.kind) v x.2) s
    let bad := read.any (·.2.bad)
    let words := read.map fun x => (x.1, x.2.word)
    if frozen then s1.finishReq r v
    else if bad then
      let first := ((read.find? fun x => x.2.bad).map (·.1)).getD 0
      let s2 := if r.port = 13 then
          { s1 with msp := { s1.msp with cmd := s1.msp.cmd.map fun c => { c with bad := some (c.bad.getD first) } } }
        else s1
      s2.finishReq r v
    else
      match r.kind with
      | .readBurst => (s1.giveData r words).finishReq r v
      | .codewordRead => (s1.giveData r words).finishReq r v
      | .scrub =>
        let s2 := s1.scrubStep r
        if read.any (·.2.corrected) then
          s2.modReq id fun x => { x with kind := .writeBack, issued := false, gotRead := true
                                         data := words.map fun w => (w.1 % 2 == 1, w.2) }
        else s2.finishReq r v
      | _ =>
        let keep := fun (w : Nat × Qword) => match r.data.find? fun d => d.1 == (w.1 % 2 == 1) with
          | some d => d
          | none => (w.1 % 2 == 1, w.2)
        s1.modReq id fun x => { x with
          issued := false, gotRead := true, data := words.map keep
          only := match r.data with | [d] => some d.1 | _ => none }

/-- CAPAR: the stack reports a command/address parity error. -/
def State.capar (s0 : State) (t : Instant) (q : Pch) : State :=
  let s := s0.at_ t
  if s.vlt.st = .off ∨ s.pwr.mode = .reset then s
  else
    let v := s.vc (s.clocks.vault.next s.now)
    (s.raise (pcSrc q) 0x04).freeze v q.val (pack 32 [bitAt 31 true, bitAt 30 true, (24, 15), (16, q.val), (12, 4)]) none 0x02

/-! ## Timed rows -/

/-- PROMOTION of a request that has waited 2,048 vc (R395). -/
def State.promote (s : State) (id : Nat) : State :=
  match s.vlt.reqs.find? fun r => r.id == id && r.presented && !r.promoted && !r.issued with
  | none => s
  | some r =>
    if s.frozen then s
    else
      let s1 := (s.at_ (s.vcAt (r.accepted + 2048))).modReq id fun x => { x with promoted := true }
      let s2 := Vault.mod s1 fun w => { w with promo := setAt w.promo r.port (satAdd (w.promo.getD r.port 0) 1) }
      if r.port < 8 then s2.raise 136 0x02 else s2

/-- ROW_IDLE_CLOSE: an open row without access for IDLEC × 16 vc (R397). -/
def State.rowClose (s : State) (q : Pch) (bank : Fin 16) : State :=
  let p := s.pch q
  match p.rows.getD bank.val none with
  | some (row, last) =>
    if s.vlt.st = .run then
      let v := last + s.vlt.idlec * 16
      (s.at_ (s.vcAt v)).setPch q ({ p with rows := setAt p.rows bank.val none }.logOwn v cmdPre bank.val row)
    else s
  | none => s

/-- REFRESH_CEILING: the end of the vc at which D reaches 8I. -/
def State.refreshCeiling (s : State) (q : Pch) : State :=
  let p := s.pch q
  if s.debtRises then
    let v := p.dAt + (8 * s.vlt.interval - p.debt)
    (s.at_ (s.vcAt v)).ceilAt q v
  else s

/-- NRR_WINDOW_END: 8,192 units have been committed (R429). -/
def State.nrrWindow (s : State) (q : Pch) : State :=
  let p := s.pch q
  if 8192 ≤ p.units then s.setPch q { p with units := p.units - 8192, nrr := [] } else s

/-- The conditions under which the idle timer counts, at vc `v` (R424). -/
def State.idleHolds (s : State) (v : Nat) : Bool :=
  s.vlt.st == .run && s.vlt.srEntry.isNone && s.vlt.srExit.isNone && !s.anyArmed
    && !((List.finRange 32).any fun r => (s.ring r).en && !(s.ring r).queue.isEmpty)
    && s.vlt.reqs.all (fun r => r.kind == .scrub)
    && (List.finRange 32).all fun q => s.debtAt (s.pch q) v < s.vlt.interval

/-- SELF_REFRESH_ENTRY: the idle timer reaches SRIDLE × 250 mc; all rows close. -/
def State.srEnter (s : State) : State :=
  match s.vlt.idleFrom with
  | none => s
  | some m =>
    let t := s.mcAt (m + s.vlt.sridle * 250)
    let v := s.vc (s.clocks.vault.next t)
    if s.vlt.sridle != 0 && s.idleHolds v then
      (s.at_ t).srBegin v
    else s

/-- SELF_REFRESH_ENTERED after 256 vc. A change of VAULT spread that waited for it starts its lock (R162). -/
def State.srEntered (s : State) : State :=
  match s.vlt.srEntry with
  | some v =>
    if s.vlt.st = .run then
      (Vault.mod (s.at_ (s.vcAt (v + 256))) fun w => { w with
        st := .selfref, srcnt := satAdd w.srcnt 1
        pcs := w.pcs.map fun p => { p with debt := 0, dAt := v + 256 } }).sscApply
    else s
  | none => s

/-- SELF_REFRESH_EXIT begins at the event that asks for it, or when entry ends. -/
def State.srExitBegin (s : State) : State :=
  match s.vlt.st, s.vlt.srWake, s.vlt.srExit with
  | .selfref, some w, none =>
    let v := max w (match s.vlt.srEntry with | some e => e + 256 | none => w)
    Vault.mod (s.at_ (s.vcAt v)) fun x => { x with srExit := some v }
  | _, _, _ => s

/-- SELF_REFRESH_EXIT_DONE after 1,024 vc, one REFab in every pseudo-channel included; a vault that froze meanwhile stays
frozen. -/
def State.srExitDone (s : State) : State :=
  match s.vlt.srExit with
  | some v =>
    let n := v + 1024
    let s1 := Vault.mod (s.at_ (s.vcAt n)) fun w => { w with
      st := if w.st = .frozen then .frozen else .run, srEntry := none, srExit := none, srWake := none
      pcs := w.pcs.map fun p => ((p.awake n).logOwn v cmdSrx 0 0).logOwn v cmdRefab 0 0 }
    (s1.presentAll n).idleRestart
  | none => s

/-- SCRUB_READ: a pseudo-channel asks for its next burst (R430). -/
def State.scrubRead (s : State) (q : Pch) : State :=
  let p := s.pch q
  if s.vlt.st = .run && s.vlt.srEntry.isNone && s.vlt.scrubInt != 0 then
    let v := p.scrubLast + s.vlt.scrubInt * 64
    let i := p.scrubAt
    let g := galleyOf q.val (bits i 5 4) (bits i 9 15) (bits i 0 5)
    let idle := s.vlt.idleFrom
    let s1 := ((s.at_ (s.vcAt v)).setPch q { p with scrubAt := (i + 1) % 2 ^ 24, scrubLast := v }).submit v 12 .scrub (g / 2) [] false
    Vault.mod s1 fun w => { w with idleFrom := idle }
  else s

/-! ## Training and initialisation (R380, R432 to R434) -/

/-- Eye width of a lane record, and whether the lane passed (Table 12.12). -/
def laneEye (w : Word) : Nat := fld w 4 8
def laneOk (w : Word) : Bool := w.getLsbD 0

/-- The lane with the narrowest eye; of equal ones the lowest. -/
def narrowest (l : List Word) : Nat × Nat :=
  ((l.mapIdx fun i w => (i, laneEye w)).foldl (fun (a : Option (Nat × Nat)) x => match a with
    | none => some x
    | some y => if x.2 < y.2 then some x else some y) none).getD (0, 0)

/-- The results of training come into force. -/
def State.trained (s : State) (result : BitVec 4) (lanes : List Word) : State :=
  let n := narrowest lanes
  Vault.mod s fun w => { w with
    trnResult := result, trnLanes := lanes, trnWlane := BitVec.ofNat 11 n.1, trnWeye := BitVec.ofNat 8 n.2, trnStart := none }

/-- Training or a restore starts: refresh runs from the first mode-register write (R419, R432). -/
def State.trainBegin (s : State) (m : Nat) (quick : Bool) : State :=
  let v := s.vc (s.mcAt m)
  Vault.mod s fun w => { w with
    st := .train, trnStart := some (m, quick), pcs := w.pcs.map fun p => { p with debt := 0, dAt := v } }

/-- TRAINING_END, 10,250,000 mc after the start. -/
def State.trainingEnd (s : State) (lanes : List Word) (passed : Bool) : State :=
  match s.vlt.trnStart with
  | some (m, false) =>
    let s1 := s.at_ (s.mcAt (m + 10250000))
    if passed && lanes.length == 1152 && lanes.all (fun w => laneOk w && 20 ≤ laneEye w) then
      s1.trained (if s1.nvm.rfail then 3 else 1) lanes
    else ((s1.trained 4 lanes).raise 137 0x04).halt 9 0
  | _ => s

/-- QUICK_RESTORE_END, 250,000 mc after the start; a failed one is followed by full training. -/
def State.restoreEnd (s : State) (verified : Bool) : State :=
  match s.vlt.trnStart with
  | some (m, true) =>
    let e := m + 250000
    let s1 := s.at_ (s.mcAt e)
    if verified then
      s1.trained 2 (((s1.nvm.flash.bind (·.train)).map (·.lanes)).getD [])
    else
      (({ s1 with nvm := { s1.nvm with rfail := true } }).raise 137 0x08).trainBegin e false
  | _ => s

/-- STACK_INIT_END: every codeword holds zero data and its check bits; the vault runs. -/
def State.initEnd (s : State) : State :=
  match s.vlt.initStart with
  | some v =>
    let n := v + 41943040
    let s1 := { s.at_ (s.vcAt n) with mem := [], chk := [] }
    (Vault.mod s1 fun w => { w with
      st := .run, initStart := none, poolMin := poolSize w
      pcs := w.pcs.map fun p => { p with scrubLast := n, scrubAt := 0 } }).idleRestart
  | none => s

/-! ## What a port reads now -/

/-- The data of galley word g after every accepted write that waits. -/
def State.pendingWord (s : State) (g : Nat) : Option Qword :=
  ((s.vlt.reqs.filter fun r => r.presented && r.burst == g / 2).foldl (fun a r =>
    match r.data.find? fun d => d.1 == (g % 2 == 1) with
    | some d => if r.kind == .codewordRead then a else some d.2
    | none => a) none)

/-! ## Registers (Tables 11.10, 11.12 to 11.14, 12.7, 12.9, 12.11) -/

def VltState.code : VltState → Nat
  | .off => 0 | .train => 1 | .init => 2 | .run => 3 | .selfref => 4 | .safe => 5 | .frozen => 6

def Vault.stat (w : Vault) : Word := pack 32 [(28, w.st.code), (0, w.reqs.countP (·.presented))]

def Vault.admStat (w : Vault) : Word := pack 32 [bitAt 31 w.admDone, (24, w.admResult.toNat), (16, w.admPierNo.toNat)]

def Vault.poolWord (w : Vault) : Word := pack 32 [(16, w.poolMin), (0, poolFree w w.reqs)]

/-- VLT.PORT_STAT[p] at vc `v`. -/
def Vault.portStat (w : Vault) (p v : Nat) : Word :=
  let l := w.reqs.filter fun r => r.presented && r.port == p
  pack 32 [(30, l.foldl (fun a r => max a (r.urgency w v)) 0), (0, l.length)]

def Vault.portCnt (w : Vault) (p : Nat) : Word := pack 32 [(16, (w.promo.getD p 0).toNat), (0, (w.late.getD p 0).toNat)]

def Vault.mntStat (w : Vault) : Word :=
  pack 32 [bitAt 31 w.dbl, bitAt 30 w.rdFail, (16, w.stemp.toNat), (0, w.srcnt.toNat)]

def Vault.trnStat (w : Vault) : Word := pack 32 [(28, w.trnResult.toNat), (16, w.trnWlane.toNat), (0, w.trnWeye.toNat)]

/-- VLT.PC_DEBT[q] at vc `v`. -/
def State.debtWord (s : State) (q : Pch) (v : Nat) : Word :=
  let p := s.pch q
  pack 32 [(28, p.rptr.toNat), (0, satNat 15 (s.debtAt p v))]

/-! ## Meanings -/

def execVaultCommand (q : Pch) (blocked : List Nat) (s : State) : Host.Outcome State Fault Refusal :=
  .next (s.vaultCommand q blocked)
def execCapar (at_ : Instant) (q : Pch) (s : State) : Host.Outcome State Fault Refusal := .next (s.capar at_ q)
def execPromotion (id : Nat) (s : State) : Host.Outcome State Fault Refusal := .next (s.promote id)
def execRowIdleClose (q : Pch) (bank : Fin 16) (s : State) : Host.Outcome State Fault Refusal := .next (s.rowClose q bank)
def execRefreshCeiling (q : Pch) (s : State) : Host.Outcome State Fault Refusal := .next (s.refreshCeiling q)
def execNrrWindowEnd (q : Pch) (s : State) : Host.Outcome State Fault Refusal := .next (s.nrrWindow q)
def execTemperatureReading (at_ : Instant) (r : Option Int) (s : State) : Host.Outcome State Fault Refusal :=
  .next (s.stackReading at_ r)
def execSelfRefreshEntry (s : State) : Host.Outcome State Fault Refusal := .next s.srEnter
def execSelfRefreshEntered (s : State) : Host.Outcome State Fault Refusal := .next s.srEntered
def execSelfRefreshExit (s : State) : Host.Outcome State Fault Refusal := .next s.srExitBegin
def execSelfRefreshExitDone (s : State) : Host.Outcome State Fault Refusal := .next s.srExitDone
def execScrubRead (q : Pch) (s : State) : Host.Outcome State Fault Refusal := .next (s.scrubRead q)
def execTrainingEnd (lanes : List Word) (passed : Bool) (s : State) : Host.Outcome State Fault Refusal :=
  .next (s.trainingEnd lanes passed)
def execQuickRestoreEnd (verified : Bool) (s : State) : Host.Outcome State Fault Refusal := .next (s.restoreEnd verified)
def execStackInitEnd (s : State) : Host.Outcome State Fault Refusal := .next s.initEnd

end Sys2Proof.Machine
end

