-- ==== Sys2Proof/Machine/Galley.lean ====
section
/-! DEFINITION. The galley writers' chunk buffers: hand-over, chunk presentation, flush (R391 to R393; R291). -/

namespace Sys2Proof.Machine

/-! ## Bursts of a group of words (R391, R392, R397) -/

/-- What is written to one burst: both halves or one. -/
abbrev BurstData := Nat × List (Bool × Qword)

/-- Put a word into its burst; bursts stand in the order of their first word. -/
def intoBurst (l : List BurstData) (w : BufWord) : List BurstData :=
  let b := w.g / 2
  let d := (w.g % 2 == 1, w.word)
  if l.any (·.1 == b) then l.map fun x => if x.1 = b then (b, x.2.filter (·.1 != d.1) ++ [d]) else x else l ++ [(b, [d])]

/-- Bursts of some words. -/
def burstsOf (ws : List BufWord) : List BurstData := ws.foldl intoBurst []

/-- Every burst with its page hint: 0 for the last one of its row (R397). -/
def withHints : List BurstData → List (BurstData × Bool)
  | [] => []
  | b :: t =>
    let g := 2 * b.1
    let same := fun (c : BurstData) => gPc (2 * c.1) == gPc g && gRow (2 * c.1) == gRow g && gBank (2 * c.1) == gBank g
    (b, t.any same) :: withHints t

/-- The vc at which what WPk presents now reaches the request table (Table 20.14; Table 17.6). -/
def State.presentVc (s : State) (k : Pier) : Nat :=
  s.vc (s.clocks.vault.cross win250 (4 + s.xdlyOf (192 + k.val)) s.now)

/-- Present a group of bursts as requests. -/
def State.presentBursts (s : State) (k : Pier) (l : List BurstData) : State :=
  let v := s.presentVc k
  (withHints l).foldl (fun z b =>
    z.submit v k.val (if b.1.2.length = 2 then .writeBurst else .rmw) b.1.1 b.1.2 b.2) s

/-! ## Chunks (R391) -/

/-- The chunk of a galley word address. -/
def chunkOf (g : Nat) : Nat := g / 128

/-- Complete bursts among the words of a chunk. -/
def completeBursts (ws : List BufWord) : List BurstData := (burstsOf ws).filter fun b => b.2.length == 2

/-- Present the complete bursts of a chunk; their words leave the buffer. -/
def State.presentChunk (s : State) (k : Pier) (n : Nat) : State :=
  let l := completeBursts ((s.writers[k]).filter fun w => chunkOf w.g == n)
  let rest := (s.writers[k]).filter fun w => !(l.any fun b => b.1 == w.g / 2)
  { s with writers := s.writers.set k rest }.presentBursts k l

/-- A burst of the record that closes with one word: the other may be the trigger word, of which the writer keeps a copy
(R392). -/
def fromCopy (tw : Option (Nat × Qword)) (b : BurstData) : BurstData :=
  match tw, b.2 with
  | some (g, w), [d] => if g / 2 = b.1 ∧ (g % 2 == 1) ≠ d.1 then (b.1, [d, (g % 2 == 1, w)]) else b
  | _, _ => b

/-- At the record boundary every remaining word of the record is presented, then the four bursts of the colophon. -/
def State.presentRecord (s : State) (k : Pier) (c : Chan) : State :=
  let mine := (s.writers[k]).filter fun w => w.ch == c
  let rest := (s.writers[k]).filter fun w => w.ch != c
  let body := (burstsOf (mine.filter fun w => !w.final)).map (fromCopy (s.chan c).twHeld)
  let colo := burstsOf (mine.filter (·.final))
  ({ s with writers := s.writers.set k rest }.modChan c fun x => { x with twHeld := none }).presentBursts k (body ++ colo)

/-- The word ends its chunk: it is the last one of the aligned block, or of its slot. -/
def State.endsChunk (s : State) (c : Chan) (g : Nat) : Bool :=
  let r := (s.chan c).rcd
  g % 128 == 127 || (g + 1 == r.base + r.r + 8)

/-! ## Rows -/

/-- HAND_OVER: the writer takes the oldest word of the channel's output queue, 3 dc after its hand-over (Table 20.14). A
full buffer holds the merge with WSTALL (R393); so does a stall of the intake, whose start has raised WSTALL. -/
def State.handOver (s : State) (c : Chan) : State :=
  let x := s.chan c
  let k := pierOf c
  match x.outq with
  | [] => s
  | w :: rest =>
    let s1 := s.at_ (s.dcAt (w.dc + 3))
    match w.g with
    | none => s1.setChan c { x with outq := rest }
    | some g =>
      if !s1.writerRoom k then
        let s2 := s1.setChan c { x with
          merge := { x.merge with held := true }
          folder := { x.folder with frozen := some (s1.streamTime c (s1.dc s1.now)) } }
        if x.merge.held || s.intakeStalled k then s2 else s2.raise 136 0x01
      else
        let b : BufWord := { ch := c, g := g, word := w.word, dc := s1.dc s1.now, final := w.final }
        let s2 := { s1.setChan c { x with outq := rest } with writers := s1.writers.set k (s1.writers[k] ++ [b]) }
        let s3 := if w.final then (if rest.any (·.final) then s2 else s2.presentRecord k c)
          else if s2.endsChunk c g then s2.presentChunk k (chunkOf g) else s2
        s3.pierOffCheck k

/-- Chunks of a buffer that have a complete burst, each with the dc of its oldest word. -/
def flushable (ws : List BufWord) : List (Nat × Nat) :=
  (ws.map fun w => chunkOf w.g).eraseDups.filterMap fun n =>
    let mine := ws.filter fun w => chunkOf w.g == n && !w.final
    if (completeBursts mine).isEmpty then none else some (n, (mine.map (·.dc)).foldl min ((mine.map (·.dc)).headD 0))

/-- FLUSH: the oldest word of a partial chunk has waited FLUSH × 64 dc. -/
def State.flushRow (s : State) (k : Pier) : State :=
  let best := (flushable (s.writers[k])).foldl (fun (a : Option (Nat × Nat)) x => match a with
    | none => some x
    | some y => if x.2 < y.2 then some x else some y) none
  match best with
  | none => s
  | some (n, d) => (((s.at_ (s.dcAt (d + s.vlt.flush * 64))).presentChunk k n)).pierOffCheck k

/-! ## Meanings -/

def execHandOver (c : Chan) (s : State) : Host.Outcome State Fault Refusal := .next (s.handOver c)
def execFlush (k : Pier) (s : State) : Host.Outcome State Fault Refusal := .next (s.flushRow k)

end Sys2Proof.Machine
end

