-- ==== Sys2Proof/Machine/Integer.lean ====
section
/-! DEFINITION. Integer instructions of the engine (06_compositor_instructions.md, R221, R222, Table 6.3). -/

namespace Sys2Proof.Machine

/-- NOP (Table 6.3): no operation. -/
def execEngineNop (c : Chan) (s : State) : Host.Outcome State Fault Refusal :=
  .next (s.engOp c (.engineNop c) 1 fun e => e)

/-- ADD (Table 6.3). -/
def execAdd (c : Chan) (d a b : BitVec 4) (s : State) : Host.Outcome State Fault Refusal :=
  .next (s.engOp c (.add c d a b) 1 fun e =>
    let r := e.gr a + e.gr b
    (e.gw d r).setFl (addFlags (e.gr a) (e.gr b)))

/-- SUB (Table 6.3). -/
def execSub (c : Chan) (d a b : BitVec 4) (s : State) : Host.Outcome State Fault Refusal :=
  .next (s.engOp c (.sub c d a b) 1 fun e =>
    let r := e.gr a - e.gr b
    (e.gw d r).setFl (subFlags (e.gr a) (e.gr b)))

/-- AND (Table 6.3). -/
def execAnd (c : Chan) (d a b : BitVec 4) (s : State) : Host.Outcome State Fault Refusal :=
  .next (s.engOp c (.and c d a b) 1 fun e =>
    let r := e.gr a &&& e.gr b
    (e.gw d r).setFl (e.fl.zn r))

/-- OR (Table 6.3). -/
def execOr (c : Chan) (d a b : BitVec 4) (s : State) : Host.Outcome State Fault Refusal :=
  .next (s.engOp c (.or c d a b) 1 fun e =>
    let r := e.gr a ||| e.gr b
    (e.gw d r).setFl (e.fl.zn r))

/-- XOR (Table 6.3). -/
def execXor (c : Chan) (d a b : BitVec 4) (s : State) : Host.Outcome State Fault Refusal :=
  .next (s.engOp c (.xor c d a b) 1 fun e =>
    let r := e.gr a ^^^ e.gr b
    (e.gw d r).setFl (e.fl.zn r))

/-- SHL by Gb[7:0] (R222). -/
def execShl (c : Chan) (d a b : BitVec 4) (s : State) : Host.Outcome State Fault Refusal :=
  .next (s.engOp c (.shl c d a b) 1 fun e =>
    let r := shl64 (e.gr a) (shiftCount (e.gr b))
    (e.gw d r).setFl (e.fl.shifted r (outLeft (e.gr a) (shiftCount (e.gr b)))))

/-- SHR by Gb[7:0] (R222). -/
def execShr (c : Chan) (d a b : BitVec 4) (s : State) : Host.Outcome State Fault Refusal :=
  .next (s.engOp c (.shr c d a b) 1 fun e =>
    let r := shr64 (e.gr a) (shiftCount (e.gr b))
    (e.gw d r).setFl (e.fl.shifted r (outRight (e.gr a) (shiftCount (e.gr b)))))

/-- SAR by Gb[7:0] (R222). -/
def execSar (c : Chan) (d a b : BitVec 4) (s : State) : Host.Outcome State Fault Refusal :=
  .next (s.engOp c (.sar c d a b) 1 fun e =>
    let r := sar64 (e.gr a) (shiftCount (e.gr b))
    (e.gw d r).setFl (e.fl.shifted r (outRight (e.gr a) (shiftCount (e.gr b)))))

/-- MUL: the low 64 bits of the product (Table 6.3). -/
def execMul (c : Chan) (d a b : BitVec 4) (s : State) : Host.Outcome State Fault Refusal :=
  .next (s.engOp c (.mul c d a b) 1 fun e =>
    let r := e.gr a * e.gr b
    (e.gw d r).setFl (mulFlags (e.gr a) (e.gr b)))

/-- MIN, signed (Table 6.3). -/
def execMin (c : Chan) (d a b : BitVec 4) (s : State) : Host.Outcome State Fault Refusal :=
  .next (s.engOp c (.min c d a b) 1 fun e =>
    let r := if (e.gr a).sle (e.gr b) then e.gr a else e.gr b
    (e.gw d r).setFl (e.fl.zn r))

/-- MAX, signed (Table 6.3). -/
def execMax (c : Chan) (d a b : BitVec 4) (s : State) : Host.Outcome State Fault Refusal :=
  .next (s.engOp c (.max c d a b) 1 fun e =>
    let r := if (e.gr a).sle (e.gr b) then e.gr b else e.gr a
    (e.gw d r).setFl (e.fl.zn r))

/-- MINU, unsigned (Table 6.3). -/
def execMinu (c : Chan) (d a b : BitVec 4) (s : State) : Host.Outcome State Fault Refusal :=
  .next (s.engOp c (.minu c d a b) 1 fun e =>
    let r := if (e.gr a).ule (e.gr b) then e.gr a else e.gr b
    (e.gw d r).setFl (e.fl.zn r))

/-- MAXU, unsigned (Table 6.3). -/
def execMaxu (c : Chan) (d a b : BitVec 4) (s : State) : Host.Outcome State Fault Refusal :=
  .next (s.engOp c (.maxu c d a b) 1 fun e =>
    let r := if (e.gr a).ule (e.gr b) then e.gr b else e.gr a
    (e.gw d r).setFl (e.fl.zn r))

/-- CMP: flags of Ga - Gb (Table 6.3). -/
def execCmp (c : Chan) (a b : BitVec 4) (s : State) : Host.Outcome State Fault Refusal :=
  .next (s.engOp c (.cmp c a b) 1 fun e => e.setFl (subFlags (e.gr a) (e.gr b)))

/-- ADDI with a sign-extended immediate (Table 6.3). -/
def execAddi (c : Chan) (d a : BitVec 4) (imm : BitVec 18) (s : State) : Host.Outcome State Fault Refusal :=
  .next (s.engOp c (.addi c d a imm) 1 fun e =>
    let r := e.gr a + s18 imm
    (e.gw d r).setFl (addFlags (e.gr a) (s18 imm)))

/-- ANDI with a zero-extended immediate (Table 6.3). -/
def execAndi (c : Chan) (d a : BitVec 4) (imm : BitVec 18) (s : State) : Host.Outcome State Fault Refusal :=
  .next (s.engOp c (.andi c d a imm) 1 fun e =>
    let r := e.gr a &&& u18 imm
    (e.gw d r).setFl (e.fl.zn r))

/-- ORI (Table 6.3). -/
def execOri (c : Chan) (d a : BitVec 4) (imm : BitVec 18) (s : State) : Host.Outcome State Fault Refusal :=
  .next (s.engOp c (.ori c d a imm) 1 fun e =>
    let r := e.gr a ||| u18 imm
    (e.gw d r).setFl (e.fl.zn r))

/-- XORI (Table 6.3). -/
def execXori (c : Chan) (d a : BitVec 4) (imm : BitVec 18) (s : State) : Host.Outcome State Fault Refusal :=
  .next (s.engOp c (.xori c d a imm) 1 fun e =>
    let r := e.gr a ^^^ u18 imm
    (e.gw d r).setFl (e.fl.zn r))

/-- SHLI (Table 6.3, R222). -/
def execShli (c : Chan) (d a : BitVec 4) (count : BitVec 6) (s : State) : Host.Outcome State Fault Refusal :=
  .next (s.engOp c (.shli c d a count) 1 fun e =>
    let r := shl64 (e.gr a) count.toNat
    (e.gw d r).setFl (e.fl.shifted r (outLeft (e.gr a) count.toNat)))

/-- SHRI (Table 6.3, R222). -/
def execShri (c : Chan) (d a : BitVec 4) (count : BitVec 6) (s : State) : Host.Outcome State Fault Refusal :=
  .next (s.engOp c (.shri c d a count) 1 fun e =>
    let r := shr64 (e.gr a) count.toNat
    (e.gw d r).setFl (e.fl.shifted r (outRight (e.gr a) count.toNat)))

/-- SARI (Table 6.3, R222). -/
def execSari (c : Chan) (d a : BitVec 4) (count : BitVec 6) (s : State) : Host.Outcome State Fault Refusal :=
  .next (s.engOp c (.sari c d a count) 1 fun e =>
    let r := sar64 (e.gr a) count.toNat
    (e.gw d r).setFl (e.fl.shifted r (outRight (e.gr a) count.toNat)))

/-- CMPI: flags of Ga - s18 (Table 6.3). -/
def execCmpi (c : Chan) (a : BitVec 4) (imm : BitVec 18) (s : State) : Host.Outcome State Fault Refusal :=
  .next (s.engOp c (.cmpi c a imm) 1 fun e => e.setFl (subFlags (e.gr a) (s18 imm)))

/-- MOVZ: IMM16 << 16h (Table 6.3). -/
def execMovz (c : Chan) (d : BitVec 4) (h : BitVec 2) (imm : BitVec 16) (s : State) : Host.Outcome State Fault Refusal :=
  .next (s.engOp c (.movz c d h imm) 1 fun e => e.gw d (imm.setWidth 64 <<< (16 * h.toNat)))

/-- MOVK: slot h of Gd (Table 6.3). -/
def execMovk (c : Chan) (d : BitVec 4) (h : BitVec 2) (imm : BitVec 16) (s : State) : Host.Outcome State Fault Refusal :=
  .next (s.engOp c (.movk c d h imm) 1 fun e => e.gw d (slot16 (e.gr d) h imm))

/-- CSEL (Table 6.3, R220). -/
def execCsel (c : Chan) (d a b cond : BitVec 4) (s : State) : Host.Outcome State Fault Refusal :=
  .next (s.engOp c (.csel c d a b cond) 1 fun e => e.gw d (if e.fl.holds cond then e.gr a else e.gr b))

/-- CLZ: leading zero bits, 0 to 64 (Table 6.3). -/
def execClz (c : Chan) (d a : BitVec 4) (s : State) : Host.Outcome State Fault Refusal :=
  .next (s.engOp c (.clz c d a) 1 fun e =>
    let r : Dword := BitVec.ofNat 64 (clz64 (e.gr a))
    (e.gw d r).setFl (e.fl.zn r))

end Sys2Proof.Machine
end

