-- ==== Sys2Proof/Machine/Viaduct.lean ====
section
/-! DEFINITION. Readout: host rings, read ports, BAR2, the PCIe link, and the release of folios
(09_records_and_readout.md, R334 to R350; 08_trigger_and_galley.md, R300 to R307). -/

namespace Sys2Proof.Machine

def State.send (s : State) (o : PcieOut) : State := { s with via := { s.via with out := s.via.out ++ [o] } }

/-! ## Releasing a folio (R300 to R302, R306, R307) -/

/-- The closed record of a folio. -/
def State.closedRecOf (s : State) (f : Nat) : Option Closed := s.closed.find? fun r => r.folio == f

/-- A HELD channel that is to re-arm does so 6,144 mc after the release that completes at `t`, where it is bound (R300,
R366). -/
def State.askRearm (s : State) (c : Chan) (t : Instant) : State :=
  let x := s.chan c
  if x.held && x.wantRearm && s.bound c && x.cfg.circ.getLsbD 31 && x.heldRearm.isNone then
    s.setChan c { x with heldRearm := some (s.mcAt (s.mc t + rearmMc)) }
  else s

/-- The folio of a closed record is freed at `t`: its place is free, and the ring forgets it. -/
def State.freeRecord (s : State) (f : Nat) (t : Instant) : State :=
  match s.closedRecOf f with
  | none => s
  | some r =>
    let s1 := { s with closed := s.closed.filter fun x => x.folio != f }.setFolio f Folio.free
    let s2 := s1.modRing r.ring fun q => { q with queue := q.queue.filter (· != f) }.settle t
    ((s2.askRearm r.ch t).settleIdle r.ch).idleRestart

/-! ## The stream of a record (R334) -/

/-- Words of the stream. -/
def Closed.total (r : Closed) : Nat := 8 + r.words

/-- Galley word address of stream word i: the colophon, then the ring from its oldest word. -/
def Closed.streamWord (r : Closed) (i : Nat) : Nat :=
  if i < 8 then r.base + i else r.base + 8 + ((if r.wrap then r.wend else 0) + (i - 8)) % r.r

/-! ## Descriptors (R336 to R340) -/

def flgSop : Nat := 1
def flgEop : Nat := 2
def flgSeg : Nat := 4
def flgAbandon : Nat := 8
def flgBad : Nat := 16

/-- LEN and ADDR of a descriptor obey Table 9.10. -/
def descOk (d : Desc) : Bool := d.addr.toNat % 64 == 0 && d.len.toNat % 64 == 0 && 64 ≤ d.len.toNat

/-- The ring's vector is raised; a masked one becomes pending. -/
def State.vector (s : State) (r : Ring) : State :=
  let s1 := { s with via := { s.via with irqStat := s.via.irqStat ||| BitVec.ofNat 32 (2 ^ r.val) } }
  if (sget 0 s1.via.msix (4 * r.val + 3)).getLsbD 0 then
    { s1 with via := { s1.via with msixPend := s1.via.msixPend ||| BitVec.ofNat 32 (2 ^ r.val) } }
  else s1.send (.msix r)

/-- Write back the descriptor at RING_HEAD. -/
def State.writeBack (s : State) (r : Ring) (d : Desc) (x : Closed) (wlen flg : Nat) : State :=
  let q := s.ring r
  let s1 := s.send (.writeBack r q.head (BitVec.ofNat 32 wlen) (BitVec.ofNat 16 x.folio) (BitVec.ofNat 8 x.ch.val)
    (BitVec.ofNat 8 (flg + if x.isSeg then flgSeg else 0)) x.recNo q.seq)
  let s2 := s1.modRing r fun q => { q with
    head := BitVec.ofNat 16 ((q.head.toNat + 1) % 2 ^ q.log2n.toNat), descs := q.descs.drop 1, descVis := q.descVis.drop 1 }
  if d.ctrl.getLsbD 0 || (flg / 2 % 2 == 1 && q.irqen) then s2.vector r else s2

/-- A delivery ends: the ring goes on to its next record. -/
def State.endDelivery (s : State) (r : Ring) (counts : Bool) : State :=
  s.modRing r fun q => { q with
    delivery := none, seq := q.seq + 1, done := if counts then q.done + 1 else q.done, queue := q.queue.drop 1 }.settle s.now

/-- The EOP write-back completes the delivery (R340). -/
def State.delivered (s : State) (r : Ring) (x : Closed) : State :=
  let s1 := (s.modFolio x.folio fun f => { f with st := 3 }).endDelivery r true
  (if (s1.ring r).autorel then s1.freeRecord x.folio s1.now else s1.idleRestart).sscApply

/-- An abandoned delivery writes back the descriptor in use with EOP and ABANDON, and the folio is freed (R341). -/
def State.abandonNow (s : State) (r : Ring) (d : Delivery) (x : Closed) : State :=
  let s1 := match (s.ring r).descs with
    | h :: _ => s.writeBack r h x d.inDesc (flgEop + flgAbandon + if d.first then flgSop else 0)
    | [] => s
  (((s1.raise 205 0x08).endDelivery r false).freeRecord x.folio s1.now).sscApply

/-- Put the words read into descriptors, as far as they reach; `fuel` bounds the descriptors visited. -/
def State.fillDescs (fuel : Nat) (s : State) (r : Ring) (x : Closed) : State :=
  match fuel with
  | 0 => s
  | n + 1 =>
    let q := s.ring r
    match q.delivery, q.descs with
    | some d, h :: _ =>
      if d.fetched.isEmpty then s
      else if !descOk h then
        ((s.writeBack r h x 0 flgBad).raise 205 0x02).fillDescs n r x
      else
        let k := min ((h.len.toNat - d.inDesc) / 16) d.fetched.length
        let d1 := { d with sent := d.sent + k, inDesc := d.inDesc + 16 * k, fetched := d.fetched.drop k }
        let s1 := (s.send (.data (h.addr + BitVec.ofNat 64 d.inDesc) (d.fetched.take k) s.now)).modRing r fun q => { q with delivery := some d1 }
        let sop := if d.first then flgSop else 0
        if d1.sent = x.total then (s1.writeBack r h x d1.inDesc (flgEop + sop)).delivered r x
        else if d1.inDesc = h.len.toNat then
          ((s1.writeBack r h x d1.inDesc sop).modRing r fun q => { q with
            delivery := some { d1 with inDesc := 0, first := false } }.settle s.now).fillDescs n r x
        else s1
    | _, _ => s

/-- The words that a delivery has read have come to the endpoint (R10, R670). -/
def Delivery.here (d : Delivery) (t : Instant) : Bool := d.fetched.isEmpty || decide (d.arrived ≤ t)

/-- Fill descriptors with what has come to the endpoint, and abandon the delivery where a RELEASE asked for it. -/
def State.deliver (s : State) (r : Ring) : State :=
  match ((s.ring r).delivery.filter fun d => d.here s.now).bind fun d => s.closedRecOf d.folio with
  | none => s
  | some x =>
    let s1 := s.fillDescs ((s.ring r).descs.length + 1) r x
    match (s1.ring r).delivery with
    | some d => if d.abandon && !(s1.via.xfers.any fun y => match y with | some t => t.ring == r && t.live | none => false) then
        s1.abandonNow r d x else s1
    | none => s1

/-! ## Read ports (R335) -/

/-- The LINK edge at which a beat that read port `j` has now is at the endpoint: 4 lc from VAULT to LINK (R670), and the
delay that the perturbation facility adds to the port's crossing (R11, Table 17.6). -/
def State.endpointEdge (s : State) (j : Nat) : Instant :=
  s.clocks.link.cross win250 (4 + s.xdlyOf (200 + j)) s.now

/-- A transfer whose words have all left the vault: they go to the delivery of its ring, and are at the endpoint from
`arrived` on. -/
def State.xferDone (s : State) (j : Nat) : State :=
  match s.via.xfers.getD j none with
  | none => s
  | some t =>
    if t.gs.any fun g => !(t.got.any fun p => p.1 == g) then s
    else
      let words := t.gs.map fun g => ((t.got.find? fun p => p.1 == g).map (·.2)).getD 0
      let s1 := { s with via := { s.via with xfers := setAt s.via.xfers j none } }
      if t.live then
        s1.modRing t.ring fun q => { q with delivery := q.delivery.map fun d => { d with
          fetched := d.fetched ++ words, arrived := s.endpointEdge j } }
      else s1

/-- The words that a ring has read come to the endpoint: its descriptors are filled there, and what follows from a full
descriptor or a complete record starts there (R10, R11). -/
def State.arrive (s : State) (r : Ring) : State :=
  match (s.ring r).delivery with
  | some d => (if d.fetched.isEmpty then s else s.at_ d.arrived).deliver r
  | none => s

/-- The ring can take a transfer: its record's words are not all asked for, and a descriptor is at hand. -/
def State.wantsXfer (s : State) (r : Ring) : Bool :=
  let q := s.ring r
  q.en && !q.descs.isEmpty &&
    match q.delivery, q.queue with
    | some d, _ => d.fetched.isEmpty && !d.abandon && (match s.closedRecOf d.folio with | some x => d.asked < x.total | none => false)
    | none, f :: _ => (s.closedRecOf f).isSome
    | none, [] => false

/-- The port sees a descriptor of the ring now (R7, Table 20.13). -/
def State.descSeen (s : State) (r : Ring) : Bool := (s.ring r).descVis.headD 0 ≤ s.now

/-- The rings of a read port, in the order in which it serves them next. -/
def State.portOrder (s : State) (j : Fin 4) : List Ring :=
  (List.range 8).map fun i => (Fin.ofNat 32 (4 * ((s.via.rr.getD j.val 0 + i) % 8) + j.val) : Ring)

/-- The port asks the vault for the next 4 KiB of the record of its next ring: the first that wants one and whose
descriptor it sees; where it sees none, the first that wants one, from that descriptor's visibility edge on. -/
def State.readPort (s : State) (j : Fin 4) : State :=
  if (s.via.xfers.getD j.val none).isSome || s.frozen then s
  else
    let order := s.portOrder j
    match (order.filter s.descSeen ++ order).find? s.wantsXfer with
    | none => s
    | some r =>
      let q := s.ring r
      let d := q.delivery.getD
        { folio := q.queue.headD 0, asked := 0, sent := 0, inDesc := 0, first := true, abandon := false, fetched := [],
          arrived := 0 }
      match s.closedRecOf d.folio with
      | none => s
      | some x =>
        let n := min 256 (x.total - d.asked)
        let gs := (List.range n).map fun i => x.streamWord (d.asked + i)
        let bursts : List BurstData := ((gs.map (· / 2)).eraseDups).map fun b => (b, [])
        let s1 := s.modRing r fun q => { q with delivery := some { d with asked := d.asked + n } }
        let s2 := { s1 with via := { s1.via with
          rr := setAt s1.via.rr j.val ((r.val / 4 + 1) % 8), xfers := setAt s1.via.xfers j.val (some { ring := r, gs := gs, got := [], live := true }) } }
        let v := s2.vc (s2.clocks.vault.next (max s2.now (q.descVis.headD 0)))
        (withHints bursts).foldl (fun z b => z.submit v (8 + j.val) .readBurst b.1.1 [] b.2) s2

/-- READ_PORT_TRANSFER: what the port's rings have read is moved into their descriptors, and the port asks for the next
transfer (R335). -/
def State.portTransfer (s : State) (j : Fin 4) : State := ((s.portOrder j).foldl State.arrive s).readPort j

/-- READ_DATA_RETURN: the vault's part, then the transfers that are complete. -/
def State.dataReturn (s : State) (id : Nat) (f0 f1 : Codeword) : State :=
  (List.range 4).foldl State.xferDone (s.readReturn id f0 f1)

/-! ## Rings (R337, R342, R344, R346) -/

/-- The LINK edge at which the viaduct has a RING_TAIL write whose last cycle is at `t`: 16 lc later (R670). -/
def State.tailEdge (s : State) (t : Instant) : Instant := s.clocks.link.next t + 16 * s.clocks.link.period

/-- A RING_TAIL write. -/
def State.tailWrite (s : State) (r : Ring) (v : Word) : State :=
  let q := s.ring r
  let n := 2 ^ q.log2n.toNat
  let new := { q with tail := BitVec.ofNat 16 (fld v 0 16 % n) }
  if new.posted < q.posted then s.raise 205 0x10 else s.setRing r (new.settle s.now)

/-- Stop what a ring delivers (R342). -/
def State.stopRing (s : State) (r : Ring) (st : RingState) : State :=
  let s1 := s.modRing r fun q => { q with en := false, st := st, delivery := none, descs := [], descVis := [] }.settle s.now
  { s1 with via := { s1.via with xfers := s1.via.xfers.map (Option.map fun (t : Xfer) => if t.ring = r then { t with live := false } else t) } }.idleRestart.sscApply

/-- EN from 0 to 1. -/
def State.startRing (s : State) (r : Ring) : State :=
  if (s.ring r).en then s
  else (s.modRing r fun q => { q with
    en := true, st := .idle, head := 0, tail := 0, seq := 0, done := 0, descs := [], descVis := [], delivery := none }.settle s.now).idleRestart

def allRings : List Ring := List.finRange 32

/-- A RELEASE of a folio whose delivery has begun stops it at the next 4 KiB boundary (R341). -/
def State.askAbandon (s : State) (r : Ring) : State :=
  (s.modRing r fun q => { q with delivery := q.delivery.map fun d => { d with abandon := true } }).deliver r

/-- Every ring is disabled. -/
def State.stopRings (s : State) : State := allRings.foldl (fun z r => z.stopRing r .off) s

/-- The endpoint and the viaduct are reset (R517): what their rings queue stays. -/
def State.endpointReset (s : State) : State :=
  let s1 := s.stopRings
  { s1 with via := { Viaduct.reset with
      rings := (Vector.range 32).map (fun i => { RingSt.reset with queue := (s1.ring (Fin.ofNat 32 i)).queue }), out := s1.via.out
      xfers := s1.via.xfers } }

/-- The link leaves L0: LINKDOWN where it was up. -/
def State.linkLost (s : State) : State :=
  let s1 := { s with via := { s.via with linkUp := false, speed := 0, width := 0 } }
  if s.via.linkUp then s1.raise 204 0x01 else s1

/-- DESCRIPTOR_READ: one fetched descriptor. -/
def State.descRead (s : State) (r : Ring) (d : Desc) : State :=
  let q := s.ring r
  if q.en && q.descs.length < q.posted then
    (s.setRing r { q with descs := q.descs ++ [d], descVis := q.descVis ++ [s.clocks.vault.vis win250 s.now] }).deliver r
  else s

/-- STARVED: the ring has stayed STARVED for VIA.CTRL.STARVE × 1,000 lc. -/
def State.starvedRow (s : State) (r : Ring) : State :=
  let q := s.ring r
  match q.starvedFrom with
  | some t =>
    if q.st = .starved && s.via.starve != 0 then
      ((s.at_ (s.clocks.link.next t + s.via.starve.toNat * 1000 * s.clocks.link.period)).setRing r { q with starvedFrom := none }).raise
        ⟨206 + r.val % 4, by omega⟩ 0x01
    else s
  | none => s

/-! ## BAR2 (R347, R436) -/

/-- A BAR2 read of galley word g; `flips` is what the stack changed in the codeword. -/
def State.bar2 (s : State) (g : Nat) (flips : Codeword) : State :=
  let v := s.vc (s.clocks.vault.vis win250 s.now)
  if s.frozen then s.send .completerAbort
  else if s.accepts then
    let q := pcOf (gPc g)
    let code : Codeword := match s.pendingWord g with
      | some w => ((checkBits g w) ++ w : BitVec (16 + 128))
      | none => s.stored g
    let r := readCode g (code ^^^ flips)
    let s1 := (s.wakeVault (s.vcAt v)).idleRestart
    (s1.send (.completion r.word r.bad)).account q g 13 3 v r
  else s

/-! ## Registers (Tables 9.11 to 9.13) -/

def RingState.code : RingState → Nat
  | .off => 0 | .idle => 1 | .busy => 2 | .starved => 3 | .err => 4

def RingSt.stat (q : RingSt) : Word := pack 32 [(28, q.st.code), (0, satNat 16 q.queue.length)]
def RingSt.cfgWord (q : RingSt) : Word := pack 32 [bitAt 31 q.en, bitAt 30 q.autorel, bitAt 29 q.irqen, (0, q.log2n.toNat)]

def State.viaStat (s : State) : Word :=
  pack 32 [(20, s.via.width.toNat), (16, s.via.speed.toNat), (0, satNat 16 (allRings.foldl (fun a r => a + (s.ring r).queue.length) 0))]

/-! ## Meanings -/

def execReadPortTransfer (port : Fin 4) (s : State) : Host.Outcome State Fault Refusal := .next (s.portTransfer port)
def execReadDataReturn (id : Nat) (f0 f1 : Codeword) (s : State) : Host.Outcome State Fault Refusal :=
  .next (s.dataReturn id f0 f1)
def execRingTail (at_ : Instant) (r : Ring) (v : Word) (s : State) : Host.Outcome State Fault Refusal :=
  .next ((s.at_ (s.tailEdge at_)).tailWrite r v)
def execRingEnable (at_ : Instant) (r : Ring) (s : State) : Host.Outcome State Fault Refusal := .next ((s.at_ at_).startRing r)
def execRingDisable (at_ : Instant) (r : Ring) (s : State) : Host.Outcome State Fault Refusal :=
  .next (if ((s.at_ at_).ring r).en then (s.at_ at_).stopRing r .off else s.at_ at_)
def execBar2Read (at_ : Instant) (g : BitVec 30) (flips : Codeword) (s : State) : Host.Outcome State Fault Refusal :=
  .next ((s.at_ at_).bar2 g.toNat flips)
def execBar2Write (at_ : Instant) (s : State) : Host.Outcome State Fault Refusal := .next ((s.at_ at_).raise 205 0x04)
def execLinkDown (at_ : Instant) (s : State) : Host.Outcome State Fault Refusal := .next ((s.at_ at_).linkLost.stopRings)
def execFlr (at_ : Instant) (s : State) : Host.Outcome State Fault Refusal := .next (((s.at_ at_).raise 204 0x02).stopRings)
def execHotReset (at_ : Instant) (s : State) : Host.Outcome State Fault Refusal := .next ((s.at_ at_).linkLost.stopRings)
def execPerstN (at_ : Instant) (s : State) : Host.Outcome State Fault Refusal := .next ((s.at_ at_).linkLost.endpointReset)
def execDescerr (at_ : Instant) (r : Ring) (s : State) : Host.Outcome State Fault Refusal :=
  .next (((s.at_ at_).stopRing r .err).raise 205 0x01)
def execDescriptorRead (at_ : Instant) (r : Ring) (d : Desc) (s : State) : Host.Outcome State Fault Refusal :=
  .next ((s.at_ at_).descRead r d)
def execStarved (r : Ring) (s : State) : Host.Outcome State Fault Refusal := .next (s.starvedRow r)
def execLinkTrained (at_ : Instant) (speed : BitVec 4) (width : BitVec 6) (s : State) : Host.Outcome State Fault Refusal :=
  let s1 := s.at_ at_
  let s2 := { s1 with via := { s1.via with linkUp := true, speed := speed, width := width } }
  .next (if speed < 5 ∨ width < 16 then s2.raise 204 0x10 else s2)
def execAerError (at_ : Instant) (unc : Bool) (s : State) : Host.Outcome State Fault Refusal :=
  .next ((s.at_ at_).raise 204 (if unc then 0x08 else 0x04))
def execConfigurationRequest (at_ : Instant) (s : State) : Host.Outcome State Fault Refusal :=
  let s1 := s.at_ at_
  .next (s1.send (if s1.mclk s1.now < 2500000 then .retry else .success))

end Sys2Proof.Machine
end

