-- ==== Sys2Proof/Machine/Admission.lean ====
section
/-! DEFINITION. Admission (11_vault_controller.md, R398 to R403): worst-case rates in kB/s. A sum of fractions is kept over
one denominator and rounded up once. -/

namespace Sys2Proof.Machine

/-! ## Fractions -/

/-- A fraction: numerator, denominator. -/
structure Frac where
  num : Nat
  den : Nat
deriving DecidableEq, Repr

def Frac.zero : Frac := ⟨0, 1⟩
def Frac.add (a b : Frac) : Frac := ⟨a.num * b.den + b.num * a.den, a.den * b.den⟩

/-- The fraction rounded up. -/
def Frac.up (a : Frac) : Nat := (a.num + a.den - 1) / a.den

/-- Whether a fraction is at most another; the greater of two. -/
def Frac.le (a b : Frac) : Bool := a.num * b.den ≤ b.num * a.den
def Frac.max (a b : Frac) : Frac := if a.le b then b else a

/-! ## One channel (R399 to R401) -/

/-- Time between entries of a lane at the least, in half picoseconds; 0 for a lane that selects nothing. -/
def laneGap (cfg : Word) : Nat :=
  match fld cfg 4 2 with
  | 0 => 0
  | 3 => max 1600 (decN cfg * 625)
  | _ => max 1600 (decN cfg * 1250)

/-- The sum of the lane bounds, each multiplied by `k` over its gap. -/
def rateSum (k : Nat) (gaps : List Nat) : Frac :=
  (gaps.filter (· != 0)).foldl (fun a g => a.add ⟨k, g⟩) Frac.zero

/-- CMP.RED_CFG of an enabled reducer. -/
def enabledReducers (g : ChanCfg) : Nat := g.redCfg.countP fun w => w.getLsbD 31

/-- W_c (Table 11.6): the configuration, the gaps of its lanes and its partner lane, EMIT_CFG.RATE. -/
def worstRate (g : ChanCfg) (gaps : List Nat) (rate : Nat) : Nat :=
  let kind := fld g.fldCfg 30 2
  let path :=
    if kind < 2 then min 2500000 ((rateSum 32000000000 gaps).up + 64000)
    else min 500000 ((rateSum 1000000000 gaps).up) + 64000
  let red := if kind = 2 then enabledReducers g * (Frac.up ⟨20000000, g.redSc.toNat⟩) else 0
  path + red + 15625 * rate

/-- Some trigger condition is enabled. -/
def triggers (g : ChanCfg) : Bool := fld g.trgCfg 16 8 != 0

/-- P_min of R400. -/
def leastPost (g : ChanCfg) : Nat := if segOn g then min (circPost g) (fld g.segFmt 0 16) else circPost g

/-- O_c rounded up (R400), for W_c = `w`. -/
def recordOverhead (g : ChanCfg) (w : Nat) : Nat :=
  let own : Frac :=
    if triggers g && w != 0 then ⟨256000000 * w, 320 * w + 16000000 * (leastPost g + 1)⟩ else Frac.zero
  (own.add ⟨32000, 3⟩).up

/-- f of a region or slot of Z words. -/
def spread (z : Nat) : Frac :=
  let n := 64 * ((z + 2047) / 2048)
  if z - 8 ≤ n then ⟨1, 1⟩ else ⟨n, z - 8⟩

/-- f_c (R401). -/
def worstSpread (g : ChanCfg) : Frac :=
  let c := spread (circSheets g * sheetWords)
  if segOn g then c.max (spread (2 ^ segLog g)) else c

/-! ## One forme -/

/-- The figures of a channel: W_c, O_c rounded up, f_c. -/
structure Figure where
  w : Nat
  o : Nat
  f : Frac
deriving DecidableEq, Repr

def Figure.off : Figure := ⟨0, 0, Frac.zero⟩

/-- Block of the partner lane that a configuration names. -/
def partnerCfg (f : Forme) (c : Chan) (g : ChanCfg) : Option Word :=
  if g.ptnr.getLsbD 31 then
    (f.chans.find? fun b => pierOf b.ch == pierOf c && posOf b.ch == fld g.ptnr 0 4).map fun b =>
      if g.ptnr.getLsbD 8 then b.cfg.lnCfgL else b.cfg.lnCfgH
  else none

/-- The figures of channel c under a forme; a channel that is switched off counts zero (R398). `emit` gives RATE. -/
def figureOf (f : Forme) (emit : Nat → Nat) (c : Chan) : Figure :=
  match f.chans.find? (·.ch == c) with
  | some b =>
    if f.power.getLsbD c.val then
      let gaps := laneGap b.cfg.lnCfgH :: laneGap b.cfg.lnCfgL :: ((partnerCfg f c b.cfg).map laneGap).toList
      let w := worstRate b.cfg gaps (emit b.program)
      { w := w, o := recordOverhead b.cfg w, f := worstSpread b.cfg }
    else Figure.off
  | none => Figure.off

/-- The greater of each figure (R403). -/
def Figure.both (a b : Figure) : Figure := { w := max a.w b.w, o := max a.o b.o, f := a.f.max b.f }

/-- The channel's term of L. -/
def Figure.load (a : Figure) : Nat := (Frac.up ⟨a.w * a.f.num, a.f.den⟩) + a.o

/-! ## The test (R402) -/

/-- A test's result: RESULT and PIER of Table 11.13, the pier sums, the device sum, L. -/
structure AdmTest where
  result : Nat
  pier : Nat
  piers : List Nat
  total : Nat
  load : Nat
deriving DecidableEq, Repr

/-- L_MAX for an NRR_TH. -/
def loadMax (nrrTh : Nat) : Nat := if 1024 ≤ nrrTh then 12000000 else 12000000 - Frac.up ⟨63680000, nrrTh⟩

/-- The three tests over the figures of the channels. -/
def admissionTest (nrrTh : Nat) (fig : Chan → Figure) : AdmTest :=
  let sums := allPiers.map fun k => ((chansOf k).map fun c => (fig c).w).foldl (· + ·) 0
  let total := sums.foldl (· + ·) 0
  let load := (allChans.map fun c => (fig c).load).foldl (· + ·) 0
  match (List.range 8).find? fun k => 30000000 < sums.getD k 0 with
  | some k => { result := 1, pier := k, piers := sums, total := total, load := load }
  | none => { result := if loadMax nrrTh < load then 2 else 0, pier := 0, piers := sums, total := total, load := load }

/-- EMIT_CFG.RATE of a program. -/
def State.emitRate (s : State) (p : Nat) : Nat := ((s.programOf p).map fun q => fld q.emitCfg 0 8).getD 0

/-- The figures of a forme of the image, by its number. -/
def State.formeFigure (s : State) (f : Option Nat) (c : Chan) : Figure :=
  match f.bind s.formeOf with
  | some x => figureOf x s.emitRate c
  | none => Figure.off

/-- A test that decided whether a forme comes into force is shown (R676). -/
def State.showTest (s : State) (t : AdmTest) : State :=
  { s with vlt := { s.vlt with
      admDone := true, admResult := BitVec.ofNat 4 t.result, admPierNo := BitVec.ofNat 3 t.pier
      admTotal := BitVec.ofNat 32 t.total, admPier := t.piers.map (BitVec.ofNat 32), admPcl := BitVec.ofNat 32 t.load } }

/-- VLT.ADM_W and VLT.ADM_O of channel c: the forme it runs (R676). -/
def State.admW (s : State) (c : Chan) : Word :=
  if s.nvm.noForme then 0 else BitVec.ofNat 32 (s.formeFigure (s.chan c).forme c).w
def State.admO (s : State) (c : Chan) : Word :=
  if s.nvm.noForme then 0 else BitVec.ofNat 32 (s.formeFigure (s.chan c).forme c).o

end Sys2Proof.Machine
end

