-- ==== Sys2Proof/Machine/Formes.lean ====
section
/-! DEFINITION. The checks of a forme at LOAD (14_configuration_image.md, R488, R498, Table 14.9). A value outside the range
that a register table states counts as a reserved encoding (notes/assumptions/35.md). -/

namespace Sys2Proof.Machine

/-! ## Reserved fields (R488) -/

/-- Bits of a word outside a mask are set. -/
def outside (w mask : Word) : Bool := w &&& ~~~ mask != 0

/-- Channels that the power map switches on, in ascending order. -/
def formeChans (f : Forme) : List Chan := allChans.filter fun c => f.power.getLsbD c.val

def cfgOf (f : Forme) (c : Chan) : Option ChanCfg := (formeChan f c).map (·.cfg)

/-- A check on the block of a channel; the absent block has been refused before. -/
def onChan (f : Forme) (p : Chan → FormeChan → Bool) : Option Chan :=
  (formeChans f).find? fun c => match formeChan f c with
    | some b => p c b
    | none => false

/-! ## SECTION -/

def State.sectionBad (s : State) (n : Nat) (f : Forme) : Bool :=
  f.overrun || f.number != n || (s.nvm.flash.bind fun fl => fl.tables.lookup f.placement).isNone
    || 48 < f.spares.length || f.sweeps.length != 8

/-- A channel of the power map has no block, or names a program that the image does not hold. -/
def State.programAbsent (s : State) (f : Forme) : Option Chan :=
  (formeChans f).find? fun c => ((formeChan f c).bind fun b => s.programOf b.program).isNone

/-! ## TIMEBASE (R100, R123) -/

/-- The timebase block breaks R100 or R123. -/
def timebaseBad (f : Forme) : Bool := fld f.tbsSeed 0 24 = 0 || (f.tbsCfg.getLsbD 8 && fld f.tbsSlew 0 8 = 0)

def timebaseRefused (f : Forme) (boot : Option Forme) : Bool :=
  timebaseBad f || outside f.tbsCfg 0x00001113 || outside f.tbsSeed 0x00FFFFFF || outside f.tbsSlew 0xFFFF00FF
    || match boot with
       | some b => fld b.tbsCfg 0 2 != fld f.tbsCfg 0 2 || fld b.tbsCfg 4 1 != fld f.tbsCfg 4 1
       | none => false

/-! ## SYNTH (R142, R145, R152, R156, R157, R176) -/

/-- The VCO frequency of a ratio in units of 2^-32 lies within 6.4 GHz to 12.8 GHz. -/
def vcoOk (w : Int) : Bool := 256 * 2 ^ 32 ≤ 5 * w && 5 * w ≤ 512 * 2 ^ 32

/-- f_out lies within 10 MHz to 3.2 GHz. -/
def outOk (odiv : Nat) (w : Int) : Bool := 2 ^ (35 + odiv) ≤ 25 * w && 5 * w ≤ 128 * 2 ^ (34 + odiv)

/-- f_out, and its upper spread extreme, are at most FLIM (R152). -/
def limitOk (flim : Nat) (centre : Bool) (odiv : Nat) (w : Int) : Bool :=
  125 * w * (if centre then 10025 else 10000) ≤ flim * 10000 * 2 ^ (34 + odiv)

/-- A frequency word of a sweep synthesizer passes R142 and R152. -/
def wordOk (c : SweepCfg) (odiv : Nat) (w : Int) : Bool :=
  odiv ≤ 8 && vcoOk w && outOk odiv w && limitOk (fld c.cfg 20 12) (fld c.ssc 30 2 = 2) odiv w

/-- ODIV and the word, in units of 2^-32, of store entry i. -/
def entryWord (c : SweepCfg) (i : Nat) : Nat × Int :=
  let e := c.store.getD i (0, 0)
  (fld e.1 27 4, ((fld e.1 20 7 * 2 ^ 24 + fld e.2 0 24) * 2 ^ 8 : Nat))

/-- MODE is one of those allowed (Table 4.1), and FMOD gives a whole modulation period; `k` is the input frequency over
250 Hz. -/
def sscOk (w : Word) (modes : List Nat) (k : Nat) : Bool :=
  !outside w 0xC00001FF && modes.contains (fld w 30 2) && 60 ≤ fld w 0 9 && fld w 0 9 ≤ 500 && k % fld w 0 9 = 0

/-- A segment at word w of a chain that began at `base` passes: both ends of its run (R155, R157). -/
def segOk (c : SweepCfg) (odiv : Nat) (base w : Int) (seg : Word × Word × Word) : Bool :=
  let last := w + seg.2.1.toInt * ((seg.2.2.toNat : Int) - 1)
  let near := fun (v : Int) => 98 * base ≤ 100 * v && 100 * v ≤ 102 * base
  wordOk c odiv w && wordOk c odiv last && near w && near last && seg.2.2 != 0 && !outside seg.1 0x8000003F

/-- The used segments in order: ODIV and entry word of the chain, the last W and SLOPE before. -/
def segsOk (c : SweepCfg) : List (Word × Word × Word) → Option (Nat × Int × Int × Int) → Bool
  | [], _ => true
  | g :: t, st =>
    let go := fun (odiv : Nat) (base w : Int) =>
      segOk c odiv base w g && segsOk c t (some (odiv, base, w + g.2.1.toInt * ((g.2.2.toNat : Int) - 1), g.2.1.toInt))
    if g.1.getLsbD 31 then
      match st with
      | some (odiv, base, last, slope) => go odiv base (last + slope)
      | none => false
    else go (entryWord c (fld g.1 0 6)).1 (entryWord c (fld g.1 0 6)).2 (entryWord c (fld g.1 0 6)).2

def sweepOk (c : SweepCfg) : Bool :=
  let f := fld c.cfg 20 12
  !outside c.cfg 0xFFF10701 && 10 ≤ f && f ≤ 3300 && fld c.cfg 8 3 ≤ 5
    && !outside c.int 0x00000F7F && !outside c.frac 0x00FFFFFF
    && wordOk c (fld c.int 8 4) (((fld c.int 0 7 * 2 ^ 24 + fld c.frac 0 24) * 2 ^ 8 : Nat))
    && sscOk c.ssc [0, 1, 2] 500000
    && ((List.range 64).all fun i => !namesEntry (c.store.getD i (0, 0)) || wordOk c (entryWord c i).1 (entryWord c i).2)
    && (c.store.all fun e => !outside e.1 0xFFFFFFC0 && !outside e.2 0x00FFFFFF)
    && !outside c.ramp 0x80003F3F && fld c.ramp 8 2 != 3 && fld c.ramp 10 2 < 2 && fld c.ramp 12 2 != 3
    && (!c.ramp.getLsbD 31 || segsOk c ((List.range (fld c.ramp 0 6 + 1)).map fun j => c.segs.getD j (0, 0, 0)) none)

def synthRefused (f : Forme) : Bool := !f.sweeps.all sweepOk || !sscOk f.deckSsc [0, 2] 20000 || !sscOk f.vaultSsc [0, 1] 20000

/-! ## LANE (R78, R81, R619) -/

/-- Channels that subscribe to a lane of channel c. -/
def subscribersOf (f : Forme) (c : Chan) : List Chan :=
  (formeChans f).filter fun d => pierOf d == pierOf c && match cfgOf f d with
    | some g => g.ptnr.getLsbD 31 && fld g.ptnr 0 4 == posOf c
    | none => false

def laneRefused (f : Forme) (c : Chan) (b : FormeChan) : Bool :=
  let g := b.cfg
  let p := fld g.ptnr 0 4
  (g.ptnr.getLsbD 31 &&
      (12 ≤ p || p = posOf c || !((formeChans f).any fun d => pierOf d == pierOf c && posOf d == p)))
    || (f.shed.getLsbD c.val && (subscribersOf f c).any fun d => !f.shed.getLsbD d.val)
    || outside g.lnCfgH 0x01FFE038 || outside g.lnCfgL 0x01FFE038 || outside g.lnXchkH 0x00FF008F
    || outside g.lnXchkL 0x00FF008F || outside g.ptnr 0x8000010F

/-! ## FOLDER (R179, R209) -/

/-- Delta slot j is enabled. -/
def slotOn (g : ChanCfg) (j : Nat) : Bool := (g.dslot.getD j 0).getLsbD 31

/-- Classes that the folder, the mask, the COUNT conditions and EVQ_CFG name. -/
def classesNamed (g : ChanCfg) (evq : Word) : List Nat :=
  (g.dslot.filter (·.getLsbD 31)).flatMap (fun w => [fld w 8 3, fld w 0 3])
    ++ (if g.regCfg.getLsbD 31 then [fld g.regCfg 0 3] else [])
    ++ (if g.phsCfg.getLsbD 31 then [fld g.phsCfg 28 3] else [])
    ++ (if g.maskRef.getLsbD 31 && !g.maskRef.getLsbD 28 then [fld g.maskRef 0 3] else [])
    ++ (g.maskWin.filter (·.1.getLsbD 31)).map (fun w => fld w.1 0 3)
    ++ ((List.range 6).filter fun c => evq.getLsbD c)
def countClasses (g : ChanCfg) : List Nat :=
  (List.range 8).filterMap fun i =>
    let k := g.trgCond.getD i (0, 0, 0)
    if g.trgCfg.getLsbD (16 + i) && fld k.1 28 4 = 1 then some (fld k.1 0 3) else none

/-- Slots that an enabled unit names. -/
def slotsNamed (g : ChanCfg) : List Nat :=
  (g.redCfg.filter (·.getLsbD 31)).map (fun w => fld w 0 2)
    ++ (if g.momCfg.getLsbD 31 then [fld g.momCfg 24 2] else [])
    ++ (if g.momCfg.getLsbD 15 then [fld g.momCfg 8 2] else [])
    ++ (if g.histCfg.getLsbD 31 then [fld g.histCfg 0 2] else [])

def folderRefused (g : ChanCfg) (p : Program) : Bool :=
  let cls := classesNamed g p.evqCfg
  (!g.ptnr.getLsbD 31 && (cls ++ countClasses g).any fun c => c = 4 || c = 5)
    || cls.contains 7
    || (g.maskWin.any fun w => w.1.getLsbD 31 && w.2.2.toNat ≤ w.2.1.toNat)
    || 160 < fld p.emitCfg 0 8
    || g.gateSc.toNat < 1250 || g.redSc.toNat < 125 || (g.phsCfg.getLsbD 31 && fld g.phsCfg 0 28 < 25)
    || (p.engCtl.getLsbD 0 && fld p.engCtl 8 8 = 0)
    || ((slotsNamed g).any fun j => !slotOn g j)
    || fld g.fldCfg 28 2 = 3
    || outside g.fldCfg 0xF0000000 || (g.dslot.any fun w => outside w 0x80000707)
    || (g.redCfg.any fun w => outside w 0x80000003) || outside g.momCfg 0x83008300 || outside g.regCfg 0x80000007
    || outside g.histCfg 0x9F000003 || outside g.maskRef 0x90000007
    || (g.maskWin.any fun w => outside w.1 0xC0000007)
    || outside p.engCtl 0xFFF0FF01 || outside p.evqCfg 0x00000F3F || outside p.emitCfg 0x000000FF

/-! ## PROGRAM (R241) -/

def programRefused (p : Program) : Bool :=
  4096 < p.imem.length || 1024 < p.dmem.length || p.imem.length ≤ fld p.engCtl 20 12

/-! ## LIBRARY (R248, R261, Tables 7.1 to 7.3, 7.6) -/

/-- Descriptors up to the first whose FUNC is 0. -/
def descriptors (dmem : List Dword) : List (List Dword) :=
  ((List.range 16).map fun d => (List.range 4).map fun w => dmem.getD (0x10 + 4 * d + w) 0).takeWhile fun d =>
    fld (d.getD 0 0) 56 8 != 0

/-- Quantities of Table 7.6. -/
inductive Quantity where
  | period | posWidth | negWidth | rise | fall | interval
deriving DecidableEq, Repr

def quantity (a b : Nat) : Quantity :=
  if a = b && a < 6 then .period
  else match a, b with
    | 0, 1 => .posWidth
    | 2, 3 => .posWidth
    | 1, 0 => .negWidth
    | 3, 2 => .negWidth
    | 2, 0 => .rise
    | 1, 3 => .fall
    | _, _ => .interval

/-- FROM and TO of the slot of a moment set; none when the set is disabled. -/
def setSlot (g : ChanCfg) (i : Nat) : Option (Nat × Nat) :=
  let on := g.momCfg.getLsbD (if i = 0 then 31 else 15)
  let w := g.dslot.getD (if i = 0 then fld g.momCfg 24 2 else fld g.momCfg 8 2) 0
  if (i = 0 || i = 1) && on && w.getLsbD 31 then some (fld w 8 3, fld w 0 3) else none

/-- Lanes of a class: own lane H false or L true, or the partner lane. -/
def lanesOfClass (c : Nat) : List (Option Bool) :=
  match c with
  | 0 => [some false]
  | 1 => [some false]
  | 2 => [some true]
  | 3 => [some true]
  | 4 => [none]
  | 5 => [none]
  | 6 => [some false, some true]
  | _ => []

/-- LN_CFG of such a lane under the forme. -/
def laneCfgIn (f : Forme) (c : Chan) (g : ChanCfg) (l : Option Bool) : Word :=
  match l with
  | some false => g.lnCfgH
  | some true => g.lnCfgL
  | none => (partnerCfg f c g).getD 0

/-- Classes that a function reads. -/
def classesRead (g : ChanCfg) (func src src2 cmask : Nat) : List Nat :=
  let set := fun i => match setSlot g i with
    | some (a, b) => [a, b]
    | none => []
  if func = 1 || func = 3 || (5 ≤ func && func ≤ 8) then set src
  else if func = 9 || func = 10 then set src ++ set src2
  else if func = 2 || func = 4 || func = 11 then [fld g.regCfg 0 3]
  else if func = 12 then (List.range 6).filter fun c => cmask.testBit c
  else if func = 13 then [fld (g.dslot.getD (fld g.histCfg 0 2) 0) 8 3, fld (g.dslot.getD (fld g.histCfg 0 2) 0) 0 3]
  else if func = 14 then [fld g.phsCfg 28 3]
  else []

/-- The sets a function reads give the quantities of Table 7.3. -/
def setsOk (g : ChanCfg) (func src src2 : Nat) : Bool :=
  let q := fun i => (setSlot g i).map fun p => quantity p.1 p.2
  if func = 1 || func = 3 then q src = some .period
  else if 5 ≤ func && func ≤ 8 then (setSlot g src).isSome
  else if func = 9 then
    match setSlot g src, setSlot g src2 with
    | some (a, b), some (c, d) => quantity a b = .posWidth && quantity c d = .negWidth && a = d
    | _, _ => false
  else if func = 10 then
    match setSlot g src, setSlot g src2 with
    | some (a, b), some (c, d) => quantity a b = .interval && quantity c d = .period && c = a
    | _, _ => false
  else true

/-- One descriptor breaks R248. -/
def descriptorBad (f : Forme) (c : Chan) (g : ChanCfg) (evq : Word) (d : List Dword) : Bool :=
  let w := d.getD 0 0
  let func := fld w 56 8
  let nm1 := fld w 28 12
  let lanes := (classesRead g func (fld w 50 2) (fld w 48 2) (fld w 40 8)).flatMap lanesOfClass
  let cfgs := lanes.map (laneCfgIn f c g)
  let lo := d.getD 1 0
  let hi := d.getD 2 0
  15 < func || fld w 52 2 != 0 || fld w 0 28 != 0
    || !setsOk g func (fld w 50 2) (fld w 48 2)
    || (cfgs.any fun k => fld k 13 12 != nm1)
    || (nm1 != 0 && !([1, 2, 3, 4, 11, 12, 14].contains func))
    || (nm1 != 0 && cfgs.any fun k => fld k 4 2 = 3)
    || ((func = 11 || func = 14) && d.getD 3 0 = 0)
    || (fld w 54 2 != 0 && (if func = 10 || func = 11 then decide (hi.toInt < lo.toInt) else decide (hi.toNat < lo.toNat)))
    || (func = 14 && !(g.phsCfg.getLsbD 31 && evq.getLsbD 8))

/-- The multiplier table: strictly increasing, each from 1 to 256. -/
def taus (dmem : List Dword) : List Nat :=
  ((List.range 16).map fun j => fld (dmem.getD (0x50 + j) 0) 0 9).takeWhile (· != 0)
def tausOk : List Nat → Bool
  | a :: b :: t => decide (a < b) && tausOk (b :: t)
  | [a] => decide (a ≤ 256)
  | [] => true

def libraryRefused (f : Forme) (c : Chan) (g : ChanCfg) (p : Program) : Bool :=
  let ds := descriptors p.dmem
  let count := fun (n : Nat) => ds.countP fun d => fld (d.getD 0 0) 56 8 = n
  p.library &&
    (ds.any (descriptorBad f c g p.evqCfg) || 1 < count 13 || 1 < count 14 || 1 < count 15 || !tausOk (taus p.dmem))

/-! ## TRIGGER (R273, R277, R278, R311) -/

/-- A lane that a PATTERN condition names is refused. -/
def patternLaneBad (f : Forme) (c : Chan) (i : Nat) : Bool :=
  match (formeChans f).find? fun d => pierOf d == pierOf c && posOf d == i / 2 with
  | some d =>
    match cfgOf f d with
    | some g =>
      let w := if i % 2 = 1 then g.lnCfgL else g.lnCfgH
      fld w 4 2 != 3 || fld w 13 12 != 0
    | none => true
  | none => true

/-- Words of a condition that its kind does not use, and reserved bits of those it does. -/
def condWordsBad (kind : Nat) (a b : Word) : Bool :=
  match kind with
  | 1 => b != 0
  | 2 => false
  | 3 => outside a 0x00FFFFFF || outside b 0x00FFFFFF
  | 5 => b != 0
  | 6 => outside a 0x0000FFFF || b != 0
  | _ => a != 0 || b != 0

def condBad (f : Forme) (c : Chan) (g : ChanCfg) (k : Word × Word × Word) : Bool :=
  let a := k.2.1
  match fld k.1 28 4 with
  | 1 => a = 0 || fld k.1 0 3 = 7
  | 2 => k.2.2.toNat < a.toNat || !slotOn g (fld k.1 4 2)
  | 3 => (List.range 24).any fun i => a.getLsbD i && patternLaneBad f c i
  | 5 => 2 ^ 31 ≤ a.toNat
  | 6 => fld a 0 16 = 0
  | _ => false

def triggerRefused (f : Forme) (c : Chan) (g : ChanCfg) : Bool :=
  fld g.trgCfg 24 8 = 0 || g.trgAuto.toNat < 1250 || outside g.trgCfg 0xFFFF0001
    || (List.range 8).any fun i =>
        let k := g.trgCond.getD i (0, 0, 0)
        outside k.1 0xF0000137 || condWordsBad (fld k.1 28 4) k.2.1 k.2.2
          || condBad f c g k || (g.trgCfg.getLsbD (16 + i) && 8 ≤ fld k.1 28 4)

/-! ## GALLEY (R290, R296) -/

/-- Sheets of a channel: its region, its segment area. -/
def sheetsOf (g : ChanCfg) : List (Nat × Nat) :=
  (circBase g, circSheets g) :: if segOn g then [(segBase g, segSheets g)] else []

def meets (a b : Nat × Nat) : Bool := a.1 < b.1 + b.2 && b.1 < a.1 + a.2

/-- Two places of different channels, or of one, overlap. -/
def placesClash (f : Forme) (c : Chan) (g : ChanCfg) : Bool :=
  (match sheetsOf g with
   | [a, b] => meets a b
   | _ => false)
  || (formeChans f).any fun d => d != c && match cfgOf f d with
      | some h => ((sheetsOf g).any fun a => (sheetsOf h).any (meets a))
          || meets (folioBase g, folioCount g) (folioBase h, folioCount h)
      | none => false

def galleyRefused (f : Forme) (c : Chan) (g : ChanCfg) : Bool :=
  (sheetsOf g).any (fun a => 16384 < a.1 + a.2) || placesClash f c g
    || circSheets g = 0 || 16384 < circSheets g || (segOn g && segSheets g = 0)
    || segLog g < 6 || 16 < segLog g || 2 ^ segLog g - 9 < fld g.segFmt 0 16
    || folioCount g < segSlots g + 1 || 65536 < folioBase g + folioCount g
    || circRing g - 1 < postOf g
    || outside g.circ 0xFFFF3FFF || outside g.seg 0xFFFF3FFF || outside g.segFmt 0x001FFFFF || outside g.post 0x3FFFFFFF
    || outside g.chmap 0x00000003

/-! ## SPARE (R370) -/

/-- The configuration without galley regions, folio range and ring map. -/
def spareView (g : ChanCfg) : ChanCfg :=
  { g with circ := g.circ &&& 0x80000000, seg := g.seg &&& 0x80000000, folio := 0, chmap := 0 }

/-- The channel is a partner source or a subscriber. -/
def partnered (f : Forme) (c : Chan) : Bool :=
  !(subscribersOf f c).isEmpty || match cfgOf f c with
    | some g => g.ptnr.getLsbD 31
    | none => false

def spareBad (f : Forme) (p : Chan × Chan) : Bool :=
  (match formeChan f p.1, formeChan f p.2 with
   | some a, some b => spareView a.cfg != spareView b.cfg || a.program != b.program
   | none, none => false
   | _, _ => true)
  || (pierOf p.1 != pierOf p.2 && (partnered f p.1 || partnered f p.2))

/-! ## In code order (R498) -/

/-- A refusal: code, channel (127 when not channel-specific), pier. -/
structure Refused where
  code : Nat
  ch : Nat
  pier : Nat
deriving DecidableEq, Repr

def refusedAt (code : Nat) (o : Option Chan) : Option Refused := o.map fun c => { code := code, ch := c.val, pier := 0 }
def refusedAll (code : Nat) (b : Bool) : Option Refused := if b then some { code := code, ch := 127, pier := 0 } else none

/-- The first failed check of forme n; none when it is admitted. -/
def State.checkForme (s : State) (n : Nat) (f : Forme) (boot : Option Forme) : Option Refused :=
  let prog := fun (b : FormeChan) => (s.programOf b.program).getD Program.none
  let t := admissionTest s.vlt.nrrTh fun c => figureOf f s.emitRate c
  refusedAll 1 (s.sectionBad n f)
    <|> refusedAt 1 (s.programAbsent f)
    <|> refusedAll 2 (timebaseRefused f boot)
    <|> refusedAll 3 (synthRefused f)
    <|> refusedAt 4 (onChan f (laneRefused f))
    <|> refusedAt 5 (onChan f fun _ b => folderRefused b.cfg (prog b))
    <|> refusedAt 6 (onChan f fun _ b => programRefused (prog b))
    <|> refusedAt 7 (onChan f fun c b => libraryRefused f c b.cfg (prog b))
    <|> refusedAt 8 (onChan f fun c b => triggerRefused f c b.cfg)
    <|> refusedAt 9 (onChan f fun c b => galleyRefused f c b.cfg)
    <|> refusedAt 10 (allChans.find? fun c => f.spares.any fun p => p.1 == c && spareBad f p)
    <|> (if t.result = 1 then some { code := 11, ch := 127, pier := t.pier } else none)
    <|> refusedAll 12 (t.result = 2)

/-- NVM.FORME_WHY of a forme (Table 14.15). -/
def whyWord (r : Option Refused) : Word :=
  match r with
  | none => pack 32 [(16, 0x7F)]
  | some x => pack 32 [(24, x.code), (16, x.ch), (8, x.pier)]

end Sys2Proof.Machine
end

