-- ==== Sys2Proof/Machine/LifeCycle.lean ====
section
/-! DEFINITION. Life cycle and fuses (19_lifecycle.md). The mailbox (Mailbox.lean) decides when a LIFECYCLE command acts. -/

namespace Sys2Proof.Machine

/-! ## Octets: strings in the order of FIPS 186-5, the first octet the most significant -/

def octets {n : Nat} (k : Nat) (v : BitVec n) : List Byte := (List.range k).map fun i => v.extractLsb' (8 * (k - 1 - i)) 8
def ofOctets (n : Nat) (l : List Byte) : BitVec n := l.foldl (fun a b => a <<< 8 ||| b.setWidth n) 0

/-- A word of four octets, the first in bits [7:0] (R16). -/
def wordLE (l : List Byte) : Word := (List.range 4).foldr (fun i a => (l.getD i 0).setWidth 32 <<< (8 * i) ||| a) 0
def octetsLE (w : Word) : List Byte := (List.range 4).map fun i => w.extractLsb' (8 * i) 8

/-- Words of an octet string, four octets each. -/
def wordsLE (k : Nat) (l : List Byte) : List Word := (List.range k).map fun i => wordLE (l.drop (4 * i))

/-! ## Fuses (R634) -/

def LifeCycle.fuse (l : LifeCycle) (i : Nat) : Word := sget 0 l.fuses i

/-- Blow bits of a word; a blown bit stays. -/
def LifeCycle.blow (l : LifeCycle) (i : Nat) (bits : Word) : LifeCycle :=
  { l with fuses := sset 0 l.fuses i (l.fuse i ||| bits) }

def LifeCycle.kvalid (l : LifeCycle) : Bool := (l.fuse 16).getLsbD 0
def LifeCycle.erased (l : LifeCycle) : Bool := (l.fuse 16).getLsbD 1

/-- The state as the last read of word 4, or RETURN from the read-back of its bit (R641). -/
def LifeCycle.shown (l : LifeCycle) : BitVec 4 := if (l.fuse 4).getLsbD 3 then 4 else l.state

/-- RETURN erasure unfinished. -/
def LifeCycle.epend (l : LifeCycle) : Bool := l.shown == 4 && !l.erased

/-- Octets of words i to i + k - 1. -/
def LifeCycle.octetsAt (l : LifeCycle) (i k : Nat) : List Byte := (List.range k).flatMap fun j => octetsLE (l.fuse (i + j))

def LifeCycle.deviceId (l : LifeCycle) : List Byte := l.octetsAt 0 4

/-- LCY.KHASH[i] and LCY.CDATA[i] as stored: zero when KVALID = 0 (hash), and in RETURN. -/
def LifeCycle.khash (l : LifeCycle) (i : Nat) : Word := if !l.kvalid || l.shown == 4 then 0 else l.fuse (8 + i)
def LifeCycle.cdata (l : LifeCycle) (i : Nat) : Word := if l.shown == 4 then 0 else l.fuse (17 + i)

/-- The SHA-256 of a key, as octets. -/
def keyHash (key : BitVec 512) : List Byte := octets 32 (Config.sha256 (octets 64 key))

/-- The key is the customer's, or the maker's. -/
def LifeCycle.isCustomer (l : LifeCycle) (key : BitVec 512) : Bool := l.kvalid && keyHash key == l.octetsAt 8 8
def isMaker (key : BitVec 512) : Bool := Config.sha256 (octets 64 key) == Config.makerKeyHash

/-! ## Access (R635, R636, Table 19.3): by the state of the last completed ADVANCE -/

def LifeCycle.tstOpen (l : LifeCycle) : Bool := l.state == 1 || (l.state == 2 && l.csess)
def LifeCycle.makerOpen (l : LifeCycle) : Bool := l.state == 1 || l.state == 4
def LifeCycle.cdataOpen (l : LifeCycle) : Bool := (l.state == 2 || l.state == 3) && l.csess

/-- The key that signs images in this state (Table 14.5). -/
def LifeCycle.signKeyOk (l : LifeCycle) (key : BitVec 512) : Bool :=
  if l.state = 3 then l.isCustomer key
  else if l.state = 2 && l.kvalid then l.isCustomer key
  else isMaker key

def State.modLcy (s : State) (f : LifeCycle → LifeCycle) : State := { s with lcy := f s.lcy }

/-! ## Reasons of LCY.STAT.WHY (Table 19.9) -/

def whyOrder : BitVec 4 := 1
def whyNoKey : BitVec 4 := 2
def whyNoSess : BitVec 4 := 3
def whyNoNonce : BitVec 4 := 4
def whyKeyBad : BitVec 4 := 5
def whySigBad : BitVec 4 := 6
def whyConflict : BitVec 4 := 7
def whyFuse : BitVec 4 := 8
def whySupply : BitVec 4 := 9
def whyNoToken : BitVec 4 := 10

/-! ## Challenge and response (R637, R638) -/

/-- A fresh nonce; MSP.BUF takes it and the device ID. -/
def State.challenge (s : State) : State × List Word :=
  let n := Config.nonce s.free
  ({ s.drawn with lcy := { s.lcy with nonce := some n } },
    wordsLE 12 (octets 32 n ++ s.lcy.deviceId))

/-- The message that the signature covers. -/
def LifeCycle.message (l : LifeCycle) (purpose target : Byte) (nonce : BitVec 256) : List Byte :=
  purpose :: octets 32 nonce ++ l.deviceId ++ [target]

/-- The checks of RESPOND (`token` false) and TOKEN; 0 when all pass. -/
def LifeCycle.respond (l : LifeCycle) (token : Bool) (key sig : BitVec 512) : BitVec 4 :=
  if !(l.state == 3 || (l.state == 2 && !token)) then whyOrder
  else match l.nonce with
    | none => whyNoNonce
    | some n =>
      if !(Config.onCurve key && (if token then isMaker key else l.isCustomer key)) then whyKeyBad
      else
        let m := if token then l.message 2 4 n else l.message 1 (l.state.setWidth 8) n
        if Config.ecdsaOk key (Config.sha256 m) sig then 0 else whySigBad

/-- RESPOND or TOKEN acts. -/
def State.respond (s : State) (token : Bool) (key sig : BitVec 512) : State × BitVec 4 :=
  let why := s.lcy.respond token key sig
  let s1 := s.modLcy fun l => { l with nonce := none, why := why }
  if why = 0 then
    ((s1.modLcy fun l => if token then { l with mtok := true } else { l with csess := true }).raise 224 0x08, why)
  else if why = whyKeyBad ∨ why = whySigBad then (s1.raise 224 0x04, why)
  else (s1, why)

/-! ## ADVANCE (R639 to R642) -/

/-- The conditions of Table 19.5 in order; `dip`: a dip is in progress. -/
def LifeCycle.advanceWhy (l : LifeCycle) (target : BitVec 4) (key : BitVec 512) (cdata : BitVec 256) (dip : Bool) :
    BitVec 4 :=
  let own : BitVec 4 :=
    if target = 1 then (if l.state != 0 || (List.range 4).all (fun i => l.fuse i == 0) then whyOrder else 0)
    else if target = 2 then (if l.state != 1 then whyOrder else 0)
    else if target = 8 then
      if l.state != 2 || l.kvalid then whyOrder
      else if !Config.onCurve key then whyKeyBad
      else
        let h := wordsLE 8 (keyHash key)
        let d := wordsLE 8 (octets 32 cdata)
        if (List.range 8).any fun i => l.fuse (8 + i) &&& ~~~ h.getD i 0 != 0 || l.fuse (17 + i) &&& ~~~ d.getD i 0 != 0
        then whyConflict else 0
    else if target = 3 then
      if l.state != 2 then whyOrder else if !l.kvalid then whyNoKey else if !l.csess then whyNoSess else 0
    else if l.state != 3 then whyOrder else if !l.mtok then whyNoToken else 0
  if own != 0 then own else if dip then whySupply else 0

/-- The words of the RETURN erasure, in order. -/
def eraseWords : List (Nat × Word) :=
  (List.range 8).map (fun i => (8 + i, BitVec.allOnes 32)) ++ (List.range 8).map (fun i => (17 + i, BitVec.allOnes 32))
    ++ [(16, 2)]

/-- The fuse words that an ADVANCE programs, in order. -/
def advanceWords (target : BitVec 4) (key : BitVec 512) (cdata : BitVec 256) : List (Nat × Word) :=
  if target = 1 then [(4, 1)]
  else if target = 2 then [(4, 2)]
  else if target = 3 then [(4, 4)]
  else if target = 8 then
    (wordsLE 8 (keyHash key)).mapIdx (fun i w => (8 + i, w)) ++ (wordsLE 8 (octets 32 cdata)).mapIdx (fun i w => (17 + i, w))
      ++ [(16, 1)]
  else (4, 8) :: eraseWords

def fuseMc : Nat := 20000

/-- ADVANCE at its issue edge `m`: the checks, and the first word starts. -/
def State.advanceStart (s : State) (m : Nat) (target : BitVec 4) (key : BitVec 512) (cdata : BitVec 256) : State :=
  let why := s.lcy.advanceWhy target key cdata s.pwr.dipActive
  s.modLcy fun l =>
    { l with
      why := why, words := 0
      seq := if why = 0 then some { target := target, words := advanceWords target key cdata, start := m, byAdvance := true }
             else l.seq }

/-- What a verified word brings (Table 19.6). -/
def fuseCause (i : Nat) (bits : Word) : Byte :=
  if i = 4 then 0x01 else if i = 16 then (if bits = 1 then 0x02 else 0x10) else 0

/-- The bits that a word whose read-back differs has taken: some of those asked for, not all (notes/assumptions/9.md). -/
def State.partly (s : State) (old bits : Word) : Word :=
  let f := wordLE ((List.range 4).map fun i => Config.freeByte (4 * s.free + i))
  if bits &&& f ||| old = bits ||| old then 0 else bits &&& f

/-- FUSE_WORD_DONE: the word in progress ends 20,000 mc after its start (R640). -/
def State.fuseWordDone (s : State) (verified : Bool) : State :=
  match s.lcy.seq with
  | none => s
  | some q =>
    let m := q.start + fuseMc
    let s1 := s.at_ (s.mcAt m)
    let stop := fun (z : State) (why : BitVec 4) (cause : Byte) =>
      (z.modLcy fun l => { l with seq := none, why := if q.byAdvance then why else l.why }).raise 224 cause
    match q.words with
    | [] => s1.modLcy fun l => { l with seq := none }
    | (i, bits) :: rest =>
      if verified then
        let s2 := (s1.modLcy fun l =>
          let l1 := l.blow i bits
          { l1 with words := if q.byAdvance then satAdd l.words 1 else l.words }).raise 224
            (if q.byAdvance || q.target = 4 then fuseCause i bits else 0)
        if rest.isEmpty then s2.modLcy fun l => { l with seq := none }
        else if s2.pwr.dipActive then stop s2 whySupply (if q.byAdvance then 0x40 else 0)
        else s2.modLcy fun l => { l with seq := some { q with words := rest, start := m } }
      else
        let s2 := (s1.modLcy fun l => l.blow i (s1.partly (l.fuse i) bits)).drawn
        stop s2 whyFuse 0x20

/-- A RETURN erasure that a stop left unfinished goes on in BOOT (R641): the words that are not erased yet. -/
def State.eraseRest (s : State) : State :=
  if s.lcy.epend then
    let l := eraseWords.filter fun w => s.lcy.fuse w.1 &&& w.2 != w.2
    if s.pwr.dipActive then s
    else s.modLcy fun x => { x with seq := some { target := 4, words := l, start := s.pwr.mclk0, byAdvance := false } }
  else s

/-- A completed ADVANCE reads word 4 again (R633); a change of state ends the sessions and the nonce. -/
def State.advanceDone (s : State) : State :=
  let st := fuseState s.lcy.fuses
  if st = s.lcy.state then s
  else s.modLcy fun l => { l with state := st, csess := false, mtok := false, nonce := none }

/-! ## Maker window (Table 19.8) -/

/-- MK_PROG blows the set bits of the selected word; words outside 0 to 3 and 32 to 63 are discarded. A write while a word
is being programmed, or during a dip, is discarded too (notes/assumptions/36.md). -/
def State.makerProg (s : State) (value : Word) : State :=
  let i := s.lcy.mkSel.toNat
  if (i < 4 ∨ (32 ≤ i ∧ i < 64)) ∧ s.lcy.seq.isNone ∧ !s.pwr.dipActive then
    s.modLcy fun l => { l with seq := some { target := 0, words := [(i, value)], start := s.nowMc, byAdvance := false } }
  else s

/-- LCY.STAT (Table 19.9). -/
def LifeCycle.stat (l : LifeCycle) : Word :=
  pack 32 [(28, l.shown.toNat), bitAt 27 l.csess, bitAt 26 l.mtok, bitAt 25 l.nonce.isSome, bitAt 24 l.kvalid,
    bitAt 23 l.epend, (12, l.why.toNat), (8, l.last.toNat), (0, l.words.toNat)]

/-! ## Meanings -/

def execFuseWordDone (verified : Bool) (s : State) : Host.Outcome State Fault Refusal := .next (s.fuseWordDone verified)

end Sys2Proof.Machine
end

