-- ==== Sys2Proof/Machine/Load.lean ====
section
/-! DEFINITION. The image, the LOAD sequence and forme switches (14_configuration_image.md; R471, R473). The work of a
phase has its effects at the phase's milestone (notes/assumptions/37.md). -/

namespace Sys2Proof.Machine

def State.modNvm (s : State) (f : Nvm → Nvm) : State := { s with nvm := f s.nvm }

/-! ## Milestones (R493, R494, Table 14.8) -/

/-- Milestone of phase `p`, mc from reset release; `full` is the column of full training. -/
def milestone (full : Bool) (p : Nat) : Nat :=
  let slow := [0, 500000, 2500000, 15500000, 16000000, 17500000, 18000000, 28250000, 39000000, 43500000, 44500000]
  slow.getD p 0 - (if 7 ≤ p && !full then 10000000 else 0)

/-- mc of the milestone of phase `p`, with the shift of R496 and the failed restore of R433. -/
def State.milestoneMc (s : State) (p : Nat) : Nat :=
  s.pwr.mclk0 + milestone (!s.nvm.quick || s.nvm.rfail) p
    + (if 6 ≤ p then s.nvm.shift * 250000 else 0) + (if 7 ≤ p && s.nvm.rfail then 250000 else 0)

/-- LOAD runs its phase `p` and has not halted. -/
def State.inPhase (s : State) (p : Nat) : Bool := s.nvm.phase.toNat == p && s.nvm.result == 0

/-- The milestone of phase `p` falls. -/
def State.toPhase (s : State) (p : Nat) : State :=
  (s.at_ (s.mcAt (s.milestoneMc p))).modNvm fun n => { n with phase := BitVec.ofNat 4 p }

/-- LOAD halts at a directory entry. -/
def State.haltAt (s : State) (why : BitVec 4) (cause : Byte) (entry : Nat) : State :=
  (s.halt why cause).modNvm fun n => { n with dirent := BitVec.ofNat 8 entry }

/-! ## BOOT: discovery and header (R480, R481, R495) -/

/-- The header breaks Table 14.2. -/
def headerBad (h : ImgHeader) : Bool :=
  h.magic != 0x52479600 || h.fmtver != 1 || h.nsect < 1 || 160 < h.nsect || h.imglen < 0x2000 || 0x300000 < h.imglen
    || 63 < h.bootf || 1 < h.flags.toNat || !h.reservedZero

/-- The work of BOOT after reset release. -/
def State.boot (s : State) : State :=
  match s.nvm.flash with
  | none => s.halt 1 0x01
  | some f =>
    if !f.sfdpOk then s.halt 1 0x01
    else
      let s1 := s.modNvm fun n => { n with dev := pack 32 [(8, f.jedec.toNat), (4, f.density.toNat), bitAt 0 true] }
      if headerBad f.header then s1.halt 2 0x02
      else s1.modNvm fun n =>
        { n with imgVer := f.header.imgver, bootf := BitVec.ofNat 6 f.header.bootf, target := BitVec.ofNat 6 f.header.bootf
                 nforme := BitVec.ofNat 8 ((f.header.dir.take f.header.nsect).countP fun e => e.type == 3) }

/-! ## AUTH: key, signature, directory (R483 to R486) -/

/-- A field of `k` octets, lowest first (R16). -/
def leOctets (k v : Nat) : List Byte := (List.range k).map fun i => BitVec.ofNat 8 (v / 2 ^ (8 * i))

def DirEntry.octets (e : DirEntry) : List Byte :=
  [e.type, e.index, 0, 0] ++ leOctets 4 e.offset ++ leOctets 4 e.length ++ [0, 0, 0, 0] ++ Machine.octets 32 e.digest

/-- The signed octets: header bytes 0x0000 to 0x005F, then 0x00A0 to 0x1FFF. -/
def signedOctets (h : ImgHeader) : List Byte :=
  let dir := (h.dir.take h.nsect).flatMap DirEntry.octets
  leOctets 4 h.magic.toNat ++ leOctets 2 h.fmtver.toNat ++ leOctets 2 h.nsect ++ leOctets 4 h.imglen
    ++ leOctets 4 h.imgver.toNat ++ [BitVec.ofNat 8 h.bootf, h.flags] ++ List.replicate 14 0 ++ octets 64 h.pubkey
    ++ List.replicate 96 0 ++ dir ++ List.replicate (7680 - dir.length) 0 ++ List.replicate 256 0

/-- Bytes that a density field states. -/
def nvmBytes (density : BitVec 2) : Nat := 2 ^ (25 + density.toNat)

/-- LENGTH of a section of this type is allowed (Table 14.4). -/
def lengthOk (type n : Nat) : Bool :=
  match type with
  | 1 => 4096 ≤ n && n ≤ 786432
  | 2 => n = 256
  | 3 => n ≤ 65536
  | 4 => 64 ≤ n && n % 4 = 0
  | 5 => 400 ≤ n && (n - 16) % 384 = 0 && (n - 16) / 384 ≤ 256
  | 6 => n = 65536
  | 7 => n = 65536
  | _ => false

/-- INDEX allowed for a type. -/
def indexOk (type i : Nat) : Bool :=
  match type with
  | 3 => i ≤ 63
  | 4 => i ≤ 63
  | 5 => i ≤ 23
  | 6 => i ≤ 1
  | _ => i = 0

/-- One entry breaks R484 on its own. -/
def entryBad (h : ImgHeader) (density : BitVec 2) (e : DirEntry) : Bool :=
  let t := e.type.toNat
  let stop := e.offset + e.length
  t < 1 || 7 < t || !indexOk t e.index.toNat || !lengthOk t e.length
    || (if t ≤ 5 then e.offset % 256 != 0 || e.offset < 0x2000 || h.imglen < stop
        else e.offset % 65536 != 0 || e.offset < h.imglen || nvmBytes density < stop || e.digest != 0)

/-- An entry repeats or overlaps an earlier one. -/
def entryClash (e : DirEntry) (before : List DirEntry) : Bool :=
  before.any fun d => (d.type == e.type && d.index == e.index) || (d.offset < e.offset + e.length && e.offset < d.offset + d.length)

/-- The first entry at fault; 0xFF when only a count breaks Table 14.4. -/
def directoryFault (h : ImgHeader) (density : BitVec 2) : Option Nat :=
  let l := h.dir.take h.nsect
  let count := fun (t : Byte) => l.countP fun e => e.type == t
  match (List.range l.length).find? fun i => match l[i]? with
      | some e => entryBad h density e || entryClash e (l.take i)
      | none => false with
  | some i => some i
  | none =>
    if h.dir.length < h.nsect || count 1 != 1 || count 2 != 1 || count 3 < 1 || count 6 != 2 || count 7 != 1
    then some 0xFF else none

/-- AUTH. -/
def State.auth (s : State) : State :=
  if !(s.pwr.mode == .load && s.inPhase 0) then s
  else
    let s1 := s.toPhase 1
    match s.nvm.flash with
    | none => s1.halt 1 0x01
    | some f =>
      if !s1.lcy.signKeyOk f.header.pubkey then s1.halt 4 0x08
      else if !Config.ecdsaOk f.header.pubkey (Config.sha256 (signedOctets f.header)) f.header.sig then s1.halt 5 0x10
      else match directoryFault f.header f.density with
        | some i => s1.haltAt 3 0x04 i
        | none => s1

/-! ## IMAGE: digests, vault section, firmware (R485, R412, R428, R590) -/

/-- The octets of the section that an entry names. -/
def sectionOctets (f : Flash) (e : DirEntry) : Option (List Byte) :=
  match e.type.toNat with
  | 1 => some f.firmware
  | 2 => some (Config.vaultOctets f.vault)
  | 3 => (f.formes.lookup e.index.toNat).map Config.formeOctets
  | 4 => (f.programs.lookup e.index.toNat).map Config.programOctets
  | 5 => (f.tables.lookup e.index.toNat).map Config.tableOctets
  | _ => none

/-- The section's SHA-256 is its DIGEST. -/
def digestOk (f : Flash) (e : DirEntry) : Bool :=
  5 < e.type.toNat || match sectionOctets f e with
    | some o => Config.sha256 o == e.digest
    | none => false

/-- The first entry whose digest does not match. -/
def digestFault (f : Flash) : Option Nat :=
  (List.range f.header.nsect).find? fun i => match f.header.dir[i]? with
    | some e => !digestOk f e
    | none => false

/-- The vault section breaks R412 or the limit of R428, or sets a reserved field. -/
def vaultBad (v : VaultSection) : Bool :=
  let w := fun (i : Nat) => v.ports.getD i 0
  4096 < ((List.range 14).map fun i => fld (w i) 0 12).foldl (· + ·) 0 || (List.range 14).any (fun i => fld (w i) 16 16 = 0)
    || fld v.mnt 4 12 < 64

/-- The firmware starts: commands are served and ALIVE toggles (R551, R590). -/
def State.firmwareStart (s : State) : State :=
  { s with msp := { s.msp with fwup := true }
           truss := { s.truss with aliveNext := some (s.nowMc + s.truss.alivePeriod.toNat * 1250) } }

/-- IMAGE. -/
def State.image (s : State) : State :=
  if !(s.pwr.mode == .load && s.inPhase 1) then s
  else
    let s1 := s.toPhase 2
    match s.nvm.flash with
    | none => s1.halt 1 0x01
    | some f =>
      match digestFault f with
      | some i => s1.haltAt 6 0x20 i
      | none =>
        if vaultBad f.vault then s1.halt 7 0
        else
          State.firmwareStart { s1 with vlt := { s1.vlt with
            cfg := f.vault.cfg, portCfg := (List.range 14).map fun i => f.vault.ports.getD i 0, mnt := f.vault.mnt } }

/-! ## CRC-32 (R468, Table 14.7) -/

/-- One bit of the reflected polynomial 0x04C1_1DB7. -/
def crc32Bit (c : Word) : Word := if c.getLsbD 0 then (c >>> 1) ^^^ 0xEDB88320 else c >>> 1

/-- One octet. -/
def crc32Octet (c : Word) (b : Byte) : Word := (List.range 8).foldl (fun a _ => crc32Bit a) (c ^^^ b.setWidth 32)

/-- The CRC-32 of an octet string: initial value and final XOR all ones. -/
def crc32 (l : List Byte) : Word := ~~~ (l.foldl crc32Octet 0xFFFFFFFF)

/-- The 128 octets of a table record (R467). Of the figures, bytes 68 to 99 have room for the eight words of R449 and not for
the two of R450 (DESIGN CHOICE, notes/assumptions/70.md). -/
def TrimTable.octets (t : TrimTable) : List Byte :=
  (((t.masks.map fun (m : BitVec 80 × BitVec 40) => leOctets 15 (m.2 ++ m.1 : BitVec (40 + 80)).toNat).flatten ++ List.replicate 60 0).take 60)
    ++ leOctets 2 t.gen.toNat ++ [BitVec.ofNat 8 (bit t.cv + 2 * bit t.dv + 4 * bit t.leadH + 8 * bit t.leadL), 0]
    ++ leOctets 2 t.deskewH.toNat ++ leOctets 2 t.deskewL.toNat
    ++ ((List.range 8).flatMap fun i => octetsLE (t.figs.getD i 0)) ++ List.replicate 28 0

/-- What the CRC-32 of a trim slot covers: bytes 0x0000 to 0x000B, 0x0010 to 0x00FF and the body. -/
def trimCovered (t : TrimSlot) : List Byte :=
  octetsLE t.magic ++ octetsLE t.gen ++ octetsLE t.bodyLen ++ List.replicate 240 0xFF ++ t.tables.flatMap TrimTable.octets

/-- What the CRC-32 of the training slot covers: bytes 0x0000 to 0x0007, 0x0010 to 0x002F and the body. -/
def trainCovered (t : TrainSlot) : List Byte :=
  octetsLE t.magic ++ octetsLE t.bodyLen ++ octets 32 t.vhash ++ (t.lanes ++ t.modeRegs).flatMap octetsLE

/-! ## CAL: trim and training slots (R471, R492, R497) -/

/-- Number of set bits. -/
def ones {n : Nat} (w : BitVec n) : Nat := (List.range n).countP fun i => w.getLsbD i

def TrimTable.valid (t : TrimTable) : Bool := !t.cv || t.masks.all fun m => ones m.1 == 64 && ones m.2 == 32

/-- A trim slot is valid. -/
def slotValid (t : TrimSlot) : Bool :=
  t.magic == 0x7C1B0A5E && 1 ≤ t.gen.toNat && t.gen.toNat ≤ 0xFFFFFFFE && t.bodyLen == 0xC000 && t.crc == crc32 (trimCovered t)
    && t.commit == ~~~ t.gen && t.tables.all TrimTable.valid

/-- The training slot is valid. -/
def trainValid (f : Flash) (t : TrainSlot) : Bool :=
  t.magic == 0x7C1B0A7E && t.bodyLen == 0x1400 && t.crc == crc32 (trainCovered t) && t.commit == ~~~ t.crc
    && t.vhash == Config.sha256 (Config.vaultOctets f.vault) && t.lanes.length == 1152 && t.lanes.all laneOk

/-- The channel's tables of a slot, and the table of its band in force (R471). -/
def State.takeSlot (s : State) (t : TrimSlot) : State :=
  s.forChans allChans fun c z => z.modChan c fun x =>
    ({ x with trim := { x.trim with
        store := (List.range 4).map fun b => t.tables.getD (4 * c.val + b) TrimTable.blank, staged := true } }).applyTrim
      (s.bandOf c).toNat

/-- CAL. -/
def State.cal (s : State) : State :=
  if !(s.pwr.mode == .load && s.inPhase 2) then s
  else
    let s1 := s.toPhase 3
    match s.nvm.flash with
    | none => s1
    | some f =>
      let a := f.slotA.filter slotValid
      let b := f.slotB.filter slotValid
      let gen := fun (t : Option TrimSlot) => (t.map (·.gen)).getD 0
      let useB := b.isSome && (a.isNone || (gen a).toNat < (gen b).toNat)
      let slot := if useB then b else a
      let quick := f.header.flags.getLsbD 0 = false && (f.train.map (trainValid f)).getD false
      let top := match slot with
        | some t => t.tables.foldl (fun m r => max m r.gen.toNat) 0
        | none => 0
      let s2 := s1.modNvm fun n => { n with
        genA := gen a, genB := gen b, quick := quick, inForce := if slot.isNone then 0 else if useB then 2 else 1
        tgen := if slot.isNone then n.tgen else nextGen (BitVec.ofNat 16 top) }
      let s3 := match slot with
        | some t => s2.takeSlot t
        | none => s2
      s3.raise 222 ((if a.isNone || b.isNone then 0x08 else 0) ||| (if slot.isNone then 0x10 else 0))

/-! ## ADMIT (R498) -/

/-- The boot forme of the image. -/
def State.bootForme (s : State) : Option Forme := s.formeOf s.nvm.bootf.toNat

/-- Check one forme and note its result. -/
def State.judge (s : State) (n : Nat) (f : Forme) : State :=
  let r := s.checkForme n f s.bootForme
  s.modNvm fun v => { v with
    whys := setAt v.whys n (whyWord r)
    ok := if r.isNone then v.ok ||| BitVec.ofNat 64 (2 ^ n) else v.ok }

/-- Forme numbers that the image holds, in ascending order. -/
def State.formesPresent (s : State) : List Nat := (List.range 64).filter fun n => (s.formeOf n).isSome

/-- Judge forme n where it is present. -/
def State.judgeNo (s : State) (n : Nat) : State :=
  match s.formeOf n with
  | some f => s.judge n f
  | none => s

/-- ADMIT. -/
def State.admitAll (s : State) : State :=
  if !(s.pwr.mode == .load && s.inPhase 3) then s
  else
    let s1 := s.toPhase 4
    let s2 := s1.formesPresent.foldl State.judgeNo s1
    let s3 := match s2.bootForme with
      | some f =>
        let w := s2.nvm.whys.getD s2.nvm.bootf.toNat 0
        if fld w 24 8 = 0 ∨ 11 ≤ fld w 24 8 then s2.showTest (admissionTest s2.vlt.nrrTh fun c => figureOf f s2.emitRate c) else s2
      | none => s2
    s3.raise 221 (if s3.formesPresent.any (fun n => !s3.nvm.ok.getLsbD n) then 0x01 else 0)

/-! ## CLOCKS (R495, R496) -/

/-- CLOCKS: the timebase acquires with the boot forme's block, DECK and VAULT lock. -/
def State.clocks_ (s : State) : State :=
  if !(s.pwr.mode == .load && s.inPhase 4) then s
  else
    let s1 := s.toPhase 5
    if (s1.bootForme.map timebaseBad).getD false then s1.halt 8 0
    else
      let s2 := match s1.bootForme with
        | some f =>
          ((s1.modTb fun tb => { tb with cfg := f.tbsCfg, seed := f.tbsSeed, slewCfg := f.tbsSlew }).modSynth 8
            fun x => { x with ssc := f.deckSsc }).modSynth 9 fun x => { x with ssc := f.vaultSsc }
        | none => s1
      ([8, 9] : List Synth).foldl (fun z k => z.modSynth k fun x => { x with lockStart := some z.now }) s2.startAcquire

/-- CLOCKS_LOCKED, once the timebase is LOCKED and DECK and VAULT run: a wait past the scheduled end shifts the milestones
that follow. -/
def State.clocksLocked (s : State) : State :=
  if s.pwr.mode == .load && s.inPhase 5 && !s.nvm.clocksOk && s.tb.st == .locked && (s.synth 8).st == .run
      && (s.synth 9).st == .run then
    let late := s.nowMc - s.milestoneMc 6
    s.modNvm fun n => { n with clocksOk := true, shift := (late + 249999) / 250000 }
  else s

/-! ## TRAIN, INIT -/

/-- Quick restore is refused by a training slot that is not valid, and by nothing else (R433, R497). -/
def State.restoreInvalid (s : State) : Bool :=
  !s.nvm.quick && (s.nvm.flash.map fun f => !f.header.flags.getLsbD 0).getD false

/-- TRAIN. RESTOREFAIL is raised here for a slot that is not valid (DEDUCED, notes/assumptions/71.md). -/
def State.train (s : State) : State :=
  if s.pwr.mode == .load && s.inPhase 5 && s.nvm.clocksOk then
    let s1 := s.toPhase 6
    let s2 := s1.trainBegin (s1.milestoneMc 6) s1.nvm.quick
    if s.restoreInvalid then s2.raise 137 0x08 else s2
  else s

/-- INIT, after a training that passed. -/
def State.stackInit (s : State) : State :=
  if s.pwr.mode == .load && s.inPhase 6 && s.vlt.trnStart.isNone then
    let s1 := s.toPhase 7
    { s1 with vlt := { s1.vlt with st := .init, initStart := some (s1.vc (s1.clocks.vault.next s1.now)) } }
  else s

/-! ## DIST (R499) -/

/-- The placement table of a section: entry step x 96 + channel. -/
def tableOf (l : List (List Word)) : List (Nat × Word) := ssets 0 [] 0 ((l.map fun r => (List.range 96).map fun c => r.getD c 0).flatten)

/-- Shed list and spare list of a forme come into force (Table 14.10). -/
def State.listsOf (s : State) (f : Forme) : State :=
  { s with place := { s.place with spares := f.spares }
           thm := { s.thm with cfg := thmCfg f.shed, shed := f.shed.setWidth 96 } }

/-- Domains of a power map. -/
def mapDoms (f : Forme) : List Dom := allDoms.filter fun d => f.power.getLsbD d.val

/-- DIST: the boot forme comes into force, or none does. -/
def State.dist (s : State) : State :=
  if !(s.pwr.mode == .load && s.inPhase 7) then s
  else
    let s1 := s.toPhase 8
    let n := s1.nvm.bootf.toNat
    match s1.bootForme.filter fun _ => s1.nvm.ok.getLsbD n with
    | none => (s1.modNvm fun v => { v with noForme := true }).raise 221 0x02
    | some f =>
      let s2 := (s1.modNvm fun v => { v with powerForme := some n }).listsOf f
      let s3 := s2.forChans (formeChans f) fun c z =>
        ((z.modChan c fun x => { x with stagedForme := some n }).applyStaged c (lsbUp z.now) true).1
      let s4 := { s3 with place := { s3.place with
        table := tableOf (((s3.nvm.flash.bind fun fl => fl.tables.lookup f.placement)).getD []), tableNo := some f.placement } }
      s4.requestOn (mapDoms f)

/-! ## TRIM, RUN-ready (R473, R494, Table 15.2) -/

/-- TRIM: the common CELLS window of the channels that are on. W0 is the SPAN instant at which the milestone is seen. -/
def State.trimPhase (s : State) : State :=
  if s.pwr.mode == .load && s.inPhase 8 then
    let s1 := (s.toPhase 9).toMode .trim
    let w0 := s1.span.vis win400 s1.now
    s1.forChans (allChans.filter fun c => s1.chOn c && s1.inPowerMap (chDom c)) fun c z =>
      (z.modChan c fun x => { x with trim := { x.trim with pendCells := true, pendDeskew := false } }).startTrim c w0 false false
  else s

/-- RUN_READY. -/
def State.runReady (s : State) : State :=
  if s.pwr.mode == .trim && s.inPhase 9 then
    let s1 := (s.toPhase 10).modNvm fun n => { n with result := 1 }
    if s1.thm.expired then s1.enterShed else s1.toMode .run
  else s

/-! ## Switching formes (R500 to R502, Table 14.10) -/

/-- A channel of the new power map: its change is staged, or what it runs already stands. -/
def State.stageChan (s : State) (f : Nat) (c : Chan) : State :=
  let x := s.chan c
  if x.forme = some f then s.setChan c { x with stagedForme := none, pdoffPend := false }
  else (s.setChan c { x with stagedForme := some f, postLate := false, pdoffPend := false }).settleIdle c

/-- A channel that the new power map removes: it is disarmed at its boundary with PDOFF, then switched off. -/
def State.removeChan (s : State) (f : Nat) (c : Chan) : State :=
  let x := s.chan c
  let busy := x.armed || x.rcd.isOpen
  let s1 := s.setChan c { x with
    stagedForme := if busy then some f else none, postLate := false, forme := if busy then x.forme else some f, pdoffPend := s.chOn c }
  match s.dom (chDom c) with
  | .waiting => s1.setDom (chDom c) .off
  | _ => s1.requestOff c

/-- Sweep synthesizer k takes its block of the forme when it may. -/
def State.stageSweep (s : State) (f : Forme) (k : Fin 8) : State :=
  match f.sweeps[k.val]? with
  | some c => (s.modSynth (swOf k) fun x => { x with staged := some c }).sweepApply k
  | none => s

/-- Timebase, spread, sweep and placement fields are staged. -/
def State.stageShared (s : State) (f : Forme) : State :=
  let s1 := s.modTb fun tb => { tb with
    staged := if tb.cfg = f.tbsCfg && tb.seed = f.tbsSeed && tb.slewCfg = f.tbsSlew then none
              else some (f.tbsCfg, f.tbsSeed, f.tbsSlew) }
  let ssc := fun (k : Synth) (w : Word) (z : State) =>
    z.modSynth k fun x => { x with stagedSsc := if x.ssc = w then none else some w }
  let s2 := ssc 9 f.vaultSsc (ssc 8 f.deckSsc s1)
  let s3 := allPiers.foldl (fun z k => z.stageSweep f k) s2.tbApply.sscApply
  let t := tableOf ((s3.nvm.flash.bind fun fl => fl.tables.lookup f.placement).getD [])
  { s3 with place := { s3.place with staged := if t = s3.place.table then none else some (t, f.placement) } }

/-- Step 5: every change of forme f is staged. -/
def State.stageForme (s : State) (n : Nat) (f : Forme) : State :=
  let s1 := (s.modNvm fun v => { v with runPhase := 2, powerForme := some n, noForme := false }).listsOf f
  let s2 := s1.stageShared f
  let s3 := s2.forChans allChans fun c z => if f.power.getLsbD c.val then z.stageChan n c else z.removeChan n c
  let s4 := (s3.requestOn (mapDoms f)).pierOffAll
  (if s4.thm.shedFrom.isSome then s4.shedChans else s4).formeDone

/-- The sections that forme n names: their directory entries. -/
def formeEntries (h : ImgHeader) (n : Nat) (f : Forme) : List DirEntry :=
  (h.dir.take h.nsect).filter fun e =>
    (e.type == 3 && e.index.toNat == n) || (e.type == 5 && e.index.toNat == f.placement)
      || (e.type == 4 && f.chans.any fun b => b.program == e.index.toNat)

/-- Whether something of an earlier switch is still staged. -/
def State.stillStaged (s : State) : Bool := allChans.any fun c => (s.chan c).stagedForme.isSome

/-- FORME_REREAD: the sections of the accepted forme have been read again. -/
def State.formeReread (s : State) : State :=
  if s.nvm.runPhase != 1 then s
  else
    let n := s.nvm.target.toNat
    match s.nvm.flash, s.formeOf n with
    | some fl, some f =>
      if (formeEntries fl.header n f).all (digestOk fl) then s.stageForme n f
      else
        (s.modNvm fun v => { v with
          runPhase := if s.stillStaged then 2 else 0, ok := v.ok &&& ~~~ BitVec.ofNat 64 (2 ^ n)
          whys := setAt v.whys n (whyWord (some { code := 0x0D, ch := 127, pier := 0 })) }).raiseM 221 0x08
    | _, _ => s

/-- Combined figures of R403: the forme that channel c runs, and forme n. -/
def State.combined (s : State) (n : Nat) (c : Chan) : Figure :=
  let old := if s.nvm.noForme then Figure.off else s.formeFigure (s.chan c).forme c
  old.both (s.formeFigure (some n) c)

/-- Every channel of the power map of forme n runs it, and nothing is staged (R502). -/
def State.allRun (s : State) (n : Nat) : Bool :=
  s.nvm.powerForme == some n && s.nvm.runPhase == 0 && s.tb.staged.isNone && s.place.staged.isNone
    && (List.finRange 10).all (fun k => (s.synth k).staged.isNone && (s.synth k).stagedSsc.isNone)
    && allChans.all fun c => (s.chan c).stagedGalley.isNone

/-- SELECT_FORME at its completion: code, refusal code and pier; a forme refused at LOAD shows those of NVM.FORME_WHY. -/
def State.selectForme (s : State) (n : Nat) : State × Byte × Word :=
  if !s.nvm.ok.getLsbD n then
    let why := s.nvm.whys.getD n 0xFF7F0000
    (s, 0x14, pack 32 [(8, fld why 8 3), (0, fld why 24 8)])
  else if s.allRun n then (s, 0, 0)
  else
    let t := admissionTest s.vlt.nrrTh (s.combined n)
    let s1 := s.showTest t
    if t.result = 1 then (s1.raiseM 221 0x04, 0x15, pack 32 [(8, t.pier), (0, 0x0B)])
    else if t.result = 2 then (s1.raiseM 221 0x04, 0x15, pack 32 [(0, 0x0C)])
    else (s1.modNvm fun v => { v with runPhase := 1, target := BitVec.ofNat 6 n }, 0, 0)

/-! ## Registers (Tables 14.12 to 14.16) -/

def Nvm.loadStat (n : Nvm) : Word :=
  pack 32 [(28, n.phase.toNat), bitAt 27 n.quick, bitAt 26 n.rfail, (0, satNat 16 n.shift)]
def Nvm.imgStat (n : Nvm) : Word := pack 32 [(28, n.result.toNat), (24, n.why.toNat), (16, n.dirent.toNat), (0, n.nforme.toNat)]

/-- Channels of the power maps, the one in force and that of TARGET, that do not run TARGET yet. -/
def State.formePend (s : State) : Nat :=
  let n := s.nvm.target.toNat
  let mapped := fun (o : Option Nat) (c : Chan) => match o.bind s.formeOf with
    | some f => f.power.getLsbD c.val
    | none => false
  allChans.countP fun c => (s.chan c).stagedForme.isSome
    || (s.nvm.runPhase == 1 && (s.chan c).forme != some n && (mapped s.nvm.powerForme c || mapped (some n) c))
def State.formeRun (s : State) : Word :=
  pack 32 [(30, s.nvm.runPhase.toNat), (24, s.nvm.target.toNat), bitAt 23 s.nvm.noForme, (16, s.nvm.bootf.toNat),
    (0, s.formePend)]

/-! ## Meanings -/

def execFormeReread (s : State) : Host.Outcome State Fault Refusal := .next s.formeReread
def execAuth (s : State) : Host.Outcome State Fault Refusal := .next s.auth
def execImage (s : State) : Host.Outcome State Fault Refusal := .next s.image
def execCal (s : State) : Host.Outcome State Fault Refusal := .next s.cal
def execAdmission (s : State) : Host.Outcome State Fault Refusal := .next s.admitAll
def execClocks (s : State) : Host.Outcome State Fault Refusal := .next s.clocks_
def execClocksLocked (s : State) : Host.Outcome State Fault Refusal := .next s.clocksLocked
def execTrain (s : State) : Host.Outcome State Fault Refusal := .next s.train
def execInit (s : State) : Host.Outcome State Fault Refusal := .next s.stackInit
def execDist (s : State) : Host.Outcome State Fault Refusal := .next s.dist
def execTrim (s : State) : Host.Outcome State Fault Refusal := .next s.trimPhase
def execRunReady (s : State) : Host.Outcome State Fault Refusal := .next s.runReady

end Sys2Proof.Machine
end

