-- ==== Sys2Proof/Machine/Trigger.lean ====
section
/-! DEFINITION. The trigger unit (08_trigger_and_galley.md, R273 to R284): crossbar edges, conditions, declaration, COLLECT. -/

namespace Sys2Proof.Machine

/-! ## Pattern (R278) -/

/-- The crossbar edge to apply next: earliest deskewed instant, then lowest lane. -/
def Trigger.nextCross (t : Trigger) : Option (Int × Nat × Bool) :=
  t.cross.foldl (fun a e =>
    match a with
    | none => some e
    | some b => if e.1 < b.1 ∨ (e.1 = b.1 ∧ e.2.1 < b.2.1) then some e else a) none

/-- The state matches condition i. -/
def Channel.patternMatch (x : Channel) (i : Nat) (pat : BitVec 24) : Bool :=
  let c := x.trgCond i
  (pat &&& c.2.1.setWidth 24) == (c.2.2.setWidth 24 &&& c.2.1.setWidth 24)

/-- Apply a crossbar edge in dc `n`; `time` is its compensated time. -/
def Channel.applyCross (x : Channel) (n : Nat) (e : Int × Nat × Bool) (time : Int) : Channel :=
  let was := x.trg.pat
  let now : BitVec 24 := putFld was e.2.1 1 (bit e.2.2)
  let y := x.modTrg fun t => { t with pat := now, cross := t.cross.erase e }
  (y.condsOf 3).foldl (fun z i =>
    if z.rcd.isOpen && z.patternMatch i now && !z.patternMatch i was && z.trg.a ≤ time then z.meet n i time else z) y

/-! ## Acting on conditions (R274, R275, R281, R283) -/

/-- The time lies at or after the next record's arm point, so the condition is kept for that record (R274). -/
def Channel.kept (x : Channel) (time : Int) : Bool :=
  match x.folder.closing with
  | some c => c + 819200 ≤ time
  | none => false

/-- Two times lie in one span cycle (R281). -/
def sameCycle (a b : Int) : Bool := a / 2048 == b / 2048

/-- Conditions act in dc `n` in this order: earliest time, then lowest number. -/
def condBefore (a b : Cond) : Bool := a.time < b.time || (a.time == b.time && a.i ≤ b.i)

/-- Put a condition in its place. -/
def insertCond (k : Cond) : List Cond → List Cond
  | [] => [k]
  | u :: t => if condBefore k u then k :: u :: t else u :: insertCond k t

/-- The trigger word among words handed over earlier in the dc of the declaration (R292): the fill state then. -/
def Channel.waitTrigger (x : Channel) (n : Nat) : Channel :=
  let k := ((x.outq.reverse.takeWhile fun w => !w.final).filter fun w => w.dc == n && w.g.isSome).length
  if k = 0 then x.modRec fun r => { r with fs := .waitTw }
  else
    let r := x.rcd
    let j := (r.wp + r.r - k % r.r) % r.r
    let w := (x.outq.find? fun w => w.g == some (r.base + 8 + j)).map (·.word)
    let y := x.modRec fun r => { r with fs := .fill, tw := some j, twWord := w.getD 0, post := k - 1 }
    if r.p ≤ k - 1 then y.closeFull n else y

/-- A trigger is declared (R281, R284). -/
def Channel.declare (x : Channel) (n : Nat) (c : Cond) : Channel :=
  let y := x.modTrg fun t => { t with
    st := .collect, final := false, declTime := c.time, declDc := n, cause := BitVec.ofNat 8 (2 ^ c.i), time := c.time }
  let z := if x.sub 11 && x.condKind c.i != 4 then y.ev 11 (2 ^ c.i) c.time (BitVec.ofNat 64 c.i) else y
  z.waitTrigger n

/-- The time lies from the closing time on and before the next record's arm point: no record takes the condition (R274). -/
def Channel.between (x : Channel) (time : Int) : Bool :=
  match x.folder.closing with
  | some c => c ≤ time && time < c + 819200
  | none => false

/-- One condition acts in dc `n`. -/
def Channel.act (x : Channel) (n : Nat) (c : Cond) : Channel :=
  let t := x.trg
  let ignore := x.modTrg fun t => { t with ignored := satAdd t.ignored 1 }
  if !x.rcd.isOpen then ignore
  else if x.kept c.time then x.modTrg fun t => { t with pend := t.pend ++ [c] }
  else if x.between c.time then ignore
  else if t.st = .holdoff ∨ t.st = .armed then
    if c.time < t.a then ignore else x.declare n c
  else if t.st = .collect && sameCycle c.time t.declTime && !(x.folder.byDisarm && x.disarmDc ≤ n) then
    let y := x.modTrg fun t => { t with
      cause := t.cause ||| BitVec.ofNat 8 (2 ^ c.i), time := min t.time c.time, final := false }
    if t.final then y.finalTrigger else y
  else ignore

/-- Time of the AUTO conditions that have not fired in this record. -/
def Channel.autoAt (x : Channel) : Option Int :=
  if x.rcd.isOpen && x.trg.cause = 0 && (x.trg.st = .holdoff ∨ x.trg.st = .armed) && !(x.condsOf 7).isEmpty then
    some (x.trg.a + x.cfg.trgAuto.toNat * 2048)
  else none

/-- dc in which a waiting condition is acted on: when stream time reaches it; an ENGINE condition in its own dc. -/
def State.condDue (s : State) (c : Chan) (k : Cond) : Option Nat :=
  let x := s.chan c
  if x.kept k.time then none
  else if x.condKind k.i = 4 then some k.dc
  else (s.streamDue c k.time).map (max k.dc)

/-- dc in which a crossbar edge is applied. -/
def State.crossDue (s : State) (c : Chan) (e : Int × Nat × Bool) : Option Nat :=
  s.streamDue c (e.1 + (s.chan c).folder.base)

/-- Apply the crossbar edges that are due by dc `n`, in order. -/
def State.crossTo (s : State) (c : Chan) (n : Nat) : Nat → State
  | 0 => s
  | fuel + 1 =>
    match (s.chan c).trg.nextCross with
    | none => s
    | some e =>
      match s.crossDue c e with
      | some d =>
        if d ≤ n then
          (s.modChan c fun x => x.applyCross n e (e.1 + x.folder.base)).crossTo c n fuel
        else s
      | none => s

/-- TRIGGER_CONDITION: the first dc in which the unit has something to act on: crossbar edges are applied, and every
condition due in that dc acts, and so does a stop that a FAIL verdict asked for (R275, R278, R281, R286). -/
def State.triggerCondition (s : State) (c : Chan) : State :=
  let x := s.chan c
  if !s.chOn c then s
  else
    let dues := (x.trg.nextCross.bind (s.crossDue c)).toList
      ++ x.trg.pend.filterMap (s.condDue c)
      ++ (x.autoAt.bind (s.streamDue c)).toList
      ++ (x.folder.stopAsk.bind (s.streamDue c)).toList
    match dues.min? with
    | none => s
    | some n =>
      let s1 := (s.at_ (s.dcAt n)).crossTo c n x.trg.cross.length
      let y := s1.chan c
      let here := y.trg.pend.filter fun k => (s1.condDue c k).any (· ≤ n)
      let auto := match y.autoAt with
        | some t =>
          if (s1.streamDue c t).any (· ≤ n) then (y.condsOf 7).map fun i => { i := i, time := t, dc := n } else []
        | none => []
      let z := y.modTrg fun t => { t with pend := t.pend.filter fun k => !here.contains k }
      let s2 := (s1.setChan c (((here ++ auto).foldr insertCond []).foldl (fun z k => z.act n k) z)).showTrigger c x.trg
      match z.folder.stopAsk with
      | some t =>
        if (s1.streamDue c t).any (· ≤ n) then (s2.modChan c fun x => x.modF fun f => { f with stopAsk := none }).stop c n
        else s2
      | none => s2

/-- COLLECT_END: COLLECT × 64 dc after the declaration the trigger is final (R281, R282). -/
def State.collectEnd (s : State) (c : Chan) : State :=
  let x := s.chan c
  if x.trg.st = .collect then
    ((s.at_ (s.dcAt (x.trg.declDc + fld x.cfg.trgCfg 24 8 * 64))).setChan c
      (x.finalTrigger.modTrg fun t => { t with st := .fill })).showTrigger c x.trg
  else s

/-- HOLDOFF_END: stream time reaches the arm point A (R274). -/
def State.holdoffEnd (s : State) (c : Chan) : State :=
  let x := s.chan c
  if x.trg.st = .holdoff then
    match s.streamDue c x.trg.a with
    | some n => (s.at_ (s.dcAt n)).setChan c (x.modTrg fun t => { t with st := .armed })
    | none => s
  else s

/-- A SYNC trigger reaches the trigger unit of a channel; `abs` is the LSB instant of its completing edge (R279, R300). -/
def Channel.syncTrigger (x : Channel) (n abs : Nat) : Channel :=
  if x.held then x.modTrg fun t => { t with missed := satAdd t.missed 1 }
  else if !x.rcd.isOpen then x
  else
    (x.condsOf 5).foldl (fun y i => y.meet n i ((abs : Int) + x.folder.base + (y.trgCond i).2.1.toNat)) x

/-! ## Registers (Tables 8.4, 8.10) -/

def TrgState.code : TrgState → Nat
  | .idle => 0 | .holdoff => 1 | .armed => 2 | .collect => 3 | .fill => 4 | .held => 5

/-- POST as the forme or SET_POST gave it (the example under R564). -/
def Channel.postShown (x : Channel) : Nat := match x.stagedPost with | some n => n.toNat | none => postOf x.cfg

/-- GAL.STAT. -/
def State.galStat (s : State) (c : Chan) : Word :=
  let x := s.chan c
  let st := if x.held then 3 else if x.rcd.isOpen then (if x.rcd.isSeg then 2 else 1) else 0
  let used := (s.closedOf c).filter fun r => r.overlaps (segBase x.cfg * sheetWords) (segSheets x.cfg * sheetWords)
  let open_ := if x.rcd.isOpen && x.rcd.isSeg then 1 else 0
  pack 32 [(28, st), bitAt 27 (!s.circFree c x.cfg), bitAt 26 (circRing x.cfg - 1 < x.postShown),
    (0, satNat 16 (segSlots x.cfg - used.length - open_))]

/-! ## Meanings -/

def execTriggerCondition (c : Chan) (s : State) : Host.Outcome State Fault Refusal := .next (s.triggerCondition c)
def execCollectEnd (c : Chan) (s : State) : Host.Outcome State Fault Refusal := .next (s.collectEnd c)
def execHoldoffEnd (c : Chan) (s : State) : Host.Outcome State Fault Refusal := .next (s.holdoffEnd c)

end Sys2Proof.Machine
end

