-- ==== Sys2Proof/Machine/Placement.lean ====
section
/-! DEFINITION. Sites, placement and epoch fences (10_sites_and_placement.md). -/

namespace Sys2Proof.Machine

/-! ## Grid instants (R356, R357, R368) -/

/-- The first grid instant at or after an LSB instant, on the scale in force. -/
def State.gridFrom (s : State) (l : Nat) : Nat :=
  let p : Int := s.tb.refP
  l + ((-((l : Int) + s.tb.scale)) % p).toNat

/-- 32 ns, and 8,192 sc, in units of the time axis. -/
def fenceLead : Nat := 2048000
def remapLead : Nat := 8192 * scUnits

/-- T_F of a pending fence in LSB: fixed when it was selected, or for WHEN other than 0 the first grid instant from `from_`
on whose stamp on the scale in force is at or above WHEN. -/
def State.fenceAt (s : State) (f : FencePend) : Nat :=
  if f.isRemap && f.when_ != 0 then s.gridFrom (max f.from_ (stampNear (f.from_ + s.tb.scale) f.when_ - s.tb.scale).toNat)
  else f.from_

/-- The pending fence that falls first: earliest T_F, then SYNC STEP before REMAP, then SYNC order. -/
def State.nextFence (s : State) : Option FencePend :=
  s.place.pend.foldl (fun a f =>
    match a with
    | none => some f
    | some g =>
      if s.fenceAt f < s.fenceAt g ∨ (s.fenceAt f = s.fenceAt g ∧ g.isRemap ∧ !f.isRemap) then some f else some g) none

/-! ## SUBST (R370, R371) -/

/-- Index of the entry of a channel at a step, and the 256 steps. -/
def plcIndex (step c : Nat) : Nat := step * 96 + c
def allSteps : List Nat := List.range 256

/-- Channel b is unbound at every step of a table. -/
def unboundIn (table : List (Nat × Word)) (b : Nat) : Bool :=
  table.all fun e => e.1 % 96 != b || !plcBound e.2

/-- R370, against the table in force and any staged one. -/
def State.substOk (s : State) (a b : Nat) : Bool :=
  a != b && (s.place.spares.any fun p => p.1.val == a && p.2.val == b) && unboundIn s.place.table b
    && (match s.place.staged with | some (t, _) => unboundIn t b | none => true)
    && s.chOn (Fin.ofNat 96 b)

/-- The table after a SUBST: entry b takes entry a, entry a becomes unbound, at every step. -/
def substTable (table : List (Nat × Word)) (a b : Nat) : List (Nat × Word) :=
  allSteps.foldl (fun t k => sset 0 (sset 0 t (plcIndex k b) (sget 0 t (plcIndex k a))) (plcIndex k a) 0) table

/-! ## The fence (R358, R361, R365, R371) -/

/-- A staged table comes into force (R355, R378). -/
def State.tableForce (s : State) : State :=
  match s.place.staged with
  | none => s
  | some (t, n) =>
    let s1 := { s with place := { s.place with table := t, tableNo := some n, staged := none } }
    s1.forChans allChans fun c z => z.modChan c fun x => { x with subOut := false, subIn := false }

/-- The fence record of a channel whose placement was `old`. -/
def State.fenceRecord (s : State) (f : FencePend) (tf : Nat) (old new : Placement) : Insert :=
  { fence := true, inst := tf, sub := 0, time := s.stamp (tf * lsbUnits)
    cause := if f.isRemap then 1 else 0, loop := false, tstate := 0, step := 0
    newStep := new.step, newEpoch := new.epoch, newSite := new.site, oldStep := old.step, oldEpoch := old.epoch
    oldSite := old.site }

/-- A channel meets the fence: its record is inserted, or the channel left unbound is disarmed at T_F. -/
def State.fenceChan (s : State) (f : FencePend) (tf : Nat) (old : Placement) (c : Chan) : State :=
  let t := tf * lsbUnits
  let x := s.chan c
  if !s.chOn c || !x.armedThrough t then s
  else if !s.bound c && x.armed then s.disarm c t flagDisarm
  else s.modChan c fun x => { x with merge := { x.merge with
    ins := x.merge.ins ++ [s.fenceRecord f tf old (s.placement c)] } }

/-- FENCE: the pending fence that falls first takes its effect at T_F. -/
def State.fence (s0 : State) : State :=
  match s0.nextFence with
  | none => s0
  | some f =>
    let tf := s0.fenceAt f
    let t := tf * lsbUnits
    let s := s0.at_ t
    let olds := allChans.map fun c => (c, s.placement c)
    let s1 := { s with place := { s.place with pend := s.place.pend.erase f } }
    let s2 := s1.tableForce
    let sub := f.isRemap && f.subst
    let s3 := if sub then s2 else { s2 with place := { s2.place with step := f.step } }
    let ok := s3.substOk f.a f.b
    let s4 := if !sub then s3
      else if !ok then { s3 with place := { s3.place with subFail := true } }
      else
        let z := { s3 with place := { s3.place with table := substTable s3.place.table f.a f.b } }
        (z.modChan (Fin.ofNat 96 f.a) fun x => { x with subOut := true }).modChan (Fin.ofNat 96 f.b) fun x =>
          { x with subIn := true }
    let s5 := { s4 with place := { s4.place with epoch := s4.place.epoch + 1, ftime := stamp64 (s.stamp t) } }
    let s6 := olds.foldl (fun z p => z.fenceChan f tf p.2 p.1) s5
    let b : Chan := Fin.ofNat 96 f.b
    let x := s6.chan b
    if sub && ok && f.armB && !x.armed && !x.eng.fresh && !x.trim.running && (s6.placeFor b x.cfg none).isSome then s6.armAtInstant b t
    else s6

/-! ## Registers (Tables 10.4 to 10.6) -/

def State.plcStat (s : State) : Word :=
  let p := s.place
  pack 32 [(24, p.step.toNat), (8, p.epoch.toNat), bitAt 3 p.subFail, bitAt 2 p.rCancel, bitAt 1 (p.pend.any (·.isRemap)),
    bitAt 0 p.staged.isSome]

/-- WHEN of a pending REMAP; all ones if none. -/
def State.plcPtime (s : State) : Dword :=
  match s.place.pend.find? (·.isRemap) with
  | some f => f.when_
  | none => BitVec.allOnes 64

/-- OLDREC (R373): closed records with an entry of another epoch whose folio is in state 0b01 or 0b10. -/
def State.oldRec (s : State) (c : Chan) : Nat :=
  let e := s.place.epoch
  let open_ := s.chan c
  let o := open_.rcd
  let old := o.isOpen && (match o.plO with | some p => p.epoch != e | none => false)
  ((s.closedOf c).filter fun r => (r.epochO.any (· != e) || r.epochC.any (· != e)) && ((s.folio r.folio).st == 1 || (s.folio r.folio).st == 2)).length
    + bit old

def State.plcChstat (s : State) (c : Chan) : Word :=
  let x := s.chan c
  pack 32 [bitAt 31 (s.bound c), bitAt 30 x.subOut, bitAt 29 x.subIn, (12, satNat 8 (s.oldRec c)),
    (0, (s.placement c).site.toNat)]

/-! ## Meaning -/

def execFence (s : State) : Host.Outcome State Fault Refusal := .next s.fence

end Sys2Proof.Machine
end

