-- ==== Sys2Proof/Machine/Sync.lean ====
section
/-! DEFINITION. The SYNC bus (20_pins_and_timing.md, R664 to R668): words, the events they carry, and the SYNC registers. -/

namespace Sys2Proof.Machine

/-! ## CRC-8 (R542) -/

/-- One bit of the division. -/
def crcBit (c : Byte) : Byte := if c.msb then (c <<< 1) ^^^ 0x07 else c <<< 1

/-- One byte. -/
def crcByte (c b : Byte) : Byte := crcBit (crcBit (crcBit (crcBit (crcBit (crcBit (crcBit (crcBit (c ^^^ b))))))))

/-- CRC-8 of a string of bytes. -/
def crc8 (l : List Byte) : Byte := l.foldl crcByte 0

/-! ## Words (R665, Table 20.12) -/

/-- The word's CRC matches. -/
def syncCrcOk (type : BitVec 4) (p : BitVec 28) : Bool :=
  let w : Word := type ++ p
  crc8 [w.extractLsb' 24 8, w.extractLsb' 16 8, w.extractLsb' 8 8] == w.extractLsb' 0 8

/-- A payload field that the type does not use is zero; a reserved TYPE has no use. -/
def syncPayloadOk (type : BitVec 4) (p : BitVec 28) : Bool :=
  match type.toNat with
  | 0 => fld p 8 20 == 0
  | 1 => fld p 16 12 == 0
  | 2 => true
  | 3 => true
  | 4 => fld p 8 12 == 0
  | 5 => fld p 8 20 == 0
  | _ => false

/-- The mode refuses the word (R668): an ARM outside RUN and SHED, a STEP before RUN-ready. -/
def State.syncRefused (s : State) (type : BitVec 4) : Bool :=
  (type == 2 && s.pwr.mode != .run && s.pwr.mode != .shed) || (type == 1 && s.nvm.phase != 10)

/-- Piers and channels that a word names (Table 20.12). -/
def syncPier (p : BitVec 28) (k : Pier) : Bool := p.getLsbD (20 + k.val)
def syncNames (p : BitVec 28) (c : Chan) : Bool := syncPier p (pierOf c) && p.getLsbD (8 + posOf c)

/-! ## Instants (R357, R666, R600) -/

/-- The instant from which a word's rules count: its visibility edge, or the d-th SPAN edge after it under a crossing
delay of d. -/
def State.syncVis (s : State) (t : Instant) : Instant := s.span.after (s.xdlyOf 204) (s.span.vis win300 t)

/-- E_D: the 12th SPAN edge after that. -/
def State.syncED (s : State) (t : Instant) : Instant := s.span.after 12 (s.syncVis t)

/-! ## Events -/

/-- A HELD channel is not re-armed any more (R300, R556). -/
def Channel.cancelHeld (x : Channel) : Channel := { x with heldRearm := none, wantRearm := false }

/-- Why a SYNC arm is ignored (R667): a shed channel counts as off in SHED, and every channel while no forme is in force. -/
def State.armExcepted (s : State) (c : Chan) : Bool :=
  let x := s.chan c
  let taken := if x.rcd.isOpen then some (x.rcd.base, x.rcd.r) else none
  s.nvm.noForme || !s.chOn c || x.eng.fresh || (s.pwr.mode == .shed && s.thm.shed.getLsbD c.val) || !s.bound c || x.trim.running || x.held || (s.placeFor c x.cfg taken).isNone

/-- SYNC ARM: each named channel that is not already armed is armed at E_D, or excepted. -/
def State.syncArm (s : State) (p : BitVec 28) (t : Instant) : State :=
  let s1 := (allChans.filter (syncNames p)).foldl (fun z c =>
    if (z.chan c).armed then z
    else if z.armExcepted c then z.raise (chSrc c) 0x20
    else z.armAtInstant c t) s
  ((List.finRange 8).filter (syncPier p)).foldl (fun z k => z.rampEvent k 0 t) s1

/-- SYNC DISARM: every named armed channel is disarmed at E_D, and a named HELD channel is not re-armed. -/
def State.syncDisarm (s : State) (p : BitVec 28) (t : Instant) : State :=
  (allChans.filter (syncNames p)).foldl (fun z c =>
    if (z.chan c).armed then z.disarm c t flagDisarm else z.modChan c Channel.cancelHeld) s

/-- SYNC TRIG: the condition reaches the trigger units 2 dc after E_D (Table 20.14), with the stamp of the completing
edge `t0`; ramps start or advance. -/
def State.syncTrig (s : State) (p : BitVec 28) (t0 t : Instant) : State :=
  let n := s.dc (s.clocks.deck.cross win250 2 t)
  let s1 := { s with sync := { s.sync with trig := stamp64 (s.stamp t0) } }
  let s2 := s1.forChans (allChans.filter fun c => syncPier p (pierOf c) && s.chOn c) fun c z =>
    z.modChan c fun x => x.syncTrigger n (lsbOf t0)
  ((List.finRange 8).filter (syncPier p)).foldl (fun z k =>
    if (z.synth (swOf k)).rampOn then z.rampAdvance k t else z.rampEvent k 1 t) s2

/-- SYNC STEP: the fence time is selected (R357). -/
def State.syncStep (s : State) (p : BitVec 28) (v : Instant) : State :=
  { s with place := { s.place with pend := s.place.pend ++
    [{ isRemap := false, subst := false, armB := false, step := p.extractLsb' 8 8, a := 0, b := 0, when_ := 0
       from_ := s.gridFrom (lsbUp (v + fenceLead)) }] } }

/-- The event of a valid word whose completing edge is `t0`. -/
def State.syncEvent (s : State) (type : BitVec 4) (p : BitVec 28) (t0 : Instant) : State :=
  let v := s.syncVis t0
  let t := s.syncED t0
  match type.toNat with
  | 1 => (s.at_ t).syncStep p v
  | 2 => (s.at_ t).syncArm p t
  | 3 => (s.at_ t).syncDisarm p t
  | 4 => (s.at_ t).syncTrig p t0 t
  | 5 => { s.at_ t with sync := { s.sync with mark := some v } }
  | _ => s.at_ t

/-- A SYNC word is received (R664, R668). Nothing is received in RESET, nor once a thermal shutdown has stopped SPAN (R624). -/
def State.syncWord (s : State) (t0 : Instant) (type : BitVec 4) (p : BitVec 28) (frameBreak : Bool) : State :=
  if s.pwr.mode = .reset ∨ s.thm.shutdown.isSome then s.at_ t0
  else
    let s := { s.at_ t0 with sync := { s.sync with lastEdge := some t0 } }
    let y := s.sync
    if frameBreak then { s with sync := { y with errFrame := satAdd y.errFrame 1 } }
    else if !syncCrcOk type p then { s with sync := { y with errCrc := satAdd y.errCrc 1 } }
    else if !syncPayloadOk type p then { s with sync := { y with errRsvd := satAdd y.errRsvd 1 } }
    else if s.syncRefused type then { s with sync := { y with errRefused := satAdd y.errRefused 1 } }
    else
      { s with sync := { y with valid := satAdd y.valid 1, type := type, last := type ++ p } }.syncEvent type p t0

/-! ## Registers (Table 20.15) -/

/-- TOP.SYNC_STAT; CLK shows the SYNC_CK edges that the commands bring (notes/assumptions/30.md). -/
def State.syncStat (s : State) : Word :=
  let clk := match s.sync.lastEdge with
    | some t => s.now ≤ t + 250 * s.clocks.mgmt.period
    | none => false
  pack 32 [bitAt 31 clk, (24, s.sync.type.toNat), (0, s.sync.valid.toNat)]

def SyncSt.err (y : SyncSt) : Word := y.errCrc ++ y.errFrame ++ y.errRsvd ++ y.errRefused

/-! ## Meanings -/

def execSyncNop (at_ : Instant) (p : BitVec 28) (fb : Bool) (s : State) : Host.Outcome State Fault Refusal :=
  .next (s.syncWord at_ 0 p fb)
def execSyncStep (at_ : Instant) (p : BitVec 28) (fb : Bool) (s : State) : Host.Outcome State Fault Refusal :=
  .next (s.syncWord at_ 1 p fb)
def execSyncArm (at_ : Instant) (p : BitVec 28) (fb : Bool) (s : State) : Host.Outcome State Fault Refusal :=
  .next (s.syncWord at_ 2 p fb)
def execSyncDisarm (at_ : Instant) (p : BitVec 28) (fb : Bool) (s : State) : Host.Outcome State Fault Refusal :=
  .next (s.syncWord at_ 3 p fb)
def execSyncTrig (at_ : Instant) (p : BitVec 28) (fb : Bool) (s : State) : Host.Outcome State Fault Refusal :=
  .next (s.syncWord at_ 4 p fb)
def execSyncMark (at_ : Instant) (p : BitVec 28) (fb : Bool) (s : State) : Host.Outcome State Fault Refusal :=
  .next (s.syncWord at_ 5 p fb)
/-- TYPE 0x6 to 0xF. -/
def execReservedSyncWord (at_ : Instant) (type : Fin 10) (p : BitVec 28) (fb : Bool) (s : State) :
    Host.Outcome State Fault Refusal :=
  .next (s.syncWord at_ (BitVec.ofNat 4 (6 + type.val)) p fb)

end Sys2Proof.Machine
end

