-- ==== Sys2Proof/Machine/Storage.lean ====
section
/-! DEFINITION. STORE_CAL (13_trim.md, R467 to R472; 15_modes_and_power_up.md, R527, R528). -/

namespace Sys2Proof.Machine

/-! ## The flash -/

def State.modFlash (s : State) (f : Flash → Flash) : State := s.modNvm fun n => { n with flash := n.flash.map f }

/-- The trim slot of a target, 1 A, 2 B. -/
def State.setSlot (s : State) (target : BitVec 2) (t : Option TrimSlot) : State :=
  s.modFlash fun f => if target = 1 then { f with slotA := t } else { f with slotB := t }

/-! ## Start (R469 steps 1 to 3) -/

/-- The slot that STORE_CAL writes, and its generation. -/
def Nvm.nextSlot (n : Nvm) : BitVec 2 × Word :=
  if n.inForce = 1 then (2, n.genA + 1) else if n.inForce = 2 then (1, n.genB + 1) else (1, 1)

/-- STORE_CAL is accepted: the copy is taken and the erase of the target starts, which leaves the target without content. -/
def State.storeStart (s : State) : State :=
  let (target, gen) := s.nvm.nextSlot
  let copy := allChans.flatMap fun c => (List.range 4).map fun b => (s.chan c).trim.table b
  (s.modNvm fun n => { n with
    store := some { copy := copy, target := target, gen := gen, step := 3, pages := 0, retried := false, stopping := false }
    calState := 1, pages := 0 }).setSlot target none

/-! ## Ends -/

/-- STORE_CAL ends with a result and a cause. -/
def State.storeEnd (s : State) (result : BitVec 4) (cause : Byte) : State :=
  (s.modNvm fun n => { n with store := none, calState := 0, calResult := result, programming := false }).raise 222 cause

/-- The training slot is left as it is; the result of the commit stands. -/
def State.trainEnd (s : State) : State := s.modNvm fun n => { n with store := none, calState := 0, programming := false }

/-- The next program, with the step it belongs to and the state that NVM.CAL_STAT shows. -/
def State.program (s : State) (q : StoreSt) (step pages : Nat) (show_ : BitVec 4) : State :=
  s.modNvm fun n => { n with
    store := some { q with step := step, pages := pages, retried := false }, calState := show_, programming := true }

/-! ## The training slot (R469 step 7, R492) -/

/-- The trained values in force differ from those of the training slot. -/
def State.trainDiffers (s : State) : Bool :=
  match s.nvm.flash with
  | none => false
  | some f => s.vlt.trnResult != 0 && match f.train with
    | some t => !trainValid f t || t.lanes != s.vlt.trnLanes
    | none => true

/-- The training slot as STORE_CAL writes it. The mode-register values are the training's own: free values
(notes/assumptions/9.md). -/
def State.newTrain (s : State) : Option TrainSlot :=
  s.nvm.flash.map fun f =>
    let free := fun (i : Nat) => wordLE ((List.range 4).map fun j => Config.freeByte (516 * s.free + 4 * i + j))
    let t : TrainSlot :=
      { magic := 0x7C1B0A7E, bodyLen := 0x1400, crc := 0, vhash := Config.sha256 (Config.vaultOctets f.vault)
        lanes := s.vlt.trnLanes, modeRegs := (List.range 128).map free, commit := 0 }
    let c := crc32 (trainCovered t)
    { t with crc := c, commit := ~~~ c }

/-! ## ERASE_DONE, PAGE_PROGRAM_DONE -/

/-- ERASE_DONE: the block erase in progress ends; `blank` says that it reads back as all 0xFF. -/
def State.eraseDone (s : State) (blank : Bool) : State :=
  match s.nvm.store with
  | none => s
  | some q =>
    if q.step = 3 then
      if q.stopping then s.storeEnd 2 0x02
      else if !blank then s.storeEnd 3 0x04
      else s.program q 4 0 2
    else if q.step = 7 then
      if q.stopping || !blank then s.trainEnd else s.program q 8 0 4
    else s

/-- The commit page is programmed: the target becomes the slot in force (steps 5 to 7). -/
def State.commitSlot (s : State) (q : StoreSt) : State :=
  let slot : TrimSlot :=
    { magic := 0x7C1B0A5E, gen := q.gen, bodyLen := 0xC000, crc := 0, commit := ~~~ q.gen, tables := q.copy }
  let s1 := ((s.setSlot q.target (some { slot with crc := crc32 (trimCovered slot) })).modNvm fun n => { n with
    inForce := q.target, pages := 194, calResult := 1, programming := false
    genA := if q.target = 1 then q.gen else n.genA, genB := if q.target = 2 then q.gen else n.genB }).raise 222 0x01
  if s1.trainDiffers then
    (s1.modNvm fun n => { n with store := some { q with step := 7, pages := 0, retried := false }, calState := 4 }).modFlash
      fun f => { f with train := none }
  else s1.modNvm fun n => { n with store := none, calState := 0 }

/-- PAGE_PROGRAM_DONE: the page in progress has been programmed and read back. -/
def State.pageDone (s : State) (verified : Bool) : State :=
  match s.nvm.store with
  | none => s
  | some q =>
    if !s.nvm.programming then s
    else if s.thm.shutdown.isSome then s.cut false true
    else
      let count := fun (z : State) => z.modNvm fun n => { n with
        pages := if verified && q.step ≤ 5 then satAdd n.pages 1 else n.pages }
      let again := s.modNvm fun n => { n with store := some { q with retried := true } }
      if q.step = 4 ∨ q.step = 5 then
        if q.stopping then (if q.step = 4 then count s else s).storeEnd 2 0x02
        else if !verified then if q.retried then s.storeEnd 3 0x04 else again
        else if q.step = 5 then s.commitSlot q
        else if q.pages + 1 = 193 then (count s).program q 5 193 3
        else (count s).program q 4 (q.pages + 1) 2
      else if q.step = 8 then
        if q.stopping then s.trainEnd
        else if !verified then if q.retried then s.trainEnd else again
        else if q.pages + 1 = 22 then { (s.trainEnd.modFlash fun f => { f with train := s.newTrain }) with free := s.free + 1 }
        else s.program q 8 (q.pages + 1) 4
      else s

/-- A dip starts: STORE_CAL stops once what is in progress completes (R528). -/
def State.storeStop (s : State) : State :=
  s.modNvm fun n => { n with store := n.store.map fun q => { q with stopping := true } }

/-- NVM.CAL_STAT (Table 13.10). -/
def Nvm.calStat (n : Nvm) : Word := pack 32 [(28, n.calState.toNat), (24, n.calResult.toNat), (16, n.inForce.toNat), (8, n.pages.toNat)]

/-! ## Meanings -/

def execEraseDone (blank : Bool) (s : State) : Host.Outcome State Fault Refusal := .next (s.eraseDone blank)
def execPageProgramDone (verified : Bool) (s : State) : Host.Outcome State Fault Refusal := .next (s.pageDone verified)

end Sys2Proof.Machine
end

