-- ==== Sys2Proof/Machine/Modes.lean ====
section
/-! DEFINITION. Reset sources, reset release, rail monitors and dips (15_modes_and_power_up.md, R510 to R529). -/

namespace Sys2Proof.Machine

/-- PWR part of a state. -/
def State.modPwr (s : State) (f : Power → Power) : State := { s with pwr := f s.pwr }

/-! ## Reset sources (Table 15.4) -/

/-- POWER_ON: RST_CAUSE and RST_COUNT are cleared and POR is set (R518); THM.SD_LOG is cleared too (R626). -/
def State.powerOn (s : State) (t : Instant) : State :=
  let s1 := (s.at_ t).toReset fun p => { Power.reset with mode := .reset, nvmv := p.nvmv, mclk0 := p.mclk0 }
  { s1 with thm := { s1.thm with sdLog := 0 }, pwr := { s1.pwr with prev := .reset }, tap := Tap.reset }

/-- RESET_N has been low for 64 mc. A thermal shutdown that waits for its cut still holds the release until the central sensor
has cooled (Table 15.10, Table 18.2). -/
def State.resetN (s : State) (t : Instant) : State :=
  let z := s.at_ t
  z.toReset fun p => { p with rstPin := true, thermHold := false, thermWait := p.thermWait || z.thm.shutdown.isSome }

/-- A rail has been below its reset level for 16 mc. -/
def State.railReset (s : State) (t : Instant) (rail : RailIx) : State :=
  (s.at_ t).toReset fun p => { p with rstSupply := true, rstRail := BitVec.ofNat 3 rail.val }

/-! ## Reset release (R516, R520, R521, R633) -/

/-- The holds of the reset sources that acted have passed. -/
def State.holdsPassed (s : State) : Bool :=
  (match s.pwr.trussHold with | some m => m ≤ s.nowMc | none => true)
    && !s.pwr.thermHold && (!s.pwr.thermWait || (s.sens 16).reading < 840)

/-- Sources of the rails. -/
def railSrc (i : RailIx) : Source := ⟨188 + i.val, by omega⟩
def allRails : List RailIx := List.finRange 6

/-- RESET_RELEASE at the first mc edge at or after `t`: BOOT starts. `order` has the bit of each rail of R521. -/
def State.release (s : State) (t : Instant) (flash : Option Flash) (nvmv : Bool) (order : BitVec 6) : State :=
  let s0 := s.at_ t
  if s0.pwr.mode != .reset || !s0.holdsPassed then s
  else
    let m := s0.nowMc
    let s1 := (s0.at_ (s0.mcAt m)).modPwr fun p =>
      { p with mode := .load, prev := .reset, nvmv := nvmv, mclk0 := m, trussHold := none, thermWait := false }
    let s2 := { s1 with nvm := Nvm.reset flash, lcy := { s1.lcy with state := fuseState s1.lcy.fuses } }
    let s3 := allRails.foldl (fun (z : State) i => if order.getLsbD i.val then z.raise (railSrc i) 0x08 else z) s2
    s3.boot.eraseRest

/-! ## Dips (R523 to R529) -/

/-- A change of one rail monitor. -/
def State.modRail (s : State) (i : RailIx) (f : Rail → Rail) : State :=
  s.modPwr fun p => { p with rails := p.rails.set i (f p.rails[i]) }

/-- The SPAN visibility edge of an mc edge, in LSB. -/
def State.mcSpan (s : State) (m : Nat) : Nat := lsbOf (s.span.vis win400 (s.mcAt m))

/-- The interval of the dip that has ended, where it marks entries. -/
def Power.supPast (p : Power) : List (Nat × Nat) :=
  match p.dipE with
  | some e => if p.dipRails &&& supRails != 0 && p.dipS < e then [(p.dipS, e)] else []
  | none => []

/-- DIP_START: a rail is below its warning level from `t` on. -/
def State.dipBegin (s : State) (t : Instant) (rail : RailIx) : State :=
  let s := s.at_ t
  if s.pwr.mode = .reset || (s.pwr.rails[rail]).warn then s
  else
    let m := s.nowMc
    let b : BitVec 6 := BitVec.ofNat 6 (2 ^ rail.val)
    let s1 := s.modRail rail fun r => { warn := true, overLvl := false, dips := satAdd r.dips 1 }
    let s2 := if s.pwr.dipActive then s1.modPwr fun p => { p with dipRails := p.dipRails ||| b }
      else s1.modPwr fun p =>
        { p with sups := p.supPast ++ p.sups, dipActive := true, dipLong := false, dipRails := b, dipStart := m, dipDuration := 0
                 dipS := s.mcSpan m, dipE := none, dipStamp := stamp64 (s.stamp (s.span.vis win400 (s.mcAt m))) }
    let s3 := s2.forChans allChans fun c z => z.modChan c fun x =>
      if x.trim.running then { x with trim := x.trim.fail 9 } else x
    s3.storeStop.raise (railSrc rail) 0x01

/-- DIP_END: every rail is above its warning level from `t` on. -/
def State.dipFinish (s : State) (t : Instant) : State :=
  let s := s.at_ t
  if s.pwr.dipActive then
    let m := s.nowMc
    s.modPwr fun p => { p with
      dipActive := false, dipDuration := m - p.dipStart, dipE := some (s.mcSpan m), rails := p.rails.map fun r => { r with warn := false } }
  else s

/-- LONG: the dip is known to exceed 12,500 mc. The stale reason SUPPLY follows Table 15.6. -/
def State.dipLong_ (s : State) : State :=
  if s.pwr.dipActive && !s.pwr.dipLong then
    let s1 := (s.at_ (s.mcAt (s.pwr.dipStart + 12501))).modPwr fun p => { p with dipLong := true }
    let s2 := allRails.foldl (fun (z : State) i => if s.pwr.dipRails.getLsbD i.val then z.raise (railSrc i) 0x02 else z) s1
    if s.pwr.dipRails &&& supRails = 0 then s2
    else s2.forChans (allChans.filter s2.chOn) fun c z => z.setStale c fun t => { t with supply := true }
  else s

/-- OV: a rail rises above its over level. -/
def State.overVolt (s : State) (t : Instant) (rail : RailIx) : State :=
  let s := s.at_ t
  if s.pwr.mode = .reset then s
  else (s.modRail rail fun r => { r with overLvl := true }).raise (railSrc rail) 0x04

/-! ## Registers (Table 15.11) -/

def Mode.code : Mode → Nat
  | .reset => 0 | .load => 1 | .trim => 2 | .run => 3 | .shed => 4 | .freeze => 5

def Power.modeWord (p : Power) : Word := pack 32 [(28, p.mode.code), (24, p.prev.code)]

def Power.rstCause (p : Power) : Word :=
  pack 32 [(24, p.rstSrc.toNat), (16, p.rstRail.toNat), bitAt 4 p.rstTherm, bitAt 3 p.rstTruss, bitAt 2 p.rstSupply,
    bitAt 1 p.rstPin, bitAt 0 p.rstPor]

/-- A write to PWR.RST_CAUSE clears the bits written with 1 (Table 15.11). -/
def Power.clearCause (p : Power) (w : Word) : Power :=
  { p with rstSrc := p.rstSrc &&& ~~~ w.extractLsb' 24 8, rstRail := p.rstRail &&& ~~~ w.extractLsb' 16 3
           rstTherm := p.rstTherm && !w.getLsbD 4, rstTruss := p.rstTruss && !w.getLsbD 3
           rstSupply := p.rstSupply && !w.getLsbD 2, rstPin := p.rstPin && !w.getLsbD 1, rstPor := p.rstPor && !w.getLsbD 0 }

def Rail.word (r : Rail) : Word := pack 32 [bitAt 31 r.warn, bitAt 30 r.overLvl, (0, r.dips.toNat)]

/-- PWR.DIP at `t`. -/
def State.dipWord (s : State) (t : Instant) : Word :=
  let p := s.pwr
  let d := if p.dipActive then s.mc t - p.dipStart else p.dipDuration
  pack 32 [bitAt 31 p.dipActive, bitAt 30 p.dipLong, (24, p.dipRails.toNat), (0, satNat 24 d)]

/-! ## Meanings -/

def execPowerOn (at_ : Instant) (s : State) : Host.Outcome State Fault Refusal := .next (s.powerOn at_)
def execResetNLow (at_ : Instant) (s : State) : Host.Outcome State Fault Refusal := .next (s.resetN at_)
def execRailBelowReset (at_ : Instant) (rail : RailIx) (s : State) : Host.Outcome State Fault Refusal :=
  .next (s.railReset at_ rail)
def execResetRelease (at_ : Instant) (flash : Option Flash) (nvmv : Bool) (order : BitVec 6) (s : State) :
    Host.Outcome State Fault Refusal := .next (s.release at_ flash nvmv order)
def execDipStart (at_ : Instant) (rail : RailIx) (s : State) : Host.Outcome State Fault Refusal := .next (s.dipBegin at_ rail)
def execDipEnd (at_ : Instant) (s : State) : Host.Outcome State Fault Refusal := .next (s.dipFinish at_)
def execLong (s : State) : Host.Outcome State Fault Refusal := .next s.dipLong_
def execOv (at_ : Instant) (rail : RailIx) (s : State) : Host.Outcome State Fault Refusal := .next (s.overVolt at_ rail)

end Sys2Proof.Machine
end

