-- ==== Sys2Proof/Machine/TrussCmd.lean ====
section
/-! DEFINITION. What the truss does on its own and on command: recognition edges, escalation, trap and block actions,
ALIVE, acknowledgement, TRS.SRC_CFG, and the TST block (17_truss.md, R576 to R606). -/

namespace Sys2Proof.Machine

/-! ## Trap and block actions (R580, Table 17.4) -/

/-- The armed channels of an owner: a channel, or those of a pier. -/
def ownedChans (n : Source) : List Chan :=
  if h : n.val < 96 then [⟨n.val, h⟩]
  else if n.val < 104 then chansOf (Fin.ofNat 8 (n.val - 96))
  else []

/-- The trap action: DISARM of the owner's armed channels. -/
def State.trap (s : State) (n : Source) : State :=
  (ownedChans n).foldl (fun z c => z.disarm c (z.span.vis win400 z.now) flagDisarm) s

/-- A channel that a block action switches off and on: its record closes with PDOFF where it is still armed. -/
def State.cycleChan (s : State) (c : Chan) : State :=
  if s.chOn c then
    let s1 := s.modChan c fun x => { x with pdoffPend := true }
    let s2 := { s1 with pwr := { s1.pwr with cycle := if s1.pwr.cycle.contains c.val then s1.pwr.cycle else s1.pwr.cycle ++ [c.val] } }
    (s2.disarm c (s2.span.vis win400 s2.now) flagPdoff).requestOff c
  else s

/-- The block action of a pier: its powered channel domains, then its own, off; then on in the opposite order (R48). -/
def State.cyclePier (s : State) (k : Pier) : State :=
  if s.pierOn k then
    let s1 := { s with pwr := { s.pwr with cycle := if s.pwr.cycle.contains (96 + k.val) then s.pwr.cycle else s.pwr.cycle ++ [96 + k.val] } }
    ((chansOf k).foldl State.cycleChan s1).pierOffCheck k
  else s

/-- The block action of the owner of source `n`. -/
def State.block (s : State) (n : Source) : State :=
  if h : n.val < 96 then s.cycleChan ⟨n.val, h⟩
  else if n.val < 104 then s.cyclePier (Fin.ofNat 8 (n.val - 96))
  else if 154 ≤ n.val ∧ n.val ≤ 161 then s.hopFull (Fin.ofNat 8 (n.val - 154))
  else if 162 ≤ n.val ∧ n.val ≤ 163 then s.relock (Fin.ofNat 10 (n.val - 154)) 0x40
  else if 204 ≤ n.val ∧ n.val ≤ 209 then s.linkLost.endpointReset
  else s

/-- The mc edge of the next action of a source. -/
def SrcSt.actionAt (x : SrcSt) : Option Nat :=
  match x.trapDue, x.blockDue with
  | some a, some b => some (min a b)
  | some a, none => some a
  | none, b => b

/-- TRAP_ACTION: what is due at the next action edge of the source; the trap action acts first. -/
def State.trapAction (s : State) (n : Source) : State :=
  let x := s.src n
  match x.actionAt with
  | none => s
  | some m =>
    let doTrap := x.trapDue == some m
    let doBlock := x.blockDue == some m
    let s1 := (s.at_ (s.mcAt m)).setSrc n { x with
      trapDue := if doTrap then none else x.trapDue, blockDue := if doBlock then none else x.blockDue }
    let s2 := if doTrap then s1.trap n else s1
    if doBlock then s2.block n else s2

/-! ## ALIVE (R590, R591) -/

/-- The next toggle of ALIVE; none falls at or after the edge from which a PIN reaction holds it. -/
def Truss.toggle (t : Truss) : Truss :=
  match t.aliveNext with
  | none => t
  | some m =>
    if t.aliveStopAt.any (· ≤ m) then { t with aliveNext := none }
    else { t with alive := !t.alive, aliveNext := some (m + t.alivePeriod.toNat * 1250) }

def State.aliveToggle (s : State) : State :=
  match s.truss.aliveNext with
  | none => s
  | some m => { s.at_ (s.mcAt m) with truss := s.truss.toggle }

/-- TRS.ALIVE_STAT. -/
def Truss.aliveStat (t : Truss) : Word :=
  pack 32 [bitAt 31 t.aliveStopped, (8, t.aliveSrc.toNat), bitAt 0 (t.aliveStopped && t.alive)]

/-- A write of TRS.ALIVE_CFG; one outside 1 to 1,000 is discarded. -/
def State.writeAlive (s : State) (w : Word) : State :=
  let p := fld w 0 10
  if 1 ≤ p ∧ p ≤ 1000 then { s with truss := { s.truss with alivePeriod := BitVec.ofNat 10 p } } else s

/-! ## Acknowledgement, configuration, status (R583, R585, Tables 17.10, 17.11) -/

/-- Acknowledge a source that is pending. -/
def State.ackPend (m : Nat) (s : State) (n : Source) : State := if (s.src n).pend then s.ackSrc n m else s

/-- A write of TRS.ACK at `now`. -/
def State.writeAck (s : State) (w : Word) : State :=
  if w.getLsbD 31 then (List.finRange 256).foldl (State.ackPend s.nowMc) s
  else s.ackPend s.nowMc (Fin.ofNat 256 (fld w 0 8))

/-- A write of TRS.SRC_CFG[n]; a REACT of 6 or 7 is discarded, and bit 28 takes no write. -/
def State.writeSrcCfg (s : State) (n : Source) (w : Word) : State :=
  let x := s.src n
  let v := putFld w 28 1 0
  s.setSrc n { x with cfg := if 6 ≤ fld w 29 3 then putFld v 29 3 x.react else v }

/-- The causes that are levels of a source and hold now (R576, Tables 17.2, 18.3). -/
def State.levels (s : State) (n : Source) : Byte :=
  if h : n.val < 96 then
    let x := s.chan ⟨n.val, h⟩
    pack 8 [bitAt 0 (x.laneH.loss.isSome || x.laneL.loss.isSome), bitAt 4 x.held, bitAt 7 x.trim.stale]
  else if 164 ≤ n.val ∧ n.val ≤ 181 then
    let x := s.sens (Fin.ofNat 18 (n.val - 164))
    pack 8 [bitAt 0 x.warn, bitAt 2 x.broken]
  else if n.val = 182 then pack 8 [bitAt 0 s.thm.req.isSome, bitAt 5 s.fallbackNow, bitAt 6 (s.thm.evaluated && s.noSensor)]
  else 0

/-- LIVE of a source at `t`: its levels, but for one whose recognition edge is to come, and the causes of one mc. -/
def State.live (s : State) (n : Source) (t : Instant) : Byte :=
  let x := s.src n
  let m := s.mc t
  let coming := (s.truss.incoming.filter fun r => r.src == n && m < r.mc).foldl (fun a r => a ||| r.causes) 0
  (s.levels n &&& ~~~ coming) ||| (if x.pulseMc = m then x.pulse else 0)

/-- TRS.SRC_STAT[n] at `t`. -/
def State.srcStat (s : State) (n : Source) (t : Instant) : Word :=
  let x := s.src n
  pack 32 [bitAt 31 x.pend, (28, x.level.toNat), bitAt 17 x.lreal, bitAt 16 x.linj, (8, (s.live n t).toNat), (0, x.latch.toNat)]

/-- A write of TRS.SRC_STAT[n] clears what is written with 1. -/
def State.writeSrcStat (s : State) (n : Source) (w : Word) : State :=
  let x := s.src n
  s.setSrc n { x with lreal := x.lreal && !w.getLsbD 17, linj := x.linj && !w.getLsbD 16
                      latch := x.latch &&& ~~~ w.extractLsb' 0 8 }

/-- TRS.PEND[w] and TRS.LATCHED[w]. -/
def Truss.bits (t : Truss) (f : SrcSt → Bool) (w : Nat) : Word :=
  pack 32 ((List.range 32).map fun b => bitAt b (match t.srcs[32 * w + b]? with | some x => f x | none => false))

/-- TRS.HIST_STAT, and the 128 bits of an entry (Table 17.9). -/
def Truss.histStat (t : Truss) : Word := pack 32 [(8, t.histLost.toNat), (0, t.hist.length)]
def Hist.word (h : Hist) : Qword :=
  pack 128 [(64, h.span.toNat), (32, h.mclk.toNat), (24, h.source.toNat), (16, h.cause.toNat), (8, h.merge.toNat),
    bitAt 7 h.inj, bitAt 6 h.real, (3, h.react.toNat)]
def Truss.histEntry (t : Truss) : Qword :=
  match t.hist[t.histSel.toNat]? with
  | some h => h.word
  | none => 0

/-! ## The TST block (R592 to R599, Table 17.12) -/

def State.modTst (s : State) (f : Tst → Tst) : State := { s with tst := f s.tst }

/-- The cycle count of a stall target: dc of a writer, vc of a vault port. -/
def State.stallCycle (s : State) (k : Nat) (t : Instant) : Nat :=
  if k < 8 then s.dc (s.clocks.deck.next t) else s.vc (s.clocks.vault.next t)
def State.stallInstant (s : State) (k n : Nat) : Instant := if k < 8 then s.dcAt n else s.vcAt n

/-- A stall pulse begins in cycle `n`; a stall of a writer's intake raises WSTALL. -/
def State.pulseBegin (s : State) (n : Nat) : State :=
  let s1 := s.modTst fun t => { t with stalling := true, stallNext := n + t.stallLen.toNat }
  if s.tst.stallTarget.toNat < 8 then s1.raise 136 0x01 else s1

/-- A stall that is enabled begins with the next cycle of its target. -/
def State.stallStart (s : State) : State :=
  if s.tst.on && s.tst.stallEn && s.tst.stallLen != 0 && !s.tst.stalling then
    s.pulseBegin (s.stallCycle s.tst.stallTarget.toNat s.now)
  else s

/-- STALL_PULSE: the next edge of the pulses: one ends, or the next begins. A period not above LEN stalls on. -/
def State.stallPulse (s : State) : State :=
  let t := s.tst
  if t.on && t.stallEn && t.stallLen != 0 then
    let n := t.stallNext
    let s1 := s.at_ (s.stallInstant t.stallTarget.toNat n)
    if !t.stalling then s1.pulseBegin n
    else if t.stallPer = 0 then s1.modTst fun x => { x with stalling := false, stallEn := false }
    else if t.stallPer.toNat ≤ t.stallLen.toNat then s1.modTst fun x => { x with stallNext := n + t.stallLen.toNat }
    else s1.modTst fun x => { x with stalling := false, stallNext := n + (t.stallPer.toNat - t.stallLen.toNat) }
  else s

/-- Every facility ends (R594). -/
def Tst.endAll (t : Tst) : Tst := { t with on := false, stalling := false, eccArm := false }

/-- A write of TST.CTL: ON set raises TST_ON, ON cleared ends every facility and raises TST_OFF. -/
def State.writeTstCtl (s : State) (w : Word) : State :=
  let on := w.getLsbD 31
  let s1 := s.modTst fun t => { t with creact := w.getLsbD 0 }
  if on && !s.tst.on then ((s1.modTst fun t => { t with on := true }).raiseM 240 0x01).stallStart
  else if !on && s.tst.on then (s1.modTst Tst.endAll).raiseM 240 0x02
  else s1

/-- A life-cycle change that closes the block ends every facility (R594). -/
def State.tstClose (s : State) : State :=
  if s.tst.on && !s.lcy.tstOpen then (s.modTst Tst.endAll).raiseM 240 0x02 else s

/-- A timebase loop whose fault cause is asserted fails under R125, and its other causes are the assertion's. -/
def State.assertLoop (s : State) (loopB : Bool) : State :=
  if s.tb.st = .off then s
  else if s.tb.active = loopB then
    if s.tb.sbyOk then s.modTb fun tb => { tb with switchDue := tb.switchDue <|> some (loopB, s.now) }
    else if s.tb.engaged then s.declareLoss s.lastEdge
    else s
  else if s.tb.sbyEn then s.modTb fun tb => { tb with sbyOk := false }
  else s

/-- A write of TST.ASSERT at `now` (R595, R596). -/
def State.writeAssert (s : State) (w : Word) : State :=
  let n : Source := Fin.ofNat 256 (fld w 8 8)
  let causes : Byte := w.extractLsb' 0 8
  if s.tst.on && causes != 0 then
    let s1 := s.recog { mc := s.nowMc, src := n, causes := causes, real := false, inj := true, contain := w.getLsbD 31 }
    if n.val = 153 then
      let s2 := if causes.getLsbD 1 then s1.assertLoop false else s1
      if causes.getLsbD 2 then s2.assertLoop true else s2
    else s1
  else s

/-- A write of TST.ECC_INJ (R598): it acts only while ON = 1. -/
def State.writeEccInj (s : State) (w : Word) : State :=
  s.modTst fun t => { t with eccArm := w.getLsbD 31, eccMode := w.extractLsb' 28 2, eccPort := w.extractLsb' 24 4
                             eccB := w.extractLsb' 0 8 }

/-- A write of TST.STALL: EN starts a pulse. -/
def State.writeStall (s : State) (w : Word) : State :=
  (s.modTst fun t => { t with stallEn := w.getLsbD 31, stallTarget := w.extractLsb' 16 5, stallLen := w.extractLsb' 0 16
                              stalling := false }).stallStart

/-- A TST access that the life-cycle state refuses (R592). -/
def State.tstDenied (s : State) : State := s.raiseM 240 0x04

/-- What the host writes to the TST block, where its state opens it. -/
def State.inTst (s : State) (f : State → State) : State := if s.lcy.tstOpen then f s else s.tstDenied

/-! ## Meanings -/

/-- A soft error strikes: the chunk buffer and the core's memory report it, an uncorrectable word of the buffer going on as
it is read; IMEM and DMEM keep it until the engine reads the word (R192, Table 17.2). -/
def State.strike (s : State) : Upset → State
  | .chunkBuffer k pos flips unc =>
    let ws := s.writers[k]
    if ws.length ≤ pos then s
    else
      { s with writers := s.writers.set k (if unc then ws.modify pos fun w => { w with word := w.word ^^^ flips } else ws) }.raise
        (pierSrc k) (if unc then 0x02 else 0x01)
  | .coreMemory unc => s.raise 233 (if unc then 0x04 else 0x02)
  | .imem c a unc => if s.chOn c then s.modChan c fun x => x.modEng fun e => { e with
      imemErr := (a.toNat, unc) :: e.imemErr.filter fun p => p.1 != a.toNat } else s
  | .dmem c a unc => if s.chOn c then s.modChan c fun x => x.modEng fun e => { e with
      dmemErr := (a.toNat, unc) :: e.dmemErr.filter fun p => p.1 != a.toNat } else s

/-- TRUSS_EVENT: the next recognition edge, or a soft error at an instant. -/
def State.trussEvent (s : State) : Option (Instant × Upset) → State
  | none => s.recognise
  | some (t, u) => (s.at_ t).strike u

def execTrussEvent (s : State) (upset : Option (Instant × Upset) := none) : Host.Outcome State Fault Refusal :=
  .next (s.trussEvent upset)
def execEscalation (n : Source) (s : State) : Host.Outcome State Fault Refusal := .next (s.escalation n)
def execTrapAction (n : Source) (s : State) : Host.Outcome State Fault Refusal := .next (s.trapAction n)
def execAliveToggle (s : State) : Host.Outcome State Fault Refusal := .next s.aliveToggle
def execStallPulse (s : State) : Host.Outcome State Fault Refusal := .next s.stallPulse

/-- FIRMWARE_WATCHDOG_EXPIRY: cause WDOG of source 233 (Table 17.2). -/
def execFirmwareWatchdogExpiry (at_ : Instant) (s : State) : Host.Outcome State Fault Refusal :=
  .next ((s.at_ at_).raise 233 0x01)

end Sys2Proof.Machine
end

