-- ==== Sys2Proof/Machine/Mailbox.lean ====
section
/-! DEFINITION. The command mailbox (16_management_port.md, R549 to R564): issue, checks, the commands and their completion. -/

namespace Sys2Proof.Machine

/-! ## Codes (Table 16.2) and opcodes (Table 16.3) -/

def codeDenied : Byte := 0x04
def codeDomOff : Byte := 0x05
def codeClamped : Byte := 0x08
def codeBadCmd : Byte := 0x10
def codeBadArg : Byte := 0x11
def codeMode : Byte := 0x12
def codeUnbound : Byte := 0x13
def codeNoForme : Byte := 0x14
def codeFolio : Byte := 0x16
def codeArmed : Byte := 0x17
def codePending : Byte := 0x18
def codeTimebase : Byte := 0x19
def codeWhen : Byte := 0x1A
def codeSpare : Byte := 0x1B
def codeSupply : Byte := 0x1C
def codeFrozen : Byte := 0x1D
def codeUe : Byte := 0x1E
def codeInTrim : Byte := 0x1F
def codeNoPlace : Byte := 0x20
def codeShedCh : Byte := 0x21
def codeHot : Byte := 0x22

def opNop : Nat := 0x00
def opReadTime : Nat := 0x01
def opSelectForme : Nat := 0x10
def opArm : Nat := 0x11
def opDisarm : Nat := 0x12
def opSetPost : Nat := 0x13
def opRelease : Nat := 0x14
def opRemap : Nat := 0x15
def opCalibrate : Nat := 0x20
def opStoreCal : Nat := 0x21
def opThrottleAck : Nat := 0x30
def opShedExit : Nat := 0x31
def opLifecycle : Nat := 0x40
def opDiagRead : Nat := 0x50
def opDiagWrite : Nat := 0x51

/-! ## Commands -/

namespace Command

def word (c : Cmd) (i : Nat) : Word := c.arg.getD i 0
def op (c : Cmd) : Nat := c.opc.toNat
def subop (c : Cmd) : Nat := fld (word c 0) 0 4
def target (c : Cmd) : BitVec 4 := (word c 0).extractLsb' 8 4
/-- The channel mask of ARG[0] to ARG[2]. -/
def mask (c : Cmd) : BitVec 96 := (word c 2 ++ (word c 1 ++ word c 0 : BitVec (32 + 32)) : BitVec (32 + (32 + 32)))
def chans (c : Cmd) : List Chan := allChans.filter fun n => (mask c).getLsbD n.val
/-- ARG[1] and ARG[2] as one value. -/
def when_ (c : Cmd) : Dword := (word c 2 ++ word c 1 : BitVec (32 + 32))
/-- First galley word and count of a DIAG command. -/
def first (c : Cmd) : Nat := fld (word c 0) 0 30
def count (c : Cmd) : Nat := fld (word c 1) 0 4 + 1
def isDiag (c : Cmd) : Bool := op c == opDiagRead || op c == opDiagWrite

/-- mc from issue to completion (Table 16.3). An undefined opcode, or SUBOP, has no row: 32 and 64 mc
(notes/assumptions/12.md). -/
def latency (c : Cmd) : Nat :=
  let o := op c
  if o = opReadTime ∨ o = opThrottleAck then 64
  else if o = opSelectForme then 4096
  else if o = opArm ∨ o = opDisarm ∨ o = opRemap then 512
  else if o = opSetPost ∨ o = opRelease ∨ o = opCalibrate ∨ o = opStoreCal ∨ o = opShedExit ∨ o = opDiagRead ∨ o = opDiagWrite then 256
  else if o = opLifecycle then
    match subop c with
    | 1 => 2048
    | 2 => 250000
    | 3 => 500000
    | 4 => 250000
    | _ => 64
  else 32

/-- Opcodes of Table 16.3. -/
def known (c : Cmd) : Bool :=
  [opNop, opReadTime, opSelectForme, opArm, opDisarm, opSetPost, opRelease, opRemap, opCalibrate, opStoreCal, opThrottleAck,
    opShedExit, opLifecycle, opDiagRead, opDiagWrite].contains (op c)

/-- The argument bits that Table 16.4 names. -/
def named (c : Cmd) : List Word :=
  let o := op c
  if o = opSelectForme then [0x3F]
  else if o = opArm ∨ o = opDisarm then [0xFFFFFFFF, 0xFFFFFFFF, 0xFFFFFFFF]
  else if o = opSetPost then [0x7F, 0x3FFFFFFF]
  else if o = opRelease then [0xFFFF]
  else if o = opRemap then [if (word c 0).getLsbD 0 then 0x7F7F0003 else 0xFF03, 0xFFFFFFFF, 0xFFFFFFFF]
  else if o = opCalibrate then [0xFFFFFFFF, 0xFFFFFFFF, 0xFFFFFFFF, 0x80000003]
  else if o = opLifecycle then [if subop c = 3 then 0xF0F else 0xF]
  else if isDiag c then [0x3FFFFFFF, 0xF]
  else []

/-- A reserved argument bit is set, or a value is out of range (R551 step 2). -/
def badArg (c : Cmd) : Bool :=
  let o := op c
  (List.range 8).any (fun i => word c i &&& ~~~ (named c).getD i 0 != 0)
    || ((o == opArm || o == opDisarm) && mask c == 0)
    || (o == opSetPost && 96 ≤ fld (word c 0) 0 7)
    || (o == opRemap && (word c 0).getLsbD 0 && (96 ≤ fld (word c 0) 16 7 || 96 ≤ fld (word c 0) 24 7))
    || (o == opCalibrate && fld (word c 3) 0 2 == 0)
    || (o == opLifecycle && (4 < subop c || (subop c == 3 && !([1, 2, 3, 4, 8] : List (BitVec 4)).contains (target c))))
    || (isDiag c && 2 ^ 30 < first c + count c)

/-- The modes of Table 16.3. -/
def permitted (c : Cmd) (m : Mode) : Bool :=
  let o := op c
  if o = opNop ∨ o = opReadTime ∨ o = opThrottleAck ∨ o = opLifecycle then m != .reset
  else if o = opStoreCal then m == .run || m == .shed || m == .freeze
  else if o = opShedExit then m == .shed
  else m == .run || m == .shed

/-- The bits of RESP that Table 16.4 names. -/
def respNamed (c : Cmd) : List Word :=
  let o := op c
  if o = opReadTime then [0xFFFFFFFF, 0xFFFFFFFF, 0xFFFFFFFF]
  else if o = opSelectForme then [0x7FF]
  else if o = opArm ∨ o = opDisarm then [0xFFFFFFFF, 0xFFFFFFFF, 0x7F, 0x7F]
  else if o = opSetPost then [0x3FFFFFFF]
  else if o = opRelease then [0x1FF]
  else if o = opRemap then [0xFFFFFFFF, 0xFFFFFFFF]
  else if o = opCalibrate then [0xFFFFFFFF, 0xFFFFFFFF, 0xFFFFFFFF]
  else if o = opStoreCal then [0x3, 0xFFFFFFFF]
  else if o = opThrottleAck then [0x1]
  else if o = opLifecycle then [0xF]
  else []

/-- Word i of MSP.BUF as latched. -/
def bufWord (c : Cmd) (i : Nat) : Word := c.buf.getD i 0
/-- Octets i to i + k - 1 of the latched buffer. -/
def bufOctets (c : Cmd) (i k : Nat) : List Byte := ((List.range 64).flatMap fun j => octetsLE (bufWord c j)).drop i |>.take k
/-- The galley word that a DIAG_WRITE writes at position i. -/
def data (c : Cmd) (i : Nat) : Qword :=
  (bufWord c (4 * i + 3) ++ (bufWord c (4 * i + 2) ++ (bufWord c (4 * i + 1) ++ bufWord c (4 * i) : BitVec (32 + 32)) : BitVec (32 + (32 + 32))) : BitVec (32 + (32 + (32 + 32))))

end Command

/-! ## Outcome -/

/-- What a command answers: CODE, RESP, and the words of MSP.BUF it writes. -/
abbrev Answer := Byte × List Word × List Word

def State.modMsp (s : State) (f : Msp → Msp) : State := { s with msp := f s.msp }
def State.modCmd (s : State) (f : Cmd → Cmd) : State := s.modMsp fun m => { m with cmd := m.cmd.map f }

/-- A response of which the spec states no value: free in the named bits (notes/assumptions/9.md). -/
def State.freeResp (s : State) (c : Cmd) : List Word :=
  (Command.respNamed c).mapIdx fun i w => w &&& wordLE ((List.range 4).map fun j => Config.freeByte (32 * s.free + 4 * i + j))

/-- A command that fails with nothing stated of its response. -/
def State.failed (s : State) (c : Cmd) (code : Byte) : State × Answer := (s.drawn, (code, s.freeResp c, []))

/-- A stamp as two response words. -/
def stampResp (i : Int) : List Word := [lo32 (stamp64 i), hi32 (stamp64 i)]

/-- Words first, as many as given; the rest stays. -/
def overlay {n : Nat} (v : Vector Word n) (ws : List Word) : Vector Word n := v.mapFinIdx fun i x _ => ws.getD i x

/-- The command completes: one write of RESP, BUF, CODE, BUSY and DONE, and its causes (R550). -/
def State.finish (s : State) (a : Answer) : State :=
  (s.modMsp fun m => { m with
    busy := false, done := true, code := a.1, resp := overlay (Vector.replicate 8 0) a.2.1, buf := overlay m.buf a.2.2
    cmd := none }).raiseM 232 (if 0x10 ≤ a.1.toNat then 0x18 else 0x08)

/-! ## The commands (R556 to R564) -/

/-- The SPAN visibility edge of `now`: arm, disarm and acceptance instants. -/
def State.window (s : State) : Instant := s.span.vis win400 s.now

/-- Why ARM fails on a channel (R556); one whose reload after its switch-on still runs cannot be armed either (R49,
notes/assumptions/53.md). -/
def State.armFails (s : State) (c : Chan) : Option Byte :=
  let x := s.chan c
  let taken := if x.rcd.isOpen then some (x.rcd.base, x.rcd.r) else none
  if s.nvm.noForme then some codeNoForme
  else if !s.chOn c || x.eng.fresh then some codeDomOff
  else if s.pwr.mode == .shed && s.thm.shed.getLsbD c.val then some codeShedCh
  else if x.trim.running then some codeInTrim
  else if !s.bound c then some codeUnbound
  else if !x.armed && (s.placeFor c x.cfg taken).isNone then some codeNoPlace
  else none

def State.cmdArm (s : State) (l : List Chan) : State × Answer :=
  let t := s.window
  let already := l.countP fun c => (s.chan c).armed
  match l.findSome? fun c => (s.armFails c).map fun e => (c, e) with
  | some (c, e) =>
    let f := s.freeResp { opc := 0x11, arg := [], buf := [], issue := 0, reqAtIssue := false, coolAtIssue := false, outcome := none, doneAt := none, left := [], got := [], bad := none }
    (s.drawn, (e, f.take 2 ++ [BitVec.ofNat 32 c.val, BitVec.ofNat 32 already], []))
  | none =>
    (l.foldl (fun z c => if (z.chan c).armed then z else z.armAtInstant c t) s,
      (0, stampResp (s.stamp t) ++ [0x7F, BitVec.ofNat 32 already], []))

def State.cmdDisarm (s : State) (l : List Chan) : State × Answer :=
  let t := s.window
  let already := l.countP fun c => !(s.chan c).armed
  (l.foldl (fun z c => if (z.chan c).armed then z.disarm c t flagDisarm else z.modChan c Channel.cancelHeld) s,
    (0, stampResp (s.stamp t) ++ [0x7F, BitVec.ofNat 32 already], []))

/-- The largest count of the channel's circular region, R - 1. -/
def postLimit (g : ChanCfg) : Nat := circRing g - 1

def State.cmdSetPost (s : State) (c : Chan) (n : Nat) : State × Answer :=
  let lim := postLimit (s.chan c).cfg
  if !s.chOn c then (s, (codeDomOff, [BitVec.ofNat 32 (min (circPost (s.chan c).cfg) lim)], []))
  else
    ((s.modChan c fun x => { x with stagedPost := some (BitVec.ofNat 30 n), postLate := x.stagedForme.isSome }).settleIdle c,
      (if lim < n then codeClamped else 0, [BitVec.ofNat 32 (min n lim)], []))

/-- A delivery of the folio is in progress. -/
def State.delivering (s : State) (f : Nat) : Bool := allRings.any fun r => (s.ring r).delivery.any fun d => d.folio == f

/-- RELEASE: a folio whose delivery has begun is given up at the next 4 KiB boundary, any other is freed (R307, R341). -/
def State.cmdRelease (s : State) (f : Nat) : State × Answer :=
  let e := s.folio f
  let resp : List Word := [pack 32 [(2, e.ch.toNat), (0, e.st.toNat)]]
  match s.closedRecOf f with
  | some r =>
    if e.st = 2 ∨ e.st = 3 then
      if s.delivering f then (s.askAbandon r.ring, (0, resp, [])) else (s.freeRecord f s.now, (0, resp, []))
    else (s, (codeFolio, resp, []))
  | none => (s, (codeFolio, resp, []))

/-- The conditions of R369 and R370, in the order of R560. -/
def State.remapFails (s : State) (c : Cmd) : Byte :=
  let d := (Command.when_ c - stamp64 (s.stamp s.window)).toNat
  let w := Command.word c 0
  if s.place.pend.any (·.isRemap) then codePending
  else if Command.when_ c != 0 && (d < 8192 * 2048 || 2 ^ 43 < d) then codeWhen
  else if !(s.tb.st == .locked || s.tb.st == .slew) then codeTimebase
  else if w.getLsbD 0 && !s.substOk (fld w 16 7) (fld w 24 7) then codeSpare
  else 0

def State.cmdRemap (s : State) (c : Cmd) : State × Answer :=
  let t := s.window
  let w := Command.word c 0
  let code := s.remapFails c
  let f : FencePend :=
    { isRemap := true, subst := w.getLsbD 0, armB := w.getLsbD 1, step := w.extractLsb' 8 8, a := fld w 16 7, b := fld w 24 7
      when_ := Command.when_ c, from_ := s.gridFrom (lsbUp (t + remapLead)) }
  (if code = 0 then { s with place := { s.place with pend := s.place.pend ++ [f] } } else s, (code, stampResp (s.stamp t), []))

/-- Why CALIBRATE refuses a channel (R561). -/
def State.calRefuses (s : State) (c : Chan) : Option Byte :=
  if (s.chan c).trim.running then some codeInTrim else if !s.chOn c then some codeDomOff else none

def State.cmdCalibrate (s : State) (c : Cmd) : State × Answer :=
  let w := Command.word c 3
  let l := if w.getLsbD 31 then allChans.filter s.chOn else Command.chans c
  let bad := l.filter fun n => (s.calRefuses n).isSome
  let m : BitVec 96 := pack 96 (bad.map fun n => bitAt n.val true)
  ((l.filter fun n => (s.calRefuses n).isNone).foldl (fun z n => z.calibrate n (w.getLsbD 0) (w.getLsbD 1)) s,
    ((bad.findSome? s.calRefuses).getD 0, (List.range 3).map fun i => m.extractLsb' (32 * i) 32, []))

def State.cmdStoreCal (s : State) (c : Cmd) : State × Answer :=
  if s.nvm.store.isSome then s.failed c codePending
  else if s.pwr.dipActive then s.failed c codeSupply
  else (s.storeStart, (0, [(s.nvm.nextSlot.1).setWidth 32, s.nvm.nextSlot.2], []))

/-- LIFECYCLE at its completion edge. An ADVANCE to RETURN that completes, whatever its code, ends MTOK (R638). -/
def State.cmdLifecycle (s : State) (c : Cmd) : State × Answer :=
  let sub := Command.subop c
  let last := fun (z : State) (why : BitVec 4) => z.modLcy fun l => { l with last := BitVec.ofNat 4 sub, why := why }
  let resp := fun (z : State) => [z.lcy.shown.setWidth 32]
  if sub = 0 then
    let z := last s 0
    (z, (0, resp z, []))
  else if sub = 1 then
    let p := s.challenge
    let z := last p.1 0
    (z, (0, resp z, p.2))
  else if sub = 3 then
    let why := s.lcy.why
    let z := ((last s why).advanceDone.modLcy fun l => { l with mtok := l.mtok && Command.target c != 4 }).tstClose
    (z, (if why = 0 then 0 else if why = whySupply then codeSupply else codeDenied, resp z, []))
  else
    let p := s.respond (sub == 4) (ofOctets 512 (Command.bufOctets c 0 64)) (ofOctets 512 (Command.bufOctets c 64 64))
    let z := last p.1 p.2
    (z, (if p.2 = 0 then 0 else codeDenied, resp z, []))

/-- The effect of a command that has passed the checks of R551, at its completion edge. -/
def State.act (s : State) (c : Cmd) : State × Answer :=
  let o := Command.op c
  if o = opReadTime then (s, (0, stampResp (s.stamp s.window) ++ [s.tb.stat s.window], []))
  else if o = opSelectForme then
    let r := s.selectForme (fld (Command.word c 0) 0 6)
    (r.1, (r.2.1, [r.2.2], []))
  else if o = opArm then s.cmdArm (Command.chans c)
  else if o = opDisarm then s.cmdDisarm (Command.chans c)
  else if o = opSetPost then s.cmdSetPost (Fin.ofNat 96 (fld (Command.word c 0) 0 7)) (fld (Command.word c 1) 0 30)
  else if o = opRelease then s.cmdRelease (fld (Command.word c 0) 0 16)
  else if o = opRemap then s.cmdRemap c
  else if o = opCalibrate then s.cmdCalibrate c
  else if o = opStoreCal then s.cmdStoreCal c
  else if o = opThrottleAck then (s, (0, [BitVec.ofNat 32 (bit c.reqAtIssue)], []))
  else if o = opShedExit then if c.coolAtIssue then (s.exitShed, (0, [], [])) else (s, (codeHot, [], []))
  else if o = opLifecycle then s.cmdLifecycle c
  else (s, (0, [], []))

/-- The checks of R551, then the command. -/
def State.run (s : State) (c : Cmd) : State × Answer :=
  if !Command.known c then s.failed c codeBadCmd
  else if Command.badArg c then s.failed c codeBadArg
  else if !Command.permitted c s.pwr.mode then s.failed c codeMode
  else s.act c

/-! ## DIAG_READ and DIAG_WRITE (R564) -/

/-- Why a DIAG command does not start. -/
def State.diagFails (s : State) (c : Cmd) : Byte :=
  if Command.badArg c then codeBadArg
  else if !Command.permitted c s.pwr.mode then codeMode
  else if Command.op c = opDiagWrite && s.anyArmed then codeArmed
  else if s.frozen then codeFrozen
  else if s.vlt.st == .off || s.vlt.st == .train || s.vlt.st == .init then codeMode
  else 0

/-- One request of port DG. -/
def State.diagRequest (s : State) (v : Nat) (c : Cmd) (i : Nat) : State :=
  let g := Command.first c + i
  let id := s.vlt.nextId
  let kind := if Command.op c = opDiagWrite then ReqKind.codewordWrite else .codewordRead
  let s1 := s.modCmd fun c => { c with left := c.left ++ [id] }
  s1.submit v 13 kind (g / 2) [(g % 2 == 1, Command.data c i)] false

/-- The requests of a DIAG command, in ascending order. -/
def State.diagStart (s : State) (c : Cmd) : State :=
  (List.range (Command.count c)).foldl (fun z i => z.diagRequest (s.vc (s.clocks.vault.next s.now)) c i) s

/-- The words of MSP.BUF that a list of galley words makes. -/
def qwordsBuf (l : List Qword) : List Word := l.flatMap fun w => (List.range 4).map fun k => w.extractLsb' (32 * k) 32

/-- What a DIAG command that has ended answers. -/
def State.diagAnswer (s : State) (c : Cmd) : Answer :=
  let words := (List.range (Command.count c)).map fun i =>
    let g := Command.first c + i
    ((c.got.find? fun p => p.1 == g).map (·.2)).getD (s.galley g)
  match c.bad with
  | some g => (codeUe, [], overlayZero (qwordsBuf (words.take (g - Command.first c))))
  | none =>
    if s.frozen then (codeFrozen, [], [])
    else (0, [], if Command.op c = opDiagRead then qwordsBuf words else [])
where
  /-- Zero from the failing word onward. -/
  overlayZero (l : List Word) : List Word := l ++ List.replicate (64 - l.length) 0

/-! ## Issue and completion (R549 to R551) -/

/-- A command as latched at the issue edge. -/
def State.latch (s : State) (opc : Byte) (m : Nat) : Cmd :=
  { opc := opc, arg := s.msp.arg.toList, buf := s.msp.buf.toList, issue := m, reqAtIssue := s.thm.req.isSome
    coolAtIssue := s.mayExitShed, outcome := none, doneAt := none, left := [], got := [], bad := none }

/-- What acts at the issue edge itself: THROTTLE_ACK (R617), the fuse words of an ADVANCE (R640), and the requests of
DIAG commands. -/
def State.issueActs (s : State) (c : Cmd) : State :=
  let o := Command.op c
  if o = opThrottleAck then s.throttleAck c.issue
  else if o = opLifecycle && Command.subop c == 3 then
    s.advanceStart c.issue (Command.target c) (ofOctets 512 (Command.bufOctets c 0 64)) (ofOctets 256 (Command.bufOctets c 64 32))
  else s

/-- A write of OPC and TAG to MSP.CMD at `now` (R549). -/
def State.issueCmd (s : State) (opc tag : Byte) : State :=
  let m := s.nowMc
  let s0 := s.at_ (s.mcAt m)
  let c := s0.latch opc m
  let s1 := s0.modMsp fun x => { x with busy := true, done := false, tag := tag, opc := opc, cmd := some c }
  if !s.msp.fwup then s1.modCmd fun c => { c with outcome := some (codeMode, s1.freeResp c, none), doneAt := some (m + 32) }
  else if Command.isDiag c then
    let e := s1.diagFails c
    if e = 0 then s1.diagStart c else s1.modCmd fun c => { c with outcome := some (e, [], none), doneAt := some (m + 256) }
  else
    let s2 := s1.modCmd fun x => { x with doneAt := some (m + Command.latency c) }
    if Command.badArg c then s2 else s2.issueActs c

/-- The RELEASE that runs waits for the write-back of R341. -/
def State.releasing (s : State) (c : Cmd) : Bool := Command.op c == opRelease && s.delivering (fld (Command.word c 0) 0 16)

/-- Fuse words of an ADVANCE are still to come before its completion edge. -/
def State.fusing (s : State) (c : Cmd) : Bool :=
  Command.op c == opLifecycle && Command.subop c == 3 && s.lcy.seq.any (·.byAdvance)

/-- A command with a fixed completion edge `m`: its answer, and the effects up to it. -/
def State.completeAt (s : State) (c : Cmd) (m : Nat) : State :=
  let s1 := s.at_ (s.mcAt m)
  match c.outcome with
  | some (code, resp, buf) => if s.releasing c then s else s1.finish (code, resp, buf.getD [])
  | none =>
    let r := s1.run c
    if r.1.releasing c && r.2.1 == 0 then r.1.modCmd fun c => { c with outcome := some (r.2.1, r.2.2.1, none) }
    else r.1.finish r.2

/-- COMMAND_COMPLETE: the command in progress reaches its completion edge. -/
def State.commandComplete (s : State) : State :=
  match s.msp.cmd with
  | none => s
  | some c =>
    match c.doneAt with
    | some m => if s.fusing c then s else s.completeAt c m
    | none =>
      if c.left.isEmpty || s.frozen then
        let s1 := s.at_ (s.mcAt s.nowMc)
        s1.finish (s1.diagAnswer c)
      else s

/-! ## The host's way in (R547, R549) -/

/-- The port serves frames: not in RESET, nor once a thermal shutdown has stopped the device (R548, R624). -/
def State.served (s : State) : Bool := s.pwr.mode != .reset && s.thm.shutdown.isNone

/-- The status of a finished frame (R571, R573). -/
def State.frameStatus (s : State) (st : Byte) : State :=
  let s1 := s.modMsp fun m => { m with
    last := st, errBusy := if st = 6 then satAdd m.errBusy 1 else m.errBusy, errCrc := if st = 1 then satAdd m.errCrc 1 else m.errCrc }
  if st = 6 then s1.raiseM 232 0x04 else if st = 1 then s1.raiseM 232 0x01 else s1

/-- A command row: the host writes ARG (zero where Table 16.4 names nothing), BUF where the command reads it, and MSP.CMD,
at `t`. While a command is in progress the writes are discarded with BUSY. -/
def State.command (s : State) (t : Instant) (opc : Nat) (tag : Byte) (arg buf : List Word) : State :=
  let s := s.at_ t
  if !s.served then s
  else if s.msp.busy then s.frameStatus 6
  else
    let s1 := s.modMsp fun m => { m with arg := overlay (Vector.replicate 8 0) arg, buf := overlay m.buf buf }
    (s1.frameStatus 0).issueCmd (BitVec.ofNat 8 opc) tag

/-! ## Meanings -/

def execNop (at_ : Instant) (tag : Byte) (s : State) : Host.Outcome State Fault Refusal := .next (s.command at_ opNop tag [] [])
def execReadTime (at_ : Instant) (tag : Byte) (s : State) : Host.Outcome State Fault Refusal :=
  .next (s.command at_ opReadTime tag [] [])
def execSelectForme (at_ : Instant) (tag : Byte) (arg0 : Word) (s : State) : Host.Outcome State Fault Refusal :=
  .next (s.command at_ opSelectForme tag [arg0] [])

/-- The three argument words of a channel mask. -/
def maskWords (m : BitVec 96) : List Word := (List.range 3).map fun i => m.extractLsb' (32 * i) 32

def execArm (at_ : Instant) (tag : Byte) (mask : BitVec 96) (s : State) : Host.Outcome State Fault Refusal :=
  .next (s.command at_ opArm tag (maskWords mask) [])
def execDisarm (at_ : Instant) (tag : Byte) (mask : BitVec 96) (s : State) : Host.Outcome State Fault Refusal :=
  .next (s.command at_ opDisarm tag (maskWords mask) [])
def execSetPost (at_ : Instant) (tag : Byte) (arg0 arg1 : Word) (s : State) : Host.Outcome State Fault Refusal :=
  .next (s.command at_ opSetPost tag [arg0, arg1] [])
def execRelease (at_ : Instant) (tag : Byte) (arg0 : Word) (s : State) : Host.Outcome State Fault Refusal :=
  .next (s.command at_ opRelease tag [arg0] [])
def execRemap (at_ : Instant) (tag : Byte) (arg0 : Word) (when_ : Dword) (s : State) : Host.Outcome State Fault Refusal :=
  .next (s.command at_ opRemap tag [arg0, lo32 when_, hi32 when_] [])
def execCalibrate (at_ : Instant) (tag : Byte) (mask : BitVec 96) (arg3 : Word) (s : State) :
    Host.Outcome State Fault Refusal := .next (s.command at_ opCalibrate tag (maskWords mask ++ [arg3]) [])
def execStoreCal (at_ : Instant) (tag : Byte) (s : State) : Host.Outcome State Fault Refusal :=
  .next (s.command at_ opStoreCal tag [] [])
def execThrottleAck (at_ : Instant) (tag : Byte) (s : State) : Host.Outcome State Fault Refusal :=
  .next (s.command at_ opThrottleAck tag [] [])
def execShedExit (at_ : Instant) (tag : Byte) (s : State) : Host.Outcome State Fault Refusal :=
  .next (s.command at_ opShedExit tag [] [])
def execState (at_ : Instant) (tag : Byte) (s : State) : Host.Outcome State Fault Refusal :=
  .next (s.command at_ opLifecycle tag [0] [])
def execChallenge (at_ : Instant) (tag : Byte) (s : State) : Host.Outcome State Fault Refusal :=
  .next (s.command at_ opLifecycle tag [1] [])
def execRespond (at_ : Instant) (tag : Byte) (key sig : BitVec 512) (s : State) : Host.Outcome State Fault Refusal :=
  .next (s.command at_ opLifecycle tag [2] (wordsLE 32 (octets 64 key ++ octets 64 sig)))
def execToken (at_ : Instant) (tag : Byte) (key sig : BitVec 512) (s : State) : Host.Outcome State Fault Refusal :=
  .next (s.command at_ opLifecycle tag [4] (wordsLE 32 (octets 64 key ++ octets 64 sig)))
def execAdvance (at_ : Instant) (tag : Byte) (target : BitVec 4) (key : BitVec 512) (cdata : BitVec 256) (s : State) :
    Host.Outcome State Fault Refusal :=
  .next (s.command at_ opLifecycle tag [pack 32 [(8, target.toNat), (0, 3)]] (wordsLE 24 (octets 64 key ++ octets 32 cdata)))
def execDiagRead (at_ : Instant) (tag : Byte) (arg0 arg1 : Word) (s : State) : Host.Outcome State Fault Refusal :=
  .next (s.command at_ opDiagRead tag [arg0, arg1] [])
def execDiagWrite (at_ : Instant) (tag : Byte) (arg0 arg1 : Word) (data : List Qword) (s : State) :
    Host.Outcome State Fault Refusal :=
  .next (s.command at_ opDiagWrite tag [arg0, arg1] (qwordsBuf data))
def execCommandComplete (s : State) : Host.Outcome State Fault Refusal := .next s.commandComplete

end Sys2Proof.Machine
end

