-- ==== Sys2Proof/Machine/Registers.lean ====
section
/-! DEFINITION. The management registers as the host reads them (R567, Table 16.5, and the register maps of every chapter):
each block answers the word at an offset, or none where no row of its maps lists one (R15). -/

namespace Sys2Proof.Machine

/-- Index and offset within an entry of an array that starts at `base`. -/
def inArray (off base stride n : Nat) : Option (Nat × Nat) :=
  if base ≤ off ∧ off < base + stride * n then some ((off - base) / stride, (off - base) % stride) else none

/-- The first of two readings that is there. -/
def orRead (a b : Option Word) : Option Word := match a with | some w => some w | none => b

/-- Words at consecutive offsets from `base`, none where the list has none. -/
def wordsAt (off base : Nat) (l : List (Option Word)) : Option Word :=
  if base ≤ off then (l.getD ((off - base) / 4) none) else none

/-! ## TOP, TBS, SWP (Tables 10.4, 20.15, 3.6, 4.5) -/

/-- The entry of the table in force at TOP.PLC_SEL. -/
def State.plcData (s : State) : Word := if s.place.sel.toNat < 24576 then sget 0 s.place.table s.place.sel.toNat else 0

def State.topReg (s : State) (off : Nat) : Option Word :=
  let p := s.place
  let y := s.sync
  orRead (wordsAt off 0x1000 [some s.plcStat, some (p.sel.setWidth 32), some s.plcData, some (lo32 p.ftime), some (hi32 p.capF),
      some (lo32 s.plcPtime), some (hi32 p.capP)]) <|
  orRead ((inArray off 0x1100 4 96).map fun i => s.plcChstat (Fin.ofNat 96 i.1)) <|
  wordsAt off 0x1300 [some s.syncStat, some y.err, some y.last, some (lo32 y.trig), some (hi32 y.cap)]

def State.tbsReg (s : State) (off : Nat) : Option Word :=
  let t := s.tb
  wordsAt off 0 [some (t.cfg &&& 0x00001113), some (t.seed &&& 0x00FFFFFF), some (t.slewCfg &&& 0xFFFF00FF), none, some (t.stat s.now),
    some t.step, some (BitVec.ofInt 32 (t.slewLeft s.now)), some (t.abDiff.setWidth 32), some t.evcnt, some (t.phaseTrim.setWidth 32)]

/-- One synthesizer; `full` is false for DECK and VAULT. -/
def State.synthReg (s : State) (x : SynthSt) (full : Bool) (off : Nat) : Option Word :=
  let only := fun (w : Word) => if full then some w else none
  orRead (wordsAt off 0 [some (x.cfg &&& 0xFFF10701), only (pack 32 [(8, x.odiv.toNat), (0, (x.forceWord s.now).1.toNat)]),
      only ((x.forceWord s.now).2.setWidth 32),
      some (x.ssc &&& 0xC00001FF), only (x.ramp &&& 0x80003F3F),
      some (x.stat (s.tb.st == .coast || s.tb.st == .qualify) s.now), some x.evcnt]) <|
  if !full then none
  else
    orRead ((inArray off 0x100 16 64).map fun i =>
      let g := x.segW i.1
      if i.2 = 0 then g.1 &&& 0x8000003F else if i.2 = 4 then g.2.1 else if i.2 = 8 then g.2.2 else 0) <|
    (inArray off 0x800 8 64).map fun i =>
      let e := x.entrySeen s.now s.free i.1
      if i.2 = 0 then e.word0 else e.nfrac.setWidth 32

def State.swpReg (s : State) (off : Nat) : Option Word :=
  let k := off / 0x1000
  if k < 10 then s.synthReg (s.synth (Fin.ofNat 10 k)) (k < 8) (off % 0x1000) else none

/-! ## CMP (Tables 2.3, 5.8, 8.4, 13.8) -/

def Lane.stat (ln : Lane) : Word :=
  pack 32 [bitAt 31 ln.loss.isSome, bitAt 30 ln.dskc, (13, satNat 13 ln.hwm), (0, satNat 13 ln.fifo.length)]

/-- High and low part of a 48-bit counter. -/
def lo48 (c : BitVec 48) : Word := c.extractLsb' 0 32
def hi48 (c : BitVec 48) : Word := (c.extractLsb' 32 16).setWidth 32

/-- Lane register at an offset from 0x0100 or 0x0180; `cfg` and `xchk` are the lane's words of the forme. -/
def Lane.reg (ln : Lane) (cfg xchk : Word) (off : Nat) : Option Word :=
  wordsAt off 0 [some (cfg &&& 0x01FFE038), some (pack 32 [(14, ln.dgen.toNat), (0, ln.deskew.toNat)]),
    some ((xchk &&& 0x00FF000F) ||| pack 32 [bitAt 7 ln.lead]), some ln.stat, some (lo48 ln.rise), some (hi48 ln.capRise), some (lo48 ln.fall),
    some (hi48 ln.capFall), some (lo48 ln.lost), some (hi48 ln.capLost), some (pack 32 [(16, ln.mismatch.toNat), (0, ln.abandon.toNat)])]

/-- Word `k` of a condition entry: a word that its kind does not use reads as zero (R311). -/
def condWord (c : Word × Word × Word) (k : Nat) : Word :=
  let kind := fld c.1 28 4
  match k with
  | 0 => c.1 &&& 0xF0000137
  | 1 => if kind = 1 ∨ kind = 2 ∨ kind = 5 then c.2.1 else if kind = 3 then c.2.1 &&& 0x00FFFFFF else if kind = 6 then c.2.1 &&& 0xFFFF else 0
  | 2 => if kind = 2 then c.2.2 else if kind = 3 then c.2.2 &&& 0x00FFFFFF else 0
  | _ => 0

def EngState.code : EngState → Nat
  | .off => 0 | .ready => 1 | .run => 2 | .wait => 3 | .emitw => 4 | .halt => 5 | .fault => 6

def Engine.stat (e : Engine) (n : Nat) : Word :=
  pack 32 [(28, e.st.code), (0, (if e.lib.isNone ∧ e.st = .run ∧ n < e.readyDc then e.pcRun else e.pcAt n).toNat)]
def Engine.evqStat (e : Engine) : Word := pack 32 [(16, e.holds.toNat), (8, satNat 7 e.hwm), (0, satNat 7 e.queue.length)]

/-- Half `h` of a 64-bit word, low half first. -/
def halfOf (w : Dword) (h : Nat) : Word := if h = 0 then lo32 w else hi32 w

def Channel.folderReg (x : Channel) (n off : Nat) : Option Word :=
  let g := x.cfg
  let e := x.eng
  orRead (wordsAt off 0x400 ([some (g.fldCfg &&& 0xF0000000), some g.gateSc, none, none]
      ++ (List.range 4).map (fun j => some (g.dslot.getD j 0 &&& 0x80000707))
      ++ (List.range 2).map (fun i => some (g.redCfg.getD i 0 &&& 0x80000003))
      ++ [some g.redSc, none, some (g.momCfg &&& 0x83008300), some (g.regCfg &&& 0x80000007), some (g.histCfg &&& 0x9F000003),
        some g.histBase, none, some g.phsCfg, none, none, some (g.maskRef &&& 0x90000007)])) <|
  orRead ((inArray off 0x500 16 16).map fun i =>
    let w := g.maskWin.getD i.1 (0, 0, 0)
    if i.2 = 0 then w.1 &&& 0xC0000007 else if i.2 = 4 then w.2.1 else if i.2 = 8 then w.2.2 else 0) <|
  wordsAt off 0x800 [some (x.engCtl &&& 0xFFF0FF01), some (e.stat n), some (pack 32 [(28, e.faultCode.toNat), (0, e.faultPc.toNat)]), none,
    some (x.evqCfg &&& 0x00000F3F), some e.evqStat, some (x.emitCfg &&& 0xFF), some (e.imemCorr ++ e.dmemCorr : BitVec (16 + 16))]

def Channel.trgReg (x : Channel) (off : Nat) : Option Word :=
  let g := x.cfg
  let t := x.trg
  orRead (wordsAt off 0xC00 [some (g.trgCfg &&& 0xFFFF0001), some g.trgAuto, none, none, some (pack 32 [(28, t.st.code)]),
      some (t.ignored ++ t.missed : BitVec (16 + 16)), some t.last, some (lo32 t.lastTime), some (hi32 t.cap)]) <|
  (inArray off 0xC40 16 8).map fun i => condWord (x.trgCond i.1) (i.2 / 4)

def Channel.trmReg (x : Channel) (off : Nat) : Option Word :=
  let t := x.trim
  orRead (wordsAt off 0xE00 [some t.stat, some t.genWord]) <|
  orRead (wordsAt off 0xE10 ((List.range 10).map fun i => some (t.figs.getD i 0))) <|
  wordsAt off 0xE38 [some t.dskmH, some t.dskmL]

/-- DMEM as the host reads it: the words in which the library keeps its state (Table 7.1) are its own. -/
def Engine.dmemShown (e : Engine) (i : Nat) : Dword :=
  match e.lib with
  | some l =>
    if i < 0x10 ∨ (0x60 ≤ i ∧ i < 0x90) ∨ 0x200 ≤ i then Config.libraryWord l.ch l.took i else sget 0 e.dmem i
  | none => sget 0 e.dmem i

/-- IMEM, DMEM and the summary banks. -/
def Channel.window (x : Channel) (off : Nat) : Option Word :=
  orRead ((inArray off 0x4000 4 4096).map fun i => sget 0 x.eng.imem i.1) <|
  orRead ((inArray off 0x8000 8 1024).map fun i => halfOf (x.eng.dmemShown i.1) (i.2 / 4)) <|
  (inArray off 0xA000 0x600 4).map fun i => halfOf ((x.banks.getD i.1 Bank.reset).words.getD (i.2 / 8) 0) (i.2 % 8 / 4)

def Channel.reg (x : Channel) (n off : Nat) : Option Word :=
  if off < 0x180 then (if 0x100 ≤ off then x.laneH.reg x.cfg.lnCfgH x.cfg.lnXchkH (off - 0x100) else none)
  else if off < 0x200 then x.laneL.reg x.cfg.lnCfgL x.cfg.lnXchkL (off - 0x180)
  else if off = 0x200 then some (x.cfg.ptnr &&& 0x8000010F)
  else orRead (x.folderReg n off) <| orRead (x.trgReg off) <| orRead (x.trmReg off) (x.window off)

/-! ## GAL (Table 8.7) -/

def State.folioWord (s : State) (i : Nat) : Word := (s.folio s.folioSel.toNat).word.extractLsb' (32 * i) 32

def State.galReg (s : State) (off : Nat) : Option Word :=
  orRead (wordsAt off 0 [some (s.folioSel.setWidth 32), some (s.folioWord 0), some (s.folioWord 1), some (s.folioWord 2), some (s.folioWord 3)]) <|
  match inArray off 0x1000 0x40 96 with
  | none => none
  | some (n, o) =>
    let c : Chan := Fin.ofNat 96 n
    let x := s.chan c
    wordsAt o 0 [some (x.cfg.circ &&& 0xFFFF3FFF), some (x.cfg.seg &&& 0xFFFF3FFF), some (x.cfg.segFmt &&& 0x001FFFFF),
      some (BitVec.ofNat 32 x.postShown), some x.cfg.folio, some (s.galStat c), some (if x.rcd.isOpen then BitVec.ofNat 32 x.rcd.wp else 0)]

/-! ## VLT (Tables 11.10, 12.7) -/

def State.vltReg (s : State) (off : Nat) : Option Word :=
  let w := s.vlt
  let v := s.vc (s.clocks.vault.next s.now)
  let h : Dword := (w.frzHist[w.frzHsel.toNat]?).elim 0 HistCmd.word
  orRead (wordsAt off 0 ([some (w.cfg &&& 0x00FF00FF), some w.stat, some w.admStat, some w.admTotal] ++ w.admPier.map some
      ++ [some w.admPcl, none, none, none, some w.poolWord])) <|
  orRead ((inArray off 0x100 16 14).bind fun i =>
    wordsAt i.2 0 [some (w.portCfg.getD i.1 0 &&& 0xFFFF0FFF), some (w.portStat i.1 v), some (w.portCnt i.1)]) <|
  orRead ((inArray off 0x400 8 32).map fun i =>
    let p := s.pch (Fin.ofNat 32 i.1)
    if i.2 = 0 then p.ce else p.ceLog.setWidth 32) <|
  orRead ((inArray off 0x800 8 96).map fun i => if i.2 = 0 then s.admW (Fin.ofNat 96 i.1) else s.admO (Fin.ofNat 96 i.1)) <|
  orRead (wordsAt off 0x1000 [some (w.mnt &&& 0xFFFFFFF0), some w.mntStat, some w.scrubPass]) <|
  orRead ((inArray off 0x1100 8 32).map fun i =>
    let q : Pch := Fin.ofNat 32 i.1
    if i.2 = 0 then s.debtWord q v else ((s.pch q).forced ++ (s.pch q).nrrs : BitVec (16 + 16))) <|
  orRead (wordsAt off 0x1200 [some w.frzStat, some (w.frzAddr.setWidth 32), some (w.frzPaddr.setWidth 32),
    some ((w.frzPaddr.extractLsb' 32 2).setWidth 32), some (w.frzSyn.setWidth 32), some (w.frzHsel.setWidth 32), some (lo32 h), some (hi32 w.capHist)]) <|
  wordsAt off 0x1300 [some w.trnStat, some (w.trnSel.setWidth 32), some (w.trnLanes.getD w.trnSel.toNat 0 &&& 0xFFFFFFF1)]

/-! ## VIA, and BAR0 (Table 9.11) -/

def State.viaReg (s : State) (off : Nat) : Option Word :=
  let y := s.via
  orRead (wordsAt off 0 [some 0x00010096, some (y.starve.setWidth 32 <<< 16), some s.viaStat, none, some y.irqStat]) <|
  orRead ((inArray off 0x1000 0x20 32).bind fun i =>
    let q := s.ring (Fin.ofNat 32 i.1)
    wordsAt i.2 0 [some (lo32 q.base), some (hi32 q.base), some q.cfgWord, some (q.tail.setWidth 32), some (q.head.setWidth 32), some q.stat,
      some q.done]) <|
  orRead ((inArray off 0x2000 4 96).map fun i => (s.chan (Fin.ofNat 96 i.1)).cfg.chmap &&& 0x3) <|
  orRead ((inArray off 0x8000 4 128).map fun i => sget 0 y.msix i.1) <|
  if off = 0x9000 then some y.msixPend else none

/-! ## TRS, THM, PWR, NVM, LCY, TST, MSP (Tables 17.8, 18.4, 15.11, 14.12, 13.8, 19.8, 17.12, 16.7) -/

def State.mclk48 (s : State) : BitVec 48 := BitVec.ofNat 48 (s.mclk s.now)

def State.trsReg (s : State) (off : Nat) : Option Word :=
  let t := s.truss
  orRead (wordsAt off 0 [some 0, some t.histStat, some (t.histSel.setWidth 32), none, some (t.histEntry.extractLsb' 0 32),
    some (t.capHist.extractLsb' 32 32), some (t.capHist.extractLsb' 64 32), some (t.capHist.extractLsb' 96 32), some (lo48 s.mclk48), some (hi48 t.capMclk),
    none, none, some (t.alivePeriod.setWidth 32), some t.aliveStat]) <|
  orRead ((inArray off 0x40 4 8).map fun i => t.bits (·.pend) i.1) <|
  orRead ((inArray off 0x60 4 8).map fun i => t.bits (·.latch != 0) i.1) <|
  (inArray off 0x1000 16 256).bind fun i =>
    wordsAt i.2 0 [some (s.src (Fin.ofNat 256 i.1)).cfg, some (s.srcStat (Fin.ofNat 256 i.1) s.now)]

def State.thmReg (s : State) (off : Nat) : Option Word :=
  let t := s.thm
  orRead ((inArray off 0 4 18).map fun i => s.sensWord (Fin.ofNat 18 i.1)) <|
  orRead ((inArray off 0x100 4 8).map fun i => s.pierWord (Fin.ofNat 8 i.1)) <|
  wordsAt off 0x200 [some s.thmStat, some t.cfg, some (s.thmTimer s.now), some (t.shed.extractLsb' 0 32), some (t.shed.extractLsb' 32 32),
    some (t.shed.extractLsb' 64 32), none, none, some t.sdLog]

def State.pwrReg (s : State) (off : Nat) : Option Word :=
  let p := s.pwr
  orRead (wordsAt off 0 [some p.modeWord, some p.rstCause, some (p.rstCount.setWidth 32), some (BitVec.ofNat 32 (bit p.nvmv))]) <|
  orRead ((inArray off 0x10 4 6).map fun i => (p.rails[(Fin.ofNat 6 i.1 : RailIx)]).word) <|
  orRead (wordsAt off 0x30 [some (s.dipWord s.now), some (lo32 p.dipStamp), some (hi32 p.capDip)]) <|
  orRead ((inArray off 0x40 4 4).map fun i => s.pdStat i.1) <|
  wordsAt off 0x50 [some s.pdBusy, some (p.pdFail.setWidth 32)]

def State.nvmReg (s : State) (off : Nat) : Option Word :=
  let n := s.nvm
  orRead (wordsAt off 0 [some n.dev, some n.loadStat, some n.imgStat, some n.imgVer, some (n.ok.extractLsb' 0 32), some (n.ok.extractLsb' 32 32),
    some (n.sel.setWidth 32), some (n.whys.getD n.sel.toNat 0xFF7F0000), some s.formeRun]) <|
  wordsAt off 0x100 [some n.calStat, some n.genA, some n.genB, some (n.tgen.setWidth 32)]

def State.lcyReg (s : State) (off : Nat) : Option Word :=
  let l := s.lcy
  orRead (if off = 0 then some l.stat else none) <|
  orRead ((inArray off 0x10 4 4).map fun i => l.fuse i.1) <|
  orRead ((inArray off 0x20 4 8).map fun i => l.khash i.1) <|
  orRead ((inArray off 0x40 4 8).map fun i => l.cdata i.1) <|
  wordsAt off 0x1000 [some (l.mkSel.setWidth 32), some (l.fuse l.mkSel.toNat), some 0]

def State.tstReg (s : State) (off : Nat) : Option Word :=
  let t := s.tst
  orRead (wordsAt off 0 [some (pack 32 [bitAt 31 t.on, bitAt 0 t.creact]), some 0, none, none, some (t.xdlySel.setWidth 32),
    some ((sget 0 t.xdly t.xdlySel.toNat).setWidth 32), none, none, some (pack 32 [bitAt 31 t.stallEn, (16, t.stallTarget.toNat), (0, t.stallLen.toNat)]),
    some (t.stallPer.setWidth 32), none, none, some t.vschedPc, some (t.vschedDly.setWidth 32), some t.rpost, none,
    some (pack 32 [bitAt 31 t.eccArm, (28, t.eccMode.toNat), (24, t.eccPort.toNat), (0, t.eccB.toNat)]), some (BitVec.ofNat 32 t.eccList.length)]) <|
  (inArray off 0x80 4 18).map fun i => let o := t.tovr.getD i.1 (false, 0); pack 32 [bitAt 31 o.1, (0, o.2.toNat)]

def Msp.errCnt (m : Msp) : Word := m.errCrc ++ (m.errBadop ++ (m.errAbort ++ m.errBusy : BitVec (8 + 8)) : BitVec (8 + (8 + 8)))
def Msp.cmdStat (m : Msp) : Word :=
  pack 32 [bitAt 31 m.busy, bitAt 30 m.done, (16, m.tag.toNat), (8, m.opc.toNat), (0, m.code.toNat)]

/-- MSP.STAT (Table 16.8). -/
def State.mspStat (s : State) : Word :=
  pack 32 [bitAt 31 s.msp.fwup, bitAt 30 (s.nintLow s.now), bitAt 29 (s.throttleHigh s.now), (0, s.msp.last.toNat)]

def State.mspReg (s : State) (off : Nat) : Option Word :=
  let m := s.msp
  orRead (wordsAt off 0 [some 0x52470160, some s.mspStat, some m.errCnt, none, some 0, some m.cmdStat]) <|
  orRead ((inArray off 0x20 4 8).map fun i => m.arg[(Fin.ofNat 8 i.1 : Fin 8)]) <|
  orRead ((inArray off 0x40 4 8).map fun i => m.resp[(Fin.ofNat 8 i.1 : Fin 8)]) <|
  (inArray off 0x100 4 64).map fun i => m.buf[(Fin.ofNat 64 i.1 : Fin 64)]

/-! ## The management address map (Table 16.5) -/

inductive Block where
  | top | tbs | swp | cmp (c : Chan) | gal | vlt | via | trs | thm | pwr | nvm | lcy | tst | msp | outside
deriving DecidableEq, Repr

/-- The block of an address, and the offset in it. -/
def blockOf (a : Nat) : Block × Nat :=
  if a < 0x10000 then (.top, a)
  else if a < 0x20000 then (.tbs, a - 0x10000)
  else if a < 0x30000 then (.swp, a - 0x20000)
  else if a < 0x100000 then (.outside, 0)
  else if a < 0x700000 then (.cmp (Fin.ofNat 96 ((a - 0x100000) / 0x10000)), a % 0x10000)
  else if a < 0x800000 then (.outside, 0)
  else if a < 0x900000 then (.gal, a - 0x800000)
  else if a < 0xA00000 then (.vlt, a - 0x900000)
  else if a < 0xA10000 then (.via, a - 0xA00000)
  else if a < 0xB00000 then (.outside, 0)
  else if a < 0xC00000 then (.trs, a - 0xB00000)
  else if a < 0xC80000 then (.thm, a - 0xC00000)
  else if a < 0xD00000 then (.pwr, a - 0xC80000)
  else if a < 0xD80000 then (.nvm, a - 0xD00000)
  else if a < 0xE00000 then (.lcy, a - 0xD80000)
  else if a < 0xF00000 then (.tst, a - 0xE00000)
  else if a < 0xF10000 then (.msp, a - 0xF00000)
  else (.outside, 0)

/-- The word at a management address, none where it is undefined (R14, R15). -/
def State.reg (s : State) (a : Nat) : Option Word :=
  if a % 4 != 0 then none
  else
    let (b, off) := blockOf a
    match b with
    | .top => s.topReg off
    | .tbs => s.tbsReg off
    | .swp => s.swpReg off
    | .cmp c => (s.chan c).reg (s.dc s.now) off
    | .gal => s.galReg off
    | .vlt => s.vltReg off
    | .via => s.viaReg off
    | .trs => s.trsReg off
    | .thm => s.thmReg off
    | .pwr => s.pwrReg off
    | .nvm => s.nvmReg off
    | .lcy => s.lcyReg off
    | .tst => s.tstReg off
    | .msp => s.mspReg off
    | .outside => none

/-- mc that one word of a block takes (R672); an address in no block has no stated time, and takes the least. -/
def wordTime (b : Block) : Nat :=
  match b with
  | .top => 8 | .tbs => 8 | .swp => 8
  | .cmp _ => 16 | .gal => 16 | .vlt => 16 | .via => 16
  | _ => 4

/-- The words of LCY that have a state of their own: the maker window and LCY.CDATA. -/
def isMakerWindow (a : Nat) : Bool := 0xD81000 ≤ a && a < 0xE00000
def isCdata (a : Nat) : Bool := 0xD80040 ≤ a && a < 0xD80060

/-- STATUS of an access to one word (R547 steps 1 to 3); 0 where it goes on. -/
def State.accessStatus (s : State) (a : Nat) : Byte :=
  let (b, _) := blockOf a
  if (b == .tst && !s.lcy.tstOpen) || (isMakerWindow a && !s.lcy.makerOpen) || (isCdata a && !s.lcy.cdataOpen) then 4
  else if (match b with | .cmp c => !s.chOn c | _ => false) then 5
  else if (s.reg a).isNone then 3
  else 0

/-- A refused access to the TST block or the maker window is reported (R592, R635). -/
def State.reportDenied (s : State) (a : Nat) (st : Byte) : State :=
  if st != 4 then s
  else if (blockOf a).1 == .tst then s.tstDenied
  else if isMakerWindow a then s.raiseM 225 0x01
  else s

end Sys2Proof.Machine
end

