-- ==== Sys2Proof/Machine/Port.lean ====
section
/-! DEFINITION. MSPI frames and register accesses: captures, RC fields, writes, STATUS (R540 to R548, Tables 0.4, 16.1,
16.2), and the writes that BAR0 takes (R343, R344). -/

namespace Sys2Proof.Machine

/-! ## Captures and RC fields (R88, R546) -/

/-- The capture that sampling a lane register takes. -/
def Lane.capture (ln : Lane) (off : Nat) : Lane :=
  if off = 0x10 then { ln with capRise := ln.rise }
  else if off = 0x18 then { ln with capFall := ln.fall }
  else if off = 0x20 then { ln with capLost := ln.lost }
  else ln

/-- The RC fields of a lane register. -/
def Lane.clearRc (ln : Lane) (off : Nat) : Lane :=
  if off = 0x0C then { ln with hwm := 0 } else if off = 0x28 then { ln with mismatch := 0, abandon := 0 } else ln

def Channel.capture (x : Channel) (off : Nat) : Channel :=
  if 0x100 ≤ off ∧ off < 0x180 then { x with laneH := x.laneH.capture (off - 0x100) }
  else if 0x180 ≤ off ∧ off < 0x200 then { x with laneL := x.laneL.capture (off - 0x180) }
  else if off = 0xC1C then { x with trg := { x.trg with cap := x.trg.lastTime } }
  else x

def Channel.clearRc (x : Channel) (off : Nat) : Channel :=
  if 0x100 ≤ off ∧ off < 0x180 then { x with laneH := x.laneH.clearRc (off - 0x100) }
  else if 0x180 ≤ off ∧ off < 0x200 then { x with laneL := x.laneL.clearRc (off - 0x180) }
  else if off = 0x814 then { x with eng := { x.eng with hwm := 0 } }
  else if off = 0x81C then { x with eng := { x.eng with imemCorr := 0, dmemCorr := 0 } }
  else if off = 0xC14 then { x with trg := { x.trg with ignored := 0, missed := 0 } }
  else x

/-- What sampling the word at `a` captures. -/
def State.capture (s : State) (a : Nat) : State :=
  match blockOf a with
  | (.top, off) =>
    if off = 0x100C then { s with place := { s.place with capF := s.place.ftime } }
    else if off = 0x1014 then { s with place := { s.place with capP := s.plcPtime } }
    else if off = 0x130C then { s with sync := { s.sync with cap := s.sync.trig } }
    else s
  | (.cmp c, off) => s.modChan c fun x => x.capture off
  | (.vlt, off) =>
    if off = 0x1218 then { s with vlt := { s.vlt with capHist := (s.vlt.frzHist[s.vlt.frzHsel.toNat]?).elim 0 HistCmd.word } } else s
  | (.trs, off) =>
    if off = 0x10 then { s with truss := { s.truss with capHist := s.truss.histEntry } }
    else if off = 0x20 then { s with truss := { s.truss with capMclk := s.mclk48 } }
    else s
  | (.pwr, off) => if off = 0x34 then { s with pwr := { s.pwr with capDip := s.pwr.dipStamp } } else s
  | _ => s

/-- The RC fields of the word at `a` are cleared. -/
def State.clearRc (s : State) (a : Nat) : State :=
  match blockOf a with
  | (.top, off) =>
    if off = 0x1000 then { s with place := { s.place with subFail := false, rCancel := false } }
    else if off = 0x1304 then { s with sync := { s.sync with errCrc := 0, errFrame := 0, errRsvd := 0, errRefused := 0 } }
    else s
  | (.cmp c, off) => s.modChan c fun x => x.clearRc off
  | (.vlt, off) =>
    match inArray off 0x100 16 14, inArray off 0x400 8 32, inArray off 0x1100 8 32 with
    | some (p, 8), _, _ => { s with vlt := { s.vlt with promo := setAt s.vlt.promo p 0, late := setAt s.vlt.late p 0 } }
    | _, some (q, 0), _ => s.modPch (Fin.ofNat 32 q) fun x => { x with ce := 0 }
    | _, _, some (q, 4) => s.modPch (Fin.ofNat 32 q) fun x => { x with forced := 0, nrrs := 0 }
    | _, _, _ => s
  | (.trs, off) => if off = 4 then { s with truss := { s.truss with histLost := 0 } } else s
  | (.msp, off) => if off = 8 then s.modMsp fun m => { m with errCrc := 0, errBadop := 0, errAbort := 0, errBusy := 0 } else s
  | _ => s

/-- One word is sampled: its STATUS and its value; a refused word reads zero. -/
def State.readWord (s : State) (a : Nat) : State × Byte × Word :=
  let st := s.accessStatus a
  if st = 0 then let s1 := s.capture a; (s1, 0, (s1.reg a).getD 0) else (s.reportDenied a st, st, 0)

/-! ## Writes of one word (Table 0.4, R568) -/

/-- A write of a TST register. One of TST.XDLY while TST.XDLY_SEL holds 205 to 255, which names no crossing, changes nothing:
the spec does not say (DESIGN CHOICE, notes/assumptions/69.md). -/
def State.writeTst (s : State) (off : Nat) (w : Word) : State :=
  if off = 0x00 then s.writeTstCtl w
  else if off = 0x04 then s.writeAssert w
  else if off = 0x10 then s.modTst fun t => { t with xdlySel := w.extractLsb' 0 8 }
  else if off = 0x14 then
    if s.tst.xdlySel.toNat ≤ 204 then s.modTst fun t => { t with xdly := sset 0 t.xdly t.xdlySel.toNat (w.extractLsb' 0 8) } else s
  else if off = 0x20 then s.writeStall w
  else if off = 0x24 then s.modTst fun t => { t with stallPer := w.extractLsb' 0 24 }
  else if off = 0x30 then s.modTst fun t => { t with vschedPc := w }
  else if off = 0x34 then s.modTst fun t => { t with vschedDly := w.extractLsb' 0 8 }
  else if off = 0x38 then s.modTst fun t => { t with rpost := w }
  else if off = 0x40 then s.writeEccInj w
  else match inArray off 0x80 4 18 with
    | some (i, _) => s.modTst fun t => { t with tovr := setAt t.tovr i (w.getLsbD 31, w.extractLsb' 0 8) }
    | none => s

def State.writeTrs (s : State) (off : Nat) (w : Word) : State :=
  if off = 0x00 then s.writeAck w
  else if off = 0x08 then { s with truss := { s.truss with histSel := w.extractLsb' 0 4 } }
  else if off = 0x30 then s.writeAlive w
  else match inArray off 0x1000 16 256 with
    | some (n, 0) => s.writeSrcCfg (Fin.ofNat 256 n) w
    | some (n, 4) => s.writeSrcStat (Fin.ofNat 256 n) w
    | _ => s

def State.writeMsp (s : State) (off : Nat) (w : Word) (issue : Bool) : State :=
  if off = 0x10 then (if issue then s.issueCmd (w.extractLsb' 0 8) (w.extractLsb' 16 8) else s)
  else match inArray off 0x20 4 8, inArray off 0x100 4 64 with
    | some (i, _), _ => s.modMsp fun m => { m with arg := m.arg.set (Fin.ofNat 8 i) w }
    | _, some (i, _) => s.modMsp fun m => { m with buf := m.buf.set (Fin.ofNat 64 i) w }
    | _, _ => s

/-- A write that the access checks of R547 let through; a register that the port does not write keeps its value.
`issue`: a write of MSP.CMD issues its command. -/
def State.writeReg (s : State) (a : Nat) (w : Word) (issue : Bool) : State :=
  match blockOf a with
  | (.top, off) => if off = 0x1004 then { s with place := { s.place with sel := w.extractLsb' 0 15 } } else s
  | (.gal, off) => if off = 0 then { s with folioSel := w.extractLsb' 0 16 } else s
  | (.vlt, off) =>
    if off = 0x1214 then { s with vlt := { s.vlt with frzHsel := w.extractLsb' 0 6 } }
    else if off = 0x1304 then { s with vlt := { s.vlt with trnSel := w.extractLsb' 0 11 } }
    else s
  | (.trs, off) => s.writeTrs off w
  | (.pwr, off) => if off = 4 then { s with pwr := s.pwr.clearCause w } else s
  | (.nvm, off) => if off = 0x18 then { s with nvm := { s.nvm with sel := w.extractLsb' 0 6 } } else s
  | (.lcy, off) =>
    if off = 0x1000 then s.modLcy fun l => { l with mkSel := w.extractLsb' 0 7 }
    else if off = 0x1008 then s.makerProg w
    else s
  | (.tst, off) => s.writeTst off w
  | (.msp, off) => s.writeMsp off w issue
  | _ => s

/-- The words of the mailbox that a running command closes (R547 step 4). -/
def isMailbox (a : Nat) : Bool :=
  match blockOf a with
  | (.msp, off) => off == 0x10 || (inArray off 0x20 4 8).isSome || (inArray off 0x100 4 64).isSome
  | _ => false

/-- One word of a WRITE: `busy0`, a command ran as the frame began; `ok`, every word so far was OK (R549). -/
def State.writeOne (s : State) (a : Nat) (w : Word) (busy0 ok : Bool) : State × Byte :=
  let st := s.accessStatus a
  if st ≠ 0 then (s.reportDenied a st, st)
  else if busy0 && isMailbox a then (s, 6)
  else (s.writeReg a w ok, 0)

/-! ## Frames -/

/-- Access start (Table 20.12): three mc through the crossing from the edge that samples the last bit of the CRC. -/
def State.accessStart (s : State) (t : Instant) : Instant := s.clocks.mgmt.cross win400 3 t

/-- What the device sends from the start byte on. -/
def misoBytes (st : Byte) (data : List Byte) : List Byte := 0xA5 :: st :: data ++ [crc8 (st :: data)]

/-- A word's bytes, least significant first (R16). -/
def bytesLE (w : Word) : List Byte := (List.range 4).map fun i => w.extractLsb' (8 * i) 8

/-- The instant up to which a word sampled on the mc edge at `t` shows its unit: the edge itself for a block of MGMT, and
400 ps before it for a block of SPAN, DECK, VAULT or LINK, whose values are visible there (R7, Table 20.13). -/
def sampleAt (a : Nat) (t : Instant) : Instant := if wordTime (blockOf a).1 = 4 then t else t - win400

/-- The words of a READ from `a` on, sampled at the word times from `m` on: STATUS of the first that was not OK, and the
values. -/
def State.readWords (m : Instant) : Nat → State → Nat → State × Byte × List Word
  | 0, s, _ => (s.at_ m, 0, [])
  | n + 1, s, a =>
    let m1 := m + wordTime (blockOf a).1 * s.clocks.mgmt.period
    let r := (s.at_ (sampleAt a m1)).readWord a
    let t := State.readWords m1 n r.1 (a + 4)
    (t.1, if r.2.1 = 0 then t.2.1 else r.2.1, r.2.2 :: t.2.2)

/-- The words of a WRITE from `a` on. -/
def State.writeWords (busy0 : Bool) : List Word → Bool → State → Nat → State × Byte
  | [], _, s, _ => (s, 0)
  | w :: ws, ok, s, a =>
    let s0 := s.at_ (s.now + wordTime (blockOf a).1 * s.clocks.mgmt.period)
    let r := s0.writeOne a w busy0 ok
    let t := State.writeWords busy0 ws (ok && r.2 == 0) r.1 (a + 4)
    (t.1, if r.2 = 0 then t.2 else r.2)

/-- The RC fields of the N words at `a`. -/
def State.clearRcs (s : State) (a n : Nat) : State := (List.range n).foldl (fun z i => z.clearRc (a + 4 * i)) s

/-- A header the device rejects: start byte at byte 8, STATUS 1 or 2, and source 232 (R543, R573). LAST stays. -/
def State.rejectHeader (s : State) (st : Byte) : State :=
  let s1 := s.modMsp fun m => { m with
    miso := misoBytes st [], errCrc := if st = 1 then satAdd m.errCrc 1 else m.errCrc, errBadop := if st = 2 then satAdd m.errBadop 1 else m.errBadop }
  s1.raiseM 232 (if st = 1 then 0x01 else 0x02)

/-- STATUS with which a header is rejected, none where it is accepted. -/
def headerFault (bytes : List Byte) : Option Byte :=
  if crc8 (bytes.take 6) != bytes.getD 6 0 then some 1
  else if (bytes.getD 0 0 != 0x0B && bytes.getD 0 0 != 0x02) || (bytes.getD 5 0).toNat ≥ 64 || (bytes.getD 1 0).toNat % 4 != 0 then some 2
  else none

/-- A READ frame of `n` words at `a` that ends after RCRC. -/
def State.readFrame (s : State) (a n : Nat) : State :=
  let r := s.readWords s.now n a
  let st := r.2.1
  let data := if st = 0 then r.2.2.flatMap bytesLE else []
  let s1 := (r.1.frameStatus st).modMsp fun m => { m with miso := misoBytes st data }
  if st = 0 then s1.clearRcs a n else s1

/-- A WRITE frame with a matching DCRC. -/
def State.writeFrame (s : State) (a : Nat) (ws : List Word) : State :=
  let r := State.writeWords s.msp.busy ws true s a
  (r.1.frameStatus r.2).modMsp fun m => { m with miso := misoBytes r.2 [] }

/-- What a frame of `n` words at `a` does, begun at `t`: nothing while the port is not served, and a header that R543
rejects is answered so. -/
def State.frame (s : State) (t : Instant) (a : Word) (n : Nat) (f : State → State) : State :=
  let s0 := s.at_ t
  if !s0.served || n == 0 || decide (64 < n) then s0
  else if a.toNat % 4 ≠ 0 then s0.rejectHeader 2
  else f (s0.at_ (s0.accessStart s0.now))

/-- A READ that ends early: its words are sampled, no RC field is cleared, ABORT counts (R545, R546). -/
def State.abortRead (s : State) (a n : Nat) : State :=
  (s.readWords s.now n a).1.modMsp fun m => { m with errAbort := satAdd m.errAbort 1 }

/-- A WRITE that ends before DCRC. -/
def State.abortWrite (s : State) : State := s.modMsp fun m => { m with errAbort := satAdd m.errAbort 1 }

/-- A one-word access at `t`, for the rows that name one register: the write, its STATUS. -/
def State.access (s : State) (t : Instant) (a : Nat) (w : Word) : State :=
  let s0 := s.at_ t
  if !s0.served then s0
  else
    let r := s0.writeOne a w s0.msp.busy true
    r.1.frameStatus r.2

/-- A one-word read at `t`. -/
def State.readAccess (s : State) (t : Instant) (a : Nat) : State :=
  let s0 := s.at_ t
  if !s0.served then s0
  else
    let r := (s.at_ (sampleAt a t)).readWord a
    let st := r.2.1
    let s1 := ((r.1.at_ t).frameStatus st).modMsp fun m => { m with miso := misoBytes st (if st = 0 then bytesLE r.2.2 else []) }
    if st = 0 then s1.clearRc a else s1

/-! ## BAR0 (Tables 9.11, 9.12) -/

def addrRingBase (lo : Bool) (b : Dword) (w : Word) : Dword :=
  if lo then (hi32 b ++ (w &&& 0xFFFFF000) : BitVec (32 + 32)) else (w ++ lo32 b : BitVec (32 + 32))

/-- A write of VIA.RING_CFG: BASE and LOG2N stay while EN = 1, and EN changes as R342 and R344 state. -/
def State.writeRingCfg (s : State) (r : Ring) (w : Word) : State :=
  let q := s.ring r
  let l := fld w 0 5
  let log : BitVec 5 := if q.en then q.log2n else if 4 ≤ l ∧ l ≤ 16 then BitVec.ofNat 5 l else 4
  let s1 := s.setRing r { q with log2n := log, autorel := w.getLsbD 30, irqen := w.getLsbD 29 }
  if w.getLsbD 31 && !q.en then s1.startRing r
  else if !w.getLsbD 31 && q.en then s1.stopRing r .off
  else s1

/-- A vector that is unmasked while its pending bit is set is sent. -/
def State.writeMsix (s : State) (i : Nat) (w : Word) : State :=
  let s1 := { s with via := { s.via with msix := sset 0 s.via.msix i w } }
  let r := i / 4
  if i % 4 = 3 ∧ !w.getLsbD 0 ∧ s.via.msixPend.getLsbD r then
    ({ s1 with via := { s1.via with msixPend := s1.via.msixPend &&& ~~~ BitVec.ofNat 32 (2 ^ r) } }).send (.msix (Fin.ofNat 32 r))
  else s1

/-- A write through BAR0. -/
def State.writeBar0 (s : State) (off : Nat) (w : Word) : State :=
  if off = 0x04 then { s with via := { s.via with starve := w.extractLsb' 16 16 } }
  else if off = 0x10 then { s with via := { s.via with irqStat := s.via.irqStat &&& ~~~ w } }
  else match inArray off 0x1000 0x20 32, inArray off 0x8000 4 128 with
    | some (n, o), _ =>
      let r : Ring := Fin.ofNat 32 n
      if o = 0 ∨ o = 4 then
        if (s.ring r).en then s else s.modRing r fun q => { q with base := addrRingBase (o == 0) q.base w }
      else if o = 8 then s.writeRingCfg r w
      else if o = 12 then s.tailWrite r w
      else s
    | _, some (i, _) => s.writeMsix i w
    | _, _ => s

/-! ## Meanings -/

def execRead (at_ : Instant) (addr : Word) (n : Nat) (s : State) : Host.Outcome State Fault Refusal :=
  .next (s.frame at_ addr n fun z => z.readFrame addr.toNat n)

def execWrite (at_ : Instant) (addr : Word) (data : List Word) (dcrc : Byte) (s : State) : Host.Outcome State Fault Refusal :=
  .next (s.frame at_ addr data.length fun z =>
    if crc8 (data.flatMap bytesLE) = dcrc then z.writeFrame addr.toNat data
    else (z.frameStatus 1).modMsp fun m => { m with miso := misoBytes 1 [] })

def execFrameAbort (at_ : Instant) (isWrite : Bool) (addr : Word) (n : Nat) (s : State) : Host.Outcome State Fault Refusal :=
  .next (s.frame at_ addr n fun z => if isWrite then z.abortWrite else z.abortRead addr.toNat n)

def execHeaderRejected (at_ : Instant) (bytes : List Byte) (s : State) : Host.Outcome State Fault Refusal :=
  let s0 := s.at_ at_
  .next (if s0.served then (headerFault bytes).elim s0 s0.rejectHeader else s0)

def execRegisterWrite (at_ : Instant) (port : Access) (addr : Word) (value : Word) (s : State) : Host.Outcome State Fault Refusal :=
  .next (match port with
    | .mspi => s.access at_ addr.toNat value
    | .bar0 => (s.at_ at_).writeBar0 addr.toNat value)

def execCaptureRead (at_ : Instant) (addr : Word) (s : State) : Host.Outcome State Fault Refusal := .next (s.readAccess at_ addr.toNat)
def execRcRead (at_ : Instant) (addr : Word) (s : State) : Host.Outcome State Fault Refusal := .next (s.readAccess at_ addr.toNat)

def execAck (at_ : Instant) (src : Source) (s : State) : Host.Outcome State Fault Refusal :=
  .next (s.access at_ 0xB00000 (BitVec.ofNat 32 src.val))
def execAckAll (at_ : Instant) (s : State) : Host.Outcome State Fault Refusal := .next (s.access at_ 0xB00000 0x80000000)
def execSrcCfgWrite (at_ : Instant) (src : Source) (value : Word) (s : State) : Host.Outcome State Fault Refusal :=
  .next (s.access at_ (0xB01000 + 16 * src.val) value)
def execAssert (at_ : Instant) (value : Word) (s : State) : Host.Outcome State Fault Refusal := .next (s.access at_ 0xE00004 value)
def execTstOn (at_ : Instant) (creact : Bool) (s : State) : Host.Outcome State Fault Refusal :=
  .next (s.access at_ 0xE00000 (pack 32 [bitAt 31 true, bitAt 0 creact]))
def execTstOff (at_ : Instant) (s : State) : Host.Outcome State Fault Refusal :=
  .next (s.access at_ 0xE00000 (pack 32 [bitAt 0 s.tst.creact]))
def execEccInj (at_ : Instant) (value : Word) (s : State) : Host.Outcome State Fault Refusal := .next (s.access at_ 0xE00040 value)
def execMkProg (at_ : Instant) (value : Word) (s : State) : Host.Outcome State Fault Refusal := .next (s.access at_ 0xD81008 value)

end Sys2Proof.Machine
end

