-- ==== Sys2Proof/Machine/Scale.lean ====
section
/-! DEFINITION. Changes of the scale: discontinuity records, epoch marks, REANCHOR and switch-over (03_timebase.md). -/

namespace Sys2Proof.Machine

/-! ## Discontinuity records (R128 to R133) -/

/-- A channel armed at `t` or later takes its open time on the scale in force from `t` on (R132). -/
def State.reopen (s : State) (c : Chan) (t : Instant) : State :=
  let x := s.chan c
  if x.armed && t ≤ x.armAt then
    match x.armNext with
    | some (a, _) => s.setChan c { x with armNext := some (a, s.tb.scale) }
    | none =>
      let z := (s.setChan c { x with recCount := 0, rcd := Rec.reset }).setFolio x.rcd.folio Folio.free
      if x.rcd.isOpen && (z.placeFor c x.cfg none).isSome then z.firstRecord c x.armAt s.tb.scale else s
  else s

/-- A pending REMAP compares WHEN on the scale in force at each grid instant: none before `l` comes any more (R368). -/
def Place.lift (p : Place) (l : Nat) : Place :=
  { p with pend := p.pend.map fun f => if f.isRemap && f.when_ != 0 then { f with from_ := max f.from_ l } else f }

/-- Issue a discontinuity record at `t` with a cause of Table 9.7 (0 REANCHOR, 1 SWITCH, 2 MARK), the scale already
being the new one; source 153 is raised with DISC. A mark with no channel armed issues none (R110). -/
def State.discontinuity (s0 : State) (t : Instant) (cause : BitVec 2) (step : Int) : State :=
  let s := { s0 with place := s0.place.lift (lsbUp t) }.forChans (allChans.filter s0.chOn) fun c z => z.reopen c t
  let issued := cause != 2 || allChans.any fun c => s.chOn c && (s.chan c).armedThrough t
  (if issued then fun (z : State) => z.raise 153 0x40 else id) (s.insertAll t
    { fence := false, inst := lsbOf t, sub := t % lsbUnits, time := s.stamp t, cause := cause.setWidth 3, loop := s.tb.active
      tstate := s.tb.st.code, step := step, newStep := 0, newEpoch := 0, newSite := 0, oldStep := 0, oldEpoch := 0
      oldSite := 0 }).trimTimebase

/-! ## Epoch marks (R104 to R110) -/

/-- An epoch mark cancels a pending REMAP with WHEN other than 0 (Table 10.3). -/
def Place.cancel (p : Place) : Place :=
  if p.pend.any fun f => f.isRemap && f.when_ != 0 then
    { p with pend := p.pend.filter (fun f => !(f.isRemap && f.when_ != 0)), rCancel := true }
  else p

/-- SPAN edges from `e` on fall `d` later: those that are still to come move the instants that rest on them (DEDUCED,
notes/assumptions/62.md). -/
def Channel.stretch (x : Channel) (e d : Nat) : Channel :=
  let f := fun (t : Instant) => if e ≤ t then t + d else t
  let lane := fun (ln : Lane) => { ln with reserved := ln.reserved.map fun r => (f r.1, r.2) }
  { x with laneH := lane x.laneH, laneL := lane x.laneL, armAt := f x.armAt, disarmAt := x.disarmAt.map f
           disarmNext := x.disarmNext.map f, armNext := x.armNext.map fun p => (f p.1, p.2) }

/-- The dividers restart at T_M = now with a SPAN rising edge there: where none would fall within 3 ps, the cycle that ends
before T_M is stretched to end there (R105). -/
def State.restartSpan (s : State) : State :=
  let e := s.span.edge (s.span.no s.now)
  let d := s.now - e
  if d ≤ 192 ∨ scUnits ≤ d + 192 then s
  else s.forChans allChans fun c z => z.modChan c fun x => x.stretch e d

/-- EPOCH_MARK at T_M = `t0`, the first REFIN rising edge 32 ns or more after the visibility edge: applied in LOCKED and
SLEW, otherwise rejected with MARK_REJ. -/
def State.epochMark (s : State) (t0 : Instant) : State :=
  match s.sync.mark with
  | none => s.at_ t0
  | some v =>
    let s := s.at_ t0
    if !s.firstEdge s.tb.refP (v + 32 * 64000) s.now then s
    else
      let s := { s with sync := { s.sync with mark := none } }
      if s.tb.st = .locked ∨ s.tb.st = .slew then
        let step := -(s.stamp s.now)
        let s1 := s.restartSpan.modTb fun tb =>
          { tb.seedLfsr s.now with
            scale := -(lsbOf s.now : Int), marked := true, marks := satAdd tb.marks 1, st := .locked, slewRem := 0
            offset := 0, glide := none, divAt := s.now, jump := none }
        (({ s1 with place := s1.place.cancel }.markSynths s.now).discontinuity s.now 2 step).tbApply
      else s.raise 153 0x10

/-! ## Return by REANCHOR, switch-over (R119 to R121, R125, R126) -/

/-- REANCHOR at T_D = `t0` (R119 to R121): the scale moves by the applied step, the record is issued, SETTLE begins, and the
physical SPAN phase keeps the offset to the new scale until it has moved there. -/
def State.reanchor (s : State) (t0 : Instant) : State :=
  let s := s.at_ t0
  match s.tb.measured, s.tb.tdFrom with
  | some step, some from_ =>
    if s.tb.st = .qualify && s.isTd step from_ && !s.tb.slewApplies step then
      let old := s.stamp s.now
      let applied := nearestP s.tb.refP (old + step) - old
      let s1 := s.modTb fun tb =>
        { tb.seedLfsr s.now with
          scale := tb.scale + applied, step := BitVec.ofInt 32 applied, st := .settle, since := s.now
          offset := tb.offset + applied, glide := some s.now, frozen := none, reanchors := satAdd tb.reanchors 1, measured := none, tdFrom := none }
      (s1.discontinuity s.now 0 applied).spreadDv true
    else s
  | _, _ => s

/-- SWITCH_OVER at T_S = `t0`, the first anchor edge after the cause, with the mean of the A/B comparator, standby minus active,
in LSB (R125, R126); the comparator shows the other sign once the roles have changed. In LOCKED it uses the POLICY and RATE in
force, a change since the last return from COAST included, which R139 leaves open (DESIGN CHOICE, notes/assumptions/59.md). In
SETTLE with POLICY = SLEW, which neither bullet of R126 names, the scale moves and a SWITCH record is issued (DESIGN CHOICE,
notes/assumptions/60.md). -/
def State.switchOver (s : State) (t0 : Instant) (abMean : Int) : State :=
  let s := s.at_ t0
  match s.tb.switchDue with
  | none => s
  | some (failed, from_) =>
    if !s.firstEdge s.tb.anchorP from_ s.now then s
    else
      let s1 := s.modTb fun tb =>
        { tb with active := !tb.active, sbyOk := false, switches := satAdd tb.switches 1, switchDue := none
                  abDiff := abField (-abMean), step := BitVec.ofInt 32 abMean }
      let s2 := s1.raise 153 (0x08 ||| loopFaultBit failed)
      if s.tb.slewPolicy && (s.tb.st == .locked || s.tb.st == .slew) then
        let left := s.tb.slewLeft s.now + abMean
        (s2.trimTimebase.modTb fun tb =>
          { tb with st := if left = 0 then .locked else .slew, slewRem := left, slewStart := s.now }).tbApply
      else
        (s2.modTb fun tb => { tb with scale := tb.scale + abMean }).discontinuity s.now 1 abMean

/-! ## Meanings -/

def execEpochMark (at_ : Instant) (s : State) : Host.Outcome State Fault Refusal := .next (s.epochMark at_)
def execReanchor (at_ : Instant) (s : State) : Host.Outcome State Fault Refusal := .next (s.reanchor at_)
def execSwitchOver (at_ : Instant) (m : Int) (s : State) : Host.Outcome State Fault Refusal := .next (s.switchOver at_ m)

end Sys2Proof.Machine
end

