-- ==== Sys2Proof/Machine/Dispatch.lean ====
section
/-! DEFINITION. One arm for each command of the table: its meaning, called by name. -/

namespace Sys2Proof.Machine

/-- The effect of a command on everything but the queue of waiting commands. -/
def exec (i : Instr) (s : State) : Host.Outcome State Fault Refusal :=
  match i with
  | .nop at_ tag => Sys2Proof.Machine.execNop at_ tag s
  | .readTime at_ tag => Sys2Proof.Machine.execReadTime at_ tag s
  | .selectForme at_ tag arg0 => Sys2Proof.Machine.execSelectForme at_ tag arg0 s
  | .arm at_ tag mask => Sys2Proof.Machine.execArm at_ tag mask s
  | .disarm at_ tag mask => Sys2Proof.Machine.execDisarm at_ tag mask s
  | .setPost at_ tag arg0 arg1 => Sys2Proof.Machine.execSetPost at_ tag arg0 arg1 s
  | .release at_ tag arg0 => Sys2Proof.Machine.execRelease at_ tag arg0 s
  | .remap at_ tag arg0 when_ => Sys2Proof.Machine.execRemap at_ tag arg0 when_ s
  | .calibrate at_ tag mask arg3 => Sys2Proof.Machine.execCalibrate at_ tag mask arg3 s
  | .storeCal at_ tag => Sys2Proof.Machine.execStoreCal at_ tag s
  | .throttleAck at_ tag => Sys2Proof.Machine.execThrottleAck at_ tag s
  | .shedExit at_ tag => Sys2Proof.Machine.execShedExit at_ tag s
  | .state at_ tag => Sys2Proof.Machine.execState at_ tag s
  | .challenge at_ tag => Sys2Proof.Machine.execChallenge at_ tag s
  | .respond at_ tag key sig => Sys2Proof.Machine.execRespond at_ tag key sig s
  | .token at_ tag key sig => Sys2Proof.Machine.execToken at_ tag key sig s
  | .advance at_ tag target key cdata => Sys2Proof.Machine.execAdvance at_ tag target key cdata s
  | .diagRead at_ tag arg0 arg1 => Sys2Proof.Machine.execDiagRead at_ tag arg0 arg1 s
  | .diagWrite at_ tag arg0 arg1 data => Sys2Proof.Machine.execDiagWrite at_ tag arg0 arg1 data s
  | .commandComplete => Sys2Proof.Machine.execCommandComplete s
  | .read at_ addr n => Sys2Proof.Machine.execRead at_ addr n s
  | .write at_ addr data dcrc => Sys2Proof.Machine.execWrite at_ addr data dcrc s
  | .frameAbort at_ isWrite addr n => Sys2Proof.Machine.execFrameAbort at_ isWrite addr n s
  | .registerWrite at_ port addr value => Sys2Proof.Machine.execRegisterWrite at_ port addr value s
  | .captureRead at_ addr => Sys2Proof.Machine.execCaptureRead at_ addr s
  | .rcRead at_ addr => Sys2Proof.Machine.execRcRead at_ addr s
  | .ack at_ src => Sys2Proof.Machine.execAck at_ src s
  | .ackAll at_ => Sys2Proof.Machine.execAckAll at_ s
  | .srcCfgWrite at_ src value => Sys2Proof.Machine.execSrcCfgWrite at_ src value s
  | .assert at_ value => Sys2Proof.Machine.execAssert at_ value s
  | .tstOn at_ creact => Sys2Proof.Machine.execTstOn at_ creact s
  | .tstOff at_ => Sys2Proof.Machine.execTstOff at_ s
  | .eccInj at_ value => Sys2Proof.Machine.execEccInj at_ value s
  | .mkProg at_ value => Sys2Proof.Machine.execMkProg at_ value s
  | .ringTail at_ ring value => Sys2Proof.Machine.execRingTail at_ ring value s
  | .ringEnable at_ ring => Sys2Proof.Machine.execRingEnable at_ ring s
  | .ringDisable at_ ring => Sys2Proof.Machine.execRingDisable at_ ring s
  | .bar2Read at_ g flips => Sys2Proof.Machine.execBar2Read at_ g flips s
  | .bar2Write at_ => Sys2Proof.Machine.execBar2Write at_ s
  | .linkDown at_ => Sys2Proof.Machine.execLinkDown at_ s
  | .flr at_ => Sys2Proof.Machine.execFlr at_ s
  | .hotReset at_ => Sys2Proof.Machine.execHotReset at_ s
  | .perstN at_ => Sys2Proof.Machine.execPerstN at_ s
  | .descerr at_ ring => Sys2Proof.Machine.execDescerr at_ ring s
  | .descriptorRead at_ ring desc => Sys2Proof.Machine.execDescriptorRead at_ ring desc s
  | .readPortTransfer port => Sys2Proof.Machine.execReadPortTransfer port s
  | .starved ring => Sys2Proof.Machine.execStarved ring s
  | .syncNop at_ payload frameBreak => Sys2Proof.Machine.execSyncNop at_ payload frameBreak s
  | .syncStep at_ payload frameBreak => Sys2Proof.Machine.execSyncStep at_ payload frameBreak s
  | .syncArm at_ payload frameBreak => Sys2Proof.Machine.execSyncArm at_ payload frameBreak s
  | .syncDisarm at_ payload frameBreak => Sys2Proof.Machine.execSyncDisarm at_ payload frameBreak s
  | .syncTrig at_ payload frameBreak => Sys2Proof.Machine.execSyncTrig at_ payload frameBreak s
  | .syncMark at_ payload frameBreak => Sys2Proof.Machine.execSyncMark at_ payload frameBreak s
  | .epochMark at_ => Sys2Proof.Machine.execEpochMark at_ s
  | .fence => Sys2Proof.Machine.execFence s
  | .acquireQualified => Sys2Proof.Machine.execAcquireQualified s
  | .lockCheck meanErr anchor => Sys2Proof.Machine.execLockCheck meanErr anchor s
  | .lossOfReference byPhase edges => Sys2Proof.Machine.execLossOfReference byPhase edges s
  | .qualifyStart at_ => Sys2Proof.Machine.execQualifyStart at_ s
  | .subWindow freqPpb phaseShift edges nextEdge => Sys2Proof.Machine.execSubWindow freqPpb phaseShift edges nextEdge s
  | .missingEdge last => Sys2Proof.Machine.execMissingEdge last s
  | .reanchor at_ => Sys2Proof.Machine.execReanchor at_ s
  | .slewStart at_ => Sys2Proof.Machine.execSlewStart at_ s
  | .settleWindowEnd meanErr => Sys2Proof.Machine.execSettleWindowEnd meanErr s
  | .slewEnd => Sys2Proof.Machine.execSlewEnd s
  | .loopFault at_ => Sys2Proof.Machine.execLoopFault at_ s
  | .switchOver at_ abMean => Sys2Proof.Machine.execSwitchOver at_ abMean s
  | .standbyLock at_ ab => Sys2Proof.Machine.execStandbyLock at_ s ab
  | .hop at_ k => Sys2Proof.Machine.execHop at_ k s
  | .storedHopRelease k rises => Sys2Proof.Machine.execStoredHopRelease k rises s
  | .fullSearchRelease k rises => Sys2Proof.Machine.execFullSearchRelease k rises s
  | .lockDetectDeadline k bandFound => Sys2Proof.Machine.execLockDetectDeadline k bandFound s
  | .unlock at_ k => Sys2Proof.Machine.execUnlock at_ k s
  | .windowMonitor at_ k count rises => Sys2Proof.Machine.execWindowMonitor at_ k count s rises
  | .rampStart k => Sys2Proof.Machine.execRampStart k s
  | .segmentEnd k => Sys2Proof.Machine.execSegmentEnd k s
  | .synthLock vault lockDetected bandFound => Sys2Proof.Machine.execSynthLock vault lockDetected s bandFound
  | .deckVaultWindow at_ vault count => Sys2Proof.Machine.execDeckVaultWindow at_ vault count s
  | .transition at_ lane level => Sys2Proof.Machine.execTransition at_ lane level s
  | .crossCheck lane followerCode => Sys2Proof.Machine.execCrossCheck lane followerCode s
  | .laneFifoWrite lane => Sys2Proof.Machine.execLaneFifoWrite lane s
  | .lossIntervalClose lane => Sys2Proof.Machine.execLossIntervalClose lane s
  | .mergeRead ch => Sys2Proof.Machine.execMergeRead ch s
  | .mergeResume ch => Sys2Proof.Machine.execMergeResume ch s
  | .folderIntake ch => Sys2Proof.Machine.execFolderIntake ch s
  | .gateClose ch => Sys2Proof.Machine.execGateClose ch s
  | .reductionIntervalClose ch => Sys2Proof.Machine.execReductionIntervalClose ch s
  | .phaseSample ch => Sys2Proof.Machine.execPhaseSample ch s
  | .maskWindowClose ch => Sys2Proof.Machine.execMaskWindowClose ch s
  | .eventPost ch => Sys2Proof.Machine.execEventPost ch s
  | .folderResume ch => Sys2Proof.Machine.execFolderResume ch s
  | .imageReload ch => Sys2Proof.Machine.execImageReload ch s
  | .engineStart ch => Sys2Proof.Machine.execEngineStart ch s
  | .engineNop ch => Sys2Proof.Machine.execEngineNop ch s
  | .add ch d a b => Sys2Proof.Machine.execAdd ch d a b s
  | .sub ch d a b => Sys2Proof.Machine.execSub ch d a b s
  | .and ch d a b => Sys2Proof.Machine.execAnd ch d a b s
  | .or ch d a b => Sys2Proof.Machine.execOr ch d a b s
  | .xor ch d a b => Sys2Proof.Machine.execXor ch d a b s
  | .shl ch d a b => Sys2Proof.Machine.execShl ch d a b s
  | .shr ch d a b => Sys2Proof.Machine.execShr ch d a b s
  | .sar ch d a b => Sys2Proof.Machine.execSar ch d a b s
  | .mul ch d a b => Sys2Proof.Machine.execMul ch d a b s
  | .min ch d a b => Sys2Proof.Machine.execMin ch d a b s
  | .max ch d a b => Sys2Proof.Machine.execMax ch d a b s
  | .minu ch d a b => Sys2Proof.Machine.execMinu ch d a b s
  | .maxu ch d a b => Sys2Proof.Machine.execMaxu ch d a b s
  | .cmp ch a b => Sys2Proof.Machine.execCmp ch a b s
  | .addi ch d a imm => Sys2Proof.Machine.execAddi ch d a imm s
  | .andi ch d a imm => Sys2Proof.Machine.execAndi ch d a imm s
  | .ori ch d a imm => Sys2Proof.Machine.execOri ch d a imm s
  | .xori ch d a imm => Sys2Proof.Machine.execXori ch d a imm s
  | .shli ch d a count => Sys2Proof.Machine.execShli ch d a count s
  | .shri ch d a count => Sys2Proof.Machine.execShri ch d a count s
  | .sari ch d a count => Sys2Proof.Machine.execSari ch d a count s
  | .cmpi ch a imm => Sys2Proof.Machine.execCmpi ch a imm s
  | .movz ch d h imm => Sys2Proof.Machine.execMovz ch d h imm s
  | .movk ch d h imm => Sys2Proof.Machine.execMovk ch d h imm s
  | .csel ch d a b cond => Sys2Proof.Machine.execCsel ch d a b cond s
  | .clz ch d a => Sys2Proof.Machine.execClz ch d a s
  | .aclr ch d => Sys2Proof.Machine.execAclr ch d s
  | .amovs ch d a => Sys2Proof.Machine.execAmovs ch d a s
  | .aaddg ch d a => Sys2Proof.Machine.execAaddg ch d a s
  | .muls ch d a b => Sys2Proof.Machine.execMuls ch d a b s
  | .mulu ch d a b => Sys2Proof.Machine.execMulu ch d a b s
  | .macs ch d a b => Sys2Proof.Machine.execMacs ch d a b s
  | .macu ch d a b => Sys2Proof.Machine.execMacu ch d a b s
  | .aadd ch d a b => Sys2Proof.Machine.execAadd ch d a b s
  | .asub ch d a b => Sys2Proof.Machine.execAsub ch d a b s
  | .ashr ch d a count => Sys2Proof.Machine.execAshr ch d a count s
  | .ashl ch d a count => Sys2Proof.Machine.execAshl ch d a count s
  | .aget ch d a h => Sys2Proof.Machine.execAget ch d a h s
  | .asat ch d a => Sys2Proof.Machine.execAsat ch d a s
  | .anorm ch d a => Sys2Proof.Machine.execAnorm ch d a s
  | .acmp ch a b => Sys2Proof.Machine.execAcmp ch a b s
  | .apack ch d a b => Sys2Proof.Machine.execApack ch d a b s
  | .divu ch d a b => Sys2Proof.Machine.execDivu ch d a b s
  | .divs ch d a b => Sys2Proof.Machine.execDivs ch d a b s
  | .evt ch d => Sys2Proof.Machine.execEvt ch d s
  | .evtWaitEnd ch => Sys2Proof.Machine.execEvtWaitEnd ch s
  | .evtp ch d => Sys2Proof.Machine.execEvtp ch d s
  | .emit ch a => Sys2Proof.Machine.execEmit ch a s
  | .emitwEnd ch => Sys2Proof.Machine.execEmitwEnd ch s
  | .tokenRefill ch => Sys2Proof.Machine.execTokenRefill ch s
  | .trig ch a => Sys2Proof.Machine.execTrig ch a s
  | .ld ch d a off => Sys2Proof.Machine.execLd ch d a off s
  | .st ch d a off => Sys2Proof.Machine.execSt ch d a off s
  | .lda ch d a off => Sys2Proof.Machine.execLda ch d a off s
  | .sta ch d a off => Sys2Proof.Machine.execSta ch d a off s
  | .stop ch => Sys2Proof.Machine.execStop ch s
  | .halt ch => Sys2Proof.Machine.execHalt ch s
  | .gset ch a => Sys2Proof.Machine.execGset ch a s
  | .sysr ch d sel => Sys2Proof.Machine.execSysr ch d sel s
  | .b ch cond off => Sys2Proof.Machine.execB ch cond off s
  | .bl ch off => Sys2Proof.Machine.execBl ch off s
  | .jr ch a => Sys2Proof.Machine.execJr ch a s
  | .runaway ch => Sys2Proof.Machine.execRunaway ch s
  | .closeTo ch => Sys2Proof.Machine.execCloseTo ch s
  | .triggerCondition ch => Sys2Proof.Machine.execTriggerCondition ch s
  | .collectEnd ch => Sys2Proof.Machine.execCollectEnd ch s
  | .holdoffEnd ch => Sys2Proof.Machine.execHoldoffEnd ch s
  | .handOver ch => Sys2Proof.Machine.execHandOver ch s
  | .heldRearm ch => Sys2Proof.Machine.execHeldRearm ch s
  | .formeRearm ch => Sys2Proof.Machine.execFormeRearm ch s
  | .flush pier => Sys2Proof.Machine.execFlush pier s
  | .vaultCommand q blocked => Sys2Proof.Machine.execVaultCommand q blocked s
  | .readDataReturn id flips0 flips1 => Sys2Proof.Machine.execReadDataReturn id flips0 flips1 s
  | .capar at_ q => Sys2Proof.Machine.execCapar at_ q s
  | .promotion id => Sys2Proof.Machine.execPromotion id s
  | .rowIdleClose q bank => Sys2Proof.Machine.execRowIdleClose q bank s
  | .refreshCeiling q => Sys2Proof.Machine.execRefreshCeiling q s
  | .nrrWindowEnd q => Sys2Proof.Machine.execNrrWindowEnd q s
  | .temperatureReading at_ reading => Sys2Proof.Machine.execTemperatureReading at_ reading s
  | .selfRefreshEntry => Sys2Proof.Machine.execSelfRefreshEntry s
  | .selfRefreshEntered => Sys2Proof.Machine.execSelfRefreshEntered s
  | .selfRefreshExit => Sys2Proof.Machine.execSelfRefreshExit s
  | .selfRefreshExitDone => Sys2Proof.Machine.execSelfRefreshExitDone s
  | .scrubRead q => Sys2Proof.Machine.execScrubRead q s
  | .trainingEnd lanes passed => Sys2Proof.Machine.execTrainingEnd lanes passed s
  | .quickRestoreEnd verified => Sys2Proof.Machine.execQuickRestoreEnd verified s
  | .stackInitEnd => Sys2Proof.Machine.execStackInitEnd s
  | .acquisitionEnd ch cells agreeH agreeL => Sys2Proof.Machine.execAcquisitionEnd ch cells agreeH agreeL s
  | .deskewPhase ch => Sys2Proof.Machine.execDeskewPhase ch s
  | .trimWindowEnd ch edgesH edgesL => Sys2Proof.Machine.execTrimWindowEnd ch edgesH edgesL s
  | .eraseDone blank => Sys2Proof.Machine.execEraseDone blank s
  | .pageProgramDone verified => Sys2Proof.Machine.execPageProgramDone verified s
  | .formeReread => Sys2Proof.Machine.execFormeReread s
  | .auth => Sys2Proof.Machine.execAuth s
  | .image => Sys2Proof.Machine.execImage s
  | .cal => Sys2Proof.Machine.execCal s
  | .admission => Sys2Proof.Machine.execAdmission s
  | .clocks => Sys2Proof.Machine.execClocks s
  | .clocksLocked => Sys2Proof.Machine.execClocksLocked s
  | .train => Sys2Proof.Machine.execTrain s
  | .init => Sys2Proof.Machine.execInit s
  | .dist => Sys2Proof.Machine.execDist s
  | .trim => Sys2Proof.Machine.execTrim s
  | .runReady => Sys2Proof.Machine.execRunReady s
  | .powerOn at_ => Sys2Proof.Machine.execPowerOn at_ s
  | .resetNLow at_ => Sys2Proof.Machine.execResetNLow at_ s
  | .railBelowReset at_ rail => Sys2Proof.Machine.execRailBelowReset at_ rail s
  | .resetRelease at_ flash nvmv order => Sys2Proof.Machine.execResetRelease at_ flash nvmv order s
  | .dipStart at_ rail => Sys2Proof.Machine.execDipStart at_ rail s
  | .dipEnd at_ => Sys2Proof.Machine.execDipEnd at_ s
  | .long => Sys2Proof.Machine.execLong s
  | .ov at_ rail => Sys2Proof.Machine.execOv at_ rail s
  | .powerGoodCheck d good => Sys2Proof.Machine.execPowerGoodCheck d good s
  | .domainOn d => Sys2Proof.Machine.execDomainOn d s
  | .domainOff d => Sys2Proof.Machine.execDomainOff d s
  | .trussEvent upset => Sys2Proof.Machine.execTrussEvent s upset
  | .escalation src => Sys2Proof.Machine.execEscalation src s
  | .trapAction src => Sys2Proof.Machine.execTrapAction src s
  | .aliveToggle => Sys2Proof.Machine.execAliveToggle s
  | .sensorSample at_ k reading => Sys2Proof.Machine.execSensorSample at_ k reading s
  | .bandEvaluation at_ => Sys2Proof.Machine.execBandEvaluation at_ s
  | .rateEvaluation at_ k => Sys2Proof.Machine.execRateEvaluation at_ k s
  | .graceExpiry => Sys2Proof.Machine.execGraceExpiry s
  | .shedTo ch => Sys2Proof.Machine.execShedTo ch s
  | .cut at_ => Sys2Proof.Machine.execCut at_ s
  | .fuseWordDone verified => Sys2Proof.Machine.execFuseWordDone verified s
  | .reservedSyncWord at_ type payload frameBreak => Sys2Proof.Machine.execReservedSyncWord at_ type payload frameBreak s
  | .headerRejected at_ bytes => Sys2Proof.Machine.execHeaderRejected at_ bytes s
  | .linkTrained at_ speed width => Sys2Proof.Machine.execLinkTrained at_ speed width s
  | .aerError at_ uncorrectable => Sys2Proof.Machine.execAerError at_ uncorrectable s
  | .configurationRequest at_ => Sys2Proof.Machine.execConfigurationRequest at_ s
  | .firmwareWatchdogExpiry at_ => Sys2Proof.Machine.execFirmwareWatchdogExpiry at_ s
  | .stallPulse => Sys2Proof.Machine.execStallPulse s
  | .standbyLoopFault at_ => Sys2Proof.Machine.execStandbyLoopFault at_ s
  | .refinLossInAcquire at_ absent => Sys2Proof.Machine.execRefinLossInAcquire at_ absent s

end Sys2Proof.Machine
end

