-- ==== Sys2Proof/Safety.lean ====
section
/-! DEFINITION. The vocabulary of the claims: what a state must satisfy, what a command may change, and the results of the
engine's instructions in terms of numbers. -/

namespace Sys2Proof.Safety

open Sys2Proof.Machine

/-! ## Whole states -/

/-- The galley bytes, the stored check bits and the fuses are in their canonical form. -/
def StoreOk (s : State) : Prop := Memory.wf s.mem ∧ Sparse 0 s.chk ∧ Sparse 0 s.lcy.fuses

/-- Every fuse bit that is set in `s` is set in `t` (R634). -/
def FusesKept (s t : State) : Prop :=
  ∀ i b : Nat, (sget 0 s.lcy.fuses i).getLsbD b = true → (sget 0 t.lcy.fuses i).getLsbD b = true

/-- Every galley byte, and every stored check word, reads in `t` as in `s`. -/
def GalleySame (s t : State) : Prop := (∀ a, t.byte a = s.byte a) ∧ ∀ g, sget 0 t.chk g = sget 0 s.chk g

/-- A condition of source `n` with these causes is on its way to its recognition edge (R576). -/
def Reported (t : State) (n : Nat) (causes : Byte) : Prop :=
  ∃ r ∈ t.truss.incoming, r.src.val = n ∧ r.causes &&& causes = causes

/-! ## Frames -/

/-- Nothing changes but the time axis and channel `c`. -/
structure OnlyChan (s t : State) (c : Chan) : Prop where
  whole : t = { s with now := t.now, chans := t.chans }
  others : ∀ d, d ≠ c → t.chan d = s.chan d

/-- Nothing changes but the time axis, channel `c` and the conditions on their way to the truss. -/
structure OnlyChanT (s t : State) (c : Chan) : Prop where
  whole : t = { s with now := t.now, chans := t.chans, truss := { s.truss with incoming := t.truss.incoming } }
  others : ∀ d, d ≠ c → t.chan d = s.chan d

/-! ## The engine (05_compositor.md, 06_compositor_instructions.md) -/

/-- The engine of channel `c` is on instruction `i`: it runs, the word at PC has no uncorrectable error and decodes to
`i`, and no watchdog expires within the `k` dc that the instruction takes. -/
structure EngReady (s : State) (c : Chan) (i : Instr) (k : Nat) : Prop where
  on : s.chOn c = true
  run : (s.chan c).eng.st = .run
  own : (s.chan c).eng.lib = none
  clean : (s.chan c).eng.imemErr.lookup (s.chan c).eng.pc.toNat ≠ some true
  word : decodeEng c (sget 0 (s.chan c).eng.imem (s.chan c).eng.pc.toNat) = some i
  uncut : (s.chan c).cutBefore ((s.chan c).eng.readyDc + k) = false

/-- IMEM's count of corrected errors after the fetch of the word at PC (R192). -/
def fetchCount (e : Engine) : BitVec 16 :=
  if (e.imemErr.lookup e.pc.toNat).isSome then satAdd e.imemCorr 1 else e.imemCorr

/-- The engine of channel `c` has executed an instruction of `k` dc that may write the general registers `d`, the
accumulators `a`, the flags and DMEM, and goes on at `next`; nothing else of the machine has changed. -/
structure EngMovedD (s t : State) (c : Chan) (k : Nat) (next : BitVec 12) (d : List (BitVec 4)) (a : List (BitVec 3)) :
    Prop where
  now : t.now = max s.now (s.dcAt (s.chan c).eng.readyDc)
  only : OnlyChan s t c
  chan : t.chan c = { s.chan c with eng := (t.chan c).eng }
  eng : (t.chan c).eng = { (s.chan c).eng with
    g := (t.chan c).eng.g, a := (t.chan c).eng.a, fl := (t.chan c).eng.fl, pcRun := (s.chan c).eng.pc, pc := next
    readyDc := (s.chan c).eng.readyDc + k, imemCorr := fetchCount (s.chan c).eng, dmem := (t.chan c).eng.dmem
    dmemErr := (t.chan c).eng.dmemErr, dmemCorr := (t.chan c).eng.dmemCorr }
  regs : ∀ i, i ∉ d → (t.chan c).eng.gr i = (s.chan c).eng.gr i
  accs : ∀ i, i ∉ a → (t.chan c).eng.ar i = (s.chan c).eng.ar i

/-- DMEM, its soft errors and their count are unchanged. -/
def DmemSame (s t : State) (c : Chan) : Prop :=
  (t.chan c).eng.dmem = (s.chan c).eng.dmem ∧ (t.chan c).eng.dmemErr = (s.chan c).eng.dmemErr ∧
    (t.chan c).eng.dmemCorr = (s.chan c).eng.dmemCorr

/-- As `EngMovedD`, for an instruction that does not touch DMEM. -/
def EngMoved (s t : State) (c : Chan) (k : Nat) (next : BitVec 12) (d : List (BitVec 4)) (a : List (BitVec 3)) : Prop :=
  EngMovedD s t c k next d a ∧ DmemSame s t c

/-- Instruction `i` of `k` dc completes with `v` in G[d] (discarded where d is 0, R216) and the flags `f`. -/
def GivesG (c : Chan) (i : Instr) (k : Nat) (d : BitVec 4) (v : Engine → Dword) (f : Engine → EngFlags) : Prop :=
  ∀ s, EngReady s c i k → ∃ t, exec i s = .next t ∧ EngMoved s t c k ((s.chan c).eng.pc + 1) [d] [] ∧
    (t.chan c).eng.gr d = (if d = 0 then 0 else v (s.chan c).eng) ∧ (t.chan c).eng.fl = f (s.chan c).eng

/-- Instruction `i` of `k` dc completes with `v` in A[d] and the flags `f`. -/
def GivesA (c : Chan) (i : Instr) (k : Nat) (d : BitVec 3) (v : Engine → Qword) (f : Engine → EngFlags) : Prop :=
  ∀ s, EngReady s c i k → ∃ t, exec i s = .next t ∧ EngMoved s t c k ((s.chan c).eng.pc + 1) [] [d] ∧
    (t.chan c).eng.ar d = v (s.chan c).eng ∧ (t.chan c).eng.fl = f (s.chan c).eng

/-- Instruction `i` of `k` dc completes with the flags `f` and writes no register. -/
def GivesF (c : Chan) (i : Instr) (k : Nat) (f : Engine → EngFlags) : Prop :=
  ∀ s, EngReady s c i k → ∃ t, exec i s = .next t ∧ EngMoved s t c k ((s.chan c).eng.pc + 1) [] [] ∧
    (t.chan c).eng.fl = f (s.chan c).eng

/-- Z and N of an `n`-bit result, C and V kept (R219). -/
def flagsZN {n : Nat} (r : BitVec n) (old : EngFlags) : EngFlags :=
  { z := decide (r.toNat = 0), n := decide (2 ^ (n - 1) ≤ r.toNat), c := old.c, v := old.v }

/-- Flags of the sum of two numbers (R219): C when the unsigned sum needs more than `n` bits, V when the signed one
does. -/
def flagsSum {n : Nat} (x y : BitVec n) : EngFlags :=
  let r := (x.toNat + y.toNat) % 2 ^ n
  { z := decide (r = 0), n := decide (2 ^ (n - 1) ≤ r), c := decide (2 ^ n ≤ x.toNat + y.toNat)
    v := decide (¬(-(2 ^ (n - 1) : Int) ≤ x.toInt + y.toInt ∧ x.toInt + y.toInt < 2 ^ (n - 1))) }

/-- Flags of the difference (R219): C is the borrow. -/
def flagsDiff {n : Nat} (x y : BitVec n) : EngFlags :=
  let r := (x.toNat + (2 ^ n - y.toNat)) % 2 ^ n
  { z := decide (r = 0), n := decide (2 ^ (n - 1) ≤ r), c := decide (x.toNat < y.toNat)
    v := decide (¬(-(2 ^ (n - 1) : Int) ≤ x.toInt - y.toInt ∧ x.toInt - y.toInt < 2 ^ (n - 1))) }

/-- The bit of a number at a place. -/
def bitOf (x k : Nat) : Bool := decide (x / 2 ^ k % 2 = 1)

/-- Flags of a shift (R219, R222): C is the last bit shifted out, 0 where the count is 0 or beyond the width. -/
def flagsLeft {n : Nat} (x r : BitVec n) (k : Nat) (old : EngFlags) : EngFlags :=
  { flagsZN r old with c := decide (1 ≤ k ∧ k ≤ n) && bitOf x.toNat (n - k) }
def flagsRight {n : Nat} (x r : BitVec n) (k : Nat) (old : EngFlags) : EngFlags :=
  { flagsZN r old with c := decide (1 ≤ k ∧ k ≤ n) && bitOf x.toNat (k - 1) }

/-- Shifts as numbers: times, and divided toward minus infinity by, a power of two. -/
def numShl {n : Nat} (x : BitVec n) (k : Nat) : BitVec n := BitVec.ofNat n (x.toNat * 2 ^ k)
def numShr {n : Nat} (x : BitVec n) (k : Nat) : BitVec n := BitVec.ofNat n (x.toNat / 2 ^ k)
def numSar {n : Nat} (x : BitVec n) (k : Nat) : BitVec n := BitVec.ofInt n (x.toInt / 2 ^ k)

/-- The larger and the smaller of two numbers by a key. -/
def lower (f : Dword → Int) (x y : Dword) : Dword := if f x ≤ f y then x else y
def upper (f : Dword → Int) (x y : Dword) : Dword := if f x ≤ f y then y else x

/-- Leading zero bits of a 64-bit number. -/
def leadZeros (x : Dword) : Nat := if x.toNat = 0 then 64 else 63 - Nat.log2 x.toNat

/-- The 64-bit data address Ga + s18 (R226). -/
def dataAddr (e : Engine) (a : BitVec 4) (off : BitVec 18) : Nat := (BitVec.ofInt 64 ((e.gr a).toInt + off.toInt)).toNat

/-- The word at a data address that a load may read: DMEM, or a summary bank. -/
def dataAt (x : Channel) (n : Nat) : Dword :=
  if n < 0x400 then sget 0 x.eng.dmem n else (x.banks.getD ((n - 0x800) / 0x100) Bank.reset).words.getD (n % 0x100) 0

/-- A load may read the address: DMEM words without an uncorrectable error, summary banks. -/
def Loadable (e : Engine) (n : Nat) : Prop :=
  (n < 0x400 ∧ e.dmemErr.lookup n ≠ some true) ∨ (0x800 ≤ n ∧ n < 0xC00)

/-- Words among `l` whose read corrects an error. -/
def corrected (e : Engine) (l : List Nat) : Nat := (l.filter fun n => n < 0x400 && e.dmemErr.lookup n == some false).length

/-- The engine of channel `c` has faulted with `code` in the dc it was to start in, with its registers and flags as they
were; the channel is disarmed and cause ENG_FAULT of its source is on its way (R205, R238). -/
structure EngFaulted (s t : State) (c : Chan) (code : BitVec 4) : Prop where
  st : (t.chan c).eng.st = .fault
  code : (t.chan c).eng.faultCode = code
  pc : (t.chan c).eng.faultPc = (s.chan c).eng.pc
  queue : (t.chan c).eng.queue = []
  g : (t.chan c).eng.g = (s.chan c).eng.g
  a : (t.chan c).eng.a = (s.chan c).eng.a
  fl : (t.chan c).eng.fl = (s.chan c).eng.fl
  dmem : (t.chan c).eng.dmem = (s.chan c).eng.dmem
  armed : (t.chan c).armed = false
  told : Reported t c.val 0x08
  others : ∀ d, d ≠ c → (t.chan d).eng = (s.chan d).eng

/-- The general registers after an event `v` has been written to G[d], G[d + 1] and G[d + 2] (R227). -/
def eventRegs (e : Engine) (d : BitVec 4) (v : Ev) (i : BitVec 4) : Dword :=
  if i = 0 then 0 else if i = d then v.type ++ v.head else if i = d + 1 then stamp64 v.time
  else if i = d + 2 then v.val else e.gr i

/-- The word that the writer makes of an EMIT word: KIND RESULT or USER as it stands, any other as USER (R330). -/
def emitted (w : Qword) : Qword :=
  if w.toNat / 2 ^ 108 = 0xFFFF2 ∨ w.toNat / 2 ^ 108 = 0xFFFFF then w
  else BitVec.ofNat 128 (0xFFFFF * 2 ^ 108 + w.toNat % 2 ^ 108)

/-- An EMIT in dc `n` has passed `w` to the output queue of a channel whose record is open (R200): the word is written
unless the ring is full behind the trigger word (R294). With no record open nothing is passed. -/
def Passed (x y : Channel) (n : Nat) (w : Qword) : Prop :=
  if x.rcd.isOpen then
    ∃ o, y.outq = x.outq ++ [o] ∧ o.emit = true ∧ o.dc = n ∧
      (if x.rcd.fs = .fill ∧ x.rcd.tw = some x.rcd.wp then o.g = none ∧ o.word = w
       else o.g = some (x.rcd.base + 8 + x.rcd.wp) ∧ o.word = emitted w)
  else y.outq = x.outq

/-- Table 6.6: what SYSR reads in dc `n`; the selectors above 8 are undefined. -/
def sysReg (s : State) (c : Chan) (n sel : Nat) : Dword :=
  let e := (s.chan c).eng
  match sel with
  | 0 => BitVec.ofNat 64 c.val
  | 1 => BitVec.ofNat 64 (c.val / 12)
  | 2 => BitVec.ofNat 64 ((s.chan c).forme.getD 0)
  | 3 => BitVec.ofNat 64 (if e.spanOpen then e.spanRec.toNat else 0)
  | 4 => BitVec.ofInt 64 (s.streamTime c n)
  | 5 => BitVec.ofNat 64 (n - e.startDc)
  | 6 => BitVec.ofNat 64 e.queue.length
  | 7 => BitVec.ofNat 64 e.tokens
  | _ => BitVec.ofInt 64 e.spanSteps

/-! ## The command mailbox (16_management_port.md) -/

/-- Tables 16.3 and 16.4: a command row as the host writes it: its instant, TAG, opcode, argument words, words of MSP.BUF,
and the mc from issue to completion (none: when the vault has answered). -/
structure HostCmd where
  at_ : Instant
  tag : Byte
  opc : Byte
  arg : List Word
  buf : List Word
  after : Option Nat

/-- A channel mask in three words, bit n channel n (R555). -/
def maskArg (m : BitVec 96) : List Word := [m.extractLsb' 0 32, m.extractLsb' 32 32, m.extractLsb' 64 32]

/-- The mailbox rows. -/
def hostCmd : Instr → Option HostCmd
  | .nop a g => some ⟨a, g, 0x00, [], [], some 32⟩
  | .readTime a g => some ⟨a, g, 0x01, [], [], some 64⟩
  | .selectForme a g w => some ⟨a, g, 0x10, [w], [], some 4096⟩
  | .arm a g m => some ⟨a, g, 0x11, maskArg m, [], some 512⟩
  | .disarm a g m => some ⟨a, g, 0x12, maskArg m, [], some 512⟩
  | .setPost a g v w => some ⟨a, g, 0x13, [v, w], [], some 256⟩
  | .release a g w => some ⟨a, g, 0x14, [w], [], some 256⟩
  | .remap a g w when_ => some ⟨a, g, 0x15, [w, lo32 when_, hi32 when_], [], some 512⟩
  | .calibrate a g m w => some ⟨a, g, 0x20, maskArg m ++ [w], [], some 256⟩
  | .storeCal a g => some ⟨a, g, 0x21, [], [], some 256⟩
  | .throttleAck a g => some ⟨a, g, 0x30, [], [], some 64⟩
  | .shedExit a g => some ⟨a, g, 0x31, [], [], some 256⟩
  | .state a g => some ⟨a, g, 0x40, [0], [], some 64⟩
  | .challenge a g => some ⟨a, g, 0x40, [1], [], some 2048⟩
  | .respond a g k v => some ⟨a, g, 0x40, [2], wordsLE 32 (octets 64 k ++ octets 64 v), some 250000⟩
  | .advance a g n k d =>
    some ⟨a, g, 0x40, [BitVec.ofNat 32 (n.toNat * 256 + 3)], wordsLE 24 (octets 64 k ++ octets 32 d), some 500000⟩
  | .token a g k v => some ⟨a, g, 0x40, [4], wordsLE 32 (octets 64 k ++ octets 64 v), some 250000⟩
  | .diagRead a g v w => some ⟨a, g, 0x50, [v, w], [], none⟩
  | .diagWrite a g v w l => some ⟨a, g, 0x51, [v, w], qwordsBuf l, none⟩
  | _ => none

/-- The management port serves frames: the mode is not RESET and no thermal shutdown has ended the service (R548, R624). -/
def Served (s : State) : Prop := s.pwr.mode ≠ .reset ∧ s.thm.shutdown = none

/-- Word `j` of the arguments and of the buffer as a command latches them (R549): what the host wrote, else zero and else
what the buffer held. -/
def ArgLatched (c : Cmd) (arg : List Word) : Prop := ∀ j, j < 8 → c.arg.getD j 0 = arg.getD j 0
def BufLatched (s : State) (c : Cmd) (buf : List Word) : Prop :=
  ∀ j : Nat, (h : j < 64) → c.buf.getD j 0 = buf.getD j (s.msp.buf[j])

/-- Command `c` is in progress and reaches its completion edge, mc `m`, with nothing to wait for. -/
structure CmdDue (s : State) (c : Cmd) (m : Nat) : Prop where
  cmd : s.msp.cmd = some c
  due : c.doneAt = some m
  fresh : c.outcome = none
  fused : s.lcy.seq = none
  mode : s.pwr.mode ≠ .reset

/-- Word `i` of a mailbox register with nothing written is zero. -/
def respOf (t : State) (i : Nat) : Word := t.msp.resp.toList.getD i 0

/-- The command has completed with a code and these words of RESP, the others zero (R550); MSP.BUF is as it was, and
CMD_DONE, with CMD_FAIL for a code of 0x10 or above, is on its way to source 232. -/
structure Answered (s t : State) (code : Byte) (resp : List Word) : Prop where
  busy : t.msp.busy = false
  done : t.msp.done = true
  answer : t.msp.code = code
  gone : t.msp.cmd = none
  resp : ∀ i, i < 8 → respOf t i = resp.getD i 0
  buf : t.msp.buf = s.msp.buf
  told : Reported t 232 (if 0x10 ≤ code.toNat then 0x18 else 0x08)

/-- Nothing changes but the time axis, the mailbox, the free-value counter and the conditions on their way to the truss. -/
def OnlyMailbox (s t : State) : Prop :=
  t = { s with now := t.now, msp := t.msp, free := t.free, truss := { s.truss with incoming := t.truss.incoming } }

/-! ## The management port -/

/-- The bytes that the device sends from the start byte on (R541, R545, Table 16.1). -/
def answerBytes (status : Byte) (data : List Byte) : List Byte := 0xA5 :: status :: (data ++ [crc8 (status :: data)])

/-- The instant at which the first word of a frame is accessed: three mc through the crossing, and its word time
(Table 20.12, R672). -/
def firstWord (s : State) (at_ : Instant) (addr : Nat) : Instant :=
  s.clocks.mgmt.next (max s.now at_ + 25600) + 3 * s.clocks.mgmt.period + wordTime (blockOf addr).1 * s.clocks.mgmt.period

/-- The instant up to which the first word of a READ shows its unit: 400 ps before its access for a block outside MGMT
(R7, Table 20.13). -/
def firstSample (s : State) (at_ : Instant) (addr : Nat) : Instant :=
  max (s.clocks.mgmt.next (max s.now at_ + 25600) + 3 * s.clocks.mgmt.period) (sampleAt addr (firstWord s at_ addr))

/-- The address of offset `off` in the block of channel `c` (Table 16.5). -/
def chanAddr (c : Chan) (off : Nat) : Word := BitVec.ofNat 32 (0x100000 + 0x10000 * c.val + off)

/-- The access has ended with a STATUS: MSP.STAT.LAST holds it; the mailbox, the arguments and the buffer stand. -/
structure EndedWith (s t : State) (status : Byte) : Prop where
  last : t.msp.last = status
  cmd : t.msp.cmd = s.msp.cmd
  arg : t.msp.arg = s.msp.arg
  buf : t.msp.buf = s.msp.buf

/-! ## The vault -/

/-- Pseudo-channel `q` of a running vault has one request in its table, `r`, for which vc `v` is the first that can serve
it; no refresh is forced or due by then, and no test facility acts. -/
structure VaultTurn (s : State) (q : Pch) (r : Req) (v : Nat) : Prop where
  run : s.vlt.st = .run
  awake : s.vlt.srEntry = none ∧ s.vlt.srExit = none
  only : s.vlt.reqs = [r]
  mine : r.pc = q.val ∧ r.presented = true ∧ r.issued = false ∧ r.bank < 16 ∧ r.kind ≠ .nrr
  scrub : r.kind = .scrub → r.port = 12
  plain : s.tst.on = false
  calm : ∀ u, u = s.vc (s.clocks.vault.next s.now) ∨ u = v → s.debtAt (s.pch q) u < 4 * s.vlt.interval
  unforced : (s.pch q).owed = 0 ∧ (s.pch q).insert = false
  later : ∀ f, s.dueAt q (s.vc (s.clocks.vault.next s.now)) = some f → v < f
  rows : (s.pch q).rows.length = 16
  at_ : v = max (max (s.vc (s.clocks.vault.next s.now)) (max r.accepted ((s.pch q).bankTo.getD r.bank 0))) (s.pch q).busyTo

/-- The newest command of the pseudo-channel's history: command `cmd` at vc `v` (Table 12.4). -/
def Logged (t : State) (q : Pch) (v : Nat) (cmd : BitVec 4) : Prop :=
  ∃ h, (t.pch q).hist.head? = some h ∧ h.cmd = cmd ∧ h.vct = BitVec.ofNat 16 v

/-- The freeze of the vault (R435, R513): its state, the mode, and every channel disarmed. -/
structure Froze (s t : State) : Prop where
  st : t.vlt.st = .frozen
  mode : t.pwr.mode = .freeze
  disarmed : ∀ c, (t.chan c).armed = false
  mem : t.mem = s.mem ∧ t.chk = s.chk

/-! ## SYNC, placement, timebase -/

/-- The SYNC rows: instant of the completing edge, TYPE, payload with CRC, and whether the frame is broken. -/
def syncRow : Instr → Option (Instant × BitVec 4 × BitVec 28 × Bool)
  | .syncNop a p b => some (a, 0, p, b)
  | .syncStep a p b => some (a, 1, p, b)
  | .syncArm a p b => some (a, 2, p, b)
  | .syncDisarm a p b => some (a, 3, p, b)
  | .syncTrig a p b => some (a, 4, p, b)
  | .syncMark a p b => some (a, 5, p, b)
  | .reservedSyncWord a n p b => some (a, BitVec.ofNat 4 (6 + n.val), p, b)
  | _ => none

/-- The CRC of a SYNC word: that of its first three bytes is the fourth (R665). -/
def SyncCrc (type : BitVec 4) (p : BitVec 28) : Prop :=
  let w : Word := type ++ p
  crc8 [w.extractLsb' 24 8, w.extractLsb' 16 8, w.extractLsb' 8 8] = w.extractLsb' 0 8

/-- Payload bits that a TYPE does not use are zero; TYPE 6 to 15 have no use (Table 20.12, R668). -/
def SyncUsed (type : BitVec 4) (p : BitVec 28) : Prop :=
  (type = 0 ∨ type = 5) ∧ p.extractLsb' 8 20 = 0 ∨ type = 1 ∧ p.extractLsb' 16 12 = 0 ∨ type = 2 ∨ type = 3 ∨
    type = 4 ∧ p.extractLsb' 8 12 = 0

/-- Channel `c` is named by a payload: its pier in bits 27 to 20, its place in bits 19 to 8. -/
def Named (p : BitVec 28) (c : Chan) : Prop :=
  p.getLsbD (20 + c.val / 12) = true ∧ p.getLsbD (8 + c.val % 12) = true

/-- The channel's stream has an armed instant before `t` and no disarm instant before it. -/
def Covered (s : State) (c : Chan) (t : Instant) : Prop := s.chOn c = true ∧ (s.chan c).armedThrough t = true

/-- No channel is armed at `t` or later, and no arm or disarm instant lies less than a span cycle before `t`. -/
def Quiet (s : State) (t : Instant) : Prop :=
  ∀ c, (s.chan c).armAt + 51200 ≤ t ∧
    ∀ d ∈ (s.chan c).disarmAt.toList ++ (s.chan c).disarmNext.toList, d + 51200 ≤ t ∨ t ≤ d

/-- A discontinuity record of this cause and step, at the present instant on the scale now in force, has been put into
the stream of every covered channel, and DISC reported, for a mark only where some channel is covered (R110, R128). -/
def DiscIssued (s t : State) (cause : BitVec 3) (step : Int) : Prop :=
  ((cause ≠ 2 ∨ ∃ c, Covered s c t.now) → Reported t 153 0x40) ∧
  ∀ c, (Covered s c t.now → ∃ r, (t.chan c).merge.ins = (s.chan c).merge.ins ++ [r] ∧ r.fence = false ∧ r.cause = cause ∧
      r.step = step ∧ r.inst = t.now / 25 ∧ r.time = t.stamp t.now) ∧
    (¬Covered s c t.now → (t.chan c).merge.ins = (s.chan c).merge.ins)

/-- Both generators of the timebase hold the low bits of SEED (R100). -/
def Seeded (s t : State) : Prop := t.tb.lfsrA = s.tb.seed.setWidth 24 ∧ t.tb.lfsrB = s.tb.seed.setWidth 24

/-- Nothing changes but the time axis, the timebase and the conditions on their way to the truss. -/
def OnlyTimebase (s t : State) : Prop :=
  t = { s with now := t.now, tb := t.tb, truss := { s.truss with incoming := t.truss.incoming } }

/-! ## Synthesizers (04_sweep_synthesizers.md) -/

/-- Nothing changes but the time axis, synthesizer `k`, the free-value counter and the conditions on their way to the
truss. -/
structure OnlySynth (s t : State) (k : Synth) : Prop where
  whole : t = { s with now := t.now, synths := t.synths, free := t.free,
                       truss := { s.truss with incoming := t.truss.incoming } }
  others : ∀ j, j ≠ k → t.synth j = s.synth j

/-- Nothing changes but the time axis, the DECK clock, synthesizer `k` and the conditions on their way to the truss. -/
structure OnlyLoop (s t : State) (k : Synth) : Prop where
  whole : t = { s with now := t.now, clocks := { s.clocks with deck := t.clocks.deck }, synths := t.synths,
                       truss := { s.truss with incoming := t.truss.incoming } }
  others : ∀ j, j ≠ k → t.synth j = s.synth j

/-- DECK or VAULT has moved at `t.now` to a clock with the edges of `new`: its count goes on, and its next edge is the first
edge of `new` from then on at least one new period after the falling edge, half a period into the old clock's cycle (R148, R161). -/
def MovedTo (s t : State) (v : Bool) (new : Clock) : Prop :=
  let c := s.domClk v
  let n := c.no t.now
  (t.domClk v).period = new.period ∧ t.domClk (!v) = s.domClk (!v) ∧
    (c.period ≠ new.period → (t.domClk v).edge (n + 1) =
      new.next (max t.now (c.edge n + c.period / 2 + new.period))) ∧
    (c.period = new.period → t.domClk v = c)

/-- Entry `i` of the store holds a word; the forme names it. -/
def HoldsWord (x : SynthSt) (i : Nat) (odiv : BitVec 4) (nint : BitVec 7) (nfrac : BitVec 24) : Prop :=
  i < 64 ∧ (x.entryAt i).odiv = odiv ∧ (x.entryAt i).nint = nint ∧ (x.entryAt i).nfrac = nfrac

/-- A hop has begun at `e`: the output is in its hold state, the loop open, the hop counted (R147). -/
structure HopBegun (x y : SynthSt) (h : HopSt) (e : Instant) : Prop where
  hop : y.hop = some h
  start : h.start = e
  fresh : h.fellBack = false
  st : y.st = if h.full then .search else .hop
  out : y.out = if x.holdMode then .holdDiv else .parkLow
  fall : y.fall = x.endFall e
  lock : y.lock = false ∧ y.spread = false
  hops : y.hops = satAdd x.hops 1
  searches : y.searches = if h.full then satAdd x.searches 1 else x.searches

/-- The output has been released with the word of the hop in force, its first edge not before the release or the end of the hold
state's last cycle; the guard has held the edges that came too early (R148, R149, R153). -/
structure HopReleased (x y : SynthSt) (h : HopSt) (rises : List Instant) : Prop where
  word : y.odiv = h.odiv ∧ y.nint = h.nint ∧ y.nfrac = h.nfrac
  hop : y.hop = none
  out : y.out = .clock
  lock : y.lock = true
  st : y.st = if x.rampOn then .ramp else .run
  counts : y.hops = x.hops ∧ y.searches = x.searches
  guards : y.guards = satAdd x.guards (x.heldEdges rises)
  edge : max h.releaseAt (x.endFall h.releaseAt) ≤ y.rise ∧ y.fall = x.endFall h.releaseAt

/-! ## Trim and its store (13_trim.md) -/

/-- The means of the differences PONG - PING is within a step, and their rms within 1 ps (Table 13.2). -/
def Agree (l : List Int) : Prop :=
  l.sum.natAbs ≤ l.length ∧ (l.map fun d => d.natAbs * d.natAbs).sum * 390625 * 390625 ≤ l.length * 1000000000000

/-- The check of Table 13.2 that fails first, 0 when every one passes. -/
inductive FirstFailure (fs : List Figures) (agH agL : List Int) : BitVec 4 → Prop where
  | hits (h : ∃ f ∈ fs, f.hits < 200000) : FirstFailure fs agH agL 1
  | span (g : ∀ f ∈ fs, 200000 ≤ f.hits) (h : ∃ f ∈ fs, f.span < 784000000 ∨ 816000000 < f.span) :
      FirstFailure fs agH agL 2
  | mono (g : ∀ f ∈ fs, 200000 ≤ f.hits ∧ 784000000 ≤ f.span ∧ f.span ≤ 816000000) (h : ∃ f ∈ fs, f.mono = true) :
      FirstFailure fs agH agL 4
  | dnl (g : ∀ f ∈ fs, 200000 ≤ f.hits ∧ 784000000 ≤ f.span ∧ f.span ≤ 816000000 ∧ f.mono = false)
      (h : ∃ f ∈ fs, 3 * 390625 ≤ 5 * f.dnl) : FirstFailure fs agH agL 3
  | agree (g : ∀ f ∈ fs, 200000 ≤ f.hits ∧ 784000000 ≤ f.span ∧ f.span ≤ 816000000 ∧ f.mono = false ∧
      5 * f.dnl < 3 * 390625) (h : ¬(Agree agH ∧ Agree agL)) : FirstFailure fs agH agL 5
  | none (g : ∀ f ∈ fs, 200000 ≤ f.hits ∧ 784000000 ≤ f.span ∧ f.span ≤ 816000000 ∧ f.mono = false ∧
      5 * f.dnl < 3 * 390625) (h : Agree agH ∧ Agree agL) : FirstFailure fs agH agL 0

/-- The mask selects `k` of the cells, and none that it leaves out is nearer to the ideal width (R447, R448). -/
def Selects {n : Nat} (mask : BitVec n) (k ideal : Nat) (ws : List Nat) : Prop :=
  (List.range n).countP (fun i => mask.getLsbD i) = k ∧
    ∀ i j, i < n → j < n → mask.getLsbD i = true → mask.getLsbD j = false →
      ((ws.getD i 0 : Int) - ideal).natAbs ≤ ((ws.getD j 0 : Int) - ideal).natAbs

/-- Nothing changes but the time axis, the NVM unit, the free-value counter and the conditions on their way to the truss. -/
def OnlyNvm (s t : State) : Prop :=
  t = { s with now := t.now, nvm := t.nvm, free := t.free, truss := { s.truss with incoming := t.truss.incoming } }

/-! ## Modes and power (15_modes_and_power_up.md) -/

/-- The device is in RESET (R515): every register outside R518 has its reset value; the fuses, the attached flash, the
waiting commands and, but at a power-on, THM.SD_LOG stay. -/
structure InReset (s t : State) : Prop where
  mode : t.pwr.mode = .reset
  chans : ∀ c, t.chan c = Channel.reset
  clocks : ∀ v, (t.domClk v).period = s.clocks.mgmt.period
  galley : t.mem = [] ∧ t.chk = [] ∧ t.folios = [] ∧ t.closed = []
  units : t.vlt = Vault.reset ∧ t.via = Viaduct.reset ∧ t.truss = Truss.reset ∧ t.msp = Msp.reset ∧ t.place = Place.reset ∧
    t.sync = SyncSt.reset ∧ t.tst = Tst.reset
  synths : ∀ k, t.synth k = State.reset.synth k
  timebase : t.tb.st = .off ∧ t.tb.marks = 0 ∧ t.tb.losses = 0
  domains : ∀ d, t.dom d = .off
  fuses : t.lcy.fuses = s.lcy.fuses
  life : t.lcy.csess = false ∧ t.lcy.mtok = false ∧ t.lcy.nonce = none ∧ t.lcy.seq = none
  nvm : t.nvm = Nvm.reset s.nvm.flash
  queue : t.pending = s.pending

/-- Only the rails and the dip of the power plane, the trims, the NVM unit and the conditions on their way to the truss have
changed (R530). -/
structure DipOnly (s t : State) : Prop where
  mode : t.pwr.mode = s.pwr.mode
  doms : t.pwr.doms = s.pwr.doms
  chans : ∀ c, t.chan c = { s.chan c with trim := (t.chan c).trim, rcd := (t.chan c).rcd }
  records : ∀ c, (t.chan c).rcd = { (s.chan c).rcd with flags := (t.chan c).rcd.flags }
  tb : t.tb = s.tb
  vlt : t.vlt = s.vlt
  mem : t.mem = s.mem

/-- Nothing changes but the time axis, the life-cycle block, the free-value counter and the conditions on their way to the
truss. -/
def OnlyLife (s t : State) : Prop :=
  t = { s with now := t.now, lcy := t.lcy, free := t.free, truss := { s.truss with incoming := t.truss.incoming } }

/-! ## The truss (17_truss.md) -/

/-- Nothing outside the truss, but the time axis, has changed. -/
def OnlyTruss (s t : State) : Prop := t = { s with now := t.now, truss := t.truss }

/-- The other sources are as they were. -/
def OtherSources (s t : State) (n : Source) : Prop := ∀ k, k ≠ n → t.src k = s.src k

end Sys2Proof.Safety
end

