-- ==== Sys2Proof/Certificates/Slice0/Obligations.lean ====
section
/-! DEFINITION. The statements for the provers. Each cites the rules of spec/ that it formalises. -/

open Sys2Proof Sys2Proof.Machine Sys2Proof.Safety


/-! ## The engine's instructions -/

/-- R219, R221, Table 6.3: sums, differences, compares, products and the smaller or larger of two registers: result,
flags, the dc taken and the frame. -/
def Obligations.EngineArithmetic : Prop :=
  ∀ (c : Chan) (d a b : BitVec 4) (i : BitVec 18),
    GivesG c (.add c d a b) 1 d (fun e => BitVec.ofNat 64 ((e.gr a).toNat + (e.gr b).toNat))
      (fun e => flagsSum (e.gr a) (e.gr b)) ∧
    GivesG c (.sub c d a b) 1 d (fun e => BitVec.ofInt 64 ((e.gr a).toNat - (e.gr b).toNat))
      (fun e => flagsDiff (e.gr a) (e.gr b)) ∧
    GivesG c (.addi c d a i) 1 d (fun e => BitVec.ofInt 64 ((e.gr a).toInt + i.toInt))
      (fun e => flagsSum (e.gr a) (BitVec.ofInt 64 i.toInt)) ∧
    GivesF c (.cmp c a b) 1 (fun e => flagsDiff (e.gr a) (e.gr b)) ∧
    GivesF c (.cmpi c a i) 1 (fun e => flagsDiff (e.gr a) (BitVec.ofInt 64 i.toInt)) ∧
    GivesG c (.mul c d a b) 1 d (fun e => BitVec.ofNat 64 ((e.gr a).toNat * (e.gr b).toNat))
      (fun e =>
        { flagsZN (BitVec.ofNat 64 ((e.gr a).toNat * (e.gr b).toNat)) e.fl with
          c := decide (2 ^ 64 ≤ (e.gr a).toNat * (e.gr b).toNat)
          v := decide (¬(-(2 ^ 63 : Int) ≤ (e.gr a).toInt * (e.gr b).toInt ∧
            (e.gr a).toInt * (e.gr b).toInt < 2 ^ 63)) }) ∧
    GivesG c (.min c d a b) 1 d (fun e => lower BitVec.toInt (e.gr a) (e.gr b))
      (fun e => flagsZN (lower BitVec.toInt (e.gr a) (e.gr b)) e.fl) ∧
    GivesG c (.max c d a b) 1 d (fun e => upper BitVec.toInt (e.gr a) (e.gr b))
      (fun e => flagsZN (upper BitVec.toInt (e.gr a) (e.gr b)) e.fl) ∧
    GivesG c (.minu c d a b) 1 d (fun e => lower (fun x => x.toNat) (e.gr a) (e.gr b))
      (fun e => flagsZN (lower (fun x => x.toNat) (e.gr a) (e.gr b)) e.fl) ∧
    GivesG c (.maxu c d a b) 1 d (fun e => upper (fun x => x.toNat) (e.gr a) (e.gr b))
      (fun e => flagsZN (upper (fun x => x.toNat) (e.gr a) (e.gr b)) e.fl)

/-- Table 6.3: NOP, the logical instructions, constants, CSEL (Table 6.2) and CLZ. -/
def Obligations.EngineLogicAndMoves : Prop :=
  ∀ (c : Chan) (d a b k : BitVec 4) (i : BitVec 18) (h : BitVec 2) (m : BitVec 16),
    GivesF c (.engineNop c) 1 (fun e => e.fl) ∧
    GivesG c (.and c d a b) 1 d (fun e => e.gr a &&& e.gr b) (fun e => flagsZN (e.gr a &&& e.gr b) e.fl) ∧
    GivesG c (.or c d a b) 1 d (fun e => e.gr a ||| e.gr b) (fun e => flagsZN (e.gr a ||| e.gr b) e.fl) ∧
    GivesG c (.xor c d a b) 1 d (fun e => e.gr a ^^^ e.gr b) (fun e => flagsZN (e.gr a ^^^ e.gr b) e.fl) ∧
    GivesG c (.andi c d a i) 1 d (fun e => e.gr a &&& BitVec.ofNat 64 i.toNat)
      (fun e => flagsZN (e.gr a &&& BitVec.ofNat 64 i.toNat) e.fl) ∧
    GivesG c (.ori c d a i) 1 d (fun e => e.gr a ||| BitVec.ofNat 64 i.toNat)
      (fun e => flagsZN (e.gr a ||| BitVec.ofNat 64 i.toNat) e.fl) ∧
    GivesG c (.xori c d a i) 1 d (fun e => e.gr a ^^^ BitVec.ofNat 64 i.toNat)
      (fun e => flagsZN (e.gr a ^^^ BitVec.ofNat 64 i.toNat) e.fl) ∧
    GivesG c (.movz c d h m) 1 d (fun _ => BitVec.ofNat 64 (m.toNat * 2 ^ (16 * h.toNat))) (fun e => e.fl) ∧
    GivesG c (.movk c d h m) 1 d
      (fun e => BitVec.ofNat 64 ((e.gr d).toNat / 2 ^ (16 * h.toNat + 16) * 2 ^ (16 * h.toNat + 16) +
        m.toNat * 2 ^ (16 * h.toNat) + (e.gr d).toNat % 2 ^ (16 * h.toNat))) (fun e => e.fl) ∧
    GivesG c (.csel c d a b k) 1 d (fun e => if e.fl.holds k then e.gr a else e.gr b) (fun e => e.fl) ∧
    GivesG c (.clz c d a) 1 d (fun e => BitVec.ofNat 64 (leadZeros (e.gr a)))
      (fun e => flagsZN (n := 64) (BitVec.ofNat 64 (leadZeros (e.gr a))) e.fl)

/-- R222: shifts by a register's low eight bits, counts 0 to 255, and by an immediate of six bits. -/
def Obligations.EngineShifts : Prop :=
  ∀ (c : Chan) (d a b : BitVec 4) (k : BitVec 6),
    GivesG c (.shl c d a b) 1 d (fun e => numShl (e.gr a) ((e.gr b).toNat % 256))
      (fun e => flagsLeft (e.gr a) (numShl (e.gr a) ((e.gr b).toNat % 256)) ((e.gr b).toNat % 256) e.fl) ∧
    GivesG c (.shr c d a b) 1 d (fun e => numShr (e.gr a) ((e.gr b).toNat % 256))
      (fun e => flagsRight (e.gr a) (numShr (e.gr a) ((e.gr b).toNat % 256)) ((e.gr b).toNat % 256) e.fl) ∧
    GivesG c (.sar c d a b) 1 d (fun e => numSar (e.gr a) ((e.gr b).toNat % 256))
      (fun e => flagsRight (e.gr a) (numSar (e.gr a) ((e.gr b).toNat % 256)) ((e.gr b).toNat % 256) e.fl) ∧
    GivesG c (.shli c d a k) 1 d (fun e => numShl (e.gr a) k.toNat)
      (fun e => flagsLeft (e.gr a) (numShl (e.gr a) k.toNat) k.toNat e.fl) ∧
    GivesG c (.shri c d a k) 1 d (fun e => numShr (e.gr a) k.toNat)
      (fun e => flagsRight (e.gr a) (numShr (e.gr a) k.toNat) k.toNat e.fl) ∧
    GivesG c (.sari c d a k) 1 d (fun e => numSar (e.gr a) k.toNat)
      (fun e => flagsRight (e.gr a) (numSar (e.gr a) k.toNat) k.toNat e.fl)

/-- R223, Table 6.4: the 128-bit sums, differences and products. R223, Table 6.4: shifts of accumulators, their halves,
saturation, the run of sign bits, and APACK. `v` of ASAT is 1 where the value was clamped; the run that ANORM counts
is stated by what it counts. -/
def Obligations.EngineAccumulators : Prop :=
  (∀ (c : Chan) (d x y : BitVec 3) (a b : BitVec 4),
    GivesA c (.aclr c d) 1 d (fun _ => 0) (fun e => e.fl) ∧
    GivesA c (.amovs c d a) 1 d (fun e => BitVec.ofInt 128 (e.gr a).toInt) (fun e => e.fl) ∧
    GivesA c (.aaddg c d a) 1 d (fun e => BitVec.ofInt 128 ((e.ar d).toInt + (e.gr a).toInt))
      (fun e => flagsSum (e.ar d) (BitVec.ofInt 128 (e.gr a).toInt)) ∧
    GivesA c (.muls c d a b) 2 d (fun e => BitVec.ofInt 128 ((e.gr a).toInt * (e.gr b).toInt))
      (fun e => flagsZN (BitVec.ofInt 128 ((e.gr a).toInt * (e.gr b).toInt)) e.fl) ∧
    GivesA c (.mulu c d a b) 2 d (fun e => BitVec.ofNat 128 ((e.gr a).toNat * (e.gr b).toNat))
      (fun e => flagsZN (BitVec.ofNat 128 ((e.gr a).toNat * (e.gr b).toNat)) e.fl) ∧
    GivesA c (.macs c d a b) 2 d (fun e => BitVec.ofInt 128 ((e.ar d).toInt + (e.gr a).toInt * (e.gr b).toInt))
      (fun e => flagsSum (e.ar d) (BitVec.ofInt 128 ((e.gr a).toInt * (e.gr b).toInt))) ∧
    GivesA c (.macu c d a b) 2 d (fun e => BitVec.ofNat 128 ((e.ar d).toNat + (e.gr a).toNat * (e.gr b).toNat))
      (fun e => flagsSum (e.ar d) (BitVec.ofNat 128 ((e.gr a).toNat * (e.gr b).toNat))) ∧
    GivesA c (.aadd c d x y) 1 d (fun e => BitVec.ofNat 128 ((e.ar x).toNat + (e.ar y).toNat))
      (fun e => flagsSum (e.ar x) (e.ar y)) ∧
    GivesA c (.asub c d x y) 1 d (fun e => BitVec.ofInt 128 ((e.ar x).toNat - (e.ar y).toNat))
      (fun e => flagsDiff (e.ar x) (e.ar y)) ∧
    GivesF c (.acmp c x y) 1 (fun e => flagsDiff (e.ar x) (e.ar y))) ∧
  (∀ (c : Chan) (d : BitVec 4) (x y : BitVec 3) (a b : BitVec 4) (k : BitVec 7) (h : BitVec 1),
    GivesA c (.ashr c x y k) 1 x (fun e => numSar (e.ar y) k.toNat)
      (fun e => flagsRight (e.ar y) (numSar (e.ar y) k.toNat) k.toNat e.fl) ∧
    GivesA c (.ashl c x y k) 1 x (fun e => numShl (e.ar y) k.toNat)
      (fun e => flagsLeft (e.ar y) (numShl (e.ar y) k.toNat) k.toNat e.fl) ∧
    GivesG c (.aget c d x h) 1 d (fun e => BitVec.ofNat 64 ((e.ar x).toNat / 2 ^ (64 * h.toNat))) (fun e => e.fl) ∧
    GivesG c (.asat c d x) 1 d (fun e => BitVec.ofInt 64 (max (-(2 ^ 63)) (min (e.ar x).toInt (2 ^ 63 - 1))))
      (fun e => { flagsZN (n := 64) (BitVec.ofInt 64 (max (-(2 ^ 63)) (min (e.ar x).toInt (2 ^ 63 - 1)))) e.fl with
        v := decide (¬(-(2 ^ 63 : Int) ≤ (e.ar x).toInt ∧ (e.ar x).toInt < 2 ^ 63)) }) ∧
    (∀ s, EngReady s c (.anorm c d x) 1 → ∃ t n, exec (.anorm c d x) s = .next t ∧
      EngMoved s t c 1 ((s.chan c).eng.pc + 1) [d] [] ∧
      n ≤ 127 ∧ (∀ j, j < n → ((s.chan c).eng.ar x).getLsbD (126 - j) = ((s.chan c).eng.ar x).msb) ∧
      (n < 127 → ((s.chan c).eng.ar x).getLsbD (126 - n) ≠ ((s.chan c).eng.ar x).msb) ∧
      (t.chan c).eng.gr d = (if d = 0 then 0 else BitVec.ofNat 64 n) ∧
      (t.chan c).eng.fl = { (s.chan c).eng.fl with z := decide (n = 0) }) ∧
    GivesA c (.apack c x a b) 1 x (fun e => BitVec.ofNat 128 ((e.gr a).toNat * 2 ^ 64 + (e.gr b).toNat))
      (fun e => e.fl))

/-- R224, Table 6.4a: the divides, with their limits. -/
def Obligations.EngineDivides : Prop :=
  ∀ (c : Chan) (d : BitVec 4) (x : BitVec 3) (b : BitVec 4),
    GivesG c (.divu c d x b) 34 d
      (fun e => if e.gr b = 0 ∨ 2 ^ 64 ≤ (e.ar x).toNat / (e.gr b).toNat then BitVec.allOnes 64
        else BitVec.ofNat 64 ((e.ar x).toNat / (e.gr b).toNat))
      (fun e =>
        { flagsZN (n := 64) (if e.gr b = 0 ∨ 2 ^ 64 ≤ (e.ar x).toNat / (e.gr b).toNat then BitVec.allOnes 64
            else BitVec.ofNat 64 ((e.ar x).toNat / (e.gr b).toNat)) e.fl with
          c := decide (e.gr b = 0), v := decide (e.gr b = 0 ∨ 2 ^ 64 ≤ (e.ar x).toNat / (e.gr b).toNat) }) ∧
    GivesG c (.divs c d x b) 34 d
      (fun e =>
        if e.gr b = 0 then (if 0 ≤ (e.ar x).toInt then 0x7FFFFFFFFFFFFFFF else 0x8000000000000000)
        else BitVec.ofInt 64 (max (-(2 ^ 63)) (min ((e.ar x).toInt.tdiv (e.gr b).toInt) (2 ^ 63 - 1))))
      (fun e =>
        { flagsZN (n := 64) (if e.gr b = 0 then (if 0 ≤ (e.ar x).toInt then 0x7FFFFFFFFFFFFFFF else 0x8000000000000000)
            else BitVec.ofInt 64 (max (-(2 ^ 63)) (min ((e.ar x).toInt.tdiv (e.gr b).toInt) (2 ^ 63 - 1)))) e.fl with
          c := decide (e.gr b = 0)
          v := decide (e.gr b = 0 ∨ ¬(-(2 ^ 63 : Int) ≤ (e.ar x).toInt.tdiv (e.gr b).toInt ∧
            (e.ar x).toInt.tdiv (e.gr b).toInt < 2 ^ 63)) })

/-- R190, R191, R226, Table 5.3: loads of a DMEM word or a bank word, of a pair of words at an even address, and the
addresses at which a load faults with BADADDR or with an uncorrectable error. -/
def Obligations.EngineLoads : Prop :=
  ∀ (s : State) (c : Chan) (d a : BitVec 4) (x : BitVec 3) (off : BitVec 18),
    let e := (s.chan c).eng
    let n := dataAddr e a off
    (EngReady s c (.ld c d a off) 2 → Loadable e n → ∃ t, exec (.ld c d a off) s = .next t ∧
      EngMovedD s t c 2 (e.pc + 1) [d] [] ∧ (t.chan c).eng.gr d = (if d = 0 then 0 else dataAt (s.chan c) n) ∧
      (t.chan c).eng.fl = e.fl ∧ (t.chan c).eng.dmem = e.dmem ∧ (t.chan c).eng.dmemErr = e.dmemErr ∧
      (t.chan c).eng.dmemCorr = satAdd e.dmemCorr (corrected e [n])) ∧
    (EngReady s c (.lda c x a off) 2 → n % 2 = 0 → Loadable e n → Loadable e (n + 1) →
      ∃ t, exec (.lda c x a off) s = .next t ∧ EngMovedD s t c 2 (e.pc + 1) [] [x] ∧
      (t.chan c).eng.ar x = dataAt (s.chan c) (n + 1) ++ dataAt (s.chan c) n ∧
      (t.chan c).eng.fl = e.fl ∧ (t.chan c).eng.dmem = e.dmem ∧ (t.chan c).eng.dmemErr = e.dmemErr ∧
      (t.chan c).eng.dmemCorr = satAdd e.dmemCorr (corrected e [n, n + 1])) ∧
    ((s.chan c).folder.closePosted = none → s.pwr.mode ≠ .reset →
      (EngReady s c (.ld c d a off) 2 → (0x400 ≤ n ∧ n < 0x800) ∨ 0xC00 ≤ n →
        ∃ t, exec (.ld c d a off) s = .next t ∧ EngFaulted s t c 4) ∧
      (EngReady s c (.lda c x a off) 2 → n % 2 = 1 → ∃ t, exec (.lda c x a off) s = .next t ∧ EngFaulted s t c 4) ∧
      (EngReady s c (.ld c d a off) 2 → n < 0x400 → e.dmemErr.lookup n = some true →
        ∃ t, exec (.ld c d a off) s = .next t ∧ EngFaulted s t c 3))

/-- R191, R226: stores of a DMEM word and of a pair at an even address; outside DMEM a store faults. Reading a sparse
table after a write gives the value at the address written and the old values elsewhere, and the write keeps the
canonical form. -/
def Obligations.EngineStoresAndTables : Prop :=
  (∀ (s : State) (c : Chan) (d a : BitVec 4) (x : BitVec 3) (off : BitVec 18),
    let e := (s.chan c).eng
    let n := dataAddr e a off
    (EngReady s c (.st c d a off) 1 → n < 0x400 → ∃ t, exec (.st c d a off) s = .next t ∧
      EngMovedD s t c 1 (e.pc + 1) [] [] ∧ (t.chan c).eng.fl = e.fl ∧
      (t.chan c).eng.dmem = sset 0 e.dmem n (e.gr d) ∧ (t.chan c).eng.dmemErr = e.dmemErr.filter (fun p => p.1 ≠ n) ∧
      (t.chan c).eng.dmemCorr = e.dmemCorr) ∧
    (EngReady s c (.sta c x a off) 2 → n % 2 = 0 → n < 0x400 → ∃ t, exec (.sta c x a off) s = .next t ∧
      EngMovedD s t c 2 (e.pc + 1) [] [] ∧ (t.chan c).eng.fl = e.fl ∧
      (t.chan c).eng.dmem = sset 0 (sset 0 e.dmem n (BitVec.ofNat 64 (e.ar x).toNat)) (n + 1)
        (BitVec.ofNat 64 ((e.ar x).toNat / 2 ^ 64)) ∧
      (t.chan c).eng.dmemErr = e.dmemErr.filter (fun p => p.1 ≠ n ∧ p.1 ≠ n + 1) ∧
      (t.chan c).eng.dmemCorr = e.dmemCorr) ∧
    ((s.chan c).folder.closePosted = none → s.pwr.mode ≠ .reset →
      (EngReady s c (.st c d a off) 1 → 0x400 ≤ n → ∃ t, exec (.st c d a off) s = .next t ∧ EngFaulted s t c 4) ∧
      (EngReady s c (.sta c x a off) 2 → n % 2 = 1 ∨ 0x400 ≤ n →
        ∃ t, exec (.sta c x a off) s = .next t ∧ EngFaulted s t c 4))) ∧
  (∀ (d : Dword) (l : List (Nat × Dword)) (n m : Nat) (v : Dword), Sparse d l →
    Sparse d (sset d l n v) ∧ sget d (sset d l n v) m = if m = n then v else sget d l m)

/-- R214, R220, Table 6.5: branches. R227, R228: EVT and EVTP take the oldest event of the queue in the dc they start, and
the next instruction starts 3 dc later; with none queued EVT waits and EVTP goes on with Z = 1; EVT_WAIT_END takes the
event that has come. -/
def Obligations.EngineFlowAndEvents : Prop :=
  (∀ (s : State) (c : Chan) (a k : BitVec 4) (off : BitVec 12),
    let e := (s.chan c).eng
    (EngReady s c (.b c k off) 2 → e.fl.holds k = true → ∃ t, exec (.b c k off) s = .next t ∧
      EngMoved s t c 2 (e.pc + off) [] [] ∧ (t.chan c).eng.fl = e.fl) ∧
    (EngReady s c (.b c k off) 1 → e.fl.holds k = false → ∃ t, exec (.b c k off) s = .next t ∧
      EngMoved s t c 1 (e.pc + 1) [] [] ∧ (t.chan c).eng.fl = e.fl) ∧
    (EngReady s c (.bl c off) 2 → ∃ t, exec (.bl c off) s = .next t ∧ EngMoved s t c 2 (e.pc + off) [15] [] ∧
      (t.chan c).eng.gr 15 = BitVec.ofNat 64 ((e.pc.toNat + 1) % 4096) ∧ (t.chan c).eng.fl = e.fl) ∧
    (EngReady s c (.jr c a) 2 → ∃ t, exec (.jr c a) s = .next t ∧
      EngMoved s t c 2 (BitVec.ofNat 12 (e.gr a).toNat) [] [] ∧ (t.chan c).eng.fl = e.fl)) ∧
  (∀ (s : State) (c : Chan) (d : BitVec 4) (v : Ev) (rest : List Ev),
    let e := (s.chan c).eng
    (d.toNat ≤ 13 → e.queue = v :: rest →
      (EngReady s c (.evt c d) 0 → (s.chan c).closesBy (e.readyDc + 3) = false →
        ∃ t, exec (.evt c d) s = .next t ∧ OnlyChan s t c ∧ (t.chan c).eng.queue = rest ∧ (∀ i, (t.chan c).eng.gr i = eventRegs e d v i) ∧ (t.chan c).eng.a = e.a ∧
        (t.chan c).eng.fl = e.fl ∧ (t.chan c).eng.pc = e.pc + 1 ∧ (t.chan c).eng.readyDc = e.readyDc + 3 ∧
        (t.chan c).eng.st = .run ∧ (t.chan c).eng.dmem = e.dmem) ∧
      (EngReady s c (.evtp c d) 0 → (s.chan c).closesBy (e.readyDc + 3) = false →
        ∃ t, exec (.evtp c d) s = .next t ∧ OnlyChan s t c ∧ (t.chan c).eng.queue = rest ∧ (∀ i, (t.chan c).eng.gr i = eventRegs e d v i) ∧ (t.chan c).eng.a = e.a ∧
        (t.chan c).eng.fl = { e.fl with z := false } ∧ (t.chan c).eng.pc = e.pc + 1 ∧
        (t.chan c).eng.readyDc = e.readyDc + 3 ∧ (t.chan c).eng.st = .run ∧ (t.chan c).eng.dmem = e.dmem)) ∧
    (e.evtD.toNat ≤ 13 → e.queue = v :: rest → s.chOn c = true → e.lib = none → e.st = .wait →
      (s.chan c).closesBy (max (e.wdFrom.getD 0) e.readyDc + 3) = false →
      ∃ t, exec (.evtWaitEnd c) s = .next t ∧ OnlyChan s t c ∧ (t.chan c).eng.queue = rest ∧
        (∀ i, (t.chan c).eng.gr i = eventRegs e e.evtD v i) ∧ (t.chan c).eng.a = e.a ∧ (t.chan c).eng.fl = e.fl ∧
        (t.chan c).eng.pc = e.pc + 1 ∧ (t.chan c).eng.readyDc = max (e.wdFrom.getD 0) e.readyDc + 3 ∧
        (t.chan c).eng.st = .run ∧ (t.chan c).eng.dmem = e.dmem) ∧
    (e.queue = [] → EngReady s c (.evtp c d) 1 → ∃ t, exec (.evtp c d) s = .next t ∧
      EngMoved s t c 1 (e.pc + 1) [] [] ∧ (t.chan c).eng.fl = { e.fl with z := true }) ∧
    (e.queue = [] → e.tookClose = false → EngReady s c (.evt c d) 0 → ∃ t, exec (.evt c d) s = .next t ∧ OnlyChan s t c ∧
      (t.chan c).eng = { e with st := .wait, evtD := d, pcRun := e.pc, imemCorr := fetchCount e }))

/-- R200, R230, R234: EMIT with a token passes the accumulator to the output queue and takes the token; without one the
engine waits; EMITW_END passes the word one dc after a token has come; RATE tokens come every 1,024 dc and the bucket
holds 16; with RATE = 0 EMIT faults with EMIT_DENY. -/
def Obligations.EngineEmits : Prop :=
  ∀ (s : State) (c : Chan) (x : BitVec 3),
    let e := (s.chan c).eng
    ((s.chan c).emitRate ≠ 0 → e.tokens ≠ 0 → EngReady s c (.emit c x) 1 → ∃ t, exec (.emit c x) s = .next t ∧
      OnlyChan s t c ∧ Passed (s.chan c) (t.chan c) e.readyDc (e.ar x) ∧ (t.chan c).eng.tokens = e.tokens - 1 ∧ (t.chan c).eng.g = e.g ∧ (t.chan c).eng.a = e.a ∧
      (t.chan c).eng.fl = e.fl ∧ (t.chan c).eng.pc = e.pc + 1 ∧ (t.chan c).eng.readyDc = e.readyDc + 1) ∧
    ((s.chan c).emitRate ≠ 0 → e.tokens = 0 → EngReady s c (.emit c x) 1 → ∃ t, exec (.emit c x) s = .next t ∧
      OnlyChan s t c ∧ (t.chan c).eng = { e with st := .emitw, emitA := x, pcRun := e.pc, imemCorr := fetchCount e }) ∧
    (s.chOn c = true → e.lib = none → e.st = .emitw → e.tokens ≠ 0 → (s.chan c).cutBefore (e.nextRefill - 1024 + 1) = false →
      ∃ t, exec (.emitwEnd c) s = .next t ∧ OnlyChan s t c ∧
        Passed (s.chan c) (t.chan c) (e.nextRefill - 1024) (e.ar e.emitA) ∧ (t.chan c).eng.tokens = e.tokens - 1 ∧
        (t.chan c).eng.st = .run ∧ (t.chan c).eng.pc = e.pc + 1 ∧
        (t.chan c).eng.readyDc = e.nextRefill - 1024 + 1) ∧
    (s.chOn c = true → e.st = .run ∨ e.st = .wait ∨ e.st = .emitw ∨ e.st = .halt →
      ∃ t, exec (.tokenRefill c) s = .next t ∧ OnlyChan s t c ∧
        t.chan c = { s.chan c with eng := { e with
          tokens := min 16 (e.tokens + (s.chan c).emitRate), nextRefill := e.nextRefill + 1024 } }) ∧
    ((s.chan c).emitRate = 0 → (s.chan c).folder.closePosted = none → s.pwr.mode ≠ .reset →
      EngReady s c (.emit c x) 1 → ∃ t, exec (.emit c x) s = .next t ∧ EngFaulted s t c 5)

/-- R201, R231 to R237, Table 6.6: within a record span TRIG presents the engine condition one dc later with its time
clamped to the span, GSET sets the gate's pending boundary and C, SYSR reads a system value, the first STOP of the span
ends the capture and a second does nothing; HALT halts the engine and discards what is queued. -/
def Obligations.EngineChannelInstructions : Prop :=
  ∀ (s : State) (c : Chan) (d a : BitVec 4) (sel : BitVec 18),
    let x := s.chan c
    let e := x.eng
    let v := s.streamTime c e.readyDc
    (EngReady s c (.trig c a) 1 → ∃ t, exec (.trig c a) s = .next t ∧ OnlyChan s t c ∧
      (t.chan c).trg.pend = x.trg.pend ++ (if e.spanOpen then (x.condsOf 4).map fun i =>
        { i := i, time := stampClamp e.spanO e.lastTime (e.gr a), dc := e.readyDc + 1 } else []) ∧
      (0 ≤ e.spanO → e.spanO ≤ e.lastTime → e.lastTime < 2 ^ 64 →
        stampClamp e.spanO e.lastTime (e.gr a) = max e.spanO (min ((e.gr a).toNat : Int) e.lastTime)) ∧
      (t.chan c).eng = { e with pcRun := e.pc, imemCorr := fetchCount e, pc := e.pc + 1, readyDc := e.readyDc + 1 }) ∧
    (EngReady s c (.gset c a) 1 → ∃ t, exec (.gset c a) s = .next t ∧ OnlyChan s t c ∧
      (t.chan c).eng = { e with
        pcRun := e.pc, imemCorr := fetchCount e, pc := e.pc + 1, readyDc := e.readyDc + 1
        boundary := if e.spanOpen && x.gateKind == 2 then some ((stampLater v (e.gr a)).getD v) else e.boundary
        fl := if e.spanOpen && x.gateKind == 2 then { e.fl with c := (stampLater v (e.gr a)).isNone } else e.fl } ∧
      (0 ≤ v → v < 2 ^ 63 → stampLater v (e.gr a) = if v < (e.gr a).toNat then some ((e.gr a).toNat : Int) else none)) ∧
    (sel.toNat ≤ 8 → EngReady s c (.sysr c d sel) 1 → ∃ t, exec (.sysr c d sel) s = .next t ∧
      EngMoved s t c 1 (e.pc + 1) [d] [] ∧ (t.chan c).eng.fl = e.fl ∧
      (t.chan c).eng.gr d = if d = 0 then 0 else sysReg s c e.readyDc sel.toNat) ∧
    (EngReady s c (.stop c) 1 →
      (e.spanOpen = false → ∃ t, exec (.stop c) s = .next t ∧ EngMoved s t c 1 (e.pc + 1) [] [] ∧
        (t.chan c).eng.fl = e.fl) ∧
      (e.spanOpen = true → e.stopped = true → ∃ t, exec (.stop c) s = .next t ∧ EngMoved s t c 1 (e.pc + 1) [] [] ∧
        (t.chan c).eng.fl = e.fl) ∧
      (e.spanOpen = true → e.stopped = false → x.armed = true → x.armNext = none → x.folder.closing = none →
        ∃ t, exec (.stop c) s = .next t ∧ (t.chan c).armed = false ∧ (t.chan c).rcd.closeFlags = 0x2 ∧
        (t.chan c).folder.byDisarm = true ∧ (t.chan c).folder.closing.isSome = true ∧ (t.chan c).eng.g = e.g ∧
        (t.chan c).eng.a = e.a ∧ (t.chan c).eng.fl = e.fl ∧ (t.chan c).eng.pc = e.pc + 1 ∧
        (t.chan c).eng.readyDc = e.readyDc + 1)) ∧
    (x.folder.closePosted = none → EngReady s c (.halt c) 1 → ∃ t, exec (.halt c) s = .next t ∧ OnlyChan s t c ∧
      (t.chan c).eng = { e with
        pcRun := e.pc, imemCorr := fetchCount e, pc := e.pc + 1, readyDc := e.readyDc + 1, st := .halt, queue := []
        wdFrom := none })

/-- R192, R218, R238: whichever of its instructions a running engine is asked for, a word at PC with an uncorrectable
error faults, and so does an undefined one. R244, R245, R247, R250, R251, R254, R256, R258, R260, Table 7.4: what the
compositor library computes from a gate's summary bank: MEAN, FREQ_RECIP, DUTY and PHASE_REF within half a unit of their
formula, MIN and MAX as counted, TOTAL as the sum of the classes' edges and the lost ones; a set that is empty or whose
gate carries DSAT or ASAT gives NVAL, and the count check replaces P by the class's edge count. R268, R270, R271, Table
7.8: a gate-scope descriptor takes the dc of its function, and six for each result that is tested; it emits one word for
each of its results, before its limit action. R227, R262, R263, R269: an engine that runs the library. EVT and
EVT_WAIT_END take the oldest event: OPEN clears the record's state, a SUMMARY brings the words of its descriptors, its
flags and its violations, CLOSE those of ADEV and LIMCNT; each goes on after its fixed dc. EMIT passes the word that is
next, or waits for a token, EMITW_END passes it then; TRIG presents the gate's close time within the record span, and STOP
ends the capture (notes/assumptions/18.md for what the model chooses). -/
def Obligations.EngineFaults : Prop :=
  (∀ (s : State) (c : Chan) (i : Instr) (w : Word),
    let e := (s.chan c).eng
    decodeEng c w = some i → s.chOn c = true → e.lib = none → e.st = .run → (s.chan c).cutBefore (e.readyDc + 34) = false →
    (s.chan c).folder.closePosted = none → s.pwr.mode ≠ .reset →
    (e.imemErr.lookup e.pc.toNat = some true → ∃ t, exec i s = .next t ∧ EngFaulted s t c 2) ∧
    (e.imemErr.lookup e.pc.toNat ≠ some true → decodeEng c (sget 0 e.imem e.pc.toNat) = none →
      ∃ t, exec i s = .next t ∧ EngFaulted s t c 1)) ∧
  (∀ (g : ChanCfg) (b : List Dword) (d : MeasDesc),
    let m := bankSet b d.src
    let q := bankSet b d.src2
    let one := fun (e : Encoded) (err : Bool) => [({ param := 0, val := some e, cntErr := err } : MeasOut)]
    (5 ≤ d.func → d.func ≤ 8 → (setBad b d.src = true ∨ m.n = 0) →
      gateOut g b d = [{ param := 0, val := none, cntErr := false }]) ∧
    (setBad b d.src = false → m.n ≠ 0 →
      (d.func = 5 → ∃ e, gateOut g b d = one e false ∧ (e.unit = 2 ∨ e.unit = 3) ∧
        (e.clamped = false → 2 * (e.value * m.n - (m.sx : Int) * 2 ^ (if e.unit = 2 then 32 else 16)).natAbs ≤ m.n)) ∧
      (d.func = 7 → ∃ e, gateOut g b d = one e false ∧ e.unit = 4 ∧ e.value = min (m.mn : Int) (2 ^ 63 - 1)) ∧
      (d.func = 8 → ∃ e, gateOut g b d = one e false ∧ e.unit = 4 ∧ e.value = min (m.mx : Int) (2 ^ 63 - 1)) ∧
      (d.func = 1 → m.sx ≠ 0 →
        let f := bankFlags b
        let edges := bankWord b (3 + setClass g d.src)
        let bad := f.getLsbD 5 = false ∧ f.getLsbD 7 = false ∧ f.getLsbD 0 = false ∧ 2 ^ 32 ≤ bankWord b 2 ∧
          edges ≠ m.n * d.n
        ∀ p, (bad → p = edges) → (¬bad → p = m.n * d.n) → ∃ e, gateOut g b d = one e (decide bad) ∧ e.unit = 1 ∧
          (e.clamped = false → 2 * (e.value * m.sx - (p : Int) * 2560000000000000000).natAbs ≤ m.sx)) ∧
      (setBad b d.src2 = false → q.n ≠ 0 →
        (d.func = 9 → m.sx + q.sx ≠ 0 → ∃ e, gateOut g b d = one e false ∧ e.unit = 5 ∧ e.clamped = false ∧
          2 * (e.value * (m.sx + q.sx) - (m.sx : Int) * 2 ^ 32).natAbs ≤ m.sx + q.sx) ∧
        (d.func = 10 → q.sx ≠ 0 → ∃ e, gateOut g b d = one e false ∧ e.unit = 6 ∧ -2 ^ 31 ≤ e.value ∧ e.value < 2 ^ 31 ∧
          (e.clamped = false → ∃ k : Int,
            2 * (e.value * (m.n * q.sx) - ((m.sx * q.n : Nat) - k * (m.n * q.sx : Nat)) * 2 ^ 32).natAbs ≤ m.n * q.sx)))) ∧
    (d.func = 12 → ∃ e, gateOut g b d = one e false ∧ e.unit = 8 ∧
      e.value = min ((((List.range 6).map fun i => if d.cmask.testBit i then bankWord b (3 + i) else 0).sum
        + bankWord b 9 : Nat) : Int) (2 ^ 64 - 1))) ∧
  (∀ (g : ChanCfg) (b : List Dword) (t : Int) (idx : Nat) (d : MeasDesc),
    let acts := gateActs g b t (idx, d)
    (acts.map (·.cost)).sum = gateCost d + 6 * (gateOut g b d).countP (·.tested d) ∧
    acts.filterMap (fun a => match a.what with | .emit w => some w | _ => none)
      = (gateOut g b d).map (resultWord idx d (bankFlags b)) ∧
    (acts.countP (fun a => a.what == .trig t) = if d.action = 2 then (gateOut g b d).countP (·.fails d) else 0) ∧
    (acts.countP (fun a => a.what == .stop) = if d.action = 3 then (gateOut g b d).countP (·.fails d) else 0)) ∧
  (∀ (s : State) (c : Chan) (l : LibSt) (d : BitVec 4) (a : BitVec 3),
    let x := s.chan c
    let e := x.eng
    let ds := libraryDescs e.dmem
    let took := fun (t : State) (v : Ev) (rest : List Ev) (n : Nat) =>
      OnlyChan s t c ∧ (t.chan c).eng.queue = rest ∧ (t.chan c).eng.st = .run ∧ (t.chan c).outq = x.outq ∧
      (v.type = 1 → (t.chan c).eng.readyDc = n + 9 ∧ (t.chan c).eng.lib = some { l with
        took := n, adev := AdevSt.clear (tauTable e.dmem), first := none, flags := 0, viol := 0 }) ∧
      (v.type = 2 → (t.chan c).eng.readyDc = n + 8 ∧ ∃ m, (t.chan c).eng.lib = some m ∧
        m.acts = closeActs ds l (tauTable e.dmem) (fld x.cfg.phsCfg 0 28) ∧ m.viol = l.viol) ∧
      (v.type = 4 → (t.chan c).eng.readyDc = n + 10 ∧ ∃ m, (t.chan c).eng.lib = some m ∧
        (let b := (x.banks.getD (v.head.toNat % 4) Bank.reset).words
         m.acts = ds.flatMap (gateActs x.cfg b v.time) ∧ m.flags = l.flags ||| bankFlags b ∧
         m.viol = l.viol + gateViolations x.cfg b ds)) ∧
      (v.type = 5 → ∀ p, ds.find? (fun p => p.2.func == 0x0E) = some p →
        (t.chan c).eng.readyDc = n + 14 + 11 * (tauTable e.dmem).length ∧ ∃ m, (t.chan c).eng.lib = some m ∧
        m.adev = l.adev.take (tauTable e.dmem) p.2.pnom (if v.head.getLsbD 0 then none
          else some (v.time - l.first.getD v.time, v.val.toNat))) ∧
      (v.type ∉ ([1, 2, 4, 5] : List Byte) → (t.chan c).eng.readyDc = n + 9 ∧
        (t.chan c).eng.lib = some { l with took := n })
    e.lib = some l → s.chOn c = true →
    (∀ v rest, e.queue = v :: rest → e.dmemErr = [] →
      (e.st = .run → l.acts = [] → x.cutBefore e.readyDc = false → x.closesBy (e.readyDc + 3) = false →
        ∃ t, exec (.evt c d) s = .next t ∧ t.now = max s.now (s.dcAt e.readyDc) ∧ took t v rest e.readyDc) ∧
      (let n := max (e.wdFrom.getD 0) e.readyDc
       e.st = .wait → x.closesBy (n + 3) = false →
        ∃ t, exec (.evtWaitEnd c) s = .next t ∧ t.now = max s.now (s.dcAt n) ∧ took t v rest n)) ∧
    (∀ k w more, l.acts = ⟨k, .emit w⟩ :: more → 0 < k → x.emitRate ≠ 0 →
      (e.st = .run → x.cutBefore (e.readyDc + k) = false → e.tokens ≠ 0 → ∃ t, exec (.emit c a) s = .next t ∧
        OnlyChan s t c ∧ Passed x (t.chan c) (e.readyDc + k - 1) w ∧ (t.chan c).eng.tokens = e.tokens - 1 ∧
        (t.chan c).eng.readyDc = e.readyDc + k ∧ (t.chan c).eng.lib = some { l with acts := more }) ∧
      (e.st = .run → x.cutBefore (e.readyDc + k) = false → e.tokens = 0 → ∃ t, exec (.emit c a) s = .next t ∧
        OnlyChan s t c ∧ t.chan c = { x with eng := { e with st := .emitw } }) ∧
      (e.st = .emitw → e.tokens ≠ 0 → x.cutBefore (e.nextRefill - 1024 + 1) = false →
        ∃ t, exec (.emitwEnd c) s = .next t ∧ OnlyChan s t c ∧ Passed x (t.chan c) (e.nextRefill - 1024) w ∧
        (t.chan c).eng.st = .run ∧ (t.chan c).eng.readyDc = e.nextRefill - 1024 + 1 ∧
        (t.chan c).eng.lib = some { l with acts := more })) ∧
    (∀ k time more, l.acts = ⟨k, .trig time⟩ :: more → 0 < k → e.st = .run → x.cutBefore (e.readyDc + k) = false →
      ∃ t, exec (.trig c d) s = .next t ∧ OnlyChan s t c ∧ (t.chan c).eng.lib = some { l with acts := more } ∧
        (t.chan c).eng.readyDc = e.readyDc + k ∧
        (t.chan c).trg.pend = x.trg.pend ++ (if e.spanOpen then (x.condsOf 4).map fun i =>
          { i := i, time := stampClamp e.spanO e.lastTime (stamp64 time), dc := e.readyDc + k } else [])) ∧
    (∀ k more, l.acts = ⟨k, .stop⟩ :: more → 0 < k → e.st = .run → x.cutBefore (e.readyDc + k) = false →
      e.spanOpen = true → e.stopped = false → x.armed = true → x.armNext = none → x.folder.closing = none →
      ∃ t, exec (.stop c) s = .next t ∧ (t.chan c).armed = false ∧ (t.chan c).rcd.closeFlags = 0x2 ∧
        (t.chan c).folder.byDisarm = true ∧ (t.chan c).eng.readyDc = e.readyDc + k))

/-- R193, R200, R216, R219: an engine starts at ENTRY with registers, accumulators and flags cleared and 16 tokens; a
reload gives IMEM and DMEM the forme's images and zero beyond them. R203, R229: when the count over events in the
queue reaches the watchdog's length the engine faults with RUNAWAY; when a record has waited that long after CLOSE, it
closes with CLOSE_TO and the engine faults. -/
def Obligations.EngineStartsAndWatchdogs : Prop :=
  (∀ (s : State) (c : Chan) (t0 : Instant),
    let x := s.chan c
    (x.eng.startDue = some t0 → x.eng.reloadDue = none → s.chOn c = true → x.engCtl.getLsbD 0 = true →
      ∃ t, exec (.engineStart c) s = .next t ∧ t.now = max s.now t0 ∧ OnlyChan s t c ∧
        (t.chan c).eng.st = .run ∧ (t.chan c).eng.pc = x.engCtl.extractLsb' 20 12 ∧
        (∀ i, (t.chan c).eng.gr i = 0) ∧ (∀ i, (t.chan c).eng.ar i = 0) ∧
        (t.chan c).eng.fl = { z := false, n := false, c := false, v := false } ∧ (t.chan c).eng.tokens = 16 ∧
        (t.chan c).eng.startDc = s.dc t0 ∧ (t.chan c).eng.readyDc = s.dc t0 ∧
        (t.chan c).eng.nextRefill = s.dc t0 + 1024 ∧ (t.chan c).eng.imem = x.eng.imem ∧
        (t.chan c).eng.dmem = x.eng.dmem) ∧
    (x.eng.reloadDue = some t0 → ∃ t, exec (.imageReload c) s = .next t ∧ t.now = max s.now t0 ∧ OnlyChan s t c ∧
      (∀ n, sget 0 (t.chan c).eng.imem n = (s.programFor x).imem.getD n 0) ∧
      (∀ n, sget 0 (t.chan c).eng.dmem n = (s.programFor x).dmem.getD n 0) ∧
      (t.chan c).eng.imemErr = [] ∧ (t.chan c).eng.dmemErr = [] ∧ (t.chan c).eng.reloadDue = none)) ∧
  (∀ (s : State) (c : Chan) (w p : Nat),
    let x := s.chan c
    s.chOn c = true → s.pwr.mode ≠ .reset → x.eng.st = .run ∨ x.eng.st = .wait ∨ x.eng.st = .emitw →
    (x.eng.wdFrom = some w → x.folder.closePosted = none → x.eng.lib = none → ∃ t, exec (.runaway c) s = .next t ∧
      EngFaulted s t c 6 ∧
      s.dcAt (w + fld x.engCtl 8 8 * 1024 - 1) ≤ t.now) ∧
    (x.folder.closePosted = some p → x.rcd.isOpen = true → x.armed = false → x.armNext = none →
      x.folder.byDisarm = true → ∃ t, exec (.closeTo c) s = .next t ∧ (t.chan c).eng.st = .fault ∧
        (t.chan c).eng.faultCode = 7 ∧ (t.chan c).rcd.isOpen = false ∧
        s.dcAt (max p x.eng.startDc + fld x.engCtl 8 8 * 1024) ≤ t.now ∧
        ∃ o ws, (t.chan c).outq = x.outq ++ o :: ws ∧ ws.length = 7 ∧ o.word.getLsbD 10 = true))

/-! ## Lanes and merge -/

/-- R53, R54, R57, R62, R65, R66, R71, Table 20.14: what a transition does to a lane whose domain is on while the timebase
takes stamps and no trim runs: it is counted; a selected edge inside the lockout is only counted towards EDGES; one
that is converted reserves an entry with its stamp, or opens a loss interval where the FIFO is full. -/
def Obligations.LaneTransitions : Prop :=
  ∀ (s : State) (t0 : Instant) (i : LaneIx) (level : Bool),
    let c := laneChan i
    let x := s.chan c
    let ln := s.laneAt i
    let now := max s.now t0
    let cfg := x.lnCfg (laneIsL i)
    let rising := level != cfg.getLsbD 3
    let ln1 := { ln with level := level, rise := if rising then ln.rise + 1 else ln.rise
                         fall := if rising then ln.fall else ln.fall + 1 }
    s.chOn c = true → s.stamping = true → x.trim.running = false → ln.level ≠ level → x.armedAt now = true →
    ln.restartAt = none →
    (cfg.getLsbD (if rising then 4 else 5) = false → ∃ t, exec (.transition t0 i level) s = .next t ∧ t.now = now ∧
      OnlyChan s t c ∧ t.laneAt i = ln1 ∧ t.chan c = x.setLane (laneIsL i) ln1) ∧
    (cfg.getLsbD (if rising then 4 else 5) = true → ln.loss = none → ln.edges ≠ 0 →
      (∃ p, ln.lastConv = some p ∧ now < p + 51200) → ∃ t, exec (.transition t0 i level) s = .next t ∧ OnlyChan s t c ∧
      t.chan c = x.setLane (laneIsL i) { ln1 with edges := ln.edges + 1 }) ∧
    (cfg.getLsbD (if rising then 4 else 5) = true → ln.loss = none → ln.need ≤ ln.edges + 1 → ln.xopen = none →
      fld (x.lnXchk (laneIsL i)) 0 4 = 0 → (∀ p, ln.lastConv = some p → p + 51200 ≤ now) →
      (ln.fifo.length + ln.reserved.length < 4096 → ∃ t e, exec (.transition t0 i level) s = .next t ∧
        (t.laneAt i).reserved = ln.reserved ++ [(s.span.next (now + 1) + 7 * 51200, e)] ∧
        e.time = (now / 25 : Nat) + s.tb.scale + ln.deskew.toInt ∧ e.pol = rising ∧ e.lane = laneIsL i ∧ e.type = 0 ∧
        e.edges.toNat = min (ln.edges + 1) 8191 ∧ e.lock = decide (ln.need < ln.edges + 1) ∧ e.dgen = ln.dgen ∧
        (t.laneAt i).lastConv = some now ∧ (t.laneAt i).edges = 0 ∧ (t.laneAt i).rise = ln1.rise ∧
        (t.laneAt i).fall = ln1.fall ∧ (t.laneAt i).lost = ln.lost ∧ (t.laneAt i).fifo = ln.fifo ∧
        (∀ j, j ≠ i → t.laneAt j = s.laneAt j)) ∧
      (4096 ≤ ln.fifo.length + ln.reserved.length → s.pwr.mode ≠ .reset → ∃ t l, exec (.transition t0 i level) s = .next t ∧
        (t.laneAt i).loss = some l ∧ l.count = min (ln.edges + 1) (2 ^ 46 - 1) ∧
        (t.laneAt i).lost = ln.lost + BitVec.ofNat 48 (ln.edges + 1) ∧ (t.laneAt i).reserved = ln.reserved ∧
        (t.laneAt i).fifo = ln.fifo ∧ (x.laneH.loss = none → x.laneL.loss = none → Reported t c.val 0x01)))

/-- R60, R70 to R72, R75, Table 20.14: an entry is written at its edge; a loss interval closes when 64 entries are free
(two after the disarm instant) with two marks, behind every entry reserved before it, that split its count; a check
whose codes differ by more than LIMIT counts and reports a mismatch, and the entry says how the check ended. -/
def Obligations.LaneFifoAndChecks : Prop :=
  ∀ (s : State) (i : LaneIx) (code : BitVec 11),
    let c := laneChan i
    let x := s.chan c
    let ln := s.laneAt i
    (∀ wr e rest, ln.reserved = (wr, e) :: rest → ∃ t f, exec (.laneFifoWrite i) s = .next t ∧ t.now = max s.now wr ∧
      OnlyChan s t c ∧ f.e = e ∧ f.wr = wr ∧ f.own = true ∧
      t.chan c = x.setLane (laneIsL i) { ln with
        reserved := rest, fifo := ln.fifo ++ [f], hwm := max ln.hwm (ln.fifo.length + 1) }) ∧
    (∀ l, ln.loss = some l →
      (ln.fifo.length + ln.reserved.length + (if x.armedAt (s.span.next s.now) then 64 else 2) ≤ 4096 →
        ∃ t a b, exec (.lossIntervalClose i) s = .next t ∧ t.now = max s.now (s.span.next s.now) ∧ OnlyChan s t c ∧
        (t.laneAt i).fifo.map (·.e) = ln.fifo.map (·.e) ++ ln.reserved.map (·.2) ++ [a, b] ∧ a.type = 1 ∧ b.type = 2 ∧
        a.time = l.firstTime ∧ b.time = l.lastTime ∧ a.lost + 2 ^ 23 * b.lost = l.count ∧
        (t.laneAt i).reserved = [] ∧ (t.laneAt i).loss = none ∧ (t.laneAt i).edges = 0 ∧ (t.laneAt i).need = 1 ∧
        (t.laneAt i).lost = ln.lost ∧ (t.laneAt i).rise = ln.rise ∧ (t.laneAt i).fall = ln.fall) ∧
      (4096 < ln.fifo.length + ln.reserved.length + (if x.armedAt (s.span.next s.now) then 64 else 2) →
        exec (.lossIntervalClose i) s = .next s)) ∧
    (∀ t0 leader, ln.xopen = some (t0, leader) → ∃ t, exec (.crossCheck i code) s = .next t ∧
      t.now = max s.now (t0 + 89600) ∧ OnlyChanT s t c ∧ (t.laneAt i).xopen = none ∧
      (let bad := (fld (x.lnXchk (laneIsL i)) 16 8 : Int) < |(leader.toNat : Int) - code.toNat|
       let mark := fun e : Entry => if e.conv = t0 / 25 ∧ e.type = 0 then { e with xck := if bad then 2 else 1 } else e
       (t.laneAt i).reserved = ln.reserved.map (fun r => (r.1, mark r.2)) ∧
       (t.laneAt i).fifo.map (·.e) = ln.fifo.map (fun f => mark f.e) ∧
       (t.laneAt i).mismatch.toNat = (if bad then min (ln.mismatch.toNat + 1) 65535 else ln.mismatch.toNat) ∧
       (bad → s.pwr.mode ≠ .reset → Reported t c.val 0x02) ∧
       (¬bad → t.truss = s.truss)))

/-- R40, R41, R70, R76, R77, Table 20.14: MERGE_READ takes an item that can be read, in a dc after every read of its
window, within 40 slots of any 64 dc where stamps are written, and the folder may take it 97 dc later; of two lanes
whose oldest entries can both be read, the earlier deskewed time goes first, H at a tie. MERGE_RESUME lets a held
merge read again; what waits at the folder follows at one item per dc. -/
def Obligations.MergeReads : Prop :=
  ∀ (s : State) (c : Chan),
    let x := s.chan c
    (x.merge.held = false → s.chOn c = true → (∃ h ∈ s.heads c, ∀ m ∈ s.openMarks c, m.before h.1 = false) →
      ∃ t it r wr k n, exec (.mergeRead c) s = .next t ∧
      (it, r, wr, k) ∈ s.heads c ∧ r ≤ n ∧ t.now = max s.now (s.dcAt n) ∧ (∀ p ∈ x.merge.window, p.1 < n) ∧
      (t.chan c).merge.reorder = insertItem (it, n + 97, wr) x.merge.reorder ∧
      (x.kind < 2 → (x.readCost it).1 ≤ 40 → x.merge.used n + (x.readCost it).1 ≤ 40) ∧
      (t.chan c).folder = x.folder ∧ (t.chan c).eng = x.eng) ∧
    (∀ f g, x.merge.held = false → s.chOn c = true → x.cfg.ptnr.getLsbD 31 = false → x.merge.ins = [] →
      s.openMarks c = [] →
      s.headOf c (laneIx c false) false = some f → s.headOf c (laneIx c true) false = some g →
      (let start := x.merge.window.foldl (fun a p => max a (p.1 + 1)) 0
       s.readable (laneIx c false) f.wr ≤ start → s.readable (laneIx c true) g.wr ≤ start →
       let h := s.dress (laneIx c false) false f.e
       let l := s.dress (laneIx c true) false g.e
       h.lane = false → l.lane = true →
       ∃ t n, exec (.mergeRead c) s = .next t ∧ (t.chan c).merge.reorder =
         insertItem (if h.abs ≤ l.abs then (.entry h, n + 97, f.wr) else (.entry l, n + 97, g.wr)) x.merge.reorder)) ∧
    (x.merge.held = true → x.folder.held = false → s.writerRoom (pierOf c) = true → ∃ t, exec (.mergeResume c) s = .next t ∧
      t.now = s.now ∧ OnlyChan s t c ∧ t.chan c = { x with
        folder := { x.folder with frozen := none }
        merge := { x.merge with
          held := false, window := x.merge.window ++ [(s.dc s.now - 1, 0)]
          reorder := x.merge.reorder.mapIdx fun i r => (r.1, max r.2.1 (s.dc s.now + i), r.2.2) } })

/-! ## Folder and event queue -/

/-- R130, R177, R181, R182, R363: FOLDER_INTAKE takes the oldest item of the reorder window at its dc. An item that does
not belong to the open record waits in the folder. In a RECORD gate a stamp adds its EDGES to its class count, and
every enabled delta slot ends its pair on a stamp of its stop class and starts one on a stamp of its start class; a
discontinuity record adds its STEP to the correction and to the gate's sum; a fence record restarts every chain and
gives the record its new placement. -/
def Obligations.FolderIntakes : Prop :=
  ∀ (s : State) (c : Chan) (it : Item) (n : Nat) (wr : Instant) (rest : List (Item × Nat × Instant)),
    let x := s.chan c
    let time := x.folder.compTime it
    s.chOn c = true → x.folder.held = false → x.folder.frozen = none → x.folder.recOpen = true →
    x.merge.reorder = (it, n, wr) :: rest →
    (x.folder.belongs x it = false → ∃ t, exec (.folderIntake c) s = .next t ∧ t.now = max s.now (s.dcAt n) ∧
      OnlyChan s t c ∧
      t.chan c = { x with merge := { x.merge with reorder := rest, taken := x.merge.taken ++ [it] } }) ∧
    (x.folder.belongs x it = true → ∃ t, exec (.folderIntake c) s = .next t ∧ t.now = max s.now (s.dcAt n) ∧
      OnlyChan s t c ∧ (t.chan c).merge = { x.merge with reorder := rest } ∧ (t.chan c).cfg = x.cfg ∧
      (t.chan c).eng.g = x.eng.g ∧ (t.chan c).folder.o = x.folder.o ∧ (t.chan c).folder.last = max x.folder.last time ∧
      (x.gateKind = 0 → ∀ e, it = .entry e → e.type = 0 →
        (t.chan c).folder.gate.counts =
          x.folder.gate.counts.set e.cls (x.folder.gate.counts.getD e.cls 0 + e.edges.toNat) ∧
        (t.chan c).folder.gate.lost = x.folder.gate.lost ∧ (t.chan c).folder.gate.steps = x.folder.gate.steps ∧
        (t.chan c).folder.comp = x.folder.comp) ∧
      (∀ e j, it = .entry e → e.type = 0 → j < 4 → x.folder.slots.length = 4 → (x.dslot j).getLsbD 31 = true →
        (if e.ptnr then x.folder.restartP else if e.lane then x.folder.restartL else x.folder.restartH) = false →
        (t.chan c).folder.slots.getD j none =
          if inClass (fld (x.dslot j) 8 3) e.cls then some time
          else if inClass (fld (x.dslot j) 0 3) e.cls then none else x.folder.slots.getD j none) ∧
      (∀ r, it = .ins r → r.fence = false →
        (t.chan c).folder.comp = x.folder.comp + r.step ∧
        (x.gateKind = 0 → (t.chan c).folder.gate.steps = x.folder.gate.steps + r.step)) ∧
      (∀ r, it = .ins r → r.fence = true →
        (t.chan c).folder.slots = List.replicate 4 none ∧ (t.chan c).folder.comp = x.folder.comp ∧
        (t.chan c).rcd.plOpen = ⟨r.newSite, r.newStep, r.newEpoch⟩ ∧
        (x.engOn = true → ∃ v ∈ (t.chan c).folder.due, v.type = 9 ∧ v.time = time ∧ v.val = r.newStep.setWidth 64)))

/-- R178, R183, R187, R188, R194: in the dc in which stream time reaches the end of a gate, a reduction interval or a mask
window the unit closes: the gate's SUMMARY falls due with its bank image and the next gate opens at that time with its
units empty; the interval's word is handed over under KIND RED and the next interval starts empty; every mask window
that has ended is gone, and of those a presence window without loss has failed. R186: the next sampling instant comes
without a stamp of the class since the last one: the sample is delivered with all ones and the no-stamp bit, and
sampling goes on with the next instant. -/
def Obligations.FolderUnits : Prop :=
  (∀ (s : State) (c : Chan) (n : Nat) (g : Int),
    let x := s.chan c
    s.chOn c = true → x.folder.recOpen = true → x.folder.done = false → (∀ cl, x.folder.closing = some cl → g < cl) →
    s.streamDue c g = some n →
    (x.gateStop = some g → (∀ p ∈ x.folder.mask, g ≤ p.stop) → x.cfg.gateSc ≠ 0 →
      ∃ t, exec (.gateClose c) s = .next t ∧ t.now = max s.now (s.dcAt n) ∧ OnlyChan s t c ∧
      (t.chan c).folder.gate.isOpen = true ∧ (t.chan c).folder.gate.idx = x.folder.gate.idx + 1 ∧
      (t.chan c).folder.gate.start = g ∧ (t.chan c).folder.gate.counts = List.replicate 6 0 ∧
      (t.chan c).folder.gate.m0 = Moments.reset ∧ (t.chan c).folder.gate.bins = [] ∧
      (t.chan c).folder.red = x.folder.red ∧ (t.chan c).eng.queue = x.eng.queue ∧
      (x.engOn = true → (t.chan c).folder.sums = x.folder.sums ++ [(x.flush (· < g)).folder.gate.bank g 0] ∧
        ∃ v ∈ (t.chan c).folder.due, v.type = 4 ∧ v.time = g ∧ v.val = BitVec.ofNat 64 x.folder.gate.idx)) ∧
    (∀ i, i < 2 → x.folder.red.length = 2 → (x.redCfg i).getLsbD 31 = true → x.redStop i = g → x.cfg.redSc ≠ 0 →
      (∀ j, j < 2 → (x.redCfg j).getLsbD 31 = true → j ≠ i → if j < i then g < x.redStop j else g ≤ x.redStop j) →
      ∃ t, exec (.reductionIntervalClose c) s = .next t ∧ t.now = max s.now (s.dcAt n) ∧ OnlyChan s t c ∧
      (let q := x.folder.red.getD i Reducer.reset
       (t.chan c).folder.red.getD i Reducer.reset = { idx := q.idx + 1, any := false, mn := 0, mx := 0 } ∧
       (x.kind = 2 → x.rcd.isOpen = true → ∃ o ∈ (t.chan c).outq, o.dc = n ∧ o.word = reducedWord i q.idx q.any q.mx q.mn) ∧
       (t.chan c).folder.gate = x.folder.gate)) ∧
    ((x.folder.mask.map (·.stop)).min? = some g → (∀ e, x.gateStop = some e → g < e) →
      ∃ t, exec (.maskWindowClose c) s = .next t ∧ t.now = max s.now (s.dcAt n) ∧
      OnlyChan s t c ∧ (t.chan c).folder.mask = x.folder.mask.filter (fun p => !decide (p.stop ≤ g)) ∧
      (t.chan c).rcd.maskFail = x.rcd.maskFail + x.folder.mask.countP (fun p =>
        decide (p.stop ≤ g) && !p.ovf && !maskSense (x.maskWin p.w).1) ∧
      (t.chan c).folder.gate.counts = x.folder.gate.counts ∧ (t.chan c).folder.red = x.folder.red)) ∧
  (∀ (s : State) (c : Chan) (n : Nat),
    let x := s.chan c
    let g := x.folder.o + (x.folder.phsI + 1 : Nat) * ((fld x.cfg.phsCfg 0 28 * 2048 : Nat) : Int)
    s.chOn c = true → x.folder.recOpen = true → x.folder.done = false → (∀ cl, x.folder.closing = some cl → g ≤ cl) →
    x.cfg.phsCfg.getLsbD 31 = true → s.streamDue c g = some n →
    ∃ t, exec (.phaseSample c) s = .next t ∧ t.now = max s.now (s.dcAt n) ∧ OnlyChan s t c ∧
      (t.chan c).folder.phsI = x.folder.phsI + 1 ∧ (t.chan c).folder.phsK = x.folder.phsK ∧
      (t.chan c).folder.gate = x.folder.gate ∧
      (x.engOn = true → x.evqCfg.getLsbD 8 = true → ∃ v ∈ (t.chan c).folder.due,
        v.type = 5 ∧ v.head = 1 ∧ v.time = g ∧ v.val = BitVec.allOnes 64) ∧
      (x.evqCfg.getLsbD 8 = false → (t.chan c).folder.due = x.folder.due))

/-- R194, R197, R198, R203, Table 5.5: EVENT_POST puts the first event that has fallen due into the queue, 20 dc or more
after the one before, a SUMMARY with the lowest free bank, which it fills; where the queue is full, or no bank is
free, the folder and the merge are held, HOLDS counts and cause EVQ_HOLD is reported; an engine that takes no event
before its next arm loses it. FOLDER_RESUME ends the hold once there is room. -/
def Obligations.EventQueue : Prop :=
  ∀ (s : State) (c : Chan) (v : Ev) (rest : List Ev) (d : Nat),
    let x := s.chan c
    let n := match x.folder.lastPost with | some p => max d (p + 20) | none => d
    s.chOn c = true → x.folder.recOpen = true →
    (x.folder.held = false → (s.closeDue c = none ∨ x.folder.done = true) → x.folder.due = v :: rest →
      (if v.type = 1 ∨ x.folder.done = true then d = s.dc s.now else s.streamDue c (v.time + 1) = some d) →
      (x.eng.deaf = false → x.eng.queue.length < 64 → v.type ≠ 4 → ∃ t, exec (.eventPost c) s = .next t ∧
        t.now = max s.now (s.dcAt n) ∧ OnlyChan s t c ∧
        (t.chan c).eng = { x.eng with
          queue := x.eng.queue ++ [v], hwm := max x.eng.hwm (x.eng.queue.length + 1)
          wdFrom := if x.eng.queue = [] then some n else x.eng.wdFrom } ∧
        (t.chan c).folder = { x.folder with
          due := rest, lastPost := some n, closePosted := if v.type = 2 then some n else x.folder.closePosted } ∧
        (t.chan c).banks = x.banks) ∧
      (∀ b, x.eng.deaf = false → x.eng.queue.length < 64 → v.type = 4 → x.banks.length = 4 → b < 4 →
        (x.banks.getD b Bank.reset).held = false → (∀ a, a < b → (x.banks.getD a Bank.reset).held = true) →
        ∃ t, exec (.eventPost c) s = .next t ∧ t.now = max s.now (s.dcAt n) ∧ OnlyChan s t c ∧
        (t.chan c).eng.queue = x.eng.queue ++ [{ v with head := BitVec.ofNat 56 b }] ∧
        (t.chan c).banks = x.banks.set b { words := x.folder.sums.headD [], held := true } ∧
        (t.chan c).folder.sums = x.folder.sums.drop 1 ∧ (t.chan c).folder.due = rest) ∧
      (x.eng.deaf = false →
        (64 ≤ x.eng.queue.length ∨ v.type = 4 ∧ ∀ a, a < 4 → (x.banks.getD a Bank.reset).held = true) →
        ∃ t, exec (.eventPost c) s = .next t ∧ t.now = max s.now (s.dcAt n) ∧ OnlyChanT s t c ∧
        (t.chan c).folder.held = true ∧ (t.chan c).merge.held = true ∧ (t.chan c).eng.queue = x.eng.queue ∧
        (t.chan c).folder.due = x.folder.due ∧ (t.chan c).eng.holds.toNat = min (x.eng.holds.toNat + 1) 65535 ∧
        (s.pwr.mode ≠ .reset → Reported t c.val 0x04)) ∧
      (x.eng.deaf = true → v.type ≠ 2 → ∃ t, exec (.eventPost c) s = .next t ∧ OnlyChan s t c ∧
        (t.chan c).eng = x.eng ∧ (t.chan c).folder.due = rest ∧ (t.chan c).banks = x.banks)) ∧
    (x.folder.held = true → x.eng.queue.length < 64 →
      (∀ w, x.folder.due.head? = some w → w.type = 4 → ∃ a, a < 4 ∧ (x.banks.getD a Bank.reset).held = false) →
      ∃ t, exec (.folderResume c) s = .next t ∧ t.now = s.now ∧ OnlyChan s t c ∧
      (t.chan c).folder = { x.folder with
        held := false, frozen := if s.writerRoom (pierOf c) then none else x.folder.frozen } ∧ (t.chan c).eng = x.eng ∧
      (t.chan c).merge.reorder.map (·.1) = x.merge.reorder.map (·.1))

/-! ## Trigger unit and galley writers -/

/-- R274, R275, R278, R281, R283, R284: a condition acts in the dc in which stream time reaches it. In an armed unit, at
or after the arm point, it declares the trigger, whose word is the next one handed over; before the arm point, and
after the collection, it is ignored and counted; in the collection a condition of the same span cycle adds its bit.
AUTO acts AUTO span cycles after the arm point; a time from the closing time on and before the next arm point is ignored. A crossbar edge sets the bit of its lane. R274, R281, R282, R309,
Table 8.10: the hold-off ends when stream time reaches the arm point; COLLECT × 64 dc after the declaration the
trigger is final, TRG_LAST names its record, its primary condition and its causes, and its folio shows it. -/
def Obligations.TriggerUnit : Prop :=
  (∀ (s : State) (c : Chan) (n : Nat),
    let x := s.chan c
    let z := s.at_ (s.dcAt n)
    s.chOn c = true → x.folder.stopAsk = none →
    (∀ k, x.trg.cross = [] → x.autoAt = none → x.trg.pend = [k] → s.condDue c k = some n → z.condDue c k = some n →
      x.rcd.isOpen = true →
      ((x.trg.st = .armed ∨ x.trg.st = .holdoff) → x.trg.a ≤ k.time → (∀ cl, x.folder.closing = some cl → k.time < cl) →
        ∃ t, exec (.triggerCondition c) s = .next t ∧ t.now = z.now ∧ OnlyChan s t c ∧ (t.chan c).trg.st = .collect ∧
        (t.chan c).trg.cause = BitVec.ofNat 8 (2 ^ k.i) ∧ (t.chan c).trg.time = k.time ∧ (t.chan c).trg.declDc = n ∧
        (t.chan c).trg.pend = [] ∧ (t.chan c).trg.ignored = x.trg.ignored ∧ (t.chan c).outq = x.outq ∧
        ((∀ w ∈ x.outq, w.dc ≠ n) → (t.chan c).rcd = { x.rcd with fs := .waitTw })) ∧
      (((x.trg.st = .armed ∨ x.trg.st = .holdoff) ∧ k.time < x.trg.a ∨ x.trg.st = .fill ∨
          ∃ cl, x.folder.closing = some cl ∧ cl ≤ k.time ∧ k.time < cl + 819200) →
        ∃ t, exec (.triggerCondition c) s = .next t ∧ t.now = z.now ∧ OnlyChan s t c ∧
        t.chan c = { x with trg := { x.trg with pend := [], ignored := satAdd x.trg.ignored 1 } }) ∧
      (x.trg.st = .collect → k.time / 2048 = x.trg.declTime / 2048 → (∀ cl, x.folder.closing = some cl → k.time < cl) →
        x.folder.byDisarm = false → x.trg.final = false →
        ∃ t, exec (.triggerCondition c) s = .next t ∧ t.now = z.now ∧ OnlyChan s t c ∧
        t.chan c = { x with trg := { x.trg with
          pend := [], cause := x.trg.cause ||| BitVec.ofNat 8 (2 ^ k.i), time := min x.trg.time k.time } })) ∧
    (x.trg.cross = [] → x.trg.pend = [] → x.autoAt = some (x.trg.a + x.cfg.trgAuto.toNat * 2048) →
      s.streamDue c (x.trg.a + x.cfg.trgAuto.toNat * 2048) = some n →
      z.streamDue c (x.trg.a + x.cfg.trgAuto.toNat * 2048) = some n → x.folder.closing = none →
      ∃ t, exec (.triggerCondition c) s = .next t ∧ t.now = z.now ∧ OnlyChan s t c ∧ (t.chan c).trg.st = .collect ∧
        (∀ i, i < 8 → (t.chan c).trg.cause.getLsbD i = (x.condKind i == 7)) ∧
        (t.chan c).trg.time = x.trg.a + x.cfg.trgAuto.toNat * 2048) ∧
    (∀ abs p level, x.trg.cross = [(abs, p, level)] → x.trg.pend = [] → x.autoAt = none →
      s.crossDue c (abs, p, level) = some n → z.crossDue c (abs, p, level) = some n → (∀ i, i < 8 → x.condKind i ≠ 3) →
      p < 24 → ∃ t, exec (.triggerCondition c) s = .next t ∧ t.now = z.now ∧ OnlyChan s t c ∧ (t.chan c).trg.cross = [] ∧
        (∀ j, j < 24 → (t.chan c).trg.pat.getLsbD j = if j = p then level else x.trg.pat.getLsbD j) ∧
        (t.chan c).trg.cause = x.trg.cause ∧ (t.chan c).rcd = x.rcd) ∧
    (∀ abs p level i, x.trg.cross = [(abs, p, level)] → x.trg.pend = [] → x.autoAt = none →
      s.crossDue c (abs, p, level) = some n → z.crossDue c (abs, p, level) = some n → i < 8 → x.condKind i = 3 →
      (∀ j, j < 8 → j ≠ i → x.condKind j ≠ 3) → x.rcd.isOpen = true → x.folder.closing = none → x.trg.st = .armed →
      x.trg.a ≤ abs + x.folder.base → x.patternMatch i x.trg.pat = false →
      x.patternMatch i (putFld x.trg.pat p 1 (bit level)) = true →
      ∃ t, exec (.triggerCondition c) s = .next t ∧ t.now = z.now ∧ OnlyChan s t c ∧ (t.chan c).trg.st = .collect ∧
        (t.chan c).trg.cause = BitVec.ofNat 8 (2 ^ i) ∧ (t.chan c).trg.time = abs + x.folder.base ∧
        (t.chan c).trg.cross = [] ∧ (t.chan c).trg.pend = [])) ∧
  (∀ (s : State) (c : Chan) (n : Nat),
    let x := s.chan c
    (x.trg.st = .holdoff → s.streamDue c x.trg.a = some n → ∃ t, exec (.holdoffEnd c) s = .next t ∧
      t.now = max s.now (s.dcAt n) ∧ OnlyChan s t c ∧ t.chan c = { x with trg := { x.trg with st := .armed } }) ∧
    (x.trg.st = .collect → x.trg.final = false → ∀ i, i < 8 → x.trg.cause.getLsbD i = true →
      (∀ j, j < i → x.trg.cause.getLsbD j = false) → ∃ t, exec (.collectEnd c) s = .next t ∧
      t.now = max s.now (s.dcAt (x.trg.declDc + fld x.cfg.trgCfg 24 8 * 64)) ∧
      t = { s with now := t.now, chans := t.chans, folios := t.folios } ∧ (∀ d, d ≠ c → t.chan d = s.chan d) ∧
      t.chan c = { x with trg := (t.chan c).trg } ∧
      (x.rcd.isOpen = true → Sparse Folio.free s.folios → ∀ f, t.folio f = if f = x.rcd.folio then
        { s.folio f with ttime := stamp64 x.trg.time, trig := true } else s.folio f) ∧ (t.chan c).trg.st = .fill ∧ (t.chan c).trg.final = true ∧
      (t.chan c).trg.cause = x.trg.cause ∧ (t.chan c).trg.time = x.trg.time ∧
      (t.chan c).trg.last.toNat = x.rcd.recNo.toNat * 2 ^ 16 + i * 2 ^ 8 + x.trg.cause.toNat ∧
      (t.chan c).trg.lastTime = stamp64 x.trg.time))

/-- R206, R274, R299, R300, R304, Table 8.2: HELD_REARM and FORME_REARM re-arm a channel whose domain is on, whose site is
bound and which has a place for a record, at the first SPAN instant after the wait: record 0 opens there, with open
time and arm point at that instant, in the first place allowed and the lowest free folio of the channel. -/
def Obligations.RearmOpensRecord : Prop :=
  ∀ (s : State) (c : Chan) (t0 : Instant) (p : RecPlace),
    let x := s.chan c
    let at_ := max s.now (s.span.next (t0 + 1))
    let o := ((at_ / 25 : Nat) : Int) + s.tb.scale
    s.chOn c = true → s.bound c = true → x.trim.running = false → x.rcd.isOpen = false →
    s.placeFor c x.cfg none = some p →
    ∀ i : Instr, (i = .heldRearm c ∧ x.heldRearm = some t0 ∨ i = .formeRearm c ∧ x.formeRearm = some t0 ∧ x.armed = false) →
    ∃ t, exec i s = .next t ∧ t.now = at_ ∧ (t.chan c).armed = true ∧ (t.chan c).armAt = at_ ∧
      (t.chan c).heldRearm = none ∧ (t.chan c).formeRearm = none ∧ (t.chan c).held = false ∧
      (t.chan c).rcd.isOpen = true ∧ (t.chan c).rcd.recNo = 0 ∧ (t.chan c).rcd.o = o ∧ (t.chan c).rcd.base = p.base ∧
      (t.chan c).rcd.r = p.r ∧ (t.chan c).rcd.wp = 0 ∧ (t.chan c).rcd.fs = .pre ∧ (t.chan c).recCount = 1 ∧
      (t.chan c).trg.st = .armed ∧ (t.chan c).trg.a = o ∧ (t.chan c).trg.cause = 0 ∧
      (t.chan c).folder.recOpen = true ∧ (t.chan c).folder.o = o ∧ (t.chan c).folder.gate.isOpen = true ∧
      (t.chan c).cfg = x.cfg ∧ (t.chan c).rcd.folio = s.freeFolio x.cfg ∧
      t.folio (s.freeFolio x.cfg) = { Folio.free with
        ttime := BitVec.allOnes 64, addr := BitVec.ofNat 30 p.base, ch := BitVec.ofNat 7 c.val, seg := p.isSeg, st := 1 } ∧
      (∀ f, f ≠ s.freeFolio x.cfg → t.folio f = s.folio f) ∧ t.mem = s.mem ∧ t.closed = s.closed

/-- R391, R392, R393, R294, Table 20.14: HAND_OVER takes the oldest word of the channel's output queue 3 dc after its
hand-over: an unwritten word goes; a full buffer keeps it, holds the merge with WSTALL and makes stream time stand still
(R178); otherwise it enters the
pier's buffer. The word that ends its chunk presents the chunk's complete bursts; the last colophon word presents
every word of the record. FLUSH presents the complete bursts of a chunk whose oldest word has waited FLUSH × 64 dc. -/
def Obligations.GalleyWriters : Prop :=
  ∀ (s : State) (c : Chan),
    let x := s.chan c
    let k := pierOf c
    let put := fun (t : State) (ws : List BufWord) (n : Nat) =>
      let l := completeBursts (ws.filter fun w => chunkOf w.g == n)
      t.writers[k] = ws.filter (fun w => !(l.any fun b => b.1 == w.g / 2)) ∧
      ∀ b ∈ l, ∃ r ∈ t.vlt.reqs, r.port = k.val ∧ r.kind = .writeBurst ∧ r.burst = b.1 ∧ r.data = b.2
    s.chOn c = true →
    (∀ w rest, x.outq = w :: rest →
      (w.g = none → ∃ t, exec (.handOver c) s = .next t ∧ t.now = max s.now (s.dcAt (w.dc + 3)) ∧ OnlyChan s t c ∧
        t.chan c = { x with outq := rest }) ∧
      (∀ g, w.g = some g → s.writerRoom k = false → ∃ t, exec (.handOver c) s = .next t ∧ OnlyChanT s t c ∧
        t.chan c = { x with merge := { x.merge with held := true }, folder := (t.chan c).folder } ∧
        (t.chan c).folder = { x.folder with frozen := (t.chan c).folder.frozen } ∧
        (t.chan c).folder.frozen.isSome = true ∧
        (x.merge.held = false → s.intakeStalled k = false → s.pwr.mode ≠ .reset → Reported t 136 0x01)) ∧
      (∀ g, w.g = some g → s.writerRoom k = true →
        let b : BufWord := { ch := c, g := g, word := w.word, dc := s.dc (max s.now (s.dcAt (w.dc + 3))), final := w.final }
        ∃ t, exec (.handOver c) s = .next t ∧ t.now = max s.now (s.dcAt (w.dc + 3)) ∧ (t.chan c).outq = rest ∧
        (∀ j, j ≠ k → t.writers[j] = s.writers[j]) ∧ t.mem = s.mem ∧
        (w.final = false → s.endsChunk c g = false →
          t = { s with now := t.now, chans := t.chans, writers := t.writers } ∧ t.writers[k] = s.writers[k] ++ [b] ∧
          t.chan c = { x with outq := rest }) ∧
        (w.final = false → s.endsChunk c g = true → put t (s.writers[k] ++ [b]) (chunkOf g)) ∧
        (w.final = true → (rest.any (·.final)) = false →
          t.writers[k] = (s.writers[k]).filter (fun v => v.ch != c) ∧
          (s.vlt.reqs = [] → ∃ r ∈ t.vlt.reqs, r.port = k.val ∧ r.burst = g / 2 ∧ (g % 2 == 1, w.word) ∈ r.data)))) ∧
    (∀ n d, (n, d) ∈ flushable s.writers[k] → (∀ q ∈ flushable s.writers[k], q ≠ (n, d) → d < q.2) →
      ∃ t, exec (.flush k) s = .next t ∧ t.now = max s.now (s.dcAt (d + fld s.vlt.cfg 0 8 * 64)) ∧
      put t s.writers[k] n ∧ (∀ j, j ≠ k → t.writers[j] = s.writers[j]) ∧ t.mem = s.mem ∧ t.chans = s.chans)

/-! ## Command mailbox -/

/-- R548, R549, R551, R555, Tables 16.3, 16.4: a command written to an idle mailbox is latched at the next mc edge with
its TAG, opcode, arguments and buffer, and completes after the mc of its row; before the firmware has started it
completes with MODE after 32 mc. While a command is in progress the frame ends with BUSY and nothing is latched. Of
the commands only THROTTLE_ACK, ADVANCE and those of DIAG act before they complete. -/
def Obligations.CommandsIssue : Prop :=
  ∀ (s : State) (i : Instr) (h : HostCmd), hostCmd i = some h → Served s →
    let z := s.at_ h.at_
    let m := s.mc (s.clocks.mgmt.next z.now)
    (s.msp.busy = false → s.msp.fwup = true → ∃ t c, exec i s = .next t ∧ t.now = max z.now (s.mcAt m) ∧
      t.msp.cmd = some c ∧ t.msp.busy = true ∧ t.msp.done = false ∧ t.msp.tag = h.tag ∧ t.msp.opc = h.opc ∧
      t.msp.last = 0 ∧ t.msp.code = s.msp.code ∧ t.msp.resp = s.msp.resp ∧ c.opc = h.opc ∧ ArgLatched c h.arg ∧
      BufLatched s c h.buf ∧ c.issue = m ∧ c.reqAtIssue = s.thm.req.isSome ∧
      (∀ k, h.after = some k → c.doneAt = some (m + k) ∧ c.outcome = none) ∧
      (h.after ≠ none → h.opc ≠ 0x30 → fld (h.arg.getD 0 0) 0 4 ≠ 3 ∨ h.opc ≠ 0x40 →
        t = { s with now := t.now, msp := t.msp }) ∧
      t.chans = s.chans ∧ t.mem = s.mem ∧ t.place = s.place ∧ t.lcy.fuses = s.lcy.fuses) ∧
    (s.msp.busy = false → s.msp.fwup = false → ∃ t c l, exec i s = .next t ∧
      t.msp.cmd = some c ∧ t.msp.busy = true ∧ t.msp.tag = h.tag ∧ c.doneAt = some (m + 32) ∧
      c.outcome = some (0x12, l, none) ∧ t = { s with now := t.now, msp := t.msp }) ∧
    (s.msp.busy = true → ∃ t, exec i s = .next t ∧ t.now = z.now ∧ OnlyMailbox s t ∧ t.msp =
      { s.msp with last := 0x06, errBusy := satAdd s.msp.errBusy 1 } ∧ Reported t 232 0x04)

/-- R550, R551, R553, R555, Tables 16.2 to 16.4: COMMAND_COMPLETE answers at the command's completion edge. An opcode that
Table 16.3 does not name gives BADCMD; a reserved argument bit or a value out of range BADARG; a mode that does not
permit the command MODE; none of these has any effect. NOP answers OK, READ_TIME the stamp of the SPAN visibility edge
and TBS.STAT. -/
def Obligations.CommandsAnswer : Prop :=
  ∀ (s : State) (c : Cmd) (m : Nat), CmdDue s c m →
    let z := s.at_ (s.mcAt m)
    let at_ := s.span.vis 25600 z.now
    ((∀ n, n ∈ [0x00, 0x01, 0x10, 0x11, 0x12, 0x13, 0x14, 0x15, 0x20, 0x21, 0x30, 0x31, 0x40, 0x50, 0x51] →
        c.opc.toNat ≠ n) →
      ∃ t, exec .commandComplete s = .next t ∧ t.now = z.now ∧ OnlyMailbox s t ∧ Answered s t 0x10 []) ∧
    (Command.known c = true → Command.badArg c = true →
      ∃ t r, exec .commandComplete s = .next t ∧ t.now = z.now ∧ OnlyMailbox s t ∧ Answered s t 0x11 r) ∧
    (Command.known c = true → Command.badArg c = false →
      (c.opc.toNat ∈ [0x10, 0x11, 0x12, 0x13, 0x14, 0x15, 0x20, 0x50, 0x51] ∧ s.pwr.mode ≠ .run ∧ s.pwr.mode ≠ .shed ∨
       c.opc.toNat = 0x31 ∧ s.pwr.mode ≠ .shed ∨
       c.opc.toNat = 0x21 ∧ s.pwr.mode ≠ .run ∧ s.pwr.mode ≠ .shed ∧ s.pwr.mode ≠ .freeze) →
      ∃ t r, exec .commandComplete s = .next t ∧ t.now = z.now ∧ OnlyMailbox s t ∧ Answered s t 0x12 r) ∧
    ((∀ j, j < 8 → c.arg.getD j 0 = 0) → c.opc = 0x00 →
      ∃ t, exec .commandComplete s = .next t ∧ t.now = z.now ∧ OnlyMailbox s t ∧ Answered s t 0x00 []) ∧
    ((∀ j, j < 8 → c.arg.getD j 0 = 0) → c.opc = 0x01 →
      ∃ t, exec .commandComplete s = .next t ∧ t.now = z.now ∧ OnlyMailbox s t ∧
        Answered s t 0x00 [lo32 (stamp64 (s.stamp at_)), hi32 (stamp64 (s.stamp at_)), s.tb.stat at_])

/-- R28, R29, R296, R304, R307, R556, R558, R559, Tables 8.2, 16.4: ARM arms every channel of the mask at one SPAN
instant, or, where one may not be armed, none of them, and names the first that fails; DISARM disarms every channel of
the mask at one SPAN instant, at which their records close; SET_POST keeps its count for the record boundary of an
armed channel; RELEASE frees the folio of a record whose delivery has not begun. -/
def Obligations.CaptureCommands : Prop :=
  ∀ (s : State) (c : Cmd) (m : Nat), CmdDue s c m → Command.badArg c = false → (s.pwr.mode = .run ∨ s.pwr.mode = .shed) →
    let z := s.at_ (s.mcAt m)
    let at_ := s.span.vis 25600 z.now
    let stamp : List Word := [lo32 (stamp64 (s.stamp at_)), hi32 (stamp64 (s.stamp at_))]
    let l := allChans.filter fun n =>
      (Command.word c (n.val / 32)).getLsbD (n.val % 32)
    (c.opc = 0x11 → (∀ n ∈ l, s.armFails n = none) → ∃ t, exec .commandComplete s = .next t ∧ t.now = z.now ∧
      Answered s t 0x00 (stamp ++ [0x7F, BitVec.ofNat 32 (l.countP fun n => (s.chan n).armed)]) ∧
      (∀ n ∈ l, (t.chan n).armed = true ∧ ((s.chan n).armed = false → (t.chan n).armAt = at_)) ∧
      (∀ n, n ∉ l → (t.chan n).armed = (s.chan n).armed ∧ (t.chan n).rcd = (s.chan n).rcd) ∧
      t.mem = s.mem ∧ t.closed = s.closed) ∧
    (∀ n e, c.opc = 0x11 → n ∈ l → s.armFails n = some e → (∀ k ∈ l, k < n → s.armFails k = none) →
      ∃ t r0 r1, exec .commandComplete s = .next t ∧ OnlyMailbox s t ∧
      Answered s t e [r0, r1, BitVec.ofNat 32 n.val, BitVec.ofNat 32 (l.countP fun n => (s.chan n).armed)]) ∧
    (c.opc = 0x12 → ∃ t, exec .commandComplete s = .next t ∧ t.now = z.now ∧
      Answered s t 0x00 (stamp ++ [0x7F, BitVec.ofNat 32 (l.countP fun n => !(s.chan n).armed)]) ∧
      (∀ n ∈ l, (t.chan n).armed = false ∧ (t.chan n).heldRearm = none ∧
        ((s.chan n).armed = true → (s.chan n).armNext = none → (s.chan n).folder.closing = none →
          (t.chan n).disarmAt = some at_ ∧ (t.chan n).folder.byDisarm = true ∧
          (t.chan n).folder.closing = some ((at_ / 25 : Nat) + (s.chan n).folder.base))) ∧
      (∀ n, n ∉ l → t.chan n = s.chan n) ∧ t.mem = s.mem ∧ t.closed = s.closed) ∧
    (∀ n : Chan, c.opc = 0x13 → fld (Command.word c 0) 0 7 = n.val →
      let k := fld (Command.word c 1) 0 30
      let lim := fld (s.chan n).cfg.circ 16 15 * 65536 - 8 - 1
      (s.chOn n = false → ∃ t r, exec .commandComplete s = .next t ∧ OnlyMailbox s t ∧ Answered s t 0x05 [r]) ∧
      (s.chOn n = true → (s.chan n).armed = true → ∃ t, exec .commandComplete s = .next t ∧ t.now = z.now ∧
        Answered s t (if lim < k then 0x08 else 0x00) [BitVec.ofNat 32 (min k lim)] ∧
        t.chan n = { s.chan n with
          stagedPost := some (BitVec.ofNat 30 k), postLate := (s.chan n).stagedForme.isSome } ∧ (∀ d, d ≠ n → t.chan d = s.chan d))) ∧
    (∀ f, c.opc = 0x14 → fld (Command.word c 0) 0 16 = f → s.delivering f = false →
      let resp : Word := BitVec.ofNat 32 ((s.folio f).ch.toNat * 4 + (s.folio f).st.toNat)
      (((s.folio f).st = 2 ∨ (s.folio f).st = 3) → (∃ r ∈ s.closed, r.folio = f) →
        Sparse Folio.free s.folios →
        ∃ t, exec .commandComplete s = .next t ∧ t.now = z.now ∧ Answered s t 0x00 [resp] ∧ t.folio f = Folio.free ∧
        t.closed = s.closed.filter (fun r => r.folio != f) ∧ (∀ g, g ≠ f → t.folio g = s.folio g) ∧ t.mem = s.mem) ∧
      (((s.folio f).st = 0 ∨ (s.folio f).st = 1) → ∃ t, exec .commandComplete s = .next t ∧ OnlyMailbox s t ∧
        Answered s t 0x16 [resp]))

/-- R368, R369, R454, R500, R560 to R563, R617, R622, R637, R639, Table 16.4: what the other commands do when they
complete, and THROTTLE_ACK when it is issued. R564, R384, Table 16.4: a DIAG command makes one request of port DG for
each of its words, in ascending order, and reads or writes nothing where a check fails; when the last has been served
it answers, DIAG_READ with the words. -/
def Obligations.ServiceAndDiagCommands : Prop :=
  (∀ (s : State),
    (∀ (c : Cmd) (m : Nat), CmdDue s c m → Command.badArg c = false → (s.pwr.mode = .run ∨ s.pwr.mode = .shed) →
      let z := s.at_ (s.mcAt m)
      let at_ := s.span.vis 25600 z.now
      let stamp : List Word := [lo32 (stamp64 (s.stamp at_)), hi32 (stamp64 (s.stamp at_))]
      (c.opc = 0x15 → z.remapFails c ≠ 0 → ∃ t, exec .commandComplete s = .next t ∧ OnlyMailbox s t ∧
        Answered s t (z.remapFails c) stamp) ∧
      (c.opc = 0x15 → z.remapFails c = 0 → ∃ t f, exec .commandComplete s = .next t ∧ Answered s t 0x00 stamp ∧
        t.place = { s.place with pend := s.place.pend ++ [f] } ∧ f.isRemap = true ∧
        f.subst = (Command.word c 0).getLsbD 0 ∧ f.armB = (Command.word c 0).getLsbD 1 ∧
        f.step.toNat = fld (Command.word c 0) 8 8 ∧ f.a = fld (Command.word c 0) 16 7 ∧
        f.b = fld (Command.word c 0) 24 7 ∧ f.when_ = Command.word c 2 ++ Command.word c 1 ∧ t.chans = s.chans) ∧
      (c.opc = 0x20 →
        let named := fun (n : Chan) =>
          if (Command.word c 3).getLsbD 31 then s.chOn n else (Command.word c (n.val / 32)).getLsbD (n.val % 32)
        let refused := fun (n : Chan) => named n && ((s.chan n).trim.running || !s.chOn n)
        ∃ t code r0 r1 r2, exec .commandComplete s = .next t ∧ Answered s t code [r0, r1, r2] ∧
        (∀ n : Chan, ([r0, r1, r2].getD (n.val / 32) 0).getLsbD (n.val % 32) = refused n) ∧
        ((∀ n, refused n = false) → code = 0x00) ∧
        (∀ n, refused n = true → (∀ k, k < n → refused k = false) →
          code = if (s.chan n).trim.running then 0x1F else 0x05) ∧
        (∀ n, named n = true → refused n = false → (s.chan n).armed = true →
          (t.chan n).trim = { (s.chan n).trim with
            pending := true, pendCells := (Command.word c 3).getLsbD 0, pendDeskew := (Command.word c 3).getLsbD 1 }) ∧
        (∀ n, named n = false ∨ refused n = true → (t.chan n).trim = (s.chan n).trim)) ∧
      (c.opc = 0x21 → s.nvm.store.isSome = true → ∃ t r, exec .commandComplete s = .next t ∧ OnlyMailbox s t ∧
        Answered s t 0x18 r) ∧
      (c.opc = 0x21 → s.nvm.store = none → s.pwr.dipActive = true → ∃ t r, exec .commandComplete s = .next t ∧
        OnlyMailbox s t ∧ Answered s t 0x1C r) ∧
      (c.opc = 0x21 → s.nvm.store = none → s.pwr.dipActive = false → ∃ t j, exec .commandComplete s = .next t ∧
        Answered s t 0x00 [(s.nvm.nextSlot.1).setWidth 32, s.nvm.nextSlot.2] ∧ t.nvm.store = some j ∧
        j.target = s.nvm.nextSlot.1 ∧ j.gen = s.nvm.nextSlot.2 ∧ t.nvm.calState = 1 ∧ t.chans = s.chans) ∧
      (c.opc = 0x30 → ∃ t, exec .commandComplete s = .next t ∧ OnlyMailbox s t ∧
        Answered s t 0x00 [if c.reqAtIssue then 1 else 0]) ∧
      (c.opc = 0x31 → s.pwr.mode = .shed → c.coolAtIssue = false → ∃ t, exec .commandComplete s = .next t ∧
        OnlyMailbox s t ∧ Answered s t 0x22 []) ∧
      (c.opc = 0x31 → s.pwr.mode = .shed → c.coolAtIssue = true → ∃ t, exec .commandComplete s = .next t ∧
        Answered s t 0x00 [] ∧ t.pwr.mode = .run ∧ t.thm.shedFrom = none ∧
        ∀ n, (t.chan n).armed = (s.chan n).armed ∧ (t.chan n).shedPend = false) ∧
      (c.opc = 0x10 → s.nvm.ok.getLsbD (fld (Command.word c 0) 0 6) = false → ∃ t r, exec .commandComplete s = .next t ∧
        OnlyMailbox s t ∧ Answered s t 0x14 [r]) ∧
      (c.opc = 0x10 → s.nvm.ok.getLsbD (fld (Command.word c 0) 0 6) = true →
        s.allRun (fld (Command.word c 0) 0 6) = false →
        (admissionTest s.vlt.nrrTh (s.combined (fld (Command.word c 0) 0 6))).result = 0 →
        ∃ t, exec .commandComplete s = .next t ∧ Answered s t 0x00 [0] ∧ t.nvm.runPhase = 1 ∧
        t.nvm.target.toNat = fld (Command.word c 0) 0 6 ∧ t.chans = s.chans) ∧
      (c.opc = 0x40 → fld (Command.word c 0) 0 4 = 0 → ∃ t, exec .commandComplete s = .next t ∧
        Answered s t 0x00 [(if (sget 0 s.lcy.fuses 4).getLsbD 3 then 4 else s.lcy.state).setWidth 32] ∧
        t.lcy = { s.lcy with last := 0, why := 0 }) ∧
      (c.opc = 0x40 → fld (Command.word c 0) 0 4 = 1 → ∃ t, exec .commandComplete s = .next t ∧ t.msp.code = 0x00 ∧
        t.msp.done = true ∧ t.lcy.nonce = some (Config.nonce s.free) ∧ t.lcy.fuses = s.lcy.fuses ∧
        t.msp.buf.toList.take 12 = wordsLE 12 (octets 32 (Config.nonce s.free) ++ s.lcy.deviceId))) ∧
    (∀ (at_ : Instant) (tag : Byte), Served s → s.msp.busy = false → s.msp.fwup = true →
      let m := s.mc (s.clocks.mgmt.next (max s.now at_))
      ∃ t, exec (.throttleAck at_ tag) s = .next t ∧
      (if s.thm.req.isSome ∧ m ≤ s.thm.deadline ∧ s.thm.acked = false ∧ s.thm.expired = false then
        t.thm.acked = true ∧ t.thm.deadline = s.thm.req.getD 0 + s.thm.reqExt * 250000 ∧ Reported t 182 0x02 ∧ t.thm = { s.thm with acked := true, deadline := t.thm.deadline }
       else t.thm = s.thm ∧ t.truss = s.truss))) ∧
  (∀ (s : State) (write : Bool) (at_ : Instant) (tag : Byte) (g : BitVec 30) (n : BitVec 4) (data : List Qword),
    let i : Instr := if write then .diagWrite at_ tag (g.setWidth 32) (n.setWidth 32) data
      else .diagRead at_ tag (g.setWidth 32) (n.setWidth 32)
    let code : Byte :=
      if 2 ^ 30 < g.toNat + n.toNat + 1 then 0x11
      else if s.pwr.mode ≠ .run ∧ s.pwr.mode ≠ .shed then 0x12
      else if write = true ∧ s.anyArmed then 0x17
      else if s.vlt.st = .frozen then 0x1D
      else if s.vlt.st = .off ∨ s.vlt.st = .train ∨ s.vlt.st = .init then 0x12 else 0
    (Served s → s.msp.busy = false → s.msp.fwup = true →
      (code ≠ 0 → ∃ t c, exec i s = .next t ∧ t.msp.cmd = some c ∧ c.outcome = some (code, [], none) ∧
        c.doneAt = some (c.issue + 256) ∧ t.vlt = s.vlt) ∧
      (code = 0 → ∃ t c, exec i s = .next t ∧ t.msp.cmd = some c ∧ c.doneAt = none ∧ c.left.length = n.toNat + 1 ∧
        t.vlt.reqs.length = s.vlt.reqs.length + n.toNat + 1 ∧ t.mem = s.mem ∧
        ∀ j, j ≤ n.toNat → ∃ r, t.vlt.reqs[s.vlt.reqs.length + j]? = some r ∧ r.port = 13 ∧
          r.burst = (g.toNat + j) / 2 ∧ r.kind = (if write then .codewordWrite else .codewordRead) ∧
          (write = true → j < data.length → r.data = [((g.toNat + j) % 2 == 1, data.getD j 0)]))) ∧
    (∀ c, s.msp.cmd = some c → c.doneAt = none → c.left = [] → c.bad = none → s.vlt.st ≠ .frozen → s.pwr.mode ≠ .reset →
      ∃ t, exec .commandComplete s = .next t ∧ t.msp.cmd = none ∧ t.msp.busy = false ∧ t.msp.done = true ∧
      t.msp.code = 0 ∧ t.mem = s.mem ∧
      (c.opc = 0x50 → ∀ j k, j < Command.count c → k < 4 → ∀ w, c.got.lookup (Command.first c + j) = some w →
        t.msp.buf.toList.getD (4 * j + k) 0 = w.extractLsb' (32 * k) 32)))

/-! ## Management port -/

/-- R541, R545, R546, R547, R672, Tables 16.1, 16.5, 20.12: a READ of one word samples it at its word time and answers
with the start byte, STATUS, the word least significant byte first, and the CRC of both; a refused word is answered
with its STATUS alone: NOREG where no register is, DOMOFF where the channel's domain is off, DENIED where the life
cycle closes it. A longer READ answers with all its words or with a STATUS alone. -/
def Obligations.ReadFrames : Prop :=
  ∀ (s : State) (at_ : Instant) (addr : Word), Served s → addr.toNat % 4 = 0 →
    let z := s.at_ (firstSample s at_ addr.toNat)
    (∀ v, z.accessStatus addr.toNat = 0 → z.reg addr.toNat = some v → ∃ t, exec (.read at_ addr 1) s = .next t ∧
      t.now = firstWord s at_ addr.toNat ∧ t.msp.last = 0 ∧
      t.msp.miso = answerBytes 0 [v.extractLsb' 0 8, v.extractLsb' 8 8, v.extractLsb' 16 8, v.extractLsb' 24 8] ∧
      t.mem = s.mem ∧ t.truss.srcs = s.truss.srcs ∧ t.tb = s.tb ∧ t.synths = s.synths) ∧
    (∀ st, st ≠ 0 → z.accessStatus addr.toNat = st → ∃ t, exec (.read at_ addr 1) s = .next t ∧ t.now = firstWord s at_ addr.toNat ∧
      t.msp.miso = answerBytes st [] ∧ EndedWith s t st ∧ OnlyMailbox s t) ∧
    (∀ c : Chan, addr.toNat / 65536 = 16 + c.val → s.chOn c = false → z.accessStatus addr.toNat = 5) ∧
    (0xE00000 ≤ addr.toNat ∧ addr.toNat < 0xF00000 → s.lcy.tstOpen = false → z.accessStatus addr.toNat = 4) ∧
    (z.reg addr.toNat = none → (∀ c : Chan, addr.toNat / 65536 = 16 + c.val → s.chOn c = true) →
      addr.toNat < 0xD80000 → z.accessStatus addr.toNat = 3) ∧
    (∀ n, 1 ≤ n → n ≤ 64 → ∃ t st data, exec (.read at_ addr n) s = .next t ∧ t.msp.miso = answerBytes st data ∧
      t.msp.last = st ∧ data.length = (if st = 0 then 4 * n else 0) ∧ t.mem = s.mem)

/-- R542, R543, R545, R549, R571, R573, Tables 16.1, 16.2: a WRITE with a matching DCRC writes its words in ascending
order: here into MSP.BUF, which keeps its other words; with another DCRC it writes nothing and ends with CRC. A frame
that ends early counts in ABORT, and writes or clears nothing; a rejected header is answered with CRC or BADOP, and
counted. -/
def Obligations.WriteFrames : Prop :=
  ∀ (s : State) (at_ : Instant), Served s →
    (∀ k data, 1 ≤ data.length → k + data.length ≤ 64 → s.msp.busy = false →
      let addr : Word := BitVec.ofNat 32 (0xF00100 + 4 * k)
      let crc := crc8 (data.flatMap fun w => [w.extractLsb' 0 8, w.extractLsb' 8 8, w.extractLsb' 16 8, w.extractLsb' 24 8])
      (∃ t, exec (.write at_ addr data crc) s = .next t ∧ t = { s with now := t.now, msp := t.msp } ∧
        (∀ j, (h : j < 64) → t.msp.buf[j] = if k ≤ j ∧ j < k + data.length then data.getD (j - k) 0 else s.msp.buf[j]) ∧
        t.msp.last = 0 ∧ t.msp.miso = answerBytes 0 [] ∧ t.msp.arg = s.msp.arg ∧ t.msp.cmd = s.msp.cmd) ∧
      (∀ bad, bad ≠ crc → ∃ t, exec (.write at_ addr data bad) s = .next t ∧ OnlyMailbox s t ∧ EndedWith s t 1 ∧
        t.msp.errCrc = satAdd s.msp.errCrc 1 ∧ t.msp.miso = answerBytes 1 [] ∧ Reported t 232 0x01)) ∧
    (∀ addr n, addr.toNat % 4 = 0 → 1 ≤ n → n ≤ 64 →
      (∃ t, exec (.frameAbort at_ true addr n) s = .next t ∧ t = { s with
        now := t.now, msp := { s.msp with errAbort := satAdd s.msp.errAbort 1 } }) ∧
      (∃ t, exec (.frameAbort at_ false addr n) s = .next t ∧
        t.msp = { s.msp with errAbort := satAdd s.msp.errAbort 1 } ∧ t.mem = s.mem ∧
        (∀ c, (t.chan c).eng = (s.chan c).eng ∧ (t.chan c).trg.ignored = (s.chan c).trg.ignored ∧
          (t.chan c).laneH.hwm = (s.chan c).laneH.hwm ∧ (t.chan c).laneL.mismatch = (s.chan c).laneL.mismatch) ∧
        t.sync.errCrc = s.sync.errCrc ∧ t.truss.histLost = s.truss.histLost)) ∧
    (∀ bytes : List Byte,
      (crc8 (bytes.take 6) ≠ bytes.getD 6 0 → ∃ t, exec (.headerRejected at_ bytes) s = .next t ∧ OnlyMailbox s t ∧
        t.msp = { s.msp with errCrc := satAdd s.msp.errCrc 1, miso := answerBytes 1 [] } ∧ Reported t 232 0x01) ∧
      (crc8 (bytes.take 6) = bytes.getD 6 0 →
        (bytes.getD 0 0 ≠ 0x0B ∧ bytes.getD 0 0 ≠ 0x02 ∨ 64 ≤ (bytes.getD 5 0).toNat ∨ (bytes.getD 1 0).toNat % 4 ≠ 0) →
        ∃ t, exec (.headerRejected at_ bytes) s = .next t ∧ OnlyMailbox s t ∧
        t.msp = { s.msp with errBadop := satAdd s.msp.errBadop 1, miso := answerBytes 2 [] } ∧ Reported t 232 0x02))

/-- R547, R568, Table 0.4: a write of one register: a word that the access checks refuse, and a word of the mailbox while
a command runs, changes nothing; selectors, fields that are cleared with 1, and the buffers take what is written; a
read-only register keeps its value. Through BAR0 the ring registers are written, BASE only while the ring is disabled. -/
def Obligations.RegisterWrites : Prop :=
  ∀ (s : State) (at_ : Instant) (w : Word), Served s →
    (∀ addr : Word, (s.at_ at_).accessStatus addr.toNat ≠ 0 → ∃ t, exec (.registerWrite at_ .mspi addr w) s = .next t ∧
      OnlyMailbox s t ∧ EndedWith s t ((s.at_ at_).accessStatus addr.toNat)) ∧
    (∀ j, j < 64 → ∃ t, exec (.registerWrite at_ .mspi (BitVec.ofNat 32 (0xF00100 + 4 * j)) w) s = .next t ∧
      (s.msp.busy = true → t.msp.buf = s.msp.buf ∧ t.msp.last = 6 ∧ t.msp.errBusy = satAdd s.msp.errBusy 1) ∧
      (s.msp.busy = false → t = { s with now := t.now, msp := t.msp } ∧ t.msp.last = 0 ∧
        ∀ i, (h : i < 64) → t.msp.buf[i] = if i = j then w else s.msp.buf[i])) ∧
    (∃ t, exec (.registerWrite at_ .mspi 0x001004 w) s = .next t ∧ EndedWith s t 0 ∧
      t = { s with now := t.now, msp := t.msp, place := { s.place with sel := w.extractLsb' 0 15 } }) ∧
    (∃ t, exec (.registerWrite at_ .mspi 0x800000 w) s = .next t ∧ EndedWith s t 0 ∧
      t = { s with now := t.now, msp := t.msp, folioSel := w.extractLsb' 0 16 }) ∧
    (∃ t, exec (.registerWrite at_ .mspi 0xB00008 w) s = .next t ∧ EndedWith s t 0 ∧
      t = { s with now := t.now, msp := t.msp, truss := { s.truss with histSel := w.extractLsb' 0 4 } }) ∧
    (∀ n : Source, ∃ t, exec (.registerWrite at_ .mspi (BitVec.ofNat 32 (0xB01004 + 16 * n.val)) w) s = .next t ∧
      (t.src n).latch = (s.src n).latch &&& ~~~ w.extractLsb' 0 8 ∧ (t.src n).pend = (s.src n).pend ∧
      (t.src n).lreal = ((s.src n).lreal && !w.getLsbD 17) ∧ ∀ m, m ≠ n → t.src m = s.src m) ∧
    (∃ t, exec (.registerWrite at_ .mspi 0x010010 w) s = .next t ∧ t = { s with now := t.now, msp := t.msp }) ∧
    (∀ r : Ring, ∃ t, exec (.registerWrite at_ .bar0 (BitVec.ofNat 32 (0x1000 + 32 * r.val)) w) s = .next t ∧
      ((s.ring r).en = true → t = { s with now := t.now }) ∧
      ((s.ring r).en = false → (t.ring r).base = hi32 (s.ring r).base ++ (w &&& 0xFFFFF000) ∧
        ∀ q, q ≠ r → t.ring q = s.ring q))

/-- R88, R546, Tables 2.3, 16.7, 17.8: sampling the low word of a wide value captures the whole of it for its upper words;
a read of a register with RC fields clears them once it has ended with OK. -/
def Obligations.CapturesAndClears : Prop :=
  ∀ (s : State) (at_ : Instant), Served s →
    (∀ c : Chan, s.chOn c = true →
      (∃ t, exec (.captureRead at_ (chanAddr c 0x110)) s = .next t ∧ (t.chan c).laneH.capRise = (s.chan c).laneH.rise ∧
        (t.chan c).laneH = { (s.chan c).laneH with capRise := (s.chan c).laneH.rise } ∧
        (t.chan c).laneL = (s.chan c).laneL) ∧
      (∃ t, exec (.captureRead at_ (chanAddr c 0x198)) s = .next t ∧
        (t.chan c).laneL = { (s.chan c).laneL with capFall := (s.chan c).laneL.fall }) ∧
      (∃ t, exec (.captureRead at_ (chanAddr c 0x120)) s = .next t ∧
        (t.chan c).laneH = { (s.chan c).laneH with capLost := (s.chan c).laneH.lost }) ∧
      (∃ t, exec (.captureRead at_ (chanAddr c 0xC1C)) s = .next t ∧
        (t.chan c).trg = { (s.chan c).trg with cap := (s.chan c).trg.lastTime }) ∧
      (∃ t, exec (.rcRead at_ (chanAddr c 0x10C)) s = .next t ∧ EndedWith s t 0 ∧
        t.chan c = { s.chan c with laneH := { (s.chan c).laneH with hwm := 0 } } ∧ ∀ d, d ≠ c → t.chan d = s.chan d) ∧
      (∃ t, exec (.rcRead at_ (chanAddr c 0x1A8)) s = .next t ∧
        t.chan c = { s.chan c with laneL := { (s.chan c).laneL with mismatch := 0, abandon := 0 } }) ∧
      (∃ t, exec (.rcRead at_ (chanAddr c 0xC14)) s = .next t ∧
        t.chan c = { s.chan c with trg := { (s.chan c).trg with ignored := 0, missed := 0 } })) ∧
    (∃ t, exec (.captureRead at_ 0xB00020) s = .next t ∧ EndedWith s t 0 ∧
      t.truss = { s.truss with capMclk := BitVec.ofNat 48 (s.mc (max s.now at_) - s.pwr.mclk0) }) ∧
    (∃ t, exec (.captureRead at_ 0xC80034) s = .next t ∧ t.pwr = { s.pwr with capDip := s.pwr.dipStamp }) ∧
    (∃ t, exec (.rcRead at_ 0xB00004) s = .next t ∧ EndedWith s t 0 ∧ t.truss = { s.truss with histLost := 0 }) ∧
    (∃ t, exec (.rcRead at_ 0xF00008) s = .next t ∧ t.msp.errCrc = 0 ∧ t.msp.errBadop = 0 ∧ t.msp.errAbort = 0 ∧
      t.msp.errBusy = 0 ∧ EndedWith s t 0) ∧
    (∃ t, exec (.rcRead at_ 0x001304) s = .next t ∧ t.sync = { s.sync with
      errCrc := 0, errFrame := 0, errRsvd := 0, errRefused := 0 }) ∧
    (∀ q : Pch, ∃ t, exec (.rcRead at_ (BitVec.ofNat 32 (0x900400 + 8 * q.val))) s = .next t ∧
      (t.pch q).ce = 0 ∧ (t.pch q).ceLog = (s.pch q).ceLog ∧ ∀ p, p ≠ q → t.pch p = s.pch p)

/-- R578, R583, R585, Tables 17.10, 17.11: an acknowledgement takes a pending source's PEND, LEVEL and escalation timer,
and leaves its latches; ACK_ALL does so for every source. TRS.SRC_CFG takes what is written but for bit 28, and keeps
REACT where 6 or 7 is written. R592, R594, R595, R598, R635, Tables 17.12, 19.8: where the life cycle opens the TST
block, TST_ON sets ON and TST_OFF ends every facility, each reported on source 240; an assertion while ON = 1 is
queued for its recognition edge as injected; ECC_INJ takes its fields. Where it is closed the access is DENIED and
reported. MK_PROG starts the blowing of the selected word, or is DENIED. -/
def Obligations.TrussAndTestRegisters : Prop :=
  (∀ (s : State) (at_ : Instant), Served s →
    (∀ n : Source, ∃ t, exec (.ack at_ n) s = .next t ∧ EndedWith s t 0 ∧ (∀ m, m ≠ n → t.src m = s.src m) ∧
      t.truss.hist = s.truss.hist ∧ t.chans = s.chans ∧
      t.src n = if (s.src n).pend then { s.src n with
        pend := false, level := 0, timer := none, entReal := none, entInj := none, entTimer := none } else s.src n) ∧
    (∃ t, exec (.ackAll at_) s = .next t ∧ EndedWith s t 0 ∧ t.truss.hist = s.truss.hist ∧
      ∀ n, (t.src n).pend = false ∧ (t.src n).latch = (s.src n).latch ∧ (t.src n).cfg = (s.src n).cfg ∧
        ((s.src n).pend = true → (t.src n).level = 0 ∧ (t.src n).timer = none)) ∧
    (∀ (n : Source) (w : Word), ∃ t, exec (.srcCfgWrite at_ n w) s = .next t ∧ EndedWith s t 0 ∧
      (∀ m, m ≠ n → t.src m = s.src m) ∧ t.src n = { s.src n with cfg := (t.src n).cfg } ∧
      (t.src n).cfg.getLsbD 28 = false ∧ (∀ b, b < 28 → (t.src n).cfg.getLsbD b = w.getLsbD b) ∧
      fld (t.src n).cfg 29 3 = (if 6 ≤ fld w 29 3 then fld (s.src n).cfg 29 3 else fld w 29 3))) ∧
  (∀ (s : State) (at_ : Instant) (w : Word), Served s →
    let m := s.mc (s.clocks.mgmt.next (max s.now at_))
    (s.lcy.tstOpen = false → ∀ i : Instr, i = .tstOn at_ false ∨ i = .tstOff at_ ∨ i = .assert at_ w ∨ i = .eccInj at_ w →
      ∃ t, exec i s = .next t ∧ OnlyMailbox s t ∧ EndedWith s t 4 ∧ Reported t 240 0x04) ∧
    (s.lcy.tstOpen = true →
      (∀ creact, s.tst.on = false → ∃ t, exec (.tstOn at_ creact) s = .next t ∧ EndedWith s t 0 ∧ t.tst.on = true ∧
        t.tst.creact = creact ∧ t.tst.xdly = s.tst.xdly ∧ t.tst.tovr = s.tst.tovr ∧ Reported t 240 0x01 ∧
        t.chans = s.chans) ∧
      (s.tst.on = true → ∃ t, exec (.tstOff at_) s = .next t ∧ EndedWith s t 0 ∧
        t.tst = { s.tst with on := false, stalling := false, eccArm := false } ∧ Reported t 240 0x02 ∧
        t.chans = s.chans) ∧
      (s.tst.on = true → w.extractLsb' 0 8 ≠ 0 → fld w 8 8 ≠ 153 → ∃ t r, exec (.assert at_ w) s = .next t ∧
        EndedWith s t 0 ∧ t.truss = { s.truss with incoming := s.truss.incoming ++ [r] } ∧ r.mc = m ∧
        r.src.val = fld w 8 8 ∧ r.causes = w.extractLsb' 0 8 ∧ r.real = false ∧ r.inj = true ∧
        r.contain = w.getLsbD 31 ∧ t.chans = s.chans) ∧
      ((s.tst.on = false ∨ w.extractLsb' 0 8 = 0) → ∃ t, exec (.assert at_ w) s = .next t ∧
        t = { s with now := t.now, msp := t.msp }) ∧
      (∃ t, exec (.eccInj at_ w) s = .next t ∧ EndedWith s t 0 ∧ t = { s with now := t.now, msp := t.msp, tst := { s.tst with
        eccArm := w.getLsbD 31, eccMode := w.extractLsb' 28 2, eccPort := w.extractLsb' 24 4, eccB := w.extractLsb' 0 8 } })) ∧
    (s.lcy.makerOpen = false → ∃ t, exec (.mkProg at_ w) s = .next t ∧ OnlyMailbox s t ∧ EndedWith s t 4 ∧
      Reported t 225 0x01) ∧
    (s.lcy.makerOpen = true → (s.lcy.mkSel.toNat < 4 ∨ 32 ≤ s.lcy.mkSel.toNat ∧ s.lcy.mkSel.toNat < 64) →
      s.lcy.seq = none → s.pwr.dipActive = false → ∃ t q, exec (.mkProg at_ w) s = .next t ∧ EndedWith s t 0 ∧
      t.lcy = { s.lcy with seq := some q } ∧ q.words = [(s.lcy.mkSel.toNat, w)] ∧ q.start = m ∧ q.byAdvance = false))

/-! ## PCIe endpoint and host rings -/

/-- R337, R338, R342, R344, R346, Tables 9.11 to 9.13: a RING_TAIL write that does not take descriptors back sets, 16 lc
after its last cycle (R670), the tail
modulo the ring's length, any other is discarded and reported; enabling a disabled ring starts it with indexes, SEQ
and DONE zero, and disabling it stops its delivery, neither touching the records queued; a descriptor fetch that fails
stops the ring in ERR; a ring that has stayed STARVED for STARVE thousand link cycles is reported once. -/
def Obligations.HostRings : Prop :=
  ∀ (s : State) (r : Ring) (at_ : Instant),
    let q := s.ring r
    let z := s.at_ at_
    let others := fun (t : State) => (∀ p, p ≠ r → t.ring p = s.ring p) ∧ t.mem = s.mem ∧ t.chans = s.chans ∧ t.closed = s.closed
    (∀ v : Word,
      let tail := fld v 0 16 % 2 ^ q.log2n.toNat
      let posted := fun (n : Nat) => (n + 2 ^ q.log2n.toNat - q.head.toNat % 2 ^ q.log2n.toNat) % 2 ^ q.log2n.toNat
      (posted q.tail.toNat ≤ posted tail → ∃ t, exec (.ringTail at_ r v) s = .next t ∧
          t.now = max s.now (s.clocks.link.next at_ + 16 * s.clocks.link.period) ∧ others t ∧
        (t.ring r).tail.toNat = tail ∧ t.ring r = { q with
          tail := (t.ring r).tail, st := (t.ring r).st, starvedFrom := (t.ring r).starvedFrom } ∧
        (q.en = true → q.queue ≠ [] → posted tail ≠ 0 → (t.ring r).st = .busy)) ∧
      (posted tail < posted q.tail.toNat → s.pwr.mode ≠ .reset → ∃ t, exec (.ringTail at_ r v) s = .next t ∧
        t = { s with now := t.now, truss := { s.truss with incoming := t.truss.incoming } } ∧ Reported t 205 0x10)) ∧
    (q.en = false → ∃ t, exec (.ringEnable at_ r) s = .next t ∧ t.now = z.now ∧ others t ∧ (t.ring r).en = true ∧
      (t.ring r).head = 0 ∧ (t.ring r).tail = 0 ∧ (t.ring r).seq = 0 ∧ (t.ring r).done = 0 ∧ (t.ring r).descs = [] ∧
      (t.ring r).queue = q.queue ∧ (t.ring r).base = q.base ∧
      (t.ring r).st = (if q.queue = [] then .idle else .starved)) ∧
    (q.en = true → ∃ t, exec (.ringDisable at_ r) s = .next t ∧ t.now = z.now ∧ others t ∧ (t.ring r).en = false ∧
      (t.ring r).st = .off ∧ (t.ring r).delivery = none ∧ (t.ring r).queue = q.queue ∧ (t.ring r).done = q.done ∧
      ∀ x, some x ∈ t.via.xfers → x.ring = r → x.live = false) ∧
    (s.pwr.mode ≠ .reset → ∃ t, exec (.descerr at_ r) s = .next t ∧ others t ∧ (t.ring r).en = false ∧
      (t.ring r).st = .err ∧ (t.ring r).queue = q.queue ∧ Reported t 205 0x01) ∧
    (∀ t0, q.starvedFrom = some t0 → q.st = .starved → s.via.starve ≠ 0 → s.pwr.mode ≠ .reset →
      ∃ t, exec (.starved r) s = .next t ∧ others t ∧
      t.now = max s.now (s.clocks.link.next t0 + s.via.starve.toNat * 1000 * s.clocks.link.period) ∧
      t.ring r = { q with starvedFrom := none } ∧ Reported t (206 + r.val % 4) 0x01) ∧
    (∀ d, q.en = true → q.descs.length < q.posted → q.delivery = none →
      ∃ t, exec (.descriptorRead at_ r d) s = .next t ∧ t.now = z.now ∧ others t ∧
      t.ring r = { q with descs := q.descs ++ [d], descVis := q.descVis ++ [s.clocks.vault.next (z.now + 16000)] }) ∧
    (∀ d y, q.en = true → q.descs.length < q.posted → q.delivery = some y → y.fetched ≠ [] → z.now < y.arrived →
      ∃ t, exec (.descriptorRead at_ r d) s = .next t ∧ t.now = z.now ∧ others t ∧
      t.ring r = { q with descs := q.descs ++ [d], descVis := q.descVis ++ [s.clocks.vault.next (z.now + 16000)] })

/-- R334, R335, R338 to R340, Table 9.10: READ_PORT_TRANSFER asks the vault for the next 4 KiB of the record of a ring of
its port, a read request for every burst of them. A descriptor that takes the last words of a record has them written
to its address and is written back with EOP, the length and the record's identity; the record's folio is then in state
3, and the ring goes on to its next record. -/
def Obligations.ReadoutDelivers : Prop :=
  ∀ (s : State),
    (∀ j : Fin 4, s.via.xfers.length = 4 → s.via.xfers.getD j.val none = none → s.vlt.st ≠ .frozen →
      s.via.rr.getD j.val 0 < 8 → (∃ r : Ring, r.val % 4 = j.val ∧ s.wantsXfer r = true) →
      (∀ r d, r.val % 4 = j.val → (s.ring r).delivery = some d → d.fetched = [] ∧ d.abandon = false) →
      ∃ t r x d y, exec (.readPortTransfer j) s = .next t ∧ r.val % 4 = j.val ∧ s.wantsXfer r = true ∧
      (t.ring r).delivery = some d ∧ s.closedRecOf d.folio = some x ∧ t.via.xfers.getD j.val none = some y ∧
      y.ring = r ∧ y.live = true ∧ y.got = [] ∧ y.gs.length = min 256 (x.total - (d.asked - y.gs.length)) ∧
      (∀ i, i < y.gs.length → y.gs.getD i 0 = x.streamWord (d.asked - y.gs.length + i)) ∧
      (∀ g ∈ y.gs, ∃ q ∈ t.vlt.reqs, q.port = 8 + j.val ∧ q.kind = .readBurst ∧ q.burst = g / 2) ∧
      t.mem = s.mem ∧ t.chans = s.chans ∧ t.closed = s.closed) ∧
    (∀ (r : Ring) (at_ : Instant) (h : Desc) (d : Delivery) (x : Closed),
      let q := s.ring r
      q.en = true → q.autorel = false → q.delivery = some d → s.closedRecOf d.folio = some x → q.descs = [] → 0 < q.posted →
      d.abandon = false → d.fetched ≠ [] → d.arrived ≤ max s.now at_ → d.inDesc = 0 → d.sent + d.fetched.length = 8 + x.words →
      h.addr.toNat % 64 = 0 → h.len.toNat % 64 = 0 → 64 ≤ h.len.toNat → 16 * d.fetched.length ≤ h.len.toNat →
      ∃ t rest, exec (.descriptorRead at_ r h) s = .next t ∧ t.now = max s.now at_ ∧
      t.via.out = s.via.out ++ [.data h.addr d.fetched t.now, .writeBack r q.head (BitVec.ofNat 32 (16 * d.fetched.length))
        (BitVec.ofNat 16 x.folio) (BitVec.ofNat 8 x.ch.val)
        (BitVec.ofNat 8 (2 + (if d.first then 1 else 0) + (if x.isSeg then 4 else 0))) x.recNo q.seq] ++ rest ∧
      (rest = [] ∨ rest = [.msix r]) ∧ (h.ctrl.getLsbD 0 = false → q.irqen = false → rest = []) ∧
      (t.ring r).delivery = none ∧ (t.ring r).descs = [] ∧ (t.ring r).queue = q.queue.drop 1 ∧ (t.ring r).seq = q.seq + 1 ∧
      (t.ring r).done = q.done + 1 ∧ (t.ring r).head.toNat = (q.head.toNat + 1) % 2 ^ q.log2n.toNat % 65536 ∧
      (t.folio x.folio).st = 3 ∧ t.closed = s.closed ∧ t.mem = s.mem ∧ t.chans = s.chans)

/-- R341 to R349, R385, R436, R517, Tables 9.11, 17.2: what the endpoint does with its events: a lost link, a hot reset
and a function-level reset disable every ring and keep what is queued; PERST also resets the viaduct's registers; a
link that trains below its full speed or width is reported, and so are errors; a configuration request before
2,500,000 mc is retried; a BAR2 write is refused, and a BAR2 read returns the galley word, corrected, or poisoned with
a freeze where it cannot be, or is aborted while the vault is frozen. -/
def Obligations.EndpointEvents : Prop :=
  ∀ (s : State) (at_ : Instant), s.pwr.mode ≠ .reset →
    let z := s.at_ at_
    let stopped := fun (t : State) => ∀ r, (t.ring r).en = false ∧ (t.ring r).delivery = none ∧ (t.ring r).descs = [] ∧
      (t.ring r).queue = (s.ring r).queue
    let kept := fun (t : State) => t.now = z.now ∧ t.mem = s.mem ∧ t.chans = s.chans ∧ t.closed = s.closed ∧ t.folios = s.folios
    (∃ t, exec (.linkDown at_) s = .next t ∧ kept t ∧ stopped t ∧ t.via.linkUp = false ∧
      (s.via.linkUp = true → Reported t 204 0x01) ∧ ∀ r, (t.ring r).base = (s.ring r).base) ∧
    (∃ t, exec (.hotReset at_) s = .next t ∧ kept t ∧ stopped t ∧ t.via.linkUp = false) ∧
    (∃ t, exec (.flr at_) s = .next t ∧ kept t ∧ stopped t ∧ t.via.linkUp = s.via.linkUp ∧ Reported t 204 0x02) ∧
    (∃ t, exec (.perstN at_) s = .next t ∧ kept t ∧ stopped t ∧ t.via.linkUp = false ∧ t.via.irqStat = 0 ∧
      t.via.starve = 0 ∧ t.via.msix = State.reset.via.msix ∧ ∀ r, (t.ring r).base = 0 ∧ (t.ring r).tail = 0 ∧ (t.ring r).log2n = 4) ∧
    (∀ (speed : BitVec 4) (width : BitVec 6), ∃ t, exec (.linkTrained at_ speed width) s = .next t ∧ kept t ∧
      t.via = { s.via with linkUp := true, speed := speed, width := width } ∧
      (speed < 5 ∨ width < 16 → Reported t 204 0x10) ∧ (¬(speed < 5 ∨ width < 16) → t.truss = s.truss)) ∧
    (∀ unc, ∃ t, exec (.aerError at_ unc) s = .next t ∧ kept t ∧ t.via = s.via ∧ Reported t 204 (if unc then 0x08 else 0x04)) ∧
    (∃ t, exec (.configurationRequest at_) s = .next t ∧ kept t ∧ t.truss = s.truss ∧ t.via.out = s.via.out ++
      [if s.mc z.now - s.pwr.mclk0 < 2500000 then .retry else .success]) ∧
    (∃ t, exec (.bar2Write at_) s = .next t ∧ kept t ∧ t.via = s.via ∧ t.chk = s.chk ∧ Reported t 205 0x04) ∧
    (∀ (g : BitVec 30) (flips : Codeword),
      let res := readCode g.toNat (s.stored g.toNat ^^^ flips)
      let q := pcOf (gPc g.toNat)
      (s.vlt.st = .frozen → ∃ t, exec (.bar2Read at_ g flips) s = .next t ∧ kept t ∧ t.vlt = s.vlt ∧
        t.via.out = s.via.out ++ [.completerAbort]) ∧
      ((s.vlt.st = .run ∨ s.vlt.st = .selfref) → s.pendingWord g.toNat = none →
        (res.bad = false → ∃ t, exec (.bar2Read at_ g flips) s = .next t ∧ kept t ∧
          t.via.out = s.via.out ++ [.completion res.word false] ∧ t.vlt.st = s.vlt.st ∧
          (t.pch q).ce.toNat = (if res.corrected then min ((s.pch q).ce.toNat + 1) (2 ^ 32 - 1) else (s.pch q).ce.toNat) ∧
          (res.corrected = true → Reported t (104 + q.val) 0x01)) ∧
        (res.bad = true → ∃ t, exec (.bar2Read at_ g flips) s = .next t ∧ t.now = z.now ∧ t.mem = s.mem ∧
          .completion res.word true ∈ t.via.out ∧ t.vlt.st = .frozen ∧ Reported t (104 + q.val) 0x02)))

/-! ## Vault -/

/-- R390, R392, R394, R396, R397, Tables 12.1, 12.4: VAULT_COMMAND for a single request with no refresh in its way: an
open row of another address is precharged, a closed one activated; a write to the open row stores its codewords with
the check bits of their addresses and leaves the table, late where its age exceeds TARGET; a read is issued and waits
for its data. Every command enters the history, and all other galley words stand. -/
def Obligations.VaultCommands : Prop :=
  ∀ (s : State) (q : Pch) (r : Req) (v : Nat), VaultTurn s q r v →
    let row := (s.pch q).rows.getD r.bank none
    let now := max s.now (s.vcAt v)
    (∀ l b, row = some (r.row, l) → (r.kind = .writeBurst ∨ r.kind = .writeBack) → StoreOk s →
      (∃ w0 w1, r.data = [(b, w0), (!b, w1)]) → ∃ t, exec (.vaultCommand q []) s = .next t ∧ t.now = now ∧
      t.vlt.reqs = [] ∧ Logged t q v 2 ∧
      (∀ h w, (h, w) ∈ r.data → t.galley (2 * r.burst + bit h) = w ∧ sget 0 t.chk (2 * r.burst + bit h) = 0) ∧
      (∀ g, g / 2 ≠ r.burst → t.galley g = s.galley g ∧ sget 0 t.chk g = sget 0 s.chk g) ∧
      (r.port < 8 → fld (s.vlt.portCfg.getD r.port 0) 16 16 < v - r.accepted → s.pwr.mode ≠ .reset →
        Reported t (104 + q.val) 0x08)) ∧
    (∀ l, row = some (r.row, l) → r.kind ∈ [.rmw, .readBurst, .codewordRead, .scrub, .codewordWrite] → r.gotRead = false →
      ∃ t, exec (.vaultCommand q []) s = .next t ∧ t.now = now ∧ t.vlt.reqs = [{ r with issued := true }] ∧
      Logged t q v 1 ∧ t.mem = s.mem ∧ t.chk = s.chk ∧ t.chans = s.chans) ∧
    (row = none → ∃ t, exec (.vaultCommand q []) s = .next t ∧ t.now = now ∧ r ∈ t.vlt.reqs ∧ Logged t q v 0 ∧
      (t.pch q).rows.getD r.bank none = some (r.row, v) ∧ t.mem = s.mem ∧ t.chk = s.chk ∧ t.chans = s.chans) ∧
    (∀ other l, row = some (other, l) → other ≠ r.row → ∃ t, exec (.vaultCommand q []) s = .next t ∧ t.now = now ∧
      t.vlt.reqs = [r] ∧ Logged t q v 3 ∧ (t.pch q).rows.getD r.bank none = none ∧
      (∀ b, b ≠ r.bank → (t.pch q).rows.getD b none = (s.pch q).rows.getD b none) ∧ t.mem = s.mem ∧ t.chk = s.chk ∧
      t.chans = s.chans)

/-- R385, R387, R392, R435, R513, R564, Table 12.10: the data of an issued request return: a codeword with one wrong bit
is delivered corrected and counted; an uncorrectable one freezes the vault, which logs it, and the device enters
FREEZE; a read for DIAG reaches the mailbox; the read half of a write of one codeword keeps the other half for the
write that follows. A command or address parity error freezes the vault too. -/
def Obligations.VaultReads : Prop :=
  ∀ (s : State) (flips0 flips1 : Codeword), s.pwr.mode ≠ .reset → s.vlt.st = .run →
    (∀ id r, s.vlt.reqs.find? (fun r => r.id == id && r.issued) = some r → (∀ j, s.via.xfers.getD j none = none) →
      let q := pcOf r.pc
      let read := fun (g : Nat) => readCode g (s.stored g ^^^ (if g % 2 = 0 then flips0 else flips1))
      (∀ h, r.kind = .codewordRead → r.port = 13 → r.data = [h] → (read (2 * r.burst + bit h.1)).bad = false →
        ∀ c, s.msp.cmd = some c → ∃ t d, exec (.readDataReturn id flips0 flips1) s = .next t ∧ t.now = s.now ∧
        t.msp.cmd = some d ∧ d.got = c.got ++ [(2 * r.burst + bit h.1, (read (2 * r.burst + bit h.1)).word)] ∧
        d.left = c.left.filter (fun i => i != r.id) ∧ (∀ x ∈ t.vlt.reqs, x.id ≠ r.id) ∧ t.mem = s.mem ∧ t.chk = s.chk ∧
        (t.pch q).ce = satAdd (s.pch q).ce (if (read (2 * r.burst + bit h.1)).corrected then 1 else 0)) ∧
      (∀ h w, r.kind = .rmw → r.data = [(h, w)] → (read (2 * r.burst)).bad = false → (read (2 * r.burst + 1)).bad = false →
        ∃ t, exec (.readDataReturn id flips0 flips1) s = .next t ∧ t.now = s.now ∧ t.mem = s.mem ∧
        { r with issued := false, gotRead := true, only := some h,
                 data := if h then [(false, (read (2 * r.burst)).word), (true, w)]
                         else [(false, w), (true, (read (2 * r.burst + 1)).word)] } ∈ t.vlt.reqs ∧
        t.vlt.reqs.length = s.vlt.reqs.length) ∧
      (r.kind = .readBurst → r.data = [] → (read (2 * r.burst)).bad = true → ∃ t, exec (.readDataReturn id flips0 flips1) s = .next t ∧
        Froze s t ∧ t.vlt.frzAddr = BitVec.ofNat 30 (2 * r.burst) ∧ t.vlt.frzSyn = (read (2 * r.burst)).syn ∧
        t.vlt.frzStat.getLsbD 31 = true ∧ fld t.vlt.frzStat 24 4 = r.port % 16 ∧ fld t.vlt.frzStat 16 5 = q.val ∧
        Reported t (104 + q.val) 0x02 ∧ Reported t 137 0x01 ∧ ∀ x ∈ t.vlt.reqs, x.id ≠ r.id)) ∧
    (∀ (at_ : Instant) (q : Pch), ∃ t, exec (.capar at_ q) s = .next t ∧ t.now = max s.now at_ ∧ Froze s t ∧
      Reported t (104 + q.val) 0x04 ∧ Reported t 137 0x02 ∧ t.vlt.frzAddr = 0 ∧ t.vlt.frzStat.getLsbD 30 = true ∧
      fld t.vlt.frzStat 16 5 = q.val)

/-- R380, R395, R397, R413 to R416, R419, R420, R429, R430: the vault's own timers: a request is promoted 2,048 vc after
its acceptance; an open row closes IDLEC × 16 vc after its last access; at a debt of 8I units are committed as forced
refreshes; the neighbour tables clear after 8,192 units; a patrol scrub asks for its next burst every SCRUB_INT × 64
vc; the stack's temperature readings choose the refresh band, and two that fail in a row choose the doubled one. R162,
R380, R424 to R426, R432 to R434, Table 11.12: self-refresh is entered SRIDLE × 250 mc after the idle timer began, in
256 vc, with the debts zero, where a staged spread of VAULT starts its lock, and left 1,024 vc after an exit began, with
one REFab; full training ends 10,250,000 mc and a quick restore 250,000 mc after its start; STACK_INIT leaves every
codeword zero with its own check bits after 41,943,040 vc, and the vault runs. -/
def Obligations.VaultMaintenance : Prop :=
  (∀ (s : State) (q : Pch), s.pwr.mode ≠ .reset →
    let p := s.pch q
    (∀ id r, s.vlt.reqs.find? (fun r => r.id == id && r.presented && !r.promoted && !r.issued) = some r →
      s.vlt.st ≠ .frozen → ∃ t, exec (.promotion id) s = .next t ∧ t.now = max s.now (s.vcAt (r.accepted + 2048)) ∧
      t.vlt = { s.vlt with reqs := t.vlt.reqs, promo := t.vlt.promo } ∧
      t.vlt.reqs = s.vlt.reqs.map (fun x => if x.id = id then { x with promoted := true } else x) ∧
      t.vlt.promo = s.vlt.promo.set r.port (satAdd (s.vlt.promo.getD r.port 0) 1) ∧
      (r.port < 8 → Reported t 136 0x02) ∧ t.mem = s.mem) ∧
    (∀ (b : Fin 16) row last, p.rows.length = 16 → p.rows.getD b.val none = some (row, last) → s.vlt.st = .run →
      ∃ t, exec (.rowIdleClose q b) s = .next t ∧ t.now = max s.now (s.vcAt (last + fld s.vlt.cfg 16 8 * 16)) ∧
      (t.pch q).rows = p.rows.set b.val none ∧ Logged t q (last + fld s.vlt.cfg 16 8 * 16) 3 ∧
      (∀ o, o ≠ q → t.pch o = s.pch o) ∧ t.vlt.reqs = s.vlt.reqs ∧ t.mem = s.mem) ∧
    (s.debtRises = true → p.debt ≤ 8 * s.vlt.interval →
      ∃ t, exec (.refreshCeiling q) s = .next t ∧
      t.now = max s.now (s.vcAt (p.dAt + (8 * s.vlt.interval - p.debt))) ∧ (t.pch q).debt = 7 * s.vlt.interval ∧
      (t.pch q).owed = p.owed + 1 ∧ (t.pch q).units = p.units + 1 ∧ (t.pch q).forced = satAdd p.forced 1 ∧
      Reported t (104 + q.val) 0x10 ∧ (∀ o, o ≠ q → t.pch o = s.pch o) ∧ t.mem = s.mem) ∧
    (8192 ≤ p.units → ∃ t, exec (.nrrWindowEnd q) s = .next t ∧ t.now = s.now ∧
      t.pch q = { p with units := p.units - 8192, nrr := [] } ∧ ∀ o, o ≠ q → t.pch o = s.pch o) ∧
    (s.vlt.st = .run → s.vlt.srEntry = none → fld s.vlt.mnt 16 8 ≠ 0 → ∃ t r, exec (.scrubRead q) s = .next t ∧
      t.now = max s.now (s.vcAt (p.scrubLast + fld s.vlt.mnt 16 8 * 64)) ∧ r ∈ t.vlt.reqs ∧ r.kind = .scrub ∧ r.port = 12 ∧
      r.hint = false ∧ r.id = s.vlt.nextId ∧ (t.pch q).scrubAt = (p.scrubAt + 1) % 2 ^ 24 ∧
      2 * r.burst = galleyOf q.val (p.scrubAt / 32 % 16) (p.scrubAt / 512 % 32768) (p.scrubAt % 32) ∧
      t.vlt.idleFrom = s.vlt.idleFrom ∧ t.mem = s.mem) ∧
    (∀ (at_ : Instant) (x : Int),
      let z := s.sample at_ 17 (some (8 * x))
      z.pwr.mode ≠ .reset → z.tst.on = false → z.vlt.rdFail = false → ∃ t, exec (.temperatureReading at_ (some x)) s = .next t ∧
      t.now = z.now ∧ t.vlt.stemp = BitVec.ofInt 8 x ∧ t.vlt.badReads = 0 ∧ t.vlt.goodReads = z.vlt.goodReads + 1 ∧
      t.vlt.dbl = (if 85 ≤ x then true else if x ≤ 81 then false else z.vlt.dbl)) ∧
    (∀ at_ : Instant,
      let z := s.sample at_ 17 none
      z.pwr.mode ≠ .reset → z.vlt.badReads = 1 → ∃ t, exec (.temperatureReading at_ none) s = .next t ∧
      t.vlt.rdFail = true ∧ t.vlt.dbl = true ∧ t.vlt.stemp = z.vlt.stemp ∧ Reported t 136 0x10)) ∧
  (∀ (s : State), s.pwr.mode ≠ .reset →
    (∀ m, s.vlt.idleFrom = some m → fld s.vlt.mnt 24 8 ≠ 0 →
      let at_ := s.mcAt (m + fld s.vlt.mnt 24 8 * 250)
      let v := s.vc (s.clocks.vault.next at_)
      s.idleHolds v = true → ∃ t, exec .selfRefreshEntry s = .next t ∧ t.now = max s.now at_ ∧
      t.vlt.srEntry = some v ∧ t.vlt.srWake = none ∧ t.vlt.st = s.vlt.st ∧
      (∀ q, (t.pch q).rows = List.replicate 16 none ∧ Logged t q v 7) ∧ t.mem = s.mem ∧ t.chans = s.chans) ∧
    (∀ v, s.vlt.srEntry = some v → s.vlt.st = .run → ∃ t, exec .selfRefreshEntered s = .next t ∧
      t.now = max s.now (s.vcAt (v + 256)) ∧ t.vlt.srcnt = satAdd s.vlt.srcnt 1 ∧
      (∀ q, (t.pch q).debt = 0) ∧ t.mem = s.mem ∧
      ((s.synth 9).stagedSsc = none → t.vlt.st = .selfref) ∧
      (∀ w, (s.synth 9).stagedSsc = some w → (∀ c, (s.chan c).armed = false ∧ (s.chan c).rcd.isOpen = false) →
        (∀ r, (s.ring r).delivery = none) → t.vlt.st = .safe ∧ (t.synth 9).ssc = w ∧ (t.synth 9).st = .safe ∧
        (t.synth 9).stagedSsc = none ∧ (t.synth 9).lockStart = some t.now)) ∧
    (∀ w, s.vlt.st = .selfref → s.vlt.srWake = some w → s.vlt.srExit = none → ∃ t, exec .selfRefreshExit s = .next t ∧
      t.vlt = { s.vlt with srExit := some (max w ((s.vlt.srEntry.map (· + 256)).getD w)) } ∧ t.mem = s.mem) ∧
    (∀ v, s.vlt.srExit = some v → ∃ t, exec .selfRefreshExitDone s = .next t ∧ t.now = max s.now (s.vcAt (v + 1024)) ∧
      t.vlt.st = (if s.vlt.st = .frozen then .frozen else .run) ∧ t.vlt.srEntry = none ∧ t.vlt.srExit = none ∧
      (∀ q, (t.pch q).debt = 0 ∧ (t.pch q).nrr = [] ∧ Logged t q (v + 1024) 5) ∧ t.mem = s.mem) ∧
    (∀ m lanes passed, s.vlt.trnStart = some (m, false) →
      let ok := passed = true ∧ lanes.length = 1152 ∧ ∀ w ∈ lanes, w.getLsbD 0 = true ∧ 20 ≤ fld w 4 8
      ∃ t, exec (.trainingEnd lanes passed) s = .next t ∧ t.now = max s.now (s.mcAt (m + 10250000)) ∧
      t.vlt.trnStart = none ∧ t.vlt.trnLanes = lanes ∧ t.vlt.st = s.vlt.st ∧
      (ok → t.vlt.trnResult = (if s.nvm.rfail then 3 else 1) ∧ t.nvm = s.nvm) ∧
      (¬ok → t.vlt.trnResult = 4 ∧ t.nvm.phase = 0xF ∧ t.nvm.why = 9 ∧ Reported t 137 0x04)) ∧
    (∀ m verified, s.vlt.trnStart = some (m, true) → ∃ t, exec (.quickRestoreEnd verified) s = .next t ∧
      t.now = max s.now (s.mcAt (m + 250000)) ∧
      (verified = true → t.vlt.trnResult = 2 ∧ t.vlt.trnStart = none) ∧
      (verified = false → t.nvm.rfail = true ∧ t.vlt.trnStart = some (m + 250000, false) ∧ Reported t 137 0x08)) ∧
    (∀ v, s.vlt.initStart = some v → ∃ t, exec .stackInitEnd s = .next t ∧ t.now = max s.now (s.vcAt (v + 41943040)) ∧
      t.vlt.st = .run ∧ t.vlt.initStart = none ∧ (∀ a, t.byte a = 0) ∧
      (∀ g, t.stored g = (checkBits g 0 ++ (0 : Qword) : BitVec (16 + 128))) ∧ t.chans = s.chans))

/-! ## SYNC bus, placement, fences -/

/-- R664, R665, R668, Tables 20.12, 20.15: in RESET, and once a thermal shutdown has stopped SPAN, a SYNC word does nothing;
otherwise one with a broken frame, a wrong CRC, a bit set that its TYPE does not
use, or one that the mode refuses, counts in its field of SYNC_ERR and does nothing else. R82, R83, R104, R279, R300,
R357, R666, R667, Table 20.12: what a valid word does at E_D, twelve SPAN edges after its visibility edge: STEP
selects a fence; ARM arms every named channel that may be armed, and reports ARM_EXC of one that may not; DISARM
disarms every named channel; TRIG gives its stamp to the SYNC conditions of the open records of the named piers, and
counts as missed in a HELD channel; MARK asks for an epoch mark; NOP is only counted. -/
def Obligations.SyncWords : Prop :=
  (∀ (s : State) (i : Instr) (a : Instant) (type : BitVec 4) (p : BitVec 28) (b : Bool), syncRow i = some (a, type, p, b) →
    (s.pwr.mode = .reset ∨ s.thm.shutdown.isSome = true → exec i s = .next { s with now := max s.now a }) ∧
    (s.pwr.mode ≠ .reset → s.thm.shutdown = none →
    let refused := type = 2 ∧ s.pwr.mode ≠ .run ∧ s.pwr.mode ≠ .shed ∨ type = 1 ∧ s.nvm.phase ≠ 10
    let only := fun (t : State) => t = { s with now := max s.now a, sync := t.sync }
    (b = true → ∃ t, exec i s = .next t ∧ only t ∧
      t.sync = { s.sync with lastEdge := some a, errFrame := satAdd s.sync.errFrame 1 }) ∧
    (b = false → ¬SyncCrc type p → ∃ t, exec i s = .next t ∧ only t ∧
      t.sync = { s.sync with lastEdge := some a, errCrc := satAdd s.sync.errCrc 1 }) ∧
    (b = false → SyncCrc type p → ¬SyncUsed type p → ∃ t, exec i s = .next t ∧ only t ∧
      t.sync = { s.sync with lastEdge := some a, errRsvd := satAdd s.sync.errRsvd 1 }) ∧
    (b = false → SyncCrc type p → SyncUsed type p → refused → ∃ t, exec i s = .next t ∧ only t ∧
      t.sync = { s.sync with lastEdge := some a, errRefused := satAdd s.sync.errRefused 1 }))) ∧
  (∀ (s : State) (a : Instant) (p : BitVec 28),
    let vis := s.span.next (a + 19200)
    let ed := vis + 12 * 51200
    let accepted := fun (t : State) (type : BitVec 4) => t.sync.valid = satAdd s.sync.valid 1 ∧ t.sync.type = type ∧
      t.sync.last = type ++ p ∧ t.sync.lastEdge = some a ∧ t.sync.errCrc = s.sync.errCrc ∧ t.now = max s.now (max a ed) ∧
      t.mem = s.mem ∧ t.closed = s.closed
    s.pwr.mode = .run → s.nvm.phase = 10 → s.tst.on = false → s.thm.shutdown = none →
    (SyncCrc 0 p → SyncUsed 0 p → ∃ t, exec (.syncNop a p false) s = .next t ∧ accepted t 0 ∧
      t = { s with now := t.now, sync := t.sync }) ∧
    (SyncCrc 1 p → SyncUsed 1 p → ∃ t f, exec (.syncStep a p false) s = .next t ∧ accepted t 1 ∧
      t = { s with now := t.now, sync := t.sync, place := { s.place with pend := s.place.pend ++ [f] } } ∧
      f.isRemap = false ∧ f.step = p.extractLsb' 8 8 ∧ f.from_ = s.gridFrom ((vis + 2048000 + 24) / 25)) ∧
    (SyncCrc 2 p → ∃ t, exec (.syncArm a p false) s = .next t ∧ accepted t 2 ∧
      (∀ c, ¬Named p c → (t.chan c).armed = (s.chan c).armed ∧ (t.chan c).rcd = (s.chan c).rcd) ∧
      (∀ c, Named p c → (s.chan c).armed = true → (t.chan c).rcd = (s.chan c).rcd ∧ (t.chan c).armAt = (s.chan c).armAt) ∧
      (∀ c, Named p c → (s.chan c).armed = false → s.armExcepted c = false →
        (t.chan c).armed = true ∧ (t.chan c).armAt = ed) ∧
      (∀ c, Named p c → (s.chan c).armed = false → s.armExcepted c = true →
        (t.chan c).armed = false ∧ Reported t c.val 0x20)) ∧
    (SyncCrc 3 p → ∃ t, exec (.syncDisarm a p false) s = .next t ∧ accepted t 3 ∧
      (∀ c, ¬Named p c → t.chan c = s.chan c) ∧
      (∀ c, Named p c → (t.chan c).armed = false ∧ (t.chan c).heldRearm = none ∧ (t.chan c).wantRearm = false) ∧
      (∀ c, Named p c → (s.chan c).armed = true → (s.chan c).armNext = none → (s.chan c).folder.closing = none →
        (t.chan c).disarmAt = some ed ∧ (t.chan c).folder.closing = some ((ed / 25 : Nat) + (s.chan c).folder.base))) ∧
    (SyncCrc 4 p → SyncUsed 4 p → ∃ t, exec (.syncTrig a p false) s = .next t ∧ accepted t 4 ∧
      t.sync.trig = stamp64 (s.stamp a) ∧ t.folios = s.folios ∧
      (∀ c, p.getLsbD (20 + c.val / 12) = false ∨ s.chOn c = false → t.chan c = s.chan c) ∧
      (∀ c, p.getLsbD (20 + c.val / 12) = true → s.chOn c = true → (s.chan c).held = true →
        (t.chan c).trg = { (s.chan c).trg with missed := satAdd (s.chan c).trg.missed 1 }) ∧
      (∀ c i, p.getLsbD (20 + c.val / 12) = true → s.chOn c = true → (s.chan c).held = false →
        (s.chan c).rcd.isOpen = true → i < 8 → (s.chan c).condKind i = 5 →
        ∃ k ∈ (t.chan c).trg.pend, k.i = i ∧ k.time = ((a / 25 : Nat) : Int) + (s.chan c).folder.base +
          ((s.chan c).trgCond i).2.1.toNat)) ∧
    (SyncCrc 5 p → SyncUsed 5 p → ∃ t, exec (.syncMark a p false) s = .next t ∧ accepted t 5 ∧ t.sync.mark = some vis ∧
      t = { s with now := t.now, sync := t.sync }))

/-- R351 to R353, R355, R358, R361, R365, R366, R368, R371, Tables 10.1 to 10.3: FENCE takes the pending fence with the
earliest time: the staged table comes into force, the touchdown step and the epoch change, and every covered channel
gets a fence record with its placement before and after, or, left unbound, is disarmed at the fence; a SUBST moves
every entry of its channel to the spare. -/
def Obligations.Fences : Prop :=
  ∀ (s : State) (f : FencePend), s.nextFence = some f →
    let tf := s.fenceAt f
    let at_ := tf * 25
    let tab := match s.place.staged with | some (l, _) => l | none => s.place.table
    let entry := fun (l : List (Nat × Word)) (k c : Nat) => sget 0 l (k * 96 + c)
    let site := fun (w : Word) => if w.getLsbD 31 then w.extractLsb' 0 12 else 0
    ((f.isRemap = false ∨ f.subst = false) →
      ∃ t, exec .fence s = .next t ∧ t.now = max s.now at_ ∧ t.place.step = f.step ∧ t.place.epoch = s.place.epoch + 1 ∧
      t.place.table = tab ∧ t.place.staged = none ∧ t.place.ftime = stamp64 (s.stamp at_) ∧
      t.place.pend = s.place.pend.erase f ∧ t.mem = s.mem ∧ t.closed = s.closed ∧
      (∀ c, Covered s c at_ → (entry tab f.step.toNat c.val).getLsbD 31 = true → ∃ r,
        (t.chan c).merge.ins = (s.chan c).merge.ins ++ [r] ∧ r.fence = true ∧ r.inst = tf ∧ r.newStep = f.step ∧
        r.newEpoch = s.place.epoch + 1 ∧ r.newSite = site (entry tab f.step.toNat c.val) ∧ r.oldStep = s.place.step ∧
        r.oldEpoch = s.place.epoch ∧ r.oldSite = site (entry s.place.table s.place.step.toNat c.val) ∧
        (t.chan c).armed = (s.chan c).armed) ∧
      (∀ c, Covered s c at_ → (s.chan c).armed = true → (entry tab f.step.toNat c.val).getLsbD 31 = false →
        (t.chan c).armed = false ∧ (t.chan c).merge.ins = (s.chan c).merge.ins) ∧
      (∀ c, ¬Covered s c at_ → (t.chan c).merge.ins = (s.chan c).merge.ins ∧ (t.chan c).armed = (s.chan c).armed)) ∧
    (f.isRemap = true → f.subst = true → f.armB = false → s.place.staged = none → f.a < 96 → f.b < 96 →
      (s.substOk f.a f.b = false → ∃ t, exec .fence s = .next t ∧ t.place.table = s.place.table ∧ t.place.subFail = true ∧
        t.place.step = s.place.step ∧ t.place.epoch = s.place.epoch + 1) ∧
      (s.substOk f.a f.b = true → Sparse 0 s.place.table → ∃ t, exec .fence s = .next t ∧ t.place.step = s.place.step ∧
        t.place.epoch = s.place.epoch + 1 ∧ t.place.subFail = s.place.subFail ∧
        (∀ k, k < 256 → entry t.place.table k f.b = entry s.place.table k f.a ∧ entry t.place.table k f.a = 0 ∧
          ∀ c, c < 96 → c ≠ f.a → c ≠ f.b → entry t.place.table k c = entry s.place.table k c) ∧
        (∀ c : Chan, c.val = f.a → (t.chan c).subOut = true) ∧ (∀ c : Chan, c.val = f.b → (t.chan c).subIn = true)))

/-! ## Timebase -/

/-- R100, R102, R104 to R110, Table 10.3: the epoch mark that a SYNC MARK asks for takes effect at the first REFIN edge 32 ns
or more after the word's visibility edge, which in LOCKED is an instant within 3 ps of a whole multiple of P and the first
that can be. In LOCKED and SLEW that instant gets stamp 0: the generators load SEED, the mark is counted, a slew ends, a
REMAP with a WHEN is cancelled, and every covered stream gets a MARK record whose step is minus the old stamp. In any other
state the mark is rejected. At any other instant nothing happens. -/
def Obligations.EpochMarks : Prop :=
  ∀ (s : State) (a v : Instant), s.sync.mark = some v → s.pwr.mode ≠ .reset →
    let now := max s.now a
    let old := s.stamp now
    let edge := s.firstEdge s.tb.refP (v + 32 * 64000) now = true
    let p : Int := s.tb.refP * 25
    (s.tb.st = .locked → s.tb.jump = none → (edge ↔ v + 32 * 64000 ≤ now ∧
      ∃ k : Int, |(now : Int) + s.tb.scale * 25 - k * p| ≤ 192 ∧ (k - 1) * p - s.tb.scale * 25 - 192 < v + 32 * 64000)) ∧
    (¬edge → exec (.epochMark a) s = .next { s with now := now }) ∧
    (edge → (s.tb.st = .locked ∨ s.tb.st = .slew) → ∃ t, exec (.epochMark a) s = .next t ∧ t.now = now ∧
      t.stamp t.now = 0 ∧ t.tb.st = .locked ∧ t.tb.marked = true ∧ t.tb.marks = satAdd s.tb.marks 1 ∧ t.tb.slewRem = 0 ∧
      Seeded s t ∧ t.sync = { s.sync with mark := none } ∧ (Quiet s now → DiscIssued s t 2 (-old)) ∧
      t.place.pend = s.place.pend.filter (fun f => !(f.isRemap && f.when_ != 0)) ∧
      ((∃ f ∈ s.place.pend, f.isRemap = true ∧ f.when_ ≠ 0) → t.place.rCancel = true) ∧
      t.place.epoch = s.place.epoch ∧ t.mem = s.mem ∧ ∀ c, (t.chan c).armed = (s.chan c).armed) ∧
    (edge → s.tb.st ≠ .locked → s.tb.st ≠ .slew → ∃ t, exec (.epochMark a) s = .next t ∧ Reported t 153 0x10 ∧
      t = { s with now := now, sync := { s.sync with mark := none },
                   truss := { s.truss with incoming := t.truss.incoming } })

/-- R103, R111 to R116, R121, R675, Tables 3.2, 3.3: acquisition: REFIN, present, is qualified for 250,000 mc; 12,500 mc later
a mean error within 3 ps locks the timebase, stamp 0 falling on the first anchor edge, and any other starts the
qualification again; a loss in ACQUIRE restarts it, and once more REFIN's return. In LOCKED, SLEW or SETTLE a loss is declared
at the first SPAN edge 2 P after the last REFIN edge, or at the one at or after the last of 4 REFIN edges that lie more than
200 ps off whole multiples of P; it enters COAST, freezes the control value of 16 P before, is counted and reported. A phase
change that reaches neither declares nothing. The first edge after a loss starts QUALIFY, and 2 P without an edge end it. -/
def Obligations.ReferenceLost : Prop :=
  ∀ (s : State) (a : Instant), s.pwr.mode ≠ .reset →
    (s.tb.st = .acquire → s.tb.settling = false → s.tb.refok = true → ∃ t, exec .acquireQualified s = .next t ∧
      OnlyTimebase s t ∧ t.now = max s.now (s.tb.since + 250000 * s.clocks.mgmt.period) ∧
      t.tb = { s.tb with settling := true, since := t.now }) ∧
    (s.tb.st = .acquire → s.tb.refok = false → ∃ t, exec (.qualifyStart a) s = .next t ∧ OnlyTimebase s t ∧
      t.now = max s.now a ∧ t.tb.since = t.now ∧ t.tb.st = .acquire ∧ t.tb.settling = false ∧ t.tb.refok = true) ∧
    (∀ e : Int, s.tb.st = .acquire → s.tb.settling = true →
      let now := max s.now (s.tb.since + 12500 * s.clocks.mgmt.period)
      (e.natAbs ≤ 192 → ∃ t, exec (.lockCheck e a) s = .next t ∧ t.now = now ∧ OnlyTimebase s t ∧ t.tb.st = .locked ∧
        t.stamp (max now a) = 0 ∧ t.truss = s.truss) ∧
      (192 < e.natAbs → ∃ t, exec (.lockCheck e a) s = .next t ∧ t.now = now ∧ OnlyTimebase s t ∧ t.tb.st = .acquire ∧
        t.tb.settling = false ∧ t.tb.since = now ∧ t.tb.scale = s.tb.scale ∧ Seeded s t ∧ Reported t 153 0x01)) ∧
    (∀ absent, s.tb.st = .acquire → ∃ t, exec (.refinLossInAcquire a absent) s = .next t ∧ t.now = max s.now a ∧
      t.tb.st = .acquire ∧ t.tb.settling = false ∧ t.tb.since = t.now ∧ t.tb.refok = !absent ∧ Seeded s t ∧
      Reported t 152 (if absent then 0x01 else 0x04) ∧ t.chans = s.chans ∧ t.mem = s.mem) ∧
    (∀ (byPhase : Bool) (edges : List Instant) (last : Instant), edges.getLast? = some last →
      (s.tb.st = .locked ∨ s.tb.st = .slew ∨ s.tb.st = .settle) →
      let off := 4 ≤ edges.length ∧ ∀ e ∈ edges.drop (edges.length - 4), 12800 < (s.gridErr s.tb.refP e).natAbs
      ((byPhase = false ∨ off) → ∃ t, exec (.lossOfReference byPhase edges) s = .next t ∧
        t.now = max s.now (s.span.next (if byPhase then last else last + 2 * s.tb.refP * 25)) ∧ t.tb.st = .coast ∧
        t.tb.refok = false ∧ t.tb.lastRef = some last ∧ t.tb.frozen = some (t.now - 16 * s.tb.refP * 25) ∧
        t.tb.losses = satAdd s.tb.losses 1 ∧ t.tb.slewRem = 0 ∧ t.tb.scale = s.tb.scale ∧
        Reported t 152 (if byPhase then 0x02 else 0x01) ∧ t.mem = s.mem ∧
        ∀ c, (t.chan c).merge = (s.chan c).merge ∧ (t.chan c).armed = (s.chan c).armed) ∧
      (byPhase = true → ¬off → ∃ t, exec (.lossOfReference byPhase edges) s = .next t ∧
        t = { s with now := max s.now last, tb := { s.tb with jump := t.tb.jump } })) ∧
    (s.tb.st = .coast → ∃ t, exec (.qualifyStart a) s = .next t ∧ OnlyTimebase s t ∧ t.now = max s.now a ∧
      t.tb.st = .qualify ∧ t.tb.since = t.now ∧ t.tb.subDone = 0 ∧ t.tb.refok = true ∧ t.tb.scale = s.tb.scale) ∧
    (s.tb.st = .qualify → ∃ t, exec (.missingEdge a) s = .next t ∧ OnlyTimebase s t ∧
      t.now = max s.now (s.span.next (a + 2 * s.tb.refP * 25)) ∧ t.tb.st = .coast ∧ t.tb.refok = false ∧ t.tb.lastRef = some a ∧ t.tb.measured = none ∧ t.tb.scale = s.tb.scale ∧ t.tb.losses = s.tb.losses)

/-- R116 to R123, Tables 3.3, 3.5: ten sub-windows of 100 us, each within 10 ppm and 1 ns, qualify the reference, a failed
one restarts at the next edge; then STEP is measured as the rounded mean distance of the last 256 edges from whole
periods. T_D is the first edge 4,096 sc or more after the last of them whose new stamp is a whole number of anchor periods.
Under REANCHOR, or beyond MAX_STEP, the scale moves there by the step that brings that instant to a whole number of periods,
with a REANCHOR record, a channel that is to be armed at or after it takes the new scale, the physical SPAN keeps the step as
its offset, and SETTLE follows; under SLEW the offset is worked off at RATE, and LOCKED follows. -/
def Obligations.ReferenceReturns : Prop :=
  ∀ (s : State) (a : Instant), s.pwr.mode ≠ .reset →
    (∀ (ppb shift : Int) (edges : List Int) (next : Instant), s.tb.st = .qualify → s.tb.measured = none →
      let now := max s.now (s.tb.since + (s.tb.subDone + 1) * 125000 * 51200)
      let good := ppb.natAbs ≤ 10000 ∧ (s.tb.subDone = 0 ∨ shift.natAbs ≤ 64000)
      (¬good → ∃ t, exec (.subWindow ppb shift edges next) s = .next t ∧ t.now = now ∧ OnlyTimebase s t ∧
        t.tb = { s.tb with since := max now next, subDone := 0 } ∧ Reported t 152 0x08) ∧
      (good → s.tb.subDone + 1 < 10 → ∃ t, exec (.subWindow ppb shift edges next) s = .next t ∧ t.now = now ∧
        OnlyTimebase s t ∧ t.tb = { s.tb with subDone := s.tb.subDone + 1 }) ∧
      (good → s.tb.subDone = 9 → edges.length = 256 → ∃ t step, exec (.subWindow ppb shift edges next) s = .next t ∧ t.now = now ∧
        OnlyTimebase s t ∧ t.tb.measured = some step ∧ t.tb.step = BitVec.ofInt 32 step ∧
        (∀ e, edges.getLast? = some e → 0 ≤ e - s.tb.scale →
          ((t.tb.tdFrom.getD 0 : Nat) : Int) = (e - s.tb.scale) * 25 + 4096 * 51200) ∧
        t.tb.tdFrom ≠ none ∧ t.tb.st = .qualify ∧ t.tb.scale = s.tb.scale ∧
        (∀ d, (∀ e ∈ edges, (e + d) % s.tb.refP = 0) → -(s.tb.refP : Int) < 2 * d → 2 * d ≤ s.tb.refP →
          step = d) ∧
        (s.tb.cfg.getLsbD 8 = true → fld s.tb.slewCfg 16 16 < step.natAbs → Reported t 153 0x20))) ∧
    (∀ step from_, s.tb.st = .qualify → s.tb.measured = some step → s.tb.tdFrom = some from_ → from_ ≤ max s.now a →
      nearestP s.tb.refP (s.stamp (max s.now a) + step) % s.tb.anchorP = 0 →
      max s.now a < from_ + s.tb.anchorP * 25 + 64000 →
      ((s.tb.cfg.getLsbD 8 = false ∨ fld s.tb.slewCfg 16 16 < step.natAbs) → ∃ t applied, exec (.reanchor a) s = .next t ∧
        t.now = max s.now a ∧ t.tb.scale = s.tb.scale + applied ∧ t.tb.step = BitVec.ofInt 32 applied ∧
        t.stamp t.now % s.tb.refP = 0 ∧ 2 * |applied - step| ≤ s.tb.refP ∧ t.tb.st = .settle ∧ t.tb.since = t.now ∧
        t.tb.offset = s.tb.offset + applied ∧ t.tb.glide = some t.now ∧
        t.tb.reanchors = satAdd s.tb.reanchors 1 ∧ Seeded s t ∧ (Quiet s t.now → DiscIssued s t 0 applied) ∧
        (∀ c u k, s.chOn c = true → (s.chan c).armed = true → t.now ≤ (s.chan c).armAt → (s.chan c).armNext = some (u, k) →
          (t.chan c).armNext = some (u, t.tb.scale)) ∧ t.mem = s.mem) ∧
      (s.tb.cfg.getLsbD 8 = true → step.natAbs ≤ fld s.tb.slewCfg 16 16 → ∃ t, exec (.slewStart a) s = .next t ∧
        t.now = max s.now a ∧ t.tb.st = .slew ∧ t.tb.slewRem = step ∧ t.tb.slewStart = t.now ∧ t.tb.scale = s.tb.scale ∧
        t.chans = s.chans ∧ t.truss = s.truss)) ∧
    (s.tb.st = .slew → s.tb.staged = none → ∃ t, exec .slewEnd s = .next t ∧
      t.now = max s.now (s.tb.slewStart + s.tb.slewRem.natAbs * 100000000000 / fld s.tb.slewCfg 0 8) ∧ OnlyTimebase s t ∧
      t.tb = { s.tb with st := .locked, slewRem := 0 }) ∧
    (∀ e : Int, s.tb.st = .settle → s.tb.staged = none →
      (e.natAbs ≤ 192 → ∃ t, exec (.settleWindowEnd e) s = .next t ∧ t.now = max s.now (s.tb.since + 62500 * 51200) ∧
        OnlyTimebase s t ∧ t.tb = { s.tb with st := .locked, offset := 0, glide := none }) ∧
      (192 < e.natAbs → ∃ t, exec (.settleWindowEnd e) s = .next t ∧ OnlyTimebase s t ∧ t.tb.st = .settle ∧
        t.tb.since = t.now ∧ t.tb.switchDue = (if s.tb.sbyOk then some (s.tb.active, t.now) else s.tb.switchDue) ∧ Seeded s t ∧
        Reported t 153 0x01))

/-- R125 to R127, Tables 3.4, 3.5, 9.7: the loss of the active loop asks for a switch-over to a usable standby loop, and
without one in a state that follows the reference is a loss of reference; a switch-over, at the first anchor edge after the
cause, changes the active loop, counts, and moves the scale by the mean of the comparator with a SWITCH record, or slews it
away under SLEW; the standby loop is usable from its lock, which the frozen loops of COAST and QUALIFY do not reach, to its
fault. -/
def Obligations.LoopSwitches : Prop :=
  ∀ (s : State) (a : Instant), s.pwr.mode ≠ .reset →
    let fault := fun (b : Bool) => if b then (0x04 : Byte) else 0x02
    (s.tb.st ≠ .off → s.tb.sbyOk = true → s.tb.switchDue = none → ∃ t, exec (.loopFault a) s = .next t ∧
      t = { s with now := max s.now a, tb := { s.tb with switchDue := some (s.tb.active, max s.now a) } }) ∧
    ((s.tb.st = .locked ∨ s.tb.st = .slew ∨ s.tb.st = .settle) → s.tb.sbyOk = false → ∃ t, exec (.loopFault a) s = .next t ∧
      t.tb.st = .coast ∧ t.tb.losses = satAdd s.tb.losses 1 ∧ Reported t 153 (fault s.tb.active) ∧
      t.tb.active = s.tb.active ∧ t.tb.scale = s.tb.scale ∧ t.mem = s.mem) ∧
    (s.tb.cfg.getLsbD 12 = true → ∃ t, exec (.standbyLoopFault a) s = .next t ∧ OnlyTimebase s t ∧
      t.tb = { s.tb with sbyOk := false } ∧ Reported t 153 (fault !s.tb.active)) ∧
    (∀ ab : Int, s.tb.cfg.getLsbD 12 = true → s.tb.st ≠ .off → s.tb.st ≠ .coast → s.tb.st ≠ .qualify →
      |ab| ≤ 32767 → ∃ t, exec (.standbyLock a ab) s = .next t ∧
      t = { s with now := max s.now a, tb := { s.tb with sbyOk := true, abDiff := BitVec.ofInt 16 ab } }) ∧
    (∀ failed from_ (m : Int), s.tb.switchDue = some (failed, from_) →
      s.firstEdge s.tb.anchorP from_ (max s.now a) = true →
      let base := fun (t : State) => t.now = max s.now a ∧ t.tb.active = !s.tb.active ∧ t.tb.sbyOk = false ∧
        t.tb.switchDue = none ∧ t.tb.switches = satAdd s.tb.switches 1 ∧ t.tb.step = BitVec.ofInt 32 m ∧
        Reported t 153 (0x08 ||| fault failed) ∧ t.mem = s.mem
      ((s.tb.cfg.getLsbD 8 = false ∨ s.tb.st ≠ .locked ∧ s.tb.st ≠ .slew) → ∃ t, exec (.switchOver a m) s = .next t ∧
        base t ∧ t.tb.scale = s.tb.scale + m ∧ t.tb.st = s.tb.st ∧ (Quiet s t.now → DiscIssued s t 1 m)) ∧
      (s.tb.cfg.getLsbD 8 = true → s.tb.st = .locked → m ≠ 0 → ∃ t, exec (.switchOver a m) s = .next t ∧
        base t ∧ t.tb.scale = s.tb.scale ∧ t.tb.st = .slew ∧ t.tb.slewRem = m ∧ t.tb.slewStart = t.now))

/-! ## Synthesizers -/

/-- R147 to R151, R153, R154, Table 4.2: a hop puts the output in its hold state and counts; a stored hop releases 2,048
SWREF cycles after it begins, a full search 8,192 after, with its result in the entry that names the word; a refill
goes on to its next entry. Without lock detect a stored hop falls back to a search, and a search fails. A lost lock
makes the recovery hop, and too many edges in a window park the output at the end of its high phase. The cycle guard counts
and reports the edges that follow one another by less than 1/FLIM. -/
def Obligations.SweepHops : Prop :=
  ∀ (s : State) (k : Fin 8) (a : Instant), s.pwr.mode ≠ .reset →
    let x := s.synth (swOf k)
    let u := 512000
    (s.pierOn k = true → ∃ t h, exec (.hop a k) s = .next t ∧ OnlySynth s t (swOf k) ∧ t.now = max s.now a ∧
      HopBegun x (t.synth (swOf k)) h t.now ∧ h.odiv = x.odiv ∧ h.nint = x.nint ∧ h.nfrac = x.nfrac ∧
      ((∃ i, HoldsWord x i x.odiv x.nint x.nfrac ∧ (x.entryAt i).valid = true) →
        (∀ i, HoldsWord x i x.odiv x.nint x.nfrac → (x.entryAt i).named = true → (x.entryAt i).valid = true) →
        h.full = false) ∧
      (h.full = false → ∃ i, h.entry = some i ∧ HoldsWord x i x.odiv x.nint x.nfrac ∧ (x.entryAt i).valid = true)) ∧
    (s.pierOn k = false → exec (.hop a k) s = .next { s with now := max s.now a }) ∧
    (∀ h rises, x.hop = some h → h.full = false → ∃ t, exec (.storedHopRelease k rises) s = .next t ∧
      OnlySynth s t (swOf k) ∧ t.now = max s.now (h.start + 2048 * u) ∧ HopReleased x (t.synth (swOf k)) h rises ∧
      (t.synth (swOf k)).store = x.store ∧
      (if x.heldEdges rises ≠ 0 then Reported t (154 + k.val) 0x10 else t.truss = s.truss)) ∧
    (∀ h rises, x.hop = some h → h.full = true →
      let at_ := h.start + 8192 * u
      let kept := fun (y : SynthSt) => (∀ j, h.entry ≠ some j → y.entryAt j = x.entryAt j) ∧
        ∀ i, h.entry = some i → i < x.store.length → (y.entryAt i).valid = true ∧ (y.entryAt i).odiv = (x.entryAt i).odiv ∧
          (y.entryAt i).nint = (x.entryAt i).nint ∧ (y.entryAt i).nfrac = (x.entryAt i).nfrac
      ∃ t, exec (.fullSearchRelease k rises) s = .next t ∧ OnlySynth s t (swOf k) ∧ t.now = max s.now at_ ∧
        kept (t.synth (swOf k)) ∧
        (x.refilling = false → HopReleased x (t.synth (swOf k)) h rises ∧
          (if x.heldEdges rises ≠ 0 then Reported t (154 + k.val) 0x10 else t.truss = s.truss)) ∧
        (∀ i rest, x.refilling = true → x.refill = i :: rest → ∃ g, (t.synth (swOf k)).hop = some g ∧ g.full = true ∧
          g.entry = some i ∧ g.start = at_ ∧ (t.synth (swOf k)).refill = rest ∧ (t.synth (swOf k)).hops = x.hops ∧
          (t.synth (swOf k)).out = .parkLow ∧ (t.synth (swOf k)).st = .search) ∧
        (x.refilling = true → x.refill = [] → (t.synth (swOf k)).refilling = false ∧
          ∃ g, HopBegun x (t.synth (swOf k)) g at_ ∧ g.odiv = x.odiv ∧ g.nint = x.nint ∧ g.nfrac = x.nfrac)) ∧
    (∀ h band, x.hop = some h → ∃ t, exec (.lockDetectDeadline k band) s = .next t ∧ OnlySynth s t (swOf k) ∧
      (h.full = false → t.now = max s.now (h.start + 1792 * u) ∧ Reported t (154 + k.val) 0x04 ∧
        t.synth (swOf k) = { x with
          st := .search, searches := satAdd x.searches 1
          hop := some { h with start := h.start + 1792 * u, full := true, fellBack := true } }) ∧
      (h.full = true → t.now = max s.now (h.start + 7936 * u)) ∧
      (h.full = true → x.refilling = false → Reported t (154 + k.val) (if band then 0x01 else 0x03) ∧
        t.synth (swOf k) = { x with st := .fail, hop := none }) ∧
      (h.full = true → x.refilling = true → Reported t (154 + k.val) 0x03 ∧
        (t.synth (swOf k)).store = x.store)) ∧
    ((x.st = .run ∨ x.st = .ramp) → ∃ t h, exec (.unlock a (swOf k)) s = .next t ∧ OnlySynth s t (swOf k) ∧
      t.now = max s.now a ∧ HopBegun x (t.synth (swOf k)) h t.now ∧ Reported t (154 + k.val) 0x08 ∧
      (t.synth (swOf k)).store = x.store ∧
      (x.rampOn = true → h.full = false ∧ h.entry = some x.chain.toNat) ∧
      (x.rampOn = false → h.full = (!(x.entryAt x.entry.toNat).valid) ∧ h.odiv = x.odiv ∧ h.nint = x.nint ∧
        h.nfrac = x.nfrac)) ∧
    (∀ n rises, s.pierOn k = true → (x.cfg.extractLsb' 20 12).toNat * 512 / 1000 + 1 < n →
      ∃ t, exec (.windowMonitor a k n rises) s = .next t ∧ OnlySynth s t (swOf k) ∧ Reported t (154 + k.val) 0x20 ∧
        t.now = max s.now a ∧ (t.synth (swOf k)).st = .fail ∧ (t.synth (swOf k)).out = .parkLow ∧
        (t.synth (swOf k)).fall = x.endFall t.now ∧ (t.synth (swOf k)).guards = satAdd x.guards (x.heldEdges rises) ∧
        (x.heldEdges rises ≠ 0 → Reported t (154 + k.val) 0x10) ∧
        (t.synth (swOf k)).hop = none ∧ (t.synth (swOf k)).rampOn = false ∧ (t.synth (swOf k)).store = x.store) ∧
    (∀ n rises, n ≤ (x.cfg.extractLsb' 20 12).toNat * 512 / 1000 + 1 → x.heldEdges rises = 0 →
      exec (.windowMonitor a k n rises) s = .next { s with now := max s.now a }) ∧
    (∀ e1 e2 : Instant, x.flim = 1000 → (x.heldEdges [e1, e2] = if e2 < e1 + 64000 then 1 else 0))

/-- R155, R156, R158 to R164, Table 4.11: a ramp starts at its SWREF edge with a hop to the entry of segment 0; a segment
ends after DWELL cycles, or at the trigger that follows under ADV; a segment with CONT goes on from the last word plus
the slope, any other with a hop, and END says what follows the last. DECK and VAULT lock in 4,096 input cycles, which
moves them to their synthesizers' clocks, and go to the safe clock, the MGMT clock, when they lose lock or run too fast,
VAULT with the stack in self-refresh, which it leaves after the lock; their counts go on. -/
def Obligations.RampsAndClockLocks : Prop :=
  ∀ (s : State) (a : Instant), s.pwr.mode ≠ .reset →
    (∀ (k : Fin 8) (e : Instant), let x := s.synth (swOf k)
      let begins := fun (y : SynthSt) (j : Nat) (at_ : Instant) => y.rampOn = true ∧ y.seg.toNat = j ∧ y.tDone = 0 ∧
        y.w = (((x.entryAt (x.segIdx j)).nint.toNat * 2 ^ 24 + (x.entryAt (x.segIdx j)).nfrac.toNat) * 2 ^ 8 : Nat) ∧
        ∃ h, y.hop = some h ∧ h.start = at_ ∧ h.entry = some (x.segIdx j) ∧ h.full = !(x.entryAt (x.segIdx j)).valid ∧
          y.st = (if h.full then .search else .hop) ∧ y.hops = satAdd x.hops 1
      (x.startDue = some e → x.refilling = false → ∃ t, exec (.rampStart k) s = .next t ∧ OnlySynth s t (swOf k) ∧
        t.now = max s.now e ∧ begins (t.synth (swOf k)) 0 e ∧ (t.synth (swOf k)).startDue = none ∧ t.truss = s.truss) ∧
      (let j := x.seg.toNat
       let full := x.t0 + (x.dwell j - x.tDone) * 512000
       let last := x.w + x.slope j * (x.dwell j - 1 : Nat)
       x.rampOn = true → x.st = .ramp → 1 ≤ x.dwell j →
        (x.advSync = false ∧ e = full ∨ ∃ i, x.advSync = true ∧ x.advance = some i ∧ e = max full (s.swClk.next i)) →
        ∃ t, exec (.segmentEnd k) s = .next t ∧ OnlySynth s t (swOf k) ∧ t.now = max s.now e ∧ t.truss = s.truss ∧
          (t.synth (swOf k)).advance = none ∧ (t.synth (swOf k)).pend = false ∧ (t.synth (swOf k)).store = x.store ∧
          (j < x.lastSeg → x.cont (j + 1) = true → (t.synth (swOf k)).seg.toNat = j + 1 ∧ (t.synth (swOf k)).st = .ramp ∧
            (t.synth (swOf k)).w = x.w + x.slope j * x.dwell j ∧ (t.synth (swOf k)).tDone = 0 ∧
            (t.synth (swOf k)).t0 = e ∧ (t.synth (swOf k)).hops = x.hops ∧ (t.synth (swOf k)).hop = x.hop) ∧
          (j < x.lastSeg → x.cont (j + 1) = false → begins (t.synth (swOf k)) (j + 1) e) ∧
          (x.lastSeg ≤ j → x.rampEnd = 1 → begins (t.synth (swOf k)) 0 e) ∧
          (x.lastSeg ≤ j → x.rampEnd = 2 → (t.synth (swOf k)).st = .hold ∧ (t.synth (swOf k)).out = .parkLow ∧
            (t.synth (swOf k)).rampOn = false) ∧
          (x.lastSeg ≤ j → x.rampEnd ≠ 1 → x.rampEnd ≠ 2 → (t.synth (swOf k)).st = .run ∧
            (t.synth (swOf k)).rampOn = false ∧ (t.synth (swOf k)).out = x.out ∧
            (t.synth (swOf k)).nint = BitVec.ofInt 7 (last / 2 ^ 32) ∧
            (t.synth (swOf k)).nfrac = BitVec.ofInt 24 (last / 2 ^ 8)))) ∧
    (∀ (v : Bool), let k : Synth := if v then 9 else 8
      let safe := fun (t : State) => t.now = max s.now a ∧ (t.synth k).st = .safe ∧ (t.synth k).lock = false ∧
        (t.synth k).lockStart = some t.now ∧ (∀ j, j ≠ k → t.synth j = s.synth j) ∧ t.mem = s.mem ∧ t.chans = s.chans ∧
        (v = false → OnlyLoop s t k) ∧ MovedTo s t v s.clocks.mgmt ∧
        (v = true → s.vlt.st = .run → t.vlt.st = .safe ∧ t.vlt.srcnt = satAdd s.vlt.srcnt 1 ∧ t.vlt.reqs = s.vlt.reqs ∧
          ∀ q, (t.pch q).debt = 0)
      (∀ e locked band, (s.synth k).lockStart = some e → s.tb.st ≠ .coast → s.tb.st ≠ .qualify →
        ∃ t, exec (.synthLock v locked band) s = .next t ∧ t.now = max s.now (e + 4096 * 12800000) ∧ t.mem = s.mem ∧
          t.chans = s.chans ∧ (∀ j, j ≠ k → t.synth j = s.synth j) ∧ (v = false → OnlyLoop s t k) ∧
          (locked = true → (t.synth k).st = .run ∧ (t.synth k).lock = true ∧ (t.synth k).lockStart = none ∧
            t.truss = s.truss ∧ MovedTo s t v (if v then Clocks.nominal.vault else Clocks.nominal.deck) ∧
            (v = true → s.vlt.st = .safe → t.vlt.st = .selfref ∧ t.vlt.srExit = some (t.vc t.now))) ∧
          (locked = false → t.synth k = { s.synth k with lockStart := some t.now } ∧ Reported t (154 + k.val) (if band then 0x01 else 0x03) ∧
            t.vlt = s.vlt ∧ t.clocks = s.clocks)) ∧
      ((s.synth k).st = .run → ∃ t, exec (.unlock a k) s = .next t ∧ safe t ∧ Reported t (154 + k.val) 0x48) ∧
      (∀ n, (s.synth k).st = .run → 202 < n → ∃ t, exec (.deckVaultWindow a v n) s = .next t ∧ safe t ∧
        Reported t (154 + k.val) 0x60) ∧
      (∀ n, n ≤ 202 → exec (.deckVaultWindow a v n) s = .next { s with now := max s.now a }))

/-! ## Trim -/

/-- R447 to R452, R455, R458 to R463, Tables 13.2, 13.4: at 1,562,500 sc of a window with CELLS the 64 delay and 32
vernier cells nearest to the ideal are selected and checked; at 1,875,000 sc DESKEW alone needs a cells table; at
2,500,000 sc a trim that passed writes its results, with the next generation, to the table of its band, and one that
failed leaves the store and reports TRIM_FAIL with its first reason. -/
def Obligations.TrimWindows : Prop :=
  ∀ (s : State) (c : Chan), s.pwr.mode ≠ .reset → (s.chan c).trim.running = true →
    let x := s.chan c
    let m := x.trim
    let first := fun (r : BitVec 4) => if m.failReason = 0 then r else m.failReason
    (∀ (cells : List CellMeas) agH agL code, m.pendCells = true → m.cellsOk = false → FirstFailure (cells.map figuresOf) agH agL code →
      ∃ t, exec (.acquisitionEnd c cells agH agL) s = .next t ∧ t.now = max s.now (m.w0 + 1562500 * 51200) ∧
        OnlyChan s t c ∧ t.chan c = { x with trim := { m with
          figs := (t.chan c).trim.figs, trial := (t.chan c).trim.trial, cellsOk := decide (code = 0)
          failReason := first code } } ∧
        ∀ (i : Nat) (w : CellMeas), cells[i]? = some w → w.delay.length = 80 → w.vernier.length = 40 →
          ∃ d v, (t.chan c).trim.trial.masks[i]? = some (d, v) ∧ Selects d 64 12500000 w.delay ∧
            Selects v 32 390625 w.vernier) ∧
    (m.pendDeskew = true → ∃ t, exec (.deskewPhase c) s = .next t ∧ OnlyChan s t c ∧
      t.now = max s.now (m.w0 + 1875000 * 51200) ∧ t.chan c = { x with trim := { m with
        failReason := first (if m.pendCells = false ∧ (m.table m.b0.toNat).cv = false then 0xC
                             else if s.tb.st = .locked then 0 else 8) } }) ∧
    (∀ edgesH edgesL, m.pending = false → m.wasArmed = false ∨ m.wasHeld = true →
      let p := s.tb.refP
      let d := fun (l : List Int) => meanRound (l.map (stepOf p))
      let few := edgesH.length < 1024 ∨ edgesL.length < 1024
      let far := fun (l : List Int) => let ds := l.map (stepOf p)
        26 ^ 2 * ds.length ^ 2 + ds.sum.natAbs ^ 2 < ds.length * (ds.map fun e => e.natAbs * e.natAbs).sum
      let wide := far edgesH ∨ far edgesL
      let deskew : BitVec 4 := if m.pendDeskew = false then 0 else if few then 6 else if wide then 7
        else if s.tb.st = .locked then 0 else 8
      let cells : BitVec 4 := if m.pendCells = true ∧ m.cellsOk = false then 1 else 0
      let code := first (if deskew = 0 then cells else deskew)
      let b := m.b0.toNat
      ∃ t, exec (.trimWindowEnd c edgesH edgesL) s = .next t ∧ t.now = max s.now (m.w0 + 2500000 * 51200) ∧
        t.mem = s.mem ∧ t.lcy = s.lcy ∧ (t.chan c).armed = x.armed ∧ (t.chan c).trim.running = false ∧
        (t.chan c).trim.reason = code ∧ (t.chan c).trim.result = (if code = 0 then 1 else 2) ∧
        (∀ e, e ≠ c → (t.chan e).trim = (s.chan e).trim ∧ (t.chan e).armed = (s.chan e).armed) ∧
        (∀ i, i ≠ b → (t.chan c).trim.table i = m.table i) ∧
        (code ≠ 0 → (t.chan c).trim.table b = m.table b ∧ t.nvm.tgen = s.nvm.tgen ∧ Reported t c.val 0x40) ∧
        (code = 0 → b < m.store.length → (t.chan c).trim.lastGen = s.nvm.tgen ∧
          t.nvm.tgen = (if s.nvm.tgen = 0xFFFF then 1 else s.nvm.tgen + 1) ∧
          ((t.chan c).trim.table b).gen = s.nvm.tgen ∧
          (m.pendCells = true → ((t.chan c).trim.table b).masks = m.trial.masks ∧
            ((t.chan c).trim.table b).cv = m.trial.cv) ∧
          (m.pendCells = false → ((t.chan c).trim.table b).masks = (m.table b).masks) ∧
          (m.pendDeskew = true → ((t.chan c).trim.table b).dv = true ∧
            ((t.chan c).trim.table b).deskewH = BitVec.ofInt 14 (max (-8192) (min (d edgesH) 8191)) ∧
            ((t.chan c).trim.table b).deskewL = BitVec.ofInt 14 (max (-8192) (min (d edgesL) 8191))) ∧
          (m.pendDeskew = false → ((t.chan c).trim.table b).deskewH = (m.table b).deskewH)))

/-- R467 to R470, R527, R528, Table 13.10: STORE_CAL programs its slot page by page once the erase reads back blank, a
page that fails is programmed once more, the commit page makes the slot the one in force with what was copied, and a
failed verify, or a dip, ends the command with its result; the training slot follows where its values differ. R468,
R471, R492: two octet strings of one length that differ in a single octet have different CRC-32 values, so a slot with one
octet changed, wherever the code covers it, is not valid. -/
def Obligations.TrimStoreProgramming : Prop :=
  (∀ (s : State) (q : StoreSt), s.pwr.mode ≠ .reset → s.nvm.store = some q →
    let ends := fun (t : State) (result : BitVec 4) (cause : Byte) => t.nvm.store = none ∧ t.nvm.calState = 0 ∧
      t.nvm.calResult = result ∧ t.nvm.programming = false ∧ t.nvm.flash = s.nvm.flash ∧ Reported t 222 cause
    let goes := fun (t : State) (step pages : Nat) (state : BitVec 4) => t.truss = s.truss ∧ t.nvm.programming = true ∧
      t.nvm.store = some { q with step := step, pages := pages, retried := false } ∧ t.nvm.calState = state ∧
      t.nvm.flash = s.nvm.flash
    (∀ blank, q.step = 3 → ∃ t, exec (.eraseDone blank) s = .next t ∧ OnlyNvm s t ∧
      (q.stopping = true → ends t 2 0x02) ∧ (q.stopping = false → blank = false → ends t 3 0x04) ∧
      (q.stopping = false → blank = true → goes t 4 0 2)) ∧
    (∀ blank, q.step = 7 → ∃ t, exec (.eraseDone blank) s = .next t ∧ OnlyNvm s t ∧ t.nvm.flash = s.nvm.flash ∧
      t.nvm.calResult = s.nvm.calResult ∧
      (q.stopping = true ∨ blank = false → t.nvm.store = none ∧ t.nvm.calState = 0) ∧
      (q.stopping = false → blank = true → goes t 8 0 4)) ∧
    (s.nvm.programming = true → s.thm.shutdown = none → ∀ verified,
      (q.step = 4 ∨ q.step = 5 → ∃ t, exec (.pageProgramDone verified) s = .next t ∧ OnlyNvm s t ∧
        (q.stopping = true → ends t 2 0x02) ∧
        (q.stopping = false → verified = false → q.retried = false →
          t.nvm = { s.nvm with store := some { q with retried := true } } ∧ t.truss = s.truss) ∧
        (q.stopping = false → verified = false → q.retried = true → ends t 3 0x04) ∧
        (q.stopping = false → verified = true → q.step = 4 → t.nvm.pages = satAdd s.nvm.pages 1 ∧
          (if q.pages + 1 = 193 then goes t 5 193 3 else goes t 4 (q.pages + 1) 2)) ∧
        (∀ f, q.stopping = false → verified = true → q.step = 5 → s.nvm.flash = some f →
          t.nvm.inForce = q.target ∧ t.nvm.pages = 194 ∧ t.nvm.calResult = 1 ∧ Reported t 222 0x01 ∧
          (q.target = 1 → t.nvm.genA = q.gen) ∧ (q.target = 2 → t.nvm.genB = q.gen) ∧
          ∃ g slot, t.nvm.flash = some g ∧ (if q.target = 1 then g.slotA else g.slotB) = some slot ∧
            slot.tables = q.copy ∧ slot.gen = q.gen ∧ slot.commit = ~~~ q.gen ∧ slot.crc = crc32 (trimCovered slot) ∧
            (if q.target = 1 then g.slotB = f.slotB else g.slotA = f.slotA) ∧
            ((t.nvm.store = none ∧ g.train = f.train ∧ t.nvm.calState = 0) ∨
             (t.nvm.store = some { q with step := 7, pages := 0, retried := false } ∧ g.train = none ∧
              t.nvm.calState = 4)))) ∧
      (q.step = 8 → ∃ t, exec (.pageProgramDone verified) s = .next t ∧ OnlyNvm s t ∧ t.nvm.calResult = s.nvm.calResult ∧
        (q.stopping = true → t.nvm.store = none ∧ t.nvm.flash = s.nvm.flash) ∧
        (q.stopping = false → verified = false → q.retried = false →
          t.nvm = { s.nvm with store := some { q with retried := true } }) ∧
        (q.stopping = false → verified = false → q.retried = true → t.nvm.store = none ∧ t.nvm.flash = s.nvm.flash) ∧
        (q.stopping = false → verified = true → q.pages + 1 ≠ 22 → goes t 8 (q.pages + 1) 4) ∧
        (∀ f, q.stopping = false → verified = true → q.pages + 1 = 22 → s.nvm.flash = some f → t.nvm.store = none ∧
          ∃ g slot, t.nvm.flash = some g ∧ g.train = some slot ∧ slot.lanes = s.vlt.trnLanes ∧ slot.crc = crc32 (trainCovered slot) ∧
            slot.commit = ~~~ slot.crc ∧
            g.slotA = f.slotA ∧ g.slotB = f.slotB)))) ∧
  (∀ (p q : List Byte) (a b : Byte), a ≠ b → crc32 (p ++ a :: q) ≠ crc32 (p ++ b :: q)) ∧
  (∀ (t u : TrimSlot) (p q : List Byte) (a b : Byte), slotValid t = true → trimCovered t = p ++ a :: q →
    trimCovered u = p ++ b :: q → a ≠ b → u.crc = t.crc → slotValid u = false) ∧
  (∀ (f : Flash) (t u : TrainSlot) (p q : List Byte) (a b : Byte), trainValid f t = true → trainCovered t = p ++ a :: q →
    trainCovered u = p ++ b :: q → a ≠ b → u.crc = t.crc → trainValid f u = false)

/-! ## LOAD -/

/-- R484 to R486, R492 to R499, Tables 14.4, 14.8: each phase of LOAD has its work done by its milestone, counted in mc
from reset release. AUTH checks key, signature and directory, IMAGE the digests and the vault section, CAL the trim
slots and the training slot, ADMIT every forme; CLOCKS starts the timebase and the locks, and what the wait for them
exceeds shifts the later milestones; TRAIN and INIT start the stack, DIST brings the boot forme into force and
requests its domains, TRIM and RUN_READY change the mode. A check that fails halts LOAD with its reason. A reread
forme comes into force, or is refused. -/
def Obligations.LoadPhases : Prop :=
  ∀ s : State, s.pwr.mode ≠ .reset →
    let load := fun (p : Nat) => s.pwr.mode = .load ∧ s.nvm.phase.toNat = p ∧ s.nvm.result = 0
    let late := s.nvm.shift * 250000
    let slow := if s.nvm.quick = true ∧ s.nvm.rfail = false then 0 else 10000000
    let extra := if s.nvm.rfail = true then 250000 else 0
    let on := fun (t : State) (m : Nat) => t.now = max s.now (s.mcAt (s.pwr.mclk0 + m)) ∧ t.mem = s.mem ∧ t.pwr.mclk0 = s.pwr.mclk0 ∧
      t.lcy.fuses = s.lcy.fuses
    let halted := fun (t : State) (why : BitVec 4) (cause : Byte) => t.nvm.phase = 0xF ∧ t.nvm.result = 2 ∧ t.nvm.why = why ∧
      Reported t 220 (0x40 ||| cause) ∧ t.pwr.mode = .load
    let passed := fun (t : State) (p : Nat) => t.nvm.phase.toNat = p ∧ t.nvm.result = 0
    (∀ f, load 0 → s.nvm.flash = some f →
      let key := s.lcy.signKeyOk f.header.pubkey
      let sig := Config.ecdsaOk f.header.pubkey (Config.sha256 (signedOctets f.header)) f.header.sig
      ∃ t, exec .auth s = .next t ∧ on t 500000 ∧ (key = false → halted t 4 0x08) ∧
        (key = true → sig = false → halted t 5 0x10) ∧
        (∀ i, key = true → sig = true → directoryFault f.header f.density = some i →
          halted t 3 0x04 ∧ t.nvm.dirent = BitVec.ofNat 8 i) ∧
        (key = true → sig = true → directoryFault f.header f.density = none → passed t 1 ∧ t.truss = s.truss)) ∧
    (∀ f, load 1 → s.nvm.flash = some f → ∃ t, exec .image s = .next t ∧ on t 2500000 ∧
      (∀ i, digestFault f = some i → halted t 6 0x20 ∧ t.nvm.dirent = BitVec.ofNat 8 i) ∧
      (digestFault f = none → vaultBad f.vault = true → halted t 7 0) ∧
      (digestFault f = none → vaultBad f.vault = false → passed t 2 ∧ t.msp.fwup = true ∧ t.vlt.cfg = f.vault.cfg ∧
        t.vlt.mnt = f.vault.mnt ∧ t.truss.aliveNext.isSome = true)) ∧
    (∀ f, load 2 → s.nvm.flash = some f →
      let a := f.slotA.filter slotValid
      let b := f.slotB.filter slotValid
      ∃ t, exec .cal s = .next t ∧ on t 15500000 ∧ passed t 3 ∧
        (a = none → b = none → t.nvm.inForce = 0 ∧ Reported t 222 0x18) ∧
        (∀ x, a = some x → b = none → t.nvm.inForce = 1 ∧ t.nvm.genA = x.gen ∧ Reported t 222 0x08 ∧
          ∀ c k, k < 4 → (t.chan c).trim.table k = x.tables.getD (4 * c.val + k) TrimTable.blank) ∧
        (∀ y, a = none → b = some y → t.nvm.inForce = 2 ∧ t.nvm.genB = y.gen ∧ Reported t 222 0x08 ∧
          ∀ c k, k < 4 → (t.chan c).trim.table k = y.tables.getD (4 * c.val + k) TrimTable.blank) ∧
        (∀ x y, a = some x → b = some y → x.gen.toNat < y.gen.toNat → t.nvm.inForce = 2 ∧ t.truss = s.truss) ∧
        (∀ x y, a = some x → b = some y → y.gen.toNat ≤ x.gen.toNat → t.nvm.inForce = 1 ∧ t.truss = s.truss) ∧
        (t.nvm.quick = true ↔ f.header.flags.getLsbD 0 = false ∧ ∃ r, f.train = some r ∧ trainValid f r = true)) ∧
    (load 3 → ∃ t, exec .admission s = .next t ∧ on t 16000000 ∧ passed t 4 ∧ t.chans = s.chans ∧
      (∀ n f, n < 64 → s.formeOf n = some f → s.nvm.ok.getLsbD n = false →
        (t.nvm.ok.getLsbD n = true ↔ s.checkForme n f s.bootForme = none) ∧
        (n < s.nvm.whys.length → t.nvm.whys.getD n 0 = whyWord (s.checkForme n f s.bootForme))) ∧
      (∀ n, n < 64 → s.formeOf n = none → t.nvm.ok.getLsbD n = s.nvm.ok.getLsbD n) ∧
      (∀ n f, n < 64 → s.formeOf n = some f → s.nvm.ok.getLsbD n = false → s.checkForme n f s.bootForme ≠ none →
        Reported t 221 0x01)) ∧
    (∀ f, load 4 → s.bootForme = some f → ∃ t, exec .clocks s = .next t ∧ on t 17500000 ∧
      (timebaseBad f = true → halted t 8 0) ∧
      (timebaseBad f = false → passed t 5 ∧ t.tb.st = .acquire ∧ t.tb.since = t.now ∧ t.tb.cfg = f.tbsCfg ∧
        t.tb.seed = f.tbsSeed ∧ Seeded t t ∧ (t.synth 8).lockStart = some t.now ∧ (t.synth 9).lockStart = some t.now ∧
        (t.synth 8).ssc = f.deckSsc ∧ (t.synth 9).ssc = f.vaultSsc ∧ t.truss = s.truss)) ∧
    (load 5 → s.nvm.clocksOk = false → s.tb.st = .locked → (s.synth 8).st = .run → (s.synth 9).st = .run →
      let m := s.mc (s.clocks.mgmt.next s.now)
      let due := s.milestoneMc 6
      ∃ t k, exec .clocksLocked s = .next t ∧ t = { s with nvm := { s.nvm with clocksOk := true, shift := k } } ∧
        m ≤ due + k * 250000 ∧ (0 < k → due + (k - 1) * 250000 < m)) ∧
    (load 5 → s.nvm.clocksOk = true → ∃ t, exec .train s = .next t ∧ on t (18000000 + late) ∧ passed t 6 ∧
      t.vlt.st = .train ∧ t.vlt.trnStart = some (s.pwr.mclk0 + 18000000 + late, s.nvm.quick) ∧
      (∀ q, (t.pch q).debt = 0) ∧ t.chans = s.chans ∧
      (∀ f, s.nvm.flash = some f → s.nvm.quick = false → f.header.flags.getLsbD 0 = false → Reported t 137 0x08) ∧
      (s.nvm.quick = true → t.truss = s.truss)) ∧
    (load 6 → s.vlt.trnStart = none → ∃ t, exec .init s = .next t ∧ on t (18250000 + slow + late + extra) ∧ passed t 7 ∧
      t.vlt.st = .init ∧ t.vlt.initStart = some (s.vc (s.clocks.vault.next t.now)) ∧ t.chans = s.chans) ∧
    (load 7 → ∃ t, exec .dist s = .next t ∧ on t (29000000 + slow + late + extra) ∧ passed t 8 ∧
      (∀ f, s.bootForme = some f → s.nvm.ok.getLsbD s.nvm.bootf.toNat = true →
        t.nvm.powerForme = some s.nvm.bootf.toNat ∧ t.nvm.noForme = s.nvm.noForme ∧ t.place.spares = f.spares ∧
        t.thm.shed = f.shed.setWidth 96 ∧ t.place.tableNo = some f.placement ∧
        ∀ d : Dom, f.power.getLsbD d.val = true → s.dom d = .off → s.thm.shedFrom = none → t.dom d ≠ .off) ∧
      ((s.bootForme = none ∨ s.nvm.ok.getLsbD s.nvm.bootf.toNat = false) → t.nvm.noForme = true ∧ Reported t 221 0x02 ∧
        t.pwr.doms = s.pwr.doms ∧ t.chans = s.chans)) ∧
    (load 8 → ∃ t, exec .trim s = .next t ∧ on t (33500000 + slow + late + extra) ∧ passed t 9 ∧ t.pwr.mode = .trim ∧
      t.pwr.prev = .load ∧
      ∀ c, (s.chOn c = true → s.inPowerMap (chDom c) = true → (t.chan c).trim.running = true ∧
          (t.chan c).trim.pendCells = true ∧ (t.chan c).trim.pendDeskew = false ∧
          (t.chan c).trim.w0 = s.span.vis win400 t.now ∧ (t.chan c).trim.b0 = s.bandOf c) ∧
        (s.chOn c = false → t.chan c = s.chan c)) ∧
    (s.pwr.mode = .trim → s.nvm.phase.toNat = 9 → s.nvm.result = 0 →
      ∃ t, exec .runReady s = .next t ∧ on t (34500000 + slow + late + extra) ∧ t.nvm.phase.toNat = 10 ∧ t.nvm.result = 1 ∧
        (s.thm.expired = false → t.pwr.mode = .run ∧ t.pwr.prev = .trim ∧ t.chans = s.chans ∧ t.truss = s.truss) ∧
        (s.thm.expired = true → t.pwr.mode = .shed ∧ Reported t 182 0x04)) ∧
    (∀ fl f, s.nvm.runPhase = 1 → s.nvm.flash = some fl → s.formeOf s.nvm.target.toNat = some f →
      let n := s.nvm.target.toNat
      let good := (formeEntries fl.header n f).all (digestOk fl)
      ∃ t, exec .formeReread s = .next t ∧ t.now = s.now ∧ t.mem = s.mem ∧ t.pwr.mode = s.pwr.mode ∧
        (good = true → t.nvm.powerForme = some n ∧ t.nvm.noForme = false ∧ t.place.spares = f.spares ∧
          t.thm.shed = f.shed.setWidth 96 ∧ t.nvm.runPhase ≠ 1) ∧
        (good = false → t.nvm.ok.getLsbD n = false ∧ t.nvm.runPhase ≠ 1 ∧ Reported t 221 0x08 ∧ t.chans = s.chans ∧
          t.pwr.doms = s.pwr.doms ∧ (n < s.nvm.whys.length → t.nvm.whys.getD n 0 = 0x0D7F0000)))

/-! ## Modes, power and fuses -/

/-- R511, R515 to R518, Table 15.4: a power-on, RESET_N low and a rail below its reset level bring, from the 8th mc
edge after their recognition, every register outside R518 to its reset value and set their cause; RST_CAUSE and RST_COUNT survive all but a power-on. Reset release, once
the holds of the sources that acted have passed, starts LOAD: BOOT reads header and directory and halts without a
flash or with a bad header, a rail out of order is reported, and an unfinished erasure of RETURN goes on. -/
def Obligations.ResetSourcesAndRelease : Prop :=
  ∀ (s : State) (a : Instant),
    let counted := if s.pwr.mode = .reset then s.pwr.rstCount else satAdd s.pwr.rstCount 1
    let edge := if s.pwr.mode = .reset then max s.now a
      else max (max s.now a) (s.mcAt (s.mc (s.clocks.mgmt.next (max s.now a)) + 8))
    (∃ t, exec (.powerOn a) s = .next t ∧ InReset s t ∧ t.now = edge ∧ t.pwr.rstPor = true ∧ t.pwr.rstPin = false ∧
      t.pwr.rstSupply = false ∧ t.pwr.rstTruss = false ∧ t.pwr.rstTherm = false ∧ t.pwr.rstCount = 0 ∧ t.thm.sdLog = 0) ∧
    (∃ t, exec (.resetNLow a) s = .next t ∧ InReset s t ∧ t.now = edge ∧ t.pwr.rstPin = true ∧
      t.pwr.rstPor = s.pwr.rstPor ∧ t.pwr.rstSupply = s.pwr.rstSupply ∧ t.pwr.rstTruss = s.pwr.rstTruss ∧
      t.pwr.rstTherm = s.pwr.rstTherm ∧ t.pwr.rstSrc = s.pwr.rstSrc ∧ t.pwr.rstRail = s.pwr.rstRail ∧
      t.pwr.rstCount = counted ∧ t.thm.sdLog = s.thm.sdLog) ∧
    (∀ rail, ∃ t, exec (.railBelowReset a rail) s = .next t ∧ InReset s t ∧ t.now = edge ∧ t.pwr.rstSupply = true ∧
      t.pwr.rstRail = BitVec.ofNat 3 rail.val ∧ t.pwr.rstPor = s.pwr.rstPor ∧ t.pwr.rstPin = s.pwr.rstPin ∧
      t.pwr.rstTruss = s.pwr.rstTruss ∧ t.pwr.rstTherm = s.pwr.rstTherm ∧ t.pwr.rstSrc = s.pwr.rstSrc ∧
      t.pwr.rstCount = counted ∧ t.thm.sdLog = s.thm.sdLog) ∧
    (∀ (flash : Option Flash) nvmv (order : BitVec 6),
      let z := s.at_ a
      let m := s.mc (s.clocks.mgmt.next z.now)
      let held := (∃ h, s.pwr.trussHold = some h ∧ m < h) ∨ s.pwr.thermHold = true ∨
        (s.pwr.thermWait = true ∧ 840 ≤ (s.sens 16).reading)
      ((held ∨ s.pwr.mode ≠ .reset) → exec (.resetRelease a flash nvmv order) s = .next s) ∧
      (¬held → s.pwr.mode = .reset → ∃ t, exec (.resetRelease a flash nvmv order) s = .next t ∧
        t.now = max z.now (s.mcAt m) ∧ t.pwr.mode = .load ∧ t.pwr.prev = .reset ∧ t.pwr.mclk0 = m ∧ t.pwr.nvmv = nvmv ∧
        t.nvm.flash = flash ∧ t.mem = s.mem ∧ t.chans = s.chans ∧ t.lcy.fuses = s.lcy.fuses ∧
        t.lcy.state = fuseState s.lcy.fuses ∧ (∀ i : RailIx, order.getLsbD i.val = true → Reported t (188 + i.val) 0x08) ∧
        (∀ f, flash = some f → f.sfdpOk = true → headerBad f.header = false → t.nvm.phase = 0 ∧ t.nvm.result = 0 ∧
          t.nvm.bootf = BitVec.ofNat 6 f.header.bootf ∧ t.nvm.imgVer = f.header.imgver) ∧
        (∀ f, flash = some f → f.sfdpOk = true → headerBad f.header = true → t.nvm.phase = 0xF ∧ t.nvm.result = 2 ∧
          t.nvm.why = 2 ∧ Reported t 220 0x42) ∧
        ((flash = none ∨ ∃ f, flash = some f ∧ f.sfdpOk = false) → t.nvm.phase = 0xF ∧ t.nvm.result = 2 ∧ t.nvm.why = 1 ∧
          Reported t 220 0x41) ∧
        ((s.lcy.fuse 4).getLsbD 3 = true → (s.lcy.fuse 16).getLsbD 1 = false → s.pwr.dipActive = false →
          ∃ q, t.lcy.seq = some q ∧ q.target = 4 ∧ q.start = m ∧ q.byAdvance = false ∧
            ∀ w ∈ q.words, w ∈ eraseWords ∧ s.lcy.fuse w.1 &&& w.2 ≠ w.2)))

/-- R522 to R533, Tables 15.6, 15.7: a dip is counted and reported per rail, overlapping dips are one, a trim window in
progress fails and STORE_CAL stops, and no channel, timebase, vault state or mode is touched; a dip beyond 12,500 mc
makes every trim stale; its end gives its duration. A domain is on 15,000 mc after its switch-on starts, with the pattern bits of a channel's lanes cleared (R278), off 1,024 mc
after its switch-off, and off again with PD_FAIL when its power-good check fails. -/
def Obligations.DipsAndDomains : Prop :=
  ∀ (s : State) (a : Instant), s.pwr.mode ≠ .reset →
    let now := max s.now a
    let m := s.mc (s.clocks.mgmt.next now)
    (∀ rail : RailIx, (s.pwr.rails[rail]).warn = false → ∃ t, exec (.dipStart a rail) s = .next t ∧ t.now = now ∧ DipOnly s t ∧
      (t.pwr.rails[rail]).warn = true ∧ (t.pwr.rails[rail]).dips = satAdd (s.pwr.rails[rail]).dips 1 ∧
      (∀ r : RailIx, r ≠ rail → t.pwr.rails[r] = s.pwr.rails[r]) ∧ t.pwr.dipActive = true ∧
      Reported t (188 + rail.val) 0x01 ∧
      (s.pwr.dipActive = false → t.pwr.dipStart = m ∧ t.pwr.dipRails = BitVec.ofNat 6 (2 ^ rail.val) ∧
        t.pwr.dipLong = false) ∧
      (s.pwr.dipActive = true → t.pwr.dipStart = s.pwr.dipStart ∧
        t.pwr.dipRails = s.pwr.dipRails ||| BitVec.ofNat 6 (2 ^ rail.val) ∧ t.pwr.dipLong = s.pwr.dipLong) ∧
      (∀ c, (s.chan c).trim.running = true → (s.chan c).trim.failReason = 0 → (t.chan c).trim.failReason = 9) ∧
      (∀ c, (s.chan c).trim.running = false → t.chan c = s.chan c) ∧
      (∀ q, s.nvm.store = some q → t.nvm.store = some { q with stopping := true })) ∧
    (s.pwr.dipActive = true → ∃ t, exec (.dipEnd a) s = .next t ∧ t = { s with now := now, pwr := t.pwr } ∧
      t.pwr.dipActive = false ∧ t.pwr.dipDuration = m - s.pwr.dipStart ∧ t.pwr.mode = s.pwr.mode ∧ t.pwr.doms = s.pwr.doms ∧
      ∀ r : RailIx, (t.pwr.rails[r]).warn = false ∧ (t.pwr.rails[r]).dips = (s.pwr.rails[r]).dips) ∧
    (s.pwr.dipActive = true → s.pwr.dipLong = false → ∃ t, exec .long s = .next t ∧ DipOnly s t ∧
      t.now = max s.now (s.mcAt (s.pwr.dipStart + 12501)) ∧ t.pwr.dipLong = true ∧ t.pwr.rails = s.pwr.rails ∧
      (∀ r : RailIx, s.pwr.dipRails.getLsbD r.val = true → Reported t (188 + r.val) 0x02) ∧
      (∀ c, s.chOn c = true → s.pwr.dipRails &&& 0b010111 ≠ 0 → (t.chan c).trim.supply = true ∧
        ((s.chan c).trim.stale = false → Reported t c.val 0x80)) ∧
      (∀ c, s.chOn c = false ∨ s.pwr.dipRails &&& 0b010111 = 0 → t.chan c = s.chan c)) ∧
    (∀ rail : RailIx, ∃ t, exec (.ov a rail) s = .next t ∧ t.now = now ∧ DipOnly s t ∧ t.chans = s.chans ∧
      (t.pwr.rails[rail]).overLvl = true ∧ (t.pwr.rails[rail]).dips = (s.pwr.rails[rail]).dips ∧
      Reported t (188 + rail.val) 0x04) ∧
    (∀ d n, s.dom d = .turningOn n →
      (exec (.powerGoodCheck d true) s = .next (s.at_ (s.mcAt (n + 10000)))) ∧
      (∃ t, exec (.powerGoodCheck d false) s = .next t ∧ t.now = max s.now (s.mcAt (n + 10000)) ∧
        t.dom d = .turningOff (n + 10000) ∧ t.pwr.pdFail = BitVec.ofNat 7 d.val ∧ Reported t 194 0x01 ∧ t.chans = s.chans ∧
        t.mem = s.mem ∧ ∀ e, s.dom e ≠ .waiting → e ≠ d → t.dom e = s.dom e)) ∧
    (∀ d n, s.dom d = .turningOn n → s.thm.shedFrom = none → ∃ t, exec (.domainOn d) s = .next t ∧
      t.now = max s.now (s.mcAt (n + 15000)) ∧ t.mem = s.mem ∧ t.pwr.mode = s.pwr.mode ∧
      (∀ c, d = chDom c → (s.chan c).shedPend = false → (s.chan c).pdoffPend = false →
        t.dom d = .on ∧ (t.chan c).eng.reloadDue = some (s.mcAt (s.mc t.now + 2048)) ∧ (t.chan c).armed = (s.chan c).armed ∧
        ∀ b i, pierOf b = pierOf c → i < 2 → (t.chan b).trg.pat.getLsbD (2 * posOf c + i) = false) ∧
      (∀ (k : Pier) f cfg, d = pierDom k → s.nvm.powerForme.bind s.formeOf = some f → f.sweeps[k.val]? = some cfg →
        t.dom d = .on ∧ (t.synth (swOf k)).cfg = cfg.cfg ∧ (t.synth (swOf k)).hop.isSome = true ∧ t.chans = s.chans) ∧
      ∀ e, s.dom e ≠ .waiting → e ≠ d → t.dom e = s.dom e) ∧
    (∀ d n, s.dom d = .turningOff n → ∃ t, exec (.domainOff d) s = .next t ∧
      t.now = max s.now (s.mcAt (n + 1024)) ∧ t.mem = s.mem ∧ t.pwr.mode = s.pwr.mode ∧
      (s.pwr.cycle = [] → t.dom d = .off) ∧
      (∀ (k : Pier), d = pierDom k → (t.synth (swOf k)).out = .highZ ∧ (t.synth (swOf k)).rampOn = false) ∧
      (∀ c, d = chDom c → d.val ∈ s.pwr.cycle → 96 + (pierOf c).val ∉ s.pwr.cycle → s.thm.shedFrom = none →
        (t.dom d = .waiting ∨ ∃ k, t.dom d = .turningOn k) ∧ d.val ∉ t.pwr.cycle))

/-- R634, R640, R642, Table 19.6: a fuse word is programmed in 20,000 mc; a verified one has the bits asked for set, is
counted and reported, and the next word follows, unless a dip is in progress; one that fails ends the sequence with
FUSE. Bits that were blown stay blown, other words are untouched. -/
def Obligations.FuseWords : Prop :=
  ∀ (s : State) (q : FuseSeq) (i : Nat) (bits : Word) (rest : List (Nat × Word)), s.pwr.mode ≠ .reset →
    s.lcy.seq = some q → q.words = (i, bits) :: rest → Sparse 0 s.lcy.fuses →
    let m := q.start + 20000
    let others := fun (t : State) => ∀ j, j ≠ i → t.lcy.fuse j = s.lcy.fuse j
    (∃ t, exec (.fuseWordDone true) s = .next t ∧ OnlyLife s t ∧ t.now = max s.now (s.mcAt m) ∧ others t ∧
      t.lcy.fuse i = s.lcy.fuse i ||| bits ∧
      (q.byAdvance = true → t.lcy.words = satAdd s.lcy.words 1 ∧ (i = 4 → Reported t 224 0x01) ∧
        (i = 16 → Reported t 224 (if bits = 1 then 0x02 else 0x10))) ∧
      (rest = [] → t.lcy.seq = none) ∧
      (rest ≠ [] → s.pwr.dipActive = false → t.lcy.seq = some { q with words := rest, start := m }) ∧
      (rest ≠ [] → s.pwr.dipActive = true → t.lcy.seq = none ∧
        (q.byAdvance = true → t.lcy.why = 9 ∧ Reported t 224 0x40))) ∧
    (∃ t, exec (.fuseWordDone false) s = .next t ∧ OnlyLife s t ∧ t.now = max s.now (s.mcAt m) ∧ others t ∧
      t.lcy.seq = none ∧ Reported t 224 0x20 ∧ (q.byAdvance = true → t.lcy.why = 8) ∧
      ∀ b, ((s.lcy.fuse i).getLsbD b = true → (t.lcy.fuse i).getLsbD b = true) ∧
        ((t.lcy.fuse i).getLsbD b = true → (s.lcy.fuse i).getLsbD b = true ∨ bits.getLsbD b = true))

/-! ## Truss -/

/-- R576 to R582, R584, R586 to R589, R591, Tables 17.3, 17.4: the earliest recognition edge sets LATCH; causes within
CMASK make the source pending with the level of REACT, open a history entry or merge into the pending one, and start
the timer. PIN stops ALIVE, TRAP and BLOCK put their actions 64 mc later, CHIP resets the device. At its expiry the
timer raises the level by one step. -/
def Obligations.TrussEventsAndEscalation : Prop :=
  ∀ s : State, s.pwr.mode ≠ .reset →
    (∀ r rest, s.truss.incoming = r :: rest → (∀ o ∈ rest, r.mc < o.mc ∨ r.mc = o.mc ∧ r.src.val < o.src.val) →
      r.real = true → r.causes ≠ 0 → (s.src r.src).pulseMc + 1 ≠ r.mc →
      let n := r.src
      let x := s.src n
      let react := (x.cfg.extractLsb' 29 3).toNat
      let esc := (x.cfg.extractLsb' 0 20).toNat
      let acts := r.causes &&& x.cfg.extractLsb' 20 8 ≠ 0
      let rises := acts ∧ x.level.toNat < react
      (¬(rises ∧ react = 5) → ∃ t, exec (.trussEvent none) s = .next t ∧ OnlyTruss s t ∧ OtherSources s t n ∧
        t.now = max s.now (s.mcAt r.mc) ∧ t.truss.incoming = rest ∧ (t.src n).latch = x.latch ||| r.causes ∧
        (t.src n).lreal = true ∧ (t.src n).cfg = x.cfg ∧
        (¬acts → (t.src n).pend = x.pend ∧ (t.src n).level = x.level ∧ t.truss.hist = s.truss.hist ∧
          (t.src n).timer = x.timer) ∧
        (acts → (t.src n).pend = (x.pend || react != 0) ∧ (t.src n).level.toNat = max x.level.toNat react ∧
          (t.src n).timer = (if react ≠ 0 ∧ x.timer = none ∧ esc ≠ 0 then some (r.mc + min esc 1000000 * 250) else x.timer)) ∧
        (acts → x.pend = false → ∃ h, t.truss.hist = (h :: s.truss.hist).take 16 ∧ h.source = BitVec.ofNat 8 n.val ∧
          h.cause = r.causes ∧ h.merge = 0 ∧ h.real = true ∧ h.inj = r.inj ∧ h.react = BitVec.ofNat 3 react ∧
          h.mclk = BitVec.ofNat 32 (r.mc - s.pwr.mclk0) ∧
          t.truss.histLost = (if s.truss.hist.length < 16 then s.truss.histLost else satAdd s.truss.histLost 1)) ∧
        (∀ id, acts → x.pend = true → x.entReal = some id → (∃ h ∈ s.truss.hist, h.id = id) →
          t.truss.hist.length = s.truss.hist.length ∧ t.truss.histLost = s.truss.histLost ∧
          ∀ (k : Nat) (h : Hist), s.truss.hist[k]? = some h → ∃ g, t.truss.hist[k]? = some g ∧ (h.id ≠ id → g = h) ∧
            (h.id = id → g.cause = h.cause ||| r.causes ∧ g.merge = satAdd h.merge 1 ∧ g.span = h.span)) ∧
        (rises → react = 4 → t.truss.aliveStopped = true ∧ (s.truss.aliveStopped = false →
          t.truss.aliveSrc = BitVec.ofNat 8 n.val ∧ t.truss.aliveStopAt = some (r.mc + 8))) ∧
        (rises → react = 2 → s.msp.fwup = true → (t.src n).trapDue = some (r.mc + 64) ∧ (t.src n).blockDue = x.blockDue) ∧
        (rises → react = 3 → s.msp.fwup = true → (t.src n).blockDue = some (r.mc + 64)) ∧
        (s.msp.fwup = false → (t.src n).trapDue = x.trapDue ∧ (t.src n).blockDue = x.blockDue)) ∧
      (rises → react = 5 → ∃ t, exec (.trussEvent none) s = .next t ∧ InReset s t ∧ t.pwr.rstTruss = true ∧
        t.pwr.rstSrc = BitVec.ofNat 8 n.val ∧ t.pwr.trussHold = some (r.mc + 25000) ∧
        t.pwr.rstCount = satAdd s.pwr.rstCount 1)) ∧
    (∀ n m, (s.src n).timer = some m →
      let x := s.src n
      let esc := (x.cfg.extractLsb' 0 20).toNat
      ((x.level = 1 ∨ x.level = 2) → ∃ t, exec (.escalation n) s = .next t ∧ OnlyTruss s t ∧ OtherSources s t n ∧
        t.now = max s.now (s.mcAt m) ∧ (t.src n).level = x.level + 1 ∧ (t.src n).pend = x.pend ∧
        (t.src n).timer = (if esc = 0 then none else some (m + min esc 1000000 * 250)) ∧
        (s.msp.fwup = true → (if x.level = 1 then (t.src n).trapDue else (t.src n).blockDue) = some (m + 64))) ∧
      ((x.level = 3 ∨ x.level = 4) → ∃ t, exec (.escalation n) s = .next t ∧ InReset s t ∧ t.pwr.rstTruss = true ∧
        t.pwr.rstSrc = BitVec.ofNat 8 n.val ∧ t.pwr.trussHold = some (m + 25000)))

/-- R28, R580, R582, R590, R591, R594, R597, Tables 17.2, 17.4, 17.12: the trap action disarms the owner's armed channels;
the block action switches a channel off to switch it on again, makes a sweep synthesizer search, starts a lock of DECK
or VAULT, resets the endpoint, and does nothing more for any other owner. ALIVE toggles until it is stopped. Stall
pulses begin and end with their length and period; a writer's stall is reported, and so is the firmware's watchdog. -/
def Obligations.TrapActionsAndTrussTimers : Prop :=
  ∀ (s : State) (a : Instant), s.pwr.mode ≠ .reset →
    (∀ (n : Source) m, (s.src n).trapDue = some m → (s.src n).blockDue = none →
      ∃ t, exec (.trapAction n) s = .next t ∧ t.now = max s.now (s.mcAt m) ∧ (t.src n).trapDue = none ∧ t.mem = s.mem ∧
        (∀ c : Chan, (n.val = c.val ∨ n.val = 96 + (pierOf c).val) → (t.chan c).armed = false ∧
          ((s.chan c).armed = true → (s.chan c).armNext = none → (s.chan c).folder.closing = none →
            (t.chan c).rcd.closeFlags = 0x800)) ∧
        (∀ c : Chan, n.val ≠ c.val → n.val ≠ 96 + (pierOf c).val → t.chan c = s.chan c) ∧
        (104 ≤ n.val → OnlyTruss s t)) ∧
    (∀ (n : Source) m, (s.src n).blockDue = some m → (s.src n).trapDue = none →
      ∃ t, exec (.trapAction n) s = .next t ∧ t.now = max s.now (s.mcAt m) ∧ (t.src n).blockDue = none ∧ t.mem = s.mem ∧
        (∀ c : Chan, n.val = c.val → s.chOn c = true → (t.chan c).armed = false ∧ c.val ∈ t.pwr.cycle ∧
          ((s.chan c).armed = false → (s.chan c).rcd.isOpen = false → ∃ k, t.dom (chDom c) = .turningOff k)) ∧
        (∀ (k : Fin 8) (c : Chan), n.val = 96 + k.val → pierOf c = k → s.pierOn k = true → s.chOn c = true →
          (t.chan c).armed = false ∧ 96 + k.val ∈ t.pwr.cycle) ∧
        (∀ k : Fin 8, n.val = 154 + k.val → s.pierOn k = true → ∃ h, h.full = true ∧
          HopBegun (s.synth (swOf k)) (t.synth (swOf k)) h t.now ∧ t.chans = s.chans) ∧
        (∀ k : Fin 10, 8 ≤ k.val → n.val = 154 + k.val → (t.synth k).st = .safe ∧ (t.synth k).lockStart = some t.now ∧
          Reported t n.val 0x40 ∧ t.chans = s.chans) ∧
        (204 ≤ n.val → n.val ≤ 209 → t.via.linkUp = false ∧ t.chans = s.chans ∧
          ∀ r, (t.ring r).en = false ∧ (t.ring r).queue = (s.ring r).queue) ∧
        ((104 ≤ n.val ∧ n.val ≤ 153 ∨ 164 ≤ n.val ∧ n.val ≤ 203 ∨ 210 ≤ n.val) → OnlyTruss s t)) ∧
    (∀ m, s.truss.aliveNext = some m → ∃ t, exec .aliveToggle s = .next t ∧ OnlyTruss s t ∧ t.now = max s.now (s.mcAt m) ∧
      t.truss.srcs = s.truss.srcs ∧ t.truss.hist = s.truss.hist ∧
      ((∃ e, s.truss.aliveStopAt = some e ∧ e ≤ m) → t.truss.alive = s.truss.alive ∧ t.truss.aliveNext = none) ∧
      ((∀ e, s.truss.aliveStopAt = some e → m < e) → t.truss.alive = (!s.truss.alive) ∧
        t.truss.aliveNext = some (m + s.truss.alivePeriod.toNat * 1250))) ∧
    (s.tst.on = true → s.tst.stallEn = true → s.tst.stallLen ≠ 0 →
      let k := s.tst.stallTarget.toNat
      let n := s.tst.stallNext
      let len := s.tst.stallLen.toNat
      let per := s.tst.stallPer.toNat
      ∃ t, exec .stallPulse s = .next t ∧
        t = { s with now := t.now, tst := t.tst, truss := { s.truss with incoming := t.truss.incoming } } ∧
        t.now = max s.now (if k < 8 then s.dcAt n else s.vcAt n) ∧
        (s.tst.stalling = false → t.tst = { s.tst with stalling := true, stallNext := n + len } ∧
          (k < 8 → Reported t 136 0x01)) ∧
        (s.tst.stalling = true → t.truss = s.truss ∧
          t.tst = (if per = 0 then { s.tst with stalling := false, stallEn := false }
            else if per ≤ len then { s.tst with stallNext := n + len }
            else { s.tst with stalling := false, stallNext := n + (per - len) }))) ∧
    (∃ t, exec (.firmwareWatchdogExpiry a) s = .next t ∧ OnlyTruss s t ∧ t.now = max s.now a ∧ Reported t 233 0x01 ∧
      t.truss.srcs = s.truss.srcs)

/-! ## Thermal management -/

/-- R607 to R611, R614, R616, R617, R623 to R626, Tables 15.4, 18.1, 18.7: a good conversion is the sensor's reading,
decides WARN and its broken mark, starts or ends the throttle request, and gives every pier its T_k; a failed one
keeps the reading. The second reading in a row at 125 °C, or one at 133 °C, shuts the device down, at once or, for a
page program in progress, at the cut. In RESET the central sensor alone is read. -/
def Obligations.SensorSamples : Prop :=
  ∀ (s : State) (a : Instant) (i : Fin 17) (r : Option Int),
    let ix : SensorIx := ⟨i.val, by omega⟩
    let x := s.sens ix
    let now := max s.now a
    let m := s.mc (s.clocks.mgmt.next now)
    (s.pwr.mode = .reset → ∃ t, exec (.sensorSample a i r) s = .next t ∧ t = { s with now := now, thm := t.thm } ∧
      (∀ j, j ≠ ix → t.sens j = s.sens j) ∧ (i.val ≠ 16 → t.sens ix = x) ∧
      (∀ v, i.val = 16 → r = some v → (t.sens ix).reading = v)) ∧
    (∀ v, s.pwr.mode ≠ .reset → s.tst.on = false → s.thm.shutdown = none → r = some v → -320 ≤ v → v < 1000 →
      ∃ t, exec (.sensorSample a i r) s = .next t ∧ t.now = now ∧ t.pwr.mode = s.pwr.mode ∧ t.mem = s.mem ∧
        t.thm.shutdown = none ∧ (∀ j, j ≠ ix → t.sens j = s.sens j) ∧ (t.sens ix).reading = v ∧ (t.sens ix).fails = 0 ∧
        (t.sens ix).invalid = false ∧ (x.broken = false → (t.sens ix).hot = 0) ∧ (t.sens ix).samples = (v :: x.samples).take 100 ∧
        (x.broken = false → 840 ≤ v → x.warn = false → Reported t (164 + i.val) 0x01) ∧
        ((t.sens ix).broken = false → (840 ≤ v → (t.sens ix).warn = true) ∧ (v ≤ 824 → (t.sens ix).warn = false) ∧
          (824 < v → v < 840 → (t.sens ix).warn = x.warn)) ∧
        (∀ l u : SensorIx, i.val < 16 → l.val = (i.val + 15) % 16 → u.val = (i.val + 1) % 16 → x.broken = false →
          (s.sens l).broken = false → (s.sens u).broken = false →
          let far := 48 < (v - (s.sens l).reading).natAbs ∧ 48 < (v - (s.sens u).reading).natAbs
          (¬far → (t.sens ix).differs = 0 ∧ (t.sens ix).broken = false) ∧
          (far → x.differs < 7 → (t.sens ix).differs = x.differs + 1 ∧ (t.sens ix).broken = false) ∧
          (far → 7 ≤ x.differs → (t.sens ix).broken = true ∧ Reported t (164 + i.val) 0x04)) ∧
        (s.thm.req = none → x.broken = false → 880 ≤ v → t.thm.req = some m ∧
          t.thm.deadline = m + (s.thm.cfg.extractLsb' 0 16).toNat * 250000 ∧
          t.thm.reqExt = (s.thm.cfg.extractLsb' 16 16).toNat ∧ t.thm.acked = false ∧
          Reported t 182 0x01) ∧
        (∀ q, s.thm.req = some q → x.broken = false → v ≤ 848 →
          (∀ j, j ≠ ix → j.val ≤ 16 → s.valid j = true → (s.sens j).reading ≤ 848) →
          (s.valid 17 = true → (s.sens 17).reading ≤ 768) → t.thm.req = none ∧ t.thm.deadline = 0) ∧
        (∀ q, s.thm.req = some q → x.broken = false → 848 < v → t.thm.req = some q ∧ t.thm.deadline = s.thm.deadline) ∧
        (∀ k : Pier, 2 * k.val = i.val ∨ 2 * k.val + 1 = i.val → x.broken = false →
          t.thm.piers[k].fallback = false ∧ ((∀ j : SensorIx, j.val = (2 * k.val + 15) % 16 ∨ j.val = 2 * k.val ∨
            j.val = 2 * k.val + 1 ∨ j.val = (2 * k.val + 2) % 16 → j ≠ ix → s.valid j = false) → t.thm.piers[k].t = 2 * v))) ∧
    (s.pwr.mode ≠ .reset → s.tst.on = false → s.thm.shutdown = none → x.reading < 1000 →
      (∀ v, r = some v → v < -320 ∨ 1200 < v) → ∃ t, exec (.sensorSample a i r) s = .next t ∧ t.now = now ∧
        t.mem = s.mem ∧ t.pwr.mode = s.pwr.mode ∧ (t.sens ix).reading = x.reading ∧ (t.sens ix).fails = x.fails + 1 ∧
        (t.sens ix).invalid = (x.invalid || decide (2 ≤ x.fails)) ∧ (x.broken = false → Reported t (164 + i.val) 0x08) ∧
        ∀ j, j ≠ ix → t.sens j = s.sens j) ∧
    (∀ v, s.pwr.mode ≠ .reset → s.tst.on = false → s.thm.shutdown = none → x.broken = false → r = some v → 1000 ≤ v →
      v ≤ 1200 → ∃ t, exec (.sensorSample a i r) s = .next t ∧
        (v < 1064 → x.hot = 0 → t.now = now ∧ t.pwr.mode = s.pwr.mode ∧ (t.sens ix).hot = 1 ∧ t.mem = s.mem) ∧
        ((1064 ≤ v ∨ 1 ≤ x.hot ∧ s.nvm.programming = false) → InReset s t ∧
          t.now = max now (s.mcAt (s.mc (s.clocks.mgmt.next now) + 8)) ∧ t.pwr.rstTherm = true ∧ t.pwr.thermHold = true ∧
          t.pwr.thermWait = true ∧ t.thm.sdLog = sdLogWord ix v (decide (1064 ≤ v)) false) ∧
        (v < 1064 → 1 ≤ x.hot → s.nvm.programming = true → t.now = now ∧ t.pwr.mode = s.pwr.mode ∧
          t.thm.shutdown = some (m, ix, v) ∧ t.mem = [] ∧ (∀ d, t.dom d = .off) ∧ t.lcy.fuses = s.lcy.fuses ∧ Reported t 183 0x01 ∧ Reported t 183 0x02)) ∧
    (∀ e j v, s.thm.shutdown = some (e, j, v) → ∃ t, exec (.cut a) s = .next t ∧ InReset s t ∧
      (let u := max s.now (min a (s.mcAt (e + 1000000)))
       t.now = if s.pwr.mode = .reset then u else max u (s.mcAt (s.mc (s.clocks.mgmt.next u) + 8))) ∧
      t.pwr.rstTherm = true ∧ t.pwr.thermHold = true ∧ t.thm.sdLog = sdLogWord j v false true)

/-- R612, R613, R615, R620, R621, Tables 15.2, 18.2: an evaluation moves a pier's band by one at 45, 65 and 85 °C, with 2
°C of hysteresis, and reports it; a rise of 0.5 °C in 100 ms is reported once. When the grace time expires in RUN the
device enters SHED: the idle channels of the shed list go off, the armed ones at their boundary or, 100 ms later, at
once. -/
def Obligations.BandsRatesAndShedding : Prop :=
  ∀ (s : State) (a : Instant), s.pwr.mode ≠ .reset →
    let now := max s.now a
    (∃ t, exec (.bandEvaluation a) s = .next t ∧ t.now = now ∧ t.mem = s.mem ∧ t.thm.evaluated = true ∧
      t.pwr.mode = s.pwr.mode ∧ t.thm.sens = s.thm.sens ∧ t.thm.req = s.thm.req ∧
      ∀ k : Pier, let b := s.thm.piers[k].band.toNat
        let n : Int := s.thm.piers[k].last.length
        let sum := s.thm.piers[k].last.sum
        (t.thm.piers[k].t = s.thm.piers[k].t) ∧ (t.thm.piers[k].last = s.thm.piers[k].last) ∧
        (t.thm.piers[k].band ≠ s.thm.piers[k].band → Reported t 184 (BitVec.ofNat 8 (2 ^ k.val))) ∧
        ((∀ j : SensorIx, j.val ≤ 16 → s.valid j = false) → t.thm.piers[k].band = 3) ∧
        ((∃ j : SensorIx, j.val ≤ 16 ∧ s.valid j = true) → s.thm.piers[k].last ≠ [] →
          (s.thm.evaluated = true → b < 3 → (720 + 320 * b) * n ≤ sum → t.thm.piers[k].band.toNat = b + 1) ∧
          (s.thm.evaluated = true → 0 < b → sum < (720 + 320 * (b - 1) - 32) * n → t.thm.piers[k].band.toNat = b - 1) ∧
          (s.thm.evaluated = true → (b < 3 → sum < (720 + 320 * b) * n) → (0 < b → (720 + 320 * (b - 1) - 32) * n ≤ sum) →
            t.thm.piers[k].band = s.thm.piers[k].band) ∧
          (s.thm.evaluated = false → t.thm.piers[k].band.toNat =
            if 1360 * n ≤ sum then 3 else if 1040 * n ≤ sum then 2 else if 720 * n ≤ sum then 1 else 0))) ∧
    (∀ (i : Fin 17) (old : Int), let ix : SensorIx := ⟨i.val, by omega⟩
      let x := s.sens ix
      let avg := x.samples.sum
      s.valid ix = true → x.samples.length = 100 → x.means[99]? = some old →
      ∃ t, exec (.rateEvaluation a i) s = .next t ∧ t.now = now ∧ (∀ j, j ≠ ix → t.sens j = s.sens j) ∧
        t.mem = s.mem ∧ t.chans = s.chans ∧ t.thm.req = s.thm.req ∧
        t.sens ix = { x with means := (avg :: x.means).take 101, rateArmed := (t.sens ix).rateArmed } ∧
        (400 ≤ avg - old → x.rateArmed = true → (t.sens ix).rateArmed = false ∧ Reported t (164 + i.val) 0x02) ∧
        (400 ≤ avg - old → x.rateArmed = false → (t.sens ix).rateArmed = false ∧ t.truss = s.truss) ∧
        (avg - old < 200 → (t.sens ix).rateArmed = true ∧ t.truss = s.truss)) ∧
    (∀ q, s.thm.req = some q → s.thm.expired = false → s.pwr.mode ≠ .shed →
      ∃ t, exec .graceExpiry s = .next t ∧ t.now = max s.now (s.mcAt s.thm.deadline) ∧ t.mem = s.mem ∧
        t.thm.expired = true ∧ t.thm.req = some q ∧ t.thm.shed = s.thm.shed ∧
      (s.pwr.mode = .run → t.pwr.mode = .shed ∧ t.pwr.prev = .run ∧ Reported t 182 0x04 ∧
        t.thm.shedFrom = some (s.mc (s.clocks.mgmt.next t.now)) ∧
        (∀ c : Chan, s.thm.shed.getLsbD c.val = true → s.chOn c = true → (s.chan c).armed = false →
          (s.chan c).rcd.isOpen = false → ∃ n, t.dom (chDom c) = .turningOff n) ∧
        (∀ c : Chan, s.thm.shed.getLsbD c.val = true → s.chOn c = true → (s.chan c).armed = true →
          (s.chan c).trim.pending = false → (t.chan c).shedPend = true ∧ (t.chan c).armed = true) ∧
        (∀ c : Chan, s.thm.shed.getLsbD c.val = false → t.chan c = s.chan c ∧ t.dom (chDom c) = s.dom (chDom c))) ∧
      (s.pwr.mode = .freeze → t.pwr.mode = .freeze ∧ t.thm.shedFrom.isSome = true) ∧
      ((s.pwr.mode = .load ∨ s.pwr.mode = .trim) → t.pwr.mode = s.pwr.mode ∧ t.chans = s.chans ∧
        t.pwr.doms = s.pwr.doms ∧ t.truss = s.truss)) ∧
    (∀ c m, s.thm.shedFrom = some m → (s.chan c).shedPend = true → (s.chan c).armed = true →
      ∃ t, exec (.shedTo c) s = .next t ∧ t.now = max s.now (s.mcAt (m + 25000000)) ∧ t.mem = s.mem ∧
        (t.chan c).armed = false ∧ Reported t 182 0x08 ∧ (∀ d, d ≠ c → t.chan d = s.chan d) ∧
        ((s.chan c).armNext = none → (s.chan c).folder.closing = none → (s.chan c).rcd.isOpen = true →
          (t.chan c).rcd.closeFlags = 0x2000))

/-! ## The whole machine -/

/-- R102, R104, R105, R110, R447, R452, R455, R458 to R463, R607, R608, R625, R626, Tables 13.4, 15.4, 18.7: rows whose instant the
spec fixes complete. In LOCKED the epoch mark takes effect at the first whole multiple of P that lies 32 ns or more after the
visibility edge of its word. While a trim runs, the end of the acquisition gives it its figures, its trial table and its
verdict, the deskew phase its check, and the end of the window its result. A conversion within range is the sensor's reading,
one out of range counts as failed, and in RESET that of the central sensor is taken all the same. The cut puts the device in RESET and
records the shutdown. -/
def Obligations.RowsComplete : Prop :=
  (∀ (s : State) (a v : Instant) (k : Int), s.pwr.mode ≠ .reset → s.tb.st = .locked → s.tb.jump = none → s.sync.mark = some v →
    let now := max s.now a
    let p : Int := s.tb.refP * 25
    (now : Int) + s.tb.scale * 25 = k * p → v + 32 * 64000 ≤ now → (now : Int) < v + 32 * 64000 + p →
    ∃ t, exec (.epochMark a) s = .next t ∧ t.now = now ∧ t.stamp now = 0 ∧ t.tb.st = .locked ∧ t.tb.marked = true ∧
      t.tb.marks = satAdd s.tb.marks 1 ∧ t.sync.mark = none ∧ t.mem = s.mem) ∧
  (∀ (s : State) (c : Chan), s.pwr.mode ≠ .reset → (s.chan c).trim.running = true →
    let m := (s.chan c).trim
    (∀ cells agH agL, cells.length = 4 → m.pendCells = true → m.cellsOk = false →
      ∃ t, exec (.acquisitionEnd c cells agH agL) s = .next t ∧ t.now = max s.now (m.w0 + 1562500 * 51200) ∧ OnlyChan s t c ∧
        (t.chan c).trim.running = true ∧ (t.chan c).trim.figs.length = 10 ∧ (t.chan c).trim.trial.cv = true ∧
        (t.chan c).trim.trial.masks.length = 4 ∧ (m.failReason = 0 → ((t.chan c).trim.failReason = 0 ↔ (t.chan c).trim.cellsOk = true))) ∧
    (∀ cells agH agL, m.pendCells = false ∨ m.cellsOk = true →
      exec (.acquisitionEnd c cells agH agL) s = .next { s with now := max s.now (m.w0 + 1562500 * 51200) }) ∧
    (∃ t, exec (.deskewPhase c) s = .next t ∧ t.now = max s.now (m.w0 + 1875000 * 51200) ∧ OnlyChan s t c ∧
      (t.chan c).trim = { m with failReason := (t.chan c).trim.failReason } ∧
      (m.pendDeskew = false ∨ m.failReason ≠ 0 ∨ s.tb.st = .locked ∧ (m.pendCells = true ∨ (m.table m.b0.toNat).cv = true) →
        (t.chan c).trim.failReason = m.failReason)) ∧
    (∀ edgesH edgesL, m.pending = false → ∃ t, exec (.trimWindowEnd c edgesH edgesL) s = .next t ∧
      (t.chan c).trim.running = false ∧ ((t.chan c).trim.result = 1 ↔ (t.chan c).trim.reason = 0) ∧
      ((t.chan c).trim.result = 1 ∨ (t.chan c).trim.result = 2) ∧
      (m.failReason ≠ 0 → (t.chan c).trim.reason = m.failReason) ∧
      (m.failReason = 0 → m.pendDeskew = false → (t.chan c).trim.reason = if m.pendCells = true ∧ m.cellsOk = false then 1 else 0))) ∧
  (∀ (s : State) (a : Instant) (i : Fin 17),
    let ix : SensorIx := ⟨i.val, by omega⟩
    (∀ v, s.pwr.mode = .reset → i.val = 16 → ∃ t, exec (.sensorSample a i (some v)) s = .next t ∧ t.now = max s.now a ∧
      (t.sens ix).reading = v ∧ t.pwr = s.pwr) ∧
    (∀ v, s.pwr.mode ≠ .reset → s.tst.on = false → s.thm.shutdown = none → -320 ≤ v → v < 1000 →
      ∃ t, exec (.sensorSample a i (some v)) s = .next t ∧ t.now = max s.now a ∧ t.pwr.mode = s.pwr.mode ∧
        (t.sens ix).reading = v ∧ (t.sens ix).invalid = false ∧ (t.sens ix).fails = 0) ∧
    (s.pwr.mode ≠ .reset → s.tst.on = false → s.thm.shutdown = none → (s.sens ix).reading < 1000 →
      ∃ t, exec (.sensorSample a i none) s = .next t ∧ t.now = max s.now a ∧ t.pwr.mode = s.pwr.mode ∧
        (t.sens ix).reading = (s.sens ix).reading ∧ (t.sens ix).fails = (s.sens ix).fails + 1 ∧
        (t.sens ix).invalid = ((s.sens ix).invalid || decide (2 ≤ (s.sens ix).fails))) ∧
    (∀ e j v, s.thm.shutdown = some (e, j, v) → ∃ t, exec (.cut a) s = .next t ∧ t.pwr.mode = .reset ∧ t.pwr.rstTherm = true ∧
      t.pwr.thermHold = true ∧ t.thm.shutdown = none ∧ t.thm.sdLog = sdLogWord j v false true ∧ t.mem = [] ∧
      ∀ d, t.dom d = .off))

/-- A step takes the command at the front of the queue and runs it with the queue's rest; on an empty queue the block
idles, which is the model's choice (notes/assumptions/3.md). -/
def Obligations.StepRunsFrontCommand : Prop :=
  ∀ s : State, (∀ c rest, s.pending = c :: rest → step s = exec c { s with pending := rest }) ∧
    (s.pending = [] → step s = .next s)

/-- R217, R218, Tables 6.1 to 6.5: every instruction of the engine whose fields are defined is read back from its word,
with every operand at every value the encoding has room for; a word that decodes is the word of what it decodes to. -/
def Obligations.EngineEncoding : Prop :=
  (∀ i w, encodeEng i = some w → engFieldsOk i = true → ∃ c, decodeEng c w = some i) ∧
    ∀ c w i, decodeEng c w = some i → encodeEng i = some w ∧ engFieldsOk i = true

/-- The galley, its check bits and the fuses keep their canonical form in every step, from every state. -/
def Obligations.StoreInvariant : Prop :=
  ∀ s t : State, StoreOk s → step s = .next t → StoreOk t

/-- R634, Table 15.1: every command answers a next state, from every state; none changes the queue of the commands that
wait, and none clears a fuse bit that has been blown. -/
def Obligations.CommandsCompleteAndKeepFuses : Prop :=
  ∀ (c : Instr) (s : State), ∃ t, exec c s = .next t ∧ t.pending = s.pending ∧ FusesKept s t

/-- Tables 15.1, 15.11, 18.4, 14.13, 5.9, 10.1: the state after a power-on and the reset release that follows it: mode
LOAD after RESET, phase BOOT, POR recorded, every domain off, no channel armed, the timebase OFF, DECK and VAULT on
the safe clock, an empty galley and no folio; the memories and the fuses are in canonical form. That State.reset is
this state, with blank fuses, is the model's choice (notes/assumptions/4.md, 5.md and 7.md). -/
def Obligations.ResetState : Prop :=
  StoreOk State.reset ∧ State.reset.pwr.modeWord = 0x10000000 ∧ State.reset.pwr.rstCause = 0x00000001 ∧
    State.reset.nvm.phase = 0 ∧ State.reset.nvm.whys = List.replicate 64 0xFF7F0000 ∧ State.reset.thm.cfg = 0x07D001F4 ∧
    State.reset.pwr.pdFail = 0x7F ∧ (∀ d, State.reset.dom d = .off) ∧
    (∀ c, (State.reset.chan c).armed = false ∧ (State.reset.chan c).engCtl = 0x1000 ∧ (State.reset.chan c).rcd.isOpen = false) ∧
    State.reset.tb.st = .off ∧ (∀ k : Synth, (State.reset.synth k).st = if k.val < 8 then .off else .safe) ∧
    (∀ v, State.reset.domClk v = State.reset.clocks.mgmt) ∧
    State.reset.mem = [] ∧ State.reset.folios = [] ∧ State.reset.pending = [] ∧ State.reset.truss.hist = [] ∧
    State.reset.truss.alivePeriod = 10 ∧ State.reset.msp.fwup = false
end

