-- ==== Sys2Proof/Laws/Crc.lean ====
section
/-! SUPPORT. The CRC-32 of R468: one bit, one octet and a string take different states to different states. -/

namespace Sys2Proof.Machine

theorem crc32Bit_injective {c d : Word} (h : crc32Bit c = crc32Bit d) : c = d := by
  have key : ∀ x : Word, (crc32Bit x).getLsbD 31 = x.getLsbD 0 := by
    intro x
    unfold crc32Bit
    split
    · rename_i hx
      simp [hx]
    · rename_i hx
      simp at *
      simp [hx]
  have h0 : c.getLsbD 0 = d.getLsbD 0 := by rw [← key c, ← key d, h]
  have hs : c >>> 1 = d >>> 1 := by
    unfold crc32Bit at h
    rw [h0] at h
    split at h
    · simpa using h
    · exact h
  apply BitVec.eq_of_getLsbD_eq
  intro i hi
  cases i with
  | zero => exact h0
  | succ n =>
    have := congrArg (fun w : Word => w.getLsbD n) hs
    simpa [BitVec.getLsbD_ushiftRight, Nat.add_comm] using this

theorem crc32Bits_injective (l : List Nat) {x y : Word}
    (h : l.foldl (fun a _ => crc32Bit a) x = l.foldl (fun a _ => crc32Bit a) y) : x = y := by
  induction l generalizing x y with
  | nil => simpa using h
  | cons a t ih => exact crc32Bit_injective (ih (by simpa using h))

theorem crc32Octet_injective {c d : Word} {b : Byte} (h : crc32Octet c b = crc32Octet d b) : c = d := by
  simpa using crc32Bits_injective _ h

theorem crc32Octet_ne {c : Word} {a b : Byte} (h : a ≠ b) : crc32Octet c a ≠ crc32Octet c b := fun e => h (by
  have e1 : a.setWidth 32 = b.setWidth 32 := by simpa using crc32Bits_injective _ e
  simpa using congrArg (BitVec.setWidth 8) e1)

theorem crc32_fold_injective (l : List Byte) {c d : Word} (h : l.foldl crc32Octet c = l.foldl crc32Octet d) : c = d := by
  induction l generalizing c d with
  | nil => simpa using h
  | cons b t ih => exact crc32Octet_injective (ih (by simpa using h))

end Sys2Proof.Machine
end

