-- ==== Sys2Proof/Laws/State.lean ====
section
/-! SUPPORT. The fields of the state under each of its updates, and the reads of the parts that an update writes. -/

namespace Sys2Proof.Machine

/-! ## at_ -/

@[simp] theorem State.at_clocks (s : State) (t : Instant) : (s.at_ t).clocks = s.clocks := rfl
@[simp] theorem State.at_free (s : State) (t : Instant) : (s.at_ t).free = s.free := rfl
@[simp] theorem State.at_chans (s : State) (t : Instant) : (s.at_ t).chans = s.chans := rfl
@[simp] theorem State.at_place (s : State) (t : Instant) : (s.at_ t).place = s.place := rfl
@[simp] theorem State.at_sync (s : State) (t : Instant) : (s.at_ t).sync = s.sync := rfl
@[simp] theorem State.at_tb (s : State) (t : Instant) : (s.at_ t).tb = s.tb := rfl
@[simp] theorem State.at_synths (s : State) (t : Instant) : (s.at_ t).synths = s.synths := rfl
@[simp] theorem State.at_folios (s : State) (t : Instant) : (s.at_ t).folios = s.folios := rfl
@[simp] theorem State.at_folioSel (s : State) (t : Instant) : (s.at_ t).folioSel = s.folioSel := rfl
@[simp] theorem State.at_closed (s : State) (t : Instant) : (s.at_ t).closed = s.closed := rfl
@[simp] theorem State.at_mem (s : State) (t : Instant) : (s.at_ t).mem = s.mem := rfl
@[simp] theorem State.at_chk (s : State) (t : Instant) : (s.at_ t).chk = s.chk := rfl
@[simp] theorem State.at_writers (s : State) (t : Instant) : (s.at_ t).writers = s.writers := rfl
@[simp] theorem State.at_vlt (s : State) (t : Instant) : (s.at_ t).vlt = s.vlt := rfl
@[simp] theorem State.at_via (s : State) (t : Instant) : (s.at_ t).via = s.via := rfl
@[simp] theorem State.at_truss (s : State) (t : Instant) : (s.at_ t).truss = s.truss := rfl
@[simp] theorem State.at_tst (s : State) (t : Instant) : (s.at_ t).tst = s.tst := rfl
@[simp] theorem State.at_thm (s : State) (t : Instant) : (s.at_ t).thm = s.thm := rfl
@[simp] theorem State.at_pwr (s : State) (t : Instant) : (s.at_ t).pwr = s.pwr := rfl
@[simp] theorem State.at_nvm (s : State) (t : Instant) : (s.at_ t).nvm = s.nvm := rfl
@[simp] theorem State.at_msp (s : State) (t : Instant) : (s.at_ t).msp = s.msp := rfl
@[simp] theorem State.at_lcy (s : State) (t : Instant) : (s.at_ t).lcy = s.lcy := rfl
@[simp] theorem State.at_tap (s : State) (t : Instant) : (s.at_ t).tap = s.tap := rfl
@[simp] theorem State.at_pending (s : State) (t : Instant) : (s.at_ t).pending = s.pending := rfl

/-! ## setChan -/

@[simp] theorem State.setChan_now (s : State) (c : Chan) (x : Channel) : (s.setChan c x).now = s.now := rfl
@[simp] theorem State.setChan_clocks (s : State) (c : Chan) (x : Channel) : (s.setChan c x).clocks = s.clocks := rfl
@[simp] theorem State.setChan_free (s : State) (c : Chan) (x : Channel) : (s.setChan c x).free = s.free := rfl
@[simp] theorem State.setChan_place (s : State) (c : Chan) (x : Channel) : (s.setChan c x).place = s.place := rfl
@[simp] theorem State.setChan_sync (s : State) (c : Chan) (x : Channel) : (s.setChan c x).sync = s.sync := rfl
@[simp] theorem State.setChan_tb (s : State) (c : Chan) (x : Channel) : (s.setChan c x).tb = s.tb := rfl
@[simp] theorem State.setChan_synths (s : State) (c : Chan) (x : Channel) : (s.setChan c x).synths = s.synths := rfl
@[simp] theorem State.setChan_folios (s : State) (c : Chan) (x : Channel) : (s.setChan c x).folios = s.folios := rfl
@[simp] theorem State.setChan_folioSel (s : State) (c : Chan) (x : Channel) : (s.setChan c x).folioSel = s.folioSel := rfl
@[simp] theorem State.setChan_closed (s : State) (c : Chan) (x : Channel) : (s.setChan c x).closed = s.closed := rfl
@[simp] theorem State.setChan_mem (s : State) (c : Chan) (x : Channel) : (s.setChan c x).mem = s.mem := rfl
@[simp] theorem State.setChan_chk (s : State) (c : Chan) (x : Channel) : (s.setChan c x).chk = s.chk := rfl
@[simp] theorem State.setChan_writers (s : State) (c : Chan) (x : Channel) : (s.setChan c x).writers = s.writers := rfl
@[simp] theorem State.setChan_vlt (s : State) (c : Chan) (x : Channel) : (s.setChan c x).vlt = s.vlt := rfl
@[simp] theorem State.setChan_via (s : State) (c : Chan) (x : Channel) : (s.setChan c x).via = s.via := rfl
@[simp] theorem State.setChan_truss (s : State) (c : Chan) (x : Channel) : (s.setChan c x).truss = s.truss := rfl
@[simp] theorem State.setChan_tst (s : State) (c : Chan) (x : Channel) : (s.setChan c x).tst = s.tst := rfl
@[simp] theorem State.setChan_thm (s : State) (c : Chan) (x : Channel) : (s.setChan c x).thm = s.thm := rfl
@[simp] theorem State.setChan_pwr (s : State) (c : Chan) (x : Channel) : (s.setChan c x).pwr = s.pwr := rfl
@[simp] theorem State.setChan_nvm (s : State) (c : Chan) (x : Channel) : (s.setChan c x).nvm = s.nvm := rfl
@[simp] theorem State.setChan_msp (s : State) (c : Chan) (x : Channel) : (s.setChan c x).msp = s.msp := rfl
@[simp] theorem State.setChan_lcy (s : State) (c : Chan) (x : Channel) : (s.setChan c x).lcy = s.lcy := rfl
@[simp] theorem State.setChan_tap (s : State) (c : Chan) (x : Channel) : (s.setChan c x).tap = s.tap := rfl
@[simp] theorem State.setChan_pending (s : State) (c : Chan) (x : Channel) : (s.setChan c x).pending = s.pending := rfl

/-! ## setSynth -/

@[simp] theorem State.setSynth_now (s : State) (k : Synth) (x : SynthSt) : (s.setSynth k x).now = s.now := rfl
@[simp] theorem State.setSynth_clocks (s : State) (k : Synth) (x : SynthSt) : (s.setSynth k x).clocks = s.clocks := rfl
@[simp] theorem State.setSynth_free (s : State) (k : Synth) (x : SynthSt) : (s.setSynth k x).free = s.free := rfl
@[simp] theorem State.setSynth_chans (s : State) (k : Synth) (x : SynthSt) : (s.setSynth k x).chans = s.chans := rfl
@[simp] theorem State.setSynth_place (s : State) (k : Synth) (x : SynthSt) : (s.setSynth k x).place = s.place := rfl
@[simp] theorem State.setSynth_sync (s : State) (k : Synth) (x : SynthSt) : (s.setSynth k x).sync = s.sync := rfl
@[simp] theorem State.setSynth_tb (s : State) (k : Synth) (x : SynthSt) : (s.setSynth k x).tb = s.tb := rfl
@[simp] theorem State.setSynth_folios (s : State) (k : Synth) (x : SynthSt) : (s.setSynth k x).folios = s.folios := rfl
@[simp] theorem State.setSynth_folioSel (s : State) (k : Synth) (x : SynthSt) : (s.setSynth k x).folioSel = s.folioSel := rfl
@[simp] theorem State.setSynth_closed (s : State) (k : Synth) (x : SynthSt) : (s.setSynth k x).closed = s.closed := rfl
@[simp] theorem State.setSynth_mem (s : State) (k : Synth) (x : SynthSt) : (s.setSynth k x).mem = s.mem := rfl
@[simp] theorem State.setSynth_chk (s : State) (k : Synth) (x : SynthSt) : (s.setSynth k x).chk = s.chk := rfl
@[simp] theorem State.setSynth_writers (s : State) (k : Synth) (x : SynthSt) : (s.setSynth k x).writers = s.writers := rfl
@[simp] theorem State.setSynth_vlt (s : State) (k : Synth) (x : SynthSt) : (s.setSynth k x).vlt = s.vlt := rfl
@[simp] theorem State.setSynth_via (s : State) (k : Synth) (x : SynthSt) : (s.setSynth k x).via = s.via := rfl
@[simp] theorem State.setSynth_truss (s : State) (k : Synth) (x : SynthSt) : (s.setSynth k x).truss = s.truss := rfl
@[simp] theorem State.setSynth_tst (s : State) (k : Synth) (x : SynthSt) : (s.setSynth k x).tst = s.tst := rfl
@[simp] theorem State.setSynth_thm (s : State) (k : Synth) (x : SynthSt) : (s.setSynth k x).thm = s.thm := rfl
@[simp] theorem State.setSynth_pwr (s : State) (k : Synth) (x : SynthSt) : (s.setSynth k x).pwr = s.pwr := rfl
@[simp] theorem State.setSynth_nvm (s : State) (k : Synth) (x : SynthSt) : (s.setSynth k x).nvm = s.nvm := rfl
@[simp] theorem State.setSynth_msp (s : State) (k : Synth) (x : SynthSt) : (s.setSynth k x).msp = s.msp := rfl
@[simp] theorem State.setSynth_lcy (s : State) (k : Synth) (x : SynthSt) : (s.setSynth k x).lcy = s.lcy := rfl
@[simp] theorem State.setSynth_tap (s : State) (k : Synth) (x : SynthSt) : (s.setSynth k x).tap = s.tap := rfl
@[simp] theorem State.setSynth_pending (s : State) (k : Synth) (x : SynthSt) : (s.setSynth k x).pending = s.pending := rfl

/-! ## setRing -/

@[simp] theorem State.setRing_now (s : State) (r : Ring) (x : RingSt) : (s.setRing r x).now = s.now := rfl
@[simp] theorem State.setRing_clocks (s : State) (r : Ring) (x : RingSt) : (s.setRing r x).clocks = s.clocks := rfl
@[simp] theorem State.setRing_free (s : State) (r : Ring) (x : RingSt) : (s.setRing r x).free = s.free := rfl
@[simp] theorem State.setRing_chans (s : State) (r : Ring) (x : RingSt) : (s.setRing r x).chans = s.chans := rfl
@[simp] theorem State.setRing_place (s : State) (r : Ring) (x : RingSt) : (s.setRing r x).place = s.place := rfl
@[simp] theorem State.setRing_sync (s : State) (r : Ring) (x : RingSt) : (s.setRing r x).sync = s.sync := rfl
@[simp] theorem State.setRing_tb (s : State) (r : Ring) (x : RingSt) : (s.setRing r x).tb = s.tb := rfl
@[simp] theorem State.setRing_synths (s : State) (r : Ring) (x : RingSt) : (s.setRing r x).synths = s.synths := rfl
@[simp] theorem State.setRing_folios (s : State) (r : Ring) (x : RingSt) : (s.setRing r x).folios = s.folios := rfl
@[simp] theorem State.setRing_folioSel (s : State) (r : Ring) (x : RingSt) : (s.setRing r x).folioSel = s.folioSel := rfl
@[simp] theorem State.setRing_closed (s : State) (r : Ring) (x : RingSt) : (s.setRing r x).closed = s.closed := rfl
@[simp] theorem State.setRing_mem (s : State) (r : Ring) (x : RingSt) : (s.setRing r x).mem = s.mem := rfl
@[simp] theorem State.setRing_chk (s : State) (r : Ring) (x : RingSt) : (s.setRing r x).chk = s.chk := rfl
@[simp] theorem State.setRing_writers (s : State) (r : Ring) (x : RingSt) : (s.setRing r x).writers = s.writers := rfl
@[simp] theorem State.setRing_vlt (s : State) (r : Ring) (x : RingSt) : (s.setRing r x).vlt = s.vlt := rfl
@[simp] theorem State.setRing_truss (s : State) (r : Ring) (x : RingSt) : (s.setRing r x).truss = s.truss := rfl
@[simp] theorem State.setRing_tst (s : State) (r : Ring) (x : RingSt) : (s.setRing r x).tst = s.tst := rfl
@[simp] theorem State.setRing_thm (s : State) (r : Ring) (x : RingSt) : (s.setRing r x).thm = s.thm := rfl
@[simp] theorem State.setRing_pwr (s : State) (r : Ring) (x : RingSt) : (s.setRing r x).pwr = s.pwr := rfl
@[simp] theorem State.setRing_nvm (s : State) (r : Ring) (x : RingSt) : (s.setRing r x).nvm = s.nvm := rfl
@[simp] theorem State.setRing_msp (s : State) (r : Ring) (x : RingSt) : (s.setRing r x).msp = s.msp := rfl
@[simp] theorem State.setRing_lcy (s : State) (r : Ring) (x : RingSt) : (s.setRing r x).lcy = s.lcy := rfl
@[simp] theorem State.setRing_tap (s : State) (r : Ring) (x : RingSt) : (s.setRing r x).tap = s.tap := rfl
@[simp] theorem State.setRing_pending (s : State) (r : Ring) (x : RingSt) : (s.setRing r x).pending = s.pending := rfl

/-! ## setPch -/

@[simp] theorem State.setPch_now (s : State) (q : Pch) (x : PcSt) : (s.setPch q x).now = s.now := rfl
@[simp] theorem State.setPch_clocks (s : State) (q : Pch) (x : PcSt) : (s.setPch q x).clocks = s.clocks := rfl
@[simp] theorem State.setPch_free (s : State) (q : Pch) (x : PcSt) : (s.setPch q x).free = s.free := rfl
@[simp] theorem State.setPch_chans (s : State) (q : Pch) (x : PcSt) : (s.setPch q x).chans = s.chans := rfl
@[simp] theorem State.setPch_place (s : State) (q : Pch) (x : PcSt) : (s.setPch q x).place = s.place := rfl
@[simp] theorem State.setPch_sync (s : State) (q : Pch) (x : PcSt) : (s.setPch q x).sync = s.sync := rfl
@[simp] theorem State.setPch_tb (s : State) (q : Pch) (x : PcSt) : (s.setPch q x).tb = s.tb := rfl
@[simp] theorem State.setPch_synths (s : State) (q : Pch) (x : PcSt) : (s.setPch q x).synths = s.synths := rfl
@[simp] theorem State.setPch_folios (s : State) (q : Pch) (x : PcSt) : (s.setPch q x).folios = s.folios := rfl
@[simp] theorem State.setPch_folioSel (s : State) (q : Pch) (x : PcSt) : (s.setPch q x).folioSel = s.folioSel := rfl
@[simp] theorem State.setPch_closed (s : State) (q : Pch) (x : PcSt) : (s.setPch q x).closed = s.closed := rfl
@[simp] theorem State.setPch_mem (s : State) (q : Pch) (x : PcSt) : (s.setPch q x).mem = s.mem := rfl
@[simp] theorem State.setPch_chk (s : State) (q : Pch) (x : PcSt) : (s.setPch q x).chk = s.chk := rfl
@[simp] theorem State.setPch_writers (s : State) (q : Pch) (x : PcSt) : (s.setPch q x).writers = s.writers := rfl
@[simp] theorem State.setPch_via (s : State) (q : Pch) (x : PcSt) : (s.setPch q x).via = s.via := rfl
@[simp] theorem State.setPch_truss (s : State) (q : Pch) (x : PcSt) : (s.setPch q x).truss = s.truss := rfl
@[simp] theorem State.setPch_tst (s : State) (q : Pch) (x : PcSt) : (s.setPch q x).tst = s.tst := rfl
@[simp] theorem State.setPch_thm (s : State) (q : Pch) (x : PcSt) : (s.setPch q x).thm = s.thm := rfl
@[simp] theorem State.setPch_pwr (s : State) (q : Pch) (x : PcSt) : (s.setPch q x).pwr = s.pwr := rfl
@[simp] theorem State.setPch_nvm (s : State) (q : Pch) (x : PcSt) : (s.setPch q x).nvm = s.nvm := rfl
@[simp] theorem State.setPch_msp (s : State) (q : Pch) (x : PcSt) : (s.setPch q x).msp = s.msp := rfl
@[simp] theorem State.setPch_lcy (s : State) (q : Pch) (x : PcSt) : (s.setPch q x).lcy = s.lcy := rfl
@[simp] theorem State.setPch_tap (s : State) (q : Pch) (x : PcSt) : (s.setPch q x).tap = s.tap := rfl
@[simp] theorem State.setPch_pending (s : State) (q : Pch) (x : PcSt) : (s.setPch q x).pending = s.pending := rfl

/-! ## setSrc -/

@[simp] theorem State.setSrc_now (s : State) (n : Source) (x : SrcSt) : (s.setSrc n x).now = s.now := rfl
@[simp] theorem State.setSrc_clocks (s : State) (n : Source) (x : SrcSt) : (s.setSrc n x).clocks = s.clocks := rfl
@[simp] theorem State.setSrc_free (s : State) (n : Source) (x : SrcSt) : (s.setSrc n x).free = s.free := rfl
@[simp] theorem State.setSrc_chans (s : State) (n : Source) (x : SrcSt) : (s.setSrc n x).chans = s.chans := rfl
@[simp] theorem State.setSrc_place (s : State) (n : Source) (x : SrcSt) : (s.setSrc n x).place = s.place := rfl
@[simp] theorem State.setSrc_sync (s : State) (n : Source) (x : SrcSt) : (s.setSrc n x).sync = s.sync := rfl
@[simp] theorem State.setSrc_tb (s : State) (n : Source) (x : SrcSt) : (s.setSrc n x).tb = s.tb := rfl
@[simp] theorem State.setSrc_synths (s : State) (n : Source) (x : SrcSt) : (s.setSrc n x).synths = s.synths := rfl
@[simp] theorem State.setSrc_folios (s : State) (n : Source) (x : SrcSt) : (s.setSrc n x).folios = s.folios := rfl
@[simp] theorem State.setSrc_folioSel (s : State) (n : Source) (x : SrcSt) : (s.setSrc n x).folioSel = s.folioSel := rfl
@[simp] theorem State.setSrc_closed (s : State) (n : Source) (x : SrcSt) : (s.setSrc n x).closed = s.closed := rfl
@[simp] theorem State.setSrc_mem (s : State) (n : Source) (x : SrcSt) : (s.setSrc n x).mem = s.mem := rfl
@[simp] theorem State.setSrc_chk (s : State) (n : Source) (x : SrcSt) : (s.setSrc n x).chk = s.chk := rfl
@[simp] theorem State.setSrc_writers (s : State) (n : Source) (x : SrcSt) : (s.setSrc n x).writers = s.writers := rfl
@[simp] theorem State.setSrc_vlt (s : State) (n : Source) (x : SrcSt) : (s.setSrc n x).vlt = s.vlt := rfl
@[simp] theorem State.setSrc_via (s : State) (n : Source) (x : SrcSt) : (s.setSrc n x).via = s.via := rfl
@[simp] theorem State.setSrc_tst (s : State) (n : Source) (x : SrcSt) : (s.setSrc n x).tst = s.tst := rfl
@[simp] theorem State.setSrc_thm (s : State) (n : Source) (x : SrcSt) : (s.setSrc n x).thm = s.thm := rfl
@[simp] theorem State.setSrc_pwr (s : State) (n : Source) (x : SrcSt) : (s.setSrc n x).pwr = s.pwr := rfl
@[simp] theorem State.setSrc_nvm (s : State) (n : Source) (x : SrcSt) : (s.setSrc n x).nvm = s.nvm := rfl
@[simp] theorem State.setSrc_msp (s : State) (n : Source) (x : SrcSt) : (s.setSrc n x).msp = s.msp := rfl
@[simp] theorem State.setSrc_lcy (s : State) (n : Source) (x : SrcSt) : (s.setSrc n x).lcy = s.lcy := rfl
@[simp] theorem State.setSrc_tap (s : State) (n : Source) (x : SrcSt) : (s.setSrc n x).tap = s.tap := rfl
@[simp] theorem State.setSrc_pending (s : State) (n : Source) (x : SrcSt) : (s.setSrc n x).pending = s.pending := rfl

/-! ## setDom -/

@[simp] theorem State.setDom_now (s : State) (d : Dom) (x : DomSt) : (s.setDom d x).now = s.now := rfl
@[simp] theorem State.setDom_clocks (s : State) (d : Dom) (x : DomSt) : (s.setDom d x).clocks = s.clocks := rfl
@[simp] theorem State.setDom_free (s : State) (d : Dom) (x : DomSt) : (s.setDom d x).free = s.free := rfl
@[simp] theorem State.setDom_chans (s : State) (d : Dom) (x : DomSt) : (s.setDom d x).chans = s.chans := rfl
@[simp] theorem State.setDom_place (s : State) (d : Dom) (x : DomSt) : (s.setDom d x).place = s.place := rfl
@[simp] theorem State.setDom_sync (s : State) (d : Dom) (x : DomSt) : (s.setDom d x).sync = s.sync := rfl
@[simp] theorem State.setDom_tb (s : State) (d : Dom) (x : DomSt) : (s.setDom d x).tb = s.tb := rfl
@[simp] theorem State.setDom_synths (s : State) (d : Dom) (x : DomSt) : (s.setDom d x).synths = s.synths := rfl
@[simp] theorem State.setDom_folios (s : State) (d : Dom) (x : DomSt) : (s.setDom d x).folios = s.folios := rfl
@[simp] theorem State.setDom_folioSel (s : State) (d : Dom) (x : DomSt) : (s.setDom d x).folioSel = s.folioSel := rfl
@[simp] theorem State.setDom_closed (s : State) (d : Dom) (x : DomSt) : (s.setDom d x).closed = s.closed := rfl
@[simp] theorem State.setDom_mem (s : State) (d : Dom) (x : DomSt) : (s.setDom d x).mem = s.mem := rfl
@[simp] theorem State.setDom_chk (s : State) (d : Dom) (x : DomSt) : (s.setDom d x).chk = s.chk := rfl
@[simp] theorem State.setDom_writers (s : State) (d : Dom) (x : DomSt) : (s.setDom d x).writers = s.writers := rfl
@[simp] theorem State.setDom_vlt (s : State) (d : Dom) (x : DomSt) : (s.setDom d x).vlt = s.vlt := rfl
@[simp] theorem State.setDom_via (s : State) (d : Dom) (x : DomSt) : (s.setDom d x).via = s.via := rfl
@[simp] theorem State.setDom_truss (s : State) (d : Dom) (x : DomSt) : (s.setDom d x).truss = s.truss := rfl
@[simp] theorem State.setDom_tst (s : State) (d : Dom) (x : DomSt) : (s.setDom d x).tst = s.tst := rfl
@[simp] theorem State.setDom_thm (s : State) (d : Dom) (x : DomSt) : (s.setDom d x).thm = s.thm := rfl
@[simp] theorem State.setDom_nvm (s : State) (d : Dom) (x : DomSt) : (s.setDom d x).nvm = s.nvm := rfl
@[simp] theorem State.setDom_msp (s : State) (d : Dom) (x : DomSt) : (s.setDom d x).msp = s.msp := rfl
@[simp] theorem State.setDom_lcy (s : State) (d : Dom) (x : DomSt) : (s.setDom d x).lcy = s.lcy := rfl
@[simp] theorem State.setDom_tap (s : State) (d : Dom) (x : DomSt) : (s.setDom d x).tap = s.tap := rfl
@[simp] theorem State.setDom_pending (s : State) (d : Dom) (x : DomSt) : (s.setDom d x).pending = s.pending := rfl

/-! ## drawn -/

@[simp] theorem State.drawn_now (s : State) : (s.drawn).now = s.now := rfl
@[simp] theorem State.drawn_clocks (s : State) : (s.drawn).clocks = s.clocks := rfl
@[simp] theorem State.drawn_chans (s : State) : (s.drawn).chans = s.chans := rfl
@[simp] theorem State.drawn_place (s : State) : (s.drawn).place = s.place := rfl
@[simp] theorem State.drawn_sync (s : State) : (s.drawn).sync = s.sync := rfl
@[simp] theorem State.drawn_tb (s : State) : (s.drawn).tb = s.tb := rfl
@[simp] theorem State.drawn_synths (s : State) : (s.drawn).synths = s.synths := rfl
@[simp] theorem State.drawn_folios (s : State) : (s.drawn).folios = s.folios := rfl
@[simp] theorem State.drawn_folioSel (s : State) : (s.drawn).folioSel = s.folioSel := rfl
@[simp] theorem State.drawn_closed (s : State) : (s.drawn).closed = s.closed := rfl
@[simp] theorem State.drawn_mem (s : State) : (s.drawn).mem = s.mem := rfl
@[simp] theorem State.drawn_chk (s : State) : (s.drawn).chk = s.chk := rfl
@[simp] theorem State.drawn_writers (s : State) : (s.drawn).writers = s.writers := rfl
@[simp] theorem State.drawn_vlt (s : State) : (s.drawn).vlt = s.vlt := rfl
@[simp] theorem State.drawn_via (s : State) : (s.drawn).via = s.via := rfl
@[simp] theorem State.drawn_truss (s : State) : (s.drawn).truss = s.truss := rfl
@[simp] theorem State.drawn_tst (s : State) : (s.drawn).tst = s.tst := rfl
@[simp] theorem State.drawn_thm (s : State) : (s.drawn).thm = s.thm := rfl
@[simp] theorem State.drawn_pwr (s : State) : (s.drawn).pwr = s.pwr := rfl
@[simp] theorem State.drawn_nvm (s : State) : (s.drawn).nvm = s.nvm := rfl
@[simp] theorem State.drawn_msp (s : State) : (s.drawn).msp = s.msp := rfl
@[simp] theorem State.drawn_lcy (s : State) : (s.drawn).lcy = s.lcy := rfl
@[simp] theorem State.drawn_tap (s : State) : (s.drawn).tap = s.tap := rfl
@[simp] theorem State.drawn_pending (s : State) : (s.drawn).pending = s.pending := rfl

@[simp] theorem State.at_now (s : State) (t : Instant) : (s.at_ t).now = max s.now t := rfl

/-! ## Parts -/

@[simp] theorem State.chan_setChan_self (s : State) (c : Chan) (x : Channel) : (s.setChan c x).chan c = x := by
  simp [State.chan, State.setChan]

theorem State.chan_setChan_ne (s : State) (c d : Chan) (x : Channel) (h : d ≠ c) : (s.setChan c x).chan d = s.chan d := by
  have hv : c.val ≠ d.val := fun hh => h (Fin.ext hh.symm)
  simp [State.chan, State.setChan, Vector.getElem_set_ne, hv]

@[simp] theorem State.setChan_setChan (s : State) (c : Chan) (x y : Channel) : (s.setChan c x).setChan c y = s.setChan c y := by
  simp [State.setChan]

@[simp] theorem State.chan_at (s : State) (c : Chan) (t : Instant) : (s.at_ t).chan c = s.chan c := rfl

@[simp] theorem State.setChan_chan (s : State) (c : Chan) : s.setChan c (s.chan c) = s := by
  simp [State.chan, State.setChan]

@[simp] theorem State.synth_setSynth_self (s : State) (k : Synth) (x : SynthSt) : (s.setSynth k x).synth k = x := by
  simp [State.synth, State.setSynth]

theorem State.synth_setSynth_ne (s : State) (k j : Synth) (x : SynthSt) (h : j ≠ k) :
    (s.setSynth k x).synth j = s.synth j := by
  have hv : k.val ≠ j.val := fun hh => h (Fin.ext hh.symm)
  simp [State.synth, State.setSynth, Vector.getElem_set_ne, hv]

@[simp] theorem State.ring_setRing_self (s : State) (r : Ring) (x : RingSt) : (s.setRing r x).ring r = x := by
  simp [State.ring, State.setRing]

theorem State.ring_setRing_ne (s : State) (r q : Ring) (x : RingSt) (h : q ≠ r) : (s.setRing r x).ring q = s.ring q := by
  have hv : r.val ≠ q.val := fun hh => h (Fin.ext hh.symm)
  simp [State.ring, State.setRing, Vector.getElem_set_ne, hv]

@[simp] theorem State.pch_setPch_self (s : State) (q : Pch) (x : PcSt) : (s.setPch q x).pch q = x := by
  simp [State.pch, State.setPch]

theorem State.pch_setPch_ne (s : State) (q p : Pch) (x : PcSt) (h : p ≠ q) : (s.setPch q x).pch p = s.pch p := by
  have hv : q.val ≠ p.val := fun hh => h (Fin.ext hh.symm)
  simp [State.pch, State.setPch, Vector.getElem_set_ne, hv]

@[simp] theorem State.src_setSrc_self (s : State) (n : Source) (x : SrcSt) : (s.setSrc n x).src n = x := by
  simp [State.src, State.setSrc]

theorem State.src_setSrc_ne (s : State) (n m : Source) (x : SrcSt) (h : m ≠ n) : (s.setSrc n x).src m = s.src m := by
  have hv : n.val ≠ m.val := fun hh => h (Fin.ext hh.symm)
  simp [State.src, State.setSrc, Vector.getElem_set_ne, hv]

@[simp] theorem State.dom_setDom_self (s : State) (d : Dom) (x : DomSt) : (s.setDom d x).dom d = x := by
  simp [State.dom, State.setDom]

theorem State.dom_setDom_ne (s : State) (d e : Dom) (x : DomSt) (h : e ≠ d) : (s.setDom d x).dom e = s.dom e := by
  have hv : d.val ≠ e.val := fun hh => h (Fin.ext hh.symm)
  simp [State.dom, State.setDom, Vector.getElem_set_ne, hv]

end Sys2Proof.Machine
end

