-- ==== Sys2Proof/Laws/Engine.lean ====
section
/-! SUPPORT. What the shared operations of the engine can do. -/

namespace Sys2Proof.Machine

open Sys2Proof.Safety

/-! ## Registers -/

@[simp] theorem Engine.gr_zero (e : Engine) : e.gr 0 = 0 := rfl

theorem Engine.gr_gw_self (e : Engine) (d : BitVec 4) (v : Dword) : (e.gw d v).gr d = if d = 0 then 0 else v := by
  unfold Engine.gr Engine.gw
  split <;> simp_all

theorem Engine.gr_gw_ne (e : Engine) (d i : BitVec 4) (v : Dword) (h : i ≠ d) : (e.gw d v).gr i = e.gr i := by
  have hv : d.toFin.val ≠ i.toFin.val := fun hh => h (BitVec.eq_of_toFin_eq (Fin.ext hh.symm))
  unfold Engine.gr Engine.gw
  (repeat' split) <;> simp_all [Vector.getElem_set_ne]

@[simp] theorem Engine.ar_gw (e : Engine) (d : BitVec 4) (i : BitVec 3) (v : Dword) : (e.gw d v).ar i = e.ar i := by
  unfold Engine.ar Engine.gw; split <;> rfl

theorem Engine.ar_aw_self (e : Engine) (d : BitVec 3) (v : Qword) : (e.aw d v).ar d = v := by
  simp [Engine.ar, Engine.aw]

theorem Engine.ar_aw_ne (e : Engine) (d i : BitVec 3) (v : Qword) (h : i ≠ d) : (e.aw d v).ar i = e.ar i := by
  have hv : d.toNat ≠ i.toNat := fun hh => h (BitVec.eq_of_toNat_eq hh.symm)
  simp only [Engine.ar, Engine.aw]
  exact Vector.getElem_set_ne _ _ hv

@[simp] theorem Engine.gr_aw (e : Engine) (d : BitVec 3) (i : BitVec 4) (v : Qword) : (e.aw d v).gr i = e.gr i := rfl

/-- A write of a general register changes nothing but the registers. -/
theorem Engine.gw_eq (e : Engine) (d : BitVec 4) (v : Dword) : e.gw d v = { e with g := (e.gw d v).g } := by
  unfold Engine.gw; split <;> rfl

/-! ## The shared step -/

/-- The engine as an instruction finds it after its fetch. -/
def Engine.fetched (e : Engine) : Engine := { e with pcRun := e.pc, imemCorr := fetchCount e }

/-- An instruction that is on runs its body on the fetched engine, at the dc on which it starts. -/
theorem State.engStep_ready (s : State) (c : Chan) (i : Instr) (k : Nat) (body : Nat → State → State)
    (h : EngReady s c i k) :
    s.engStep c i k body = body (s.chan c).eng.readyDc
      ((s.at_ (s.dcAt (s.chan c).eng.readyDc)).setChan c { s.chan c with eng := (s.chan c).eng.fetched }) := by
  have h0 := h.own; have h1 := h.on; have h2 := h.run; have h3 := h.uncut; have h4 := h.clean; have h5 := h.word
  unfold State.engStep
  simp only [h0, h1, h2, h3, h5, Option.isSome_none, Bool.not_true, bne_self_eq_false, Bool.or_self, Bool.false_eq_true, if_false, h4,
    ne_eq, not_true_eq_false]
  congr 1
  unfold Engine.fetched fetchCount
  split <;> simp [State.modChan, Channel.modEng]

/-- An instruction whose effect lies within the engine. -/
theorem State.engOp_ready (s : State) (c : Chan) (i : Instr) (k : Nat) (f : Engine → Engine) (h : EngReady s c i k) :
    s.engOp c i k f = (s.at_ (s.dcAt (s.chan c).eng.readyDc)).setChan c
      { s.chan c with eng := (f (s.chan c).eng.fetched).advance (s.chan c).eng.readyDc k } := by
  unfold State.engOp
  rw [State.engStep_ready s c i k _ h]
  simp [State.modChan, Channel.modEng]

end Sys2Proof.Machine
end

