-- ==== Sys2Proof/Laws/KeepsUnits.lean ====
section
/-! SUPPORT. The queue of waiting commands, the fuses, the galley and its check bits under each operation: what the units of capture, clocks and power keep. -/

namespace Sys2Proof.Machine

set_option linter.unreachableTactic false
set_option linter.unusedTactic false
set_option linter.unnecessarySeqFocus false
set_option linter.unusedSimpArgs false

/-! ## Ops -/


theorem foldl_keeps {α β : Type} (p : State → β) (f : State → α → State) (h : ∀ s a, p (f s a) = p s) (l : List α)
    (s : State) : p (l.foldl f s) = p s := by
  induction l generalizing s with
  | nil => rfl
  | cons a t ih => simp [ih, h]

@[simp] theorem LifeCycle.reset_fuses (f : List (Nat × Word)) (x : BitVec 4) : (LifeCycle.reset f x).fuses = f := rfl

@[simp] theorem ite_pending (c : Prop) [Decidable c] (a b : State) : (if c then a else b).pending = if c then a.pending else b.pending := apply_ite _ c a b
@[simp] theorem ite_mem (c : Prop) [Decidable c] (a b : State) : (if c then a else b).mem = if c then a.mem else b.mem := apply_ite _ c a b
@[simp] theorem ite_chk (c : Prop) [Decidable c] (a b : State) : (if c then a else b).chk = if c then a.chk else b.chk := apply_ite _ c a b
@[simp] theorem ite_lcy (c : Prop) [Decidable c] (a b : State) : (if c then a else b).lcy = if c then a.lcy else b.lcy := apply_ite _ c a b
@[simp] theorem ite_fuses (c : Prop) [Decidable c] (a b : LifeCycle) : (if c then a else b).fuses = if c then a.fuses else b.fuses := apply_ite _ c a b

@[simp] theorem foldl_pending {α : Type} (f : State → α → State) (h : ∀ s a, (f s a).pending = s.pending) (l : List α)
    (s : State) : (l.foldl f s).pending = s.pending := foldl_keeps State.pending f h l s
@[simp] theorem foldl_fuses {α : Type} (f : State → α → State) (h : ∀ s a, (f s a).lcy.fuses = s.lcy.fuses) (l : List α)
    (s : State) : (l.foldl f s).lcy.fuses = s.lcy.fuses := foldl_keeps (fun z => z.lcy.fuses) f h l s
@[simp] theorem foldl_mem {α : Type} (f : State → α → State) (h : ∀ s a, (f s a).mem = s.mem) (l : List α)
    (s : State) : (l.foldl f s).mem = s.mem := foldl_keeps State.mem f h l s
@[simp] theorem foldl_chk {α : Type} (f : State → α → State) (h : ∀ s a, (f s a).chk = s.chk) (l : List α)
    (s : State) : (l.foldl f s).chk = s.chk := foldl_keeps State.chk f h l s

@[simp] theorem State.at__keeps (s : State) (t : Instant) :
    (State.at_ s t).pending = s.pending ∧
    (State.at_ s t).lcy.fuses = s.lcy.fuses ∧
    (State.at_ s t).mem = s.mem ∧
    (State.at_ s t).chk = s.chk := by
  unfold State.at_; (repeat' split) <;> (try simp) <;> (repeat' split) <;> (try simp)

@[simp] theorem State.drawn_keeps (s : State) :
    (State.drawn s).pending = s.pending ∧
    (State.drawn s).lcy.fuses = s.lcy.fuses ∧
    (State.drawn s).mem = s.mem ∧
    (State.drawn s).chk = s.chk := by
  unfold State.drawn; (repeat' split) <;> (try simp) <;> (repeat' split) <;> (try simp)

@[simp] theorem State.setChan_keeps (s : State) (c : Chan) (x : Channel) :
    (State.setChan s c x).pending = s.pending ∧
    (State.setChan s c x).lcy.fuses = s.lcy.fuses ∧
    (State.setChan s c x).mem = s.mem ∧
    (State.setChan s c x).chk = s.chk := by
  unfold State.setChan; (repeat' split) <;> (try simp) <;> (repeat' split) <;> (try simp)

@[simp] theorem State.modChan_keeps (s : State) (c : Chan) (f : Channel → Channel) :
    (State.modChan s c f).pending = s.pending ∧
    (State.modChan s c f).lcy.fuses = s.lcy.fuses ∧
    (State.modChan s c f).mem = s.mem ∧
    (State.modChan s c f).chk = s.chk := by
  unfold State.modChan; (repeat' split) <;> (try simp) <;> (repeat' split) <;> (try simp)

@[simp] theorem State.setSynth_keeps (s : State) (k : Synth) (x : SynthSt) :
    (State.setSynth s k x).pending = s.pending ∧
    (State.setSynth s k x).lcy.fuses = s.lcy.fuses ∧
    (State.setSynth s k x).mem = s.mem ∧
    (State.setSynth s k x).chk = s.chk := by
  unfold State.setSynth; (repeat' split) <;> (try simp) <;> (repeat' split) <;> (try simp)

@[simp] theorem State.modSynth_keeps (s : State) (k : Synth) (f : SynthSt → SynthSt) :
    (State.modSynth s k f).pending = s.pending ∧
    (State.modSynth s k f).lcy.fuses = s.lcy.fuses ∧
    (State.modSynth s k f).mem = s.mem ∧
    (State.modSynth s k f).chk = s.chk := by
  unfold State.modSynth; (repeat' split) <;> (try simp) <;> (repeat' split) <;> (try simp)

@[simp] theorem State.setRing_keeps (s : State) (r : Ring) (x : RingSt) :
    (State.setRing s r x).pending = s.pending ∧
    (State.setRing s r x).lcy.fuses = s.lcy.fuses ∧
    (State.setRing s r x).mem = s.mem ∧
    (State.setRing s r x).chk = s.chk := by
  unfold State.setRing; (repeat' split) <;> (try simp) <;> (repeat' split) <;> (try simp)

@[simp] theorem State.modRing_keeps (s : State) (r : Ring) (f : RingSt → RingSt) :
    (State.modRing s r f).pending = s.pending ∧
    (State.modRing s r f).lcy.fuses = s.lcy.fuses ∧
    (State.modRing s r f).mem = s.mem ∧
    (State.modRing s r f).chk = s.chk := by
  unfold State.modRing; (repeat' split) <;> (try simp) <;> (repeat' split) <;> (try simp)

@[simp] theorem State.setPch_keeps (s : State) (q : Pch) (x : PcSt) :
    (State.setPch s q x).pending = s.pending ∧
    (State.setPch s q x).lcy.fuses = s.lcy.fuses ∧
    (State.setPch s q x).mem = s.mem ∧
    (State.setPch s q x).chk = s.chk := by
  unfold State.setPch; (repeat' split) <;> (try simp) <;> (repeat' split) <;> (try simp)

@[simp] theorem State.modPch_keeps (s : State) (q : Pch) (f : PcSt → PcSt) :
    (State.modPch s q f).pending = s.pending ∧
    (State.modPch s q f).lcy.fuses = s.lcy.fuses ∧
    (State.modPch s q f).mem = s.mem ∧
    (State.modPch s q f).chk = s.chk := by
  unfold State.modPch; (repeat' split) <;> (try simp) <;> (repeat' split) <;> (try simp)

@[simp] theorem State.setSrc_keeps (s : State) (n : Source) (x : SrcSt) :
    (State.setSrc s n x).pending = s.pending ∧
    (State.setSrc s n x).lcy.fuses = s.lcy.fuses ∧
    (State.setSrc s n x).mem = s.mem ∧
    (State.setSrc s n x).chk = s.chk := by
  unfold State.setSrc; (repeat' split) <;> (try simp) <;> (repeat' split) <;> (try simp)

@[simp] theorem State.setDom_keeps (s : State) (d : Dom) (x : DomSt) :
    (State.setDom s d x).pending = s.pending ∧
    (State.setDom s d x).lcy.fuses = s.lcy.fuses ∧
    (State.setDom s d x).mem = s.mem ∧
    (State.setDom s d x).chk = s.chk := by
  unfold State.setDom; (repeat' split) <;> (try simp) <;> (repeat' split) <;> (try simp)

@[simp] theorem State.forChans_pending (s : State) (l : List Chan) (f : Chan → State → State)
    (h : ∀ c s, (f c s).pending = s.pending) : (s.forChans l f).pending = s.pending :=
  foldl_pending _ (fun s c => h c s) l s
@[simp] theorem State.forChans_fuses (s : State) (l : List Chan) (f : Chan → State → State)
    (h : ∀ c s, (f c s).lcy.fuses = s.lcy.fuses) : (s.forChans l f).lcy.fuses = s.lcy.fuses :=
  foldl_fuses _ (fun s c => h c s) l s
@[simp] theorem State.forChans_mem (s : State) (l : List Chan) (f : Chan → State → State)
    (h : ∀ c s, (f c s).mem = s.mem) : (s.forChans l f).mem = s.mem :=
  foldl_mem _ (fun s c => h c s) l s
@[simp] theorem State.forChans_chk (s : State) (l : List Chan) (f : Chan → State → State)
    (h : ∀ c s, (f c s).chk = s.chk) : (s.forChans l f).chk = s.chk :=
  foldl_chk _ (fun s c => h c s) l s

@[simp] theorem State.idleRestart_keeps (s : State) :
    (State.idleRestart s).pending = s.pending ∧
    (State.idleRestart s).lcy.fuses = s.lcy.fuses ∧
    (State.idleRestart s).mem = s.mem ∧
    (State.idleRestart s).chk = s.chk := by
  unfold State.idleRestart; (repeat' split) <;> (try simp) <;> (repeat' split) <;> (try simp)

@[simp] theorem State.wakeVault_keeps (s : State) (t : Instant) :
    (State.wakeVault s t).pending = s.pending ∧
    (State.wakeVault s t).lcy.fuses = s.lcy.fuses ∧
    (State.wakeVault s t).mem = s.mem ∧
    (State.wakeVault s t).chk = s.chk := by
  unfold State.wakeVault; (repeat' split) <;> (try simp) <;> (repeat' split) <;> (try simp)

@[simp] theorem State.setGalley_keeps (s : State) (g : Nat) (w : Qword) :
    (State.setGalley s g w).pending = s.pending ∧
    (State.setGalley s g w).lcy.fuses = s.lcy.fuses := by
  unfold State.setGalley; (repeat' split) <;> (try simp) <;> (repeat' split) <;> (try simp)

/-! ## Reset -/


@[simp] theorem State.toReset_keeps (s : State) (f : Power → Power) :
    (State.toReset s f).pending = s.pending ∧
    (State.toReset s f).lcy.fuses = s.lcy.fuses := by
  unfold State.toReset; (repeat' split) <;> (try simp) <;> (repeat' split) <;> (try simp)

@[simp] theorem State.chipReset_keeps (s : State) (src : Source) (mc : Nat) :
    (State.chipReset s src mc).pending = s.pending ∧
    (State.chipReset s src mc).lcy.fuses = s.lcy.fuses := by
  unfold State.chipReset; (repeat' split) <;> (try simp) <;> (repeat' split) <;> (try simp)

/-! ## Truss -/


@[simp] theorem State.recog_keeps (s : State) (r : Recog) :
    (State.recog s r).pending = s.pending ∧
    (State.recog s r).lcy.fuses = s.lcy.fuses ∧
    (State.recog s r).mem = s.mem ∧
    (State.recog s r).chk = s.chk := by
  unfold State.recog; (repeat' split) <;> (try simp) <;> (repeat' split) <;> (try simp)

@[simp] theorem State.raiseFrom_keeps (s : State) (mgmt : Bool) (n : Source) (causes : Byte) (inj : Bool) :
    (State.raiseFrom s mgmt n causes inj).pending = s.pending ∧
    (State.raiseFrom s mgmt n causes inj).lcy.fuses = s.lcy.fuses ∧
    (State.raiseFrom s mgmt n causes inj).mem = s.mem ∧
    (State.raiseFrom s mgmt n causes inj).chk = s.chk := by
  unfold State.raiseFrom; (repeat' split) <;> (try simp) <;> (repeat' split) <;> (try simp)

@[simp] theorem State.raise_keeps (s : State) (n : Source) (causes : Byte) :
    (State.raise s n causes).pending = s.pending ∧
    (State.raise s n causes).lcy.fuses = s.lcy.fuses ∧
    (State.raise s n causes).mem = s.mem ∧
    (State.raise s n causes).chk = s.chk := by
  unfold State.raise; (repeat' split) <;> (try simp) <;> (repeat' split) <;> (try simp)

@[simp] theorem State.raiseM_keeps (s : State) (n : Source) (causes : Byte) :
    (State.raiseM s n causes).pending = s.pending ∧
    (State.raiseM s n causes).lcy.fuses = s.lcy.fuses ∧
    (State.raiseM s n causes).mem = s.mem ∧
    (State.raiseM s n causes).chk = s.chk := by
  unfold State.raiseM; (repeat' split) <;> (try simp) <;> (repeat' split) <;> (try simp)

@[simp] theorem State.nintFrom_keeps (s : State) (was : Bool) (mc : Nat) :
    (State.nintFrom s was mc).pending = s.pending ∧
    (State.nintFrom s was mc).lcy.fuses = s.lcy.fuses ∧
    (State.nintFrom s was mc).mem = s.mem ∧
    (State.nintFrom s was mc).chk = s.chk := by
  unfold State.nintFrom; (repeat' split) <;> (try simp) <;> (repeat' split) <;> (try simp)

@[simp] theorem State.takeLevel_keeps (s : State) (n : Source) (old lvl mc : Nat) :
    (State.takeLevel s n old lvl mc).pending = s.pending ∧
    (State.takeLevel s n old lvl mc).lcy.fuses = s.lcy.fuses := by
  unfold State.takeLevel; (repeat' split) <;> (try simp) <;> (repeat' split) <;> (try simp)

@[simp] theorem State.event_keeps (s : State) (n : Source) (mc : Nat) (causes : Byte) (real inj contain : Bool) :
    (State.event s n mc causes real inj contain).pending = s.pending ∧
    (State.event s n mc causes real inj contain).lcy.fuses = s.lcy.fuses := by
  unfold State.event; (repeat' split) <;> (try simp) <;> (repeat' split) <;> (try simp)

@[simp] theorem State.recognise_keeps (s : State) :
    (State.recognise s).pending = s.pending ∧
    (State.recognise s).lcy.fuses = s.lcy.fuses := by
  unfold State.recognise; (repeat' split) <;> (try simp) <;> (repeat' split) <;> (try simp)

@[simp] theorem State.escalation_keeps (s : State) (n : Source) :
    (State.escalation s n).pending = s.pending ∧
    (State.escalation s n).lcy.fuses = s.lcy.fuses := by
  unfold State.escalation; (repeat' split) <;> (try simp) <;> (repeat' split) <;> (try simp)

@[simp] theorem State.ackSrc_keeps (s : State) (n : Source) (mc : Nat) :
    (State.ackSrc s n mc).pending = s.pending ∧
    (State.ackSrc s n mc).lcy.fuses = s.lcy.fuses ∧
    (State.ackSrc s n mc).mem = s.mem ∧
    (State.ackSrc s n mc).chk = s.chk := by
  unfold State.ackSrc; (repeat' split) <;> (try simp) <;> (repeat' split) <;> (try simp)

/-! ## Lanes -/


@[simp] theorem State.toCrossbar_keeps (s : State) (i : LaneIx) (abs : Int) (rising : Bool) :
    (State.toCrossbar s i abs rising).pending = s.pending ∧
    (State.toCrossbar s i abs rising).lcy.fuses = s.lcy.fuses ∧
    (State.toCrossbar s i abs rising).mem = s.mem ∧
    (State.toCrossbar s i abs rising).chk = s.chk := by
  unfold State.toCrossbar; (repeat' split) <;> (try simp) <;> (repeat' split) <;> (try simp)

@[simp] theorem State.selectedEdge_keeps (s : State) (i : LaneIx) (t : Instant) (rising armed : Bool) :
    (State.selectedEdge s i t rising armed).pending = s.pending ∧
    (State.selectedEdge s i t rising armed).lcy.fuses = s.lcy.fuses ∧
    (State.selectedEdge s i t rising armed).mem = s.mem ∧
    (State.selectedEdge s i t rising armed).chk = s.chk := by
  unfold State.selectedEdge; (repeat' split) <;> (try simp) <;> (repeat' split) <;> (try simp)

@[simp] theorem State.transition_keeps (s : State) (t0 : Instant) (i : LaneIx) (level : Bool) :
    (State.transition s t0 i level).pending = s.pending ∧
    (State.transition s t0 i level).lcy.fuses = s.lcy.fuses ∧
    (State.transition s t0 i level).mem = s.mem ∧
    (State.transition s t0 i level).chk = s.chk := by
  unfold State.transition; (repeat' split) <;> (try simp) <;> (repeat' split) <;> (try simp)

@[simp] theorem State.crossCheck_keeps (s : State) (i : LaneIx) (follower : BitVec 11) :
    (State.crossCheck s i follower).pending = s.pending ∧
    (State.crossCheck s i follower).lcy.fuses = s.lcy.fuses ∧
    (State.crossCheck s i follower).mem = s.mem ∧
    (State.crossCheck s i follower).chk = s.chk := by
  unfold State.crossCheck; (repeat' split) <;> (try simp) <;> (repeat' split) <;> (try simp)

@[simp] theorem State.laneFifoWrite_keeps (s : State) (i : LaneIx) :
    (State.laneFifoWrite s i).pending = s.pending ∧
    (State.laneFifoWrite s i).lcy.fuses = s.lcy.fuses ∧
    (State.laneFifoWrite s i).mem = s.mem ∧
    (State.laneFifoWrite s i).chk = s.chk := by
  unfold State.laneFifoWrite; (repeat' split) <;> (try simp) <;> (repeat' split) <;> (try simp)

@[simp] theorem State.lossClose_keeps (s : State) (i : LaneIx) :
    (State.lossClose s i).pending = s.pending ∧
    (State.lossClose s i).lcy.fuses = s.lcy.fuses ∧
    (State.lossClose s i).mem = s.mem ∧
    (State.lossClose s i).chk = s.chk := by
  unfold State.lossClose; (repeat' split) <;> (try simp) <;> (repeat' split) <;> (try simp)

/-! ## Synth -/


@[simp] theorem State.hop_keeps (s : State) (t0 : Instant) (k : Fin 8) :
    (State.hop s t0 k).pending = s.pending ∧
    (State.hop s t0 k).lcy.fuses = s.lcy.fuses ∧
    (State.hop s t0 k).mem = s.mem ∧
    (State.hop s t0 k).chk = s.chk := by
  unfold State.hop; (repeat' split) <;> (try simp) <;> (repeat' split) <;> (try simp)

@[simp] theorem State.hopFull_keeps (s : State) (k : Fin 8) :
    (State.hopFull s k).pending = s.pending ∧
    (State.hopFull s k).lcy.fuses = s.lcy.fuses ∧
    (State.hopFull s k).mem = s.mem ∧
    (State.hopFull s k).chk = s.chk := by
  unfold State.hopFull; (repeat' split) <;> (try simp) <;> (repeat' split) <;> (try simp)

@[simp] theorem State.guard_keeps (s : State) (k : Fin 8) (rises : List Instant) :
    (State.guard s k rises).pending = s.pending ∧
    (State.guard s k rises).lcy.fuses = s.lcy.fuses ∧
    (State.guard s k rises).mem = s.mem ∧
    (State.guard s k rises).chk = s.chk := by
  unfold State.guard; (repeat' split) <;> (try simp) <;> (repeat' split) <;> (try simp)

@[simp] theorem State.storedRelease_keeps (s : State) (k : Fin 8) (rises : List Instant) :
    (State.storedRelease s k rises).pending = s.pending ∧
    (State.storedRelease s k rises).lcy.fuses = s.lcy.fuses ∧
    (State.storedRelease s k rises).mem = s.mem ∧
    (State.storedRelease s k rises).chk = s.chk := by
  unfold State.storedRelease; (repeat' split) <;> (try simp) <;> (repeat' split) <;> (try simp)

@[simp] theorem State.fullRelease_keeps (s : State) (k : Fin 8) (rises : List Instant) :
    (State.fullRelease s k rises).pending = s.pending ∧
    (State.fullRelease s k rises).lcy.fuses = s.lcy.fuses ∧
    (State.fullRelease s k rises).mem = s.mem ∧
    (State.fullRelease s k rises).chk = s.chk := by
  unfold State.fullRelease; (repeat' split) <;> (try simp) <;> (repeat' split) <;> (try simp)

@[simp] theorem State.lockDeadline_keeps (s : State) (k : Fin 8) (bandFound : Bool) :
    (State.lockDeadline s k bandFound).pending = s.pending ∧
    (State.lockDeadline s k bandFound).lcy.fuses = s.lcy.fuses ∧
    (State.lockDeadline s k bandFound).mem = s.mem ∧
    (State.lockDeadline s k bandFound).chk = s.chk := by
  unfold State.lockDeadline; (repeat' split) <;> (try simp) <;> (repeat' split) <;> (try simp)

@[simp] theorem State.rampEvent_keeps (s : State) (k : Fin 8) (sel : Nat) (t : Instant) :
    (State.rampEvent s k sel t).pending = s.pending ∧
    (State.rampEvent s k sel t).lcy.fuses = s.lcy.fuses ∧
    (State.rampEvent s k sel t).mem = s.mem ∧
    (State.rampEvent s k sel t).chk = s.chk := by
  unfold State.rampEvent; (repeat' split) <;> (try simp) <;> (repeat' split) <;> (try simp)

@[simp] theorem State.rampAdvance_keeps (s : State) (k : Fin 8) (t : Instant) :
    (State.rampAdvance s k t).pending = s.pending ∧
    (State.rampAdvance s k t).lcy.fuses = s.lcy.fuses ∧
    (State.rampAdvance s k t).mem = s.mem ∧
    (State.rampAdvance s k t).chk = s.chk := by
  unfold State.rampAdvance; (repeat' split) <;> (try simp) <;> (repeat' split) <;> (try simp)

@[simp] theorem State.rampStart_keeps (s : State) (k : Fin 8) :
    (State.rampStart s k).pending = s.pending ∧
    (State.rampStart s k).lcy.fuses = s.lcy.fuses ∧
    (State.rampStart s k).mem = s.mem ∧
    (State.rampStart s k).chk = s.chk := by
  unfold State.rampStart; (repeat' split) <;> (try simp) <;> (repeat' split) <;> (try simp)

@[simp] theorem State.segmentEnd_keeps (s : State) (k : Fin 8) :
    (State.segmentEnd s k).pending = s.pending ∧
    (State.segmentEnd s k).lcy.fuses = s.lcy.fuses ∧
    (State.segmentEnd s k).mem = s.mem ∧
    (State.segmentEnd s k).chk = s.chk := by
  unfold State.segmentEnd; (repeat' split) <;> (try simp) <;> (repeat' split) <;> (try simp)

@[simp] theorem State.windowMonitor_keeps (s : State) (t0 : Instant) (k : Fin 8) (count : Nat) (rises : List Instant) :
    (State.windowMonitor s t0 k count rises).pending = s.pending ∧
    (State.windowMonitor s t0 k count rises).lcy.fuses = s.lcy.fuses ∧
    (State.windowMonitor s t0 k count rises).mem = s.mem ∧
    (State.windowMonitor s t0 k count rises).chk = s.chk := by
  unfold State.windowMonitor; (repeat' split) <;> (try simp) <;> (repeat' split) <;> (try simp)

@[simp] theorem State.rebaseDebt_keeps (s : State) (v : Nat) :
    (State.rebaseDebt s v).pending = s.pending ∧
    (State.rebaseDebt s v).lcy.fuses = s.lcy.fuses ∧
    (State.rebaseDebt s v).mem = s.mem ∧
    (State.rebaseDebt s v).chk = s.chk := by
  unfold State.rebaseDebt; (repeat' split) <;> (try simp) <;> (repeat' split) <;> (try simp)

@[simp] theorem State.vaultClock_keeps (s : State) (safe : Bool) :
    (State.vaultClock s safe).pending = s.pending ∧
    (State.vaultClock s safe).lcy.fuses = s.lcy.fuses ∧
    (State.vaultClock s safe).mem = s.mem ∧
    (State.vaultClock s safe).chk = s.chk := by
  unfold State.vaultClock; (repeat' split) <;> (try simp) <;> (repeat' split) <;> (try simp)

@[simp] theorem State.srBegin_keeps (s : State) (v : Nat) :
    (State.srBegin s v).pending = s.pending ∧
    (State.srBegin s v).lcy.fuses = s.lcy.fuses ∧
    (State.srBegin s v).mem = s.mem ∧
    (State.srBegin s v).chk = s.chk := ⟨rfl, rfl, rfl, rfl⟩

@[simp] theorem State.onClock_keeps (s : State) (v : Bool) (new : Clock) :
    (State.onClock s v new).pending = s.pending ∧
    (State.onClock s v new).lcy.fuses = s.lcy.fuses ∧
    (State.onClock s v new).mem = s.mem ∧
    (State.onClock s v new).chk = s.chk := ⟨rfl, rfl, rfl, rfl⟩

@[simp] theorem State.relock_keeps (s : State) (k : Synth) (causes : Byte) :
    (State.relock s k causes).pending = s.pending ∧
    (State.relock s k causes).lcy.fuses = s.lcy.fuses ∧
    (State.relock s k causes).mem = s.mem ∧
    (State.relock s k causes).chk = s.chk := by
  unfold State.relock; (repeat' split) <;> (try simp) <;> (repeat' split) <;> (try simp)

@[simp] theorem State.unlock_keeps (s : State) (t0 : Instant) (k : Synth) :
    (State.unlock s t0 k).pending = s.pending ∧
    (State.unlock s t0 k).lcy.fuses = s.lcy.fuses ∧
    (State.unlock s t0 k).mem = s.mem ∧
    (State.unlock s t0 k).chk = s.chk := by
  unfold State.unlock; (repeat' split) <;> (try simp) <;> (repeat' split) <;> (try simp)

@[simp] theorem State.deckVaultWindow_keeps (s : State) (t0 : Instant) (vault : Bool) (count : Nat) :
    (State.deckVaultWindow s t0 vault count).pending = s.pending ∧
    (State.deckVaultWindow s t0 vault count).lcy.fuses = s.lcy.fuses ∧
    (State.deckVaultWindow s t0 vault count).mem = s.mem ∧
    (State.deckVaultWindow s t0 vault count).chk = s.chk := by
  unfold State.deckVaultWindow; (repeat' split) <;> (try simp) <;> (repeat' split) <;> (try simp)

@[simp] theorem State.synthLock_keeps (s : State) (vault lockDetected bandFound : Bool) :
    (State.synthLock s vault lockDetected bandFound).pending = s.pending ∧
    (State.synthLock s vault lockDetected bandFound).lcy.fuses = s.lcy.fuses ∧
    (State.synthLock s vault lockDetected bandFound).mem = s.mem ∧
    (State.synthLock s vault lockDetected bandFound).chk = s.chk := by
  unfold State.synthLock; (repeat' split) <;> (try simp) <;> (repeat' split) <;> (try simp)

@[simp] theorem State.markSynths_keeps (s : State) (t : Instant) :
    (State.markSynths s t).pending = s.pending ∧
    (State.markSynths s t).lcy.fuses = s.lcy.fuses ∧
    (State.markSynths s t).mem = s.mem ∧
    (State.markSynths s t).chk = s.chk := by
  unfold State.markSynths; (repeat' split) <;> (try simp) <;> (repeat' split) <;> (try simp)

@[simp] theorem State.spreadDv_keeps (s : State) (on : Bool) :
    (State.spreadDv s on).pending = s.pending ∧
    (State.spreadDv s on).lcy.fuses = s.lcy.fuses ∧
    (State.spreadDv s on).mem = s.mem ∧
    (State.spreadDv s on).chk = s.chk := by
  unfold State.spreadDv; (repeat' split) <;> (try simp) <;> (repeat' split) <;> (try simp)

@[simp] theorem State.sweepApply_keeps (s : State) (k : Fin 8) :
    (State.sweepApply s k).pending = s.pending ∧
    (State.sweepApply s k).lcy.fuses = s.lcy.fuses ∧
    (State.sweepApply s k).mem = s.mem ∧
    (State.sweepApply s k).chk = s.chk := by
  unfold State.sweepApply; (repeat' split) <;> (try simp) <;> (repeat' split) <;> (try simp)

/-! ## Timebase -/


@[simp] theorem State.modTb_keeps (s : State) (f : Timebase → Timebase) :
    (State.modTb s f).pending = s.pending ∧
    (State.modTb s f).lcy.fuses = s.lcy.fuses ∧
    (State.modTb s f).mem = s.mem ∧
    (State.modTb s f).chk = s.chk := by
  unfold State.modTb; (repeat' split) <;> (try simp) <;> (repeat' split) <;> (try simp)

@[simp] theorem State.tbApply_keeps (s : State) :
    (State.tbApply s).pending = s.pending ∧
    (State.tbApply s).lcy.fuses = s.lcy.fuses ∧
    (State.tbApply s).mem = s.mem ∧
    (State.tbApply s).chk = s.chk := by
  unfold State.tbApply; (repeat' split) <;> (try simp) <;> (repeat' split) <;> (try simp)

@[simp] theorem State.insertAll_keeps (s : State) (t : Instant) (r : Insert) :
    (State.insertAll s t r).pending = s.pending ∧
    (State.insertAll s t r).lcy.fuses = s.lcy.fuses ∧
    (State.insertAll s t r).mem = s.mem ∧
    (State.insertAll s t r).chk = s.chk := by
  unfold State.insertAll; (repeat' split) <;> (try simp) <;> (repeat' split) <;> (try simp)

@[simp] theorem State.trimTimebase_keeps (s : State) :
    (State.trimTimebase s).pending = s.pending ∧
    (State.trimTimebase s).lcy.fuses = s.lcy.fuses ∧
    (State.trimTimebase s).mem = s.mem ∧
    (State.trimTimebase s).chk = s.chk := by
  unfold State.trimTimebase; (repeat' split) <;> (try simp) <;> (repeat' split) <;> (try simp)

@[simp] theorem State.startAcquire_keeps (s : State) :
    (State.startAcquire s).pending = s.pending ∧
    (State.startAcquire s).lcy.fuses = s.lcy.fuses ∧
    (State.startAcquire s).mem = s.mem ∧
    (State.startAcquire s).chk = s.chk := by
  unfold State.startAcquire; (repeat' split) <;> (try simp) <;> (repeat' split) <;> (try simp)

@[simp] theorem State.restartAcquire_keeps (s : State) :
    (State.restartAcquire s).pending = s.pending ∧
    (State.restartAcquire s).lcy.fuses = s.lcy.fuses ∧
    (State.restartAcquire s).mem = s.mem ∧
    (State.restartAcquire s).chk = s.chk := by
  unfold State.restartAcquire; (repeat' split) <;> (try simp) <;> (repeat' split) <;> (try simp)

@[simp] theorem State.acquireQualified_keeps (s : State) :
    (State.acquireQualified s).pending = s.pending ∧
    (State.acquireQualified s).lcy.fuses = s.lcy.fuses ∧
    (State.acquireQualified s).mem = s.mem ∧
    (State.acquireQualified s).chk = s.chk := by
  unfold State.acquireQualified; (repeat' split) <;> (try simp) <;> (repeat' split) <;> (try simp)

@[simp] theorem State.lockCheck_keeps (s : State) (meanErr : Int) (anchor : Instant) :
    (State.lockCheck s meanErr anchor).pending = s.pending ∧
    (State.lockCheck s meanErr anchor).lcy.fuses = s.lcy.fuses ∧
    (State.lockCheck s meanErr anchor).mem = s.mem ∧
    (State.lockCheck s meanErr anchor).chk = s.chk := by
  unfold State.lockCheck; (repeat' split) <;> (try simp) <;> (repeat' split) <;> (try simp)

@[simp] theorem State.locksRestart_keeps (s : State) :
    (State.locksRestart s).pending = s.pending ∧
    (State.locksRestart s).lcy.fuses = s.lcy.fuses ∧
    (State.locksRestart s).mem = s.mem ∧
    (State.locksRestart s).chk = s.chk := by
  unfold State.locksRestart; (repeat' split) <;> (try simp) <;> (repeat' split) <;> (try simp)

@[simp] theorem State.refinLossInAcquire_keeps (s : State) (t0 : Instant) (absent : Bool) :
    (State.refinLossInAcquire s t0 absent).pending = s.pending ∧
    (State.refinLossInAcquire s t0 absent).lcy.fuses = s.lcy.fuses ∧
    (State.refinLossInAcquire s t0 absent).mem = s.mem ∧
    (State.refinLossInAcquire s t0 absent).chk = s.chk := by
  unfold State.refinLossInAcquire; (try dsimp only); (repeat' split) <;> (try simp) <;> (repeat' split) <;> (try simp)

@[simp] theorem State.declareLoss_keeps (s : State) (last : Instant) :
    (State.declareLoss s last).pending = s.pending ∧
    (State.declareLoss s last).lcy.fuses = s.lcy.fuses ∧
    (State.declareLoss s last).mem = s.mem ∧
    (State.declareLoss s last).chk = s.chk := by
  unfold State.declareLoss; (repeat' split) <;> (try simp) <;> (repeat' split) <;> (try simp)

@[simp] theorem State.follow_keeps (s : State) (edges : List Instant) :
    (State.follow s edges).pending = s.pending ∧
    (State.follow s edges).lcy.fuses = s.lcy.fuses ∧
    (State.follow s edges).mem = s.mem ∧
    (State.follow s edges).chk = s.chk := by
  unfold State.follow; (repeat' split) <;> (try simp) <;> (repeat' split) <;> (try simp)

@[simp] theorem State.lossOfReference_keeps (s : State) (byPhase : Bool) (edges : List Instant) :
    (State.lossOfReference s byPhase edges).pending = s.pending ∧
    (State.lossOfReference s byPhase edges).lcy.fuses = s.lcy.fuses ∧
    (State.lossOfReference s byPhase edges).mem = s.mem ∧
    (State.lossOfReference s byPhase edges).chk = s.chk := by
  unfold State.lossOfReference; (try dsimp only); (repeat' split) <;> (try simp) <;> (repeat' split) <;> (try simp)

@[simp] theorem State.qualifyStart_keeps (s : State) (t0 : Instant) :
    (State.qualifyStart s t0).pending = s.pending ∧
    (State.qualifyStart s t0).lcy.fuses = s.lcy.fuses ∧
    (State.qualifyStart s t0).mem = s.mem ∧
    (State.qualifyStart s t0).chk = s.chk := by
  unfold State.qualifyStart; (try dsimp only); (repeat' split) <;> (try simp) <;> (repeat' split) <;> (try simp)

@[simp] theorem State.subWindow_keeps (s : State) (freqPpb phaseShift : Int) (edges : List Int) (nextEdge : Instant) :
    (State.subWindow s freqPpb phaseShift edges nextEdge).pending = s.pending ∧
    (State.subWindow s freqPpb phaseShift edges nextEdge).lcy.fuses = s.lcy.fuses ∧
    (State.subWindow s freqPpb phaseShift edges nextEdge).mem = s.mem ∧
    (State.subWindow s freqPpb phaseShift edges nextEdge).chk = s.chk := by
  unfold State.subWindow; (repeat' split) <;> (try simp) <;> (repeat' split) <;> (try simp)

@[simp] theorem State.missingEdge_keeps (s : State) (t0 : Instant) :
    (State.missingEdge s t0).pending = s.pending ∧
    (State.missingEdge s t0).lcy.fuses = s.lcy.fuses ∧
    (State.missingEdge s t0).mem = s.mem ∧
    (State.missingEdge s t0).chk = s.chk := by
  unfold State.missingEdge; (try dsimp only); (repeat' split) <;> (try simp) <;> (repeat' split) <;> (try simp)

@[simp] theorem State.slewBegin_keeps (s : State) (t0 : Instant) :
    (State.slewBegin s t0).pending = s.pending ∧
    (State.slewBegin s t0).lcy.fuses = s.lcy.fuses ∧
    (State.slewBegin s t0).mem = s.mem ∧
    (State.slewBegin s t0).chk = s.chk := by
  unfold State.slewBegin; (repeat' split) <;> (try simp) <;> (repeat' split) <;> (try simp)

@[simp] theorem State.slewEnd_keeps (s : State) :
    (State.slewEnd s).pending = s.pending ∧
    (State.slewEnd s).lcy.fuses = s.lcy.fuses ∧
    (State.slewEnd s).mem = s.mem ∧
    (State.slewEnd s).chk = s.chk := by
  unfold State.slewEnd; (repeat' split) <;> (try simp) <;> (repeat' split) <;> (try simp)

@[simp] theorem State.settleWindowEnd_keeps (s : State) (meanErr : Int) :
    (State.settleWindowEnd s meanErr).pending = s.pending ∧
    (State.settleWindowEnd s meanErr).lcy.fuses = s.lcy.fuses ∧
    (State.settleWindowEnd s meanErr).mem = s.mem ∧
    (State.settleWindowEnd s meanErr).chk = s.chk := by
  unfold State.settleWindowEnd; (repeat' split) <;> (try simp) <;> (repeat' split) <;> (try simp)

@[simp] theorem State.activeFault_keeps (s : State) :
    (State.activeFault s).pending = s.pending ∧
    (State.activeFault s).lcy.fuses = s.lcy.fuses ∧
    (State.activeFault s).mem = s.mem ∧
    (State.activeFault s).chk = s.chk := by
  unfold State.activeFault; (repeat' split) <;> (try simp) <;> (repeat' split) <;> (try simp)

@[simp] theorem State.standbyFault_keeps (s : State) :
    (State.standbyFault s).pending = s.pending ∧
    (State.standbyFault s).lcy.fuses = s.lcy.fuses ∧
    (State.standbyFault s).mem = s.mem ∧
    (State.standbyFault s).chk = s.chk := by
  unfold State.standbyFault; (repeat' split) <;> (try simp) <;> (repeat' split) <;> (try simp)

@[simp] theorem State.standbyLock_keeps (s : State) (t0 : Instant) (ab : Int) :
    (State.standbyLock s t0 ab).pending = s.pending ∧
    (State.standbyLock s t0 ab).lcy.fuses = s.lcy.fuses ∧
    (State.standbyLock s t0 ab).mem = s.mem ∧
    (State.standbyLock s t0 ab).chk = s.chk := by
  unfold State.standbyLock; (repeat' split) <;> (try simp) <;> (repeat' split) <;> (try simp)

/-! ## Stream -/


@[simp] theorem State.consume_keeps (s : State) (c : Chan) (k : Input) :
    (State.consume s c k).pending = s.pending ∧
    (State.consume s c k).lcy.fuses = s.lcy.fuses ∧
    (State.consume s c k).mem = s.mem ∧
    (State.consume s c k).chk = s.chk := by
  unfold State.consume; (repeat' split) <;> (try simp) <;> (repeat' split) <;> (try simp)

@[simp] theorem State.mergeRead_keeps (s : State) (c : Chan) :
    (State.mergeRead s c).pending = s.pending ∧
    (State.mergeRead s c).lcy.fuses = s.lcy.fuses ∧
    (State.mergeRead s c).mem = s.mem ∧
    (State.mergeRead s c).chk = s.chk := by
  unfold State.mergeRead; (repeat' split) <;> (try simp) <;> (repeat' split) <;> (try simp)

@[simp] theorem State.mergeResume_keeps (s : State) (c : Chan) :
    (State.mergeResume s c).pending = s.pending ∧
    (State.mergeResume s c).lcy.fuses = s.lcy.fuses ∧
    (State.mergeResume s c).mem = s.mem ∧
    (State.mergeResume s c).chk = s.chk := by
  unfold State.mergeResume; (repeat' split) <;> (try simp) <;> (repeat' split) <;> (try simp)

/-! ## Capture -/


@[simp] theorem State.setFolio_keeps (s : State) (i : Nat) (f : Folio) :
    (State.setFolio s i f).pending = s.pending ∧
    (State.setFolio s i f).lcy.fuses = s.lcy.fuses ∧
    (State.setFolio s i f).mem = s.mem ∧
    (State.setFolio s i f).chk = s.chk := by
  unfold State.setFolio; (repeat' split) <;> (try simp) <;> (repeat' split) <;> (try simp)

@[simp] theorem State.modFolio_keeps (s : State) (i : Nat) (f : Folio → Folio) :
    (State.modFolio s i f).pending = s.pending ∧
    (State.modFolio s i f).lcy.fuses = s.lcy.fuses ∧
    (State.modFolio s i f).mem = s.mem ∧
    (State.modFolio s i f).chk = s.chk := by
  unfold State.modFolio; (repeat' split) <;> (try simp) <;> (repeat' split) <;> (try simp)

@[simp] theorem State.rePartner_keeps (s : State) (c : Chan) (old : Option LaneIx) (t : Int) (idle : Bool) :
    (State.rePartner s c old t idle).pending = s.pending ∧
    (State.rePartner s c old t idle).lcy.fuses = s.lcy.fuses ∧
    (State.rePartner s c old t idle).mem = s.mem ∧
    (State.rePartner s c old t idle).chk = s.chk := by
  unfold State.rePartner; (repeat' split) <;> (try simp) <;> (repeat' split) <;> (try simp)

@[simp] theorem State.applyForme_keeps (s : State) (c : Chan) (t : Int) (idle : Bool) :
    (State.applyForme s c t idle).1.pending = s.pending ∧
    (State.applyForme s c t idle).1.lcy.fuses = s.lcy.fuses ∧
    (State.applyForme s c t idle).1.mem = s.mem ∧
    (State.applyForme s c t idle).1.chk = s.chk := by
  unfold State.applyForme; (repeat' split) <;> (try simp) <;> (repeat' split) <;> (try simp)

@[simp] theorem State.applyPlaces_keeps (s : State) (c : Chan) :
    (State.applyPlaces s c).pending = s.pending ∧
    (State.applyPlaces s c).lcy.fuses = s.lcy.fuses ∧
    (State.applyPlaces s c).mem = s.mem ∧
    (State.applyPlaces s c).chk = s.chk := by
  unfold State.applyPlaces; (repeat' split) <;> (try simp) <;> (repeat' split) <;> (try simp)

@[simp] theorem State.applyStaged_keeps (s : State) (c : Chan) (t : Int) (idle : Bool) :
    (State.applyStaged s c t idle).1.pending = s.pending ∧
    (State.applyStaged s c t idle).1.lcy.fuses = s.lcy.fuses ∧
    (State.applyStaged s c t idle).1.mem = s.mem ∧
    (State.applyStaged s c t idle).1.chk = s.chk := by
  have k := State.applyForme_keeps s c t idle
  unfold State.applyStaged; rcases h : s.applyForme c t idle with ⟨s1, p⟩
  simp only [h] at k ⊢; (repeat' split) <;> (try simp) <;> (repeat' split) <;> (try simp) <;> simp [k]

@[simp] theorem State.formeDone_keeps (s : State) :
    (State.formeDone s).pending = s.pending ∧
    (State.formeDone s).lcy.fuses = s.lcy.fuses ∧
    (State.formeDone s).mem = s.mem ∧
    (State.formeDone s).chk = s.chk := by
  unfold State.formeDone; (repeat' split) <;> (try simp) <;> (repeat' split) <;> (try simp)

@[simp] theorem State.startReload_keeps (s : State) (c : Chan) (t : Instant) :
    (State.startReload s c t).pending = s.pending ∧
    (State.startReload s c t).lcy.fuses = s.lcy.fuses ∧
    (State.startReload s c t).mem = s.mem ∧
    (State.startReload s c t).chk = s.chk := by
  unfold State.startReload; (repeat' split) <;> (try simp) <;> (repeat' split) <;> (try simp)

@[simp] theorem State.openRecord_keeps (s : State) (c : Chan) (n : Nat) (o base a shift : Int) (pl : Placement) (p : RecPlace) :
    (State.openRecord s c n o base a shift pl p).pending = s.pending ∧
    (State.openRecord s c n o base a shift pl p).lcy.fuses = s.lcy.fuses ∧
    (State.openRecord s c n o base a shift pl p).mem = s.mem ∧
    (State.openRecord s c n o base a shift pl p).chk = s.chk := by
  unfold State.openRecord; (repeat' split) <;> (try simp) <;> (repeat' split) <;> (try simp)

@[simp] theorem State.purge_keeps (s : State) (c : Chan) (t : Nat) :
    (State.purge s c t).pending = s.pending ∧
    (State.purge s c t).lcy.fuses = s.lcy.fuses ∧
    (State.purge s c t).mem = s.mem ∧
    (State.purge s c t).chk = s.chk := by
  unfold State.purge; (repeat' split) <;> (try simp) <;> (repeat' split) <;> (try simp)

@[simp] theorem State.takeWaiting_keeps (s : State) (c : Chan) (n : Nat) :
    (State.takeWaiting s c n).pending = s.pending ∧
    (State.takeWaiting s c n).lcy.fuses = s.lcy.fuses ∧
    (State.takeWaiting s c n).mem = s.mem ∧
    (State.takeWaiting s c n).chk = s.chk := by
  unfold State.takeWaiting; (repeat' split) <;> (try simp) <;> (repeat' split) <;> (try simp)

@[simp] theorem State.firstRecord_keeps (s : State) (c : Chan) (t : Instant) (scale : Int) :
    (State.firstRecord s c t scale).pending = s.pending ∧
    (State.firstRecord s c t scale).lcy.fuses = s.lcy.fuses ∧
    (State.firstRecord s c t scale).mem = s.mem ∧
    (State.firstRecord s c t scale).chk = s.chk := by
  unfold State.firstRecord; (repeat' split) <;> (try simp) <;> (repeat' split) <;> (try simp)

@[simp] theorem State.armAtInstant_keeps (s0 : State) (c : Chan) (t : Instant) :
    (State.armAtInstant s0 c t).pending = s0.pending ∧
    (State.armAtInstant s0 c t).lcy.fuses = s0.lcy.fuses ∧
    (State.armAtInstant s0 c t).mem = s0.mem ∧
    (State.armAtInstant s0 c t).chk = s0.chk := by
  unfold State.armAtInstant; (repeat' split) <;> (try simp) <;> (repeat' split) <;> (try simp)

@[simp] theorem State.disarmed_keeps (s : State) (c : Chan) :
    (State.disarmed s c).pending = s.pending ∧
    (State.disarmed s c).lcy.fuses = s.lcy.fuses ∧
    (State.disarmed s c).mem = s.mem ∧
    (State.disarmed s c).chk = s.chk := by
  unfold State.disarmed; (repeat' split) <;> (try simp) <;> (repeat' split) <;> (try simp)

@[simp] theorem State.sscLock_keeps (s : State) (k : Synth) :
    (State.sscLock s k).pending = s.pending ∧
    (State.sscLock s k).lcy.fuses = s.lcy.fuses ∧
    (State.sscLock s k).mem = s.mem ∧
    (State.sscLock s k).chk = s.chk := by
  unfold State.sscLock; (repeat' split) <;> (try simp)

@[simp] theorem State.sscApply_keeps (s : State) :
    (State.sscApply s).pending = s.pending ∧
    (State.sscApply s).lcy.fuses = s.lcy.fuses ∧
    (State.sscApply s).mem = s.mem ∧
    (State.sscApply s).chk = s.chk := by
  unfold State.sscApply; (repeat' split) <;> (try simp) <;> (repeat' split) <;> (try simp)

@[simp] theorem State.showTrigger_keeps (s : State) (c : Chan) (old : Trigger) :
    (State.showTrigger s c old).pending = s.pending ∧
    (State.showTrigger s c old).lcy.fuses = s.lcy.fuses ∧
    (State.showTrigger s c old).mem = s.mem ∧
    (State.showTrigger s c old).chk = s.chk := by
  unfold State.showTrigger; (repeat' split) <;> (try simp) <;> (repeat' split) <;> (try simp)

@[simp] theorem State.disarm_keeps (s : State) (c : Chan) (t : Instant) (flags : Word) :
    (State.disarm s c t flags).pending = s.pending ∧
    (State.disarm s c t flags).lcy.fuses = s.lcy.fuses ∧
    (State.disarm s c t flags).mem = s.mem ∧
    (State.disarm s c t flags).chk = s.chk := by
  unfold State.disarm; (repeat' split) <;> (try simp) <;> (repeat' split) <;> (try simp)

@[simp] theorem State.stop_keeps (s : State) (c : Chan) (n : Nat) :
    (State.stop s c n).pending = s.pending ∧
    (State.stop s c n).lcy.fuses = s.lcy.fuses ∧
    (State.stop s c n).mem = s.mem ∧
    (State.stop s c n).chk = s.chk := by
  unfold State.stop; (repeat' split) <;> (try simp) <;> (repeat' split) <;> (try simp)

@[simp] theorem State.closeFolio_keeps (s : State) (x : Channel) (flags : Word) :
    (State.closeFolio s x flags).pending = s.pending ∧
    (State.closeFolio s x flags).lcy.fuses = s.lcy.fuses ∧
    (State.closeFolio s x flags).mem = s.mem ∧
    (State.closeFolio s x flags).chk = s.chk := by
  unfold State.closeFolio; (repeat' split) <;> (try simp) <;> (repeat' split) <;> (try simp)

@[simp] theorem State.startTrim_keeps (s : State) (c : Chan) (w0 : Instant) (wasArmed wasHeld : Bool) :
    (State.startTrim s c w0 wasArmed wasHeld).pending = s.pending ∧
    (State.startTrim s c w0 wasArmed wasHeld).lcy.fuses = s.lcy.fuses ∧
    (State.startTrim s c w0 wasArmed wasHeld).mem = s.mem ∧
    (State.startTrim s c w0 wasArmed wasHeld).chk = s.chk := by
  unfold State.startTrim; (repeat' split) <;> (try simp) <;> (repeat' split) <;> (try simp)

@[simp] theorem State.requestOff_keeps (s : State) (c : Chan) :
    (State.requestOff s c).pending = s.pending ∧
    (State.requestOff s c).lcy.fuses = s.lcy.fuses ∧
    (State.requestOff s c).mem = s.mem ∧
    (State.requestOff s c).chk = s.chk := by
  unfold State.requestOff; (repeat' split) <;> (try simp) <;> (repeat' split) <;> (try simp)

@[simp] theorem State.settleIdle_keeps (s : State) (c : Chan) :
    (State.settleIdle s c).pending = s.pending ∧
    (State.settleIdle s c).lcy.fuses = s.lcy.fuses ∧
    (State.settleIdle s c).mem = s.mem ∧
    (State.settleIdle s c).chk = s.chk := by
  have k := State.applyStaged_keeps s c (lsbUp s.now) true
  unfold State.settleIdle; rcases h : s.applyStaged c (lsbUp s.now) true with ⟨s1, p⟩
  simp only [h] at k ⊢; (repeat' split) <;> (try simp) <;> (repeat' split) <;> (try simp) <;> simp [k]

@[simp] theorem State.endOfArm_keeps (s : State) (c : Chan) :
    (State.endOfArm s c).pending = s.pending ∧
    (State.endOfArm s c).lcy.fuses = s.lcy.fuses ∧
    (State.endOfArm s c).mem = s.mem ∧
    (State.endOfArm s c).chk = s.chk := by
  unfold State.endOfArm; (repeat' split) <;> (try simp) <;> (repeat' split) <;> (try simp)

@[simp] theorem State.recordBoundary_keeps (s : State) (c : Chan) (n : Nat) (closeTo : Bool) :
    (State.recordBoundary s c n closeTo).pending = s.pending ∧
    (State.recordBoundary s c n closeTo).lcy.fuses = s.lcy.fuses ∧
    (State.recordBoundary s c n closeTo).mem = s.mem ∧
    (State.recordBoundary s c n closeTo).chk = s.chk := by
  unfold State.recordBoundary; (repeat' split) <;> (try simp) <;> (repeat' split) <;> (try simp)

@[simp] theorem State.folderIntake_keeps (s : State) (c : Chan) :
    (State.folderIntake s c).pending = s.pending ∧
    (State.folderIntake s c).lcy.fuses = s.lcy.fuses ∧
    (State.folderIntake s c).mem = s.mem ∧
    (State.folderIntake s c).chk = s.chk := by
  unfold State.folderIntake; (repeat' split) <;> (try simp) <;> (repeat' split) <;> (try simp)

@[simp] theorem State.unitAt_keeps (s : State) (c : Chan) (t : Option Int) (f : Nat → Int → Channel → Channel) :
    (State.unitAt s c t f).pending = s.pending ∧
    (State.unitAt s c t f).lcy.fuses = s.lcy.fuses ∧
    (State.unitAt s c t f).mem = s.mem ∧
    (State.unitAt s c t f).chk = s.chk := by
  unfold State.unitAt; (repeat' split) <;> (try simp) <;> (repeat' split) <;> (try simp)

@[simp] theorem State.gateClose_keeps (s : State) (c : Chan) :
    (State.gateClose s c).pending = s.pending ∧
    (State.gateClose s c).lcy.fuses = s.lcy.fuses ∧
    (State.gateClose s c).mem = s.mem ∧
    (State.gateClose s c).chk = s.chk := by
  unfold State.gateClose; (repeat' split) <;> (try simp) <;> (repeat' split) <;> (try simp)

@[simp] theorem State.reductionClose_keeps (s : State) (c : Chan) :
    (State.reductionClose s c).pending = s.pending ∧
    (State.reductionClose s c).lcy.fuses = s.lcy.fuses ∧
    (State.reductionClose s c).mem = s.mem ∧
    (State.reductionClose s c).chk = s.chk := by
  unfold State.reductionClose; (repeat' split) <;> (try simp) <;> (repeat' split) <;> (try simp)

@[simp] theorem State.phaseSample_keeps (s : State) (c : Chan) :
    (State.phaseSample s c).pending = s.pending ∧
    (State.phaseSample s c).lcy.fuses = s.lcy.fuses ∧
    (State.phaseSample s c).mem = s.mem ∧
    (State.phaseSample s c).chk = s.chk := by
  unfold State.phaseSample; (repeat' split) <;> (try simp) <;> (repeat' split) <;> (try simp)

@[simp] theorem State.maskWindowClose_keeps (s : State) (c : Chan) :
    (State.maskWindowClose s c).pending = s.pending ∧
    (State.maskWindowClose s c).lcy.fuses = s.lcy.fuses ∧
    (State.maskWindowClose s c).mem = s.mem ∧
    (State.maskWindowClose s c).chk = s.chk := by
  unfold State.maskWindowClose; (repeat' split) <;> (try simp) <;> (repeat' split) <;> (try simp)

@[simp] theorem State.post_keeps (s : State) (c : Chan) (n : Nat) (v : Ev) (rest : List Ev) :
    (State.post s c n v rest).pending = s.pending ∧
    (State.post s c n v rest).lcy.fuses = s.lcy.fuses ∧
    (State.post s c n v rest).mem = s.mem ∧
    (State.post s c n v rest).chk = s.chk := by
  unfold State.post; (repeat' split) <;> (try simp) <;> (repeat' split) <;> (try simp)

@[simp] theorem State.eventPost_keeps (s : State) (c : Chan) :
    (State.eventPost s c).pending = s.pending ∧
    (State.eventPost s c).lcy.fuses = s.lcy.fuses ∧
    (State.eventPost s c).mem = s.mem ∧
    (State.eventPost s c).chk = s.chk := by
  unfold State.eventPost; (repeat' split) <;> (try simp) <;> (repeat' split) <;> (try simp)

@[simp] theorem State.folderResume_keeps (s : State) (c : Chan) :
    (State.folderResume s c).pending = s.pending ∧
    (State.folderResume s c).lcy.fuses = s.lcy.fuses ∧
    (State.folderResume s c).mem = s.mem ∧
    (State.folderResume s c).chk = s.chk := by
  unfold State.folderResume; (repeat' split) <;> (try simp) <;> (repeat' split) <;> (try simp)

@[simp] theorem State.imageReload_keeps (s : State) (c : Chan) :
    (State.imageReload s c).pending = s.pending ∧
    (State.imageReload s c).lcy.fuses = s.lcy.fuses ∧
    (State.imageReload s c).mem = s.mem ∧
    (State.imageReload s c).chk = s.chk := by
  unfold State.imageReload; (repeat' split) <;> (try simp) <;> (repeat' split) <;> (try simp)

@[simp] theorem State.heldRearm_keeps (s : State) (c : Chan) :
    (State.heldRearm s c).pending = s.pending ∧
    (State.heldRearm s c).lcy.fuses = s.lcy.fuses ∧
    (State.heldRearm s c).mem = s.mem ∧
    (State.heldRearm s c).chk = s.chk := by
  unfold State.heldRearm; (repeat' split) <;> (try simp) <;> (repeat' split) <;> (try simp)

@[simp] theorem State.formeRearm_keeps (s : State) (c : Chan) :
    (State.formeRearm s c).pending = s.pending ∧
    (State.formeRearm s c).lcy.fuses = s.lcy.fuses ∧
    (State.formeRearm s c).mem = s.mem ∧
    (State.formeRearm s c).chk = s.chk := by
  unfold State.formeRearm; (repeat' split) <;> (try simp) <;> (repeat' split) <;> (try simp)

/-! ## Trigger -/


@[simp] theorem State.crossTo_keeps (s : State) (c : Chan) (n k : Nat) :
    (s.crossTo c n k).pending = s.pending ∧ (s.crossTo c n k).lcy.fuses = s.lcy.fuses ∧
    (s.crossTo c n k).mem = s.mem ∧ (s.crossTo c n k).chk = s.chk := by
  induction k generalizing s with
  | zero => simp [State.crossTo]
  | succ k ih => unfold State.crossTo; (repeat' split) <;> simp [ih]

@[simp] theorem State.triggerCondition_keeps (s : State) (c : Chan) :
    (State.triggerCondition s c).pending = s.pending ∧
    (State.triggerCondition s c).lcy.fuses = s.lcy.fuses ∧
    (State.triggerCondition s c).mem = s.mem ∧
    (State.triggerCondition s c).chk = s.chk := by
  unfold State.triggerCondition; (repeat' split) <;> (try simp) <;> (repeat' split) <;> (try simp)

@[simp] theorem State.collectEnd_keeps (s : State) (c : Chan) :
    (State.collectEnd s c).pending = s.pending ∧
    (State.collectEnd s c).lcy.fuses = s.lcy.fuses ∧
    (State.collectEnd s c).mem = s.mem ∧
    (State.collectEnd s c).chk = s.chk := by
  unfold State.collectEnd; (repeat' split) <;> (try simp) <;> (repeat' split) <;> (try simp)

@[simp] theorem State.holdoffEnd_keeps (s : State) (c : Chan) :
    (State.holdoffEnd s c).pending = s.pending ∧
    (State.holdoffEnd s c).lcy.fuses = s.lcy.fuses ∧
    (State.holdoffEnd s c).mem = s.mem ∧
    (State.holdoffEnd s c).chk = s.chk := by
  unfold State.holdoffEnd; (repeat' split) <;> (try simp) <;> (repeat' split) <;> (try simp)

/-! ## Scale -/

@[simp] theorem State.reopen_keeps (s : State) (c : Chan) (t : Instant) :
    (State.reopen s c t).pending = s.pending ∧
    (State.reopen s c t).lcy.fuses = s.lcy.fuses ∧
    (State.reopen s c t).mem = s.mem ∧
    (State.reopen s c t).chk = s.chk := by
  unfold State.reopen; (repeat' split) <;> (try simp) <;> (repeat' split) <;> (try simp)

@[simp] theorem State.discontinuity_keeps (s : State) (t : Instant) (cause : BitVec 2) (step : Int) :
    (State.discontinuity s t cause step).pending = s.pending ∧
    (State.discontinuity s t cause step).lcy.fuses = s.lcy.fuses ∧
    (State.discontinuity s t cause step).mem = s.mem ∧
    (State.discontinuity s t cause step).chk = s.chk := by
  unfold State.discontinuity; (repeat' split) <;> (try simp) <;> (repeat' split) <;> (try simp)

@[simp] theorem State.restartSpan_keeps (s : State) :
    (State.restartSpan s).pending = s.pending ∧
    (State.restartSpan s).lcy.fuses = s.lcy.fuses ∧
    (State.restartSpan s).mem = s.mem ∧
    (State.restartSpan s).chk = s.chk := by
  unfold State.restartSpan; (repeat' split) <;> (try simp) <;> (repeat' split) <;> (try simp)

@[simp] theorem State.epochMark_keeps (s : State) (t0 : Instant) :
    (State.epochMark s t0).pending = s.pending ∧
    (State.epochMark s t0).lcy.fuses = s.lcy.fuses ∧
    (State.epochMark s t0).mem = s.mem ∧
    (State.epochMark s t0).chk = s.chk := by
  unfold State.epochMark; (repeat' split) <;> (try simp) <;> (repeat' split) <;> (try simp)

@[simp] theorem State.reanchor_keeps (s : State) (t0 : Instant) :
    (State.reanchor s t0).pending = s.pending ∧
    (State.reanchor s t0).lcy.fuses = s.lcy.fuses ∧
    (State.reanchor s t0).mem = s.mem ∧
    (State.reanchor s t0).chk = s.chk := by
  unfold State.reanchor; (repeat' split) <;> (try simp) <;> (repeat' split) <;> (try simp)

@[simp] theorem State.switchOver_keeps (s : State) (t0 : Instant) (abMean : Int) :
    (State.switchOver s t0 abMean).pending = s.pending ∧
    (State.switchOver s t0 abMean).lcy.fuses = s.lcy.fuses ∧
    (State.switchOver s t0 abMean).mem = s.mem ∧
    (State.switchOver s t0 abMean).chk = s.chk := by
  unfold State.switchOver; (repeat' split) <;> (try simp) <;> (repeat' split) <;> (try simp)

end Sys2Proof.Machine
end

