-- ==== Sys2Proof/Laws/KeepsEngine.lean ====
section
/-! SUPPORT. The queue of waiting commands, the fuses, the galley and its check bits under each operation: what the engine, placement, SYNC, trim and thermal operations keep. -/

namespace Sys2Proof.Machine

set_option linter.unreachableTactic false
set_option linter.unusedTactic false
set_option linter.unnecessarySeqFocus false
set_option linter.unusedSimpArgs false

/-! ## Engine -/


@[simp] theorem State.engineFault_keeps (s : State) (c : Chan) (n : Nat) (code : BitVec 4) :
    (State.engineFault s c n code).pending = s.pending ∧
    (State.engineFault s c n code).lcy.fuses = s.lcy.fuses ∧
    (State.engineFault s c n code).mem = s.mem ∧
    (State.engineFault s c n code).chk = s.chk := by
  unfold State.engineFault; (repeat' split) <;> (try simp) <;> (repeat' split) <;> (try simp)

@[simp] theorem State.engStep_pending (s : State) (c : Chan) (i : Instr) (k : Nat) (f : Nat → State → State)
    (h : ∀ n z, (f n z).pending = z.pending) :
    (s.engStep c i k f).pending = s.pending := by
  unfold State.engStep; (repeat' split) <;> (try simp [h]) <;> (repeat' split) <;> (try simp [h])
@[simp] theorem State.engStep_fuses (s : State) (c : Chan) (i : Instr) (k : Nat) (f : Nat → State → State)
    (h : ∀ n z, (f n z).lcy.fuses = z.lcy.fuses) :
    (s.engStep c i k f).lcy.fuses = s.lcy.fuses := by
  unfold State.engStep; (repeat' split) <;> (try simp [h]) <;> (repeat' split) <;> (try simp [h])
@[simp] theorem State.engStep_mem (s : State) (c : Chan) (i : Instr) (k : Nat) (f : Nat → State → State)
    (h : ∀ n z, (f n z).mem = z.mem) :
    (s.engStep c i k f).mem = s.mem := by
  unfold State.engStep; (repeat' split) <;> (try simp [h]) <;> (repeat' split) <;> (try simp [h])
@[simp] theorem State.engStep_chk (s : State) (c : Chan) (i : Instr) (k : Nat) (f : Nat → State → State)
    (h : ∀ n z, (f n z).chk = z.chk) :
    (s.engStep c i k f).chk = s.chk := by
  unfold State.engStep; (repeat' split) <;> (try simp [h]) <;> (repeat' split) <;> (try simp [h])

@[simp] theorem State.engOp_keeps (s : State) (c : Chan) (i : Instr) (k : Nat) (f : Engine → Engine) :
    (State.engOp s c i k f).pending = s.pending ∧
    (State.engOp s c i k f).lcy.fuses = s.lcy.fuses ∧
    (State.engOp s c i k f).mem = s.mem ∧
    (State.engOp s c i k f).chk = s.chk := by
  unfold State.engOp; (repeat' split) <;> (try simp) <;> (repeat' split) <;> (try simp)

@[simp] theorem State.engLoad_keeps (s : State) (c : Chan) (i : Instr) (wide : Bool) (addr : Engine → Dword) (f : List Dword → Engine → Engine) :
    (State.engLoad s c i wide addr f).pending = s.pending ∧
    (State.engLoad s c i wide addr f).lcy.fuses = s.lcy.fuses ∧
    (State.engLoad s c i wide addr f).mem = s.mem ∧
    (State.engLoad s c i wide addr f).chk = s.chk := by
  unfold State.engLoad
  refine ⟨State.engStep_pending _ _ _ _ _ ?_, State.engStep_fuses _ _ _ _ _ ?_, State.engStep_mem _ _ _ _ _ ?_, State.engStep_chk _ _ _ _ _ ?_⟩ <;> intro n z <;> (repeat' split) <;> (try simp) <;> (repeat' split) <;> (try simp)

@[simp] theorem State.engStore_keeps (s : State) (c : Chan) (i : Instr) (wide : Bool) (k : Nat) (addr : Engine → Dword) (f : Engine → List Dword) :
    (State.engStore s c i wide k addr f).pending = s.pending ∧
    (State.engStore s c i wide k addr f).lcy.fuses = s.lcy.fuses ∧
    (State.engStore s c i wide k addr f).mem = s.mem ∧
    (State.engStore s c i wide k addr f).chk = s.chk := by
  unfold State.engStore
  refine ⟨State.engStep_pending _ _ _ _ _ ?_, State.engStep_fuses _ _ _ _ _ ?_, State.engStep_mem _ _ _ _ _ ?_, State.engStep_chk _ _ _ _ _ ?_⟩ <;> intro n z <;> (repeat' split) <;> (try simp) <;> (repeat' split) <;> (try simp)

@[simp] theorem State.evt_keeps (s : State) (c : Chan) (i : Instr) (d : BitVec 4) :
    (State.evt s c i d).pending = s.pending ∧
    (State.evt s c i d).lcy.fuses = s.lcy.fuses ∧
    (State.evt s c i d).mem = s.mem ∧
    (State.evt s c i d).chk = s.chk := by
  unfold State.evt; (repeat' split) <;> (try simp) <;> (repeat' split) <;> (try simp)

@[simp] theorem State.evtWaitEnd_keeps (s : State) (c : Chan) :
    (State.evtWaitEnd s c).pending = s.pending ∧
    (State.evtWaitEnd s c).lcy.fuses = s.lcy.fuses ∧
    (State.evtWaitEnd s c).mem = s.mem ∧
    (State.evtWaitEnd s c).chk = s.chk := by
  unfold State.evtWaitEnd; (repeat' split) <;> (try simp) <;> (repeat' split) <;> (try simp)

@[simp] theorem State.evtp_keeps (s : State) (c : Chan) (i : Instr) (d : BitVec 4) :
    (State.evtp s c i d).pending = s.pending ∧
    (State.evtp s c i d).lcy.fuses = s.lcy.fuses ∧
    (State.evtp s c i d).mem = s.mem ∧
    (State.evtp s c i d).chk = s.chk := by
  unfold State.evtp; (repeat' split) <;> (try simp) <;> (repeat' split) <;> (try simp)

@[simp] theorem State.emit_keeps (s : State) (c : Chan) (i : Instr) (a : BitVec 3) :
    (State.emit s c i a).pending = s.pending ∧
    (State.emit s c i a).lcy.fuses = s.lcy.fuses ∧
    (State.emit s c i a).mem = s.mem ∧
    (State.emit s c i a).chk = s.chk := by
  unfold State.emit; (repeat' split) <;> (try simp) <;> (repeat' split) <;> (try simp)

@[simp] theorem State.emitwEnd_keeps (s : State) (c : Chan) :
    (State.emitwEnd s c).pending = s.pending ∧
    (State.emitwEnd s c).lcy.fuses = s.lcy.fuses ∧
    (State.emitwEnd s c).mem = s.mem ∧
    (State.emitwEnd s c).chk = s.chk := by
  unfold State.emitwEnd; (repeat' split) <;> (try simp) <;> (repeat' split) <;> (try simp)

@[simp] theorem State.tokenRefill_keeps (s : State) (c : Chan) :
    (State.tokenRefill s c).pending = s.pending ∧
    (State.tokenRefill s c).lcy.fuses = s.lcy.fuses ∧
    (State.tokenRefill s c).mem = s.mem ∧
    (State.tokenRefill s c).chk = s.chk := by
  unfold State.tokenRefill; (repeat' split) <;> (try simp) <;> (repeat' split) <;> (try simp)

@[simp] theorem State.trigOp_keeps (s : State) (c : Chan) (i : Instr) (a : BitVec 4) :
    (State.trigOp s c i a).pending = s.pending ∧
    (State.trigOp s c i a).lcy.fuses = s.lcy.fuses ∧
    (State.trigOp s c i a).mem = s.mem ∧
    (State.trigOp s c i a).chk = s.chk := by
  unfold State.trigOp; (repeat' split) <;> (try simp) <;> (repeat' split) <;> (try simp)

@[simp] theorem State.stopIn_keeps (s : State) (c : Chan) (n : Nat) :
    (State.stopIn s c n).pending = s.pending ∧
    (State.stopIn s c n).lcy.fuses = s.lcy.fuses ∧
    (State.stopIn s c n).mem = s.mem ∧
    (State.stopIn s c n).chk = s.chk := by
  unfold State.stopIn; (repeat' split) <;> (try simp) <;> (repeat' split) <;> (try simp)

@[simp] theorem State.stopOp_keeps (s : State) (c : Chan) (i : Instr) :
    (State.stopOp s c i).pending = s.pending ∧
    (State.stopOp s c i).lcy.fuses = s.lcy.fuses ∧
    (State.stopOp s c i).mem = s.mem ∧
    (State.stopOp s c i).chk = s.chk := by
  unfold State.stopOp; (repeat' split) <;> (try simp) <;> (repeat' split) <;> (try simp)

@[simp] theorem State.haltOp_keeps (s : State) (c : Chan) (i : Instr) :
    (State.haltOp s c i).pending = s.pending ∧
    (State.haltOp s c i).lcy.fuses = s.lcy.fuses ∧
    (State.haltOp s c i).mem = s.mem ∧
    (State.haltOp s c i).chk = s.chk := by
  unfold State.haltOp; (repeat' split) <;> (try simp) <;> (repeat' split) <;> (try simp)

@[simp] theorem State.gset_keeps (s : State) (c : Chan) (i : Instr) (a : BitVec 4) :
    (State.gset s c i a).pending = s.pending ∧
    (State.gset s c i a).lcy.fuses = s.lcy.fuses ∧
    (State.gset s c i a).mem = s.mem ∧
    (State.gset s c i a).chk = s.chk := by
  unfold State.gset; (repeat' split) <;> (try simp) <;> (repeat' split) <;> (try simp)

@[simp] theorem State.engineStart_keeps (s : State) (c : Chan) :
    (State.engineStart s c).pending = s.pending ∧
    (State.engineStart s c).lcy.fuses = s.lcy.fuses ∧
    (State.engineStart s c).mem = s.mem ∧
    (State.engineStart s c).chk = s.chk := by
  unfold State.engineStart; (repeat' split) <;> (try simp) <;> (repeat' split) <;> (try simp)

@[simp] theorem State.runaway_keeps (s : State) (c : Chan) :
    (State.runaway s c).pending = s.pending ∧
    (State.runaway s c).lcy.fuses = s.lcy.fuses ∧
    (State.runaway s c).mem = s.mem ∧
    (State.runaway s c).chk = s.chk := by
  unfold State.runaway; (repeat' split) <;> (try simp) <;> (repeat' split) <;> (try simp)

@[simp] theorem State.closeTo_keeps (s : State) (c : Chan) :
    (State.closeTo s c).pending = s.pending ∧
    (State.closeTo s c).lcy.fuses = s.lcy.fuses ∧
    (State.closeTo s c).mem = s.mem ∧
    (State.closeTo s c).chk = s.chk := by
  unfold State.closeTo; (repeat' split) <;> (try simp) <;> (repeat' split) <;> (try simp)

/-! ## Library -/

@[simp] theorem State.libTakeAt_keeps (s : State) (c : Chan) (n : Nat) (d : BitVec 4) (l : LibSt) :
    (State.libTakeAt s c n d l).pending = s.pending ∧
    (State.libTakeAt s c n d l).lcy.fuses = s.lcy.fuses ∧
    (State.libTakeAt s c n d l).mem = s.mem ∧
    (State.libTakeAt s c n d l).chk = s.chk := by
  unfold State.libTakeAt; (repeat' split) <;> (try simp) <;> (repeat' split) <;> (try simp)

@[simp] theorem State.libEvt_keeps (s : State) (c : Chan) (d : BitVec 4) (l : LibSt) :
    (State.libEvt s c d l).pending = s.pending ∧
    (State.libEvt s c d l).lcy.fuses = s.lcy.fuses ∧
    (State.libEvt s c d l).mem = s.mem ∧
    (State.libEvt s c d l).chk = s.chk := by
  unfold State.libEvt; (repeat' split) <;> (try simp) <;> (repeat' split) <;> (try simp)

@[simp] theorem State.libWaitEnd_keeps (s : State) (c : Chan) (l : LibSt) :
    (State.libWaitEnd s c l).pending = s.pending ∧
    (State.libWaitEnd s c l).lcy.fuses = s.lcy.fuses ∧
    (State.libWaitEnd s c l).mem = s.mem ∧
    (State.libWaitEnd s c l).chk = s.chk := by
  unfold State.libWaitEnd; (repeat' split) <;> (try simp) <;> (repeat' split) <;> (try simp)

@[simp] theorem State.libDue_pending (s : State) (c : Chan) (k : Nat) (f : Nat → State → State)
    (h : ∀ n z, (f n z).pending = z.pending) : (s.libDue c k f).pending = s.pending := by
  unfold State.libDue; (repeat' split) <;> (try simp [h]) <;> (repeat' split) <;> (try simp [h])
@[simp] theorem State.libDue_fuses (s : State) (c : Chan) (k : Nat) (f : Nat → State → State)
    (h : ∀ n z, (f n z).lcy.fuses = z.lcy.fuses) : (s.libDue c k f).lcy.fuses = s.lcy.fuses := by
  unfold State.libDue; (repeat' split) <;> (try simp [h]) <;> (repeat' split) <;> (try simp [h])
@[simp] theorem State.libDue_mem (s : State) (c : Chan) (k : Nat) (f : Nat → State → State)
    (h : ∀ n z, (f n z).mem = z.mem) : (s.libDue c k f).mem = s.mem := by
  unfold State.libDue; (repeat' split) <;> (try simp [h]) <;> (repeat' split) <;> (try simp [h])
@[simp] theorem State.libDue_chk (s : State) (c : Chan) (k : Nat) (f : Nat → State → State)
    (h : ∀ n z, (f n z).chk = z.chk) : (s.libDue c k f).chk = s.chk := by
  unfold State.libDue; (repeat' split) <;> (try simp [h]) <;> (repeat' split) <;> (try simp [h])

@[simp] theorem State.libEmit_keeps (s : State) (c : Chan) (l : LibSt) :
    (State.libEmit s c l).pending = s.pending ∧
    (State.libEmit s c l).lcy.fuses = s.lcy.fuses ∧
    (State.libEmit s c l).mem = s.mem ∧
    (State.libEmit s c l).chk = s.chk := by
  unfold State.libEmit; (repeat' split) <;> (try simp) <;> (repeat' split) <;> (try simp)

@[simp] theorem State.libEmitEnd_keeps (s : State) (c : Chan) (l : LibSt) :
    (State.libEmitEnd s c l).pending = s.pending ∧
    (State.libEmitEnd s c l).lcy.fuses = s.lcy.fuses ∧
    (State.libEmitEnd s c l).mem = s.mem ∧
    (State.libEmitEnd s c l).chk = s.chk := by
  unfold State.libEmitEnd; (repeat' split) <;> (try simp) <;> (repeat' split) <;> (try simp)

@[simp] theorem State.libTrig_keeps (s : State) (c : Chan) (l : LibSt) :
    (State.libTrig s c l).pending = s.pending ∧
    (State.libTrig s c l).lcy.fuses = s.lcy.fuses ∧
    (State.libTrig s c l).mem = s.mem ∧
    (State.libTrig s c l).chk = s.chk := by
  unfold State.libTrig; (repeat' split) <;> (try simp) <;> (repeat' split) <;> (try simp)

@[simp] theorem State.libStop_keeps (s : State) (c : Chan) (l : LibSt) :
    (State.libStop s c l).pending = s.pending ∧
    (State.libStop s c l).lcy.fuses = s.lcy.fuses ∧
    (State.libStop s c l).mem = s.mem ∧
    (State.libStop s c l).chk = s.chk := by
  unfold State.libStop; (repeat' split) <;> (try simp) <;> (repeat' split) <;> (try simp)

/-! ## Placement -/


@[simp] theorem State.tableForce_keeps (s : State) :
    (State.tableForce s).pending = s.pending ∧
    (State.tableForce s).lcy.fuses = s.lcy.fuses ∧
    (State.tableForce s).mem = s.mem ∧
    (State.tableForce s).chk = s.chk := by
  unfold State.tableForce; (repeat' split) <;> (try simp) <;> (repeat' split) <;> (try simp)

@[simp] theorem State.fenceChan_keeps (s : State) (f : FencePend) (tf : Nat) (old : Placement) (c : Chan) :
    (State.fenceChan s f tf old c).pending = s.pending ∧
    (State.fenceChan s f tf old c).lcy.fuses = s.lcy.fuses ∧
    (State.fenceChan s f tf old c).mem = s.mem ∧
    (State.fenceChan s f tf old c).chk = s.chk := by
  unfold State.fenceChan; (repeat' split) <;> (try simp) <;> (repeat' split) <;> (try simp)

@[simp] theorem State.fence_keeps (s0 : State) :
    (State.fence s0).pending = s0.pending ∧
    (State.fence s0).lcy.fuses = s0.lcy.fuses ∧
    (State.fence s0).mem = s0.mem ∧
    (State.fence s0).chk = s0.chk := by
  unfold State.fence; (repeat' split) <;> (try simp) <;> (repeat' split) <;> (try simp)

/-! ## Sync -/


@[simp] theorem State.syncArm_keeps (s : State) (p : BitVec 28) (t : Instant) :
    (State.syncArm s p t).pending = s.pending ∧
    (State.syncArm s p t).lcy.fuses = s.lcy.fuses ∧
    (State.syncArm s p t).mem = s.mem ∧
    (State.syncArm s p t).chk = s.chk := by
  unfold State.syncArm; (repeat' split) <;> (try simp) <;> (repeat' split) <;> (try simp)

@[simp] theorem State.syncDisarm_keeps (s : State) (p : BitVec 28) (t : Instant) :
    (State.syncDisarm s p t).pending = s.pending ∧
    (State.syncDisarm s p t).lcy.fuses = s.lcy.fuses ∧
    (State.syncDisarm s p t).mem = s.mem ∧
    (State.syncDisarm s p t).chk = s.chk := by
  unfold State.syncDisarm; (repeat' split) <;> (try simp) <;> (repeat' split) <;> (try simp)

@[simp] theorem State.syncTrig_keeps (s : State) (p : BitVec 28) (t0 t : Instant) :
    (State.syncTrig s p t0 t).pending = s.pending ∧
    (State.syncTrig s p t0 t).lcy.fuses = s.lcy.fuses ∧
    (State.syncTrig s p t0 t).mem = s.mem ∧
    (State.syncTrig s p t0 t).chk = s.chk := by
  unfold State.syncTrig; (repeat' split) <;> (try simp) <;> (repeat' split) <;> (try simp)

@[simp] theorem State.syncStep_keeps (s : State) (p : BitVec 28) (v : Instant) :
    (State.syncStep s p v).pending = s.pending ∧
    (State.syncStep s p v).lcy.fuses = s.lcy.fuses ∧
    (State.syncStep s p v).mem = s.mem ∧
    (State.syncStep s p v).chk = s.chk := by
  unfold State.syncStep; (repeat' split) <;> (try simp) <;> (repeat' split) <;> (try simp)

@[simp] theorem State.syncEvent_keeps (s : State) (type : BitVec 4) (p : BitVec 28) (t0 : Instant) :
    (State.syncEvent s type p t0).pending = s.pending ∧
    (State.syncEvent s type p t0).lcy.fuses = s.lcy.fuses ∧
    (State.syncEvent s type p t0).mem = s.mem ∧
    (State.syncEvent s type p t0).chk = s.chk := by
  unfold State.syncEvent; (repeat' split) <;> (try simp) <;> (repeat' split) <;> (try simp)

@[simp] theorem State.syncWord_keeps (s : State) (t0 : Instant) (type : BitVec 4) (p : BitVec 28) (frameBreak : Bool) :
    (State.syncWord s t0 type p frameBreak).pending = s.pending ∧
    (State.syncWord s t0 type p frameBreak).lcy.fuses = s.lcy.fuses ∧
    (State.syncWord s t0 type p frameBreak).mem = s.mem ∧
    (State.syncWord s t0 type p frameBreak).chk = s.chk := by
  unfold State.syncWord; (try dsimp only); (repeat' split) <;> (try simp) <;> (repeat' split) <;> (try simp)

/-! ## Trims -/


@[simp] theorem State.acquisitionEnd_keeps (s : State) (c : Chan) (cells : List CellMeas) (agH agL : List Int) :
    (State.acquisitionEnd s c cells agH agL).pending = s.pending ∧
    (State.acquisitionEnd s c cells agH agL).lcy.fuses = s.lcy.fuses ∧
    (State.acquisitionEnd s c cells agH agL).mem = s.mem ∧
    (State.acquisitionEnd s c cells agH agL).chk = s.chk := by
  unfold State.acquisitionEnd; (repeat' split) <;> (try simp) <;> (repeat' split) <;> (try simp)

@[simp] theorem State.deskewPhase_keeps (s : State) (c : Chan) :
    (State.deskewPhase s c).pending = s.pending ∧
    (State.deskewPhase s c).lcy.fuses = s.lcy.fuses ∧
    (State.deskewPhase s c).mem = s.mem ∧
    (State.deskewPhase s c).chk = s.chk := by
  unfold State.deskewPhase; (repeat' split) <;> (try simp) <;> (repeat' split) <;> (try simp)

@[simp] theorem State.trimWindowEnd_keeps (s : State) (c : Chan) (edgesH edgesL : List Int) :
    (State.trimWindowEnd s c edgesH edgesL).pending = s.pending ∧
    (State.trimWindowEnd s c edgesH edgesL).lcy.fuses = s.lcy.fuses ∧
    (State.trimWindowEnd s c edgesH edgesL).mem = s.mem ∧
    (State.trimWindowEnd s c edgesH edgesL).chk = s.chk := by
  unfold State.trimWindowEnd; (repeat' split) <;> (try simp) <;> (repeat' split) <;> (try simp)

@[simp] theorem State.calibrate_keeps (s : State) (c : Chan) (cells deskew : Bool) :
    (State.calibrate s c cells deskew).pending = s.pending ∧
    (State.calibrate s c cells deskew).lcy.fuses = s.lcy.fuses ∧
    (State.calibrate s c cells deskew).mem = s.mem ∧
    (State.calibrate s c cells deskew).chk = s.chk := by
  unfold State.calibrate; (repeat' split) <;> (try simp) <;> (repeat' split) <;> (try simp)

@[simp] theorem State.setStale_keeps (s : State) (c : Chan) (f : Trim → Trim) :
    (State.setStale s c f).pending = s.pending ∧
    (State.setStale s c f).lcy.fuses = s.lcy.fuses ∧
    (State.setStale s c f).mem = s.mem ∧
    (State.setStale s c f).chk = s.chk := by
  unfold State.setStale; (repeat' split) <;> (try simp) <;> (repeat' split) <;> (try simp)

@[simp] theorem State.bandChange_keeps (s : State) (c : Chan) (b : Nat) :
    (State.bandChange s c b).pending = s.pending ∧
    (State.bandChange s c b).lcy.fuses = s.lcy.fuses ∧
    (State.bandChange s c b).mem = s.mem ∧
    (State.bandChange s c b).chk = s.chk := by
  unfold State.bandChange; (repeat' split) <;> (try simp) <;> (repeat' split) <;> (try simp)

/-! ## Domains -/


@[simp] theorem State.pumpOn_keeps (s : State) :
    (State.pumpOn s).pending = s.pending ∧
    (State.pumpOn s).lcy.fuses = s.lcy.fuses ∧
    (State.pumpOn s).mem = s.mem ∧
    (State.pumpOn s).chk = s.chk := by
  unfold State.pumpOn; (repeat' split) <;> (try simp) <;> (repeat' split) <;> (try simp)

@[simp] theorem State.askOn_keeps (s : State) (d : Dom) :
    (State.askOn s d).pending = s.pending ∧
    (State.askOn s d).lcy.fuses = s.lcy.fuses ∧
    (State.askOn s d).mem = s.mem ∧
    (State.askOn s d).chk = s.chk := by
  unfold State.askOn; (repeat' split) <;> (try simp) <;> (repeat' split) <;> (try simp)

@[simp] theorem State.requestOn_keeps (s : State) (ds : List Dom) :
    (State.requestOn s ds).pending = s.pending ∧
    (State.requestOn s ds).lcy.fuses = s.lcy.fuses ∧
    (State.requestOn s ds).mem = s.mem ∧
    (State.requestOn s ds).chk = s.chk := by
  unfold State.requestOn; (repeat' split) <;> (try simp) <;> (repeat' split) <;> (try simp)

@[simp] theorem State.dropWriter_keeps (s : State) (k : Pier) :
    (State.dropWriter s k).pending = s.pending ∧
    (State.dropWriter s k).lcy.fuses = s.lcy.fuses ∧
    (State.dropWriter s k).mem = s.mem ∧
    (State.dropWriter s k).chk = s.chk := by
  unfold State.dropWriter; (repeat' split) <;> (try simp) <;> (repeat' split) <;> (try simp)

@[simp] theorem State.pierOffCheck_keeps (s : State) (k : Pier) :
    (State.pierOffCheck s k).pending = s.pending ∧
    (State.pierOffCheck s k).lcy.fuses = s.lcy.fuses ∧
    (State.pierOffCheck s k).mem = s.mem ∧
    (State.pierOffCheck s k).chk = s.chk := by
  unfold State.pierOffCheck; (repeat' split) <;> (try simp) <;> (repeat' split) <;> (try simp)

@[simp] theorem State.shedCheck_keeps (s : State) :
    (State.shedCheck s).pending = s.pending ∧
    (State.shedCheck s).lcy.fuses = s.lcy.fuses ∧
    (State.shedCheck s).mem = s.mem ∧
    (State.shedCheck s).chk = s.chk := by
  unfold State.shedCheck; (repeat' split) <;> (try simp) <;> (repeat' split) <;> (try simp)

@[simp] theorem State.pierOffAll_keeps (s : State) :
    (State.pierOffAll s).pending = s.pending ∧
    (State.pierOffAll s).lcy.fuses = s.lcy.fuses ∧
    (State.pierOffAll s).mem = s.mem ∧
    (State.pierOffAll s).chk = s.chk := by
  unfold State.pierOffAll; (repeat' split) <;> (try simp) <;> (repeat' split) <;> (try simp)

@[simp] theorem State.powerGood_keeps (s : State) (d : Dom) (good : Bool) :
    (State.powerGood s d good).pending = s.pending ∧
    (State.powerGood s d good).lcy.fuses = s.lcy.fuses ∧
    (State.powerGood s d good).mem = s.mem ∧
    (State.powerGood s d good).chk = s.chk := by
  unfold State.powerGood; (repeat' split) <;> (try simp) <;> (repeat' split) <;> (try simp)

@[simp] theorem State.pierComesOn_keeps (s : State) (k : Pier) :
    (State.pierComesOn s k).pending = s.pending ∧
    (State.pierComesOn s k).lcy.fuses = s.lcy.fuses ∧
    (State.pierComesOn s k).mem = s.mem ∧
    (State.pierComesOn s k).chk = s.chk := by
  unfold State.pierComesOn; (repeat' split) <;> (try simp) <;> (repeat' split) <;> (try simp)

@[simp] theorem State.clearPattern_keeps (s : State) (c : Chan) :
    (State.clearPattern s c).pending = s.pending ∧
    (State.clearPattern s c).lcy.fuses = s.lcy.fuses ∧
    (State.clearPattern s c).mem = s.mem ∧
    (State.clearPattern s c).chk = s.chk := by
  unfold State.clearPattern; (repeat' split) <;> (try simp) <;> (repeat' split) <;> (try simp)

@[simp] theorem State.chanComesOn_keeps (s : State) (c : Chan) :
    (State.chanComesOn s c).pending = s.pending ∧
    (State.chanComesOn s c).lcy.fuses = s.lcy.fuses ∧
    (State.chanComesOn s c).mem = s.mem ∧
    (State.chanComesOn s c).chk = s.chk := by
  unfold State.chanComesOn; (repeat' split) <;> (try simp) <;> (repeat' split) <;> (try simp)

@[simp] theorem State.domainOn_keeps (s : State) (d : Dom) :
    (State.domainOn s d).pending = s.pending ∧
    (State.domainOn s d).lcy.fuses = s.lcy.fuses ∧
    (State.domainOn s d).mem = s.mem ∧
    (State.domainOn s d).chk = s.chk := by
  unfold State.domainOn; (repeat' split) <;> (try simp) <;> (repeat' split) <;> (try simp)

@[simp] theorem State.afterOff_keeps (s : State) (d : Dom) :
    (State.afterOff s d).pending = s.pending ∧
    (State.afterOff s d).lcy.fuses = s.lcy.fuses ∧
    (State.afterOff s d).mem = s.mem ∧
    (State.afterOff s d).chk = s.chk := by
  unfold State.afterOff; (repeat' split) <;> (try simp) <;> (repeat' split) <;> (try simp)

@[simp] theorem State.domainOff_keeps (s : State) (d : Dom) :
    (State.domainOff s d).pending = s.pending ∧
    (State.domainOff s d).lcy.fuses = s.lcy.fuses ∧
    (State.domainOff s d).mem = s.mem ∧
    (State.domainOff s d).chk = s.chk := by
  unfold State.domainOff; (repeat' split) <;> (try simp) <;> (repeat' split) <;> (try simp)

/-! ## Thermal -/


@[simp] theorem State.setSens_keeps (s : State) (i : SensorIx) (x : Sensor) :
    (State.setSens s i x).pending = s.pending ∧
    (State.setSens s i x).lcy.fuses = s.lcy.fuses ∧
    (State.setSens s i x).mem = s.mem ∧
    (State.setSens s i x).chk = s.chk := by
  unfold State.setSens; (repeat' split) <;> (try simp) <;> (repeat' split) <;> (try simp)

@[simp] theorem State.convert_keeps (s : State) (i : SensorIx) (r : Option Int) :
    (State.convert s i r).pending = s.pending ∧
    (State.convert s i r).lcy.fuses = s.lcy.fuses ∧
    (State.convert s i r).mem = s.mem ∧
    (State.convert s i r).chk = s.chk := by
  unfold State.convert; (repeat' split) <;> (try simp) <;> (repeat' split) <;> (try simp)

@[simp] theorem State.markBroken_keeps (s : State) (i : SensorIx) :
    (State.markBroken s i).pending = s.pending ∧
    (State.markBroken s i).lcy.fuses = s.lcy.fuses ∧
    (State.markBroken s i).mem = s.mem ∧
    (State.markBroken s i).chk = s.chk := by
  unfold State.markBroken; (repeat' split) <;> (try simp) <;> (repeat' split) <;> (try simp)

@[simp] theorem State.setBand_keeps (s : State) (k : Pier) (b : Nat) :
    (State.setBand s k b).pending = s.pending ∧
    (State.setBand s k b).lcy.fuses = s.lcy.fuses ∧
    (State.setBand s k b).mem = s.mem ∧
    (State.setBand s k b).chk = s.chk := by
  unfold State.setBand; (repeat' split) <;> (try simp) <;> (repeat' split) <;> (try simp)

@[simp] theorem State.pierTemps_keeps (s : State) (push : Option Pier) :
    (State.pierTemps s push).pending = s.pending ∧
    (State.pierTemps s push).lcy.fuses = s.lcy.fuses ∧
    (State.pierTemps s push).mem = s.mem ∧
    (State.pierTemps s push).chk = s.chk := by
  unfold State.pierTemps; (repeat' split) <;> (try simp) <;> (repeat' split) <;> (try simp)

@[simp] theorem State.piersFollow_keeps (s : State) (push : Option Pier) (was wasNone : Bool) :
    (State.piersFollow s push was wasNone).pending = s.pending ∧
    (State.piersFollow s push was wasNone).lcy.fuses = s.lcy.fuses ∧
    (State.piersFollow s push was wasNone).mem = s.mem ∧
    (State.piersFollow s push was wasNone).chk = s.chk := by
  unfold State.piersFollow; (repeat' split) <;> (try simp) <;> (repeat' split) <;> (try simp)

@[simp] theorem State.bandEvaluation_keeps (s : State) (t : Instant) :
    (State.bandEvaluation s t).pending = s.pending ∧
    (State.bandEvaluation s t).lcy.fuses = s.lcy.fuses ∧
    (State.bandEvaluation s t).mem = s.mem ∧
    (State.bandEvaluation s t).chk = s.chk := by
  unfold State.bandEvaluation; (repeat' split) <;> (try simp) <;> (repeat' split) <;> (try simp)

@[simp] theorem State.warnAt_keeps (s : State) (i : SensorIx) :
    (State.warnAt s i).pending = s.pending ∧
    (State.warnAt s i).lcy.fuses = s.lcy.fuses ∧
    (State.warnAt s i).mem = s.mem ∧
    (State.warnAt s i).chk = s.chk := by
  unfold State.warnAt; (repeat' split) <;> (try simp) <;> (repeat' split) <;> (try simp)

@[simp] theorem State.rateEvaluation_keeps (s : State) (t : Instant) (i : Fin 17) :
    (State.rateEvaluation s t i).pending = s.pending ∧
    (State.rateEvaluation s t i).lcy.fuses = s.lcy.fuses ∧
    (State.rateEvaluation s t i).mem = s.mem ∧
    (State.rateEvaluation s t i).chk = s.chk := by
  unfold State.rateEvaluation; (repeat' split) <;> (try simp) <;> (repeat' split) <;> (try simp)

@[simp] theorem State.throttleAt_keeps (s : State) :
    (State.throttleAt s).pending = s.pending ∧
    (State.throttleAt s).lcy.fuses = s.lcy.fuses ∧
    (State.throttleAt s).mem = s.mem ∧
    (State.throttleAt s).chk = s.chk := by
  unfold State.throttleAt; (repeat' split) <;> (try simp) <;> (repeat' split) <;> (try simp)

@[simp] theorem State.throttleAck_keeps (s : State) (m : Nat) :
    (State.throttleAck s m).pending = s.pending ∧
    (State.throttleAck s m).lcy.fuses = s.lcy.fuses ∧
    (State.throttleAck s m).mem = s.mem ∧
    (State.throttleAck s m).chk = s.chk := by
  unfold State.throttleAck; (repeat' split) <;> (try simp) <;> (repeat' split) <;> (try simp)

@[simp] theorem State.shedChan_keeps (s : State) (c : Chan) :
    (State.shedChan s c).pending = s.pending ∧
    (State.shedChan s c).lcy.fuses = s.lcy.fuses ∧
    (State.shedChan s c).mem = s.mem ∧
    (State.shedChan s c).chk = s.chk := by
  unfold State.shedChan; (repeat' split) <;> (try simp) <;> (repeat' split) <;> (try simp)

@[simp] theorem State.shedChans_keeps (s : State) :
    (State.shedChans s).pending = s.pending ∧
    (State.shedChans s).lcy.fuses = s.lcy.fuses ∧
    (State.shedChans s).mem = s.mem ∧
    (State.shedChans s).chk = s.chk := by
  unfold State.shedChans; (repeat' split) <;> (try simp) <;> (repeat' split) <;> (try simp)

@[simp] theorem State.startShed_keeps (s : State) :
    (State.startShed s).pending = s.pending ∧
    (State.startShed s).lcy.fuses = s.lcy.fuses ∧
    (State.startShed s).mem = s.mem ∧
    (State.startShed s).chk = s.chk := by
  unfold State.startShed; (repeat' split) <;> (try simp) <;> (repeat' split) <;> (try simp)

@[simp] theorem State.toMode_keeps (s : State) (m : Mode) :
    (State.toMode s m).pending = s.pending ∧
    (State.toMode s m).lcy.fuses = s.lcy.fuses ∧
    (State.toMode s m).mem = s.mem ∧
    (State.toMode s m).chk = s.chk := by
  unfold State.toMode; (repeat' split) <;> (try simp) <;> (repeat' split) <;> (try simp)

@[simp] theorem State.enterShed_keeps (s : State) :
    (State.enterShed s).pending = s.pending ∧
    (State.enterShed s).lcy.fuses = s.lcy.fuses ∧
    (State.enterShed s).mem = s.mem ∧
    (State.enterShed s).chk = s.chk := by
  unfold State.enterShed; (repeat' split) <;> (try simp) <;> (repeat' split) <;> (try simp)

@[simp] theorem State.graceExpiry_keeps (s : State) :
    (State.graceExpiry s).pending = s.pending ∧
    (State.graceExpiry s).lcy.fuses = s.lcy.fuses ∧
    (State.graceExpiry s).mem = s.mem ∧
    (State.graceExpiry s).chk = s.chk := by
  unfold State.graceExpiry; (try dsimp only); (repeat' split) <;> (try simp) <;> (repeat' split) <;> (try simp)

@[simp] theorem State.shedTimeout_keeps (s : State) (c : Chan) :
    (State.shedTimeout s c).pending = s.pending ∧
    (State.shedTimeout s c).lcy.fuses = s.lcy.fuses ∧
    (State.shedTimeout s c).mem = s.mem ∧
    (State.shedTimeout s c).chk = s.chk := by
  unfold State.shedTimeout; (repeat' split) <;> (try simp) <;> (repeat' split) <;> (try simp)

@[simp] theorem State.exitShed_keeps (s : State) :
    (State.exitShed s).pending = s.pending ∧
    (State.exitShed s).lcy.fuses = s.lcy.fuses ∧
    (State.exitShed s).mem = s.mem ∧
    (State.exitShed s).chk = s.chk := by
  unfold State.exitShed; (repeat' split) <;> (try simp) <;> (repeat' split) <;> (try simp)

@[simp] theorem State.cut_keeps (s : State) (hard waited : Bool) :
    (State.cut s hard waited).pending = s.pending ∧
    (State.cut s hard waited).lcy.fuses = s.lcy.fuses := by
  unfold State.cut; (repeat' split) <;> (try simp) <;> (repeat' split) <;> (try simp)

@[simp] theorem State.stopAll_keeps (s : State) :
    (State.stopAll s).pending = s.pending ∧
    (State.stopAll s).lcy.fuses = s.lcy.fuses := by
  unfold State.stopAll; (repeat' split) <;> (try simp) <;> (repeat' split) <;> (try simp)

@[simp] theorem State.shutdownAt_keeps (s : State) (i : SensorIx) :
    (State.shutdownAt s i).pending = s.pending ∧
    (State.shutdownAt s i).lcy.fuses = s.lcy.fuses := by
  unfold State.shutdownAt; (repeat' split) <;> (try simp) <;> (repeat' split) <;> (try simp)

@[simp] theorem State.cutRow_keeps (s : State) (t : Instant) :
    (State.cutRow s t).pending = s.pending ∧
    (State.cutRow s t).lcy.fuses = s.lcy.fuses := by
  unfold State.cutRow; (repeat' split) <;> (try simp) <;> (repeat' split) <;> (try simp)

@[simp] theorem State.sample_keeps (s : State) (t : Instant) (i : SensorIx) (r : Option Int) :
    (State.sample s t i r).pending = s.pending ∧
    (State.sample s t i r).lcy.fuses = s.lcy.fuses := by
  unfold State.sample; (try dsimp only); (repeat' split) <;> (try simp)

end Sys2Proof.Machine
end

