-- ==== Sys2Proof/Laws/KeepsVault.lean ====
section
/-! SUPPORT. The queue of waiting commands, the fuses, the galley and its check bits under each operation: what the vault, the galley writers and the viaduct keep. -/

namespace Sys2Proof.Machine

set_option linter.unreachableTactic false
set_option linter.unusedTactic false
set_option linter.unnecessarySeqFocus false
set_option linter.unusedSimpArgs false

/-! ## VaultCode -/


@[simp] theorem State.storeFlipped_keeps (s : State) (g : Nat) (w : Qword) (flips : Codeword) :
    (State.storeFlipped s g w flips).pending = s.pending ∧
    (State.storeFlipped s g w flips).lcy.fuses = s.lcy.fuses := by
  unfold State.storeFlipped; (repeat' split) <;> (try simp) <;> (repeat' split) <;> (try simp)

@[simp] theorem State.storeCode_keeps (s : State) (port g : Nat) (w : Qword) (own : Bool) :
    (State.storeCode s port g w own).pending = s.pending ∧
    (State.storeCode s port g w own).lcy.fuses = s.lcy.fuses := by
  unfold State.storeCode; (repeat' split) <;> (try simp) <;> (repeat' split) <;> (try simp)

/-! ## Vault -/


@[simp] theorem Vault.mod_keeps (s : State) (f : Vault → Vault) :
    (Vault.mod s f).pending = s.pending ∧
    (Vault.mod s f).lcy.fuses = s.lcy.fuses ∧
    (Vault.mod s f).mem = s.mem ∧
    (Vault.mod s f).chk = s.chk := by
  unfold Vault.mod; (repeat' split) <;> (try simp) <;> (repeat' split) <;> (try simp)

@[simp] theorem State.presentAll_keeps (s : State) (v : Nat) :
    (State.presentAll s v).pending = s.pending ∧
    (State.presentAll s v).lcy.fuses = s.lcy.fuses ∧
    (State.presentAll s v).mem = s.mem ∧
    (State.presentAll s v).chk = s.chk := by
  unfold State.presentAll; (repeat' split) <;> (try simp) <;> (repeat' split) <;> (try simp)

@[simp] theorem State.addReq_keeps (s : State) (v port : Nat) (kind : ReqKind) (pc bank row burst : Nat) (data : List (Bool × Qword)) (hint : Bool) :
    (State.addReq s v port kind pc bank row burst data hint).pending = s.pending ∧
    (State.addReq s v port kind pc bank row burst data hint).lcy.fuses = s.lcy.fuses ∧
    (State.addReq s v port kind pc bank row burst data hint).mem = s.mem ∧
    (State.addReq s v port kind pc bank row burst data hint).chk = s.chk := by
  unfold State.addReq; (repeat' split) <;> (try simp) <;> (repeat' split) <;> (try simp)

@[simp] theorem State.modReq_keeps (s : State) (id : Nat) (f : Req → Req) :
    (State.modReq s id f).pending = s.pending ∧
    (State.modReq s id f).lcy.fuses = s.lcy.fuses ∧
    (State.modReq s id f).mem = s.mem ∧
    (State.modReq s id f).chk = s.chk := by
  unfold State.modReq; (repeat' split) <;> (try simp) <;> (repeat' split) <;> (try simp)

@[simp] theorem State.submit_keeps (s : State) (v port : Nat) (kind : ReqKind) (burst : Nat) (data : List (Bool × Qword)) (hint : Bool) :
    (State.submit s v port kind burst data hint).pending = s.pending ∧
    (State.submit s v port kind burst data hint).lcy.fuses = s.lcy.fuses ∧
    (State.submit s v port kind burst data hint).mem = s.mem ∧
    (State.submit s v port kind burst data hint).chk = s.chk := by
  unfold State.submit; (repeat' split) <;> (try simp) <;> (repeat' split) <;> (try simp)

@[simp] theorem State.submitNrr_keeps (s : State) (v q bank row : Nat) :
    (State.submitNrr s v q bank row).pending = s.pending ∧
    (State.submitNrr s v q bank row).lcy.fuses = s.lcy.fuses ∧
    (State.submitNrr s v q bank row).mem = s.mem ∧
    (State.submitNrr s v q bank row).chk = s.chk := by
  unfold State.submitNrr; (repeat' split) <;> (try simp) <;> (repeat' split) <;> (try simp)

@[simp] theorem State.finishReq_keeps (s : State) (r : Req) (v : Nat) :
    (State.finishReq s r v).pending = s.pending ∧
    (State.finishReq s r v).lcy.fuses = s.lcy.fuses ∧
    (State.finishReq s r v).mem = s.mem ∧
    (State.finishReq s r v).chk = s.chk := by
  unfold State.finishReq; (repeat' split) <;> (try simp) <;> (repeat' split) <;> (try simp)

@[simp] theorem State.halt_keeps (s : State) (why : BitVec 4) (cause : Byte) :
    (State.halt s why cause).pending = s.pending ∧
    (State.halt s why cause).lcy.fuses = s.lcy.fuses ∧
    (State.halt s why cause).mem = s.mem ∧
    (State.halt s why cause).chk = s.chk := by
  unfold State.halt; (repeat' split) <;> (try simp) <;> (repeat' split) <;> (try simp)

@[simp] theorem State.dropDeliveries_keeps (s : State) :
    (State.dropDeliveries s).pending = s.pending ∧
    (State.dropDeliveries s).lcy.fuses = s.lcy.fuses ∧
    (State.dropDeliveries s).mem = s.mem ∧
    (State.dropDeliveries s).chk = s.chk := by
  unfold State.dropDeliveries; (repeat' split) <;> (try simp) <;> (repeat' split) <;> (try simp)

@[simp] theorem State.enterFreeze_keeps (s : State) (t : Instant) :
    (State.enterFreeze s t).pending = s.pending ∧
    (State.enterFreeze s t).lcy.fuses = s.lcy.fuses ∧
    (State.enterFreeze s t).mem = s.mem ∧
    (State.enterFreeze s t).chk = s.chk := by
  unfold State.enterFreeze; (repeat' split) <;> (try simp) <;> (repeat' split) <;> (try simp)

@[simp] theorem State.frzLog_keeps (s : State) (q : Nat) (log : Word) (addr : Option (Nat × BitVec 16)) :
    (State.frzLog s q log addr).pending = s.pending ∧
    (State.frzLog s q log addr).lcy.fuses = s.lcy.fuses ∧
    (State.frzLog s q log addr).mem = s.mem ∧
    (State.frzLog s q log addr).chk = s.chk := by
  unfold State.frzLog; (repeat' split) <;> (try simp) <;> (repeat' split) <;> (try simp)

@[simp] theorem State.freeze_keeps (s : State) (v q : Nat) (log : Word) (addr : Option (Nat × BitVec 16)) (cause : Byte) :
    (State.freeze s v q log addr cause).pending = s.pending ∧
    (State.freeze s v q log addr cause).lcy.fuses = s.lcy.fuses ∧
    (State.freeze s v q log addr cause).mem = s.mem ∧
    (State.freeze s v q log addr cause).chk = s.chk := by
  unfold State.freeze; (repeat' split) <;> (try simp) <;> (repeat' split) <;> (try simp)

@[simp] theorem State.ceilAt_keeps (s : State) (q : Pch) (v : Nat) :
    (State.ceilAt s q v).pending = s.pending ∧
    (State.ceilAt s q v).lcy.fuses = s.lcy.fuses ∧
    (State.ceilAt s q v).mem = s.mem ∧
    (State.ceilAt s q v).chk = s.chk := by
  unfold State.ceilAt; (repeat' split) <;> (try simp) <;> (repeat' split) <;> (try simp)

@[simp] theorem State.setBandDbl_keeps (s : State) (v : Nat) (dbl : Bool) :
    (State.setBandDbl s v dbl).pending = s.pending ∧
    (State.setBandDbl s v dbl).lcy.fuses = s.lcy.fuses ∧
    (State.setBandDbl s v dbl).mem = s.mem ∧
    (State.setBandDbl s v dbl).chk = s.chk := by
  unfold State.setBandDbl; (repeat' split) <;> (try simp) <;> (repeat' split) <;> (try simp)

@[simp] theorem State.stackReading_keeps (s0 : State) (t : Instant) (r : Option Int) :
    (State.stackReading s0 t r).pending = s0.pending ∧
    (State.stackReading s0 t r).lcy.fuses = s0.lcy.fuses := by
  unfold State.stackReading; (repeat' split) <;> (try simp) <;> (repeat' split) <;> (try simp)

@[simp] theorem State.insertAt_keeps (s : State) (q : Pch) (v : Nat) :
    (State.insertAt s q v).pending = s.pending ∧
    (State.insertAt s q v).lcy.fuses = s.lcy.fuses ∧
    (State.insertAt s q v).mem = s.mem ∧
    (State.insertAt s q v).chk = s.chk := by
  unfold State.insertAt; (repeat' split) <;> (try simp) <;> (repeat' split) <;> (try simp)

@[simp] theorem State.unitDone_keeps (s : State) (q : Pch) (v : Nat) :
    (State.unitDone s q v).pending = s.pending ∧
    (State.unitDone s q v).lcy.fuses = s.lcy.fuses ∧
    (State.unitDone s q v).mem = s.mem ∧
    (State.unitDone s q v).chk = s.chk := by
  unfold State.unitDone; (repeat' split) <;> (try simp) <;> (repeat' split) <;> (try simp)

@[simp] theorem State.refab_keeps (s : State) (q : Pch) (v : Nat) :
    (State.refab s q v).pending = s.pending ∧
    (State.refab s q v).lcy.fuses = s.lcy.fuses ∧
    (State.refab s q v).mem = s.mem ∧
    (State.refab s q v).chk = s.chk := by
  unfold State.refab; (repeat' split) <;> (try simp) <;> (repeat' split) <;> (try simp)

@[simp] theorem State.refpb_keeps (s : State) (q : Pch) (v : Nat) :
    (State.refpb s q v).pending = s.pending ∧
    (State.refpb s q v).lcy.fuses = s.lcy.fuses ∧
    (State.refpb s q v).mem = s.mem ∧
    (State.refpb s q v).chk = s.chk := by
  unfold State.refpb; (repeat' split) <;> (try simp) <;> (repeat' split) <;> (try simp)

@[simp] theorem State.activated_keeps (s : State) (q : Pch) (v bank row : Nat) :
    (State.activated s q v bank row).pending = s.pending ∧
    (State.activated s q v bank row).lcy.fuses = s.lcy.fuses ∧
    (State.activated s q v bank row).mem = s.mem ∧
    (State.activated s q v bank row).chk = s.chk := by
  unfold State.activated; (repeat' split) <;> (try simp) <;> (repeat' split) <;> (try simp)

@[simp] theorem State.lateCheck_keeps (s : State) (q : Pch) (r : Req) (v : Nat) :
    (State.lateCheck s q r v).pending = s.pending ∧
    (State.lateCheck s q r v).lcy.fuses = s.lcy.fuses ∧
    (State.lateCheck s q r v).mem = s.mem ∧
    (State.lateCheck s q r v).chk = s.chk := by
  unfold State.lateCheck; (repeat' split) <;> (try simp) <;> (repeat' split) <;> (try simp)

@[simp] theorem State.chunkStep_keeps (s : State) (q : Pch) (r : Req) (write : Bool) :
    (State.chunkStep s q r write).pending = s.pending ∧
    (State.chunkStep s q r write).lcy.fuses = s.lcy.fuses ∧
    (State.chunkStep s q r write).mem = s.mem ∧
    (State.chunkStep s q r write).chk = s.chk := by
  unfold State.chunkStep; (repeat' split) <;> (try simp) <;> (repeat' split) <;> (try simp)

@[simp] theorem State.column_keeps (s : State) (q : Pch) (r : Req) (v : Nat) :
    (State.column s q r v).pending = s.pending ∧
    (State.column s q r v).lcy.fuses = s.lcy.fuses := by
  unfold State.column; (repeat' split) <;> (try simp) <;> (repeat' split) <;> (try simp)

@[simp] theorem State.issue_keeps (s : State) (q : Pch) (r : Req) (v : Nat) :
    (State.issue s q r v).pending = s.pending ∧
    (State.issue s q r v).lcy.fuses = s.lcy.fuses := by
  unfold State.issue; (repeat' split) <;> (try simp) <;> (repeat' split) <;> (try simp)

@[simp] theorem State.forceNow_keeps (s : State) (q : Pch) (v : Nat) :
    (State.forceNow s q v).pending = s.pending ∧
    (State.forceNow s q v).lcy.fuses = s.lcy.fuses ∧
    (State.forceNow s q v).mem = s.mem ∧
    (State.forceNow s q v).chk = s.chk := by
  unfold State.forceNow; (repeat' split) <;> (try simp) <;> (repeat' split) <;> (try simp)

@[simp] theorem State.refreshOnly_keeps (s : State) (q : Pch) (v : Nat) :
    (State.refreshOnly s q v).pending = s.pending ∧
    (State.refreshOnly s q v).lcy.fuses = s.lcy.fuses ∧
    (State.refreshOnly s q v).mem = s.mem ∧
    (State.refreshOnly s q v).chk = s.chk := by
  unfold State.refreshOnly; (repeat' split) <;> (try simp) <;> (repeat' split) <;> (try simp)

@[simp] theorem State.chooseAt_keeps (s : State) (q : Pch) (cands : List (Req × Nat)) (due : Bool) (v : Nat) :
    (State.chooseAt s q cands due v).pending = s.pending ∧
    (State.chooseAt s q cands due v).lcy.fuses = s.lcy.fuses := by
  unfold State.chooseAt; (repeat' split) <;> (try simp) <;> (repeat' split) <;> (try simp)

@[simp] theorem State.chooseRun_keeps (s0 : State) (q : Pch) (blocked : List Nat) (v0 : Nat) :
    (State.chooseRun s0 q blocked v0).pending = s0.pending ∧
    (State.chooseRun s0 q blocked v0).lcy.fuses = s0.lcy.fuses := by
  unfold State.chooseRun; (repeat' split) <;> (try simp) <;> (repeat' split) <;> (try simp)

@[simp] theorem State.vaultCommand_keeps (s : State) (q : Pch) (blocked : List Nat) :
    (State.vaultCommand s q blocked).pending = s.pending ∧
    (State.vaultCommand s q blocked).lcy.fuses = s.lcy.fuses := by
  unfold State.vaultCommand; (repeat' split) <;> (try simp) <;> (repeat' split) <;> (try simp)

@[simp] theorem State.countCe_keeps (s : State) (q : Pch) (g : Nat) :
    (State.countCe s q g).pending = s.pending ∧
    (State.countCe s q g).lcy.fuses = s.lcy.fuses ∧
    (State.countCe s q g).mem = s.mem ∧
    (State.countCe s q g).chk = s.chk := by
  unfold State.countCe; (repeat' split) <;> (try simp) <;> (repeat' split) <;> (try simp)

@[simp] theorem State.countUe_keeps (s : State) (q : Pch) (g port kind v : Nat) (syn : BitVec 16) :
    (State.countUe s q g port kind v syn).pending = s.pending ∧
    (State.countUe s q g port kind v syn).lcy.fuses = s.lcy.fuses ∧
    (State.countUe s q g port kind v syn).mem = s.mem ∧
    (State.countUe s q g port kind v syn).chk = s.chk := by
  unfold State.countUe; (repeat' split) <;> (try simp) <;> (repeat' split) <;> (try simp)

@[simp] theorem State.account_keeps (s : State) (q : Pch) (g port kind v : Nat) (x : ReadResult) :
    (State.account s q g port kind v x).pending = s.pending ∧
    (State.account s q g port kind v x).lcy.fuses = s.lcy.fuses ∧
    (State.account s q g port kind v x).mem = s.mem ∧
    (State.account s q g port kind v x).chk = s.chk := by
  unfold State.account; (repeat' split) <;> (try simp) <;> (repeat' split) <;> (try simp)

@[simp] theorem State.giveData_keeps (s : State) (r : Req) (ws : List (Nat × Qword)) :
    (State.giveData s r ws).pending = s.pending ∧
    (State.giveData s r ws).lcy.fuses = s.lcy.fuses ∧
    (State.giveData s r ws).mem = s.mem ∧
    (State.giveData s r ws).chk = s.chk := by
  unfold State.giveData; (repeat' split) <;> (try simp) <;> (repeat' split) <;> (try simp)

@[simp] theorem State.scrubStep_keeps (s : State) (r : Req) :
    (State.scrubStep s r).pending = s.pending ∧
    (State.scrubStep s r).lcy.fuses = s.lcy.fuses ∧
    (State.scrubStep s r).mem = s.mem ∧
    (State.scrubStep s r).chk = s.chk := by
  unfold State.scrubStep; (repeat' split) <;> (try simp) <;> (repeat' split) <;> (try simp)

@[simp] theorem State.readReturn_keeps (s : State) (id : Nat) (flips0 flips1 : Codeword) :
    (State.readReturn s id flips0 flips1).pending = s.pending ∧
    (State.readReturn s id flips0 flips1).lcy.fuses = s.lcy.fuses ∧
    (State.readReturn s id flips0 flips1).mem = s.mem ∧
    (State.readReturn s id flips0 flips1).chk = s.chk := by
  unfold State.readReturn; (repeat' split) <;> (try simp) <;> (repeat' split) <;> (try simp)

@[simp] theorem State.capar_keeps (s0 : State) (t : Instant) (q : Pch) :
    (State.capar s0 t q).pending = s0.pending ∧
    (State.capar s0 t q).lcy.fuses = s0.lcy.fuses ∧
    (State.capar s0 t q).mem = s0.mem ∧
    (State.capar s0 t q).chk = s0.chk := by
  unfold State.capar; (try dsimp only); (repeat' split) <;> (try simp) <;> (repeat' split) <;> (try simp)

@[simp] theorem State.promote_keeps (s : State) (id : Nat) :
    (State.promote s id).pending = s.pending ∧
    (State.promote s id).lcy.fuses = s.lcy.fuses ∧
    (State.promote s id).mem = s.mem ∧
    (State.promote s id).chk = s.chk := by
  unfold State.promote; (repeat' split) <;> (try simp) <;> (repeat' split) <;> (try simp)

@[simp] theorem State.rowClose_keeps (s : State) (q : Pch) (bank : Fin 16) :
    (State.rowClose s q bank).pending = s.pending ∧
    (State.rowClose s q bank).lcy.fuses = s.lcy.fuses ∧
    (State.rowClose s q bank).mem = s.mem ∧
    (State.rowClose s q bank).chk = s.chk := by
  unfold State.rowClose; (repeat' split) <;> (try simp) <;> (repeat' split) <;> (try simp)

@[simp] theorem State.refreshCeiling_keeps (s : State) (q : Pch) :
    (State.refreshCeiling s q).pending = s.pending ∧
    (State.refreshCeiling s q).lcy.fuses = s.lcy.fuses ∧
    (State.refreshCeiling s q).mem = s.mem ∧
    (State.refreshCeiling s q).chk = s.chk := by
  unfold State.refreshCeiling; (repeat' split) <;> (try simp) <;> (repeat' split) <;> (try simp)

@[simp] theorem State.nrrWindow_keeps (s : State) (q : Pch) :
    (State.nrrWindow s q).pending = s.pending ∧
    (State.nrrWindow s q).lcy.fuses = s.lcy.fuses ∧
    (State.nrrWindow s q).mem = s.mem ∧
    (State.nrrWindow s q).chk = s.chk := by
  unfold State.nrrWindow; (repeat' split) <;> (try simp) <;> (repeat' split) <;> (try simp)

@[simp] theorem State.srEnter_keeps (s : State) :
    (State.srEnter s).pending = s.pending ∧
    (State.srEnter s).lcy.fuses = s.lcy.fuses ∧
    (State.srEnter s).mem = s.mem ∧
    (State.srEnter s).chk = s.chk := by
  unfold State.srEnter; (repeat' split) <;> (try simp) <;> (repeat' split) <;> (try simp)

@[simp] theorem State.srEntered_keeps (s : State) :
    (State.srEntered s).pending = s.pending ∧
    (State.srEntered s).lcy.fuses = s.lcy.fuses ∧
    (State.srEntered s).mem = s.mem ∧
    (State.srEntered s).chk = s.chk := by
  unfold State.srEntered; (repeat' split) <;> (try simp) <;> (repeat' split) <;> (try simp)

@[simp] theorem State.srExitBegin_keeps (s : State) :
    (State.srExitBegin s).pending = s.pending ∧
    (State.srExitBegin s).lcy.fuses = s.lcy.fuses ∧
    (State.srExitBegin s).mem = s.mem ∧
    (State.srExitBegin s).chk = s.chk := by
  unfold State.srExitBegin; (repeat' split) <;> (try simp) <;> (repeat' split) <;> (try simp)

@[simp] theorem State.srExitDone_keeps (s : State) :
    (State.srExitDone s).pending = s.pending ∧
    (State.srExitDone s).lcy.fuses = s.lcy.fuses ∧
    (State.srExitDone s).mem = s.mem ∧
    (State.srExitDone s).chk = s.chk := by
  unfold State.srExitDone; (repeat' split) <;> (try simp) <;> (repeat' split) <;> (try simp)

@[simp] theorem State.scrubRead_keeps (s : State) (q : Pch) :
    (State.scrubRead s q).pending = s.pending ∧
    (State.scrubRead s q).lcy.fuses = s.lcy.fuses ∧
    (State.scrubRead s q).mem = s.mem ∧
    (State.scrubRead s q).chk = s.chk := by
  unfold State.scrubRead; (repeat' split) <;> (try simp) <;> (repeat' split) <;> (try simp)

@[simp] theorem State.trained_keeps (s : State) (result : BitVec 4) (lanes : List Word) :
    (State.trained s result lanes).pending = s.pending ∧
    (State.trained s result lanes).lcy.fuses = s.lcy.fuses ∧
    (State.trained s result lanes).mem = s.mem ∧
    (State.trained s result lanes).chk = s.chk := by
  unfold State.trained; (repeat' split) <;> (try simp) <;> (repeat' split) <;> (try simp)

@[simp] theorem State.trainBegin_keeps (s : State) (m : Nat) (quick : Bool) :
    (State.trainBegin s m quick).pending = s.pending ∧
    (State.trainBegin s m quick).lcy.fuses = s.lcy.fuses ∧
    (State.trainBegin s m quick).mem = s.mem ∧
    (State.trainBegin s m quick).chk = s.chk := by
  unfold State.trainBegin; (repeat' split) <;> (try simp) <;> (repeat' split) <;> (try simp)

@[simp] theorem State.trainingEnd_keeps (s : State) (lanes : List Word) (passed : Bool) :
    (State.trainingEnd s lanes passed).pending = s.pending ∧
    (State.trainingEnd s lanes passed).lcy.fuses = s.lcy.fuses ∧
    (State.trainingEnd s lanes passed).mem = s.mem ∧
    (State.trainingEnd s lanes passed).chk = s.chk := by
  unfold State.trainingEnd; (repeat' split) <;> (try simp) <;> (repeat' split) <;> (try simp)

@[simp] theorem State.restoreEnd_keeps (s : State) (verified : Bool) :
    (State.restoreEnd s verified).pending = s.pending ∧
    (State.restoreEnd s verified).lcy.fuses = s.lcy.fuses ∧
    (State.restoreEnd s verified).mem = s.mem ∧
    (State.restoreEnd s verified).chk = s.chk := by
  unfold State.restoreEnd; (repeat' split) <;> (try simp) <;> (repeat' split) <;> (try simp)

@[simp] theorem State.initEnd_keeps (s : State) :
    (State.initEnd s).pending = s.pending ∧
    (State.initEnd s).lcy.fuses = s.lcy.fuses := by
  unfold State.initEnd; (repeat' split) <;> (try simp) <;> (repeat' split) <;> (try simp)

/-! ## Galley -/


@[simp] theorem State.presentBursts_keeps (s : State) (k : Pier) (l : List BurstData) :
    (State.presentBursts s k l).pending = s.pending ∧
    (State.presentBursts s k l).lcy.fuses = s.lcy.fuses ∧
    (State.presentBursts s k l).mem = s.mem ∧
    (State.presentBursts s k l).chk = s.chk := by
  unfold State.presentBursts; (repeat' split) <;> (try simp) <;> (repeat' split) <;> (try simp)

@[simp] theorem State.presentChunk_keeps (s : State) (k : Pier) (n : Nat) :
    (State.presentChunk s k n).pending = s.pending ∧
    (State.presentChunk s k n).lcy.fuses = s.lcy.fuses ∧
    (State.presentChunk s k n).mem = s.mem ∧
    (State.presentChunk s k n).chk = s.chk := by
  unfold State.presentChunk; (repeat' split) <;> (try simp) <;> (repeat' split) <;> (try simp)

@[simp] theorem State.presentRecord_keeps (s : State) (k : Pier) (c : Chan) :
    (State.presentRecord s k c).pending = s.pending ∧
    (State.presentRecord s k c).lcy.fuses = s.lcy.fuses ∧
    (State.presentRecord s k c).mem = s.mem ∧
    (State.presentRecord s k c).chk = s.chk := by
  unfold State.presentRecord; (repeat' split) <;> (try simp) <;> (repeat' split) <;> (try simp)

@[simp] theorem State.handOver_keeps (s : State) (c : Chan) :
    (State.handOver s c).pending = s.pending ∧
    (State.handOver s c).lcy.fuses = s.lcy.fuses ∧
    (State.handOver s c).mem = s.mem ∧
    (State.handOver s c).chk = s.chk := by
  unfold State.handOver; (try dsimp only); (repeat' split) <;> (try simp) <;> (repeat' split) <;> (try simp)

@[simp] theorem State.flushRow_keeps (s : State) (k : Pier) :
    (State.flushRow s k).pending = s.pending ∧
    (State.flushRow s k).lcy.fuses = s.lcy.fuses ∧
    (State.flushRow s k).mem = s.mem ∧
    (State.flushRow s k).chk = s.chk := by
  unfold State.flushRow; (repeat' split) <;> (try simp) <;> (repeat' split) <;> (try simp)

/-! ## Viaduct -/


@[simp] theorem State.send_keeps (s : State) (o : PcieOut) :
    (State.send s o).pending = s.pending ∧
    (State.send s o).lcy.fuses = s.lcy.fuses ∧
    (State.send s o).mem = s.mem ∧
    (State.send s o).chk = s.chk := by
  unfold State.send; (repeat' split) <;> (try simp) <;> (repeat' split) <;> (try simp)

@[simp] theorem State.askRearm_keeps (s : State) (c : Chan) (t : Instant) :
    (State.askRearm s c t).pending = s.pending ∧
    (State.askRearm s c t).lcy.fuses = s.lcy.fuses ∧
    (State.askRearm s c t).mem = s.mem ∧
    (State.askRearm s c t).chk = s.chk := by
  unfold State.askRearm; (repeat' split) <;> (try simp) <;> (repeat' split) <;> (try simp)

@[simp] theorem State.freeRecord_keeps (s : State) (f : Nat) (t : Instant) :
    (State.freeRecord s f t).pending = s.pending ∧
    (State.freeRecord s f t).lcy.fuses = s.lcy.fuses ∧
    (State.freeRecord s f t).mem = s.mem ∧
    (State.freeRecord s f t).chk = s.chk := by
  unfold State.freeRecord; (repeat' split) <;> (try simp) <;> (repeat' split) <;> (try simp)

@[simp] theorem State.vector_keeps (s : State) (r : Ring) :
    (State.vector s r).pending = s.pending ∧
    (State.vector s r).lcy.fuses = s.lcy.fuses ∧
    (State.vector s r).mem = s.mem ∧
    (State.vector s r).chk = s.chk := by
  unfold State.vector; (repeat' split) <;> (try simp) <;> (repeat' split) <;> (try simp)

@[simp] theorem State.writeBack_keeps (s : State) (r : Ring) (d : Desc) (x : Closed) (wlen flg : Nat) :
    (State.writeBack s r d x wlen flg).pending = s.pending ∧
    (State.writeBack s r d x wlen flg).lcy.fuses = s.lcy.fuses ∧
    (State.writeBack s r d x wlen flg).mem = s.mem ∧
    (State.writeBack s r d x wlen flg).chk = s.chk := by
  unfold State.writeBack; (repeat' split) <;> (try simp) <;> (repeat' split) <;> (try simp)

@[simp] theorem State.endDelivery_keeps (s : State) (r : Ring) (counts : Bool) :
    (State.endDelivery s r counts).pending = s.pending ∧
    (State.endDelivery s r counts).lcy.fuses = s.lcy.fuses ∧
    (State.endDelivery s r counts).mem = s.mem ∧
    (State.endDelivery s r counts).chk = s.chk := by
  unfold State.endDelivery; (repeat' split) <;> (try simp) <;> (repeat' split) <;> (try simp)

@[simp] theorem State.delivered_keeps (s : State) (r : Ring) (x : Closed) :
    (State.delivered s r x).pending = s.pending ∧
    (State.delivered s r x).lcy.fuses = s.lcy.fuses ∧
    (State.delivered s r x).mem = s.mem ∧
    (State.delivered s r x).chk = s.chk := by
  unfold State.delivered; (repeat' split) <;> (try simp) <;> (repeat' split) <;> (try simp)

@[simp] theorem State.abandonNow_keeps (s : State) (r : Ring) (d : Delivery) (x : Closed) :
    (State.abandonNow s r d x).pending = s.pending ∧
    (State.abandonNow s r d x).lcy.fuses = s.lcy.fuses ∧
    (State.abandonNow s r d x).mem = s.mem ∧
    (State.abandonNow s r d x).chk = s.chk := by
  unfold State.abandonNow; (repeat' split) <;> (try simp) <;> (repeat' split) <;> (try simp)

@[simp] theorem State.fillDescs_keeps (fuel : Nat) (s : State) (r : Ring) (x : Closed) :
    (State.fillDescs fuel s r x).pending = s.pending ∧
    (State.fillDescs fuel s r x).lcy.fuses = s.lcy.fuses ∧
    (State.fillDescs fuel s r x).mem = s.mem ∧
    (State.fillDescs fuel s r x).chk = s.chk := by
  induction fuel generalizing s with
  | zero => simp [State.fillDescs]
  | succ n ih => unfold State.fillDescs; (repeat' split) <;> (try simp [ih]) <;> (repeat' split) <;> (try simp [ih])

@[simp] theorem State.deliver_keeps (s : State) (r : Ring) :
    (State.deliver s r).pending = s.pending ∧
    (State.deliver s r).lcy.fuses = s.lcy.fuses ∧
    (State.deliver s r).mem = s.mem ∧
    (State.deliver s r).chk = s.chk := by
  unfold State.deliver; (repeat' split) <;> (try simp) <;> (repeat' split) <;> (try simp)

@[simp] theorem State.xferDone_keeps (s : State) (j : Nat) :
    (State.xferDone s j).pending = s.pending ∧
    (State.xferDone s j).lcy.fuses = s.lcy.fuses ∧
    (State.xferDone s j).mem = s.mem ∧
    (State.xferDone s j).chk = s.chk := by
  unfold State.xferDone; (repeat' split) <;> (try simp) <;> (repeat' split) <;> (try simp)

@[simp] theorem State.arrive_keeps (s : State) (r : Ring) :
    (State.arrive s r).pending = s.pending ∧
    (State.arrive s r).lcy.fuses = s.lcy.fuses ∧
    (State.arrive s r).mem = s.mem ∧
    (State.arrive s r).chk = s.chk := by
  unfold State.arrive; (repeat' split) <;> (try simp) <;> (repeat' split) <;> (try simp)

@[simp] theorem State.readPort_keeps (s : State) (j : Fin 4) :
    (State.readPort s j).pending = s.pending ∧
    (State.readPort s j).lcy.fuses = s.lcy.fuses ∧
    (State.readPort s j).mem = s.mem ∧
    (State.readPort s j).chk = s.chk := by
  unfold State.readPort; (repeat' split) <;> (try simp) <;> (repeat' split) <;> (try simp)

@[simp] theorem State.portTransfer_keeps (s : State) (j : Fin 4) :
    (State.portTransfer s j).pending = s.pending ∧
    (State.portTransfer s j).lcy.fuses = s.lcy.fuses ∧
    (State.portTransfer s j).mem = s.mem ∧
    (State.portTransfer s j).chk = s.chk := by
  unfold State.portTransfer; simp

@[simp] theorem State.dataReturn_keeps (s : State) (id : Nat) (f0 f1 : Codeword) :
    (State.dataReturn s id f0 f1).pending = s.pending ∧
    (State.dataReturn s id f0 f1).lcy.fuses = s.lcy.fuses ∧
    (State.dataReturn s id f0 f1).mem = s.mem ∧
    (State.dataReturn s id f0 f1).chk = s.chk := by
  unfold State.dataReturn; (repeat' split) <;> (try simp) <;> (repeat' split) <;> (try simp)

@[simp] theorem State.tailWrite_keeps (s : State) (r : Ring) (v : Word) :
    (State.tailWrite s r v).pending = s.pending ∧
    (State.tailWrite s r v).lcy.fuses = s.lcy.fuses ∧
    (State.tailWrite s r v).mem = s.mem ∧
    (State.tailWrite s r v).chk = s.chk := by
  unfold State.tailWrite; (repeat' split) <;> (try simp) <;> (repeat' split) <;> (try simp)

@[simp] theorem State.stopRing_keeps (s : State) (r : Ring) (st : RingState) :
    (State.stopRing s r st).pending = s.pending ∧
    (State.stopRing s r st).lcy.fuses = s.lcy.fuses ∧
    (State.stopRing s r st).mem = s.mem ∧
    (State.stopRing s r st).chk = s.chk := by
  unfold State.stopRing; (repeat' split) <;> (try simp) <;> (repeat' split) <;> (try simp)

@[simp] theorem State.startRing_keeps (s : State) (r : Ring) :
    (State.startRing s r).pending = s.pending ∧
    (State.startRing s r).lcy.fuses = s.lcy.fuses ∧
    (State.startRing s r).mem = s.mem ∧
    (State.startRing s r).chk = s.chk := by
  unfold State.startRing; (repeat' split) <;> (try simp) <;> (repeat' split) <;> (try simp)

@[simp] theorem State.askAbandon_keeps (s : State) (r : Ring) :
    (State.askAbandon s r).pending = s.pending ∧
    (State.askAbandon s r).lcy.fuses = s.lcy.fuses ∧
    (State.askAbandon s r).mem = s.mem ∧
    (State.askAbandon s r).chk = s.chk := by
  unfold State.askAbandon; (repeat' split) <;> (try simp) <;> (repeat' split) <;> (try simp)

@[simp] theorem State.stopRings_keeps (s : State) :
    (State.stopRings s).pending = s.pending ∧
    (State.stopRings s).lcy.fuses = s.lcy.fuses ∧
    (State.stopRings s).mem = s.mem ∧
    (State.stopRings s).chk = s.chk := by
  unfold State.stopRings; (repeat' split) <;> (try simp) <;> (repeat' split) <;> (try simp)

@[simp] theorem State.endpointReset_keeps (s : State) :
    (State.endpointReset s).pending = s.pending ∧
    (State.endpointReset s).lcy.fuses = s.lcy.fuses ∧
    (State.endpointReset s).mem = s.mem ∧
    (State.endpointReset s).chk = s.chk := by
  unfold State.endpointReset; (repeat' split) <;> (try simp) <;> (repeat' split) <;> (try simp)

@[simp] theorem State.linkLost_keeps (s : State) :
    (State.linkLost s).pending = s.pending ∧
    (State.linkLost s).lcy.fuses = s.lcy.fuses ∧
    (State.linkLost s).mem = s.mem ∧
    (State.linkLost s).chk = s.chk := by
  unfold State.linkLost; (repeat' split) <;> (try simp) <;> (repeat' split) <;> (try simp)

@[simp] theorem State.descRead_keeps (s : State) (r : Ring) (d : Desc) :
    (State.descRead s r d).pending = s.pending ∧
    (State.descRead s r d).lcy.fuses = s.lcy.fuses ∧
    (State.descRead s r d).mem = s.mem ∧
    (State.descRead s r d).chk = s.chk := by
  unfold State.descRead; (repeat' split) <;> (try simp) <;> (repeat' split) <;> (try simp)

@[simp] theorem State.starvedRow_keeps (s : State) (r : Ring) :
    (State.starvedRow s r).pending = s.pending ∧
    (State.starvedRow s r).lcy.fuses = s.lcy.fuses ∧
    (State.starvedRow s r).mem = s.mem ∧
    (State.starvedRow s r).chk = s.chk := by
  unfold State.starvedRow; (repeat' split) <;> (try simp) <;> (repeat' split) <;> (try simp)

@[simp] theorem State.bar2_keeps (s : State) (g : Nat) (flips : Codeword) :
    (State.bar2 s g flips).pending = s.pending ∧
    (State.bar2 s g flips).lcy.fuses = s.lcy.fuses ∧
    (State.bar2 s g flips).mem = s.mem ∧
    (State.bar2 s g flips).chk = s.chk := by
  unfold State.bar2; (repeat' split) <;> (try simp) <;> (repeat' split) <;> (try simp)

/-! ## Admission -/


@[simp] theorem State.showTest_keeps (s : State) (t : AdmTest) :
    (State.showTest s t).pending = s.pending ∧
    (State.showTest s t).lcy.fuses = s.lcy.fuses ∧
    (State.showTest s t).mem = s.mem ∧
    (State.showTest s t).chk = s.chk := by
  unfold State.showTest; (repeat' split) <;> (try simp) <;> (repeat' split) <;> (try simp)

end Sys2Proof.Machine
end

