-- ==== Sys2Proof/Laws/KeepsPort.lean ====
section
/-! SUPPORT. The queue of waiting commands, the fuses, the galley and its check bits under each operation: what LOAD, the modes, the truss, the mailbox and the port keep. -/

namespace Sys2Proof.Machine

set_option linter.unreachableTactic false
set_option linter.unusedTactic false
set_option linter.unnecessarySeqFocus false
set_option linter.unusedSimpArgs false

/-! ## LifeCycle -/


@[simp] theorem State.modLcy_keeps (s : State) (f : LifeCycle → LifeCycle) :
    (s.modLcy f).pending = s.pending ∧ (s.modLcy f).lcy = f s.lcy ∧ (s.modLcy f).mem = s.mem ∧
    (s.modLcy f).chk = s.chk := ⟨rfl, rfl, rfl, rfl⟩

@[simp] theorem State.challenge_keeps (s : State) :
    (State.challenge s).1.pending = s.pending ∧
    (State.challenge s).1.lcy.fuses = s.lcy.fuses ∧
    (State.challenge s).1.mem = s.mem ∧
    (State.challenge s).1.chk = s.chk := by
  unfold State.challenge; (repeat' split) <;> (try simp) <;> (repeat' split) <;> (try simp)

@[simp] theorem State.respond_keeps (s : State) (token : Bool) (key sig : BitVec 512) :
    (State.respond s token key sig).1.pending = s.pending ∧
    (State.respond s token key sig).1.lcy.fuses = s.lcy.fuses ∧
    (State.respond s token key sig).1.mem = s.mem ∧
    (State.respond s token key sig).1.chk = s.chk := by
  unfold State.respond; (repeat' split) <;> (try simp) <;> (repeat' split) <;> (try simp)

@[simp] theorem State.advanceStart_keeps (s : State) (m : Nat) (target : BitVec 4) (key : BitVec 512) (cdata : BitVec 256) :
    (State.advanceStart s m target key cdata).pending = s.pending ∧
    (State.advanceStart s m target key cdata).lcy.fuses = s.lcy.fuses ∧
    (State.advanceStart s m target key cdata).mem = s.mem ∧
    (State.advanceStart s m target key cdata).chk = s.chk := by
  unfold State.advanceStart; (repeat' split) <;> (try simp) <;> (repeat' split) <;> (try simp)

@[simp] theorem State.fuseWordDone_keeps (s : State) (verified : Bool) :
    (State.fuseWordDone s verified).pending = s.pending ∧
    (State.fuseWordDone s verified).mem = s.mem ∧
    (State.fuseWordDone s verified).chk = s.chk := by
  unfold State.fuseWordDone; (repeat' split) <;> (try simp) <;> (repeat' split) <;> (try simp)

@[simp] theorem State.eraseRest_keeps (s : State) :
    (State.eraseRest s).pending = s.pending ∧
    (State.eraseRest s).lcy.fuses = s.lcy.fuses ∧
    (State.eraseRest s).mem = s.mem ∧
    (State.eraseRest s).chk = s.chk := by
  unfold State.eraseRest; (repeat' split) <;> (try simp) <;> (repeat' split) <;> (try simp)

@[simp] theorem State.advanceDone_keeps (s : State) :
    (State.advanceDone s).pending = s.pending ∧
    (State.advanceDone s).lcy.fuses = s.lcy.fuses ∧
    (State.advanceDone s).mem = s.mem ∧
    (State.advanceDone s).chk = s.chk := by
  unfold State.advanceDone; (repeat' split) <;> (try simp) <;> (repeat' split) <;> (try simp)

@[simp] theorem State.makerProg_keeps (s : State) (value : Word) :
    (State.makerProg s value).pending = s.pending ∧
    (State.makerProg s value).lcy.fuses = s.lcy.fuses ∧
    (State.makerProg s value).mem = s.mem ∧
    (State.makerProg s value).chk = s.chk := by
  unfold State.makerProg; (repeat' split) <;> (try simp) <;> (repeat' split) <;> (try simp)

/-! ## Load -/


@[simp] theorem State.modNvm_keeps (s : State) (f : Nvm → Nvm) :
    (State.modNvm s f).pending = s.pending ∧
    (State.modNvm s f).lcy.fuses = s.lcy.fuses ∧
    (State.modNvm s f).mem = s.mem ∧
    (State.modNvm s f).chk = s.chk := by
  unfold State.modNvm; (repeat' split) <;> (try simp) <;> (repeat' split) <;> (try simp)

@[simp] theorem State.toPhase_keeps (s : State) (p : Nat) :
    (State.toPhase s p).pending = s.pending ∧
    (State.toPhase s p).lcy.fuses = s.lcy.fuses ∧
    (State.toPhase s p).mem = s.mem ∧
    (State.toPhase s p).chk = s.chk := by
  unfold State.toPhase; (repeat' split) <;> (try simp) <;> (repeat' split) <;> (try simp)

@[simp] theorem State.haltAt_keeps (s : State) (why : BitVec 4) (cause : Byte) (entry : Nat) :
    (State.haltAt s why cause entry).pending = s.pending ∧
    (State.haltAt s why cause entry).lcy.fuses = s.lcy.fuses ∧
    (State.haltAt s why cause entry).mem = s.mem ∧
    (State.haltAt s why cause entry).chk = s.chk := by
  unfold State.haltAt; (repeat' split) <;> (try simp) <;> (repeat' split) <;> (try simp)

@[simp] theorem State.boot_keeps (s : State) :
    (State.boot s).pending = s.pending ∧
    (State.boot s).lcy.fuses = s.lcy.fuses ∧
    (State.boot s).mem = s.mem ∧
    (State.boot s).chk = s.chk := by
  unfold State.boot; (repeat' split) <;> (try simp) <;> (repeat' split) <;> (try simp)

@[simp] theorem State.auth_keeps (s : State) :
    (State.auth s).pending = s.pending ∧
    (State.auth s).lcy.fuses = s.lcy.fuses ∧
    (State.auth s).mem = s.mem ∧
    (State.auth s).chk = s.chk := by
  unfold State.auth; (repeat' split) <;> (try simp) <;> (repeat' split) <;> (try simp)

@[simp] theorem State.firmwareStart_keeps (s : State) :
    (State.firmwareStart s).pending = s.pending ∧
    (State.firmwareStart s).lcy.fuses = s.lcy.fuses ∧
    (State.firmwareStart s).mem = s.mem ∧
    (State.firmwareStart s).chk = s.chk := by
  unfold State.firmwareStart; (repeat' split) <;> (try simp) <;> (repeat' split) <;> (try simp)

@[simp] theorem State.image_keeps (s : State) :
    (State.image s).pending = s.pending ∧
    (State.image s).lcy.fuses = s.lcy.fuses ∧
    (State.image s).mem = s.mem ∧
    (State.image s).chk = s.chk := by
  unfold State.image; (repeat' split) <;> (try simp) <;> (repeat' split) <;> (try simp)

@[simp] theorem State.takeSlot_keeps (s : State) (t : TrimSlot) :
    (State.takeSlot s t).pending = s.pending ∧
    (State.takeSlot s t).lcy.fuses = s.lcy.fuses ∧
    (State.takeSlot s t).mem = s.mem ∧
    (State.takeSlot s t).chk = s.chk := by
  unfold State.takeSlot; (repeat' split) <;> (try simp) <;> (repeat' split) <;> (try simp)

@[simp] theorem State.cal_keeps (s : State) :
    (State.cal s).pending = s.pending ∧
    (State.cal s).lcy.fuses = s.lcy.fuses ∧
    (State.cal s).mem = s.mem ∧
    (State.cal s).chk = s.chk := by
  unfold State.cal; (repeat' split) <;> (try simp) <;> (repeat' split) <;> (try simp)

@[simp] theorem State.judge_keeps (s : State) (n : Nat) (f : Forme) :
    (State.judge s n f).pending = s.pending ∧
    (State.judge s n f).lcy.fuses = s.lcy.fuses ∧
    (State.judge s n f).mem = s.mem ∧
    (State.judge s n f).chk = s.chk := by
  unfold State.judge; (repeat' split) <;> (try simp) <;> (repeat' split) <;> (try simp)

@[simp] theorem State.judgeNo_keeps (s : State) (n : Nat) :
    (State.judgeNo s n).pending = s.pending ∧
    (State.judgeNo s n).lcy.fuses = s.lcy.fuses ∧
    (State.judgeNo s n).mem = s.mem ∧
    (State.judgeNo s n).chk = s.chk := by
  unfold State.judgeNo; (repeat' split) <;> (try simp) <;> (repeat' split) <;> (try simp)

@[simp] theorem State.admitAll_keeps (s : State) :
    (State.admitAll s).pending = s.pending ∧
    (State.admitAll s).lcy.fuses = s.lcy.fuses ∧
    (State.admitAll s).mem = s.mem ∧
    (State.admitAll s).chk = s.chk := by
  unfold State.admitAll; (repeat' split) <;> (try simp) <;> (repeat' split) <;> (try simp)

@[simp] theorem State.clocks__keeps (s : State) :
    (State.clocks_ s).pending = s.pending ∧
    (State.clocks_ s).lcy.fuses = s.lcy.fuses ∧
    (State.clocks_ s).mem = s.mem ∧
    (State.clocks_ s).chk = s.chk := by
  unfold State.clocks_; (repeat' split) <;> (try simp) <;> (repeat' split) <;> (try simp)

@[simp] theorem State.clocksLocked_keeps (s : State) :
    (State.clocksLocked s).pending = s.pending ∧
    (State.clocksLocked s).lcy.fuses = s.lcy.fuses ∧
    (State.clocksLocked s).mem = s.mem ∧
    (State.clocksLocked s).chk = s.chk := by
  unfold State.clocksLocked; (repeat' split) <;> (try simp) <;> (repeat' split) <;> (try simp)

@[simp] theorem State.train_keeps (s : State) :
    (State.train s).pending = s.pending ∧
    (State.train s).lcy.fuses = s.lcy.fuses ∧
    (State.train s).mem = s.mem ∧
    (State.train s).chk = s.chk := by
  unfold State.train; (repeat' split) <;> (try simp) <;> (repeat' split) <;> (try simp)

@[simp] theorem State.stackInit_keeps (s : State) :
    (State.stackInit s).pending = s.pending ∧
    (State.stackInit s).lcy.fuses = s.lcy.fuses ∧
    (State.stackInit s).mem = s.mem ∧
    (State.stackInit s).chk = s.chk := by
  unfold State.stackInit; (repeat' split) <;> (try simp) <;> (repeat' split) <;> (try simp)

@[simp] theorem State.listsOf_keeps (s : State) (f : Forme) :
    (State.listsOf s f).pending = s.pending ∧
    (State.listsOf s f).lcy.fuses = s.lcy.fuses ∧
    (State.listsOf s f).mem = s.mem ∧
    (State.listsOf s f).chk = s.chk := by
  unfold State.listsOf; (repeat' split) <;> (try simp) <;> (repeat' split) <;> (try simp)

@[simp] theorem State.dist_keeps (s : State) :
    (State.dist s).pending = s.pending ∧
    (State.dist s).lcy.fuses = s.lcy.fuses ∧
    (State.dist s).mem = s.mem ∧
    (State.dist s).chk = s.chk := by
  unfold State.dist; (repeat' split) <;> (try simp) <;> (repeat' split) <;> (try simp)

@[simp] theorem State.trimPhase_keeps (s : State) :
    (State.trimPhase s).pending = s.pending ∧
    (State.trimPhase s).lcy.fuses = s.lcy.fuses ∧
    (State.trimPhase s).mem = s.mem ∧
    (State.trimPhase s).chk = s.chk := by
  unfold State.trimPhase; (repeat' split) <;> (try simp) <;> (repeat' split) <;> (try simp)

@[simp] theorem State.runReady_keeps (s : State) :
    (State.runReady s).pending = s.pending ∧
    (State.runReady s).lcy.fuses = s.lcy.fuses ∧
    (State.runReady s).mem = s.mem ∧
    (State.runReady s).chk = s.chk := by
  unfold State.runReady; (repeat' split) <;> (try simp) <;> (repeat' split) <;> (try simp)

@[simp] theorem State.stageChan_keeps (s : State) (f : Nat) (c : Chan) :
    (State.stageChan s f c).pending = s.pending ∧
    (State.stageChan s f c).lcy.fuses = s.lcy.fuses ∧
    (State.stageChan s f c).mem = s.mem ∧
    (State.stageChan s f c).chk = s.chk := by
  unfold State.stageChan; (repeat' split) <;> (try simp) <;> (repeat' split) <;> (try simp)

@[simp] theorem State.removeChan_keeps (s : State) (f : Nat) (c : Chan) :
    (State.removeChan s f c).pending = s.pending ∧
    (State.removeChan s f c).lcy.fuses = s.lcy.fuses ∧
    (State.removeChan s f c).mem = s.mem ∧
    (State.removeChan s f c).chk = s.chk := by
  unfold State.removeChan; (repeat' split) <;> (try simp) <;> (repeat' split) <;> (try simp)

@[simp] theorem State.stageSweep_keeps (s : State) (f : Forme) (k : Fin 8) :
    (State.stageSweep s f k).pending = s.pending ∧
    (State.stageSweep s f k).lcy.fuses = s.lcy.fuses ∧
    (State.stageSweep s f k).mem = s.mem ∧
    (State.stageSweep s f k).chk = s.chk := by
  unfold State.stageSweep; (repeat' split) <;> (try simp) <;> (repeat' split) <;> (try simp)

@[simp] theorem State.stageShared_keeps (s : State) (f : Forme) :
    (State.stageShared s f).pending = s.pending ∧
    (State.stageShared s f).lcy.fuses = s.lcy.fuses ∧
    (State.stageShared s f).mem = s.mem ∧
    (State.stageShared s f).chk = s.chk := by
  unfold State.stageShared; (repeat' split) <;> (try simp) <;> (repeat' split) <;> (try simp)

@[simp] theorem State.stageForme_keeps (s : State) (n : Nat) (f : Forme) :
    (State.stageForme s n f).pending = s.pending ∧
    (State.stageForme s n f).lcy.fuses = s.lcy.fuses ∧
    (State.stageForme s n f).mem = s.mem ∧
    (State.stageForme s n f).chk = s.chk := by
  unfold State.stageForme; (repeat' split) <;> (try simp) <;> (repeat' split) <;> (try simp)

@[simp] theorem State.formeReread_keeps (s : State) :
    (State.formeReread s).pending = s.pending ∧
    (State.formeReread s).lcy.fuses = s.lcy.fuses ∧
    (State.formeReread s).mem = s.mem ∧
    (State.formeReread s).chk = s.chk := by
  unfold State.formeReread; (repeat' split) <;> (try simp) <;> (repeat' split) <;> (try simp)

@[simp] theorem State.selectForme_keeps (s : State) (n : Nat) :
    (State.selectForme s n).1.pending = s.pending ∧
    (State.selectForme s n).1.lcy.fuses = s.lcy.fuses ∧
    (State.selectForme s n).1.mem = s.mem ∧
    (State.selectForme s n).1.chk = s.chk := by
  unfold State.selectForme; (repeat' split) <;> (try simp) <;> (repeat' split) <;> (try simp)

/-! ## Storage -/


@[simp] theorem State.modFlash_keeps (s : State) (f : Flash → Flash) :
    (State.modFlash s f).pending = s.pending ∧
    (State.modFlash s f).lcy.fuses = s.lcy.fuses ∧
    (State.modFlash s f).mem = s.mem ∧
    (State.modFlash s f).chk = s.chk := by
  unfold State.modFlash; (repeat' split) <;> (try simp) <;> (repeat' split) <;> (try simp)

@[simp] theorem State.setSlot_keeps (s : State) (target : BitVec 2) (t : Option TrimSlot) :
    (State.setSlot s target t).pending = s.pending ∧
    (State.setSlot s target t).lcy.fuses = s.lcy.fuses ∧
    (State.setSlot s target t).mem = s.mem ∧
    (State.setSlot s target t).chk = s.chk := by
  unfold State.setSlot; (repeat' split) <;> (try simp) <;> (repeat' split) <;> (try simp)

@[simp] theorem State.storeStart_keeps (s : State) :
    (State.storeStart s).pending = s.pending ∧
    (State.storeStart s).lcy.fuses = s.lcy.fuses ∧
    (State.storeStart s).mem = s.mem ∧
    (State.storeStart s).chk = s.chk := by
  unfold State.storeStart; (repeat' split) <;> (try simp) <;> (repeat' split) <;> (try simp)

@[simp] theorem State.storeEnd_keeps (s : State) (result : BitVec 4) (cause : Byte) :
    (State.storeEnd s result cause).pending = s.pending ∧
    (State.storeEnd s result cause).lcy.fuses = s.lcy.fuses ∧
    (State.storeEnd s result cause).mem = s.mem ∧
    (State.storeEnd s result cause).chk = s.chk := by
  unfold State.storeEnd; (repeat' split) <;> (try simp) <;> (repeat' split) <;> (try simp)

@[simp] theorem State.trainEnd_keeps (s : State) :
    (State.trainEnd s).pending = s.pending ∧
    (State.trainEnd s).lcy.fuses = s.lcy.fuses ∧
    (State.trainEnd s).mem = s.mem ∧
    (State.trainEnd s).chk = s.chk := by
  unfold State.trainEnd; (repeat' split) <;> (try simp) <;> (repeat' split) <;> (try simp)

@[simp] theorem State.program_keeps (s : State) (q : StoreSt) (step pages : Nat) (show_ : BitVec 4) :
    (State.program s q step pages show_).pending = s.pending ∧
    (State.program s q step pages show_).lcy.fuses = s.lcy.fuses ∧
    (State.program s q step pages show_).mem = s.mem ∧
    (State.program s q step pages show_).chk = s.chk := by
  unfold State.program; (repeat' split) <;> (try simp) <;> (repeat' split) <;> (try simp)

@[simp] theorem State.eraseDone_keeps (s : State) (blank : Bool) :
    (State.eraseDone s blank).pending = s.pending ∧
    (State.eraseDone s blank).lcy.fuses = s.lcy.fuses ∧
    (State.eraseDone s blank).mem = s.mem ∧
    (State.eraseDone s blank).chk = s.chk := by
  unfold State.eraseDone; (repeat' split) <;> (try simp) <;> (repeat' split) <;> (try simp)

@[simp] theorem State.commitSlot_keeps (s : State) (q : StoreSt) :
    (State.commitSlot s q).pending = s.pending ∧
    (State.commitSlot s q).lcy.fuses = s.lcy.fuses ∧
    (State.commitSlot s q).mem = s.mem ∧
    (State.commitSlot s q).chk = s.chk := by
  unfold State.commitSlot; (repeat' split) <;> (try simp) <;> (repeat' split) <;> (try simp)

@[simp] theorem State.pageDone_keeps (s : State) (verified : Bool) :
    (State.pageDone s verified).pending = s.pending ∧
    (State.pageDone s verified).lcy.fuses = s.lcy.fuses := by
  unfold State.pageDone; (repeat' split) <;> (try simp) <;> (repeat' split) <;> (try simp)

@[simp] theorem State.storeStop_keeps (s : State) :
    (State.storeStop s).pending = s.pending ∧
    (State.storeStop s).lcy.fuses = s.lcy.fuses ∧
    (State.storeStop s).mem = s.mem ∧
    (State.storeStop s).chk = s.chk := by
  unfold State.storeStop; (repeat' split) <;> (try simp) <;> (repeat' split) <;> (try simp)

/-! ## Modes -/


@[simp] theorem State.modPwr_keeps (s : State) (f : Power → Power) :
    (State.modPwr s f).pending = s.pending ∧
    (State.modPwr s f).lcy.fuses = s.lcy.fuses ∧
    (State.modPwr s f).mem = s.mem ∧
    (State.modPwr s f).chk = s.chk := by
  unfold State.modPwr; (repeat' split) <;> (try simp) <;> (repeat' split) <;> (try simp)

@[simp] theorem State.powerOn_keeps (s : State) (t : Instant) :
    (State.powerOn s t).pending = s.pending ∧
    (State.powerOn s t).lcy.fuses = s.lcy.fuses := by
  unfold State.powerOn; (repeat' split) <;> (try simp) <;> (repeat' split) <;> (try simp)

@[simp] theorem State.resetN_keeps (s : State) (t : Instant) :
    (State.resetN s t).pending = s.pending ∧
    (State.resetN s t).lcy.fuses = s.lcy.fuses := by
  unfold State.resetN; (repeat' split) <;> (try simp) <;> (repeat' split) <;> (try simp)

@[simp] theorem State.railReset_keeps (s : State) (t : Instant) (rail : RailIx) :
    (State.railReset s t rail).pending = s.pending ∧
    (State.railReset s t rail).lcy.fuses = s.lcy.fuses := by
  unfold State.railReset; (repeat' split) <;> (try simp) <;> (repeat' split) <;> (try simp)

@[simp] theorem State.release_keeps (s : State) (t : Instant) (flash : Option Flash) (nvmv : Bool) (order : BitVec 6) :
    (State.release s t flash nvmv order).pending = s.pending ∧
    (State.release s t flash nvmv order).lcy.fuses = s.lcy.fuses ∧
    (State.release s t flash nvmv order).mem = s.mem ∧
    (State.release s t flash nvmv order).chk = s.chk := by
  unfold State.release; (repeat' split) <;> (try simp) <;> (repeat' split) <;> (try simp)

@[simp] theorem State.modRail_keeps (s : State) (i : RailIx) (f : Rail → Rail) :
    (State.modRail s i f).pending = s.pending ∧
    (State.modRail s i f).lcy.fuses = s.lcy.fuses ∧
    (State.modRail s i f).mem = s.mem ∧
    (State.modRail s i f).chk = s.chk := by
  unfold State.modRail; (repeat' split) <;> (try simp) <;> (repeat' split) <;> (try simp)

@[simp] theorem State.dipBegin_keeps (s : State) (t : Instant) (rail : RailIx) :
    (State.dipBegin s t rail).pending = s.pending ∧
    (State.dipBegin s t rail).lcy.fuses = s.lcy.fuses ∧
    (State.dipBegin s t rail).mem = s.mem ∧
    (State.dipBegin s t rail).chk = s.chk := by
  unfold State.dipBegin; (repeat' split) <;> (try simp) <;> (repeat' split) <;> (try simp)

@[simp] theorem State.dipFinish_keeps (s : State) (t : Instant) :
    (State.dipFinish s t).pending = s.pending ∧
    (State.dipFinish s t).lcy.fuses = s.lcy.fuses ∧
    (State.dipFinish s t).mem = s.mem ∧
    (State.dipFinish s t).chk = s.chk := by
  unfold State.dipFinish; (try dsimp only); (repeat' split) <;> (try simp) <;> (repeat' split) <;> (try simp)

@[simp] theorem State.dipLong__keeps (s : State) :
    (State.dipLong_ s).pending = s.pending ∧
    (State.dipLong_ s).lcy.fuses = s.lcy.fuses ∧
    (State.dipLong_ s).mem = s.mem ∧
    (State.dipLong_ s).chk = s.chk := by
  unfold State.dipLong_; (repeat' split) <;> (try simp) <;> (repeat' split) <;> (try simp)

@[simp] theorem State.overVolt_keeps (s : State) (t : Instant) (rail : RailIx) :
    (State.overVolt s t rail).pending = s.pending ∧
    (State.overVolt s t rail).lcy.fuses = s.lcy.fuses ∧
    (State.overVolt s t rail).mem = s.mem ∧
    (State.overVolt s t rail).chk = s.chk := by
  unfold State.overVolt; (try dsimp only); (repeat' split) <;> (try simp) <;> (repeat' split) <;> (try simp)

/-! ## TrussCmd -/


@[simp] theorem State.trap_keeps (s : State) (n : Source) :
    (State.trap s n).pending = s.pending ∧
    (State.trap s n).lcy.fuses = s.lcy.fuses ∧
    (State.trap s n).mem = s.mem ∧
    (State.trap s n).chk = s.chk := by
  unfold State.trap; (repeat' split) <;> (try simp) <;> (repeat' split) <;> (try simp)

@[simp] theorem State.cycleChan_keeps (s : State) (c : Chan) :
    (State.cycleChan s c).pending = s.pending ∧
    (State.cycleChan s c).lcy.fuses = s.lcy.fuses ∧
    (State.cycleChan s c).mem = s.mem ∧
    (State.cycleChan s c).chk = s.chk := by
  unfold State.cycleChan; (repeat' split) <;> (try simp) <;> (repeat' split) <;> (try simp)

@[simp] theorem State.cyclePier_keeps (s : State) (k : Pier) :
    (State.cyclePier s k).pending = s.pending ∧
    (State.cyclePier s k).lcy.fuses = s.lcy.fuses ∧
    (State.cyclePier s k).mem = s.mem ∧
    (State.cyclePier s k).chk = s.chk := by
  unfold State.cyclePier; (repeat' split) <;> (try simp) <;> (repeat' split) <;> (try simp)

@[simp] theorem State.block_keeps (s : State) (n : Source) :
    (State.block s n).pending = s.pending ∧
    (State.block s n).lcy.fuses = s.lcy.fuses ∧
    (State.block s n).mem = s.mem ∧
    (State.block s n).chk = s.chk := by
  unfold State.block; split
  · exact State.cycleChan_keeps _ _
  split
  · exact State.cyclePier_keeps _ _
  split
  · exact State.hopFull_keeps _ _
  split
  · exact State.relock_keeps _ _ _
  split
  · exact ⟨by simp only [State.endpointReset_keeps, State.linkLost_keeps], by simp only [State.endpointReset_keeps, State.linkLost_keeps],
      by simp only [State.endpointReset_keeps, State.linkLost_keeps], by simp only [State.endpointReset_keeps, State.linkLost_keeps]⟩
  · exact ⟨rfl, rfl, rfl, rfl⟩

@[simp] theorem State.trapAction_keeps (s : State) (n : Source) :
    (State.trapAction s n).pending = s.pending ∧
    (State.trapAction s n).lcy.fuses = s.lcy.fuses ∧
    (State.trapAction s n).mem = s.mem ∧
    (State.trapAction s n).chk = s.chk := by
  unfold State.trapAction; (repeat' split) <;> (try simp) <;> (repeat' split) <;> (try simp)

@[simp] theorem State.aliveToggle_keeps (s : State) :
    (State.aliveToggle s).pending = s.pending ∧
    (State.aliveToggle s).lcy.fuses = s.lcy.fuses ∧
    (State.aliveToggle s).mem = s.mem ∧
    (State.aliveToggle s).chk = s.chk := by
  unfold State.aliveToggle; (repeat' split) <;> (try simp) <;> (repeat' split) <;> (try simp)

@[simp] theorem State.writeAlive_keeps (s : State) (w : Word) :
    (State.writeAlive s w).pending = s.pending ∧
    (State.writeAlive s w).lcy.fuses = s.lcy.fuses ∧
    (State.writeAlive s w).mem = s.mem ∧
    (State.writeAlive s w).chk = s.chk := by
  unfold State.writeAlive; (repeat' split) <;> (try simp) <;> (repeat' split) <;> (try simp)

@[simp] theorem State.ackPend_keeps (m : Nat) (s : State) (n : Source) :
    (State.ackPend m s n).pending = s.pending ∧
    (State.ackPend m s n).lcy.fuses = s.lcy.fuses ∧
    (State.ackPend m s n).mem = s.mem ∧
    (State.ackPend m s n).chk = s.chk := by
  unfold State.ackPend; (repeat' split) <;> (try simp) <;> (repeat' split) <;> (try simp)

@[simp] theorem State.writeAck_keeps (s : State) (w : Word) :
    (State.writeAck s w).pending = s.pending ∧
    (State.writeAck s w).lcy.fuses = s.lcy.fuses ∧
    (State.writeAck s w).mem = s.mem ∧
    (State.writeAck s w).chk = s.chk := by
  unfold State.writeAck; (repeat' split) <;> (try simp) <;> (repeat' split) <;> (try simp)

@[simp] theorem State.writeSrcCfg_keeps (s : State) (n : Source) (w : Word) :
    (State.writeSrcCfg s n w).pending = s.pending ∧
    (State.writeSrcCfg s n w).lcy.fuses = s.lcy.fuses ∧
    (State.writeSrcCfg s n w).mem = s.mem ∧
    (State.writeSrcCfg s n w).chk = s.chk := by
  unfold State.writeSrcCfg; (repeat' split) <;> (try simp) <;> (repeat' split) <;> (try simp)

@[simp] theorem State.writeSrcStat_keeps (s : State) (n : Source) (w : Word) :
    (State.writeSrcStat s n w).pending = s.pending ∧
    (State.writeSrcStat s n w).lcy.fuses = s.lcy.fuses ∧
    (State.writeSrcStat s n w).mem = s.mem ∧
    (State.writeSrcStat s n w).chk = s.chk := by
  unfold State.writeSrcStat; (repeat' split) <;> (try simp) <;> (repeat' split) <;> (try simp)

@[simp] theorem State.modTst_keeps (s : State) (f : Tst → Tst) :
    (State.modTst s f).pending = s.pending ∧
    (State.modTst s f).lcy.fuses = s.lcy.fuses ∧
    (State.modTst s f).mem = s.mem ∧
    (State.modTst s f).chk = s.chk := by
  unfold State.modTst; (repeat' split) <;> (try simp) <;> (repeat' split) <;> (try simp)

@[simp] theorem State.pulseBegin_keeps (s : State) (n : Nat) :
    (State.pulseBegin s n).pending = s.pending ∧
    (State.pulseBegin s n).lcy.fuses = s.lcy.fuses ∧
    (State.pulseBegin s n).mem = s.mem ∧
    (State.pulseBegin s n).chk = s.chk := by
  unfold State.pulseBegin; (repeat' split) <;> (try simp) <;> (repeat' split) <;> (try simp)

@[simp] theorem State.stallStart_keeps (s : State) :
    (State.stallStart s).pending = s.pending ∧
    (State.stallStart s).lcy.fuses = s.lcy.fuses ∧
    (State.stallStart s).mem = s.mem ∧
    (State.stallStart s).chk = s.chk := by
  unfold State.stallStart; (repeat' split) <;> (try simp) <;> (repeat' split) <;> (try simp)

@[simp] theorem State.stallPulse_keeps (s : State) :
    (State.stallPulse s).pending = s.pending ∧
    (State.stallPulse s).lcy.fuses = s.lcy.fuses ∧
    (State.stallPulse s).mem = s.mem ∧
    (State.stallPulse s).chk = s.chk := by
  unfold State.stallPulse; (repeat' split) <;> (try simp) <;> (repeat' split) <;> (try simp)

@[simp] theorem State.writeTstCtl_keeps (s : State) (w : Word) :
    (State.writeTstCtl s w).pending = s.pending ∧
    (State.writeTstCtl s w).lcy.fuses = s.lcy.fuses ∧
    (State.writeTstCtl s w).mem = s.mem ∧
    (State.writeTstCtl s w).chk = s.chk := by
  unfold State.writeTstCtl; (repeat' split) <;> (try simp) <;> (repeat' split) <;> (try simp)

@[simp] theorem State.tstClose_keeps (s : State) :
    (State.tstClose s).pending = s.pending ∧
    (State.tstClose s).lcy.fuses = s.lcy.fuses ∧
    (State.tstClose s).mem = s.mem ∧
    (State.tstClose s).chk = s.chk := by
  unfold State.tstClose; (repeat' split) <;> (try simp) <;> (repeat' split) <;> (try simp)

@[simp] theorem State.assertLoop_keeps (s : State) (loopB : Bool) :
    (State.assertLoop s loopB).pending = s.pending ∧
    (State.assertLoop s loopB).lcy.fuses = s.lcy.fuses ∧
    (State.assertLoop s loopB).mem = s.mem ∧
    (State.assertLoop s loopB).chk = s.chk := by
  unfold State.assertLoop; (repeat' split) <;> (try simp) <;> (repeat' split) <;> (try simp)

@[simp] theorem State.writeAssert_keeps (s : State) (w : Word) :
    (State.writeAssert s w).pending = s.pending ∧
    (State.writeAssert s w).lcy.fuses = s.lcy.fuses ∧
    (State.writeAssert s w).mem = s.mem ∧
    (State.writeAssert s w).chk = s.chk := by
  unfold State.writeAssert; (repeat' split) <;> (try simp) <;> (repeat' split) <;> (try simp)

@[simp] theorem State.writeEccInj_keeps (s : State) (w : Word) :
    (State.writeEccInj s w).pending = s.pending ∧
    (State.writeEccInj s w).lcy.fuses = s.lcy.fuses ∧
    (State.writeEccInj s w).mem = s.mem ∧
    (State.writeEccInj s w).chk = s.chk := by
  unfold State.writeEccInj; (repeat' split) <;> (try simp) <;> (repeat' split) <;> (try simp)

@[simp] theorem State.writeStall_keeps (s : State) (w : Word) :
    (State.writeStall s w).pending = s.pending ∧
    (State.writeStall s w).lcy.fuses = s.lcy.fuses ∧
    (State.writeStall s w).mem = s.mem ∧
    (State.writeStall s w).chk = s.chk := by
  unfold State.writeStall; (repeat' split) <;> (try simp) <;> (repeat' split) <;> (try simp)

@[simp] theorem State.tstDenied_keeps (s : State) :
    (State.tstDenied s).pending = s.pending ∧
    (State.tstDenied s).lcy.fuses = s.lcy.fuses ∧
    (State.tstDenied s).mem = s.mem ∧
    (State.tstDenied s).chk = s.chk := by
  unfold State.tstDenied; (repeat' split) <;> (try simp) <;> (repeat' split) <;> (try simp)

@[simp] theorem State.inTst_pending (s : State) (f : State → State)
    (h : ∀ z, (f z).pending = z.pending) :
    (s.inTst f).pending = s.pending := by
  unfold State.inTst; (repeat' split) <;> (try simp [h]) <;> (repeat' split) <;> (try simp [h])
@[simp] theorem State.inTst_fuses (s : State) (f : State → State)
    (h : ∀ z, (f z).lcy.fuses = z.lcy.fuses) :
    (s.inTst f).lcy.fuses = s.lcy.fuses := by
  unfold State.inTst; (repeat' split) <;> (try simp [h]) <;> (repeat' split) <;> (try simp [h])
@[simp] theorem State.inTst_mem (s : State) (f : State → State)
    (h : ∀ z, (f z).mem = z.mem) :
    (s.inTst f).mem = s.mem := by
  unfold State.inTst; (repeat' split) <;> (try simp [h]) <;> (repeat' split) <;> (try simp [h])
@[simp] theorem State.inTst_chk (s : State) (f : State → State)
    (h : ∀ z, (f z).chk = z.chk) :
    (s.inTst f).chk = s.chk := by
  unfold State.inTst; (repeat' split) <;> (try simp [h]) <;> (repeat' split) <;> (try simp [h])

/-! ## Mailbox -/


@[simp] theorem State.modMsp_keeps (s : State) (f : Msp → Msp) :
    (State.modMsp s f).pending = s.pending ∧
    (State.modMsp s f).lcy.fuses = s.lcy.fuses ∧
    (State.modMsp s f).mem = s.mem ∧
    (State.modMsp s f).chk = s.chk := by
  unfold State.modMsp; (repeat' split) <;> (try simp) <;> (repeat' split) <;> (try simp)

@[simp] theorem State.modCmd_keeps (s : State) (f : Cmd → Cmd) :
    (State.modCmd s f).pending = s.pending ∧
    (State.modCmd s f).lcy.fuses = s.lcy.fuses ∧
    (State.modCmd s f).mem = s.mem ∧
    (State.modCmd s f).chk = s.chk := by
  unfold State.modCmd; (repeat' split) <;> (try simp) <;> (repeat' split) <;> (try simp)

@[simp] theorem State.failed_keeps (s : State) (c : Cmd) (code : Byte) :
    (State.failed s c code).1.pending = s.pending ∧
    (State.failed s c code).1.lcy.fuses = s.lcy.fuses ∧
    (State.failed s c code).1.mem = s.mem ∧
    (State.failed s c code).1.chk = s.chk := by
  unfold State.failed; (repeat' split) <;> (try simp) <;> (repeat' split) <;> (try simp)

@[simp] theorem State.finish_keeps (s : State) (a : Answer) :
    (State.finish s a).pending = s.pending ∧
    (State.finish s a).lcy.fuses = s.lcy.fuses ∧
    (State.finish s a).mem = s.mem ∧
    (State.finish s a).chk = s.chk := by
  unfold State.finish; (repeat' split) <;> (try simp) <;> (repeat' split) <;> (try simp)

@[simp] theorem State.cmdArm_keeps (s : State) (l : List Chan) :
    (State.cmdArm s l).1.pending = s.pending ∧
    (State.cmdArm s l).1.lcy.fuses = s.lcy.fuses ∧
    (State.cmdArm s l).1.mem = s.mem ∧
    (State.cmdArm s l).1.chk = s.chk := by
  unfold State.cmdArm; (repeat' split) <;> (try simp) <;> (repeat' split) <;> (try simp)

@[simp] theorem State.cmdDisarm_keeps (s : State) (l : List Chan) :
    (State.cmdDisarm s l).1.pending = s.pending ∧
    (State.cmdDisarm s l).1.lcy.fuses = s.lcy.fuses ∧
    (State.cmdDisarm s l).1.mem = s.mem ∧
    (State.cmdDisarm s l).1.chk = s.chk := by
  unfold State.cmdDisarm; (repeat' split) <;> (try simp) <;> (repeat' split) <;> (try simp)

@[simp] theorem State.cmdSetPost_keeps (s : State) (c : Chan) (n : Nat) :
    (State.cmdSetPost s c n).1.pending = s.pending ∧
    (State.cmdSetPost s c n).1.lcy.fuses = s.lcy.fuses ∧
    (State.cmdSetPost s c n).1.mem = s.mem ∧
    (State.cmdSetPost s c n).1.chk = s.chk := by
  unfold State.cmdSetPost; (repeat' split) <;> (try simp) <;> (repeat' split) <;> (try simp)

@[simp] theorem State.cmdRelease_keeps (s : State) (f : Nat) :
    (State.cmdRelease s f).1.pending = s.pending ∧
    (State.cmdRelease s f).1.lcy.fuses = s.lcy.fuses ∧
    (State.cmdRelease s f).1.mem = s.mem ∧
    (State.cmdRelease s f).1.chk = s.chk := by
  unfold State.cmdRelease; (repeat' split) <;> (try simp) <;> (repeat' split) <;> (try simp)

@[simp] theorem State.cmdRemap_keeps (s : State) (c : Cmd) :
    (State.cmdRemap s c).1.pending = s.pending ∧
    (State.cmdRemap s c).1.lcy.fuses = s.lcy.fuses ∧
    (State.cmdRemap s c).1.mem = s.mem ∧
    (State.cmdRemap s c).1.chk = s.chk := by
  unfold State.cmdRemap; (repeat' split) <;> (try simp) <;> (repeat' split) <;> (try simp)

@[simp] theorem State.cmdCalibrate_keeps (s : State) (c : Cmd) :
    (State.cmdCalibrate s c).1.pending = s.pending ∧
    (State.cmdCalibrate s c).1.lcy.fuses = s.lcy.fuses ∧
    (State.cmdCalibrate s c).1.mem = s.mem ∧
    (State.cmdCalibrate s c).1.chk = s.chk := by
  unfold State.cmdCalibrate; (repeat' split) <;> (try simp) <;> (repeat' split) <;> (try simp)

@[simp] theorem State.cmdStoreCal_keeps (s : State) (c : Cmd) :
    (State.cmdStoreCal s c).1.pending = s.pending ∧
    (State.cmdStoreCal s c).1.lcy.fuses = s.lcy.fuses ∧
    (State.cmdStoreCal s c).1.mem = s.mem ∧
    (State.cmdStoreCal s c).1.chk = s.chk := by
  unfold State.cmdStoreCal; (repeat' split) <;> (try simp) <;> (repeat' split) <;> (try simp)

@[simp] theorem State.cmdLifecycle_keeps (s : State) (c : Cmd) :
    (State.cmdLifecycle s c).1.pending = s.pending ∧
    (State.cmdLifecycle s c).1.lcy.fuses = s.lcy.fuses ∧
    (State.cmdLifecycle s c).1.mem = s.mem ∧
    (State.cmdLifecycle s c).1.chk = s.chk := by
  unfold State.cmdLifecycle; (repeat' split) <;> (try simp) <;> (repeat' split) <;> (try simp)

@[simp] theorem State.act_keeps (s : State) (c : Cmd) :
    (State.act s c).1.pending = s.pending ∧
    (State.act s c).1.lcy.fuses = s.lcy.fuses ∧
    (State.act s c).1.mem = s.mem ∧
    (State.act s c).1.chk = s.chk := by
  unfold State.act; simp only [apply_ite Prod.fst]; (try dsimp only); (repeat' split) <;> (try simp)

@[simp] theorem State.run_keeps (s : State) (c : Cmd) :
    (State.run s c).1.pending = s.pending ∧
    (State.run s c).1.lcy.fuses = s.lcy.fuses ∧
    (State.run s c).1.mem = s.mem ∧
    (State.run s c).1.chk = s.chk := by
  unfold State.run; (repeat' split) <;> (try simp) <;> (repeat' split) <;> (try simp)

@[simp] theorem State.diagRequest_keeps (s : State) (v : Nat) (c : Cmd) (i : Nat) :
    (State.diagRequest s v c i).pending = s.pending ∧
    (State.diagRequest s v c i).lcy.fuses = s.lcy.fuses ∧
    (State.diagRequest s v c i).mem = s.mem ∧
    (State.diagRequest s v c i).chk = s.chk := by
  unfold State.diagRequest; (repeat' split) <;> (try simp) <;> (repeat' split) <;> (try simp)

@[simp] theorem State.diagStart_keeps (s : State) (c : Cmd) :
    (State.diagStart s c).pending = s.pending ∧
    (State.diagStart s c).lcy.fuses = s.lcy.fuses ∧
    (State.diagStart s c).mem = s.mem ∧
    (State.diagStart s c).chk = s.chk := by
  unfold State.diagStart; (repeat' split) <;> (try simp) <;> (repeat' split) <;> (try simp)

@[simp] theorem State.issueActs_keeps (s : State) (c : Cmd) :
    (State.issueActs s c).pending = s.pending ∧
    (State.issueActs s c).lcy.fuses = s.lcy.fuses ∧
    (State.issueActs s c).mem = s.mem ∧
    (State.issueActs s c).chk = s.chk := by
  unfold State.issueActs; (repeat' split) <;> (try simp) <;> (repeat' split) <;> (try simp)

@[simp] theorem State.issueCmd_keeps (s : State) (opc tag : Byte) :
    (State.issueCmd s opc tag).pending = s.pending ∧
    (State.issueCmd s opc tag).lcy.fuses = s.lcy.fuses ∧
    (State.issueCmd s opc tag).mem = s.mem ∧
    (State.issueCmd s opc tag).chk = s.chk := by
  unfold State.issueCmd; (repeat' split) <;> (try simp) <;> (repeat' split) <;> (try simp)

@[simp] theorem State.completeAt_keeps (s : State) (c : Cmd) (m : Nat) :
    (State.completeAt s c m).pending = s.pending ∧
    (State.completeAt s c m).lcy.fuses = s.lcy.fuses ∧
    (State.completeAt s c m).mem = s.mem ∧
    (State.completeAt s c m).chk = s.chk := by
  unfold State.completeAt; (repeat' split) <;> (try simp) <;> (repeat' split) <;> (try simp)

@[simp] theorem State.commandComplete_keeps (s : State) :
    (State.commandComplete s).pending = s.pending ∧
    (State.commandComplete s).lcy.fuses = s.lcy.fuses ∧
    (State.commandComplete s).mem = s.mem ∧
    (State.commandComplete s).chk = s.chk := by
  unfold State.commandComplete; (repeat' split) <;> (try simp) <;> (repeat' split) <;> (try simp)

@[simp] theorem State.frameStatus_keeps (s : State) (st : Byte) :
    (State.frameStatus s st).pending = s.pending ∧
    (State.frameStatus s st).lcy.fuses = s.lcy.fuses ∧
    (State.frameStatus s st).mem = s.mem ∧
    (State.frameStatus s st).chk = s.chk := by
  unfold State.frameStatus; (repeat' split) <;> (try simp) <;> (repeat' split) <;> (try simp)

@[simp] theorem State.command_keeps (s : State) (t : Instant) (opc : Nat) (tag : Byte) (arg buf : List Word) :
    (State.command s t opc tag arg buf).pending = s.pending ∧
    (State.command s t opc tag arg buf).lcy.fuses = s.lcy.fuses ∧
    (State.command s t opc tag arg buf).mem = s.mem ∧
    (State.command s t opc tag arg buf).chk = s.chk := by
  unfold State.command; (try dsimp only); (repeat' split) <;> (try simp) <;> (repeat' split) <;> (try simp)

/-! ## Registers -/


@[simp] theorem State.reportDenied_keeps (s : State) (a : Nat) (st : Byte) :
    (State.reportDenied s a st).pending = s.pending ∧
    (State.reportDenied s a st).lcy.fuses = s.lcy.fuses ∧
    (State.reportDenied s a st).mem = s.mem ∧
    (State.reportDenied s a st).chk = s.chk := by
  unfold State.reportDenied; (repeat' split) <;> (try simp) <;> (repeat' split) <;> (try simp)

/-! ## Port -/


@[simp] theorem State.capture_keeps (s : State) (a : Nat) :
    (State.capture s a).pending = s.pending ∧
    (State.capture s a).lcy.fuses = s.lcy.fuses ∧
    (State.capture s a).mem = s.mem ∧
    (State.capture s a).chk = s.chk := by
  unfold State.capture; (repeat' split) <;> (try simp) <;> (repeat' split) <;> (try simp)

@[simp] theorem State.clearRc_keeps (s : State) (a : Nat) :
    (State.clearRc s a).pending = s.pending ∧
    (State.clearRc s a).lcy.fuses = s.lcy.fuses ∧
    (State.clearRc s a).mem = s.mem ∧
    (State.clearRc s a).chk = s.chk := by
  unfold State.clearRc; (repeat' split) <;> (try simp) <;> (repeat' split) <;> (try simp)

@[simp] theorem State.readWord_keeps (s : State) (a : Nat) :
    (State.readWord s a).1.pending = s.pending ∧
    (State.readWord s a).1.lcy.fuses = s.lcy.fuses ∧
    (State.readWord s a).1.mem = s.mem ∧
    (State.readWord s a).1.chk = s.chk := by
  unfold State.readWord; (repeat' split) <;> (try simp) <;> (repeat' split) <;> (try simp)

@[simp] theorem State.writeTst_keeps (s : State) (off : Nat) (w : Word) :
    (State.writeTst s off w).pending = s.pending ∧
    (State.writeTst s off w).lcy.fuses = s.lcy.fuses ∧
    (State.writeTst s off w).mem = s.mem ∧
    (State.writeTst s off w).chk = s.chk := by
  unfold State.writeTst; (repeat' split) <;> (try simp) <;> (repeat' split) <;> (try simp)

@[simp] theorem State.writeTrs_keeps (s : State) (off : Nat) (w : Word) :
    (State.writeTrs s off w).pending = s.pending ∧
    (State.writeTrs s off w).lcy.fuses = s.lcy.fuses ∧
    (State.writeTrs s off w).mem = s.mem ∧
    (State.writeTrs s off w).chk = s.chk := by
  unfold State.writeTrs; (repeat' split) <;> (try simp) <;> (repeat' split) <;> (try simp)

@[simp] theorem State.writeMsp_keeps (s : State) (off : Nat) (w : Word) (issue : Bool) :
    (State.writeMsp s off w issue).pending = s.pending ∧
    (State.writeMsp s off w issue).lcy.fuses = s.lcy.fuses ∧
    (State.writeMsp s off w issue).mem = s.mem ∧
    (State.writeMsp s off w issue).chk = s.chk := by
  unfold State.writeMsp; (repeat' split) <;> (try simp) <;> (repeat' split) <;> (try simp)

@[simp] theorem State.writeReg_keeps (s : State) (a : Nat) (w : Word) (issue : Bool) :
    (State.writeReg s a w issue).pending = s.pending ∧
    (State.writeReg s a w issue).lcy.fuses = s.lcy.fuses ∧
    (State.writeReg s a w issue).mem = s.mem ∧
    (State.writeReg s a w issue).chk = s.chk := by
  unfold State.writeReg; (repeat' split) <;> (try simp) <;> (repeat' split) <;> (try simp)

@[simp] theorem State.writeOne_keeps (s : State) (a : Nat) (w : Word) (busy0 ok : Bool) :
    (State.writeOne s a w busy0 ok).1.pending = s.pending ∧
    (State.writeOne s a w busy0 ok).1.lcy.fuses = s.lcy.fuses ∧
    (State.writeOne s a w busy0 ok).1.mem = s.mem ∧
    (State.writeOne s a w busy0 ok).1.chk = s.chk := by
  unfold State.writeOne; (repeat' split) <;> (try simp) <;> (repeat' split) <;> (try simp)

@[simp] theorem State.readWords_keeps (m : Instant) (n : Nat) (s : State) (a : Nat) :
    (State.readWords m n s a).1.pending = s.pending ∧ (State.readWords m n s a).1.lcy.fuses = s.lcy.fuses ∧
    (State.readWords m n s a).1.mem = s.mem ∧ (State.readWords m n s a).1.chk = s.chk := by
  induction n generalizing s a m with
  | zero => simp [State.readWords]
  | succ n ih => unfold State.readWords; simp [ih]

@[simp] theorem State.writeWords_keeps (b : Bool) (l : List Word) (ok : Bool) (s : State) (a : Nat) :
    (State.writeWords b l ok s a).1.pending = s.pending ∧ (State.writeWords b l ok s a).1.lcy.fuses = s.lcy.fuses ∧
    (State.writeWords b l ok s a).1.mem = s.mem ∧ (State.writeWords b l ok s a).1.chk = s.chk := by
  induction l generalizing s a ok with
  | nil => simp [State.writeWords]
  | cons w t ih => unfold State.writeWords; simp [ih]

@[simp] theorem State.clearRcs_keeps (s : State) (a n : Nat) :
    (State.clearRcs s a n).pending = s.pending ∧
    (State.clearRcs s a n).lcy.fuses = s.lcy.fuses ∧
    (State.clearRcs s a n).mem = s.mem ∧
    (State.clearRcs s a n).chk = s.chk := by
  unfold State.clearRcs; (repeat' split) <;> (try simp) <;> (repeat' split) <;> (try simp)

@[simp] theorem State.rejectHeader_keeps (s : State) (st : Byte) :
    (State.rejectHeader s st).pending = s.pending ∧
    (State.rejectHeader s st).lcy.fuses = s.lcy.fuses ∧
    (State.rejectHeader s st).mem = s.mem ∧
    (State.rejectHeader s st).chk = s.chk := by
  unfold State.rejectHeader; (repeat' split) <;> (try simp) <;> (repeat' split) <;> (try simp)

@[simp] theorem State.readFrame_keeps (s : State) (a n : Nat) :
    (State.readFrame s a n).pending = s.pending ∧
    (State.readFrame s a n).lcy.fuses = s.lcy.fuses ∧
    (State.readFrame s a n).mem = s.mem ∧
    (State.readFrame s a n).chk = s.chk := by
  unfold State.readFrame; (repeat' split) <;> (try simp) <;> (repeat' split) <;> (try simp)

@[simp] theorem State.writeFrame_keeps (s : State) (a : Nat) (ws : List Word) :
    (State.writeFrame s a ws).pending = s.pending ∧
    (State.writeFrame s a ws).lcy.fuses = s.lcy.fuses ∧
    (State.writeFrame s a ws).mem = s.mem ∧
    (State.writeFrame s a ws).chk = s.chk := by
  unfold State.writeFrame; (repeat' split) <;> (try simp) <;> (repeat' split) <;> (try simp)

@[simp] theorem State.frame_pending (s : State) (t : Instant) (a : Word) (n : Nat) (f : State → State)
    (h : ∀ z, (f z).pending = z.pending) :
    (s.frame t a n f).pending = s.pending := by
  unfold State.frame; (repeat' split) <;> (try simp [h]) <;> (repeat' split) <;> (try simp [h])
@[simp] theorem State.frame_fuses (s : State) (t : Instant) (a : Word) (n : Nat) (f : State → State)
    (h : ∀ z, (f z).lcy.fuses = z.lcy.fuses) :
    (s.frame t a n f).lcy.fuses = s.lcy.fuses := by
  unfold State.frame; (repeat' split) <;> (try simp [h]) <;> (repeat' split) <;> (try simp [h])
@[simp] theorem State.frame_mem (s : State) (t : Instant) (a : Word) (n : Nat) (f : State → State)
    (h : ∀ z, (f z).mem = z.mem) :
    (s.frame t a n f).mem = s.mem := by
  unfold State.frame; (repeat' split) <;> (try simp [h]) <;> (repeat' split) <;> (try simp [h])
@[simp] theorem State.frame_chk (s : State) (t : Instant) (a : Word) (n : Nat) (f : State → State)
    (h : ∀ z, (f z).chk = z.chk) :
    (s.frame t a n f).chk = s.chk := by
  unfold State.frame; (repeat' split) <;> (try simp [h]) <;> (repeat' split) <;> (try simp [h])

@[simp] theorem State.abortRead_keeps (s : State) (a n : Nat) :
    (State.abortRead s a n).pending = s.pending ∧
    (State.abortRead s a n).lcy.fuses = s.lcy.fuses ∧
    (State.abortRead s a n).mem = s.mem ∧
    (State.abortRead s a n).chk = s.chk := by
  unfold State.abortRead; (repeat' split) <;> (try simp) <;> (repeat' split) <;> (try simp)

@[simp] theorem State.abortWrite_keeps (s : State) :
    (State.abortWrite s).pending = s.pending ∧
    (State.abortWrite s).lcy.fuses = s.lcy.fuses ∧
    (State.abortWrite s).mem = s.mem ∧
    (State.abortWrite s).chk = s.chk := by
  unfold State.abortWrite; (repeat' split) <;> (try simp) <;> (repeat' split) <;> (try simp)

@[simp] theorem State.access_keeps (s : State) (t : Instant) (a : Nat) (w : Word) :
    (State.access s t a w).pending = s.pending ∧
    (State.access s t a w).lcy.fuses = s.lcy.fuses ∧
    (State.access s t a w).mem = s.mem ∧
    (State.access s t a w).chk = s.chk := by
  unfold State.access; (repeat' split) <;> (try simp) <;> (repeat' split) <;> (try simp)

@[simp] theorem State.readAccess_keeps (s : State) (t : Instant) (a : Nat) :
    (State.readAccess s t a).pending = s.pending ∧
    (State.readAccess s t a).lcy.fuses = s.lcy.fuses ∧
    (State.readAccess s t a).mem = s.mem ∧
    (State.readAccess s t a).chk = s.chk := by
  unfold State.readAccess; (repeat' split) <;> (try simp) <;> (repeat' split) <;> (try simp)

@[simp] theorem State.writeRingCfg_keeps (s : State) (r : Ring) (w : Word) :
    (State.writeRingCfg s r w).pending = s.pending ∧
    (State.writeRingCfg s r w).lcy.fuses = s.lcy.fuses ∧
    (State.writeRingCfg s r w).mem = s.mem ∧
    (State.writeRingCfg s r w).chk = s.chk := by
  unfold State.writeRingCfg; (repeat' split) <;> (try simp) <;> (repeat' split) <;> (try simp)

@[simp] theorem State.writeMsix_keeps (s : State) (i : Nat) (w : Word) :
    (State.writeMsix s i w).pending = s.pending ∧
    (State.writeMsix s i w).lcy.fuses = s.lcy.fuses ∧
    (State.writeMsix s i w).mem = s.mem ∧
    (State.writeMsix s i w).chk = s.chk := by
  unfold State.writeMsix; (repeat' split) <;> (try simp) <;> (repeat' split) <;> (try simp)

@[simp] theorem State.writeBar0_keeps (s : State) (off : Nat) (w : Word) :
    (State.writeBar0 s off w).pending = s.pending ∧
    (State.writeBar0 s off w).lcy.fuses = s.lcy.fuses ∧
    (State.writeBar0 s off w).mem = s.mem ∧
    (State.writeBar0 s off w).chk = s.chk := by
  unfold State.writeBar0; (repeat' split) <;> (try simp) <;> (repeat' split) <;> (try simp)

@[simp] theorem State.strike_keeps (s : State) (u : Upset) :
    (State.strike s u).pending = s.pending ∧ (State.strike s u).lcy.fuses = s.lcy.fuses := by
  cases u <;> (unfold State.strike; (try dsimp only); (repeat' split)) <;> (try simp)

@[simp] theorem State.trussEvent_keeps (s : State) (u : Option (Instant × Upset)) :
    (State.trussEvent s u).pending = s.pending ∧ (State.trussEvent s u).lcy.fuses = s.lcy.fuses := by
  cases u <;> simp [State.trussEvent]

end Sys2Proof.Machine
end

