-- ==== Sys2Proof/Laws/Memory.lean ====
section
/-! SUPPORT. The sparse tables, and the galley that is kept in one: reads after writes, and the canonical form. -/

namespace Sys2Proof.Machine

/-! ## Sparse tables -/

section
variable {α : Type} [DecidableEq α] {d : α}

/-- A write puts no key into the table but its own. -/
theorem mem_sset_key (l : List (Nat × α)) (a : Nat) (v : α) (p : Nat × α) (h : p ∈ sset d l a v) :
    p ∈ l ∨ p = (a, v) := by
  induction l with
  | nil => unfold sset at h; split at h <;> simp_all
  | cons q t ih =>
    obtain ⟨k, w⟩ := q
    unfold sset at h
    split at h
    · split at h <;> simp_all; tauto
    · split at h
      · split at h <;> simp_all; tauto
      · simp only [List.mem_cons] at h ⊢
        rcases h with h | h
        · exact .inl (.inl h)
        · rcases ih h with h | h
          · exact .inl (.inr h)
          · exact .inr h

/-- A write of something other than the default value keeps a table canonical, and so does a write of the default. -/
theorem sparse_sset (l : List (Nat × α)) (a : Nat) (v : α) (h : Sparse d l) : Sparse d (sset d l a v) := by
  induction l with
  | nil =>
    unfold sset
    split
    · exact h
    · next hv => exact ⟨List.pairwise_singleton _ _, by simpa using hv⟩
  | cons q t ih =>
    obtain ⟨k, w⟩ := q
    obtain ⟨hp, hd⟩ := h
    rw [List.pairwise_cons] at hp
    have ht : Sparse d t := ⟨hp.2, fun p m => hd p (List.mem_cons_of_mem _ m)⟩
    unfold sset
    split
    · next hlt =>
      split
      · exact ⟨List.pairwise_cons.2 hp, hd⟩
      · next hv =>
        refine ⟨List.pairwise_cons.2 ⟨?_, List.pairwise_cons.2 hp⟩, ?_⟩
        · intro p m
          rcases List.mem_cons.1 m with rfl | m
          · exact hlt
          · exact lt_trans hlt (hp.1 p m)
        · intro p m
          rcases List.mem_cons.1 m with rfl | m
          · exact hv
          · exact hd p m
    · next hlt =>
      split
      · next he =>
        subst he
        split
        · exact ht
        · next hv =>
          refine ⟨List.pairwise_cons.2 ⟨hp.1, hp.2⟩, ?_⟩
          intro p m
          rcases List.mem_cons.1 m with rfl | m
          · exact hv
          · exact ht.2 p m
      · next he =>
        refine ⟨List.pairwise_cons.2 ⟨?_, (ih ht).1⟩, ?_⟩
        · intro p m
          rcases mem_sset_key t a v p m with m | rfl
          · exact hp.1 p m
          · exact lt_of_le_of_ne (not_lt.1 hlt) (Ne.symm he)
        · intro p m
          rcases List.mem_cons.1 m with rfl | m
          · exact hd _ (List.mem_cons_self)
          · exact (ih ht).2 p m

theorem sparse_ssets (vs : List α) (l : List (Nat × α)) (a : Nat) (h : Sparse d l) : Sparse d (ssets d l a vs) := by
  induction vs generalizing l a with
  | nil => exact h
  | cons v vs ih => exact ih _ _ (sparse_sset l a v h)

/-- Other addresses read as before a write. -/
theorem sget_sset_ne (l : List (Nat × α)) (a b : Nat) (v : α) (h : b ≠ a) : sget d (sset d l a v) b = sget d l b := by
  induction l with
  | nil => unfold sset; split <;> simp [sget, h]
  | cons q t ih =>
    obtain ⟨k, w⟩ := q
    unfold sset
    split
    · split <;> simp [sget, h]
    · split
      · next he => subst he; split <;> simp [sget, h]
      · simp only [sget]; rw [ih]

omit [DecidableEq α] in
/-- Below every key of a canonical table an address reads as the default. -/
theorem sget_of_lt (l : List (Nat × α)) (a : Nat) (h : ∀ p ∈ l, a < p.1) : sget d l a = d := by
  induction l with
  | nil => rfl
  | cons q t ih =>
    have h1 := h q List.mem_cons_self
    simp only [sget]
    rw [if_neg (by omega)]
    exact ih fun p m => h p (List.mem_cons_of_mem _ m)

/-- A read at the address written gives what was written. -/
theorem sget_sset_self (l : List (Nat × α)) (a : Nat) (v : α) (h : Sparse d l) : sget d (sset d l a v) a = v := by
  induction l with
  | nil => unfold sset; split <;> simp_all [sget]
  | cons q t ih =>
    obtain ⟨k, w⟩ := q
    obtain ⟨hp, hd⟩ := h
    rw [List.pairwise_cons] at hp
    have ht : Sparse d t := ⟨hp.2, fun p m => hd p (List.mem_cons_of_mem _ m)⟩
    unfold sset
    split
    · next hlt =>
      split
      · next hv =>
        rw [hv]
        refine sget_of_lt _ _ fun p m => ?_
        rcases List.mem_cons.1 m with rfl | m
        · exact hlt
        · exact lt_trans hlt (hp.1 p m)
      · simp [sget]
    · split
      · next he =>
        subst he
        split
        · next hv =>
          rw [hv]
          exact sget_of_lt _ _ hp.1
        · simp [sget]
      · next he => simp only [sget]; rw [if_neg he]; exact ih ht

end

/-! ## The galley -/

/-- A word written to the galley keeps its canonical form. -/
theorem State.setGalley_wf (s : State) (g : Nat) (w : Qword) (h : Memory.wf s.mem) : Memory.wf (s.setGalley g w).mem :=
  sparse_ssets _ _ _ h

@[simp] theorem State.setGalley_chk (s : State) (g : Nat) (w : Qword) : (s.setGalley g w).chk = s.chk := rfl

theorem State.storeFlipped_mem (s : State) (g : Nat) (w : Qword) (f : Codeword) :
    (s.storeFlipped g w f).mem = (s.setGalley g (w ^^^ f.extractLsb' 0 128)).mem := rfl

theorem State.storeFlipped_chk (s : State) (g : Nat) (w : Qword) (f : Codeword) :
    (s.storeFlipped g w f).chk = sset 0 s.chk g (dataCheck (f.extractLsb' 0 128) ^^^ f.extractLsb' 128 16) := rfl

/-- A stored codeword keeps both canonical forms. -/
theorem State.storeFlipped_wf (s : State) (g : Nat) (w : Qword) (f : Codeword) (h : Memory.wf s.mem) (hc : Sparse 0 s.chk) :
    Memory.wf (s.storeFlipped g w f).mem ∧ Sparse 0 (s.storeFlipped g w f).chk := by
  rw [s.storeFlipped_mem, s.storeFlipped_chk]
  exact ⟨s.setGalley_wf _ _ h, sparse_sset _ _ _ hc⟩

theorem State.storeCode_wf (s : State) (port g : Nat) (w : Qword) (own : Bool) (h : Memory.wf s.mem) (hc : Sparse 0 s.chk) :
    Memory.wf (s.storeCode port g w own).mem ∧ Sparse 0 (s.storeCode port g w own).chk := by
  unfold State.storeCode
  dsimp only
  split
  · exact s.storeFlipped_wf g w (injFlips s.tst.eccMode s.tst.eccB.toNat) h hc
  · exact s.storeFlipped_wf g w 0 h hc

/-- Reset memory has the canonical form. -/
theorem State.reset_wf : Memory.wf State.reset.mem ∧ Sparse 0 State.reset.chk ∧ Sparse 0 State.reset.lcy.fuses := by
  simp [State.reset, Sparse, LifeCycle.reset, Memory.wf]

end Sys2Proof.Machine
end

