-- ==== Sys2Proof/Machine/Pins.lean ====
section
/-! DEFINITION. What the output pins show (15_modes_and_power_up.md, R534, Table 15.8; R565, R566, R591, R624), and boundary
scan (20_pins_and_timing.md, R663). No row of the opcode table brings an edge of JTAG_TCK: the board holds JTAG_TRST_N low,
and the operations here are what a scan test would use (notes/assumptions/72.md). -/

namespace Sys2Proof.Machine

/-! ## Outputs (Table 15.8) -/

/-- The level of a pin. -/
inductive Level where
  | highZ | low | high
deriving DecidableEq, Repr

def Level.of (b : Bool) : Level := if b then .high else .low

/-- The outputs but those of the NVM are released: in RESET, and from a thermal shutdown to its cut (R624). -/
def State.released (s : State) : Bool := s.pwr.mode == .reset || s.thm.shutdown.isSome

/-- nINT, open drain. -/
def State.nintPin (s : State) (t : Instant) : Level := if s.nintLow t then .low else .highZ

/-- THROTTLE and ALIVE, push-pull. -/
def State.throttlePin (s : State) (t : Instant) : Level := if s.released then .highZ else .of (s.throttleHigh t)
def State.alivePin (s : State) : Level := if s.released then .highZ else .of s.truss.alive

/-- MSPI_MISO, given the level of MSPI_CS_N and the bit that the frame sends. -/
def State.misoPin (s : State) (csN bit : Bool) : Level := if s.released || csN then .highZ else .of bit

/-- The NVM pins are driven, NVM_IO0 to NVM_IO3 as the transfer requires. -/
def State.nvmDriven (s : State) : Bool := s.pwr.mode != .reset

/-- What the PCIe transmitters do. -/
inductive PcieTx where
  | electricalIdle | training | link
deriving DecidableEq, Repr

/-- PCIe TX: training begins 5,000 mc after reset release. -/
def State.pcieTx (s : State) (t : Instant) : PcieTx :=
  if s.released || s.mclk t < 5000 then .electricalIdle else if s.via.linkUp then .link else .training

/-! ## Boundary scan (R663) -/

/-- The state after a rising edge of TCK, by TMS (IEEE 1149.1). -/
def TapState.next (x : TapState) (tms : Bool) : TapState :=
  match x with
  | .testLogicReset => if tms then .testLogicReset else .runTestIdle
  | .runTestIdle | .updateDr | .updateIr => if tms then .selectDr else .runTestIdle
  | .selectDr => if tms then .selectIr else .captureDr
  | .captureDr | .shiftDr => if tms then .exit1Dr else .shiftDr
  | .exit1Dr => if tms then .updateDr else .pauseDr
  | .pauseDr => if tms then .exit2Dr else .pauseDr
  | .exit2Dr => if tms then .updateDr else .shiftDr
  | .selectIr => if tms then .testLogicReset else .captureIr
  | .captureIr | .shiftIr => if tms then .exit1Ir else .shiftIr
  | .exit1Ir => if tms then .updateIr else .pauseIr
  | .pauseIr => if tms then .exit2Ir else .pauseIr
  | .exit2Ir => if tms then .updateIr else .shiftIr

/-- The instruction that bits shifted in name: all ones are BYPASS (IEEE 1149.1), the other codes the spec does not give. -/
def tapCode (bits : List Bool) : TapInstr :=
  if bits.all id then .bypass
  else match Config.tapCode bits % 5 with
    | 1 => .samplePreload
    | 2 => .extest
    | 3 => .extestPulse
    | 4 => .extestTrain
    | _ => .bypass

/-- The instruction that acts: outside RESET every one acts as BYPASS. -/
def State.tapInstr (s : State) : TapInstr := if s.pwr.mode = .reset then s.tap.ir else .bypass

/-- A shift stage, its first bit next to TDO. -/
def scanShift (l : List Bool) (tdi : Bool) : List Bool := l.drop 1 ++ [tdi]

/-- What the rising edge does in the state it finds; `pins` are the levels at the boundary cells. -/
def Tap.rise (x : Tap) (i : TapInstr) (tdi : Bool) (pins : List Bool) : Tap :=
  match x.st with
  | .captureIr => { x with irShift := true :: false :: Config.tapCapture }
  | .shiftIr => { x with irShift := scanShift x.irShift tdi }
  | .captureDr => if i = .bypass then { x with bypass := false } else { x with scan := pins }
  | .shiftDr => if i = .bypass then { x with bypass := tdi } else { x with scan := scanShift x.scan tdi }
  | _ => x

/-- What the falling edge does in the state it finds: the update stages, and the test signal of EXTEST_PULSE and
EXTEST_TRAIN, which turns in Run-Test/Idle (IEEE 1149.6). -/
def Tap.fall (x : Tap) (i : TapInstr) : Tap :=
  match x.st with
  | .testLogicReset => { x with ir := .bypass, turned := false }
  | .runTestIdle => { x with turned := if i = .extestTrain then !x.turned else i == .extestPulse }
  | .updateIr => { x with ir := tapCode x.irShift, turned := false }
  | .updateDr => if i = .bypass then { x with turned := false } else { x with held := x.scan, turned := false }
  | _ => { x with turned := false }

/-- One cycle of JTAG_TCK: a rising and a falling edge. -/
def State.tck (s : State) (tms tdi : Bool) (pins : List Bool) : State :=
  let x := s.tap.rise s.tapInstr tdi pins
  { s with tap := { x with st := x.st.next tms }.fall s.tapInstr }

/-- JTAG_TRST_N low. -/
def State.trst (s : State) : State := { s with tap := { s.tap with st := .testLogicReset, ir := .bypass, turned := false } }

/-- JTAG_TDO: driven in the shift states alone. -/
def State.tdo (s : State) : Level :=
  match s.tap.st with
  | .shiftIr => .of (s.tap.irShift.headD false)
  | .shiftDr => if s.tapInstr = .bypass then .of s.tap.bypass else .of (s.tap.scan.headD false)
  | _ => .highZ

/-- The levels that the boundary cells drive, none where the pins stay with the device; the pairs of IEEE 1149.6 (`ac`) turn
with the test signal. -/
def State.scanDrives (s : State) (ac : Bool) : Option (List Bool) :=
  match s.tapInstr with
  | .extest => some s.tap.held
  | .extestPulse | .extestTrain => some (if ac && s.tap.turned then s.tap.held.map (!·) else s.tap.held)
  | _ => none

end Sys2Proof.Machine
end

