-- ==== Sys2Proof/Laws/Pins.lean ====
section
/-! SUPPORT. What the operations of boundary scan do (R663), and the outputs in RESET (R534). -/

namespace Sys2Proof.Machine

/-- Five cycles with TMS high lead to Test-Logic-Reset from every state. -/
theorem TapState.five_high (x : TapState) : (List.replicate 5 true).foldl TapState.next x = .testLogicReset := by
  cases x <;> rfl

/-- Outside RESET every instruction acts as BYPASS. -/
theorem State.tapInstr_outside (s : State) (h : s.pwr.mode ≠ .reset) : s.tapInstr = .bypass := by
  simp [State.tapInstr, h]

/-- Outside RESET the boundary cells drive nothing. -/
theorem State.scanDrives_outside (s : State) (ac : Bool) (h : s.pwr.mode ≠ .reset) : s.scanDrives ac = none := by
  simp [State.scanDrives, s.tapInstr_outside h]

/-- Outside RESET a cycle in Shift-DR moves TDI into the bypass register and leaves the boundary register alone. -/
theorem State.tck_shiftDr_outside (s : State) (tms tdi : Bool) (pins : List Bool) (h : s.pwr.mode ≠ .reset)
    (hs : s.tap.st = .shiftDr) :
    (s.tck tms tdi pins).tap.bypass = tdi ∧ (s.tck tms tdi pins).tap.scan = s.tap.scan ∧
      (s.tck tms tdi pins).tap.held = s.tap.held := by
  cases tms <;> simp [State.tck, Tap.rise, Tap.fall, TapState.next, s.tapInstr_outside h, hs]

/-- A cycle of JTAG_TCK touches the TAP alone. -/
theorem State.tck_only (s : State) (tms tdi : Bool) (pins : List Bool) :
    s.tck tms tdi pins = { s with tap := (s.tck tms tdi pins).tap } := rfl

/-- In RESET every output of Table 15.8 but PCIe TX is high-impedance. -/
theorem State.outputs_in_reset (s : State) (t : Instant) (h : s.pwr.mode = .reset) :
    s.nintPin t = .highZ ∧ s.throttlePin t = .highZ ∧ s.alivePin = .highZ ∧ (∀ cs b, s.misoPin cs b = .highZ) ∧
      s.nvmDriven = false ∧ s.pcieTx t = .electricalIdle := by
  simp [State.nintPin, State.nintLow, State.throttlePin, State.alivePin, State.misoPin, State.nvmDriven, State.pcieTx,
    State.released, h]

end Sys2Proof.Machine
end

