-- ==== Sys2Proof/WellFormed.lean ====
section
/-! DEFINITION. Which commands are well formed: the bounds of a row's operands that their types do not carry. -/

namespace Sys2Proof

/-- A frame carries 1 to 64 words and a header has seven bytes (R540, Table 16.1); DIAG moves 1 to 16 galley words
(R564); COND 0xF, D above 13 and selectors above 8 are undefined (R218); training measures the 1,152 lanes of the
training slot (Table 14.7); a trim window calibrates four interpolators (R448). -/
def Instr.wf : Instr → Bool
  | .read _ _ n => 1 ≤ n && n ≤ 64
  | .write _ _ d _ => 1 ≤ d.length && d.length ≤ 64
  | .frameAbort _ _ _ n => 1 ≤ n && n ≤ 64
  | .headerRejected _ bytes => bytes.length == 7
  | .diagWrite _ _ _ _ d => 1 ≤ d.length && d.length ≤ 16
  | .csel _ _ _ _ cond => cond != 15
  | .b _ cond _ => cond != 15
  | .evt _ d => d.toNat ≤ 13
  | .evtp _ d => d.toNat ≤ 13
  | .sysr _ _ sel => sel.toNat ≤ 8
  | .trainingEnd lanes _ => lanes.length == 1152
  | .acquisitionEnd _ cells _ _ => cells.length == 4
  | _ => true

end Sys2Proof
end

