-- ==== Sys2Proof/Tests/Slice0.lean ====
section
/-! SUPPORT. Tests: the checks of `Instr.wf`, worked examples of the spec, and for every statement with hypotheses a
state and operands that meet them, clause by clause. -/

namespace Sys2Proof.Tests

set_option Elab.async false

open Sys2Proof Sys2Proof.Machine Sys2Proof.Safety

/-! ## States to start from -/

/-- The device running, every domain on. -/
def live : State :=
  { State.reset with clocks := Clocks.nominal, pwr := { State.reset.pwr with mode := .run, doms := Vector.replicate 104 .on } }

/-- `live` with channel 0 changed. -/
def liveC (f : Channel → Channel) : State := live.modChan 0 f

/-- `live` with the engine of channel 0 running at a word, and changed further. -/
def engAt (w : Word) (f : Engine → Engine := id) : State :=
  liveC fun x => { x with eng := f { x.eng with st := .run, imem := [(0, w)] } }

def ready (s : State) (i : Instr) (k : Nat) : Bool :=
  let e := (s.chan 0).eng
  s.chOn 0 && e.st == .run && e.lib == none && e.imemErr.lookup e.pc.toNat != some true &&
    decodeEng 0 (sget 0 e.imem e.pc.toNat) == some i && !(s.chan 0).cutBefore (e.readyDc + k)

theorem ready_iff {s : State} {i : Instr} {k : Nat} : EngReady s 0 i k ↔ ready s i k = true := by
  simp only [ready, Bool.and_eq_true, beq_iff_eq, bne_iff_ne, ne_eq, Bool.not_eq_true']
  exact ⟨fun h => ⟨⟨⟨⟨⟨h.on, h.run⟩, h.own⟩, h.clean⟩, h.word⟩, h.uncut⟩,
    fun h => ⟨h.1.1.1.1.1, h.1.1.1.1.2, h.1.1.1.2, h.1.1.2, h.1.2, h.2⟩⟩

/-! ## Well-formed commands -/

theorem test_wf_refuses :
    ([.read 0 0 0, .read 0 0 65, .write 0 0 [] 0, .write 0 0 (List.replicate 65 0) 0, .frameAbort 0 false 0 0,
      .frameAbort 0 false 0 65, .headerRejected 0 [0, 0, 0, 0, 0, 0], .diagWrite 0 0 0 0 [],
      .diagWrite 0 0 0 0 (List.replicate 17 0), .csel 0 3 2 9 15, .b 0 15 0, .evt 0 14, .evtp 0 14, .sysr 0 3 9,
      .trainingEnd [] true, .acquisitionEnd 0 [] [] []] : List Instr).all (fun i => !i.wf) = true := by
  decide +kernel

theorem test_wf_accepts :
    ([.read 0 0 1, .read 0 0 64, .write 0 0 [0] 0, .csel 0 3 2 9 14, .b 0 14 0, .evt 0 13, .sysr 0 3 8] :
      List Instr).all (fun i => i.wf) = true := by
  decide +kernel

/-! ## Words of the engine (Tables 6.1 to 6.5)

Words written out from the encodings, the instruction each stands for and the dc it takes; those of ADDI, DIVU and B are
the worked example under R218. -/

def arithWords : List (Word × Instr × Nat) :=
  [(0x08CA4000, .add 0 3 2 9, 1), (0x0CCA4000, .sub 0 3 2 9, 1), (0x40CBFFFB, .addi 0 3 2 0x3FFFB, 1),
   (0x3C0A4000, .cmp 0 2 9, 1), (0x5C0A0000, .cmpi 0 2 0x20000, 1), (0x28CA4000, .mul 0 3 2 9, 1),
   (0x2FCA4000, .min 0 15 2 9, 1), (0x300A4000, .max 0 0 2 9, 1), (0x34CA4000, .minu 0 3 2 9, 1),
   (0x38CA4000, .maxu 0 3 2 9, 1)]

def logicWords : List (Word × Instr × Nat) :=
  [(0x04000000, .engineNop 0, 1), (0x10CA4000, .and 0 3 2 9, 1), (0x14CA4000, .or 0 3 2 9, 1),
   (0x18CA4000, .xor 0 3 2 9, 1), (0x44CBFFFF, .andi 0 3 2 0x3FFFF, 1), (0x48C80001, .ori 0 3 2 1, 1),
   (0x4CC80001, .xori 0 3 2 1, 1), (0x60F0FFFF, .movz 0 3 3 0xFFFF, 1), (0x64C00007, .movk 0 3 0 7, 1),
   (0x68CA7800, .csel 0 3 2 9 14, 1), (0x6CC80000, .clz 0 3 2, 1)]

def shiftWords : List (Word × Instr × Nat) :=
  [(0x1CCA4000, .shl 0 3 2 9, 1), (0x20CA4000, .shr 0 3 2 9, 1), (0x24CA4000, .sar 0 3 2 9, 1),
   (0x50C8003F, .shli 0 3 2 63, 1), (0x54C80000, .shri 0 3 2 0, 1), (0x58C80001, .sari 0 3 2 1, 1)]

def accWords : List (Word × Instr × Nat) :=
  [(0xA1C00000, .aclr 0 7, 1), (0xA4480000, .amovs 0 1 2, 1), (0xA8480000, .aaddg 0 1 2, 1),
   (0xAC4A4000, .muls 0 1 2 9, 2), (0xB04A4000, .mulu 0 1 2 9, 2), (0xB44A4000, .macs 0 1 2 9, 2),
   (0xB84A4000, .macu 0 1 2 9, 2), (0xBC48C000, .aadd 0 1 2 3, 1), (0xC048C000, .asub 0 1 2 3, 1),
   (0xD808C000, .acmp 0 2 3, 1), (0xC448007F, .ashr 0 1 2 127, 1), (0xC8480040, .ashl 0 1 2 64, 1),
   (0xCCC80001, .aget 0 3 2 1, 1), (0xD0C80000, .asat 0 3 2, 1), (0xD4C80000, .anorm 0 3 2, 1),
   (0xDC4A4000, .apack 0 1 2 9, 1)]

def divWords : List (Word × Instr × Nat) :=
  [(0xE2824000, .divu 0 10 0 9, 34), (0xE41E4000, .divs 0 0 7 9, 34)]

theorem witness_EngineArithmetic : ∀ p ∈ arithWords, EngReady (engAt p.1) 0 p.2.1 p.2.2 := by
  simp only [ready_iff]
  decide +kernel

theorem witness_EngineLogicAndMoves : ∀ p ∈ logicWords, EngReady (engAt p.1) 0 p.2.1 p.2.2 := by
  simp only [ready_iff]
  decide +kernel

theorem witness_EngineShifts : ∀ p ∈ shiftWords, EngReady (engAt p.1) 0 p.2.1 p.2.2 := by
  simp only [ready_iff]
  decide +kernel

theorem witness_EngineAccumulators : ∀ p ∈ accWords, EngReady (engAt p.1) 0 p.2.1 p.2.2 := by
  simp only [ready_iff]
  decide +kernel

theorem witness_EngineDivides : ∀ p ∈ divWords, EngReady (engAt p.1) 0 p.2.1 p.2.2 := by
  simp only [ready_iff]
  decide +kernel

/-- `B NE, −3` and `DIVU G10, A0, G9` of the worked example under R218. -/
theorem test_words_of_R218 :
    decodeEng 5 0xF0800FFD = some (.b 5 2 0xFFD) ∧ decodeEng 5 0xE2824000 = some (.divu 5 10 0 9) ∧
      decodeEng 5 0 = none ∧ decodeEng 5 0x6BCA7C00 = none ∧ decodeEng 5 0x73800000 = none := by
  decide +kernel

/-- The last word of DMEM, the ends of the banks, and the first and last addresses of the two holes. -/
theorem witness_EngineLoads :
    (∀ p ∈ [(0x80C803FF, 0x3FF), (0x80C80800, 0x800), (0x80C80BFF, 0xBFF)],
      EngReady (engAt p.1) 0 (.ld 0 3 2 p.2) 2 ∧ Loadable ((engAt p.1).chan 0).eng (dataAddr ((engAt p.1).chan 0).eng 2 p.2)) ∧
    (∀ p ∈ [(0x884803FE, 0x3FE), (0x88480BFE, 0xBFE)], EngReady (engAt p.1) 0 (.lda 0 1 2 p.2) 2 ∧
      dataAddr ((engAt p.1).chan 0).eng 2 p.2 % 2 = 0 ∧
      Loadable ((engAt p.1).chan 0).eng (dataAddr ((engAt p.1).chan 0).eng 2 p.2) ∧
      Loadable ((engAt p.1).chan 0).eng (dataAddr ((engAt p.1).chan 0).eng 2 p.2 + 1)) ∧
    (∀ p ∈ [(0x80C80400, 0x400), (0x80C807FF, 0x7FF), (0x80C80C00, 0xC00), (0x80CBFFFF, 0x3FFFF)],
      ((engAt p.1).chan 0).folder.closePosted = none ∧ (engAt p.1).pwr.mode ≠ .reset ∧
      EngReady (engAt p.1) 0 (.ld 0 3 2 p.2) 2 ∧
      ((0x400 ≤ dataAddr ((engAt p.1).chan 0).eng 2 p.2 ∧ dataAddr ((engAt p.1).chan 0).eng 2 p.2 < 0x800) ∨
        0xC00 ≤ dataAddr ((engAt p.1).chan 0).eng 2 p.2)) ∧
    (EngReady (engAt 0x88480001) 0 (.lda 0 1 2 1) 2 ∧ dataAddr ((engAt 0x88480001).chan 0).eng 2 1 % 2 = 1) ∧
    (let s := engAt 0x80C803FF fun e => { e with dmemErr := [(0x3FF, true)] }
     EngReady s 0 (.ld 0 3 2 0x3FF) 2 ∧ dataAddr (s.chan 0).eng 2 0x3FF < 0x400 ∧
      (s.chan 0).eng.dmemErr.lookup (dataAddr (s.chan 0).eng 2 0x3FF) = some true) := by
  simp only [List.forall_mem_cons, List.not_mem_nil, false_implies, implies_true, and_true, ready_iff, Loadable]
  and_intros <;> decide +kernel

/-- The last word and the last pair of DMEM; the first address beyond, and an odd one. A table is written once. -/
theorem witness_EngineStoresAndTables :
    (EngReady (engAt 0x84C803FF) 0 (.st 0 3 2 0x3FF) 1 ∧ dataAddr ((engAt 0x84C803FF).chan 0).eng 2 0x3FF < 0x400) ∧
    (EngReady (engAt 0x8C4803FE) 0 (.sta 0 1 2 0x3FE) 2 ∧ dataAddr ((engAt 0x8C4803FE).chan 0).eng 2 0x3FE % 2 = 0 ∧
      dataAddr ((engAt 0x8C4803FE).chan 0).eng 2 0x3FE < 0x400) ∧
    (((engAt 0x84C80400).chan 0).folder.closePosted = none ∧ (engAt 0x84C80400).pwr.mode ≠ .reset ∧
      EngReady (engAt 0x84C80400) 0 (.st 0 3 2 0x400) 1 ∧ 0x400 ≤ dataAddr ((engAt 0x84C80400).chan 0).eng 2 0x400) ∧
    (EngReady (engAt 0x8C480001) 0 (.sta 0 1 2 1) 2 ∧ dataAddr ((engAt 0x8C480001).chan 0).eng 2 1 % 2 = 1) ∧
    (EngReady (engAt 0x8C480400) 0 (.sta 0 1 2 0x400) 2 ∧ 0x400 ≤ dataAddr ((engAt 0x8C480400).chan 0).eng 2 0x400) ∧
    Sparse (0 : Dword) [] := by
  simp only [ready_iff, Sparse]
  and_intros <;> decide +kernel

/-- An event in the queue, whose HEAD, TIME and VAL go to G13, G14 and G15. -/
def oneEvent : Ev := { type := 0, head := 0, time := 5, val := 7 }

theorem witness_EngineFlowAndEvents :
    (EngReady (engAt 0xF0800FFD) 0 (.b 0 2 0xFFD) 2 ∧ ((engAt 0xF0800FFD).chan 0).eng.fl.holds 2 = true) ∧
    (EngReady (engAt 0xF04007FF) 0 (.b 0 1 0x7FF) 1 ∧ ((engAt 0xF04007FF).chan 0).eng.fl.holds 1 = false) ∧
    EngReady (engAt 0xF4000800) 0 (.bl 0 0x800) 2 ∧ EngReady (engAt 0xF83C0000) 0 (.jr 0 15) 2 ∧
    (∀ f ∈ [fun e : Engine => { e with queue := [oneEvent], wdFrom := some 0 }],
      ((13 : BitVec 4).toNat ≤ 13 ∧ ((engAt 0x73400000 f).chan 0).eng.queue = [oneEvent] ∧
        ((engAt 0x73400000 f).chan 0).closesBy (((engAt 0x73400000 f).chan 0).eng.readyDc + 3) = false ∧
        ((engAt 0x77400000 f).chan 0).closesBy (((engAt 0x77400000 f).chan 0).eng.readyDc + 3) = false ∧
        EngReady (engAt 0x73400000 f) 0 (.evt 0 13) 0 ∧ EngReady (engAt 0x77400000 f) 0 (.evtp 0 13) 0)) ∧
    (∀ f ∈ [fun e : Engine => { e with queue := [oneEvent], wdFrom := some 0, st := .wait, evtD := 13 }],
      ((engAt 0x73400000 f).chan 0).eng.evtD.toNat ≤ 13 ∧ ((engAt 0x73400000 f).chan 0).eng.queue = [oneEvent] ∧
        (engAt 0x73400000 f).chOn 0 = true ∧ ((engAt 0x73400000 f).chan 0).eng.st = .wait ∧
        ((engAt 0x73400000 f).chan 0).eng.lib = none ∧
        ((engAt 0x73400000 f).chan 0).closesBy
          (max (((engAt 0x73400000 f).chan 0).eng.wdFrom.getD 0) ((engAt 0x73400000 f).chan 0).eng.readyDc + 3) = false) ∧
    (((engAt 0x77400000).chan 0).eng.queue = [] ∧ EngReady (engAt 0x77400000) 0 (.evtp 0 13) 1) ∧
    (((engAt 0x73400000).chan 0).eng.queue = [] ∧ ((engAt 0x73400000).chan 0).eng.tookClose = false ∧
      EngReady (engAt 0x73400000) 0 (.evt 0 13) 0) := by
  simp only [ready_iff]
  and_intros <;> decide +kernel

/-- RATE = 1 with one token, with none, and the wait for one; RATE = 0. -/
def emitAt (rate : Word) (f : Engine → Engine) : State :=
  (engAt 0x781C0000 f).modChan 0 fun x => { x with emitCfg := rate }

theorem witness_EngineEmits :
    (((emitAt 1 fun e => { e with tokens := 1 }).chan 0).emitRate ≠ 0 ∧
      ((emitAt 1 fun e => { e with tokens := 1 }).chan 0).eng.tokens ≠ 0 ∧
      EngReady (emitAt 1 fun e => { e with tokens := 1 }) 0 (.emit 0 7) 1) ∧
    (((emitAt 1 id).chan 0).emitRate ≠ 0 ∧ ((emitAt 1 id).chan 0).eng.tokens = 0 ∧
      EngReady (emitAt 1 id) 0 (.emit 0 7) 1) ∧
    (∀ s ∈ [emitAt 1 fun e => { e with st := .emitw, tokens := 1, nextRefill := 2048 }],
      s.chOn 0 = true ∧ (s.chan 0).eng.lib = none ∧ (s.chan 0).eng.st = .emitw ∧ (s.chan 0).eng.tokens ≠ 0 ∧
        (s.chan 0).cutBefore ((s.chan 0).eng.nextRefill - 1024 + 1) = false) ∧
    (((emitAt 0 id).chan 0).emitRate = 0 ∧ ((emitAt 0 id).chan 0).folder.closePosted = none ∧
      (emitAt 0 id).pwr.mode ≠ .reset ∧ EngReady (emitAt 0 id) 0 (.emit 0 7) 1) := by
  simp only [ready_iff]
  and_intros <;> decide +kernel

/-- STOP within the span of an armed record and outside one. -/
def stopIn : State :=
  (engAt 0x90000000 fun e => { e with spanOpen := true }).modChan 0 fun x =>
    { x with armed := true, rcd := { x.rcd with isOpen := true }, folder := { x.folder with recOpen := true } }

theorem witness_EngineChannelInstructions :
    EngReady (engAt 0x7C080000) 0 (.trig 0 2) 1 ∧ EngReady (engAt 0x98080000) 0 (.gset 0 2) 1 ∧
    (EngReady (engAt 0x9CC00008) 0 (.sysr 0 3 8) 1 ∧ (8 : BitVec 18).toNat ≤ 8) ∧
    (EngReady (engAt 0x90000000) 0 (.stop 0) 1 ∧ ((engAt 0x90000000).chan 0).eng.spanOpen = false) ∧
    (∀ s ∈ [engAt 0x90000000 fun e => { e with spanOpen := true, stopped := true }],
      EngReady s 0 (.stop 0) 1 ∧ (s.chan 0).eng.spanOpen = true ∧ (s.chan 0).eng.stopped = true) ∧
    (EngReady stopIn 0 (.stop 0) 1 ∧ (stopIn.chan 0).eng.spanOpen = true ∧ (stopIn.chan 0).eng.stopped = false ∧ (stopIn.chan 0).armed = true ∧
      (stopIn.chan 0).armNext = none ∧ (stopIn.chan 0).folder.closing = none) ∧
    (EngReady (engAt 0x94000000) 0 (.halt 0) 1 ∧ ((engAt 0x94000000).chan 0).folder.closePosted = none) := by
  simp only [ready_iff]
  and_intros <;> decide +kernel

/-- The word at PC has an uncorrectable error; the word at PC is zero. -/
theorem witness_EngineFaults :
    decodeEng 0 0x08CA4000 = some (.add 0 3 2 9) ∧
    (∀ s ∈ [engAt 0x08CA4000 fun e => { e with imemErr := [(0, true)] }],
      s.chOn 0 = true ∧ (s.chan 0).eng.st = .run ∧ (s.chan 0).cutBefore ((s.chan 0).eng.readyDc + 34) = false ∧
      (s.chan 0).folder.closePosted = none ∧ s.pwr.mode ≠ .reset ∧ (s.chan 0).eng.lib = none ∧
      (s.chan 0).eng.imemErr.lookup (s.chan 0).eng.pc.toNat = some true) ∧
    (∀ s ∈ [engAt 0], s.chOn 0 = true ∧ (s.chan 0).eng.lib = none ∧ (s.chan 0).eng.st = .run ∧
      (s.chan 0).cutBefore ((s.chan 0).eng.readyDc + 34) = false ∧
      (s.chan 0).folder.closePosted = none ∧ s.pwr.mode ≠ .reset ∧
      (s.chan 0).eng.imemErr.lookup (s.chan 0).eng.pc.toNat ≠ some true ∧
      decodeEng 0 (sget 0 (s.chan 0).eng.imem (s.chan 0).eng.pc.toNat) = none) := by
  and_intros <;> decide +kernel

/-- A start due at 5, a reload due at 5, an event waiting since dc 9, and a CLOSE waiting since dc 9. -/
theorem witness_EngineStartsAndWatchdogs :
    (∀ s ∈ [liveC fun x => { x with engCtl := 0x1001, eng := { x.eng with startDue := some 5 } }],
      (s.chan 0).eng.startDue = some 5 ∧ (s.chan 0).eng.reloadDue = none ∧ s.chOn 0 = true ∧
        (s.chan 0).engCtl.getLsbD 0 = true) ∧
    ((liveC fun x => { x with eng := { x.eng with reloadDue := some 5 } }).chan 0).eng.reloadDue = some 5 ∧
    (∀ s ∈ [engAt 0 fun e => { e with queue := [oneEvent], wdFrom := some 9 }],
      s.chOn 0 = true ∧ s.pwr.mode ≠ .reset ∧ (s.chan 0).eng.st = .run ∧ (s.chan 0).eng.wdFrom = some 9 ∧
        (s.chan 0).folder.closePosted = none ∧ (s.chan 0).eng.lib = none) ∧
    (∀ s ∈ [(engAt 0).modChan 0 fun x => { x with
        rcd := { x.rcd with isOpen := true }, folder := { x.folder with closePosted := some 9, byDisarm := true } }],
      s.chOn 0 = true ∧ s.pwr.mode ≠ .reset ∧ (s.chan 0).eng.st = .run ∧ (s.chan 0).folder.closePosted = some 9 ∧
        (s.chan 0).rcd.isOpen = true ∧ (s.chan 0).armed = false ∧ (s.chan 0).armNext = none ∧
        (s.chan 0).folder.byDisarm = true) := by
  and_intros <;> decide +kernel

/-! ## Library -/

/-- The bank of a gate: index, flags, edge count of class 0, set 0 and set 1 with their n and sum, and the regression. -/
def bankOf (idx fl c0 n0 x0 n1 x1 : Nat) (reg : List Dword) : List Dword :=
  [0, 0, BitVec.ofNat 64 (idx * 2 ^ 32 + fl), BitVec.ofNat 64 c0] ++ List.replicate 8 0 ++
    [BitVec.ofNat 64 n0, BitVec.ofNat 64 x0, 0, 0, 0, 0, 0, 0, BitVec.ofNat 64 n1, BitVec.ofNat 64 x1, 0, 0, 0, 0, 0, 0] ++ reg

/-- 07_measurements.md: the DUTY and MEAN examples of CH20.H, and FREQ_RECIP of a 100 MHz clock. -/
def dutyBank : List Dword := bankOf 1 0 100000 50000 1331200000 50000 1228800000 []
def descFor (func : Nat) : MeasDesc :=
  { func := func, action := 0, src := 0, src2 := 1, cmask := 1, n := 1, lo := 0, hi := 0, pnom := 0 }
def valueOf (b : List Dword) (d : MeasDesc) : List (Option Int) := (gateOut live.chans[0].cfg b d).map fun o => o.val.map (·.value)

theorem test_library_values :
    valueOf dutyBank (descFor 9) = [some 0x851EB852] ∧ valueOf dutyBank (descFor 5) = [some (26624 * 2 ^ 32)] ∧
      valueOf (bankOf 1 0 100000 100000 2560000000 0 0 []) (descFor 1) = [some 0x5AF3107A4000] ∧
      valueOf dutyBank (descFor 12) = [some 100000] := by
  decide +kernel

/-- 07_measurements.md, under R264: five samples give S = 192, M = 3 and 4.0762e14. -/
theorem test_library_adev :
    (let a := ([0, 4, 0, 4, 0].map some : List (Option Int)).foldl
        (fun a x => a.take [1] 0 (x.map fun v => (v, 0))) (AdevSt.clear [1])
     a.acc = [(192 * 2 ^ 32, 3)] ∧ (a.results [1] 125).map (fun o => o.val.map fun e => (e.value + 5 * 10 ^ 9) / 10 ^ 10) = [some 40762]) := by
  decide +kernel

/-- Preconditions of the result clauses: a set with samples, one without, and two sets. -/
theorem witness_EngineFaults_results :
    setBad dutyBank 0 = false ∧ (bankSet dutyBank 0).n ≠ 0 ∧ (bankSet dutyBank 0).sx ≠ 0 ∧ setBad dutyBank 1 = false ∧
      (bankSet dutyBank 1).n ≠ 0 ∧ (bankSet dutyBank 1).sx ≠ 0 ∧ setBad [] 0 = false ∧ (bankSet [] 0).n = 0 ∧
      setBad (bankOf 0 2 0 0 0 0 0 []) 0 = true ∧
      bankFit (bankOf 0 0 0 0 0 0 0 ([3, 30, 0, 50, 0, 3, 0, 5, 0].map (BitVec.ofNat 64))) ≠ none := by
  decide +kernel

/-- An engine of the library that is ready, that waits, and that has a word, a TRIG or a STOP to do. -/
def libAt (f : Engine → Engine) (g : LibSt → LibSt) : State :=
  liveC fun x => { x with
    emitCfg := 1, armed := true, rcd := { x.rcd with isOpen := true }, folder := { x.folder with recOpen := true }
    eng := f { x.eng with st := .run, lib := some (g (LibSt.init 0)), queue := [oneEvent], wdFrom := some 0 } }

def libOk (s : State) (k : Nat) : Bool :=
  s.chOn 0 && (s.chan 0).eng.st == .run && !(s.chan 0).cutBefore ((s.chan 0).eng.readyDc + k)

theorem witness_EngineFaults_runs :
    (∀ s ∈ [libAt id id], libOk s 0 = true ∧ (s.chan 0).closesBy ((s.chan 0).eng.readyDc + 3) = false ∧
      (s.chan 0).eng.dmemErr = [] ∧ (s.chan 0).eng.queue = [oneEvent] ∧ (s.chan 0).eng.lib = some (LibSt.init 0)) ∧
    (∀ s ∈ [libAt (fun e => { e with st := .wait }) id], s.chOn 0 = true ∧ (s.chan 0).eng.st = .wait ∧
      (s.chan 0).closesBy (max ((s.chan 0).eng.wdFrom.getD 0) (s.chan 0).eng.readyDc + 3) = false ∧
      (s.chan 0).eng.dmemErr = [] ∧ (s.chan 0).eng.queue = [oneEvent]) ∧
    (∀ t ∈ [0, 1], ∀ s ∈ [libAt (fun e => { e with tokens := t }) fun l => { l with acts := [⟨6, .emit 7⟩] }],
      libOk s 6 = true ∧ (s.chan 0).emitRate ≠ 0 ∧ (s.chan 0).eng.tokens = t) ∧
    (∀ s ∈ [libAt (fun e => { e with st := .emitw, tokens := 1, nextRefill := 2048 }) fun l =>
        { l with acts := [⟨6, .emit 7⟩] }],
      s.chOn 0 = true ∧ (s.chan 0).eng.st = .emitw ∧ (s.chan 0).eng.tokens ≠ 0 ∧
        (s.chan 0).cutBefore ((s.chan 0).eng.nextRefill - 1024 + 1) = false) ∧
    (∀ a ∈ [LibDo.trig 5, LibDo.stop], ∀ s ∈ [libAt (fun e => { e with spanOpen := true }) fun l => { l with acts := [⟨1, a⟩] }],
      libOk s 1 = true ∧ (s.chan 0).eng.spanOpen = true ∧ (s.chan 0).eng.stopped = false ∧ (s.chan 0).armed = true ∧
        (s.chan 0).armNext = none ∧ (s.chan 0).folder.closing = none) := by
  and_intros <;> decide +kernel

/-! ## Lanes, merge and folder -/

/-- An edge of lane H of channel 0, and the same with the other polarity as lane L has it. -/
def entryH : Entry :=
  { conv := 40, sub := 0, abs := 40, kgen := 0, time := 40, type := 0, lane := false, pol := true, ptnr := false, psrc := 0, edges := 1
    lost := 0, xck := 0, dskc := false, coast := false, slew := false, sup := false, inj := false, lock := false
    dgen := 0 }
def entryL : Entry := { entryH with lane := true }

def waiting (e : Entry) : FifoEntry := { e := e, wr := 0, own := true, subs := [] }

/-- Channel 0 armed under a locked timebase, with the configuration and state of lane H. -/
def laneS (cfg : Word) (f : Lane → Lane) : State :=
  { liveC fun x => { x with armed := true, cfg := { x.cfg with lnCfgH := cfg }, laneH := f x.laneH } with
    tb := { State.reset.tb with st := .locked } }

/-- What every clause of LaneTransitions asks for, for a rising edge at instant 100. -/
def edgeTaken (s : State) : Bool :=
  s.chOn 0 && s.stamping && !(s.chan 0).trim.running && !(s.laneAt 0).level && (s.chan 0).armedAt (max s.now 100) &&
    (s.laneAt 0).restartAt.isNone

/-- Not selected; inside the lockout of an edge at 99; converted with one place left; converted with none. -/
theorem witness_LaneTransitions :
    (edgeTaken (laneS 0 id) = true ∧ ((laneS 0 id).chan 0).lnCfg (laneIsL 0) = 0) ∧
    (∀ s ∈ [laneS 0x10 fun l => { l with lastConv := some 99, edges := 1 }],
      edgeTaken s = true ∧ (((s.chan 0).lnCfg (laneIsL 0)).getLsbD 4 = true ∧ (s.laneAt 0).loss = none ∧
        (s.laneAt 0).edges ≠ 0) ∧ (s.laneAt 0).lastConv = some 99 ∧ max s.now 100 < 99 + 51200) ∧
    (∀ p ∈ [(4095, true), (4096, false)],
      let s := laneS 0x10 fun l => { l with fifo := List.replicate p.1 (waiting entryH) }
      edgeTaken s = true ∧ ((s.chan 0).lnCfg (laneIsL 0)).getLsbD 4 = true ∧ (s.laneAt 0).loss = none ∧
        (s.laneAt 0).need ≤ (s.laneAt 0).edges + 1 ∧ (s.laneAt 0).xopen = none ∧
        fld ((s.chan 0).lnXchk (laneIsL 0)) 0 4 = 0 ∧ (s.laneAt 0).lastConv = none ∧ s.pwr.mode ≠ .reset ∧
        decide ((s.laneAt 0).fifo.length + (s.laneAt 0).reserved.length < 4096) = p.2) := by
  and_intros <;> decide +kernel

def someLoss : Loss :=
  { firstConv := 1, firstSub := 0, firstAbs := 1, firstTime := 1, firstPol := true, firstDgen := 0, lastTime := 1, lastDgen := 0
    count := 1 }

/-- A reserved entry; a loss interval with 64 places free, and with 63; an open cross-check. -/
theorem witness_LaneFifoAndChecks :
    ((laneS 0 fun l => { l with reserved := [(5, entryH)] }).laneAt 0).reserved = [(5, entryH)] ∧
    (∀ p ∈ [(4032, true), (4033, false)],
      let s := laneS 0 fun l => { l with loss := some someLoss, fifo := List.replicate p.1 (waiting entryH) }
      (s.laneAt 0).loss = some someLoss ∧ (s.chan 0).armedAt (s.span.next s.now) = true ∧
        decide ((s.laneAt 0).fifo.length + (s.laneAt 0).reserved.length + 64 ≤ 4096) = p.2) ∧
    ((laneS 0 fun l => { l with xopen := some (5, 3) }).laneAt 0).xopen = some (5, 3) := by
  decide +kernel

/-- Both lanes hold an entry that can be read; the merge is held. -/
def twoHeads : State :=
  liveC fun x => { x with
    laneH := { x.laneH with fifo := [waiting entryH] }, laneL := { x.laneL with fifo := [waiting entryL] }
    merge := { x.merge with window := [(100, 1)] } }

theorem witness_MergeReads :
    (∀ s ∈ [twoHeads], ((s.chan 0).merge.held = false ∧ s.chOn 0 = true ∧ (s.heads 0).length ≠ 0 ∧ s.openMarks 0 = []) ∧
      (s.chan 0).cfg.ptnr.getLsbD 31 = false ∧ (s.chan 0).merge.ins = [] ∧
      s.headOf 0 (laneIx 0 false) false = some (waiting entryH) ∧ s.headOf 0 (laneIx 0 true) false = some (waiting entryL) ∧
      s.readable (laneIx 0 false) 0 ≤ 101 ∧ s.readable (laneIx 0 true) 0 ≤ 101 ∧
      (s.chan 0).merge.window.foldl (fun a p => max a (p.1 + 1)) 0 = 101 ∧
      (s.dress (laneIx 0 false) false entryH).lane = false ∧ (s.dress (laneIx 0 true) false entryL).lane = true) ∧
    (∀ s ∈ [liveC fun x => { x with merge := { x.merge with held := true } }], (s.chan 0).merge.held = true ∧
      (s.chan 0).folder.held = false ∧ s.writerRoom (pierOf 0) = true) := by
  and_intros <;> decide +kernel

def discRec : Insert :=
  { fence := false, inst := 40, sub := 0, time := 45, cause := 1, loop := false, tstate := 0, step := 5, newStep := 0
    newEpoch := 0, newSite := 0, oldStep := 0, oldEpoch := 0, oldSite := 0 }
def fenceRec : Insert := { discRec with fence := true, step := 0, newStep := 1, newEpoch := 1, newSite := 1 }

/-- An open record under the RECORD gate with delta slot 0 enabled, and an item at the folder in dc 7. -/
def intakeS (it : Item) (closing : Option Int) : State :=
  liveC fun x => { x with
    cfg := { x.cfg with dslot := [0x80000000, 0, 0, 0] }
    folder := { x.folder with recOpen := true, closing := closing }
    merge := { x.merge with reorder := [(it, 7, 0)] } }

def intakeOk (it : Item) (closing : Option Int) (mine : Bool) : Bool :=
  let s := intakeS it closing
  let x := s.chan 0
  s.chOn 0 && !x.folder.held && x.folder.frozen.isNone && x.folder.recOpen && x.merge.reorder == [(it, 7, 0)] &&
    x.folder.belongs x it == mine && x.gateKind == 0 && x.folder.slots.length == 4 && (x.dslot 0).getLsbD 31 &&
    !x.folder.restartH

/-- An entry of the next record at C; a stamp, a discontinuity record and a fence record of the open one. -/
theorem witness_FolderIntakes :
    intakeOk (.entry entryH) (some 40) false = true ∧ intakeOk (.entry entryH) (some 41) true = true ∧
      intakeOk (.ins discRec) none true = true ∧ intakeOk (.ins fenceRec) none true = true := by
  decide +kernel

/-- An open record at dc 1,000 with TIME gates of 1 sc, reductions of 1 sc on both units, a mask window that ends at 2,048
and phase samples every sc. -/
def unitsS (f : ChanCfg → ChanCfg) (mask : List MaskPend) : State :=
  (liveC fun x => { x with
    cfg := f x.cfg
    rcd := { x.rcd with isOpen := true }
    folder := { x.folder with recOpen := true, mask := mask } }).at_ (live.dcAt 1000)

def unitsOk (s : State) (n : Nat) : Bool :=
  s.chOn 0 && (s.chan 0).folder.recOpen && !(s.chan 0).folder.done && (s.chan 0).folder.closing.isNone &&
    s.streamDue 0 2048 == some n

theorem witness_FolderUnits :
    (∀ s ∈ [unitsS (fun g => { g with fldCfg := 0x10000000, gateSc := 1 }) []],
      unitsOk s 1000 = true ∧ (s.chan 0).gateStop = some 2048 ∧ (s.chan 0).folder.mask = [] ∧
        (s.chan 0).cfg.gateSc ≠ 0) ∧
    (∀ s ∈ [unitsS (fun g => { g with redCfg := [0x80000000, 0x80000000], redSc := 1 }) []],
      unitsOk s 1000 = true ∧ (s.chan 0).folder.red.length = 2 ∧ ((s.chan 0).redCfg 0).getLsbD 31 = true ∧
        (s.chan 0).redStop 0 = 2048 ∧ (s.chan 0).cfg.redSc ≠ 0 ∧ (s.chan 0).redStop 1 = 2048) ∧
    (∀ s ∈ [unitsS (fun g => { g with redCfg := [0, 0x80000000], redSc := 1 }) []],
      unitsOk s 1000 = true ∧ ((s.chan 0).redCfg 1).getLsbD 31 = true ∧ (s.chan 0).redStop 1 = 2048 ∧
        ((s.chan 0).redCfg 0).getLsbD 31 = false) ∧
    (∀ s ∈ [unitsS id [{ w := 0, ref := 0, start := 0, stop := 2048, ovf := false }]],
      unitsOk s 1000 = true ∧ ((s.chan 0).folder.mask.map (·.stop)).min? = some 2048 ∧ (s.chan 0).gateStop = none) ∧
    (∀ s ∈ [unitsS (fun g => { g with phsCfg := 0x80000001 }) []],
      unitsOk s 1000 = true ∧ (s.chan 0).cfg.phsCfg.getLsbD 31 = true ∧
        (s.chan 0).folder.o + ((s.chan 0).folder.phsI + 1 : Nat) * ((fld (s.chan 0).cfg.phsCfg 0 28 * 2048 : Nat) : Int)
          = 2048) := by
  and_intros <;> decide +kernel

/-- An engine that runs beside an open record in which an event has fallen due, at dc 1,000. -/
def postS (v : Ev) (f : Channel → Channel) : State :=
  (liveC fun x => f { x with
    eng := { x.eng with st := .wait }
    folder := { x.folder with recOpen := true, due := [v] } }).at_ (live.dcAt 1000)

def postOk (s : State) (v : Ev) : Bool :=
  s.chOn 0 && (s.chan 0).folder.recOpen && !(s.chan 0).folder.held && s.closeDue 0 == none &&
    (s.chan 0).folder.due == [v] &&
    (if v.type = 1 then s.dc s.now == 1000 else s.streamDue 0 (v.time + 1) == some 1000)

/-- `n` of the four banks are held, and `m` events wait. -/
def fullTo (m n : Nat) (x : Channel) : Channel :=
  { x with eng := { x.eng with queue := List.replicate m oneEvent }
           banks := (List.range 4).map fun i => { Bank.reset with held := i < n } }

/-- OPEN and EDGE with 63 events waiting; SUMMARY with the last bank free; a full queue; no bank free; an engine that
takes no event; the end of a hold with 63 events waiting. -/
theorem witness_EventQueue :
    (∀ v ∈ [{ oneEvent with type := 1 }, { oneEvent with type := 3 }], ∀ s ∈ [postS v (fullTo 63 4)],
      postOk s v = true ∧ (s.chan 0).eng.deaf = false ∧ (s.chan 0).eng.queue.length < 64 ∧ v.type ≠ 4) ∧
    (∀ v ∈ [{ oneEvent with type := 4 }], ∀ s ∈ [postS v (fullTo 63 3)],
      postOk s v = true ∧ (s.chan 0).eng.deaf = false ∧ (s.chan 0).eng.queue.length < 64 ∧ v.type = 4 ∧
        (s.chan 0).banks.length = 4 ∧ ((s.chan 0).banks.getD 3 Bank.reset).held = false ∧
        ∀ a < 3, ((s.chan 0).banks.getD a Bank.reset).held = true) ∧
    (∀ v ∈ [{ oneEvent with type := 3 }], ∀ s ∈ [postS v (fullTo 64 0)],
      postOk s v = true ∧ (s.chan 0).eng.deaf = false ∧ 64 ≤ (s.chan 0).eng.queue.length) ∧
    (∀ v ∈ [{ oneEvent with type := 4 }], ∀ s ∈ [postS v (fullTo 0 4)],
      postOk s v = true ∧ (s.chan 0).eng.deaf = false ∧ v.type = 4 ∧
        ∀ a < 4, ((s.chan 0).banks.getD a Bank.reset).held = true) ∧
    (∀ v ∈ [{ oneEvent with type := 3 }], ∀ s ∈ [postS v fun x => { x with eng := { x.eng with st := .halt } }],
      postOk s v = true ∧ (s.chan 0).eng.deaf = true ∧ v.type ≠ 2) ∧
    (∀ v ∈ [{ oneEvent with type := 4 }],
      ∀ s ∈ [postS v fun x => fullTo 63 3 { x with folder := { x.folder with held := true } }],
      s.chOn 0 = true ∧ (s.chan 0).folder.recOpen = true ∧ (s.chan 0).folder.held = true ∧
        (s.chan 0).eng.queue.length < 64 ∧ (s.chan 0).folder.due.head? = some v ∧
        ((s.chan 0).banks.getD 3 Bank.reset).held = false) := by
  and_intros <;> decide +kernel

/-! ## Trigger unit and galley writers -/

/-- An open record whose arm point is at 2,048, at dc 1,000. -/
def trigS (f : ChanCfg → ChanCfg) (g : Trigger → Trigger) : State :=
  (liveC fun x => { x with
    cfg := f x.cfg
    rcd := { x.rcd with isOpen := true }
    trg := g { x.trg with st := .armed, a := 2048 }
    folder := { x.folder with recOpen := true } }).at_ (live.dcAt 1000)

def trigOk (s : State) (k : Cond) : Bool :=
  let z := s.at_ (s.dcAt 1000)
  s.chOn 0 && (s.chan 0).folder.stopAsk.isNone && (s.chan 0).folder.closing.isNone && (s.chan 0).rcd.isOpen && (s.chan 0).trg.cross.isEmpty &&
    (s.chan 0).autoAt == none && (s.chan 0).trg.pend == [k] && s.condDue 0 k == some 1000 && z.condDue 0 k == some 1000

/-- A condition at the arm point, one before it, one in the fill, one in the span cycle of the declaration; the AUTO
condition; a crossbar edge with and without a PATTERN condition; the end of the hold-off and of the collection. -/
theorem witness_TriggerUnit :
    (∀ k ∈ [({ i := 7, time := 2048, dc := 0 } : Cond)], ∀ s ∈ [trigS id fun t => { t with pend := [k] }],
      trigOk s k = true ∧ (s.chan 0).trg.st = .armed ∧ (s.chan 0).trg.a ≤ k.time ∧ (s.chan 0).outq = []) ∧
    (∀ k ∈ [({ i := 0, time := 2047, dc := 0 } : Cond)], ∀ s ∈ [trigS id fun t => { t with pend := [k] }],
      trigOk s k = true ∧ (s.chan 0).trg.st = .armed ∧ k.time < (s.chan 0).trg.a) ∧
    (∀ k ∈ [({ i := 0, time := 2048, dc := 0 } : Cond)], ∀ s ∈ [trigS id fun t => { t with pend := [k], st := .fill }],
      trigOk s k = true ∧ (s.chan 0).trg.st = .fill) ∧
    (∀ k ∈ [({ i := 0, time := 2048, dc := 0 } : Cond)],
      ∀ s ∈ [(trigS id fun t => { t with pend := [k] }).modChan 0 fun x => x.modF fun f => { f with closing := some 2048 }],
      s.chOn 0 = true ∧ s.condDue 0 k = some 1000 ∧ (s.at_ (s.dcAt 1000)).condDue 0 k = some 1000 ∧
        (s.chan 0).autoAt = none) ∧
    (∀ k ∈ [({ i := 0, time := 4095, dc := 0 } : Cond)],
      ∀ s ∈ [trigS id fun t => { t with pend := [k], st := .collect, declTime := 2048 }],
      trigOk s k = true ∧ (s.chan 0).trg.st = .collect ∧ k.time / 2048 = (s.chan 0).trg.declTime / 2048 ∧
        (s.chan 0).folder.byDisarm = false ∧ (s.chan 0).trg.final = false) ∧
    (∀ s ∈ [trigS (fun g => { g with
        trgAuto := 1, trgCfg := 0x10010000, trgCond := (0x70000000, 0, 0) :: List.replicate 7 (0, 0, 0) }) id],
      s.chOn 0 = true ∧ (s.chan 0).folder.stopAsk = none ∧ (s.chan 0).trg.cross = [] ∧ (s.chan 0).trg.pend = [] ∧
        (s.chan 0).autoAt = some ((s.chan 0).trg.a + (s.chan 0).cfg.trgAuto.toNat * 2048) ∧
        s.streamDue 0 ((s.chan 0).trg.a + (s.chan 0).cfg.trgAuto.toNat * 2048) = some 1000 ∧
        (s.at_ (s.dcAt 1000)).streamDue 0 ((s.chan 0).trg.a + (s.chan 0).cfg.trgAuto.toNat * 2048) = some 1000 ∧
        (s.chan 0).folder.closing = none) ∧
    (∀ s ∈ [trigS id fun t => { t with cross := [(2048, 23, true)] }],
      s.chOn 0 = true ∧ (s.chan 0).folder.stopAsk = none ∧ (s.chan 0).trg.cross = [(2048, 23, true)] ∧
        (s.chan 0).trg.pend = [] ∧ (s.chan 0).autoAt = none ∧ s.crossDue 0 (2048, 23, true) = some 1000 ∧
        (s.at_ (s.dcAt 1000)).crossDue 0 (2048, 23, true) = some 1000 ∧ ∀ i < 8, (s.chan 0).condKind i ≠ 3) ∧
    (∀ s ∈ [trigS (fun g => { g with
        trgCfg := 0x10010000, trgCond := (0x30000000, 0x800000, 0x800000) :: List.replicate 7 (0, 0, 0) })
        fun t => { t with cross := [(2048, 23, true)] }],
      s.chOn 0 = true ∧ (s.chan 0).folder.stopAsk = none ∧ (s.chan 0).trg.cross = [(2048, 23, true)] ∧
        (s.chan 0).trg.pend = [] ∧ (s.chan 0).autoAt = none ∧ s.crossDue 0 (2048, 23, true) = some 1000 ∧
        (s.at_ (s.dcAt 1000)).crossDue 0 (2048, 23, true) = some 1000 ∧ (s.chan 0).condKind 0 = 3 ∧
        (∀ j < 8, j ≠ 0 → (s.chan 0).condKind j ≠ 3) ∧ (s.chan 0).rcd.isOpen = true ∧
        (s.chan 0).folder.closing = none ∧ (s.chan 0).trg.st = .armed ∧
        (s.chan 0).trg.a ≤ 2048 + (s.chan 0).folder.base ∧ (s.chan 0).patternMatch 0 (s.chan 0).trg.pat = false ∧
        (s.chan 0).patternMatch 0 (putFld (s.chan 0).trg.pat 23 1 (bit true)) = true) ∧
    (∀ s ∈ [trigS id fun t => { t with st := .holdoff }],
      (s.chan 0).trg.st = .holdoff ∧ s.streamDue 0 (s.chan 0).trg.a = some 1000) ∧
    (∀ s ∈ [trigS id fun t => { t with st := .collect, cause := 0x80 }],
      (s.chan 0).trg.st = .collect ∧ (s.chan 0).trg.final = false ∧ (s.chan 0).trg.cause.getLsbD 7 = true ∧
        ∀ j < 7, (s.chan 0).trg.cause.getLsbD j = false) := by
  and_intros <;> decide +kernel

/-- A channel whose site is bound and whose circular ring is free, waiting for its re-arm. -/
def rearmS (f : Channel → Channel) : State :=
  { liveC f with place := { State.reset.place with table := [(0, 0x80000001)] } }

theorem witness_RearmOpensRecord :
    (∀ s ∈ [rearmS fun x => { x with heldRearm := some 5, held := true }, rearmS fun x => { x with formeRearm := some 5 }],
      s.chOn 0 = true ∧ s.bound 0 = true ∧ (s.chan 0).trim.running = false ∧ (s.chan 0).rcd.isOpen = false ∧
        (s.placeFor 0 (s.chan 0).cfg none).isSome = true ∧
        ((s.chan 0).heldRearm = some 5 ∨ (s.chan 0).formeRearm = some 5 ∧ (s.chan 0).armed = false)) := by
  decide +kernel

/-- A word of the channel that is not written, and one for galley word `g`. -/
def handS (g : Option Nat) (final : Bool) (held : List BufWord) : State :=
  let s := liveC fun x => { x with
    rcd := { x.rcd with isOpen := true, r := 65520 }, outq := [{ OutWord.none with g := g, final := final }] }
  { s with writers := s.writers.set 0 held }

def bufWord (g dc : Nat) : BufWord := { ch := 0, g := g, word := 0, dc := dc, final := false }

theorem witness_GalleyWriters :
    ((handS none false []).chOn 0 = true ∧ ((handS none false []).chan 0).outq.length = 1) ∧
    ((handS (some 5) false (List.replicate 16384 (bufWord 0 0))).writerRoom 0 = false ∧
      (handS (some 5) false (List.replicate 16384 (bufWord 0 0))).intakeStalled 0 = false) ∧
    ((handS (some 5) false (List.replicate 16383 (bufWord 0 0))).writerRoom 0 = true ∧
      (handS (some 5) false []).endsChunk 0 5 = false) ∧
    ((handS (some 127) false []).writerRoom 0 = true ∧ (handS (some 127) false []).endsChunk 0 127 = true) ∧
    ((handS (some 65527) true []).writerRoom 0 = true ∧ (handS (some 65527) true []).endsChunk 0 65527 = true ∧
      (handS (some 65527) true []).vlt.reqs = []) ∧
    (∀ s ∈ [handS none false [bufWord 0 9, bufWord 1 7]], s.chOn 0 = true ∧ (0, 7) ∈ flushable s.writers[pierOf 0] ∧
      ∀ q ∈ flushable s.writers[pierOf 0], q ≠ (0, 7) → 7 < q.2) := by
  and_intros <;> decide +kernel

/-! ## Mailbox and management port -/

theorem cmdDue_iff {s : State} {c : Cmd} {m : Nat} :
    CmdDue s c m ↔ s.msp.cmd = some c ∧ c.doneAt = some m ∧ c.outcome = none ∧ s.lcy.seq = none ∧ s.pwr.mode ≠ .reset :=
  ⟨fun h => ⟨h.cmd, h.due, h.fresh, h.fused, h.mode⟩, fun h => ⟨h.1, h.2.1, h.2.2.1, h.2.2.2.1, h.2.2.2.2⟩⟩

/-- The mailbox idle or busy, before or after the firmware has started. -/
def mailS (busy fwup : Bool) : State := { live with msp := { live.msp with busy := busy, fwup := fwup } }

theorem witness_CommandsIssue :
    (hostCmd (.nop 5 7)).isSome = true ∧ (hostCmd (.diagRead 5 7 0 0)).isSome = true ∧
    (∀ s ∈ [mailS false true, mailS false false, mailS true true], Served s) ∧
      ((mailS false true).msp.busy = false ∧ (mailS false true).msp.fwup = true) ∧
      ((mailS false false).msp.busy = false ∧ (mailS false false).msp.fwup = false) ∧ (mailS true true).msp.busy = true := by
  simp only [Served]
  decide +kernel

/-- A command with its arguments, due at mc 100. -/
def cmdOf (opc : Byte) (arg : List Word) : Cmd :=
  { opc := opc, arg := arg, buf := [], issue := 0, reqAtIssue := false, coolAtIssue := false, outcome := none
    doneAt := some 100, left := [], got := [], bad := none }

def withCmd (s : State) (c : Cmd) : State := { s with msp := { s.msp with cmd := some c, busy := true, fwup := true } }

/-- An opcode that Table 16.3 does not name; a reserved argument bit; a command of RUN in mode LOAD, SHED_EXIT in RUN,
STORE_CAL in LOAD; NOP; READ_TIME. -/
theorem witness_CommandsAnswer :
    (CmdDue (withCmd live (cmdOf 0x02 [])) (cmdOf 0x02 []) 100 ∧
      ∀ n ∈ [0x00, 0x01, 0x10, 0x11, 0x12, 0x13, 0x14, 0x15, 0x20, 0x21, 0x30, 0x31, 0x40, 0x50, 0x51],
        (cmdOf 0x02 []).opc.toNat ≠ n) ∧
    (CmdDue (withCmd live (cmdOf 0x00 [1])) (cmdOf 0x00 [1]) 100 ∧ Command.known (cmdOf 0x00 [1]) = true ∧
      Command.badArg (cmdOf 0x00 [1]) = true) ∧
    (∀ n ∈ ([0x10, 0x51, 0x21] : List Byte), ∀ c ∈ [cmdOf n []], CmdDue (withCmd State.reset c) c 100 ∧
      Command.known c = true ∧ Command.badArg c = false ∧ State.reset.pwr.mode ≠ .run ∧ State.reset.pwr.mode ≠ .shed ∧
        State.reset.pwr.mode ≠ .freeze) ∧
    (CmdDue (withCmd live (cmdOf 0x31 [])) (cmdOf 0x31 []) 100 ∧ Command.known (cmdOf 0x31 []) = true ∧
      Command.badArg (cmdOf 0x31 []) = false ∧ live.pwr.mode ≠ .shed) ∧
    (∀ n ∈ ([0x00, 0x01] : List Byte), CmdDue (withCmd live (cmdOf n [])) (cmdOf n []) 100 ∧
      ∀ j < 8, (cmdOf n []).arg.getD j 0 = 0) := by
  simp only [cmdDue_iff]
  and_intros <;> decide +kernel

/-- A record of channel 0 in folio 0 that awaits readout. -/
def closedRec : Closed :=
  { ch := 0, folio := 0, isSeg := false, slot := 0, base := 0, words := 16, r := 65528, wend := 16, wrap := false
    recNo := 0, ring := 0, epochO := some 0, epochC := some 0, at_ := 0 }

def folioS (st : BitVec 2) (closed : List Closed) : State :=
  { live with folios := sset Folio.free [] 0 { Folio.free with st := st }, closed := closed }

def badArgNot (s : State) (c : Cmd) : Prop :=
  CmdDue (withCmd s c) c 100 ∧ Command.badArg c = false ∧ (s.pwr.mode = .run ∨ s.pwr.mode = .shed)

/-- ARM of a bound channel, and of the last channel, which is not bound; DISARM; SET_POST of a channel that is off, and of
an armed one; RELEASE of a closed record and of a free folio. -/
theorem witness_CaptureCommands :
    (badArgNot (rearmS id) (cmdOf 0x11 [1]) ∧ (rearmS id).armFails 0 = none) ∧
    (badArgNot (rearmS id) (cmdOf 0x11 [1, 0, 0x80000000]) ∧ (rearmS id).armFails 95 = some codeUnbound) ∧
    badArgNot live (cmdOf 0x12 [1]) ∧
    (∀ s ∈ [{ live with pwr := { live.pwr with doms := Vector.replicate 104 .off } }],
      badArgNot s (cmdOf 0x13 [95]) ∧ fld (Command.word (cmdOf 0x13 [95]) 0) 0 7 = (95 : Chan).val ∧ s.chOn 95 = false) ∧
    (∀ s ∈ [liveC fun x => { x with armed := true }], badArgNot s (cmdOf 0x13 [0, 65527]) ∧
      fld (Command.word (cmdOf 0x13 [0, 65527]) 0) 0 7 = (0 : Chan).val ∧ s.chOn 0 = true ∧ (s.chan 0).armed = true) ∧
    (∀ s ∈ [folioS 2 [closedRec]], badArgNot s (cmdOf 0x14 [0]) ∧ s.delivering 0 = false ∧ (s.folio 0).st = 2 ∧
      (∃ r ∈ s.closed, r.folio = 0) ∧ Sparse Folio.free s.folios) ∧
    (∀ s ∈ [folioS 1 []], badArgNot s (cmdOf 0x14 [0]) ∧ s.delivering 0 = false ∧ (s.folio 0).st = 1) := by
  simp only [cmdDue_iff, badArgNot, Sparse]
  and_intros <;> decide +kernel

def lockedS : State := { live with tb := { live.tb with st := .locked } }
def shedS : State := { live with pwr := { live.pwr with mode := .shed } }

theorem witness_ServiceCommands :
    (badArgNot live (cmdOf 0x15 []) ∧ ((withCmd live (cmdOf 0x15 [])).at_ (live.mcAt 100)).remapFails (cmdOf 0x15 []) ≠ 0) ∧
    (badArgNot lockedS (cmdOf 0x15 []) ∧
      ((withCmd lockedS (cmdOf 0x15 [])).at_ (live.mcAt 100)).remapFails (cmdOf 0x15 []) = 0) ∧
    badArgNot live (cmdOf 0x20 [1, 0, 0, 1]) ∧
    (∀ s ∈ [{ live with pwr := { live.pwr with dipActive := true } }],
      badArgNot s (cmdOf 0x21 []) ∧ s.nvm.store = none ∧ s.pwr.dipActive = true) ∧
    (badArgNot live (cmdOf 0x21 []) ∧ live.nvm.store = none ∧ live.pwr.dipActive = false) ∧
    badArgNot live (cmdOf 0x30 []) ∧ badArgNot shedS (cmdOf 0x31 []) ∧
    badArgNot shedS { cmdOf 0x31 [] with coolAtIssue := true } ∧
    (badArgNot live (cmdOf 0x10 [63]) ∧ live.nvm.ok.getLsbD (fld (Command.word (cmdOf 0x10 [63]) 0) 0 6) = false) ∧
    (∀ s ∈ [{ live with nvm := { live.nvm with ok := 1, noForme := true } }],
      badArgNot s (cmdOf 0x10 []) ∧ s.nvm.ok.getLsbD (fld (Command.word (cmdOf 0x10 []) 0) 0 6) = true ∧
        s.allRun 0 = false ∧ (admissionTest s.vlt.nrrTh (s.combined 0)).result = 0) ∧
    badArgNot live (cmdOf 0x40 [0]) ∧ badArgNot live (cmdOf 0x40 [1]) := by
  simp only [cmdDue_iff, badArgNot]
  and_intros <;> decide +kernel

def vaultS (st : VltState) : State :=
  { live with vlt := { live.vlt with st := st }, msp := { live.msp with fwup := true } }

/-- A DIAG command whose requests have been served. -/
def diagDone : Cmd := { cmdOf 0x50 [] with doneAt := none, got := [(0, 5)] }

/-- The last word of the galley and one past it; each further check; a DIAG command that has been served. -/
theorem witness_ServiceAndDiagCommands :
    (∀ s ∈ [vaultS .run, vaultS .frozen, vaultS .init], Served s ∧ s.msp.busy = false ∧ s.msp.fwup = true ∧
      (s.pwr.mode = .run ∧ s.anyArmed = false)) ∧
    ¬2 ^ 30 < (0x3FFFFFF0 : BitVec 30).toNat + (15 : BitVec 4).toNat + 1 ∧
    2 ^ 30 < (0x3FFFFFF1 : BitVec 30).toNat + (15 : BitVec 4).toNat + 1 ∧
    (∀ s ∈ [{ vaultS .run with msp := { live.msp with cmd := some diagDone, busy := true } }],
      s.msp.cmd = some diagDone ∧ diagDone.doneAt = none ∧ diagDone.left = [] ∧ diagDone.bad = none ∧
        s.vlt.st ≠ .frozen ∧ s.pwr.mode ≠ .reset ∧ diagDone.got.lookup (Command.first diagDone + 0) = some 5) := by
  simp only [Served]
  and_intros <;> decide +kernel

/-- A register that answers; one of a channel that is off; TST_CTL with the TST block closed; no register. -/
theorem witness_ReadFrames :
    Served live ∧ Served State.reset ∧
    (∀ z ∈ [live.at_ (firstSample live 5 0x010010)], z.accessStatus 0x010010 = 0 ∧ (z.reg 0x010010).isSome = true) ∧
    (∀ z ∈ [State.reset.at_ (firstSample State.reset 5 0x6FFFFC)], 0x6FFFFC / 65536 = 16 + (95 : Chan).val ∧
      State.reset.chOn 95 = false ∧ z.accessStatus 0x6FFFFC ≠ 0) ∧
    (∀ z ∈ [live.at_ (firstSample live 5 0xE00000)], live.lcy.tstOpen = false ∧ z.accessStatus 0xE00000 ≠ 0) ∧
    (∀ z ∈ [live.at_ (firstSample live 5 0xD7FFFC)], z.reg 0xD7FFFC = none ∧ z.accessStatus 0xD7FFFC ≠ 0) := by
  simp only [Served]
  and_intros <;> decide +kernel

/-- Header CRCs of a READ of MSP.STAT and of a header whose opcode is neither READ nor WRITE. -/
theorem witness_WriteFrames :
    Served live ∧ live.msp.busy = false ∧ (List.replicate 64 (0 : Word)).length = 64 ∧
    crc8 [0x0B, 0x00, 0x00, 0xC8, 0x00, 0x00] ≠ 0xE9 ∧
    (crc8 (([0x03, 0, 0, 0, 0, 0] : List Byte).take 6) = crc8 [0x03, 0, 0, 0, 0, 0] ∧ (0x03 : Byte) ≠ 0x0B ∧
      (0x03 : Byte) ≠ 0x02) := by
  simp only [Served]
  decide +kernel

theorem witness_RegisterWrites :
    Served live ∧ (live.at_ 5).accessStatus 0xD7FFFC ≠ 0 ∧ (mailS true true).msp.busy = true ∧ Served (mailS true true) ∧
      (live.ring 31).en = false := by
  simp only [Served]
  decide +kernel

theorem witness_CapturesAndClears : Served live ∧ live.chOn 95 = true := by
  simp only [Served]
  decide +kernel

/-- The life cycle in OPEN, with ON = 0 and 1; the selected fuse words at the ends of both ranges. -/
def testS (on : Bool) (sel : BitVec 7) : State :=
  { live with lcy := { live.lcy with state := 1, mkSel := sel }, tst := { live.tst with on := on } }

theorem witness_TrussAndTestRegisters :
    Served live ∧ (live.lcy.tstOpen = false ∧ live.lcy.makerOpen = false) ∧
    (∀ s ∈ [testS false 3, testS true 32, testS true 63], Served s ∧ s.lcy.tstOpen = true ∧ s.lcy.makerOpen = true ∧
      (s.lcy.mkSel.toNat < 4 ∨ 32 ≤ s.lcy.mkSel.toNat ∧ s.lcy.mkSel.toNat < 64) ∧ s.lcy.seq = none ∧
      s.pwr.dipActive = false) ∧
    ((testS false 3).tst.on = false ∧ (testS true 32).tst.on = true) ∧
    ((0x00009801 : Word).extractLsb' 0 8 ≠ (0 : Byte) ∧ fld (0x00009801 : Word) 8 8 ≠ 153) := by
  simp only [Served]
  and_intros <;> decide +kernel

/-- The CRC-8 of 16_management_port.md on its check string and on its example frame. -/
theorem test_crc8 :
    crc8 [0x31, 0x32, 0x33, 0x34, 0x35, 0x36, 0x37, 0x38, 0x39] = 0xF4 ∧
      crc8 [0x0B, 0x00, 0x00, 0xC8, 0x00, 0x00] = 0xE8 := by
  decide +kernel

/-! ## Host rings and the endpoint -/

def ringS (f : RingSt → RingSt) : State := live.modRing 31 f

/-- A tail that posts descriptors, and one that takes them back; a ring disabled and enabled; one that has starved; one
that waits for a descriptor. -/
theorem witness_HostRings :
    (∀ q ∈ [(ringS fun q => { q with en := true, queue := [0], st := .starved }).ring 31],
      (q.tail.toNat + 2 ^ q.log2n.toNat - q.head.toNat % 2 ^ q.log2n.toNat) % 2 ^ q.log2n.toNat ≤
        (15 + 2 ^ q.log2n.toNat - q.head.toNat % 2 ^ q.log2n.toNat) % 2 ^ q.log2n.toNat ∧ q.en = true ∧ q.queue ≠ []) ∧
    (∀ q ∈ [(ringS fun q => { q with tail := 1 }).ring 31],
      (0 + 2 ^ q.log2n.toNat - q.head.toNat % 2 ^ q.log2n.toNat) % 2 ^ q.log2n.toNat <
        (q.tail.toNat + 2 ^ q.log2n.toNat - q.head.toNat % 2 ^ q.log2n.toNat) % 2 ^ q.log2n.toNat) ∧
    ((live.ring 31).en = false ∧ ((ringS fun q => { q with en := true }).ring 31).en = true ∧ live.pwr.mode ≠ .reset) ∧
    (∀ s ∈ [{ (ringS fun q => { q with st := .starved, starvedFrom := some 5 }) with
        via := { (ringS fun q => { q with st := .starved, starvedFrom := some 5 }).via with starve := 1 } }],
      (s.ring 31).starvedFrom = some 5 ∧ (s.ring 31).st = .starved ∧ s.via.starve ≠ 0 ∧ s.pwr.mode ≠ .reset) ∧
    (∀ q ∈ [(ringS fun q => { q with en := true, tail := 1 }).ring 31],
      q.en = true ∧ q.descs.length < q.posted ∧ q.delivery = none) ∧
    (∀ y ∈ [({ folio := 0, asked := 1, sent := 0, inDesc := 0, first := true, abandon := false, fetched := [0], arrived := 6 } : Delivery)], y.fetched ≠ [] ∧ (live.at_ 5).now < y.arrived) := by
  and_intros <;> decide +kernel

/-- A descriptor of 4 KiB, and the delivery of the last 24 words of a record in its first chunk. -/
def desc4k : Desc := { addr := 64, len := 4096, ctrl := 0 }
def lastWords : Delivery :=
  { folio := 0, asked := 24, sent := 0, inDesc := 0, first := true, abandon := false, fetched := List.replicate 24 0,
    arrived := 0 }

theorem witness_ReadoutDelivers :
    (∀ s ∈ [{ folioS 2 [closedRec] with via :=
        (ringS fun q => { q with en := true, tail := 1, queue := [0], descs := [desc4k] }).via }],
      s.via.xfers.length = 4 ∧ s.via.xfers.getD 3 none = none ∧ s.vlt.st ≠ .frozen ∧ s.via.rr.getD 3 0 < 8 ∧
        (31 : Ring).val % 4 = (3 : Fin 4).val ∧ s.wantsXfer 31 = true ∧ ∀ r : Ring, (s.ring r).delivery = none) ∧
    (∀ s ∈ [{ folioS 2 [closedRec] with via :=
        (ringS fun q => { q with en := true, tail := 1, queue := [0], delivery := some lastWords }).via }],
      (s.ring 31).en = true ∧ (s.ring 31).autorel = false ∧ (s.ring 31).delivery = some lastWords ∧
        s.closedRecOf lastWords.folio = some closedRec ∧ (s.ring 31).descs = [] ∧ 0 < (s.ring 31).posted ∧
        lastWords.abandon = false ∧ lastWords.fetched ≠ [] ∧ lastWords.arrived ≤ max s.now 0 ∧ lastWords.inDesc = 0 ∧
        lastWords.sent + lastWords.fetched.length = 8 + closedRec.words ∧ desc4k.addr.toNat % 64 = 0 ∧
        desc4k.len.toNat % 64 = 0 ∧ 64 ≤ desc4k.len.toNat ∧ 16 * lastWords.fetched.length ≤ desc4k.len.toNat) := by
  and_intros <;> decide +kernel

/-- BAR2 reads of a frozen vault, of a codeword with one wrong bit, and of one with two. -/
theorem witness_EndpointEvents :
    live.pwr.mode ≠ .reset ∧ (vaultS .frozen).vlt.st = .frozen ∧ (vaultS .run).vlt.st = .run ∧
    (∀ g ∈ [0, 0x3FFFFFFF], (vaultS .run).pendingWord g = none ∧
      (readCode g ((vaultS .run).stored g ^^^ 1)).bad = false ∧ (readCode g ((vaultS .run).stored g ^^^ 3)).bad = true) := by
  decide +kernel

/-! ## Vault -/

/-- A request for burst 1 of bank 0, accepted at vc 0. -/
def reqOf (kind : ReqKind) (port : Nat) (data : List (Bool × Qword)) : Req :=
  { id := 5, port := port, kind := kind, pc := 0, bank := 15, row := 0, burst := 1, data := data, accepted := 0
    promoted := false, hint := false, issued := false, gotRead := false, presented := true, only := none }

def openRow (row : Option (Nat × Nat)) (p : PcSt) : PcSt := { p with rows := (List.replicate 16 none).set 15 row }

def turnS (r : Req) (row : Option (Nat × Nat)) : State :=
  ({ live with vlt := { live.vlt with st := .run, reqs := [r] } }).setPch 0 (openRow row PcSt.reset)

theorem vaultTurn_of {s : State} {q : Pch} {r : Req} {v : Nat}
    (h : s.vlt.st = .run ∧ (s.vlt.srEntry = none ∧ s.vlt.srExit = none) ∧ s.vlt.reqs = [r] ∧
      (r.pc = q.val ∧ r.presented = true ∧ r.issued = false ∧ r.bank < 16 ∧ r.kind ≠ .nrr) ∧
      (r.kind = .scrub → r.port = 12) ∧ s.tst.on = false ∧
      (∀ u ∈ [s.vc (s.clocks.vault.next s.now), v], s.debtAt (s.pch q) u < 4 * s.vlt.interval) ∧
      ((s.pch q).owed = 0 ∧ (s.pch q).insert = false) ∧
      ((s.dueAt q (s.vc (s.clocks.vault.next s.now))).all fun f => decide (v < f)) = true ∧ (s.pch q).rows.length = 16 ∧
      v = max (max (s.vc (s.clocks.vault.next s.now)) (max r.accepted ((s.pch q).bankTo.getD r.bank 0))) (s.pch q).busyTo) :
    VaultTurn s q r v := by
  obtain ⟨h1, h2, h3, h4, h5, h6, h7, h8, h9, h10, h11⟩ := h
  exact ⟨h1, h2, h3, h4, h5, h6, fun u hu => h7 u (by simpa using hu), h8, fun f hf => by simpa [hf] using h9, h10, h11⟩

/-- The row is open for a write and for a read; no row is open; another row is. -/
theorem witness_VaultCommands :
    (∀ p ∈ [(reqOf .writeBurst 0 [(true, 1), (false, 2)], some (0, 0)), (reqOf .readBurst 8 [], some (0, 0)),
        (reqOf .rmw 13 [(true, 1)], none), (reqOf .scrub 12 [], some (7, 0))],
      VaultTurn (turnS p.1 p.2) 0 p.1 0 ∧ ((turnS p.1 p.2).pch 0).rows.getD p.1.bank none = p.2) ∧
    (∃ w0 w1, (reqOf .writeBurst 0 [(true, 1), (false, 2)]).data = [(true, w0), (!true, w1)]) ∧
    StoreOk (turnS (reqOf .writeBurst 0 [(true, 1), (false, 2)]) (some (0, 0))) := by
  refine ⟨fun p hp => ?_, ⟨1, 2, rfl⟩, State.reset_wf⟩
  simp only [List.mem_cons, List.not_mem_nil, or_false] at hp
  obtain rfl | rfl | rfl | rfl := hp <;> exact ⟨vaultTurn_of (by decide +kernel), by decide +kernel⟩

/-- An issued request whose data return. -/
def issuedS (r : Req) (c : Option Cmd) : State :=
  { live with vlt := { live.vlt with st := .run, reqs := [{ r with issued := true }] }, msp := { live.msp with cmd := c } }

theorem witness_VaultReads :
    (∀ r ∈ [reqOf .codewordRead 13 [(false, 0)], reqOf .rmw 0 [(true, 7)], reqOf .readBurst 8 []],
      ∀ s ∈ [issuedS r (some diagDone)], s.pwr.mode ≠ .reset ∧ s.vlt.st = .run ∧
      (s.vlt.reqs.find? fun r => r.id == 5 && r.issued) = some { r with issued := true } ∧
      s.via.xfers = List.replicate 4 none ∧ s.msp.cmd = some diagDone ∧
      (readCode (2 * r.burst) (s.stored (2 * r.burst) ^^^ 1)).bad = false ∧
      (readCode (2 * r.burst + 1) (s.stored (2 * r.burst + 1) ^^^ 0)).bad = false ∧
      (readCode (2 * r.burst) (s.stored (2 * r.burst) ^^^ 3)).bad = true) := by
  decide +kernel

/-- The vault of a running device; with a request that is not promoted; with an open row; at the debt ceiling; with the
window of R429 full; with a scrub due; with a sensor reading; after one reading that failed. -/
def vltS (f : Vault → Vault) (g : PcSt → PcSt) : State :=
  (({ live with vlt := f { live.vlt with st := .run } }).setPch 31 (g PcSt.reset))

theorem witness_VaultMaintenance :
    (∀ s ∈ [vltS (fun v => { v with reqs := [reqOf .writeBurst 0 []] }) (openRow (some (0, 0)))],
      s.pwr.mode ≠ .reset ∧
      (s.vlt.reqs.find? fun r => r.id == 5 && r.presented && !r.promoted && !r.issued) = some (reqOf .writeBurst 0 []) ∧
      s.vlt.st ≠ .frozen ∧ (s.pch 31).rows.length = 16 ∧
      (s.pch 31).rows.getD (15 : Fin 16).val none = some (0, 0) ∧ s.vlt.st = .run ∧ s.debtRises = true ∧
      (s.pch 31).debt ≤ 8 * s.vlt.interval ∧ s.vlt.srEntry = none ∧ fld s.vlt.mnt 16 8 ≠ 0) ∧
    8192 ≤ ((vltS id fun p => { p with units := 8192 }).pch 31).units ∧
    ((vltS id fun p => { p with debt := 8 * 3872 }).pch 31).debt ≤ 8 * (vltS id id).vlt.interval ∧
    (∀ z ∈ [live.sample 5 17 (some (8 * 85))], z.pwr.mode ≠ .reset ∧ z.tst.on = false ∧ z.vlt.rdFail = false) ∧
    (∀ z ∈ [(vltS (fun v => { v with badReads := 1 }) id).sample 5 17 none],
      z.pwr.mode ≠ .reset ∧ z.vlt.badReads = 1) ∧
    (∀ s ∈ [vltS (fun v => { v with idleFrom := some 0, mnt := 0x01408000 }) id],
      s.vlt.idleFrom = some 0 ∧ fld s.vlt.mnt 24 8 ≠ 0 ∧
        s.idleHolds (s.vc (s.clocks.vault.next (s.mcAt (0 + fld s.vlt.mnt 24 8 * 250)))) = true) ∧
    (∀ s ∈ [vltS (fun v => { v with srEntry := some 5 }) id], s.vlt.srEntry = some 5 ∧ s.vlt.st = .run ∧
      (s.synth 9).stagedSsc = none) ∧
    (∀ s ∈ [(vltS (fun v => { v with srEntry := some 5 }) id).modSynth 9 fun x => { x with stagedSsc := some 1 }],
      s.vlt.srEntry = some 5 ∧ s.vlt.st = .run ∧ (s.synth 9).stagedSsc = some 1 ∧
      (∀ c, (s.chan c).armed = false ∧ (s.chan c).rcd.isOpen = false) ∧ ∀ r, (s.ring r).delivery = none) ∧
    (∀ s ∈ [vltS (fun v => { v with st := .selfref, srWake := some 5, srEntry := some 2 }) id],
      s.vlt.st = .selfref ∧ s.vlt.srWake = some 5 ∧ s.vlt.srExit = none) ∧
    (vltS (fun v => { v with srExit := some 5 }) id).vlt.srExit = some 5 ∧
    (vltS (fun v => { v with trnStart := some (0, false) }) id).vlt.trnStart = some (0, false) ∧
    (vltS (fun v => { v with trnStart := some (0, true) }) id).vlt.trnStart = some (0, true) ∧
    (vltS (fun v => { v with initStart := some 5 }) id).vlt.initStart = some 5 := by
  and_intros <;> decide +kernel

/-- Lanes that training accepts, with the smallest eye it accepts. -/
theorem witness_training :
    (List.replicate 1152 (0x141 : Word)).length = 1152 ∧
      ∀ w ∈ List.replicate 1152 (0x141 : Word), w.getLsbD 0 = true ∧ 20 ≤ fld w 4 8 := by
  refine ⟨List.length_replicate, fun w h => ?_⟩
  rw [List.eq_of_mem_replicate h]
  decide

/-! ## SYNC words, fences and the timebase -/

/-- The words with all they may carry set: STEP 255; every channel named; P7 alone named. Then a broken frame, a wrong CRC,
a reserved bit, TYPE 15, and words that the mode or the phase refuses. -/
theorem witness_SyncWords :
    (SyncCrc 0 0 ∧ SyncUsed 0 0) ∧ (SyncCrc 1 0xFF51 ∧ SyncUsed 1 0xFF51) ∧ SyncCrc 2 0xFFFFF20 ∧ SyncCrc 3 0x101F3 ∧
    (SyncCrc 4 0xFF000D5 ∧ SyncUsed 4 0xFF000D5) ∧ (SyncCrc 5 0x24 ∧ SyncUsed 5 0x24) ∧
    (∀ c : Chan, Named 0xFFFFF20 c) ∧
    syncRow (.reservedSyncWord 5 9 0 true) = some (5, 15, 0, true) ∧
    (¬SyncCrc 0 1 ∧ SyncCrc 0 0x107 ∧ ¬SyncUsed 0 0x107) ∧
    (State.reset.pwr.mode ≠ .reset ∧ State.reset.thm.shutdown = none ∧ State.reset.pwr.mode ≠ .run ∧ State.reset.pwr.mode ≠ .shed ∧
      State.reset.nvm.phase ≠ 10) ∧
    ({ live with thm := { live.thm with shutdown := some (5, 16, 1000) } } : State).thm.shutdown.isSome = true ∧
    (∀ s ∈ [{ rearmS id with nvm := { live.nvm with phase := 10 } }],
      s.pwr.mode = .run ∧ s.nvm.phase = 10 ∧ s.tst.on = false ∧ s.thm.shutdown = none ∧ s.chOn 0 = true ∧ s.armExcepted 0 = false ∧
        s.armExcepted 95 = true) ∧
    (∀ s ∈ [{ rearmS (fun x => { x with held := true }) with nvm := { live.nvm with phase := 10 } }],
      s.chOn 0 = true ∧ (s.chan 0).held = true) := by
  simp only [List.forall_mem_cons, List.not_mem_nil, false_implies, implies_true, and_true, Named, SyncCrc, SyncUsed]
  and_intros <;> decide +kernel

def fenceOf (isRemap subst : Bool) : FencePend :=
  { isRemap := isRemap, subst := subst, armB := false, step := 1, a := 0, b := 95, when_ := 0, from_ := 5000 }

def fenceS (f : FencePend) (table : List (Nat × Word)) (spares : List (Chan × Chan)) : State :=
  { liveC fun x => { x with armed := true } with
    place := { live.place with pend := [f], table := table, spares := spares } }

/-- A STEP to a step at which channel 0 is bound, and to one at which it is not; a SUBST refused, and one that is taken. -/
theorem witness_Fences :
    (∀ s ∈ [fenceS (fenceOf false false) [(96, 0x80000001)] [], fenceS (fenceOf false false) [] []],
      s.nextFence = some (fenceOf false false) ∧ Covered s 0 (s.fenceAt (fenceOf false false) * 25) ∧
        (s.chan 0).armed = true) ∧
    (∀ p ∈ [(([] : List (Chan × Chan)), false), ([((0 : Chan), (95 : Chan))], true)],
      ∀ s ∈ [fenceS (fenceOf true true) [(96, 0x80000001)] p.1],
      s.nextFence = some (fenceOf true true) ∧ s.place.staged = none ∧ (fenceOf true true).a < 96 ∧
        (fenceOf true true).b < 96 ∧ s.substOk 0 95 = p.2 ∧ Sparse 0 s.place.table) := by
  simp only [Sparse, Covered]
  decide +kernel

def tbS (f : Timebase → Timebase) : State := { live with tb := f live.tb }

theorem witness_EpochMarks :
    (∀ s ∈ [{ tbS (fun t => { t with st := .locked }) with
        sync := { live.sync with mark := some 5 }
        place := { live.place with pend := [{ fenceOf true false with when_ := 1 }] } }],
      s.sync.mark = some 5 ∧ s.pwr.mode ≠ .reset ∧ s.tb.st = .locked ∧ s.tb.jump = none ∧
        s.firstEdge s.tb.refP (5 + 32 * 64000) (max s.now 6399808) = true ∧
        s.firstEdge s.tb.refP (5 + 32 * 64000) (max s.now 6399807) = false ∧
        (∃ f ∈ s.place.pend, f.isRemap = true ∧ f.when_ ≠ 0)) ∧
    Quiet live 51200 ∧
    (∀ s ∈ [{ live with sync := { live.sync with mark := some 5 } }],
      s.sync.mark = some 5 ∧ s.pwr.mode ≠ .reset ∧ s.tb.st ≠ .locked ∧ s.tb.st ≠ .slew ∧
        s.firstEdge s.tb.refP (5 + 32 * 64000) (max s.now 2048005) = true) := by
  simp only [Quiet]
  decide +kernel

theorem witness_ReferenceLost :
    live.pwr.mode ≠ .reset ∧
    (∀ b ∈ [true, false], ∀ s ∈ [tbS fun t => { t with st := .acquire, refok := b }],
      s.tb.st = .acquire ∧ s.tb.settling = false ∧ s.tb.refok = b) ∧
    (∀ s ∈ [tbS fun t => { t with st := .acquire, settling := true }], s.tb.st = .acquire ∧ s.tb.settling = true) ∧
    ((192 : Int).natAbs ≤ 192 ∧ 192 < (-193 : Int).natAbs) ∧
    (∀ s ∈ [tbS fun t => { t with st := .locked }],
      (∀ e ∈ [(12801 : Nat), 6412801, 12812801, 19212801], 12800 < (s.gridErr s.tb.refP e).natAbs) ∧
        ¬12800 < (s.gridErr s.tb.refP 12800).natAbs) ∧
    (∀ st ∈ [TbState.locked, .slew, .settle, .coast, .qualify], (tbS fun t => { t with st := st }).tb.st = st) := by
  decide +kernel

/-- The first, the ninth and the last sub-window, at the bounds of a good one; STEP as the mean of edges; the re-anchor with
and without SLEW at MAX_STEP; the end of a slew; a settle window at its bound. -/
theorem witness_ReferenceReturns :
    live.pwr.mode ≠ .reset ∧
    (∀ n ∈ [0, 8, 9], ∀ s ∈ [tbS fun t => { t with st := .qualify, subDone := n }],
      s.tb.st = .qualify ∧ s.tb.measured = none ∧ s.tb.subDone = n) ∧
    ((10000 : Int).natAbs ≤ 10000 ∧ (-64000 : Int).natAbs ≤ 64000 ∧ ¬(10001 : Int).natAbs ≤ 10000) ∧
    (∀ s ∈ [live], ∀ d ∈ [(3 : Int)],
      (∀ e ∈ (List.range 256).map fun i => ((s.tb.refP * i : Nat) : Int) - 3, (e + d) % s.tb.refP = 0) ∧
      ((List.range 256).map fun i => ((s.tb.refP * i : Nat) : Int) - 3).length = 256 ∧
      -(s.tb.refP : Int) < 2 * d ∧ 2 * d ≤ s.tb.refP) ∧
    (∀ s ∈ [tbS fun t => { t with st := .qualify, measured := some 5, tdFrom := some 9, cfg := 0 }],
      s.tb.st = .qualify ∧ s.tb.measured = some 5 ∧ s.tb.tdFrom = some 9 ∧
        9 ≤ max s.now 6400000 ∧ nearestP s.tb.refP (s.stamp (max s.now 6400000) + 5) % s.tb.anchorP = 0 ∧
        max s.now 6400000 < 9 + s.tb.anchorP * 25 + 64000 ∧ s.tb.cfg.getLsbD 8 = false) ∧
    (∀ s ∈ [tbS fun t => { t with st := .qualify, measured := some (-4096), tdFrom := some 9, cfg := 0x100 }],
      s.tb.cfg.getLsbD 8 = true ∧ (-4096 : Int).natAbs ≤ fld s.tb.slewCfg 16 16 ∧
        fld s.tb.slewCfg 16 16 < (4097 : Int).natAbs) ∧
    (∀ st ∈ [TbState.slew, .settle], ∀ s ∈ [tbS fun t => { t with st := st }], s.tb.st = st ∧ s.tb.staged = none) := by
  and_intros <;> decide +kernel

theorem witness_LoopSwitches :
    live.pwr.mode ≠ .reset ∧
    (∀ s ∈ [tbS fun t => { t with st := .coast, sbyOk := true }],
      s.tb.st ≠ .off ∧ s.tb.sbyOk = true ∧ s.tb.switchDue = none) ∧
    (∀ s ∈ [tbS fun t => { t with st := .settle }], s.tb.st = .settle ∧ s.tb.sbyOk = false) ∧
    (∀ s ∈ [tbS fun t => { t with st := .locked, cfg := 0x1000 }], s.tb.cfg.getLsbD 12 = true ∧ s.tb.st ≠ .off ∧
      s.tb.st ≠ .coast ∧ s.tb.st ≠ .qualify) ∧
    (∀ p ∈ [((0 : Word), false), (0x100, true)],
      ∀ s ∈ [tbS fun t => { t with st := .locked, switchDue := some (true, 5), cfg := p.1 }],
      s.tb.switchDue = some (true, 5) ∧ s.firstEdge s.tb.anchorP 5 (max s.now 6400000) = true ∧ s.tb.cfg.getLsbD 8 = p.2 ∧ s.tb.st = .locked) := by
  simp only [List.forall_mem_cons, List.not_mem_nil, false_implies, implies_true, and_true]
  and_intros <;> decide +kernel

/-! ## Synthesizers -/

def swS (f : SynthSt → SynthSt) : State := live.modSynth 7 f

def hopOf (full : Bool) : HopSt :=
  { start := 5, full := full, fellBack := false, odiv := 0, nint := 0, nfrac := 0, entry := some 63 }

/-- A word that a valid entry holds; hops in progress; refills with and without an entry to go; ramps; windows at and beyond
the bound. -/
theorem witness_SweepHops :
    live.pwr.mode ≠ .reset ∧ live.pierOn 7 = true ∧
    ({ live with pwr := { live.pwr with doms := Vector.replicate 104 .off } } : State).pierOn 7 = false ∧
    (∀ x ∈ [(swS fun x => { x with store := List.replicate 64 { StoreEntry.reset with valid := true, named := true } }).synth
        (swOf 7)], (HoldsWord x 63 x.odiv x.nint x.nfrac ∧ (x.entryAt 63).valid = true) ∧
      ∀ i < 64, HoldsWord x i x.odiv x.nint x.nfrac → (x.entryAt i).named = true → (x.entryAt i).valid = true) ∧
    (∀ b ∈ [false, true], ((swS fun x => { x with hop := some (hopOf b) }).synth (swOf 7)).hop = some (hopOf b) ∧
      (hopOf b).full = b) ∧
    (∀ l ∈ [[], [62]], ∀ x ∈ [(swS fun x => { x with hop := some (hopOf true), refilling := true, refill := l }).synth
        (swOf 7)], x.refilling = true ∧ x.refill = l ∧ 63 < x.store.length) ∧
    (∀ p ∈ [(SwState.run, false), (.ramp, true)], ∀ x ∈ [(swS fun x => { x with st := p.1, rampOn := p.2 }).synth (swOf 7)],
      x.st = p.1 ∧ x.rampOn = p.2) ∧
    (live.synth (swOf 7)).cfg.extractLsb' 20 12 = 3300 := by
  simp only [HoldsWord]
  and_intros <;> decide +kernel

/-- A ramp about to start; the end of a segment of one cycle, alone and awaiting its trigger, with each continuation; the
locks of DECK and VAULT. -/
theorem witness_RampsAndClockLocks :
    live.pwr.mode ≠ .reset ∧
    (∀ x ∈ [(swS fun x => { x with startDue := some 5 }).synth (swOf 7)], x.startDue = some 5 ∧ x.refilling = false) ∧
    (∀ p ∈ [((0x1 : Word), (0x80000000 : Word)), (0x1, 0), (0x1000, 0), (0x2000, 0), (0, 0)],
      ∀ x ∈ [(swS fun x => { x with st := .ramp, rampOn := true, ramp := p.1, segs := [(0, 5, 1), (p.2, 0, 1)] }).synth
        (swOf 7)],
      x.rampOn = true ∧ x.st = .ramp ∧ 1 ≤ x.dwell x.seg.toNat ∧ x.advSync = false ∧
        x.cont (x.seg.toNat + 1) = p.2.getLsbD 31 ∧ (x.seg.toNat < x.lastSeg ∨ x.rampEnd = fld p.1 12 2)) ∧
    (∀ x ∈ [(swS fun x => { x with st := .ramp, rampOn := true, ramp := 0x400, advance := some 9, segs := [(0, 5, 1)] }).synth
        (swOf 7)], x.advSync = true ∧ x.advance = some 9) ∧
    (∀ k ∈ [(8 : Synth), 9], ∀ s ∈ [live.modSynth k fun x => { x with lockStart := some 5 }],
      (s.synth k).lockStart = some 5 ∧ s.tb.st ≠ .coast ∧ s.tb.st ≠ .qualify) ∧
    (∀ k ∈ [(8 : Synth), 9], ∀ s ∈ [(vaultS .run).modSynth k fun x => { x with st := .run }],
      (s.synth k).st = .run ∧ s.vlt.st = .run) := by
  simp only [List.forall_mem_cons, List.not_mem_nil, false_implies, implies_true, and_true]
  and_intros <;> decide +kernel

/-! ## Trim, LOAD and power -/

def trimS (f : Trim → Trim) : State := liveC fun x => { x with trim := f { x.trim with running := true } }

/-- An interpolator at the ideal widths, with the hits given. -/
def idealCells (hits : Nat) : CellMeas :=
  { delay := List.replicate 80 12500000, vernier := List.replicate 40 390625, hits := hits }

/-- Interpolators with 199,999 hits fail HITS; a mean difference beyond a step fails AGREE; the phases of a window. -/
theorem witness_TrimWindows :
    (∀ s ∈ [trimS fun t => { t with pendCells := true, pendDeskew := true, wasArmed := true, wasHeld := true }],
      s.pwr.mode ≠ .reset ∧ (s.chan 0).trim.running = true ∧ (s.chan 0).trim.pendCells = true ∧
      (s.chan 0).trim.cellsOk = false ∧ (s.chan 0).trim.pendDeskew = true ∧ (s.chan 0).trim.pending = false ∧
      (s.chan 0).trim.wasHeld = true ∧ (s.chan 0).trim.b0.toNat < (s.chan 0).trim.store.length) ∧
    ((idealCells 0).delay.length = 80 ∧ (idealCells 0).vernier.length = 40) ∧
    FirstFailure ((List.replicate 4 (idealCells 199999)).map figuresOf) [1] [-1] 1 ∧ FirstFailure [] [2] [1] 5 ∧
    FirstFailure [] [1] [-1] 0 := by
  refine ⟨by decide +kernel, by decide +kernel, .hits ?_, .agree ?_ ?_, .none ?_ ?_⟩ <;>
    first | decide +kernel | (simp only [Agree]; decide +kernel)

def storeS (step pages : Nat) (stopping retried : Bool) : State :=
  let q : StoreSt :=
    { copy := [], target := 1, gen := 1, step := step, pages := pages, retried := retried, stopping := stopping }
  { live with nvm := { live.nvm with programming := true, store := some q } }

/-- Each step of STORE_CAL, at its first and last page, stopped by a dip or not, tried once or twice. -/
theorem witness_TrimStoreProgramming :
    ∀ s ∈ [storeS 3 0 true false, storeS 3 0 false false, storeS 7 0 false false, storeS 4 0 false true,
        storeS 4 192 false false, storeS 5 193 false false, storeS 8 21 false false, storeS 8 0 true false],
      s.pwr.mode ≠ .reset ∧ s.nvm.store.isSome = true ∧ s.nvm.programming = true ∧ s.thm.shutdown = none := by
  decide +kernel

def header0 : ImgHeader :=
  { magic := 0, fmtver := 0, nsect := 0, imglen := 0, imgver := 0, bootf := 0, flags := 0, reservedZero := true
    pubkey := 0, sig := 0, dir := [] }

def forme0 : Forme :=
  { number := 0, placement := 0, tbsCfg := 0, tbsSeed := 1, tbsSlew := 0x10000028, deckSsc := 0, vaultSsc := 0
    sweeps := [], power := 1, shed := 0, spares := [], chans := [], overrun := false }

def slot0 (gen : Word) : TrimSlot :=
  let t : TrimSlot := { magic := 0x7C1B0A5E, gen := gen, bodyLen := 0xC000, crc := 0, commit := ~~~gen, tables := [] }
  { t with crc := crc32 (trimCovered t) }

def flash0 : Flash :=
  { sfdpOk := true, jedec := 0, density := 0, header := header0, firmware := []
    vault := { cfg := 0, ports := [], mnt := 0 }, formes := [(0, forme0)], programs := [], tables := [], slotA := none
    slotB := none, train := none }

/-- LOAD in a phase. -/
def loadS (p : BitVec 4) (f : Nvm → Nvm) : State :=
  { State.reset with nvm := f { State.reset.nvm with phase := p, flash := some flash0 } }

theorem witness_LoadPhases :
    (∀ p ∈ [(0 : BitVec 4), 1, 2, 3, 4, 5, 6, 7, 8], ∀ s ∈ [loadS p id],
      s.pwr.mode ≠ .reset ∧ s.pwr.mode = .load ∧ s.nvm.phase = p ∧ s.nvm.result = 0 ∧ s.nvm.flash = some flash0 ∧
      s.bootForme = some forme0 ∧ s.vlt.trnStart = none ∧ s.formeOf 0 = some forme0 ∧ s.nvm.ok.getLsbD 0 = false ∧
      s.formeOf 63 = none) ∧
    digestFault flash0 = none ∧
    (∀ s ∈ [{ loadS 5 id with tb := { State.reset.tb with st := .locked }
                              synths := (State.reset.synths.set 8 { State.reset.synth 8 with st := .run }).set 9
                                { State.reset.synth 9 with st := .run } }],
      s.nvm.clocksOk = false ∧ s.tb.st = .locked ∧ (s.synth 8).st = .run ∧ (s.synth 9).st = .run) ∧
    (loadS 5 fun n => { n with clocksOk := true }).nvm.clocksOk = true ∧
    (∀ s ∈ [loadS 7 fun n => { n with ok := 1 }], s.nvm.ok.getLsbD s.nvm.bootf.toNat = true ∧
      forme0.power.getLsbD (0 : Dom).val = true ∧ s.dom 0 = .off ∧ s.thm.shedFrom = none) ∧
    (loadS 7 id).nvm.ok.getLsbD (loadS 7 id).nvm.bootf.toNat = false ∧
    (∀ s ∈ [{ loadS 9 id with pwr := { live.pwr with mode := .trim } }],
      s.pwr.mode = .trim ∧ s.nvm.phase.toNat = 9 ∧ s.nvm.result = 0 ∧ s.thm.expired = false) ∧
    (∀ s ∈ [{ live with nvm := { live.nvm with runPhase := 1, flash := some flash0 } }],
      s.nvm.runPhase = 1 ∧ s.formeOf s.nvm.target.toNat = some forme0 ∧ s.nvm.target.toNat < s.nvm.whys.length) := by
  and_intros <;> decide +kernel

theorem slot0_valid (g : Word) (h : 1 ≤ g.toNat ∧ g.toNat ≤ 0xFFFFFFFE) : slotValid (slot0 g) = true := by
  have e : trimCovered (slot0 g) = trimCovered { slot0 g with crc := 0 } := by simp only [trimCovered]
  simp only [slotValid, e]
  simp [slot0, h]

/-- Trim slots that are valid, and their order. -/
theorem witness_trim_slots :
    slotValid (slot0 1) = true ∧ slotValid (slot0 0xFFFFFFFE) = true ∧
      (slot0 1).gen.toNat < (slot0 0xFFFFFFFE).gen.toNat :=
  ⟨slot0_valid _ (by decide), slot0_valid _ (by decide), by simp [slot0]⟩

/-- The check value of IEEE 802.3. -/
theorem test_crc32 : crc32 [0x31, 0x32, 0x33, 0x34, 0x35, 0x36, 0x37, 0x38, 0x39] = 0xCBF43926 := by decide +kernel

def train0 : TrainSlot :=
  let t : TrainSlot :=
    { magic := 0x7C1B0A7E, bodyLen := 0x1400, crc := 0, vhash := Config.sha256 (Config.vaultOctets flash0.vault)
      lanes := List.replicate 1152 1, modeRegs := List.replicate 128 0, commit := 0 }
  { t with crc := crc32 (trainCovered t), commit := ~~~ crc32 (trainCovered t) }

/-- Two octet strings, two trim slots and two training slots that differ in the first octet of the magic. -/
theorem witness_TrimStoreProgramming_code :
    (1 : Byte) ≠ 2 ∧
    ((slotValid (slot0 1) = true) ∧ trimCovered (slot0 1) = [] ++ 0x5E :: (trimCovered (slot0 1)).drop 1 ∧
      trimCovered { slot0 1 with magic := 0x7C1B0A5F } = [] ++ 0x5F :: (trimCovered (slot0 1)).drop 1) ∧
    (trainValid flash0 train0 = true ∧ trainCovered train0 = [] ++ 0x7E :: (trainCovered train0).drop 1 ∧
      trainCovered { train0 with magic := 0x7C1B0A7F } = [] ++ 0x7F :: (trainCovered train0).drop 1) := by
  have e : trainCovered train0 = trainCovered { train0 with crc := 0, commit := 0 } := by simp only [trainCovered]
  have h : (List.replicate 1152 (1 : Word)).all laneOk = true := by decide +kernel
  refine ⟨by decide, ⟨slot0_valid _ (by decide), rfl, rfl⟩, ?_, rfl, rfl⟩
  simp only [trainValid, e]
  simp only [train0, h, List.length_replicate, beq_self_eq_true, Bool.and_true]

def resetS (f : Power → Power) : State := { State.reset with pwr := f { State.reset.pwr with mode := .reset } }

/-- Held by a truss reset until mc 5, by the thermal hold, or not in RESET; released; a flash that answers and one that does
not; RETURN interrupted. -/
theorem witness_ResetSourcesAndRelease :
    (∀ s ∈ [resetS fun p => { p with trussHold := some 5 }], s.pwr.trussHold = some 5 ∧ s.mc (s.clocks.mgmt.next (max s.now 9)) < 5) ∧
    (resetS fun p => { p with thermHold := true }).pwr.thermHold = true ∧ live.pwr.mode ≠ .reset ∧
    (∀ s ∈ [resetS id], s.pwr.mode = .reset ∧ s.pwr.trussHold = none ∧ s.pwr.thermHold = false ∧
      s.pwr.thermWait = false) ∧
    (flash0.sfdpOk = true ∧ ({ flash0 with sfdpOk := false } : Flash).sfdpOk = false) ∧
    (∀ s ∈ [{ resetS id with lcy := { State.reset.lcy with fuses := [(4, 8)] } }],
      (s.lcy.fuse 4).getLsbD 3 = true ∧ (s.lcy.fuse 16).getLsbD 1 = false ∧ s.pwr.dipActive = false) := by
  and_intros <;> decide +kernel

def domS (d : Dom) (x : DomSt) (f : Power → Power) : State :=
  { live with pwr := f { live.pwr with doms := live.pwr.doms.set d x } }

/-- A dip alone, beside another, with a trim window in progress and with STORE_CAL; domains on their way. -/
theorem witness_DipsAndDomains :
    (∀ s ∈ [trimS id, { storeS 4 0 false false with pwr := { live.pwr with dipActive := true, dipRails := 1 } }],
      s.pwr.mode ≠ .reset ∧ (s.pwr.rails[(5 : RailIx)]).warn = false) ∧
    ((trimS id).pwr.dipActive = false ∧ ((trimS id).chan 0).trim.running = true ∧
      ((trimS id).chan 0).trim.failReason = 0) ∧
    (∀ s ∈ [{ live with pwr := { live.pwr with dipActive := true, dipRails := 1 } }],
      s.pwr.dipActive = true ∧ s.pwr.dipLong = false ∧ s.pwr.dipRails.getLsbD (0 : RailIx).val = true ∧ s.chOn 95 = true ∧
        s.pwr.dipRails &&& 0b010111 ≠ 0) ∧
    (∀ s ∈ [domS 0 (.turningOn 5) id], s.dom 0 = .turningOn 5 ∧ s.thm.shedFrom = none ∧ (s.chan 0).shedPend = false ∧
      (s.chan 0).pdoffPend = false ∧ s.dom 1 ≠ .waiting) ∧
    (∀ s ∈ [domS 103 (.turningOn 5) id], s.dom 103 = .turningOn 5 ∧ (103 : Dom) = pierDom 7) ∧
    (∀ s ∈ [domS 103 (.turningOff 5) id], s.dom 103 = .turningOff 5 ∧ s.pwr.cycle = []) ∧
    (∀ s ∈ [domS 0 (.turningOff 5) fun p => { p with cycle := [0] }], s.dom 0 = .turningOff 5 ∧
      (0 : Dom) = chDom 0 ∧ (0 : Dom).val ∈ s.pwr.cycle ∧ 96 + (pierOf 0).val ∉ s.pwr.cycle ∧ s.thm.shedFrom = none) := by
  and_intros <;> decide +kernel

def fuseS (words : List (Nat × Word)) (dip : Bool) : State :=
  { live with
    lcy := { live.lcy with seq := some { target := 2, words := words, start := 5, byAdvance := true }, fuses := [(4, 1)] }
    pwr := { live.pwr with dipActive := dip } }

/-- The last word of a sequence, and one with another to come, without and with a dip. -/
theorem witness_FuseWords :
    (∀ s ∈ [fuseS [(4, 2)] false, fuseS [(4, 2), (16, 1)] false, fuseS [(4, 2), (16, 1)] true],
      s.pwr.mode ≠ .reset ∧ s.lcy.seq.isSome = true ∧ Sparse 0 s.lcy.fuses) ∧
    ((fuseS [(4, 2), (16, 1)] true).pwr.dipActive = true ∧ (fuseS [(4, 2), (16, 1)] false).pwr.dipActive = false) := by
  simp only [Sparse]
  decide +kernel

/-! ## Truss, temperature and the whole machine -/

def recogOf (n : Source) (causes : Byte) : Recog :=
  { mc := 9, src := n, causes := causes, real := true, inj := false, contain := false }

def histOf (id : Nat) : Hist :=
  { span := 0, mclk := 0, source := 0, cause := 0, merge := 0, inj := false, real := true, react := 0, id := id }

/-- Source 0 with a configuration and a recognition edge at mc 9, followed by one of source 1 at mc 10. -/
def trussS (cfg : Word) (f : SrcSt → SrcSt) : State :=
  let s : State := { live with
    truss := { live.truss with incoming := [recogOf 0 1, { recogOf 1 1 with mc := 10 }], hist := [histOf 3] }
    msp := { live.msp with fwup := true } }
  s.setSrc 0 (f { s.src 0 with cfg := cfg })

/-- Causes outside CMASK, and each REACT; a pending source with its open entry; timers at each level. -/
theorem witness_TrussEventsAndEscalation :
    (∀ s ∈ [trussS 0x00100001 id, trussS 0x40100001 id, trussS 0x60100001 id, trussS 0x80100001 id, trussS 0xA0100001 id],
      s.pwr.mode ≠ .reset ∧ s.truss.incoming = [recogOf 0 1, { recogOf 1 1 with mc := 10 }] ∧
      (recogOf 0 1).mc < ({ recogOf 1 1 with mc := 10 } : Recog).mc ∧ (recogOf 0 1).real = true ∧
      (recogOf 0 1).causes ≠ 0 ∧ (s.src 0).pulseMc + 1 ≠ (recogOf 0 1).mc ∧
      (recogOf 0 1).causes &&& (s.src 0).cfg.extractLsb' 20 8 ≠ 0 ∧ (s.src 0).level = 0 ∧ (s.src 0).pend = false) ∧
    (∀ s ∈ [trussS 0x20200001 id], (recogOf 0 1).causes &&& (s.src 0).cfg.extractLsb' 20 8 = 0) ∧
    (∀ s ∈ [trussS 0x20100001 fun x => { x with pend := true, level := 1, entReal := some 3 }],
      (s.src 0).pend = true ∧ (s.src 0).entReal = some 3 ∧ ∃ h ∈ s.truss.hist, h.id = 3) ∧
    (∀ l ∈ [(1 : BitVec 3), 2, 3, 4], ∀ s ∈ [trussS 0x20100001 fun x => { x with timer := some 9, level := l }],
      (s.src 0).timer = some 9 ∧ (s.src 0).level = l) := by
  and_intros <;> decide +kernel

/-- Every source has an action due; channel 0 is armed. -/
def dueS (trap block : Option Nat) : State :=
  { liveC fun x => { x with armed := true } with
    truss := { live.truss with srcs := Vector.replicate 256 { SrcSt.reset 0 with trapDue := trap, blockDue := block } } }

def stallS (target : BitVec 5) (stalling : Bool) : State :=
  { live with tst := { live.tst with on := true, stallEn := true, stallLen := 1, stallTarget := target, stalling := stalling } }

/-- Traps of a channel, of its pier and of another owner; blocks of a channel, a pier, a synthesizer, a clock, the endpoint
and another owner; ALIVE before its stop, at it, and without one; stalls. -/
theorem witness_TrapActionsAndTrussTimers :
    live.pwr.mode ≠ .reset ∧
    (∀ n ∈ [(0 : Source), 96, 104], ∀ s ∈ [dueS (some 9) none],
      (s.src n).trapDue = some 9 ∧ (s.src n).blockDue = none ∧ (s.chan 0).armed = true ∧ (s.chan 0).armNext = none ∧
        (s.chan 0).folder.closing = none) ∧
    (∀ n ∈ [(0 : Source), 96, 154, 162, 163, 204, 209, 210, 255], ∀ s ∈ [dueS none (some 9)],
      (s.src n).blockDue = some 9 ∧ (s.src n).trapDue = none ∧ s.chOn 0 = true ∧ s.pierOn 0 = true) ∧
    (((dueS none (some 9)).chan 95).armed = false ∧ ((dueS none (some 9)).chan 95).rcd.isOpen = false) ∧
    (∀ e ∈ [some 9, some 10, none], ∀ s ∈ [{ live with truss := { live.truss with aliveNext := some 9, aliveStopAt := e } }],
      s.truss.aliveNext = some 9 ∧ s.truss.aliveStopAt = e) ∧
    (∀ s ∈ [stallS 7 false, stallS 8 true], s.tst.on = true ∧ s.tst.stallEn = true ∧ s.tst.stallLen ≠ 0) := by
  and_intros <;> decide +kernel

def sensS (i : SensorIx) (f : Sensor → Sensor) : State :=
  { live with thm := { live.thm with sens := live.thm.sens.set i (f (live.sens i)) } }

/-- In RESET; an ordinary reading at each bound, beside neighbours that agree or differ; a request in force; a failed
conversion; the ranges of the shutdown; a shutdown on its way. -/
theorem witness_SensorSamples :
    ((resetS id).pwr.mode = .reset ∧ live.pwr.mode ≠ .reset) ∧
    (∀ s ∈ [sensS 0 fun x => { x with differs := 7 }, sensS 0 fun x => { x with differs := 6, warn := true }],
      s.tst.on = false ∧ s.thm.shutdown = none ∧ s.thm.req = none ∧ (s.sens 0).broken = false ∧
        (s.sens 15).broken = false ∧ (s.sens 1).broken = false ∧ (s.sens 0).reading < 1000 ∧ (s.sens 0).hot = 0) ∧
    (¬(48 < ((48 : Int) - (live.sens 1).reading).natAbs) ∧ 48 < ((49 : Int) - (live.sens 1).reading).natAbs) ∧
    (∀ s ∈ [{ live with thm := { live.thm with req := some 5 } }], s.thm.req = some 5 ∧ (s.sens 16).broken = false ∧
      (∀ j : SensorIx, j ≠ 16 → j.val ≤ 16 → s.valid j = true → (s.sens j).reading ≤ 848) ∧
      (s.valid 17 = true → (s.sens 17).reading ≤ 768)) ∧
    (∀ s ∈ [sensS 16 fun x => { x with hot := 1 }], (s.sens 16).hot = 1 ∧ s.nvm.programming = false) ∧
    (∀ s ∈ [{ storeS 4 0 false false with thm := (sensS 16 fun x => { x with hot := 1 }).thm }],
      (s.sens 16).hot = 1 ∧ s.nvm.programming = true ∧ s.thm.shutdown = none) ∧
    ({ live with thm := { live.thm with shutdown := some (5, 16, 1000) } } : State).thm.shutdown = some (5, 16, 1000) := by
  and_intros <;> decide +kernel

/-- The rows of `RowsComplete`: a mark whose instant is the first whole multiple of P after it; a trim of both kinds and one
of neither; a reading at each end of the range, in RESET and outside; a shutdown that waits. -/
theorem witness_RowsComplete :
    (∀ s ∈ [{ tbS (fun t => { t with st := .locked }) with sync := { live.sync with mark := some 5 } }],
      s.pwr.mode ≠ .reset ∧ s.tb.st = .locked ∧ s.tb.jump = none ∧ s.sync.mark = some 5 ∧
        ((max s.now 6400000 : Nat) : Int) + s.tb.scale * 25 = 1 * ((s.tb.refP : Int) * 25) ∧
        5 + 32 * 64000 ≤ max s.now 6400000 ∧ ((max s.now 6400000 : Nat) : Int) < 5 + 32 * 64000 + (s.tb.refP : Int) * 25) ∧
    (∀ b ∈ [true, false], ∀ s ∈ [trimS fun t => { t with pendCells := b, pendDeskew := b }],
      s.pwr.mode ≠ .reset ∧ (s.chan 0).trim.running = true ∧ (s.chan 0).trim.pendCells = b ∧
        (s.chan 0).trim.cellsOk = false ∧ (s.chan 0).trim.pending = false ∧ (s.chan 0).trim.failReason = 0) ∧
    (∀ v ∈ [(-320 : Int), 999], -320 ≤ v ∧ v < 1000) ∧
    ((resetS id).pwr.mode = .reset ∧ live.pwr.mode ≠ .reset ∧ live.tst.on = false ∧ live.thm.shutdown = none ∧
      (live.sens 16).reading < 1000) ∧
    ({ live with thm := { live.thm with shutdown := some (5, 16, 1000) } } : State).thm.shutdown = some (5, 16, 1000) := by
  and_intros <;> decide +kernel

/-- TAP: five cycles of TMS high lead to Test-Logic-Reset from anywhere; in Shift-DR outside RESET a bit passes the bypass
register. -/
theorem test_tap :
    (∀ x ∈ [TapState.shiftDr, .pauseIr, .updateDr], ((List.replicate 5 true).foldl TapState.next x) = .testLogicReset) ∧
    (({ live with tap := { Tap.reset with st := .shiftDr, ir := .extest, scan := [false] } } : State).tck false true []).tdo = .high := by
  decide +kernel

def bandS (evaluated : Bool) (band : BitVec 2) (t : Int) : State :=
  { live with thm := { live.thm with
    evaluated := evaluated, piers := Vector.replicate 8 { PierTemp.reset with band := band, last := [t] } } }

def noSensors : State :=
  { live with thm := { live.thm with sens := live.thm.sens.map fun (x : Sensor) => ({ x with invalid := true } : Sensor) } }

def graceS (m : Mode) : State :=
  { liveC fun x => { x with armed := true } with
    pwr := { live.pwr with mode := m }, thm := { live.thm with req := some 5, shed := 3 } }

def shedToS : State :=
  { liveC fun x => { x with armed := true, shedPend := true, rcd := { x.rcd with isOpen := true } } with
    thm := { live.thm with shedFrom := some 5 } }

/-- T_k at the rise and fall of every band, before and after the first evaluation; no valid sensor; a rate at its bounds;
the grace time in each mode; the end of a shed channel's time. -/
theorem witness_BandsRatesAndShedding :
    (∀ s ∈ [bandS true 0 720, bandS true 2 1360, bandS true 3 1327, bandS true 1 687, bandS true 1 688, bandS false 0 1360],
      s.pwr.mode ≠ .reset ∧ ((0 : SensorIx).val ≤ 16 ∧ s.valid 0 = true) ∧ s.thm.piers[(7 : Pier)].last ≠ []) ∧
    (∀ s ∈ [noSensors],
      ∀ j : SensorIx, j.val ≤ 16 → s.valid j = false) ∧
    (∀ s ∈ [sensS 16 fun x => { x with samples := 400 :: List.replicate 99 0, means := List.replicate 100 0 },
        sensS 16 fun x => { x with samples := 199 :: List.replicate 99 0, means := List.replicate 100 0, rateArmed := false }],
      s.valid 16 = true ∧ (s.sens 16).samples.length = 100 ∧ (s.sens 16).means[99]? = some 0) ∧
    ((400 :: List.replicate 99 (0 : Int)).sum = 400 ∧ (199 :: List.replicate 99 (0 : Int)).sum = 199) ∧
    (∀ m ∈ [Mode.run, .freeze, .load, .trim], ∀ s ∈ [graceS m],
      s.pwr.mode = m ∧ s.pwr.mode ≠ .reset ∧ s.thm.req = some 5 ∧ s.thm.expired = false ∧ s.pwr.mode ≠ .shed ∧
        s.thm.shed.getLsbD 0 = true ∧ s.chOn 0 = true ∧ (s.chan 0).armed = true ∧ (s.chan 0).trim.pending = false ∧
        s.thm.shed.getLsbD 1 = true ∧ (s.chan 1).armed = false ∧ (s.chan 1).rcd.isOpen = false ∧
        s.thm.shed.getLsbD 95 = false) ∧
    (∀ s ∈ [shedToS],
      s.thm.shedFrom = some 5 ∧ (s.chan 0).shedPend = true ∧ (s.chan 0).armed = true ∧ (s.chan 0).armNext = none ∧
        (s.chan 0).folder.closing = none ∧ (s.chan 0).rcd.isOpen = true) := by
  and_intros <;> decide +kernel

/-- A queue of one command, and the empty queue. -/
theorem witness_StepRunsFrontCommand :
    ({ live with pending := [.stackInitEnd] } : State).pending = .stackInitEnd :: [] ∧ live.pending = [] := by
  decide +kernel

/-- Words whose fields are defined, of each format. -/
theorem witness_EngineEncoding :
    ∀ p ∈ [((.divu 0 10 0 9 : Instr), (0xE2824000 : Word)), (.addi 0 3 2 0x3FFFB, 0x40CBFFFB), (.movz 0 3 3 0xFFFF, 0x60F0FFFF),
        (.b 0 2 0xFFD, 0xF0800FFD)],
      encodeEng p.1 = some p.2 ∧ engFieldsOk p.1 = true ∧ decodeEng 0 p.2 = some p.1 := by
  decide +kernel

/-- The state after reset, with a byte stored and fuse 4 blown, keeps the canonical form, and a step answers a next state. -/
theorem witness_StoreInvariant :
    StoreOk State.reset ∧ step { State.reset with pending := [] } = .next State.reset :=
  ⟨State.reset_wf, rfl⟩

/-! ## Worked examples of the spec -/

/-- 16_management_port.md, under Table 16.1: PWR.MODE in RUN after TRIM reads 0x32000000, with RCRC 0x9E. -/
theorem test_read_mode : answerBytes 0 [0x00, 0x00, 0x00, 0x32] = [0xA5, 0x00, 0x00, 0x00, 0x00, 0x32, 0x9E] := by
  decide +kernel

/-- 02_stamping_lanes.md and 09_records_and_readout.md: an edge of lane H under PSRC 5, falling and rising. -/
def entry5 : Entry := { entryH with psrc := 5, pol := false, time := 0x98968235 }

theorem test_attribute_word :
    ({ entry5 with pol := true } : Entry).attr = 0x12800400 ∧
      absWord entry5 = 0xFFFF0000000000009896823502800400 := by
  decide +kernel

theorem test_packed_word :
    packedWord [stampSlot { entry5 with lane := true } 1024, stampSlot { entry5 with lane := true, pol := true } 11776,
      stampSlot { entry5 with pol := true } 1024, stampSlot entry5 11776] = 0x00002E0040000400C0002E0080000400 ∧
    codeSlots { entry5 with edges := 3 } 1 0 = [0x3FFF0002] := by
  decide +kernel

/-- 11_vault_controller.md: galley word 0x01345679, and a flip of data bit 21. -/
theorem test_galley_address :
    gH 0x01345679 = 1 ∧ gCol 0x01345679 = 28 ∧ gPc 0x01345679 = 7 ∧ gBg 0x01345679 = 2 ∧ gBa 0x01345679 = 0 ∧
      gRow 0x01345679 = 616 ∧ galleyOf 7 8 616 28 = 0x01345678 := by
  decide +kernel

theorem test_syndrome :
    (readCode 0 (live.stored 0 ^^^ 0x200000)).syn = 0x2041 ∧ (readCode 0 (live.stored 0 ^^^ 0x200000)).corrected = true ∧
      (readCode 0 (live.stored 0 ^^^ 0x200000)).word = 0 := by
  decide +kernel

/-- 07_measurements.md: a phase of 6,400 of 25,600 LSB is a quarter turn. -/
theorem test_quarter_turn : (encodeTurn 6400 25600).value = 0x40000000 := by
  decide +kernel

end Sys2Proof.Tests
end

section
/-! SUPPORT. Facts below the rows of the synthesizers: conditions on their way to the truss, the frames `OnlySynth` and
`OnlyLoop` one operation at a time, store entries, the start of a hop, and the count of a ramp that stands still. -/

namespace Sys2Proof.Machine

open Sys2Proof.Safety

/-! ## Raising a cause -/

/-- Raising a cause adds to the conditions on their way to the truss and touches nothing else. -/
theorem State.raise_eq (s : State) (n : Source) (c : Byte) :
    ∃ l, s.raise n c = { s with truss := { s.truss with incoming := s.truss.incoming ++ l } } := by
  unfold State.raise State.raiseFrom State.recog
  split
  · exact ⟨[], by rw [List.append_nil]⟩
  · split
    · exact ⟨[], by rw [List.append_nil]⟩
    · exact ⟨_, rfl⟩

section Raise
variable (s : State) (n : Source) (c : Byte)

@[simp] theorem State.raise_now : (s.raise n c).now = s.now := by obtain ⟨_, h⟩ := s.raise_eq n c; rw [h]
@[simp] theorem State.raise_clocks : (s.raise n c).clocks = s.clocks := by obtain ⟨_, h⟩ := s.raise_eq n c; rw [h]
@[simp] theorem State.raise_chans : (s.raise n c).chans = s.chans := by obtain ⟨_, h⟩ := s.raise_eq n c; rw [h]
@[simp] theorem State.raise_vlt : (s.raise n c).vlt = s.vlt := by obtain ⟨_, h⟩ := s.raise_eq n c; rw [h]
@[simp] theorem State.raise_synths : (s.raise n c).synths = s.synths := by obtain ⟨_, h⟩ := s.raise_eq n c; rw [h]
@[simp] theorem State.synth_raise (k : Synth) : (s.raise n c).synth k = s.synth k := congrArg (·[k]) (s.raise_synths n c)

end Raise

/-- Outside RESET a raised cause is on its way behind the conditions raised before it. -/
theorem State.raise_incoming (s : State) (n : Source) (c : Byte) (hmode : s.pwr.mode ≠ .reset) (hc : c ≠ 0) :
    ∃ r, (s.raise n c).truss.incoming = s.truss.incoming ++ [r] ∧ r.src = n ∧ r.causes = c := by
  unfold State.raise State.raiseFrom State.recog
  rw [if_neg hc, if_neg hmode]
  exact ⟨_, rfl, rfl, rfl⟩

theorem State.reported_raise (s : State) (n : Source) (c : Byte) (hmode : s.pwr.mode ≠ .reset) (hc : c ≠ 0) :
    Reported (s.raise n c) n.val c := by
  obtain ⟨r, hin, hsrc, hcauses⟩ := s.raise_incoming n c hmode hc
  exact ⟨r, by simp [hin], by rw [hsrc], by rw [hcauses, BitVec.and_self]⟩

end Sys2Proof.Machine

namespace Sys2Proof.Safety

open Sys2Proof.Machine

/-- A condition on its way stays on its way when another is raised. -/
theorem Reported.raise {s : State} {m : Nat} {b : Byte} (h : Reported s m b) (n : Source) (c : Byte) :
    Reported (s.raise n c) m b := by
  obtain ⟨r, hr, hcond⟩ := h
  obtain ⟨_, he⟩ := s.raise_eq n c
  exact ⟨r, by rw [he]; exact List.mem_append_left _ hr, hcond⟩

/-- Conditions on their way are a matter of the truss alone. -/
theorem Reported.of_truss_eq {s t : State} {n : Nat} {c : Byte} (h : Reported s n c) (ht : t.truss = s.truss) :
    Reported t n c := by
  obtain ⟨r, hr, hcond⟩ := h
  exact ⟨r, by rw [ht]; exact hr, hcond⟩

/-! ## The frame of one synthesizer -/

section Frames
variable {s t u : State} {k : Synth}

theorem OnlySynth.trans (h : OnlySynth s t k) (g : OnlySynth t u k) : OnlySynth s u k where
  whole := by
    refine g.whole.trans ?_
    rw [h.whole]
  others j hj := (g.others j hj).trans (h.others j hj)

theorem OnlySynth.at_ (h : OnlySynth s t k) (a : Instant) : OnlySynth s (t.at_ a) k :=
  h.trans ⟨rfl, fun _ _ => rfl⟩

theorem OnlySynth.setSynth (h : OnlySynth s t k) (x : SynthSt) : OnlySynth s (t.setSynth k x) k :=
  h.trans ⟨rfl, fun j hj => t.synth_setSynth_ne k j x hj⟩

theorem OnlySynth.drawn (h : OnlySynth s t k) : OnlySynth s t.drawn k := h.trans ⟨rfl, fun _ _ => rfl⟩

theorem OnlySynth.raise (h : OnlySynth s t k) (n : Source) (c : Byte) : OnlySynth s (t.raise n c) k :=
  h.trans ⟨by obtain ⟨_, he⟩ := t.raise_eq n c; rw [he], fun j _ => t.synth_raise n c j⟩

theorem OnlySynth.refl (s : State) (k : Synth) : OnlySynth s s k := ⟨rfl, fun _ _ => rfl⟩

theorem OnlyLoop.trans (h : OnlyLoop s t k) (g : OnlyLoop t u k) : OnlyLoop s u k where
  whole := by
    refine g.whole.trans ?_
    rw [h.whole]
  others j hj := (g.others j hj).trans (h.others j hj)

theorem OnlyLoop.at_ (s : State) (k : Synth) (a : Instant) : OnlyLoop s (s.at_ a) k := ⟨rfl, fun _ _ => rfl⟩

theorem OnlyLoop.onClock (h : OnlyLoop s t k) (new : Clock) : OnlyLoop s (t.onClock false new) k :=
  h.trans ⟨rfl, fun _ _ => rfl⟩

theorem OnlyLoop.setSynth (h : OnlyLoop s t k) (x : SynthSt) : OnlyLoop s (t.setSynth k x) k :=
  h.trans ⟨rfl, fun j hj => t.synth_setSynth_ne k j x hj⟩

theorem OnlyLoop.raise (h : OnlyLoop s t k) (n : Source) (c : Byte) : OnlyLoop s (t.raise n c) k :=
  h.trans ⟨by obtain ⟨_, he⟩ := t.raise_eq n c; rw [he], fun j _ => t.synth_raise n c j⟩

end Frames

/-- What a hop begins with is read from the hold mode, the last cycle of the output and the two counters. -/
theorem HopBegun.of_same {x x' y : SynthSt} {h : HopSt} {e : Instant} (g : HopBegun x' y h e)
    (hmode : x'.holdMode = x.holdMode) (hfall : x'.endFall e = x.endFall e) (hhops : x'.hops = x.hops)
    (hsearches : x'.searches = x.searches) : HopBegun x y h e where
  hop := g.hop
  start := g.start
  fresh := g.fresh
  st := g.st
  out := by rw [g.out, hmode]
  fall := by rw [g.fall, hfall]
  lock := g.lock
  hops := by rw [g.hops, hhops]
  searches := by rw [g.searches, hsearches]

end Sys2Proof.Safety

namespace Sys2Proof.Machine

open Sys2Proof.Safety

/-! ## Counters -/

theorem satAdd_zero {n : Nat} (b : BitVec n) : satAdd b 0 = b := by
  simp [satAdd, b.isLt]

/-! ## Store entries -/

theorem SynthSt.entryAt_setAt_ne (x : SynthSt) (i j : Nat) (e : StoreEntry) (h : i ≠ j) :
    ({ x with store := setAt x.store i e } : SynthSt).entryAt j = x.entryAt j := by
  simp [SynthSt.entryAt, setAt, List.getElem?_set_ne h]

theorem SynthSt.entryAt_setAt_self (x : SynthSt) (i : Nat) (e : StoreEntry) (h : i < x.store.length) :
    ({ x with store := setAt x.store i e } : SynthSt).entryAt i = e := by
  simp [SynthSt.entryAt, setAt, h]

/-- The entry that is found for a word holds it. -/
theorem SynthSt.holdsWord_of_findEntry {x : SynthSt} {o : BitVec 4} {n : BitVec 7} {f : BitVec 24} {i : Nat}
    (h : x.findEntry o n f = some i) : HoldsWord x i o n f := by
  simp only [SynthSt.findEntry, Option.orElse_eq_orElse, Option.orElse_eq_or, Option.or_eq_some_iff,
    List.find?_range_eq_some, Bool.and_eq_true, beq_iff_eq, List.mem_range] at h
  obtain ⟨⟨-, ⟨ho, hn⟩, hf⟩, hi, -⟩ | ⟨-, ⟨-, ⟨ho, hn⟩, hf⟩, hi, -⟩ := h
  · exact ⟨hi, ho, hn, hf⟩
  · exact ⟨hi, ho, hn, hf⟩

/-- Where a valid entry holds the word, the one that is found is valid. -/
theorem SynthSt.findEntry_valid {x : SynthSt} {o : BitVec 4} {n : BitVec 7} {f : BitVec 24}
    (h : ∃ i, HoldsWord x i o n f ∧ (x.entryAt i).valid = true) :
    ∃ i, x.findEntry o n f = some i ∧ (x.entryAt i).valid = true := by
  obtain ⟨i, ⟨hi, ho, hn, hf⟩, hv⟩ := h
  simp only [SynthSt.findEntry]
  cases hfind : (List.range 64).find? fun i => (x.entryAt i).valid &&
      ((x.entryAt i).odiv == o && (x.entryAt i).nint == n && (x.entryAt i).nfrac == f) with
  | none =>
    have := List.find?_eq_none.mp hfind i (List.mem_range.mpr hi)
    simp [hv, ho, hn, hf] at this
  | some j =>
    have hp := List.find?_some hfind
    rw [Bool.and_eq_true] at hp
    exact ⟨j, rfl, hp.1⟩

/-! ## Hops -/

/-- The hop in progress that `startHop` makes. -/
def HopSt.begun (t : Instant) (full : Bool) (o : BitVec 4) (n : BitVec 7) (f : BitVec 24) (e : Option Nat) : HopSt :=
  { start := t, full := full, fellBack := false, odiv := o, nint := n, nfrac := f, entry := e }

theorem SynthSt.startHop_begun (x : SynthSt) (t : Instant) (full : Bool) (o : BitVec 4) (n : BitVec 7) (f : BitVec 24)
    (e : Option Nat) : HopBegun x (x.startHop t full o n f e) (HopSt.begun t full o n f e) t :=
  ⟨rfl, rfl, rfl, rfl, rfl, rfl, ⟨rfl, rfl⟩, rfl, rfl⟩

/-- A hop to a word is stored exactly where the entry found for the word is valid (R149). -/
theorem SynthSt.hopTo_begun (x : SynthSt) (t : Instant) (o : BitVec 4) (n : BitVec 7) (f : BitVec 24) :
    ∃ h, HopBegun x (x.hopTo t o n f) h t ∧ h.odiv = o ∧ h.nint = n ∧ h.nfrac = f ∧ h.entry = x.findEntry o n f ∧
      (h.full = false ↔ ∃ i, x.findEntry o n f = some i ∧ (x.entryAt i).valid = true) := by
  refine ⟨_, x.startHop_begun t _ o n f _, rfl, rfl, rfl, rfl, ?_⟩
  cases hfind : x.findEntry o n f with
  | none => simp [HopSt.begun]
  | some i => simp [HopSt.begun]

/-! ## The count of a ramp stands still -/

section Freeze
variable (x : SynthSt) (t : Instant)

theorem SynthSt.freeze_of_rampOn_false (h : x.rampOn = false) : x.freeze t = x := by simp [SynthSt.freeze, h]

/-- The ramp's count and the word in force are all that stopping it can change. -/
theorem SynthSt.freeze_eq : x.freeze t =
    { x with tDone := (x.freeze t).tDone, t0 := (x.freeze t).t0, nint := (x.freeze t).nint, nfrac := (x.freeze t).nfrac } := by
  unfold SynthSt.freeze
  split <;> rfl

@[simp] theorem SynthSt.freeze_st : (x.freeze t).st = x.st := by rw [freeze_eq]
@[simp] theorem SynthSt.freeze_out : (x.freeze t).out = x.out := by rw [freeze_eq]
@[simp] theorem SynthSt.freeze_cfg : (x.freeze t).cfg = x.cfg := by rw [freeze_eq]
@[simp] theorem SynthSt.freeze_store : (x.freeze t).store = x.store := by rw [freeze_eq]
@[simp] theorem SynthSt.freeze_segs : (x.freeze t).segs = x.segs := by rw [freeze_eq]
@[simp] theorem SynthSt.freeze_rampOn : (x.freeze t).rampOn = x.rampOn := by rw [freeze_eq]
@[simp] theorem SynthSt.freeze_chain : (x.freeze t).chain = x.chain := by rw [freeze_eq]
@[simp] theorem SynthSt.freeze_hops : (x.freeze t).hops = x.hops := by rw [freeze_eq]
@[simp] theorem SynthSt.freeze_searches : (x.freeze t).searches = x.searches := by rw [freeze_eq]
@[simp] theorem SynthSt.freeze_guards : (x.freeze t).guards = x.guards := by rw [freeze_eq]
@[simp] theorem SynthSt.freeze_hop : (x.freeze t).hop = x.hop := by rw [freeze_eq]

theorem SynthSt.ran_freeze : (x.freeze t).ran t = x.ran t := by
  cases h : x.rampOn && decide (x.st = .ramp) with
  | false => simp [SynthSt.freeze, h]
  | true =>
    rw [Bool.and_eq_true, decide_eq_true_iff] at h
    simp [SynthSt.freeze, SynthSt.ran, h]

theorem SynthSt.wordAt_freeze (n : Nat) : (x.freeze t).wordAt n = x.wordAt n := by
  rw [freeze_eq]
  rfl

/-- The word in force at the instant at which the count stops is the one that it stops with. -/
theorem SynthSt.forceWord_freeze : (x.freeze t).forceWord t = x.forceWord t := by
  cases h : x.rampOn && decide (x.st = .ramp) with
  | false => simp [SynthSt.freeze, h]
  | true => simp only [SynthSt.forceWord, freeze_rampOn, freeze_st, h, if_true, ran_freeze, wordAt_freeze]

theorem SynthSt.endFall_freeze : (x.freeze t).endFall t = x.endFall t := by
  have hwave : (x.freeze t).wave t = x.wave t := by
    have hw := x.forceWord_freeze t
    rw [freeze_eq] at hw ⊢
    simp only [SynthSt.wave, SynthSt.forceNat, hw]
    rfl
  simp only [SynthSt.endFall, hwave, freeze_out]
  rw [freeze_eq]

end Freeze
end Sys2Proof.Machine
end

section
/-! SUPPORT. The rows of a sweep synthesizer, each in the cases that it has: hop, release, search, deadline, loss of lock,
window (R147 to R154). -/

namespace Sys2Proof.Machine

open Sys2Proof.Safety

/-! ## The rows of the table -/

theorem exec_hop (s : State) (a : Instant) (k : Fin 8) : exec (.hop a k) s = .next (s.hop a k) := rfl
theorem exec_storedHopRelease (s : State) (k : Fin 8) (l : List Instant) :
    exec (.storedHopRelease k l) s = .next (s.storedRelease k l) := rfl
theorem exec_fullSearchRelease (s : State) (k : Fin 8) (l : List Instant) :
    exec (.fullSearchRelease k l) s = .next (s.fullRelease k l) := rfl
theorem exec_lockDetectDeadline (s : State) (k : Fin 8) (band : Bool) :
    exec (.lockDetectDeadline k band) s = .next (s.lockDeadline k band) := rfl
theorem exec_unlock (s : State) (a : Instant) (k : Synth) : exec (.unlock a k) s = .next (s.unlock a k) := rfl
theorem exec_windowMonitor (s : State) (a : Instant) (k : Fin 8) (n : Nat) (l : List Instant) :
    exec (.windowMonitor a k n l) s = .next (s.windowMonitor a k n l) := rfl

/-! ## The cycle guard (R153) -/

/-- The guard counts the edges it holds by FLIM alone. -/
theorem SynthSt.heldEdges_congr {x y : SynthSt} (h : x.cfg = y.cfg) (l : List Instant) : x.heldEdges l = y.heldEdges l := by
  have hflim : x.flim = y.flim := by rw [SynthSt.flim, SynthSt.flim, h]
  cases l with
  | nil => rfl
  | cons r l => simp only [SynthSt.heldEdges, hflim]

/-- The second of two edges is held where it follows the first by less than 1/FLIM. -/
theorem SynthSt.heldEdges_pair (x : SynthSt) (a b : Nat) :
    x.heldEdges [a, b] = if b * x.flim < a * x.flim + 64000000 then 1 else 0 := by
  rw [SynthSt.heldEdges, List.foldl_cons, List.foldl_nil, apply_ite Prod.snd]

/-- With FLIM at 1 GHz that is less than 1,000 ps. -/
theorem SynthSt.heldEdges_pair_1000 {x : SynthSt} (h : x.flim = 1000) (a b : Nat) :
    x.heldEdges [a, b] = if b < a + 64000 then 1 else 0 := by
  have hiff : b * 1000 < a * 1000 + 64000000 ↔ b < a + 64000 := by omega
  rw [heldEdges_pair, h]
  exact if_congr hiff rfl rfl

section Guard
variable (s : State) (k : Fin 8) (l : List Instant)

theorem State.guard_of_none (h : (s.synth (swOf k)).heldEdges l = 0) : s.guard k l = s := if_pos h

theorem State.guard_of_some (h : (s.synth (swOf k)).heldEdges l ≠ 0) :
    s.guard k l = (s.setSynth (swOf k) { s.synth (swOf k) with
      guards := satAdd (s.synth (swOf k)).guards ((s.synth (swOf k)).heldEdges l) }).raise (synSrc (swOf k)) 0x10 := if_neg h

theorem State.guard_only : OnlySynth s (s.guard k l) (swOf k) := by
  by_cases h : (s.synth (swOf k)).heldEdges l = 0
  · rw [guard_of_none s k l h]
    exact .refl s _
  · rw [guard_of_some s k l h]
    exact ((OnlySynth.refl s _).setSynth _).raise _ _

@[simp] theorem State.guard_now : (s.guard k l).now = s.now := by
  by_cases h : (s.synth (swOf k)).heldEdges l = 0
  · rw [guard_of_none s k l h]
  · rw [guard_of_some s k l h, State.raise_now, State.setSynth_now]

@[simp] theorem State.guard_pwr : (s.guard k l).pwr = s.pwr := by rw [(s.guard_only k l).whole]

/-- The guard changes its own count and no other part of the synthesizer. -/
theorem State.synth_guard : (s.guard k l).synth (swOf k) = { s.synth (swOf k) with
    guards := satAdd (s.synth (swOf k)).guards ((s.synth (swOf k)).heldEdges l) } := by
  by_cases h : (s.synth (swOf k)).heldEdges l = 0
  · rw [guard_of_none s k l h, h, satAdd_zero]
  · rw [guard_of_some s k l h, State.synth_raise, State.synth_setSynth_self]

/-- A held edge is reported as GUARD. -/
theorem State.guard_reports (hmode : s.pwr.mode ≠ .reset) (h : (s.synth (swOf k)).heldEdges l ≠ 0) :
    Reported (s.guard k l) (154 + k.val) 0x10 := by
  rw [guard_of_some s k l h]
  exact State.reported_raise _ (synSrc (swOf k)) _ hmode (by decide)

end Guard

/-! ## Release (R148) -/

/-- A release shows the target from the first free edge on and starts the count of a ramp. -/
theorem SynthSt.release_rise (x : SynthSt) (h : HopSt) (t : Instant) : max t (x.endFall t) ≤ (x.release h t).rise := by
  exact Nat.le_trans (max_le_max_left t (Nat.le_add_right _ _)) (Nat.le_add_right _ _)

/-- After the release and the guard the hop is over; the store's content does not matter. -/
theorem SynthSt.release_hopReleased (x : SynthSt) (store : List StoreEntry) (h : HopSt) (l : List Instant) :
    let y := ({ x with store := store } : SynthSt).release h h.releaseAt
    HopReleased x { y with guards := satAdd y.guards (y.heldEdges l) } h l where
  word := ⟨rfl, rfl, rfl⟩
  hop := rfl
  out := rfl
  lock := rfl
  st := rfl
  counts := ⟨rfl, rfl⟩
  guards := congrArg (satAdd x.guards) (heldEdges_congr rfl l)
  edge := ⟨release_rise { x with store := store } h h.releaseAt, rfl⟩

/-! ## Hops -/

theorem State.hop_of_off (s : State) (a : Instant) (k : Fin 8) (h : s.pierOn k = false) : s.hop a k = s.at_ a := by
  have hon : (s.at_ a).pierOn k = false := h
  simp [State.hop, hon]

theorem State.hop_of_on (s : State) (a : Instant) (k : Fin 8) (h : s.pierOn k = true) :
    s.hop a k = (s.at_ a).setSynth (swOf k) ((s.synth (swOf k)).hopTo (max s.now a) (s.synth (swOf k)).odiv
      (s.synth (swOf k)).nint (s.synth (swOf k)).nfrac) := by
  have hon : (s.at_ a).pierOn k = true := h
  simp only [State.hop, hon, if_true]
  rfl

/-! ## Completion of a hop -/

theorem HopSt.releaseAt_stored {h : HopSt} (hf : h.full = false) : h.releaseAt = h.start + 2048 * swUnits := by
  simp only [HopSt.releaseAt, hf, Bool.false_eq_true, if_false]

theorem HopSt.releaseAt_full {h : HopSt} (hf : h.full = true) : h.releaseAt = h.start + 8192 * swUnits := by
  simp only [HopSt.releaseAt, hf, if_true]

section Completion
variable {s : State} {k : Fin 8} {h : HopSt}

theorem State.storedRelease_eq (l : List Instant) (hop : (s.synth (swOf k)).hop = some h) (hf : h.full = false) :
    s.storedRelease k l =
      ((s.at_ h.releaseAt).setSynth (swOf k) ((s.synth (swOf k)).release h h.releaseAt)).guard k l := by
  simp [State.storedRelease, hop, hf]

/-- The store after a full search: the entry that names the word holds the result. -/
def SynthSt.searched (x : SynthSt) (h : HopSt) (n : Nat) : List StoreEntry :=
  match h.entry with
  | some i => setAt x.store i ((x.entryAt i).fill n)
  | none => x.store

/-- `y` has the store of `x` but for the entry that the search names, which is valid and holds its word still. -/
def EntryFilled (x y : SynthSt) (h : HopSt) : Prop :=
  (∀ j, h.entry ≠ some j → y.entryAt j = x.entryAt j) ∧
    ∀ i, h.entry = some i → i < x.store.length → (y.entryAt i).valid = true ∧ (y.entryAt i).odiv = (x.entryAt i).odiv ∧
      (y.entryAt i).nint = (x.entryAt i).nint ∧ (y.entryAt i).nfrac = (x.entryAt i).nfrac

/-- A search fills the entry that it names and leaves every other one. -/
theorem SynthSt.entryFilled_of_searched {x y : SynthSt} {h : HopSt} {n : Nat} (hy : y.store = x.searched h n) :
    EntryFilled x y h := by
  have hentry : y.entryAt = ({ x with store := x.searched h n } : SynthSt).entryAt := by
    funext i
    rw [SynthSt.entryAt, hy]
    rfl
  rw [EntryFilled, hentry]
  cases he : h.entry with
  | none => simp [SynthSt.searched, he, SynthSt.entryAt]
  | some e =>
    simp only [SynthSt.searched, he, ne_eq, Option.some.injEq]
    refine ⟨fun j hj => x.entryAt_setAt_ne e j _ hj, ?_⟩
    rintro i rfl hi
    rw [x.entryAt_setAt_self e _ hi]
    exact ⟨rfl, rfl, rfl, rfl⟩

theorem State.fullRelease_eq (l : List Instant) (hop : (s.synth (swOf k)).hop = some h) (hf : h.full = true) :
    let x1 : SynthSt := { s.synth (swOf k) with store := (s.synth (swOf k)).searched h s.free }
    s.fullRelease k l =
      if (s.synth (swOf k)).refilling then (s.at_ h.releaseAt).drawn.setSynth (swOf k) (x1.refillNext h.releaseAt)
      else ((s.at_ h.releaseAt).drawn.setSynth (swOf k) (x1.release h h.releaseAt)).guard k l := by
  simp only [State.fullRelease, hop, hf, SynthSt.searched]
  cases h.entry <;> rfl

theorem State.lockDeadline_stored (band : Bool) (hop : (s.synth (swOf k)).hop = some h) (hf : h.full = false) :
    s.lockDeadline k band = ((s.at_ (h.start + 1792 * swUnits)).setSynth (swOf k) { s.synth (swOf k) with
      st := .search, searches := satAdd (s.synth (swOf k)).searches 1
      hop := some { h with start := h.start + 1792 * swUnits, full := true, fellBack := true } }).raise
        (synSrc (swOf k)) 0x04 := by
  simp [State.lockDeadline, hop, hf]

theorem State.lockDeadline_refill (band : Bool) (hop : (s.synth (swOf k)).hop = some h) (hf : h.full = true)
    (hr : (s.synth (swOf k)).refilling = true) :
    s.lockDeadline k band = ((s.at_ (h.start + 7936 * swUnits)).setSynth (swOf k)
      ((s.synth (swOf k)).refillNext (h.start + 8192 * swUnits))).raise (synSrc (swOf k)) 0x03 := by
  simp [State.lockDeadline, hop, hf, hr]

theorem State.lockDeadline_fail (band : Bool) (hop : (s.synth (swOf k)).hop = some h) (hf : h.full = true)
    (hr : (s.synth (swOf k)).refilling = false) :
    s.lockDeadline k band =
      ((s.at_ (h.start + 7936 * swUnits)).setSynth (swOf k) { s.synth (swOf k) with st := .fail, hop := none }).raise
        (synSrc (swOf k)) (if band then 0x01 else 0x03) := by
  simp [State.lockDeadline, hop, hf, hr]

end Completion

/-! ## Refills (R151) -/

section Refill
variable (x : SynthSt) (t : Instant)

/-- A refill goes on with a full search for its next entry, the output parked. -/
theorem SynthSt.refillNext_cons {i : Nat} {rest : List Nat} (h : x.refill = i :: rest) :
    ∃ g, (x.refillNext t).hop = some g ∧ g.full = true ∧ g.entry = some i ∧ g.start = t ∧ (x.refillNext t).refill = rest ∧
      (x.refillNext t).hops = x.hops ∧ (x.refillNext t).out = .parkLow ∧ (x.refillNext t).st = .search := by
  have hnext : x.refillNext t = { ({ x with startDue := x.startDue.map (max t) } : SynthSt).startHop t true
      (x.entryAt i).odiv (x.entryAt i).nint (x.entryAt i).nfrac (some i) with
      refill := rest, refilling := true, out := .parkLow, hops := x.hops } := by
    simp only [SynthSt.refillNext, h]
    rfl
  rw [hnext]
  exact ⟨_, rfl, rfl, rfl, rfl, rfl, rfl, rfl, rfl⟩

/-- After its last entry a refill makes the first hop to the word of the forme. -/
theorem SynthSt.refillNext_nil (h : x.refill = []) :
    (x.refillNext t).refilling = false ∧
      ∃ g, HopBegun x (x.refillNext t) g t ∧ g.odiv = x.odiv ∧ g.nint = x.nint ∧ g.nfrac = x.nfrac := by
  have hnext : x.refillNext t = ({ x with startDue := x.startDue.map (max t), refilling := false } : SynthSt).hopTo t
      x.odiv x.nint x.nfrac := by
    simp only [SynthSt.refillNext, h]
  rw [hnext]
  obtain ⟨g, hg, ho, hn, hf, -⟩ :=
    SynthSt.hopTo_begun { x with startDue := x.startDue.map (max t), refilling := false } t x.odiv x.nint x.nfrac
  exact ⟨rfl, g, hg.of_same rfl rfl rfl rfl, ho, hn, hf⟩

@[simp] theorem SynthSt.refillNext_store : (x.refillNext t).store = x.store := by
  unfold SynthSt.refillNext
  simp only
  split <;> rfl

end Refill

/-! ## Loss of lock (R150) -/

theorem State.unlock_sweep {s : State} {k : Fin 8} (a : Instant)
    (h : (s.synth (swOf k)).st = .run ∨ (s.synth (swOf k)).st = .ramp) :
    s.unlock a (swOf k) = ((s.at_ a).setSynth (swOf k)
      (((s.synth (swOf k)).freeze (max s.now a)).recover (max s.now a))).raise (synSrc (swOf k)) 0x08 := by
  have hst : ((s.at_ a).synth (swOf k)).st = .run ∨ ((s.at_ a).synth (swOf k)).st = .ramp := h
  have hk : (swOf k).val < 8 := k.isLt
  simp only [State.unlock, hst, hk, if_true]
  rfl

/-- The recovery hop starts from the output as it was, to the word in force; while a ramp runs with the entry of its chain. -/
theorem SynthSt.recover_freeze_begun (x : SynthSt) (t : Instant) :
    let y := (x.freeze t).recover t
    ∃ h, HopBegun x y h t ∧ y.store = x.store ∧
      (x.rampOn = true → h.full = false ∧ h.entry = some x.chain.toNat) ∧
      (x.rampOn = false → h.full = (!(x.entryAt x.entry.toNat).valid) ∧ h.odiv = x.odiv ∧ h.nint = x.nint ∧
        h.nfrac = x.nfrac) := by
  have hmode : (x.freeze t).holdMode = x.holdMode := by rw [SynthSt.holdMode, SynthSt.freeze_cfg, ← SynthSt.holdMode]
  have hbegun := fun full o n f e => (SynthSt.startHop_begun (x.freeze t) t full o n f e).of_same hmode
    (x.endFall_freeze t) (x.freeze_hops t) (x.freeze_searches t)
  refine ⟨_, hbegun _ _ _ _ _, x.freeze_store t, fun hr => ?_, fun hr => ?_⟩
  · simp [HopSt.begun, hr]
  · simp [HopSt.begun, hr, x.freeze_of_rampOn_false t hr]

/-! ## The window (R154) -/

section Window
variable {s : State} {k : Fin 8} {n : Nat} (a : Instant) (l : List Instant)

theorem State.windowMonitor_over (hon : s.pierOn k = true) (hn : (s.synth (swOf k)).flim * 512 / 1000 + 1 < n) :
    let z := (s.at_ a).guard k l
    let x := z.synth (swOf k)
    s.windowMonitor a k n l = (z.setSynth (swOf k) { x.freeze z.now with
      st := .fail, out := .parkLow, fall := x.endFall z.now, hop := none, rampOn := false, lock := false
      spread := false }).raise (synSrc (swOf k)) 0x20 := by
  have hon' : ((s.at_ a).guard k l).pierOn k = true := by
    rw [← hon, State.pierOn, State.dom, State.guard_pwr]
    rfl
  have hn' : (((s.at_ a).guard k l).synth (swOf k)).flim * 512 / 1000 + 1 < n := by
    rw [State.synth_guard]
    exact hn
  simp [State.windowMonitor, hon', hn']

theorem State.windowMonitor_within (hn : n ≤ (s.synth (swOf k)).flim * 512 / 1000 + 1)
    (hl : (s.synth (swOf k)).heldEdges l = 0) : s.windowMonitor a k n l = s.at_ a := by
  have hguard : (s.at_ a).guard k l = s.at_ a := State.guard_of_none _ k l hl
  have hn' : ¬((s.at_ a).synth (swOf k)).flim * 512 / 1000 + 1 < n := Nat.not_lt.mpr hn
  simp [State.windowMonitor, hguard, hn']

end Window

/-- FLIM as the bits of the configuration word. -/
theorem SynthSt.flim_eq (x : SynthSt) : x.flim = (x.cfg.extractLsb' 20 12).toNat := by
  simp [SynthSt.flim, fld, BitVec.extractLsb'_toNat, Nat.shiftRight_eq_div_pow]

end Sys2Proof.Machine
end

section
/-! SUPPORT. The statement about hops and searches of the sweep synthesizers. -/

namespace Sys2Proof.Proofs

open Sys2Proof.Machine Sys2Proof.Safety

section Sweep
variable {s : State} {k : Fin 8}

/-- A hop to the current word (R147, R149). -/
theorem hop_completes (a : Instant) (hon : s.pierOn k = true) :
    let x := s.synth (swOf k)
    ∃ t h, exec (.hop a k) s = .next t ∧ OnlySynth s t (swOf k) ∧ t.now = max s.now a ∧
      HopBegun x (t.synth (swOf k)) h t.now ∧ h.odiv = x.odiv ∧ h.nint = x.nint ∧ h.nfrac = x.nfrac ∧
      ((∃ i, HoldsWord x i x.odiv x.nint x.nfrac ∧ (x.entryAt i).valid = true) → h.full = false) ∧
      (h.full = false → ∃ i, h.entry = some i ∧ HoldsWord x i x.odiv x.nint x.nfrac ∧ (x.entryAt i).valid = true) := by
  intro x
  obtain ⟨h, hbegun, ho, hn, hf, hentry, hfull⟩ := x.hopTo_begun (max s.now a) x.odiv x.nint x.nfrac
  refine ⟨_, h, (exec_hop s a k).trans (congrArg _ (s.hop_of_on a k hon)), ((OnlySynth.refl s _).at_ a).setSynth _, rfl,
    ?_, ho, hn, hf, fun hv => hfull.mpr (SynthSt.findEntry_valid hv), fun hs => ?_⟩
  · rw [State.synth_setSynth_self]
    exact hbegun
  · obtain ⟨i, hi, hv⟩ := hfull.mp hs
    exact ⟨i, hentry.trans hi, SynthSt.holdsWord_of_findEntry hi, hv⟩

/-- The report of a release: the guard speaks where it held an edge, and the truss is as it was otherwise. -/
theorem guard_reports_or_quiet (z : State) (x : SynthSt) (l : List Instant) (hmode : z.pwr.mode ≠ .reset)
    (hcfg : (z.synth (swOf k)).cfg = x.cfg) :
    if x.heldEdges l ≠ 0 then Reported (z.guard k l) (154 + k.val) 0x10 else (z.guard k l).truss = z.truss := by
  rw [← SynthSt.heldEdges_congr hcfg l]
  split
  case isTrue hn => exact z.guard_reports k l hmode hn
  case isFalse hn => rw [z.guard_of_none k l (not_not.mp hn)]

/-- The release of a hop, of the store as the hop leaves it, and the edges that the guard then meets (R148, R153). -/
theorem release_completes (z : State) (store : List StoreEntry) (h : HopSt) (l : List Instant)
    (hframe : OnlySynth s z (swOf k)) (hmode : s.pwr.mode ≠ .reset) (htruss : z.truss = s.truss) :
    let x := s.synth (swOf k)
    let x1 : SynthSt := { x with store := store }
    let t := (z.setSynth (swOf k) (x1.release h h.releaseAt)).guard k l
    OnlySynth s t (swOf k) ∧ t.now = z.now ∧ HopReleased x (t.synth (swOf k)) h l ∧ (t.synth (swOf k)).store = store ∧
      (if x.heldEdges l ≠ 0 then Reported t (154 + k.val) 0x10 else t.truss = s.truss) := by
  intro x x1 t
  have hsynth : t.synth (swOf k) = { x1.release h h.releaseAt with
      guards := satAdd (x1.release h h.releaseAt).guards ((x1.release h h.releaseAt).heldEdges l) } := by
    rw [State.synth_guard, State.synth_setSynth_self]
  have hmode' : (z.setSynth (swOf k) (x1.release h h.releaseAt)).pwr.mode ≠ .reset := by
    rw [State.setSynth_pwr, hframe.whole]
    exact hmode
  refine ⟨(hframe.setSynth _).trans (State.guard_only _ k l), State.guard_now _ k l, ?_, ?_, ?_⟩
  · rw [hsynth]
    exact x.release_hopReleased store h l
  · rw [hsynth]
    rfl
  · rw [← htruss]
    exact guard_reports_or_quiet _ x l hmode' (by rw [State.synth_setSynth_self]; rfl)

/-- A stored hop is over 2,048 SWREF cycles after its start (R149). -/
theorem storedHopRelease_completes {h : HopSt} (l : List Instant) (hmode : s.pwr.mode ≠ .reset)
    (hop : (s.synth (swOf k)).hop = some h) (hf : h.full = false) :
    let x := s.synth (swOf k)
    ∃ t, exec (.storedHopRelease k l) s = .next t ∧ OnlySynth s t (swOf k) ∧
      t.now = max s.now (h.start + 2048 * swUnits) ∧ HopReleased x (t.synth (swOf k)) h l ∧
      (t.synth (swOf k)).store = x.store ∧
      (if x.heldEdges l ≠ 0 then Reported t (154 + k.val) 0x10 else t.truss = s.truss) := by
  intro x
  obtain ⟨hframe, hnow, hreleased, hstore, hreport⟩ :=
    release_completes (s.at_ h.releaseAt) x.store h l ((OnlySynth.refl s _).at_ _) hmode rfl
  exact ⟨_, (exec_storedHopRelease s k l).trans (congrArg _ (State.storedRelease_eq l hop hf)), hframe,
    hnow.trans (congrArg (max s.now) (HopSt.releaseAt_stored hf)), hreleased, hstore, hreport⟩

/-- A full search is over 8,192 SWREF cycles after its start, its result in the entry that names the word; a refill goes on
(R149, R151). -/
theorem fullSearchRelease_completes {h : HopSt} (l : List Instant) (hmode : s.pwr.mode ≠ .reset)
    (hop : (s.synth (swOf k)).hop = some h) (hf : h.full = true) :
    let x := s.synth (swOf k)
    let e := h.start + 8192 * swUnits
    ∃ t, exec (.fullSearchRelease k l) s = .next t ∧ OnlySynth s t (swOf k) ∧ t.now = max s.now e ∧
      EntryFilled x (t.synth (swOf k)) h ∧
      (x.refilling = false → HopReleased x (t.synth (swOf k)) h l ∧
        (if x.heldEdges l ≠ 0 then Reported t (154 + k.val) 0x10 else t.truss = s.truss)) ∧
      (∀ i rest, x.refilling = true → x.refill = i :: rest → ∃ g, (t.synth (swOf k)).hop = some g ∧ g.full = true ∧
        g.entry = some i ∧ g.start = e ∧ (t.synth (swOf k)).refill = rest ∧ (t.synth (swOf k)).hops = x.hops ∧
        (t.synth (swOf k)).out = .parkLow ∧ (t.synth (swOf k)).st = .search) ∧
      (x.refilling = true → x.refill = [] → (t.synth (swOf k)).refilling = false ∧
        ∃ g, HopBegun x (t.synth (swOf k)) g e ∧ g.odiv = x.odiv ∧ g.nint = x.nint ∧ g.nfrac = x.nfrac) := by
  intro x e
  have hat : h.releaseAt = e := HopSt.releaseAt_full hf
  have hz := ((OnlySynth.refl s (swOf k)).at_ h.releaseAt).drawn
  have hexec := exec_fullSearchRelease s k l
  have heq := State.fullRelease_eq l hop hf
  cases hr : x.refilling with
  | false =>
    obtain ⟨hframe, hnow, hreleased, hstore, hreport⟩ :=
      release_completes (s.at_ h.releaseAt).drawn (x.searched h s.free) h l hz hmode rfl
    exact ⟨_, hexec.trans (congrArg _ (heq.trans (if_neg (Bool.eq_false_iff.mp hr)))), hframe,
      hnow.trans (congrArg (max s.now) hat), SynthSt.entryFilled_of_searched hstore, fun _ => ⟨hreleased, hreport⟩,
      nofun, nofun⟩
  | true =>
    refine ⟨_, hexec.trans (congrArg _ (heq.trans (if_pos hr))), ?_⟩
    rw [State.synth_setSynth_self, ← hat]
    refine ⟨hz.setSynth _, rfl, SynthSt.entryFilled_of_searched (SynthSt.refillNext_store _ _), nofun,
      fun i rest _ hrest => ?_, fun _ hrest => ?_⟩
    · exact SynthSt.refillNext_cons { x with store := x.searched h s.free } h.releaseAt hrest
    · obtain ⟨hoff, g, hbegun, hword⟩ := SynthSt.refillNext_nil { x with store := x.searched h s.free } h.releaseAt hrest
      exact ⟨hoff, g, hbegun.of_same rfl rfl rfl rfl, hword⟩

/-- A search that ends without lock detect (R150, R151). -/
theorem lockDeadline_completes {h : HopSt} (band : Bool) (hmode : s.pwr.mode ≠ .reset)
    (hop : (s.synth (swOf k)).hop = some h) :
    let x := s.synth (swOf k)
    ∃ t, exec (.lockDetectDeadline k band) s = .next t ∧ OnlySynth s t (swOf k) ∧
      (h.full = false → t.now = max s.now (h.start + 1792 * swUnits) ∧ Reported t (154 + k.val) 0x04 ∧
        t.synth (swOf k) = { x with
          st := .search, searches := satAdd x.searches 1
          hop := some { h with start := h.start + 1792 * swUnits, full := true, fellBack := true } }) ∧
      (h.full = true → t.now = max s.now (h.start + 7936 * swUnits)) ∧
      (h.full = true → x.refilling = false → Reported t (154 + k.val) (if band then 0x01 else 0x03) ∧
        t.synth (swOf k) = { x with st := .fail, hop := none }) ∧
      (h.full = true → x.refilling = true → Reported t (154 + k.val) 0x03 ∧ (t.synth (swOf k)).store = x.store) := by
  intro x
  have hreports := fun (a : Instant) (y : SynthSt) (c : Byte) (hc : c ≠ 0) =>
    ((s.at_ a).setSynth (swOf k) y).reported_raise (synSrc (swOf k)) c hmode hc
  have hframe := fun (a : Instant) (y : SynthSt) (c : Byte) =>
    (((OnlySynth.refl s (swOf k)).at_ a).setSynth y).raise (synSrc (swOf k)) c
  have hcause : (if band then 0x01 else 0x03 : Byte) ≠ 0 := by cases band <;> decide
  refine ⟨_, exec_lockDetectDeadline s k band, ?_⟩
  cases hf : h.full with
  | false =>
    rw [State.lockDeadline_stored band hop hf]
    refine ⟨hframe _ _ _, fun _ => ⟨?_, hreports _ _ _ (by decide), ?_⟩, nofun, nofun, nofun⟩
    · rw [State.raise_now, State.setSynth_now, State.at_now]
    · rw [State.synth_raise, State.synth_setSynth_self]
  | true =>
    rcases Bool.eq_false_or_eq_true x.refilling with hr | hr
    · rw [State.lockDeadline_refill band hop hf hr]
      refine ⟨hframe _ _ _, nofun, fun _ => ?_, fun _ hn => absurd (hr.symm.trans hn) nofun,
        fun _ _ => ⟨hreports _ _ _ (by decide), ?_⟩⟩
      · rw [State.raise_now, State.setSynth_now, State.at_now]
      · rw [State.synth_raise, State.synth_setSynth_self, SynthSt.refillNext_store]
    · rw [State.lockDeadline_fail band hop hf hr]
      refine ⟨hframe _ _ _, nofun, fun _ => ?_, fun _ _ => ⟨hreports _ _ _ hcause, ?_⟩,
        fun _ hn => absurd (hr.symm.trans hn) nofun⟩
      · rw [State.raise_now, State.setSynth_now, State.at_now]
      · rw [State.synth_raise, State.synth_setSynth_self]

/-- A lost lock makes the recovery hop, and is reported as UNLOCK (R150). -/
theorem unlock_recovers (a : Instant) (hmode : s.pwr.mode ≠ .reset)
    (hst : (s.synth (swOf k)).st = .run ∨ (s.synth (swOf k)).st = .ramp) :
    let x := s.synth (swOf k)
    ∃ t h, exec (.unlock a (swOf k)) s = .next t ∧ OnlySynth s t (swOf k) ∧ t.now = max s.now a ∧
      HopBegun x (t.synth (swOf k)) h t.now ∧ Reported t (154 + k.val) 0x08 ∧ (t.synth (swOf k)).store = x.store ∧
      (x.rampOn = true → h.full = false ∧ h.entry = some x.chain.toNat) ∧
      (x.rampOn = false → h.full = (!(x.entryAt x.entry.toNat).valid) ∧ h.odiv = x.odiv ∧ h.nint = x.nint ∧
        h.nfrac = x.nfrac) := by
  intro x
  obtain ⟨h, hbegun, hstore, hramp, hrun⟩ := x.recover_freeze_begun (max s.now a)
  refine ⟨_, h, (exec_unlock s a (swOf k)).trans (congrArg _ (State.unlock_sweep a hst)),
    (((OnlySynth.refl s _).at_ a).setSynth _).raise _ _, ?_⟩
  rw [State.raise_now, State.synth_raise, State.synth_setSynth_self]
  exact ⟨rfl, hbegun, State.reported_raise _ (synSrc (swOf k)) _ hmode (by decide), hstore, hramp, hrun⟩

/-- Too many edges in a window (R154): the output parks, and what the guard held before is counted and reported. -/
theorem windowMonitor_parks {n : Nat} (a : Instant) (l : List Instant) (hmode : s.pwr.mode ≠ .reset)
    (hon : s.pierOn k = true) (hn : (s.synth (swOf k)).flim * 512 / 1000 + 1 < n) :
    let x := s.synth (swOf k)
    ∃ t, exec (.windowMonitor a k n l) s = .next t ∧ OnlySynth s t (swOf k) ∧ Reported t (154 + k.val) 0x20 ∧
      t.now = max s.now a ∧ (t.synth (swOf k)).st = .fail ∧ (t.synth (swOf k)).out = .parkLow ∧
      (t.synth (swOf k)).fall = x.endFall t.now ∧ (t.synth (swOf k)).guards = satAdd x.guards (x.heldEdges l) ∧
      (x.heldEdges l ≠ 0 → Reported t (154 + k.val) 0x10) ∧
      (t.synth (swOf k)).hop = none ∧ (t.synth (swOf k)).rampOn = false ∧ (t.synth (swOf k)).store = x.store := by
  intro x
  have hframe := ((OnlySynth.refl s (swOf k)).at_ a).trans ((s.at_ a).guard_only k l)
  have hmode' : ((s.at_ a).guard k l).pwr.mode ≠ .reset := by rw [State.guard_pwr]; exact hmode
  have hnow : ((s.at_ a).guard k l).now = max s.now a := (s.at_ a).guard_now k l
  have hguard : ((s.at_ a).guard k l).synth (swOf k) = { x with guards := satAdd x.guards (x.heldEdges l) } :=
    (s.at_ a).synth_guard k l
  refine ⟨_, (exec_windowMonitor s a k n l).trans (congrArg _ (State.windowMonitor_over a l hon hn)),
    (hframe.setSynth _).raise _ _, State.reported_raise _ (synSrc (swOf k)) _ hmode' (by decide), ?_⟩
  rw [State.raise_now, State.setSynth_now, State.synth_raise, State.synth_setSynth_self, hnow, hguard]
  refine ⟨rfl, rfl, rfl, rfl, SynthSt.freeze_guards _ _, fun hl => ?_, rfl, rfl, SynthSt.freeze_store _ _⟩
  exact (((s.at_ a).guard_reports k l hmode hl).of_truss_eq (State.setSynth_truss _ _ _)).raise _ _

end Sweep

/-- Settles O43: each row of a sweep synthesizer in the cases that it has. -/
theorem sweepHops : Obligations.SweepHops := by
  intro s k a hmode x u
  refine ⟨fun hon => ?_, fun hoff => ?_, fun h l => storedHopRelease_completes l hmode,
    fun h l => fullSearchRelease_completes l hmode, fun h band => lockDeadline_completes band hmode, unlock_recovers a hmode,
    fun n l hon hn => ?_, fun n l hn hl => ?_,
    fun e1 e2 hflim => SynthSt.heldEdges_pair_1000 hflim e1 e2⟩
  · obtain ⟨t, h, hexec, hframe, hnow, hbegun, ho, hn, hf, hvalid, hstored⟩ := hop_completes a hon
    exact ⟨t, h, hexec, hframe, hnow, hbegun, ho, hn, hf, fun hv _ => hvalid hv, hstored⟩
  · exact (exec_hop s a k).trans (congrArg _ (s.hop_of_off a k hoff))
  · rw [← SynthSt.flim_eq] at hn
    exact windowMonitor_parks a l hmode hon hn
  · rw [← SynthSt.flim_eq] at hn
    exact (exec_windowMonitor s a k n l).trans (congrArg _ (State.windowMonitor_within a l hn hl))

end Sys2Proof.Proofs
end

section
/-! SUPPORT. Ramps (R155 to R160): their start, and what follows a segment. -/

namespace Sys2Proof.Machine

open Sys2Proof.Safety

theorem exec_rampStart (s : State) (k : Fin 8) : exec (.rampStart k) s = .next (s.rampStart k) := rfl
theorem exec_segmentEnd (s : State) (k : Fin 8) : exec (.segmentEnd k) s = .next (s.segmentEnd k) := rfl

/-! ## The start of a segment (R156) -/

/-- `y` is `x` after segment `j` has begun at `t` with a hop to the store entry that the segment names. -/
def SegmentBegun (x y : SynthSt) (j : Nat) (t : Instant) : Prop :=
  y.rampOn = true ∧ y.seg.toNat = j ∧ y.tDone = 0 ∧
    y.w = (((x.entryAt (x.segIdx j)).nint.toNat * 2 ^ 24 + (x.entryAt (x.segIdx j)).nfrac.toNat) * 2 ^ 8 : Nat) ∧
    ∃ h, y.hop = some h ∧ h.start = t ∧ h.entry = some (x.segIdx j) ∧ (h.full = !(x.entryAt (x.segIdx j)).valid) ∧
      y.st = (if h.full then .search else .hop) ∧ y.hops = satAdd x.hops 1

theorem SynthSt.beginSeg_begun (x : SynthSt) {j : Nat} (t : Instant) (hj : j < 64) : SegmentBegun x (x.beginSeg j t) j t :=
  ⟨rfl, Nat.mod_eq_of_lt hj, rfl, rfl, _, rfl, rfl, rfl, rfl, rfl, rfl⟩

/-- What a segment begins with is read from the store, the segments and the count of hops. -/
theorem SegmentBegun.of_same {x x' y : SynthSt} {j : Nat} {t : Instant} (h : SegmentBegun x' y j t)
    (hstore : x'.store = x.store) (hsegs : x'.segs = x.segs) (hhops : x'.hops = x.hops) : SegmentBegun x y j t := by
  simp only [SegmentBegun, SynthSt.entryAt, SynthSt.segIdx, SynthSt.segW] at h ⊢
  rwa [hstore, hsegs, hhops] at h

/-- Segments are numbered 0 to 63 (Table 4.10). -/
theorem SynthSt.lastSeg_lt (x : SynthSt) : x.lastSeg < 64 := Nat.mod_lt _ (by decide)

section Start
variable {s : State} {k : Fin 8} {e : Instant}

theorem State.rampStart_eq (hdue : (s.synth (swOf k)).startDue = some e) (hr : (s.synth (swOf k)).refilling = false) :
    s.rampStart k = (s.at_ e).setSynth (swOf k) { (s.synth (swOf k)).beginSeg 0 e with startDue := none } := by
  simp [State.rampStart, hdue, hr]

end Start

/-! ## The end of a segment (R156, R159, R160) -/

/-- What follows the segment that ends at `t`. -/
def SynthSt.nextSegment (x : SynthSt) (t : Instant) : SynthSt :=
  let j := x.seg.toNat
  let x0 := { x.freeze t with advance := none, pend := false }
  if j < x.lastSeg then
    if x.cont (j + 1) then
      { x0 with seg := BitVec.ofNat 6 (j + 1), w := x.wordAt (x.dwell j - 1) + x.slope j, tDone := 0, t0 := t }
    else x0.beginSeg (j + 1) t
  else if x.rampEnd = 1 then x0.beginSeg 0 t
  else if x.rampEnd = 2 then { x0 with rampOn := false, st := .hold, out := .parkLow, fall := x.endFall t }
  else { x0 with rampOn := false, st := .run }

theorem State.segmentEnd_eq {s : State} {k : Fin 8} {e : Instant} (hon : (s.synth (swOf k)).rampOn = true)
    (hst : (s.synth (swOf k)).st = .ramp) (he : s.segEndAt (s.synth (swOf k)) = some e) :
    s.segmentEnd k = (s.at_ e).setSynth (swOf k) ((s.synth (swOf k)).nextSegment e) := by
  have hrun : ((s.synth (swOf k)).rampOn && decide ((s.synth (swOf k)).st = .ramp)) = true := by simp [hon, hst]
  simp only [State.segmentEnd, hrun, if_true, he, SynthSt.nextSegment]
  split_ifs <;> rfl

section NextSegment
variable {x : SynthSt} {t : Instant}

/-- The instant at which the segment has run its DWELL cycles. -/
def SynthSt.dwellEnd (x : SynthSt) : Instant := x.t0 + (x.dwell x.seg.toNat - x.tDone) * swUnits

/-- A segment ends at the end of its dwell, or under ADV at the SWREF edge after its trigger where that is later. -/
theorem State.segEndAt_eq {s : State} {e : Instant} (h : x.advSync = false ∧ e = x.dwellEnd ∨
    ∃ i, x.advSync = true ∧ x.advance = some i ∧ e = max x.dwellEnd (s.swClk.next i)) : s.segEndAt x = some e := by
  obtain ⟨hadv, rfl⟩ | ⟨i, hadv, hi, rfl⟩ := h
  · simp [State.segEndAt, hadv, SynthSt.dwellEnd]
  · simp [State.segEndAt, hadv, hi, SynthSt.dwellEnd]

/-- From the end of its dwell on a segment has run all its cycles. -/
theorem SynthSt.dwell_le_ran (hst : x.st = .ramp) (ht : x.dwellEnd ≤ t) : x.dwell x.seg.toNat ≤ x.ran t := by
  have hcycles : x.dwell x.seg.toNat - x.tDone ≤ (t - x.t0) / swUnits :=
    (Nat.le_div_iff_mul_le (by decide)).mpr (Nat.le_sub_of_add_le' ht)
  rw [SynthSt.ran, if_pos hst]
  omega

/-- The last word of a segment. -/
theorem SynthSt.wordAt_last : x.wordAt (x.dwell x.seg.toNat - 1) =
    x.w + x.slope x.seg.toNat * (x.dwell x.seg.toNat - 1 : Nat) := by
  rw [SynthSt.wordAt, min_self]

/-- From the end of the dwell on the last word stays in force (R155). -/
theorem SynthSt.wordAt_ran (hst : x.st = .ramp) (ht : x.dwellEnd ≤ t) :
    x.wordAt (x.ran t) = x.w + x.slope x.seg.toNat * (x.dwell x.seg.toNat - 1 : Nat) := by
  rw [SynthSt.wordAt, min_eq_right ((Nat.sub_le _ _).trans (dwell_le_ran hst ht))]

/-- The ramp stops with its last word in force. -/
theorem SynthSt.freeze_last (hon : x.rampOn = true) (hst : x.st = .ramp) (ht : x.dwellEnd ≤ t) :
    let last := x.w + x.slope x.seg.toNat * (x.dwell x.seg.toNat - 1 : Nat)
    (x.freeze t).nint = BitVec.ofInt 7 (last / 2 ^ 32) ∧ (x.freeze t).nfrac = BitVec.ofInt 24 (last / 2 ^ 8) := by
  simp [SynthSt.freeze, SynthSt.forceWord, hon, hst, wordAt_ran hst ht]

/-- Whatever follows a segment, its trigger is spent and the store is as it was. -/
theorem SynthSt.nextSegment_common : (x.nextSegment t).advance = none ∧ (x.nextSegment t).pend = false ∧
    (x.nextSegment t).store = x.store := by
  unfold SynthSt.nextSegment
  simp only
  split_ifs <;> exact ⟨rfl, rfl, x.freeze_store t⟩

/-- A segment with CONT goes on from the last word plus the slope. -/
theorem SynthSt.nextSegment_cont (hj : x.seg.toNat < x.lastSeg) (hc : x.cont (x.seg.toNat + 1) = true)
    (hst : x.st = .ramp) (hd : 1 ≤ x.dwell x.seg.toNat) :
    let y := x.nextSegment t
    y.seg.toNat = x.seg.toNat + 1 ∧ y.st = .ramp ∧ y.w = x.w + x.slope x.seg.toNat * x.dwell x.seg.toNat ∧ y.tDone = 0 ∧
      y.t0 = t ∧ y.hops = x.hops ∧ y.hop = x.hop := by
  have hword : x.wordAt (x.dwell x.seg.toNat - 1) + x.slope x.seg.toNat = x.w + x.slope x.seg.toNat * x.dwell x.seg.toNat := by
    rw [wordAt_last, Nat.cast_sub hd]
    push_cast
    ring
  simp only [SynthSt.nextSegment, hj, hc, if_true, hword, true_and]
  exact ⟨Nat.mod_eq_of_lt (Nat.lt_of_le_of_lt hj x.lastSeg_lt), (x.freeze_st t).trans hst, x.freeze_hops t, x.freeze_hop t⟩

theorem SynthSt.beginSeg_freeze_begun {j : Nat} (hj : j < 64) :
    SegmentBegun x (SynthSt.beginSeg { x.freeze t with advance := none, pend := false } j t) j t :=
  (beginSeg_begun _ t hj).of_same (x.freeze_store t) (x.freeze_segs t) (x.freeze_hops t)

/-- A segment without CONT begins with a hop. -/
theorem SynthSt.nextSegment_hop (hj : x.seg.toNat < x.lastSeg) (hc : x.cont (x.seg.toNat + 1) = false) :
    SegmentBegun x (x.nextSegment t) (x.seg.toNat + 1) t := by
  simp only [SynthSt.nextSegment, hj, hc, if_true, Bool.false_eq_true, if_false]
  exact beginSeg_freeze_begun (Nat.lt_of_le_of_lt hj x.lastSeg_lt)

/-- END = 1: the ramp starts again. -/
theorem SynthSt.nextSegment_loop (hj : x.lastSeg ≤ x.seg.toNat) (hend : x.rampEnd = 1) :
    SegmentBegun x (x.nextSegment t) 0 t := by
  simp only [SynthSt.nextSegment, Nat.not_lt.mpr hj, hend, if_true, if_false]
  exact beginSeg_freeze_begun (by decide)

/-- END = 2: the output parks. -/
theorem SynthSt.nextSegment_park (hj : x.lastSeg ≤ x.seg.toNat) (hend : x.rampEnd = 2) :
    (x.nextSegment t).st = .hold ∧ (x.nextSegment t).out = .parkLow ∧ (x.nextSegment t).rampOn = false := by
  simp [SynthSt.nextSegment, Nat.not_lt.mpr hj, hend]

/-- Otherwise the last word stays in force. -/
theorem SynthSt.nextSegment_stay (hj : x.lastSeg ≤ x.seg.toNat) (h1 : x.rampEnd ≠ 1) (h2 : x.rampEnd ≠ 2)
    (hon : x.rampOn = true) (hst : x.st = .ramp) (ht : x.dwellEnd ≤ t) :
    let y := x.nextSegment t
    let last := x.w + x.slope x.seg.toNat * (x.dwell x.seg.toNat - 1 : Nat)
    y.st = .run ∧ y.rampOn = false ∧ y.out = x.out ∧ y.nint = BitVec.ofInt 7 (last / 2 ^ 32) ∧
      y.nfrac = BitVec.ofInt 24 (last / 2 ^ 8) := by
  obtain ⟨hnint, hnfrac⟩ := freeze_last hon hst ht
  simp only [SynthSt.nextSegment, Nat.not_lt.mpr hj, h1, h2, if_false, true_and]
  exact ⟨x.freeze_out t, hnint, hnfrac⟩

end NextSegment
end Sys2Proof.Machine
end

section
/-! SUPPORT. The locks of DECK and VAULT and their moves to and from the safe clock (R161 to R164). -/

namespace Sys2Proof.Machine

open Sys2Proof.Safety

theorem exec_synthLock (s : State) (v locked band : Bool) :
    exec (.synthLock v locked band) s = .next (s.synthLock v locked band) := rfl
theorem exec_deckVaultWindow (s : State) (a : Instant) (v : Bool) (n : Nat) :
    exec (.deckVaultWindow a v n) s = .next (s.deckVaultWindow a v n) := rfl

/-! ## A domain's move to another clock -/

section Retime
variable (c new : Clock) (t : Instant)

theorem Clock.retime_of_same_period (h : c.period = new.period) : c.retime new t = c := if_pos h

theorem Clock.retime_period : (c.retime new t).period = new.period := by
  by_cases h : c.period = new.period
  · rw [retime_of_same_period c new t h, h]
  · rw [Clock.retime, if_neg h]

/-- The count goes on: the next edge is the first of the new clock that keeps its distance from the last falling edge. -/
theorem Clock.retime_edge (h : c.period ≠ new.period) : (c.retime new t).edge (c.no t + 1) =
    new.next (max t (c.edge (c.no t) + c.period / 2 + new.period)) := by
  rw [Clock.retime, if_neg h]
  simp [Clock.edge]

end Retime

theorem State.domClk_onClock_self (s : State) (v : Bool) (new : Clock) :
    (s.onClock v new).domClk v = (s.domClk v).retime new s.now := by
  cases v <;> rfl

theorem State.domClk_onClock_other (s : State) (v : Bool) (new : Clock) :
    (s.onClock v new).domClk (!v) = s.domClk (!v) := by
  cases v <;> rfl

/-- A state whose clocks are those after `onClock` has moved. -/
theorem movedTo_of_clocks {s t : State} {v : Bool} {new : Clock} {a : Instant} (hnow : t.now = max s.now a)
    (hclocks : t.clocks = ((s.at_ a).onClock v new).clocks) : MovedTo s t v new := by
  have hdom : ∀ b, t.domClk b = ((s.at_ a).onClock v new).domClk b := fun b => by simp only [State.domClk, hclocks]
  have hself : t.domClk v = (s.domClk v).retime new t.now := by
    rw [hdom, State.domClk_onClock_self, State.at_now, hnow]
    rfl
  refine ⟨?_, ?_, fun hne => ?_, fun heq => ?_⟩
  · rw [hself, Clock.retime_period]
  · rw [hdom, State.domClk_onClock_other]
    rfl
  · rw [hself]
    exact Clock.retime_edge _ _ _ hne
  · rw [hself]
    exact Clock.retime_of_same_period _ _ _ heq

/-! ## The vault and its clock -/

/-- `vaultClock` where the domain is VAULT. -/
def State.vaultClockIf (s : State) (v safe : Bool) : State := if v then s.vaultClock safe else s

theorem State.vaultClockIf_eq (s : State) (v safe : Bool) : ∃ w, s.vaultClockIf v safe = { s with vlt := w } := by
  unfold State.vaultClockIf State.vaultClock
  split
  · dsimp only
    split
    case h_5 => split <;> exact ⟨_, rfl⟩
    all_goals exact ⟨_, rfl⟩
  · exact ⟨_, rfl⟩

section VaultClock
variable (s : State) (v safe : Bool)

@[simp] theorem State.vaultClockIf_now : (s.vaultClockIf v safe).now = s.now := by
  obtain ⟨_, h⟩ := s.vaultClockIf_eq v safe; rw [h]
@[simp] theorem State.vaultClockIf_clocks : (s.vaultClockIf v safe).clocks = s.clocks := by
  obtain ⟨_, h⟩ := s.vaultClockIf_eq v safe; rw [h]
@[simp] theorem State.vaultClockIf_chans : (s.vaultClockIf v safe).chans = s.chans := by
  obtain ⟨_, h⟩ := s.vaultClockIf_eq v safe; rw [h]
@[simp] theorem State.vaultClockIf_mem : (s.vaultClockIf v safe).mem = s.mem := by
  obtain ⟨_, h⟩ := s.vaultClockIf_eq v safe; rw [h]
@[simp] theorem State.vaultClockIf_pwr : (s.vaultClockIf v safe).pwr = s.pwr := by
  obtain ⟨_, h⟩ := s.vaultClockIf_eq v safe; rw [h]
@[simp] theorem State.vaultClockIf_truss : (s.vaultClockIf v safe).truss = s.truss := by
  obtain ⟨_, h⟩ := s.vaultClockIf_eq v safe; rw [h]
@[simp] theorem State.synth_vaultClockIf (k : Synth) : (s.vaultClockIf v safe).synth k = s.synth k := by
  obtain ⟨_, h⟩ := s.vaultClockIf_eq v safe; rw [h]; rfl

end VaultClock

/-- A running vault goes to the safe clock with the stack in self-refresh: every debt is zero, the requests wait (R164, R419). -/
theorem State.vaultClockIf_run {s : State} (h : s.vlt.st = .run) :
    (s.vaultClockIf true true).vlt.st = .safe ∧ (s.vaultClockIf true true).vlt.srcnt = satAdd s.vlt.srcnt 1 ∧
      (s.vaultClockIf true true).vlt.reqs = s.vlt.reqs ∧ ∀ q, ((s.vaultClockIf true true).pch q).debt = 0 := by
  simp [State.vaultClockIf, State.vaultClock, h, State.pch]

/-- After the lock the stack begins to leave self-refresh (R162, R426). -/
theorem State.vaultClockIf_locked {s : State} (h : s.vlt.st = .safe) :
    let t := s.vaultClockIf true false
    t.vlt.st = .selfref ∧ t.vlt.srExit = some (t.vc t.now) := by
  simp only [State.vc, State.vaultClockIf_clocks, State.vaultClockIf_now]
  simp [State.vaultClockIf, State.vaultClock, h, State.vc]

/-! ## To the safe clock (R163, R164) -/

theorem State.relock_eq (s : State) (v : Bool) (causes : Byte) :
    s.relock (dvOf v) causes = (((s.onClock v s.clocks.mgmt).vaultClockIf v true).modSynth (dvOf v) fun x =>
      { x with st := .safe, lock := false, spread := false, lockStart := some s.now }).raise (synSrc (dvOf v)) causes := by
  cases v <;> rfl

/-- DECK (`v` false) or VAULT has moved to the safe clock at `a` and started a lock. -/
def OnSafeClock (s t : State) (v : Bool) (a : Instant) : Prop :=
  t.now = max s.now a ∧ (t.synth (dvOf v)).st = .safe ∧ (t.synth (dvOf v)).lock = false ∧
    (t.synth (dvOf v)).lockStart = some t.now ∧ (∀ j, j ≠ dvOf v → t.synth j = s.synth j) ∧ t.mem = s.mem ∧ t.chans = s.chans ∧
    (v = false → OnlyLoop s t (dvOf v)) ∧ MovedTo s t v s.clocks.mgmt ∧
    (v = true → s.vlt.st = .run → t.vlt.st = .safe ∧ t.vlt.srcnt = satAdd s.vlt.srcnt 1 ∧ t.vlt.reqs = s.vlt.reqs ∧
      ∀ q, (t.pch q).debt = 0)

section Relock
variable (s : State) (a : Instant) (v : Bool) (causes : Byte)

theorem State.relock_onSafeClock : OnSafeClock s ((s.at_ a).relock (dvOf v) causes) v a := by
  rw [State.relock_eq]
  refine ⟨?_, ?_, ?_, ?_, fun j hj => ?_, ?_, ?_, ?_, movedTo_of_clocks (a := a) ?_ ?_, ?_⟩
  · simp [State.modSynth, State.onClock]
  · simp [State.modSynth]
  · simp [State.modSynth]
  · simp [State.modSynth, State.onClock]
  · rw [State.synth_raise, State.modSynth, State.synth_setSynth_ne _ _ _ _ hj, State.synth_vaultClockIf]
    rfl
  · simp [State.modSynth, State.onClock]
  · simp [State.modSynth, State.onClock]
  · rintro rfl
    exact (((OnlyLoop.at_ s _ a).onClock _).setSynth _).raise _ _
  · simp [State.modSynth, State.onClock]
  · simp [State.modSynth, State.onClock]
  · rintro rfl hrun
    simp only [State.raise_vlt, State.modSynth, State.setSynth_vlt, State.pch]
    exact State.vaultClockIf_run (s := (s.at_ a).onClock true s.clocks.mgmt) hrun

theorem State.relock_reported (hmode : s.pwr.mode ≠ .reset) (hc : causes ≠ 0) :
    Reported ((s.at_ a).relock (dvOf v) causes) (154 + (dvOf v).val) causes := by
  rw [State.relock_eq]
  refine State.reported_raise _ (synSrc (dvOf v)) _ ?_ hc
  rwa [State.modSynth, State.setSynth_pwr, State.vaultClockIf_pwr]

end Relock

theorem State.unlock_dv {s : State} {v : Bool} (a : Instant) (h : (s.synth (dvOf v)).st = .run) :
    s.unlock a (dvOf v) = (s.at_ a).relock (dvOf v) 0x48 := by
  have hst : ((s.at_ a).synth (dvOf v)).st = .run ∨ ((s.at_ a).synth (dvOf v)).st = .ramp := .inl h
  have hk : ¬(dvOf v).val < 8 := by cases v <;> decide
  simp only [State.unlock, hst, hk, if_true, if_false]

theorem State.deckVaultWindow_over {s : State} {v : Bool} {n : Nat} (a : Instant) (h : (s.synth (dvOf v)).st = .run)
    (hn : 202 < n) : s.deckVaultWindow a v n = (s.at_ a).relock (dvOf v) 0x60 := by
  have hst : ((s.at_ a).synth (dvOf v)).st = .run := h
  simp [State.deckVaultWindow, hst, hn]

theorem State.deckVaultWindow_within {s : State} {v : Bool} {n : Nat} (a : Instant) (hn : n ≤ 202) :
    s.deckVaultWindow a v n = s.at_ a := by
  simp [State.deckVaultWindow, Nat.not_lt.mpr hn]

/-! ## The end of a lock (R161, R168) -/

section Lock
variable {s : State} {v : Bool} {e : Instant} (band : Bool) (hstart : (s.synth (dvOf v)).lockStart = some e)
  (hcoast : s.tb.st ≠ .coast) (hqualify : s.tb.st ≠ .qualify)
include hstart hcoast hqualify

theorem State.synthLock_locked :
    let z := s.at_ (e + 4096 * inUnits)
    let x := s.synth (dvOf v)
    s.synthLock v true band = ((z.onClock v (if v then Clocks.nominal.vault else Clocks.nominal.deck)).setSynth (dvOf v) { x with
      st := .run, lock := true, lockStart := none, spread := x.sscMode = 1 ∨ x.sscMode = 2
      modAt := z.now }).vaultClockIf v false := by
  have hlost : ¬(s.tb.st = .coast ∨ s.tb.st = .qualify) := not_or.mpr ⟨hcoast, hqualify⟩
  simp only [State.synthLock, hstart, hlost, if_false, if_true]
  rfl

theorem State.synthLock_failed :
    let z := s.at_ (e + 4096 * inUnits)
    s.synthLock v false band = (z.setSynth (dvOf v) { s.synth (dvOf v) with lockStart := some z.now }).raise (synSrc (dvOf v))
      (if band then 0x01 else 0x03) := by
  have hlost : ¬(s.tb.st = .coast ∨ s.tb.st = .qualify) := not_or.mpr ⟨hcoast, hqualify⟩
  simp only [State.synthLock, hstart, hlost, if_false, Bool.false_eq_true]

end Lock
end Sys2Proof.Machine
end

section
/-! SUPPORT. The statement about ramps and the locks of DECK and VAULT. -/

namespace Sys2Proof.Proofs

open Sys2Proof.Machine Sys2Proof.Safety

section Ramp
variable {s : State} {k : Fin 8} {e : Instant}

/-- A ramp starts at its SWREF edge (R158). -/
theorem rampStart_completes (hdue : (s.synth (swOf k)).startDue = some e) (hr : (s.synth (swOf k)).refilling = false) :
    ∃ t, exec (.rampStart k) s = .next t ∧ OnlySynth s t (swOf k) ∧ t.now = max s.now e ∧
      SegmentBegun (s.synth (swOf k)) (t.synth (swOf k)) 0 e ∧ (t.synth (swOf k)).startDue = none ∧ t.truss = s.truss := by
  refine ⟨_, (exec_rampStart s k).trans (congrArg _ (State.rampStart_eq hdue hr)), ((OnlySynth.refl s _).at_ e).setSynth _, rfl,
    ?_, ?_, rfl⟩
  · rw [State.synth_setSynth_self]
    exact SynthSt.beginSeg_begun _ e (by decide)
  · rw [State.synth_setSynth_self]

/-- The end of a segment at `e`: the synthesizer alone goes on. -/
theorem segmentEnd_completes (hon : (s.synth (swOf k)).rampOn = true) (hst : (s.synth (swOf k)).st = .ramp)
    (he : s.segEndAt (s.synth (swOf k)) = some e) :
    ∃ t, exec (.segmentEnd k) s = .next t ∧ OnlySynth s t (swOf k) ∧ t.now = max s.now e ∧ t.truss = s.truss ∧
      t.synth (swOf k) = (s.synth (swOf k)).nextSegment e :=
  ⟨_, (exec_segmentEnd s k).trans (congrArg _ (State.segmentEnd_eq hon hst he)), ((OnlySynth.refl s _).at_ e).setSynth _, rfl,
    rfl, State.synth_setSynth_self _ _ _⟩

end Ramp

section Clocks
variable {s : State} {v : Bool} {e : Instant} (band : Bool) (hstart : (s.synth (dvOf v)).lockStart = some e)
  (hcoast : s.tb.st ≠ .coast) (hqualify : s.tb.st ≠ .qualify)
include hstart hcoast hqualify

/-- A lock moves the domain to its synthesizer's clock, and the stack begins to leave self-refresh (R161, R162). -/
theorem synthLock_locks :
    ∃ t, exec (.synthLock v true band) s = .next t ∧ t.now = max s.now (e + 4096 * inUnits) ∧ t.mem = s.mem ∧
      t.chans = s.chans ∧ (∀ j, j ≠ dvOf v → t.synth j = s.synth j) ∧ (v = false → OnlyLoop s t (dvOf v)) ∧
      (t.synth (dvOf v)).st = .run ∧ (t.synth (dvOf v)).lock = true ∧ (t.synth (dvOf v)).lockStart = none ∧
      t.truss = s.truss ∧ MovedTo s t v (if v then Clocks.nominal.vault else Clocks.nominal.deck) ∧
      (v = true → s.vlt.st = .safe → t.vlt.st = .selfref ∧ t.vlt.srExit = some (t.vc t.now)) := by
  refine ⟨_, (exec_synthLock s v true band).trans (congrArg _ (State.synthLock_locked band hstart hcoast hqualify)), ?_⟩
  rw [State.synth_vaultClockIf, State.synth_setSynth_self]
  refine ⟨State.vaultClockIf_now _ _ _, State.vaultClockIf_mem _ _ _, State.vaultClockIf_chans _ _ _, fun j hj => ?_, ?_,
    rfl, rfl, rfl, State.vaultClockIf_truss _ _ _,
    movedTo_of_clocks (State.vaultClockIf_now _ _ _) (State.vaultClockIf_clocks _ _ _), ?_⟩
  · rw [State.synth_vaultClockIf, State.synth_setSynth_ne _ _ _ _ hj]
    rfl
  · rintro rfl
    exact ((OnlyLoop.at_ s _ _).onClock _).setSynth _
  · rintro rfl hsafe
    exact State.vaultClockIf_locked hsafe

/-- A lock without lock detect starts again, and is reported (R168). -/
theorem synthLock_retries (hmode : s.pwr.mode ≠ .reset) :
    ∃ t, exec (.synthLock v false band) s = .next t ∧ t.now = max s.now (e + 4096 * inUnits) ∧ t.mem = s.mem ∧
      t.chans = s.chans ∧ (∀ j, j ≠ dvOf v → t.synth j = s.synth j) ∧ (v = false → OnlyLoop s t (dvOf v)) ∧
      t.synth (dvOf v) = { s.synth (dvOf v) with lockStart := some t.now } ∧
      Reported t (154 + (dvOf v).val) (if band then 0x01 else 0x03) ∧ t.vlt = s.vlt ∧ t.clocks = s.clocks := by
  have hcause : (if band then 0x01 else 0x03 : Byte) ≠ 0 := by cases band <;> decide
  have hframe := ((OnlyLoop.at_ s (dvOf v) (e + 4096 * inUnits)).setSynth
    { s.synth (dvOf v) with lockStart := some (s.at_ (e + 4096 * inUnits)).now }).raise (synSrc (dvOf v))
      (if band then 0x01 else 0x03)
  refine ⟨_, (exec_synthLock s v false band).trans (congrArg _ (State.synthLock_failed band hstart hcoast hqualify)),
    State.raise_now _ _ _, (State.raise_keeps _ _ _).2.2.1, State.raise_chans _ _ _, hframe.others, fun _ => hframe, ?_,
    State.reported_raise _ (synSrc (dvOf v)) _ hmode hcause, State.raise_vlt _ _ _, State.raise_clocks _ _ _⟩
  rw [State.synth_raise, State.synth_setSynth_self, State.raise_now]
  rfl

end Clocks

/-- Settles O44: ramps by what follows a segment; the clocks by the move of a domain and the vault's part in it. -/
theorem rampsAndClockLocks : Obligations.RampsAndClockLocks := by
  intro s a hmode
  refine ⟨fun k e => ⟨rampStart_completes, ?_⟩, fun v => ⟨fun e locked band hstart hcoast hqualify => ?_, fun hrun => ?_,
    fun n hrun hn => ?_, fun n hn => ?_⟩⟩
  · intro j full last hon hst hd hend
    obtain ⟨t, hexec, hframe, hnow, htruss, hnext⟩ := segmentEnd_completes hon hst (State.segEndAt_eq hend)
    have hfull : full ≤ e := by
      obtain ⟨-, rfl⟩ | ⟨i, -, -, rfl⟩ := hend
      · exact Nat.le_refl _
      · exact Nat.le_max_left _ _
    obtain ⟨hadvance, hpend, hstore⟩ := SynthSt.nextSegment_common (x := s.synth (swOf k)) (t := e)
    refine ⟨t, hexec, hframe, hnow, htruss, ?_⟩
    rw [hnext]
    exact ⟨hadvance, hpend, hstore, fun hj hc => SynthSt.nextSegment_cont hj hc hst hd, SynthSt.nextSegment_hop,
      SynthSt.nextSegment_loop, SynthSt.nextSegment_park,
      fun hj h1 h2 => SynthSt.nextSegment_stay hj h1 h2 hon hst hfull⟩
  · cases locked with
    | true =>
      obtain ⟨t, hexec, hnow, hmem, hchans, hothers, hdeck, hlocked⟩ := synthLock_locks band hstart hcoast hqualify
      exact ⟨t, hexec, hnow, hmem, hchans, hothers, hdeck, fun _ => hlocked, nofun⟩
    | false =>
      obtain ⟨t, hexec, hnow, hmem, hchans, hothers, hdeck, hfailed⟩ := synthLock_retries band hstart hcoast hqualify hmode
      exact ⟨t, hexec, hnow, hmem, hchans, hothers, hdeck, nofun, fun _ => hfailed⟩
  · exact ⟨_, (exec_unlock s a (dvOf v)).trans (congrArg _ (State.unlock_dv a hrun)), s.relock_onSafeClock a v 0x48,
      s.relock_reported a v 0x48 hmode (by decide)⟩
  · exact ⟨_, (exec_deckVaultWindow s a v n).trans (congrArg _ (State.deckVaultWindow_over a hrun hn)),
      s.relock_onSafeClock a v 0x60, s.relock_reported a v 0x60 hmode (by decide)⟩
  · exact (exec_deckVaultWindow s a v n).trans (congrArg _ (State.deckVaultWindow_within a hn))

end Sys2Proof.Proofs
end

section
/-! SUPPORT. An instruction whose effect lies within the engine, from the statement's side: what it leaves unchanged, and
the general register and the flags that it gives. -/

namespace Sys2Proof.Machine

open Sys2Proof.Safety

/-! ## The engine after its fetch -/

@[simp] theorem Engine.gr_fetched (e : Engine) (i : BitVec 4) : e.fetched.gr i = e.gr i := rfl
@[simp] theorem Engine.ar_fetched (e : Engine) (i : BitVec 3) : e.fetched.ar i = e.ar i := rfl
@[simp] theorem Engine.fl_fetched (e : Engine) : e.fetched.fl = e.fl := rfl

/-! ## Registers and flags written -/

@[simp] theorem Engine.gr_advance (e : Engine) (n k : Nat) (i : BitVec 4) : (e.advance n k).gr i = e.gr i := rfl
@[simp] theorem Engine.ar_advance (e : Engine) (n k : Nat) (i : BitVec 3) : (e.advance n k).ar i = e.ar i := rfl
@[simp] theorem Engine.fl_advance (e : Engine) (n k : Nat) : (e.advance n k).fl = e.fl := rfl
@[simp] theorem Engine.gr_setFl (e : Engine) (f : EngFlags) (i : BitVec 4) : (e.setFl f).gr i = e.gr i := rfl
@[simp] theorem Engine.ar_setFl (e : Engine) (f : EngFlags) (i : BitVec 3) : (e.setFl f).ar i = e.ar i := rfl
@[simp] theorem Engine.fl_setFl (e : Engine) (f : EngFlags) : (e.setFl f).fl = f := rfl

theorem Engine.setFl_gw_eq (e : Engine) (d : BitVec 4) (v : Dword) (f : EngFlags) :
    (e.gw d v).setFl f = { e with g := ((e.gw d v).setFl f).g, a := ((e.gw d v).setFl f).a, fl := f } := by
  rw [e.gw_eq d v]
  rfl

/-! ## The frame of an instruction -/

/-- A write of a channel at an instant. -/
theorem State.onlyChan_setChan_at (s : State) (c : Chan) (t : Instant) (x : Channel) :
    OnlyChan s ((s.at_ t).setChan c x) c :=
  ⟨rfl, fun _ hd => State.chan_setChan_ne _ _ _ _ hd⟩

section Frame
variable {s : State} {c : Chan} {i : Instr} {k : Nat} {F : Engine → Engine}

/-- The engine after an instruction whose effect lies within it. -/
theorem State.eng_engOp (h : EngReady s c i k) :
    ((s.engOp c i k F).chan c).eng = (F (s.chan c).eng.fetched).advance (s.chan c).eng.readyDc k := by
  rw [State.engOp_ready s c i k F h, State.chan_setChan_self]

/-- An instruction that writes registers, accumulators and flags, and of the registers and accumulators no other than those
given, leaves the rest of the machine as it was. -/
theorem State.engOp_moved {d : List (BitVec 4)} {a : List (BitVec 3)} (h : EngReady s c i k)
    (hF : ∀ e, F e = { e with g := (F e).g, a := (F e).a, fl := (F e).fl }) (hg : ∀ e j, j ∉ d → (F e).gr j = e.gr j)
    (ha : ∀ e j, j ∉ a → (F e).ar j = e.ar j) :
    EngMoved s (s.engOp c i k F) c k ((s.chan c).eng.pc + 1) d a := by
  have heng := State.eng_engOp (F := F) h
  have hsame := hF (s.chan c).eng.fetched
  rw [State.engOp_ready s c i k F h] at heng ⊢
  refine ⟨⟨rfl, s.onlyChan_setChan_at c _ _, by rw [State.chan_setChan_self], ?_, fun j hj => ?_, fun j hj => ?_⟩, ?_⟩
  · rw [heng, hsame]; rfl
  · rw [heng]; exact hg _ j hj
  · rw [heng]; exact ha _ j hj
  · unfold DmemSame
    rw [heng, hsame]; exact ⟨rfl, rfl, rfl⟩

/-- An instruction that writes one general register and the flags. -/
theorem givesG_of_engOp {d : BitVec 4} {v : Engine → Dword} {f : Engine → EngFlags}
    {w : Engine → Dword} {g : Engine → EngFlags}
    (hexec : ∀ s, exec i s = .next (s.engOp c i k fun e => (e.gw d (w e)).setFl (g e)))
    (hw : ∀ e, w e.fetched = v e) (hg : ∀ e, g e.fetched = f e) : GivesG c i k d v f := by
  intro s h
  have heng := State.eng_engOp (F := fun e => (e.gw d (w e)).setFl (g e)) h
  refine ⟨_, hexec s, State.engOp_moved h (fun e => e.setFl_gw_eq d _ _)
    (fun e j hj => Engine.gr_gw_ne e d j _ (List.ne_of_not_mem_cons hj)) (fun e j _ => Engine.ar_gw e d j _), ?_, ?_⟩
  · rw [heng, Engine.gr_advance, Engine.gr_setFl, Engine.gr_gw_self, hw]
  · rw [heng, Engine.fl_advance, Engine.fl_setFl, hg]

end Frame

end Sys2Proof.Machine
end

section
/-! SUPPORT. Shifts, divides and their flags as numbers (R219, R222, R224, Table 6.4a). -/

namespace Sys2Proof.Machine

open Sys2Proof.Safety

/-! ## Flags -/

section Flags
variable {n : Nat} (x r : BitVec n) (k : Nat) (f : EngFlags)

theorem EngFlags.zn_eq : f.zn r = flagsZN r f := by
  have hz : (r == 0) = decide (r.toNat = 0) := decide_eq_decide.mpr (BitVec.toNat_eq (y := 0))
  simp only [EngFlags.zn, flagsZN, hz, BitVec.msb_eq_decide]

theorem getLsbD_eq_bitOf : x.getLsbD k = bitOf x.toNat k := Nat.testBit_eq_decide_div_mod_eq

theorem EngFlags.shifted_outLeft : f.shifted r (outLeft x k) = flagsLeft x r k f := by
  rw [EngFlags.shifted, EngFlags.zn_eq, outLeft, getLsbD_eq_bitOf]; rfl

theorem EngFlags.shifted_outRight : f.shifted r (outRight x k) = flagsRight x r k f := by
  rw [EngFlags.shifted, EngFlags.zn_eq, outRight, getLsbD_eq_bitOf]; rfl

end Flags

/-! ## Shifts -/

/-- The low eight bits of a register as a number. -/
theorem shiftCount_eq (b : Dword) : shiftCount b = b.toNat % 256 := by
  rw [shiftCount, BitVec.extractLsb'_toNat, Nat.shiftRight_zero]

theorem shl64_eq (x : Dword) (k : Nat) : shl64 x k = numShl x k := by
  apply BitVec.eq_of_toNat_eq
  rw [shl64, numShl, BitVec.toNat_shiftLeft, BitVec.toNat_ofNat, Nat.shiftLeft_eq]

theorem shr64_eq (x : Dword) (k : Nat) : shr64 x k = numShr x k := by
  have hlt : x.toNat / 2 ^ k < 2 ^ 64 := (Nat.div_le_self _ _).trans_lt x.isLt
  apply BitVec.eq_of_toNat_eq
  rw [shr64, numShr, BitVec.toNat_ushiftRight, BitVec.toNat_ofNat, Nat.shiftRight_eq_div_pow, Nat.mod_eq_of_lt hlt]

theorem sar64_eq (x : Dword) (k : Nat) : sar64 x k = numSar x k := by
  rw [sar64, numSar, BitVec.sshiftRight, Int.shiftRight_eq_div_pow]; norm_cast

/-! ## Divides (Table 6.4a) -/

/-- The quotient where it fits; all ones for a zero divisor, the only case with C, and for a quotient of more than 64 bits. -/
theorem divU_eq (a : Qword) (b : Dword) : divU a b =
    (if b = 0 ∨ 2 ^ 64 ≤ a.toNat / b.toNat then BitVec.allOnes 64 else BitVec.ofNat 64 (a.toNat / b.toNat),
      decide (b = 0), decide (b = 0 ∨ 2 ^ 64 ≤ a.toNat / b.toNat)) := by
  unfold divU
  split
  next hb => simp only [hb, true_or, if_true, decide_true]
  next hb =>
    by_cases hfit : a.toNat / b.toNat < 2 ^ 64
    · simp only [hb, hfit, Nat.not_le.mpr hfit, or_self, if_true, if_false, decide_false]
    · simp only [hb, hfit, Nat.not_lt.mp hfit, or_true, if_true, if_false, decide_true, decide_false]

/-- A quotient clamped to the signed range: itself within it, the limit on its side beyond it. -/
theorem ofInt_clamp (q : Int) : BitVec.ofInt 64 (max (-(2 ^ 63)) (min q (2 ^ 63 - 1))) =
    if -(2 ^ 63) ≤ q ∧ q < 2 ^ 63 then BitVec.ofInt 64 q else if q < 0 then minS64 else maxS64 := by
  split
  next h => rw [min_eq_left (by omega), max_eq_right h.1]
  next h =>
    split
    next hneg => rw [max_eq_left (by omega)]; rfl
    next hpos => rw [min_eq_right (by omega)]; rfl

/-- The quotient clamped to the signed range; for a zero divisor, the only case with C, the limit on the dividend's side. -/
theorem divS_eq (a : Qword) (b : Dword) : divS a b =
    (if b = 0 then (if 0 ≤ a.toInt then 0x7FFFFFFFFFFFFFFF else 0x8000000000000000)
      else BitVec.ofInt 64 (max (-(2 ^ 63)) (min (a.toInt.tdiv b.toInt) (2 ^ 63 - 1))),
      decide (b = 0),
      decide (b = 0 ∨ ¬(-(2 ^ 63 : Int) ≤ a.toInt.tdiv b.toInt ∧ a.toInt.tdiv b.toInt < 2 ^ 63))) := by
  rw [ofInt_clamp]
  unfold divS
  split
  next hb =>
    have hsign : (if a.msb then minS64 else maxS64) = if 0 ≤ a.toInt then maxS64 else minS64 := by
      by_cases hpos : 0 ≤ a.toInt <;> simp [BitVec.msb_eq_toInt, hpos]
    simp only [hb, hsign, true_or, decide_true]
    rfl
  next hb =>
    split
    next hfit => simp only [hb, hfit, and_self, not_true, or_self, if_true, decide_false]
    next hbig => simp only [hb, hbig, false_or, not_false_eq_true, if_false, decide_false, decide_true]

/-- The flags of a divide: Z and N of the quotient, C and V as Table 6.4a gives them. -/
theorem Engine.quotient_eq (e : Engine) (d : BitVec 4) (q : Dword × Bool × Bool) :
    e.quotient d q = (e.gw d q.1).setFl { flagsZN q.1 e.fl with c := q.2.1, v := q.2.2 } := by
  rw [← EngFlags.zn_eq]; rfl

end Sys2Proof.Machine
end

section
/-! SUPPORT. The statements about shifts and divides. -/

namespace Sys2Proof.Proofs

open Sys2Proof.Machine Sys2Proof.Safety

/-! ## Shifts by a count that the engine holds or the word gives -/

section Shifts
variable {c : Chan} {i : Instr} {d a : BitVec 4} {count num : Engine → Nat}

/-- A shift to the left. -/
theorem givesG_shiftLeft
    (hexec : ∀ s, exec i s = .next (s.engOp c i 1 fun e => (e.gw d (shl64 (e.gr a) (count e))).setFl
      (e.fl.shifted (shl64 (e.gr a) (count e)) (outLeft (e.gr a) (count e)))))
    (hcount : ∀ e, count e.fetched = num e) :
    GivesG c i 1 d (fun e => numShl (e.gr a) (num e))
      (fun e => flagsLeft (e.gr a) (numShl (e.gr a) (num e)) (num e) e.fl) :=
  givesG_of_engOp hexec (fun e => by rw [hcount, shl64_eq, Engine.gr_fetched])
    (fun e => by rw [hcount, shl64_eq, EngFlags.shifted_outLeft, Engine.gr_fetched, Engine.fl_fetched])

/-- A shift to the right, logical or arithmetic. -/
theorem givesG_shiftRight {sh numSh : Dword → Nat → Dword} (hsh : ∀ x k, sh x k = numSh x k)
    (hexec : ∀ s, exec i s = .next (s.engOp c i 1 fun e => (e.gw d (sh (e.gr a) (count e))).setFl
      (e.fl.shifted (sh (e.gr a) (count e)) (outRight (e.gr a) (count e)))))
    (hcount : ∀ e, count e.fetched = num e) :
    GivesG c i 1 d (fun e => numSh (e.gr a) (num e))
      (fun e => flagsRight (e.gr a) (numSh (e.gr a) (num e)) (num e) e.fl) :=
  givesG_of_engOp hexec (fun e => by rw [hcount, hsh, Engine.gr_fetched])
    (fun e => by rw [hcount, hsh, EngFlags.shifted_outRight, Engine.gr_fetched, Engine.fl_fetched])

end Shifts

/-- Settles O3: three shifts, each by the low eight bits of a register and by an immediate. -/
theorem engineShifts : Obligations.EngineShifts := by
  intro c d a b k
  have hreg : ∀ e : Engine, shiftCount (e.fetched.gr b) = (e.gr b).toNat % 256 := fun e => shiftCount_eq (e.gr b)
  have himm : ∀ _ : Engine, k.toNat = k.toNat := fun _ => rfl
  exact ⟨givesG_shiftLeft (fun _ => rfl) hreg, givesG_shiftRight shr64_eq (fun _ => rfl) hreg,
    givesG_shiftRight sar64_eq (fun _ => rfl) hreg, givesG_shiftLeft (fun _ => rfl) himm,
    givesG_shiftRight shr64_eq (fun _ => rfl) himm, givesG_shiftRight sar64_eq (fun _ => rfl) himm⟩

/-- A divide takes 34 dc (R224) and gives the quotient and the flags of Table 6.4a. -/
theorem givesG_quotient {c : Chan} {i : Instr} {d b : BitVec 4} {x : BitVec 3} {div : Qword → Dword → Dword × Bool × Bool}
    (hexec : ∀ s, exec i s = .next (s.engOp c i 34 fun e => e.quotient d (div (e.ar x) (e.gr b)))) :
    GivesG c i 34 d (fun e => (div (e.ar x) (e.gr b)).1) (fun e =>
      { flagsZN (div (e.ar x) (e.gr b)).1 e.fl with
        c := (div (e.ar x) (e.gr b)).2.1, v := (div (e.ar x) (e.gr b)).2.2 }) := by
  simp only [Engine.quotient_eq] at hexec
  exact givesG_of_engOp hexec (fun _ => rfl) (fun _ => rfl)

/-- Settles O5: both divides as numbers. -/
theorem engineDivides : Obligations.EngineDivides := by
  intro c d x b
  have hu := givesG_quotient (i := .divu c d x b) (div := divU) (fun _ => rfl)
  have hs := givesG_quotient (i := .divs c d x b) (div := divS) (fun _ => rfl)
  simp only [divU_eq] at hu
  simp only [divS_eq] at hs
  exact ⟨hu, hs⟩

end Sys2Proof.Proofs
end

section
/-! SUPPORT. Rail monitors and dips (R522 to R530): what the start of a dip, a long dip, its end and an over-voltage
change. -/

namespace Sys2Proof.Machine

open Sys2Proof.Safety

/-! ## The rows of the table -/

theorem exec_dipStart (s : State) (a : Instant) (rail : RailIx) : exec (.dipStart a rail) s = .next (s.dipBegin a rail) := rfl
theorem exec_dipEnd (s : State) (a : Instant) : exec (.dipEnd a) s = .next (s.dipFinish a) := rfl
theorem exec_long (s : State) : exec .long s = .next s.dipLong_ := rfl
theorem exec_ov (s : State) (a : Instant) (rail : RailIx) : exec (.ov a rail) s = .next (s.overVolt a rail) := rfl

/-! ## Changes of channels, and conditions raised -/

/-- `t` is `s` but for its channels and for conditions raised since, behind which those of `s` are still on their way. -/
structure ChansRaised (s t : State) : Prop where
  whole : t = { s with chans := t.chans, truss := { s.truss with incoming := t.truss.incoming } }
  kept : ∀ r ∈ s.truss.incoming, r ∈ t.truss.incoming

namespace ChansRaised
variable {s t u : State}

theorem refl (s : State) : ChansRaised s s := ⟨rfl, fun _ => id⟩

theorem trans (h : ChansRaised s t) (g : ChansRaised t u) : ChansRaised s u where
  whole := by
    refine g.whole.trans ?_
    rw [h.whole]
  kept r hr := g.kept r (h.kept r hr)

theorem modChan (h : ChansRaised s t) (c : Chan) (f : Channel → Channel) : ChansRaised s (t.modChan c f) :=
  h.trans ⟨rfl, fun _ => id⟩

theorem raise (h : ChansRaised s t) (n : Source) (b : Byte) : ChansRaised s (t.raise n b) := by
  obtain ⟨_, he⟩ := t.raise_eq n b
  rw [he]
  exact h.trans ⟨rfl, fun _ => List.mem_append_left _⟩

theorem storeStop (h : ChansRaised s t) : ChansRaised s.storeStop t.storeStop where
  whole := by
    unfold State.storeStop State.modNvm
    rw [h.whole]
  kept := h.kept

theorem now (h : ChansRaised s t) : t.now = s.now := by rw [h.whole]
theorem pwr (h : ChansRaised s t) : t.pwr = s.pwr := by rw [h.whole]

theorem dom (h : ChansRaised s t) (d : Dom) : t.dom d = s.dom d := congrArg (·.doms[d]) h.pwr

theorem reported (h : ChansRaised s t) {n : Nat} {b : Byte} (hr : Reported s n b) : Reported t n b := by
  obtain ⟨r, hin, hcond⟩ := hr
  exact ⟨r, h.kept r hin, hcond⟩

end ChansRaised

/-- One change of every channel of a list touches the channels alone. -/
theorem State.forChans_modChan_raised (s : State) (l : List Chan) (f : Channel → Channel) :
    ChansRaised s (s.forChans l fun c z => z.modChan c f) := by
  refine List.foldlRecOn l _ (.refl s) fun z h c _ => h.modChan c f

/-- One change of every channel of a list. -/
theorem State.chan_forChans_modChan {l : List Chan} (hl : l.Nodup) (f : Channel → Channel) (s : State) (c : Chan) :
    (s.forChans l fun d z => z.modChan d f).chan c = if c ∈ l then f (s.chan c) else s.chan c := by
  induction l generalizing s with
  | nil => simp [State.forChans]
  | cons d l ih =>
    obtain ⟨hd, hl⟩ := List.nodup_cons.mp hl
    have hstep : (s.forChans (d :: l) fun d z => z.modChan d f) = (s.modChan d f).forChans l fun d z => z.modChan d f := rfl
    rw [hstep, ih hl, State.modChan]
    by_cases hc : c = d
    · subst hc
      rw [if_neg hd, State.chan_setChan_self, if_pos List.mem_cons_self]
    · rw [State.chan_setChan_ne _ _ _ _ hc]
      simp [hc]

theorem mem_allChans (c : Chan) : c ∈ allChans := List.mem_finRange c
theorem nodup_allChans : allChans.Nodup := List.nodup_finRange 96

/-! ## A stale reason (R466, Table 13.5) -/

/-- The channel with a stale reason: its open record is flagged. -/
def Channel.staled (f : Trim → Trim) (x : Channel) : Channel :=
  { x with trim := f x.trim, rcd := if x.rcd.isOpen then { x.rcd with flags := x.rcd.flags ||| flagStale } else x.rcd }

/-- Only the flags of the record change with a stale reason. -/
theorem Channel.staled_rcd (f : Trim → Trim) (x : Channel) :
    (x.staled f).rcd = { x.rcd with flags := (x.staled f).rcd.flags } := by
  unfold Channel.staled
  dsimp only
  split <;> rfl

section Stale
variable (s : State) (c : Chan) (f : Trim → Trim)

theorem State.setStale_eq : s.setStale c f =
    if (s.chan c).trim.stale then s.modChan c (Channel.staled f) else (s.modChan c (Channel.staled f)).raise (chSrc c) 0x80 := rfl

theorem State.setStale_raised : ChansRaised s (s.setStale c f) := by
  have hmod := (ChansRaised.refl s).modChan c (Channel.staled f)
  rw [setStale_eq]
  split
  · exact hmod
  · exact hmod.raise _ _

theorem State.setStale_chans : (s.setStale c f).chans = (s.modChan c (Channel.staled f)).chans := by
  rw [setStale_eq]
  split
  · rfl
  · rw [State.raise_chans]

theorem State.setStale_reports (hmode : s.pwr.mode ≠ .reset) (h : (s.chan c).trim.stale = false) :
    Reported (s.setStale c f) c.val 0x80 := by
  rw [setStale_eq, if_neg (Bool.eq_false_iff.mp h)]
  exact State.reported_raise _ (chSrc c) _ hmode (by decide)

end Stale

section StaleAll
variable (f : Trim → Trim) (l : List Chan) (s : State)

theorem State.forChans_setStale_raised : ChansRaised s (s.forChans l fun c z => z.setStale c f) := by
  refine List.foldlRecOn l _ (.refl s) fun z h c _ => h.trans (z.setStale_raised c f)

/-- The channels alone are the same whether or not a condition is raised. -/
theorem State.forChans_setStale_chans :
    (s.forChans l fun c z => z.setStale c f).chans = (s.forChans l fun c z => z.modChan c (Channel.staled f)).chans := by
  have hcongr : ∀ u v : State, u.chans = v.chans →
      (u.forChans l fun c z => z.setStale c f).chans = (v.forChans l fun c z => z.modChan c (Channel.staled f)).chans := by
    induction l with
    | nil => exact fun _ _ h => h
    | cons d l ih =>
      intro u v h
      refine ih (u.setStale d f) (v.modChan d (Channel.staled f)) ?_
      simp only [setStale_chans, State.modChan, State.setChan, State.chan, h]
  exact hcongr s s rfl

variable {l} {s}

theorem State.chan_forChans_setStale (hl : l.Nodup) (c : Chan) :
    (s.forChans l fun c z => z.setStale c f).chan c = if c ∈ l then (s.chan c).staled f else s.chan c := by
  rw [← s.chan_forChans_modChan hl, State.chan, State.forChans_setStale_chans]
  rfl

/-- Each channel of the list whose trim was not stale is reported. -/
theorem State.forChans_setStale_reports (hl : l.Nodup) (hmode : s.pwr.mode ≠ .reset) {c : Chan} (hc : c ∈ l)
    (h : (s.chan c).trim.stale = false) : Reported (s.forChans l fun c z => z.setStale c f) c.val 0x80 := by
  induction l generalizing s with
  | nil => exact absurd hc List.not_mem_nil
  | cons d l ih =>
    obtain ⟨hd, hl⟩ := List.nodup_cons.mp hl
    obtain rfl | hcl := List.mem_cons.mp hc
    · exact ((s.setStale c f).forChans_setStale_raised f l).reported (s.setStale_reports c f hmode h)
    · have hne : c ≠ d := fun e => hd (e ▸ hcl)
      have hsame : (s.setStale d f).chan c = s.chan c := by
        rw [State.chan, setStale_chans]
        exact State.chan_setChan_ne s d c _ hne
      refine ih hl (s := s.setStale d f) ?_ hcl (by rw [hsame]; exact h)
      rw [(s.setStale_raised d f).pwr]
      exact hmode

end StaleAll

/-! ## The start of a dip (R523, R525, R528) -/

/-- A trim window in progress fails with SUPPLY (Table 13.3). -/
def Channel.dipped (x : Channel) : Channel := if x.trim.running then { x with trim := x.trim.fail 9 } else x

/-- `t` is `s` at `a` but for the power plane, which notes a dip of `rail`. -/
structure DipNoted (s : State) (a : Instant) (rail : RailIx) (t : State) : Prop where
  whole : t = { s.at_ a with pwr := t.pwr }
  mode : t.pwr.mode = s.pwr.mode
  doms : t.pwr.doms = s.pwr.doms
  rails : t.pwr.rails = s.pwr.rails.set rail { warn := true, overLvl := false, dips := satAdd (s.pwr.rails[rail]).dips 1 }
  active : t.pwr.dipActive = true
  first : s.pwr.dipActive = false → t.pwr.dipStart = s.mc (s.clocks.mgmt.next (max s.now a)) ∧
    t.pwr.dipRails = BitVec.ofNat 6 (2 ^ rail.val) ∧ t.pwr.dipLong = false
  next : s.pwr.dipActive = true → t.pwr.dipStart = s.pwr.dipStart ∧
    t.pwr.dipRails = s.pwr.dipRails ||| BitVec.ofNat 6 (2 ^ rail.val) ∧ t.pwr.dipLong = s.pwr.dipLong

@[simp] theorem State.chan_storeStop (s : State) (c : Chan) : s.storeStop.chan c = s.chan c := rfl
@[simp] theorem State.chan_raise (s : State) (n : Source) (b : Byte) (c : Chan) : (s.raise n b).chan c = s.chan c :=
  congrArg (·[c]) (s.raise_chans n b)

/-- What a dip of `rail` does outside the power plane. -/
def State.dipEffects (s : State) (rail : RailIx) : State :=
  (s.forChans allChans fun c z => z.modChan c Channel.dipped).storeStop.raise (railSrc rail) 0x01

/-- A rail that falls below its warning level starts a dip, or joins the one in progress. -/
theorem State.dipBegin_noted {s : State} {rail : RailIx} (a : Instant) (hmode : s.pwr.mode ≠ .reset)
    (hwarn : (s.pwr.rails[rail]).warn = false) :
    ∃ z, DipNoted s a rail z ∧ s.dipBegin a rail = z.dipEffects rail := by
  have hskip : ¬(decide ((s.at_ a).pwr.mode = .reset) || ((s.at_ a).pwr.rails[rail]).warn) = true := by
    rw [State.at_pwr, hwarn, Bool.or_false, decide_eq_true_iff]
    exact hmode
  cases hact : s.pwr.dipActive with
  | true =>
    refine ⟨_, ?_, (if_neg hskip).trans (congrArg (State.dipEffects · rail) (if_pos hact))⟩
    exact ⟨rfl, rfl, rfl, rfl, hact, fun h => absurd (hact.symm.trans h) nofun, fun _ => ⟨rfl, rfl, rfl⟩⟩
  | false =>
    refine ⟨_, ?_, (if_neg hskip).trans (congrArg (State.dipEffects · rail) (if_neg (Bool.eq_false_iff.mp hact)))⟩
    exact ⟨rfl, rfl, rfl, rfl, rfl, fun _ => ⟨rfl, rfl, rfl⟩, fun h => absurd (hact.symm.trans h) nofun⟩

section Dip
variable (s : State) (rail : RailIx)

theorem State.dipEffects_raised : ChansRaised s.storeStop (s.dipEffects rail) :=
  (State.forChans_modChan_raised s allChans Channel.dipped).storeStop.raise (railSrc rail) 0x01

theorem State.chan_dipEffects (c : Chan) : (s.dipEffects rail).chan c = (s.chan c).dipped := by
  rw [State.dipEffects, State.chan_raise, State.chan_storeStop, State.chan_forChans_modChan nodup_allChans,
    if_pos (mem_allChans c)]

end Dip

/-- Only the trim of a channel changes with the start of a dip. -/
theorem Channel.dipped_eq (x : Channel) : x.dipped = { x with trim := x.dipped.trim } := by
  unfold Channel.dipped
  split <;> rfl

theorem Channel.dipped_of_idle {x : Channel} (h : x.trim.running = false) : x.dipped = x :=
  if_neg (Bool.eq_false_iff.mp h)

theorem Channel.dipped_fails {x : Channel} (h : x.trim.running = true) (hr : x.trim.failReason = 0) :
    x.dipped.trim.failReason = 9 := by
  simp [Channel.dipped, h, Trim.fail, hr]

/-! ## A dip that is known to be long (R529) -/

/-- The rails of a dip are reported as LONG, one after another. -/
def State.railsLong (s : State) (bits : BitVec 6) (l : List RailIx) : State :=
  l.foldl (fun z i => if bits.getLsbD i.val then z.raise (railSrc i) 0x02 else z) s

section RailsLong
variable (s : State) (bits : BitVec 6) (l : List RailIx)

theorem State.railsLong_raised : ChansRaised s (s.railsLong bits l) := by
  refine List.foldlRecOn l _ (.refl s) fun z h i _ => ?_
  split
  · exact h.raise _ _
  · exact h

theorem State.railsLong_chans : (s.railsLong bits l).chans = s.chans := by
  refine List.foldlRecOn (motive := fun z : State => z.chans = s.chans) l _ rfl fun z h i _ => ?_
  split
  · rw [State.raise_chans, h]
  · exact h

variable {s} {bits} {l}

theorem State.railsLong_reports (hmode : s.pwr.mode ≠ .reset) {i : RailIx} (hi : i ∈ l) (h : bits.getLsbD i.val = true) :
    Reported (s.railsLong bits l) (188 + i.val) 0x02 := by
  induction l generalizing s with
  | nil => exact absurd hi List.not_mem_nil
  | cons j l ih =>
    obtain rfl | hil := List.mem_cons.mp hi
    · have hstep : s.railsLong bits (i :: l) = (s.raise (railSrc i) 0x02).railsLong bits l :=
        congrArg (State.railsLong · bits l) (if_pos h)
      rw [hstep]
      exact (State.railsLong_raised _ _ _).reported (s.reported_raise (railSrc i) _ hmode (by decide))
    · refine ih (s := s.railsLong bits [j]) ?_ hil
      rw [(State.railsLong_raised s bits [j]).pwr]
      exact hmode

end RailsLong

/-- The dip is noted as long at mc 12,501 after its start. -/
def State.longNoted (s : State) : State :=
  (s.at_ (s.mcAt (s.pwr.dipStart + 12501))).modPwr fun p => { p with dipLong := true }

/-- Its rails are reported too. -/
def State.longKnown (s : State) : State := s.longNoted.railsLong s.pwr.dipRails allRails

/-- The trim of every channel whose domain is on is stale too. -/
def State.longStale (s : State) : State :=
  s.longKnown.forChans (allChans.filter s.longKnown.chOn) fun c z => z.setStale c fun t => { t with supply := true }

theorem State.dipLong_eq {s : State} (hact : s.pwr.dipActive = true) (hlong : s.pwr.dipLong = false) :
    s.dipLong_ = if s.pwr.dipRails &&& supRails = 0 then s.longKnown else s.longStale := by
  simp only [State.dipLong_, hact, hlong]
  rfl

section Long
variable (s : State)

theorem State.longKnown_raised : ChansRaised s.longNoted s.longKnown := State.railsLong_raised _ _ _

theorem State.chan_longKnown (c : Chan) : s.longKnown.chan c = s.chan c :=
  by
  rw [State.chan, State.longKnown, State.railsLong_chans]
  rfl

theorem State.chOn_longKnown (c : Chan) : s.longKnown.chOn c = s.chOn c := by
  rw [State.chOn, State.dom, s.longKnown_raised.pwr]
  rfl

theorem State.mem_longStale (c : Chan) : c ∈ allChans.filter s.longKnown.chOn ↔ s.chOn c = true := by
  rw [List.mem_filter, s.chOn_longKnown, and_iff_right (mem_allChans c)]

theorem State.longStale_raised : ChansRaised s.longKnown s.longStale := State.forChans_setStale_raised _ _ _

theorem State.chan_longStale (c : Chan) :
    s.longStale.chan c = if s.chOn c then (s.chan c).staled fun t => { t with supply := true } else s.chan c := by
  rw [State.longStale, State.chan_forChans_setStale _ (nodup_allChans.filter _), s.chan_longKnown]
  exact if_congr (s.mem_longStale c) rfl rfl

end Long

/-! ## The end of a dip, and an over-voltage (R523, R524) -/

theorem State.dipFinish_eq {s : State} (a : Instant) (h : s.pwr.dipActive = true) :
    s.dipFinish a = (s.at_ a).modPwr fun p => { p with
      dipActive := false, dipDuration := s.mc (s.clocks.mgmt.next (max s.now a)) - p.dipStart
      dipE := some ((s.at_ a).mcSpan (s.at_ a).nowMc), rails := p.rails.map fun r => { r with warn := false } } :=
  if_pos h

theorem State.overVolt_eq {s : State} (a : Instant) (rail : RailIx) (hmode : s.pwr.mode ≠ .reset) :
    s.overVolt a rail = ((s.at_ a).modRail rail fun r => { r with overLvl := true }).raise (railSrc rail) 0x04 :=
  if_neg hmode

theorem State.rail_modRail_self (s : State) (i : RailIx) (f : Rail → Rail) :
    (s.modRail i f).pwr.rails[i] = f s.pwr.rails[i] := by
  simp [State.modRail, State.modPwr]

end Sys2Proof.Machine
end

section
/-! SUPPORT. The statement about dips, row by row. -/

namespace Sys2Proof.Proofs

open Sys2Proof.Machine Sys2Proof.Safety

section Dips
variable {s : State}

/-- A state that keeps all but time, the power plane and the NVM unit, and then changes trims and records and raises
conditions, is as R530 demands. -/
theorem dipOnly_of_raised {z t : State} (hz : z = { s with now := z.now, pwr := z.pwr, nvm := z.nvm })
    (hmode : z.pwr.mode = s.pwr.mode) (hdoms : z.pwr.doms = s.pwr.doms) (h : ChansRaised z t)
    (hchans : ∀ c, t.chan c = { s.chan c with trim := (t.chan c).trim, rcd := (t.chan c).rcd })
    (hrecords : ∀ c, (t.chan c).rcd = { (s.chan c).rcd with flags := (t.chan c).rcd.flags }) : DipOnly s t where
  mode := by rw [h.pwr, hmode]
  doms := by rw [h.pwr, hdoms]
  chans := hchans
  records := hrecords
  tb := by rw [h.whole, hz]
  vlt := by rw [h.whole, hz]
  mem := by rw [h.whole, hz]

/-- The start of a dip (R523, R525, R528). -/
theorem dipStart_completes (a : Instant) (rail : RailIx) (hmode : s.pwr.mode ≠ .reset)
    (hwarn : (s.pwr.rails[rail]).warn = false) :
    ∃ t, exec (.dipStart a rail) s = .next t ∧ t.now = max s.now a ∧ DipOnly s t ∧
      (t.pwr.rails[rail]).warn = true ∧ (t.pwr.rails[rail]).dips = satAdd (s.pwr.rails[rail]).dips 1 ∧
      (∀ r : RailIx, r ≠ rail → t.pwr.rails[r] = s.pwr.rails[r]) ∧ t.pwr.dipActive = true ∧
      Reported t (188 + rail.val) 0x01 ∧
      (s.pwr.dipActive = false → t.pwr.dipStart = s.mc (s.clocks.mgmt.next (max s.now a)) ∧
        t.pwr.dipRails = BitVec.ofNat 6 (2 ^ rail.val) ∧ t.pwr.dipLong = false) ∧
      (s.pwr.dipActive = true → t.pwr.dipStart = s.pwr.dipStart ∧
        t.pwr.dipRails = s.pwr.dipRails ||| BitVec.ofNat 6 (2 ^ rail.val) ∧ t.pwr.dipLong = s.pwr.dipLong) ∧
      (∀ c, (s.chan c).trim.running = true → (s.chan c).trim.failReason = 0 → (t.chan c).trim.failReason = 9) ∧
      (∀ c, (s.chan c).trim.running = false → t.chan c = s.chan c) ∧
      (∀ q, s.nvm.store = some q → t.nvm.store = some { q with stopping := true }) := by
  obtain ⟨z, hz, hbegin⟩ := State.dipBegin_noted a hmode hwarn
  have hraised := z.dipEffects_raised rail
  have hpwr : (z.dipEffects rail).pwr = z.pwr := hraised.pwr
  have hchan : ∀ c, (z.dipEffects rail).chan c = (s.chan c).dipped := fun c => by
    rw [State.chan_dipEffects, hz.whole]
    rfl
  refine ⟨_, (exec_dipStart s a rail).trans (congrArg _ hbegin), ?_, ?_, ?_, ?_, fun r hr => ?_, ?_, ?_, ?_, ?_,
    fun c hrun hok => ?_, fun c hidle => ?_, fun q hq => ?_⟩
  · rw [hraised.now, State.storeStop, State.modNvm, hz.whole]
    rfl
  · refine dipOnly_of_raised (z := z.storeStop) ?_ hz.mode hz.doms hraised (fun c => ?_) (fun c => ?_)
    · rw [State.storeStop, State.modNvm, hz.whole]
      rfl
    · rw [hchan, Channel.dipped_eq]
    · rw [hchan, Channel.dipped_eq]
  · simp [hpwr, hz.rails]
  · simp [hpwr, hz.rails]
  · have hne : rail.val ≠ r.val := fun e => hr (Fin.ext e.symm)
    simp [hpwr, hz.rails, Vector.getElem_set_ne, hne]
  · rw [hpwr, hz.active]
  · refine State.reported_raise _ (railSrc rail) _ ?_ (by decide)
    have hz' := (z.forChans_modChan_raised allChans Channel.dipped).storeStop.pwr
    rw [hz']
    exact fun h => hmode (hz.mode.symm.trans h)
  · rw [hpwr]; exact hz.first
  · rw [hpwr]; exact hz.next
  · rw [hchan, Channel.dipped_fails hrun hok]
  · rw [hchan, Channel.dipped_of_idle hidle]
  · rw [hraised.whole, State.storeStop, State.modNvm, hz.whole]
    exact congrArg (Option.map _) hq

/-- The end of a dip gives its duration. -/
theorem dipEnd_completes (a : Instant) (hact : s.pwr.dipActive = true) :
    ∃ t, exec (.dipEnd a) s = .next t ∧ t = { s with now := max s.now a, pwr := t.pwr } ∧
      t.pwr.dipActive = false ∧ t.pwr.dipDuration = s.mc (s.clocks.mgmt.next (max s.now a)) - s.pwr.dipStart ∧
      t.pwr.mode = s.pwr.mode ∧ t.pwr.doms = s.pwr.doms ∧
      ∀ r : RailIx, (t.pwr.rails[r]).warn = false ∧ (t.pwr.rails[r]).dips = (s.pwr.rails[r]).dips := by
  refine ⟨_, (exec_dipEnd s a).trans (congrArg _ (State.dipFinish_eq a hact)), rfl, rfl, rfl, rfl, rfl, fun r => ?_⟩
  simp [State.modPwr]

/-- A dip that is known to be long (R529). -/
theorem long_completes (hmode : s.pwr.mode ≠ .reset) (hact : s.pwr.dipActive = true) (hlong : s.pwr.dipLong = false) :
    ∃ t, exec .long s = .next t ∧ DipOnly s t ∧
      t.now = max s.now (s.mcAt (s.pwr.dipStart + 12501)) ∧ t.pwr.dipLong = true ∧ t.pwr.rails = s.pwr.rails ∧
      (∀ r : RailIx, s.pwr.dipRails.getLsbD r.val = true → Reported t (188 + r.val) 0x02) ∧
      (∀ c, s.chOn c = true → s.pwr.dipRails &&& 0b010111 ≠ 0 → (t.chan c).trim.supply = true ∧
        ((s.chan c).trim.stale = false → Reported t c.val 0x80)) ∧
      (∀ c, s.chOn c = false ∨ s.pwr.dipRails &&& 0b010111 = 0 → t.chan c = s.chan c) := by
  have hknown := s.longKnown_raised
  have hmode' : s.longKnown.pwr.mode ≠ .reset := by
    rw [hknown.pwr]
    exact hmode
  have hrails : ∀ r : RailIx, s.pwr.dipRails.getLsbD r.val = true → Reported s.longKnown (188 + r.val) 0x02 :=
    fun r => State.railsLong_reports (s := s.longNoted) hmode (List.mem_finRange r)
  by_cases hsup : s.pwr.dipRails &&& supRails = 0
  · refine ⟨_, (exec_long s).trans (congrArg _ ((State.dipLong_eq hact hlong).trans (if_pos hsup))),
      dipOnly_of_raised (z := s.longNoted) rfl rfl rfl hknown (fun c => ?_) (fun c => ?_), hknown.now, ?_, ?_, hrails,
      fun c _ hne => absurd hsup hne, fun c _ => s.chan_longKnown c⟩
    · rw [s.chan_longKnown]
    · rw [s.chan_longKnown]
    · rw [hknown.pwr]; rfl
    · rw [hknown.pwr]; rfl
  · have hraised := hknown.trans s.longStale_raised
    refine ⟨_, (exec_long s).trans (congrArg _ ((State.dipLong_eq hact hlong).trans (if_neg hsup))),
      dipOnly_of_raised (z := s.longNoted) rfl rfl rfl hraised (fun c => ?_) (fun c => ?_), hraised.now, ?_, ?_,
      fun r hr => s.longStale_raised.reported (hrails r hr), fun c hon _ => ⟨?_, fun hstale => ?_⟩, fun c hoff => ?_⟩
    · rw [s.chan_longStale]
      split <;> rfl
    · rw [s.chan_longStale]
      split
      · exact Channel.staled_rcd _ _
      · rfl
    · rw [hraised.pwr]; rfl
    · rw [hraised.pwr]; rfl
    · rw [s.chan_longStale, if_pos hon]
      rfl
    · refine State.forChans_setStale_reports _ (nodup_allChans.filter _) hmode' ((s.mem_longStale c).mpr hon) ?_
      rw [s.chan_longKnown]
      exact hstale
    · have hoff' : ¬s.chOn c = true := hoff.elim Bool.eq_false_iff.mp fun h => absurd h hsup
      rw [s.chan_longStale, if_neg hoff']

/-- A rail above its over level is reported and noted (R524). -/
theorem ov_completes (a : Instant) (rail : RailIx) (hmode : s.pwr.mode ≠ .reset) :
    ∃ t, exec (.ov a rail) s = .next t ∧ t.now = max s.now a ∧ DipOnly s t ∧ t.chans = s.chans ∧
      (t.pwr.rails[rail]).overLvl = true ∧ (t.pwr.rails[rail]).dips = (s.pwr.rails[rail]).dips ∧
      Reported t (188 + rail.val) 0x04 := by
  have hraised := (ChansRaised.refl ((s.at_ a).modRail rail fun r => { r with overLvl := true })).raise (railSrc rail) 0x04
  have hchans := ((s.at_ a).modRail rail fun r => { r with overLvl := true }).raise_chans (railSrc rail) 0x04
  have hchan : ∀ c, State.chan _ c = s.chan c := fun c => congrArg (·[c]) hchans
  refine ⟨_, (exec_ov s a rail).trans (congrArg _ (State.overVolt_eq a rail hmode)), hraised.now,
    dipOnly_of_raised (z := (s.at_ a).modRail rail _) rfl rfl rfl hraised (fun c => ?_) (fun c => ?_), hchans, ?_, ?_,
    State.reported_raise _ (railSrc rail) _ hmode (by decide)⟩
  · rw [hchan]
  · rw [hchan]
  · rw [hraised.pwr, State.rail_modRail_self]
  · rw [hraised.pwr, State.rail_modRail_self]
    rfl

end Dips

end Sys2Proof.Proofs
end

section
/-! SUPPORT. Requests to switch domains (R48, R531, R533): what starts, and what stays as it was. -/

namespace Sys2Proof.Machine

open Sys2Proof.Safety

/-! ## The rows of the table -/

theorem exec_powerGoodCheck (s : State) (d : Dom) (good : Bool) :
    exec (.powerGoodCheck d good) s = .next (s.powerGood d good) := rfl
theorem exec_domainOn (s : State) (d : Dom) : exec (.domainOn d) s = .next (s.domainOn d) := rfl
theorem exec_domainOff (s : State) (d : Dom) : exec (.domainOff d) s = .next (s.domainOff d) := rfl

/-! ## Switch-ons that waited (R531) -/

/-- `t` is `s` but for switch-ons that waited and have started in mc `m`. -/
structure SwitchOns (s t : State) (m : Nat) : Prop where
  whole : t = { s with pwr := { s.pwr with doms := t.pwr.doms } }
  doms : ∀ d, t.dom d = s.dom d ∨ s.dom d = .waiting ∧ t.dom d = .turningOn m

/-- One more switch-on that waited starts. -/
theorem SwitchOns.setDom {s t : State} {m : Nat} (h : SwitchOns s t m) {d : Dom} (hd : t.dom d = .waiting) :
    SwitchOns s (t.setDom d (.turningOn m)) m where
  whole := by
    rw [State.setDom, h.whole]
  doms e := by
    by_cases he : e = d
    · subst he
      rw [State.dom_setDom_self]
      obtain hsame | ⟨-, hon⟩ := h.doms e
      · exact .inr ⟨hsame ▸ hd, rfl⟩
      · exact absurd (hon.symm.trans hd) nofun
    · rw [State.dom_setDom_ne _ _ _ _ he]
      exact h.doms e

theorem State.pumpOn_switchOns (s : State) : SwitchOns s s.pumpOn s.nowMc := by
  unfold State.pumpOn
  refine List.foldlRecOn (motive := (SwitchOns s · s.nowMc)) allDoms _ ⟨rfl, fun _ => .inl rfl⟩ fun z h d _ => ?_
  split
  case isTrue hstart =>
    simp only [Bool.and_eq_true, beq_iff_eq] at hstart
    exact h.setDom hstart.1.1
  case isFalse => exact h

section Pump
variable (s : State)

@[simp] theorem State.pumpOn_now : s.pumpOn.now = s.now := by rw [s.pumpOn_switchOns.whole]
@[simp] theorem State.pumpOn_chans : s.pumpOn.chans = s.chans := by rw [s.pumpOn_switchOns.whole]
@[simp] theorem State.pumpOn_synths : s.pumpOn.synths = s.synths := by rw [s.pumpOn_switchOns.whole]
@[simp] theorem State.pumpOn_mode : s.pumpOn.pwr.mode = s.pwr.mode := by rw [s.pumpOn_switchOns.whole]
@[simp] theorem State.pumpOn_cycle : s.pumpOn.pwr.cycle = s.pwr.cycle := by rw [s.pumpOn_switchOns.whole]
@[simp] theorem State.pumpOn_pdFail : s.pumpOn.pwr.pdFail = s.pwr.pdFail := by rw [s.pumpOn_switchOns.whole]
@[simp] theorem State.chan_pumpOn (c : Chan) : s.pumpOn.chan c = s.chan c := congrArg (·[c]) s.pumpOn_chans
@[simp] theorem State.synth_pumpOn (k : Synth) : s.pumpOn.synth k = s.synth k := congrArg (·[k]) s.pumpOn_synths

variable {s}

/-- A domain that does not wait is as it was. -/
theorem State.dom_pumpOn_of_ne {d : Dom} (h : s.dom d ≠ .waiting) : s.pumpOn.dom d = s.dom d :=
  (s.pumpOn_switchOns.doms d).resolve_right fun hw => h hw.1

/-- A domain that waits waits still, or its switch-on has started. -/
theorem State.dom_pumpOn_of_waiting {d : Dom} (h : s.dom d = .waiting) :
    s.pumpOn.dom d = .waiting ∨ ∃ k, s.pumpOn.dom d = .turningOn k :=
  (s.pumpOn_switchOns.doms d).imp (·.trans h) fun hw => ⟨_, hw.2⟩

end Pump

/-! ## Requests (R48, Table 17.4) -/

/-- A request to switch on touches the domains and the cycles that wait. -/
theorem State.askOn_eq (s : State) (d : Dom) :
    ∃ doms cycle, s.askOn d = { s with pwr := { s.pwr with doms := doms, cycle := cycle } } := by
  unfold State.askOn
  split
  · exact ⟨_, _, rfl⟩
  · split <;> exact ⟨_, _, rfl⟩

/-- A domain that is off waits for its switch-on, unless shedding keeps it off. -/
theorem State.askOn_of_off {s : State} {d : Dom} (hoff : s.dom d = .off) (hshed : s.thm.shedFrom = none) :
    s.askOn d = s.setDom d .waiting := by
  have hheld : s.shedHeld d = false := by simp [State.shedHeld, hshed]
  simp [State.askOn, hheld, hoff]

theorem State.requestOn_eq (s : State) (l : List Dom) :
    ∃ doms cycle, s.requestOn l = { s with pwr := { s.pwr with doms := doms, cycle := cycle } } := by
  have hask : ∃ doms cycle, l.foldl State.askOn s = { s with pwr := { s.pwr with doms := doms, cycle := cycle } } := by
    refine List.foldlRecOn (motive := fun z : State =>
      ∃ doms cycle, z = { s with pwr := { s.pwr with doms := doms, cycle := cycle } }) l _ ⟨_, _, rfl⟩ ?_
    rintro _ ⟨_, _, rfl⟩ d -
    exact State.askOn_eq _ d
  obtain ⟨_, _, hz⟩ := hask
  rw [State.requestOn, (State.pumpOn_switchOns _).whole, hz]
  exact ⟨_, _, rfl⟩

/-! ## A power-good check that fails (R533) -/

theorem State.powerGood_good {s : State} {d : Dom} {n : Nat} (h : s.dom d = .turningOn n) :
    s.powerGood d true = s.at_ (s.mcAt (n + 10000)) := by
  simp [State.powerGood, h]

/-- The domain switches off from mc 10,000 of its switch-on, and its index is noted. -/
def State.powerFailed (s : State) (d : Dom) (n : Nat) : State :=
  ((s.at_ (s.mcAt (n + 10000))).setDom d (.turningOff (n + 10000))).modPwr fun p => { p with pdFail := BitVec.ofNat 7 d.val }

theorem State.powerGood_bad {s : State} {d : Dom} {n : Nat} (h : s.dom d = .turningOn n) :
    s.powerGood d false = (s.powerFailed d n).pumpOn.raise 194 0x01 := by
  simp only [State.powerGood, h, Bool.false_eq_true, if_false]
  rfl

/-! ## Pier domains go off (R531) -/

section PierOff
variable (s : State) (k : Pier)

theorem State.dropWriter_eq : s.dropWriter k = { s with writers := (s.dropWriter k).writers, vlt := (s.dropWriter k).vlt } := by
  unfold State.dropWriter
  split <;> rfl

/-- What a pier's switch-off can change. -/
theorem State.pierOffCheck_eq : s.pierOffCheck k = { s with
    writers := (s.pierOffCheck k).writers, vlt := (s.pierOffCheck k).vlt, synths := (s.pierOffCheck k).synths
    pwr := { s.pwr with doms := (s.pierOffCheck k).pwr.doms } } := by
  unfold State.pierOffCheck
  split
  · unfold State.setDom State.modSynth State.setSynth
    rw [s.dropWriter_eq k]
  · rfl

theorem State.dom_pierOffCheck_ne {d : Dom} (h : d ≠ pierDom k) : (s.pierOffCheck k).dom d = s.dom d := by
  unfold State.pierOffCheck
  split
  · rw [State.dom_setDom_ne _ _ _ _ h, State.modSynth, State.dom, State.setSynth_pwr, s.dropWriter_eq k]
    rfl
  · rfl

end PierOff

/-- The end of shedding is a matter of the thermal unit and of a condition raised. -/
theorem State.shedCheck_eq (s : State) :
    ∃ l, s.shedCheck = { s with
      thm := { s.thm with shDone := s.shedCheck.thm.shDone }, truss := { s.truss with incoming := s.truss.incoming ++ l } } := by
  unfold State.shedCheck
  split
  · obtain ⟨l, h⟩ := ({ s with thm := { s.thm with shDone := true } } : State).raise_eq 182 0x10
    rw [h]
    exact ⟨l, rfl⟩
  · exact ⟨[], by rw [List.append_nil]⟩

section Shed
variable (s : State)

@[simp] theorem State.shedCheck_now : s.shedCheck.now = s.now := by obtain ⟨_, h⟩ := s.shedCheck_eq; rw [h]
@[simp] theorem State.shedCheck_pwr : s.shedCheck.pwr = s.pwr := by obtain ⟨_, h⟩ := s.shedCheck_eq; rw [h]
@[simp] theorem State.shedCheck_synths : s.shedCheck.synths = s.synths := by obtain ⟨_, h⟩ := s.shedCheck_eq; rw [h]
@[simp] theorem State.dom_shedCheck (d : Dom) : s.shedCheck.dom d = s.dom d := congrArg (·.doms[d]) s.shedCheck_pwr
@[simp] theorem State.synth_shedCheck (k : Synth) : s.shedCheck.synth k = s.synth k := congrArg (·[k]) s.shedCheck_synths

end Shed

theorem chDom_ne_pierDom (c : Chan) (k : Pier) : chDom c ≠ pierDom k := by
  intro h
  have hv := congrArg Fin.val h
  simp only [chDom, pierDom] at hv
  omega

end Sys2Proof.Machine
end

section
/-! SUPPORT. What a channel at an idle point takes over (R29, R32, R455), as far as the power domains are concerned: its
trigger, its arming and the switch-offs it waits for stay, and a reload that starts now stays the same reload. -/

namespace Sys2Proof.Machine

open Sys2Proof.Safety

/-- The trigger, the arming and the switch-offs that a channel waits for are the same, and so is a reload that is due at
`r`. -/
structure SameCore (r : Option Instant) (x y : Channel) : Prop where
  trg : y.trg = x.trg
  armed : y.armed = x.armed
  shedPend : y.shedPend = x.shedPend
  pdoffPend : y.pdoffPend = x.pdoffPend
  reload : x.eng.reloadDue = r → y.eng.reloadDue = r

section Core
variable {r : Option Instant} {x y z : Channel}

theorem SameCore.refl (x : Channel) : SameCore r x x := ⟨rfl, rfl, rfl, rfl, id⟩

theorem SameCore.trans (h : SameCore r x y) (g : SameCore r y z) : SameCore r x z :=
  ⟨g.trg.trans h.trg, g.armed.trans h.armed, g.shedPend.trans h.shedPend, g.pdoffPend.trans h.pdoffPend, g.reload ∘ h.reload⟩

variable (x)

theorem Channel.sameCore_setLane (l : Bool) (y : Lane) : SameCore r x (x.setLane l y) := by
  cases l <;> exact ⟨rfl, rfl, rfl, rfl, id⟩

theorem Channel.sameCore_remerge (old : ChanCfg) : SameCore r x (x.remerge old) := by
  unfold Channel.remerge
  split <;> exact ⟨rfl, rfl, rfl, rfl, id⟩

theorem Channel.sameCore_redecimate (old : ChanCfg) : SameCore r x (x.redecimate old) := ⟨rfl, rfl, rfl, rfl, id⟩

theorem Channel.sameCore_applyPost : SameCore r x x.applyPost := by
  unfold Channel.applyPost
  split <;> exact ⟨rfl, rfl, rfl, rfl, id⟩

theorem Channel.sameCore_applyTrim (band : Nat) : SameCore r x (x.applyTrim band) := by
  unfold Channel.applyTrim
  split
  · dsimp only
    split <;> exact ⟨rfl, rfl, rfl, rfl, id⟩
  · exact ⟨rfl, rfl, rfl, rfl, id⟩

end Core

/-- When a reload that starts now is due. -/
def State.reloadNow (s : State) : Option Instant := some (s.mcAt (s.mc s.now + reloadMc))

/-- Time, clocks, power plane, thermal unit and the core of every channel are the same. -/
structure IdleKept (s t : State) : Prop where
  now : t.now = s.now
  clocks : t.clocks = s.clocks
  pwr : t.pwr = s.pwr
  thm : t.thm = s.thm
  chans : ∀ c, SameCore s.reloadNow (s.chan c) (t.chan c)

namespace IdleKept
variable {s t u : State}

theorem refl (s : State) : IdleKept s s := ⟨rfl, rfl, rfl, rfl, fun _ => .refl _⟩

theorem reloadNow (h : IdleKept s t) : t.reloadNow = s.reloadNow := by
  simp only [State.reloadNow, State.mcAt, State.mc, h.clocks, h.now]

theorem trans (h : IdleKept s t) (g : IdleKept t u) : IdleKept s u where
  now := g.now.trans h.now
  clocks := g.clocks.trans h.clocks
  pwr := g.pwr.trans h.pwr
  thm := g.thm.trans h.thm
  chans c := (h.chans c).trans (h.reloadNow ▸ g.chans c)

/-- A write of a channel that keeps its core. -/
theorem setChan (h : IdleKept s t) {c : Chan} {x : Channel} (hx : SameCore t.reloadNow (t.chan c) x) :
    IdleKept s (t.setChan c x) := by
  refine h.trans ⟨rfl, rfl, rfl, rfl, fun b => ?_⟩
  by_cases hb : b = c
  · rw [hb, State.chan_setChan_self]
    exact hx
  · rw [State.chan_setChan_ne _ _ _ _ hb]
    exact .refl _

theorem modChan (h : IdleKept s t) (c : Chan) {f : Channel → Channel} (hf : ∀ x, SameCore t.reloadNow x (f x)) :
    IdleKept s (t.modChan c f) := h.setChan (hf _)

theorem startReload (h : IdleKept s t) (c : Chan) : IdleKept s (t.startReload c t.now) :=
  h.modChan c fun _ => ⟨rfl, rfl, rfl, rfl, fun _ => rfl⟩

theorem startTrim (h : IdleKept s t) (c : Chan) (w0 : Instant) (wasArmed wasHeld : Bool) :
    IdleKept s (t.startTrim c w0 wasArmed wasHeld) :=
  h.modChan c fun _ => ⟨rfl, rfl, rfl, rfl, id⟩

theorem raiseM (h : IdleKept s t) (n : Source) (b : Byte) : IdleKept s (t.raiseM n b) := by
  unfold State.raiseM State.raiseFrom State.recog
  split
  · exact h
  · split
    · exact h
    · exact h.trans ⟨rfl, rfl, rfl, rfl, fun _ => .refl _⟩

theorem formeDone (h : IdleKept s t) : IdleKept s t.formeDone := by
  unfold State.formeDone
  split
  · refine raiseM ?_ _ _
    exact h.trans ⟨rfl, rfl, rfl, rfl, fun _ => .refl _⟩
  · exact h

/-- A change of the partner subscription touches lanes and merges alone. -/
theorem rePartner (h : IdleKept s t) (c : Chan) (old : Option LaneIx) (at_ : Int) (idle : Bool) :
    IdleKept s (t.rePartner c old at_ idle) := by
  have hlane : ∀ {z : State} (i : LaneIx) (f : Channel → Lane), IdleKept s z →
      IdleKept s (z.modChan (laneChan i) fun x => x.setLane (laneIsL i) (f x)) :=
    fun i f hz => hz.modChan _ fun x => x.sameCore_setLane _ _
  have hmerge : ∀ {z : State} (f : Channel → Merge), IdleKept s z →
      IdleKept s (z.modChan c fun x => { x with merge := f x }) :=
    fun f hz => hz.modChan c fun _ => ⟨rfl, rfl, rfl, rfl, id⟩
  unfold State.rePartner
  dsimp only
  split
  · exact h
  · split
    · split
      · exact hlane _ _ (hlane _ _ (hmerge _ h))
      · exact hlane _ _ (hmerge _ h)
    · split
      · exact hlane _ _ (hmerge _ h)
      · exact hmerge _ h

theorem applyForme (h : IdleKept s t) (c : Chan) (at_ : Int) (idle : Bool) : IdleKept s (t.applyForme c at_ idle).1 := by
  unfold State.applyForme
  dsimp only
  split
  · exact h
  · split
    · exact h.setChan ⟨rfl, rfl, rfl, rfl, id⟩
    · refine (h.setChan ?_).rePartner _ _ _ _
      refine ((?_ : SameCore _ _ _).trans (Channel.sameCore_remerge _ _)).trans (Channel.sameCore_redecimate _ _)
      exact ⟨rfl, rfl, rfl, rfl, id⟩

theorem applyPlaces (h : IdleKept s t) (c : Chan) : IdleKept s (t.applyPlaces c) := by
  unfold State.applyPlaces
  dsimp only
  split
  · exact h
  · split
    · exact h
    · exact h.setChan ⟨rfl, rfl, rfl, rfl, id⟩

theorem applyStaged (h : IdleKept s t) (c : Chan) (at_ : Int) (idle : Bool) : IdleKept s (t.applyStaged c at_ idle).1 :=
  ((h.applyForme c at_ idle).applyPlaces c).modChan c fun x =>
    (x.sameCore_applyPost).trans (Channel.sameCore_applyTrim _ _)

end IdleKept

/-- The end of an idle point: a trim that is pending begins, or the switch-off that the channel waits for does. -/
def State.idleEnd (s : State) (c : Chan) : State :=
  if (s.chan c).trim.pending && s.chOn c && !s.subscribed c then
    s.startTrim c (s.span.vis win400 s.now) false (s.chan c).held
  else s.requestOff c

theorem IdleKept.idleEnd {s t : State} (h : IdleKept s t) (c : Chan) :
    ∃ u, IdleKept s u ∧ (t.idleEnd c = u ∨ t.idleEnd c = u.requestOff c) := by
  unfold State.idleEnd
  split
  · exact ⟨_, h.startTrim c _ _ _, .inl rfl⟩
  · exact ⟨t, h, .inr rfl⟩

/-- Whatever takes effect at an idle point, all that can follow is the switch-off that the channel waits for. -/
theorem State.settleIdle_cases (s : State) (c : Chan) :
    ∃ u, IdleKept s u ∧ (s.settleIdle c = u ∨ s.settleIdle c = u.requestOff c) := by
  unfold State.settleIdle
  dsimp only
  split
  · exact ⟨s, .refl s, .inl rfl⟩
  · have hstaged := (IdleKept.refl s).applyStaged c (lsbUp s.now) true
    split
    · exact (hstaged.startReload c).formeDone.idleEnd c
    · exact hstaged.formeDone.idleEnd c

/-! ## The switch-off that a channel waits for (R531) -/

theorem State.requestOff_of_none {s : State} {c : Chan} (hshed : (s.chan c).shedPend = false)
    (hpdoff : (s.chan c).pdoffPend = false) : s.requestOff c = s := by
  simp [State.requestOff, hshed, hpdoff]

/-- The switch-off of a channel domain touches that domain and the channels. -/
theorem State.requestOff_eq (s : State) (c : Chan) :
    ∃ x, s.requestOff c = { s with chans := (s.requestOff c).chans, pwr := (s.setDom (chDom c) x).pwr } := by
  unfold State.requestOff
  dsimp only
  split
  · exact ⟨_, rfl⟩
  · refine ⟨s.dom (chDom c), ?_⟩
    simp [State.setDom, State.dom]

/-- What settling at an idle point keeps in every case. -/
theorem State.settleIdle_frame (s : State) (c : Chan) :
    (s.settleIdle c).now = s.now ∧ (s.settleIdle c).thm = s.thm ∧ (s.settleIdle c).pwr.mode = s.pwr.mode ∧
      ∀ e, e ≠ chDom c → (s.settleIdle c).dom e = s.dom e := by
  obtain ⟨u, hu, h | h⟩ := s.settleIdle_cases c
  · rw [h]
    refine ⟨hu.now, hu.thm, by rw [hu.pwr], fun e _ => ?_⟩
    rw [State.dom, hu.pwr]
    rfl
  · obtain ⟨x, hx⟩ := u.requestOff_eq c
    rw [h, hx]
    refine ⟨hu.now, hu.thm, by rw [State.setDom, hu.pwr], fun e he => ?_⟩
    refine (u.dom_setDom_ne (chDom c) e x he).trans ?_
    rw [State.dom, hu.pwr]
    rfl

/-- A channel that waits for no switch-off keeps its core. -/
theorem State.settleIdle_kept {s : State} {c : Chan} (hshed : (s.chan c).shedPend = false)
    (hpdoff : (s.chan c).pdoffPend = false) : IdleKept s (s.settleIdle c) := by
  obtain ⟨u, hu, h | h⟩ := s.settleIdle_cases c
  · rw [h]
    exact hu
  · rw [h, State.requestOff_of_none ((hu.chans c).shedPend.trans hshed) ((hu.chans c).pdoffPend.trans hpdoff)]
    exact hu

end Sys2Proof.Machine
end

section
/-! SUPPORT. A domain comes on, or has gone off (Table 15.7, R49, R151, R278, Table 17.4). -/

namespace Sys2Proof.Machine

open Sys2Proof.Safety

/-! ## Domains of channels and of piers (Table 1.6) -/

theorem chDom_injective {b c : Chan} (h : chDom b = chDom c) : b = c := by
  have hv := congrArg Fin.val h
  exact Fin.ext hv

theorem pierDom_injective {j k : Pier} (h : pierDom j = pierDom k) : j = k := by
  have hv := congrArg Fin.val h
  simp only [pierDom] at hv
  exact Fin.ext (by omega)

theorem dom_cases (d : Dom) : (∃ c, d = chDom c) ∨ ∃ k, d = pierDom k := by
  by_cases h : d.val < 96
  · exact .inl ⟨⟨d.val, h⟩, rfl⟩
  · refine .inr ⟨⟨d.val - 96, by omega⟩, Fin.ext ?_⟩
    simp only [pierDom]
    omega

theorem not_pierDom_lt (k : Pier) : ¬(pierDom k).val < 96 := by
  simp only [pierDom]
  omega

theorem pier_of_pierDom (k : Pier) : Fin.ofNat 8 ((pierDom k).val - 96) = k := by
  refine Fin.ext ?_
  simp only [pierDom, Fin.ofNat]
  omega

/-! ## Fields -/

/-- A field that is written with zero reads as zero bits. -/
theorem getLsbD_putFld_zero {n : Nat} (w : BitVec n) (lo len i : Nat) (h : i < len) :
    (putFld w lo len 0).getLsbD (lo + i) = false := by
  have hsub : (w.toNat - 2 ^ lo * (w.toNat / 2 ^ lo % 2 ^ len)) / 2 ^ lo = 2 ^ len * (w.toNat / 2 ^ lo / 2 ^ len) := by
    rw [Nat.sub_mul_div]
    have := Nat.div_add_mod (w.toNat / 2 ^ lo) (2 ^ len)
    omega
  have hbit : (w.toNat - 2 ^ lo * (w.toNat / 2 ^ lo % 2 ^ len)).testBit (lo + i) = false := by
    rw [Nat.add_comm lo i, Nat.testBit_add, hsub, Nat.testBit_two_pow_mul]
    simp [Nat.not_le.mpr h]
  simp [putFld, fld, BitVec.getLsbD_ofNat, Nat.mul_comm _ (2 ^ lo), hbit]

/-! ## A channel domain comes on (R49, R278) -/

/-- The pattern bits of the lanes of `c`, cleared in a channel of its pier. -/
def Channel.patCleared (c : Chan) (x : Channel) : Channel :=
  x.modTrg fun t => { t with pat := putFld t.pat (2 * posOf c) 2 0 }

theorem Channel.pat_patCleared (c : Chan) (x : Channel) {i : Nat} (hi : i < 2) :
    (x.patCleared c).trg.pat.getLsbD (2 * posOf c + i) = false := getLsbD_putFld_zero _ _ _ _ hi

theorem State.clearPattern_eq (s : State) (c : Chan) : s.clearPattern c =
    s.forChans (allChans.filter fun d => pierOf d == pierOf c) fun d z => z.modChan d (Channel.patCleared c) := rfl

theorem State.clearPattern_raised (s : State) (c : Chan) : ChansRaised s (s.clearPattern c) := by
  rw [clearPattern_eq]
  exact s.forChans_modChan_raised _ _

theorem State.chan_clearPattern (s : State) (b c : Chan) :
    (s.clearPattern c).chan b = if pierOf b = pierOf c then (s.chan b).patCleared c else s.chan b := by
  rw [clearPattern_eq, State.chan_forChans_modChan (nodup_allChans.filter _)]
  refine if_congr ?_ rfl rfl
  rw [List.mem_filter, and_iff_right (mem_allChans b), beq_iff_eq]

/-- The channel's images reload from now on. -/
def State.reloading (s : State) (c : Chan) : State :=
  ((s.clearPattern c).startReload c s.now).modChan c fun x => x.modEng fun e => { e with fresh := true }

section Reloading
variable (s : State) (c : Chan)

theorem State.reloading_raised : ChansRaised s (s.reloading c) :=
  ((s.clearPattern_raised c).modChan c _).modChan c _

theorem State.chan_reloading_self : (s.reloading c).chan c = ((s.chan c).patCleared c).modEng fun e =>
    { e with reloadDue := some ((s.clearPattern c).mcAt ((s.clearPattern c).mc s.now + reloadMc)), fresh := true } := by
  have hclear : (s.clearPattern c).chan c = (s.chan c).patCleared c :=
    (s.chan_clearPattern c c).trans (if_pos rfl)
  rw [State.reloading, State.startReload, State.modChan, State.modChan, State.chan_setChan_self, State.chan_setChan_self,
    hclear]
  rfl

theorem State.chan_reloading_ne {b : Chan} (h : b ≠ c) : (s.reloading c).chan b = (s.clearPattern c).chan b :=
  (State.chan_setChan_ne _ _ _ _ h).trans (State.chan_setChan_ne _ _ _ _ h)

/-- Whichever channel of the pier has the pattern unit, the bits of the lanes are cleared in it. -/
theorem State.pat_reloading {b : Chan} (h : pierOf b = pierOf c) {i : Nat} (hi : i < 2) :
    ((s.reloading c).chan b).trg.pat.getLsbD (2 * posOf c + i) = false := by
  by_cases hb : b = c
  · rw [hb, s.chan_reloading_self]
    exact (s.chan c).pat_patCleared c hi
  · rw [s.chan_reloading_ne c hb, s.chan_clearPattern, if_pos h]
    exact (s.chan b).pat_patCleared c hi

theorem State.reloadDue_reloading : ((s.reloading c).chan c).eng.reloadDue = s.reloadNow := by
  have hclear : (s.clearPattern c).clocks = s.clocks := by rw [(s.clearPattern_raised c).whole]
  rw [s.chan_reloading_self, State.reloadNow, State.mcAt, State.mcAt, State.mc, State.mc, hclear]
  rfl

end Reloading

/-- Without shedding a channel that comes on stays on. -/
theorem State.chanComesOn_eq {s : State} {c : Chan} (h : s.thm.shedFrom = none) :
    s.chanComesOn c = (s.reloading c).settleIdle c := by
  have hheld : ((s.reloading c).settleIdle c).shedHeld (chDom c) = false := by
    rw [State.shedHeld, ((s.reloading c).settleIdle_frame c).2.1, (s.reloading_raised c).whole, h]
    rfl
  exact if_neg (Bool.eq_false_iff.mp hheld)

/-- What a channel that comes on, and waits for no switch-off, is like. -/
theorem State.settleIdle_reloading {s : State} {c : Chan} (hshed : (s.chan c).shedPend = false)
    (hpdoff : (s.chan c).pdoffPend = false) :
    let t := (s.reloading c).settleIdle c
    t.pwr = s.pwr ∧ (t.chan c).eng.reloadDue = s.reloadNow ∧ (t.chan c).armed = (s.chan c).armed ∧
      ∀ b i, pierOf b = pierOf c → i < 2 → (t.chan b).trg.pat.getLsbD (2 * posOf c + i) = false := by
  have hself := s.chan_reloading_self c
  have hraised := s.reloading_raised c
  have hkept : IdleKept (s.reloading c) ((s.reloading c).settleIdle c) :=
    State.settleIdle_kept (by rw [hself]; exact hshed) (by rw [hself]; exact hpdoff)
  have hdue : (s.reloading c).reloadNow = s.reloadNow := by
    rw [hraised.whole]
    rfl
  refine ⟨hkept.pwr.trans hraised.pwr, ?_, ?_, fun b i hb hi => ?_⟩
  · rw [← hdue]
    exact (hkept.chans c).reload (by rw [hdue, s.reloadDue_reloading])
  · rw [(hkept.chans c).armed, hself]
    rfl
  · rw [(hkept.chans b).trg]
    exact s.pat_reloading c hb hi

/-! ## A pier domain comes on (R151) -/

@[simp] theorem SynthSt.refillNext_cfg (x : SynthSt) (t : Instant) : (x.refillNext t).cfg = x.cfg := by
  unfold SynthSt.refillNext
  dsimp only
  split <;> rfl

/-- A refill is always on its way to a release. -/
theorem SynthSt.refillNext_hop (x : SynthSt) (t : Instant) : (x.refillNext t).hop.isSome = true := by
  cases h : x.refill with
  | nil =>
    obtain ⟨-, g, hbegun, -⟩ := x.refillNext_nil t h
    rw [hbegun.hop]
    rfl
  | cons i rest =>
    obtain ⟨g, hop, -⟩ := x.refillNext_cons t h
    rw [hop]
    rfl

theorem SynthSt.powerOn_hop (x : SynthSt) (c : SweepCfg) (t : Instant) : (x.powerOn c t).hop.isSome = true :=
  SynthSt.refillNext_hop _ t

theorem SynthSt.powerOn_cfg (x : SynthSt) (c : SweepCfg) (t : Instant) : (x.powerOn c t).cfg = c.cfg :=
  SynthSt.refillNext_cfg _ t

@[simp] theorem State.setSynth_synth (s : State) (k : Synth) : s.setSynth k (s.synth k) = s := by
  simp [State.setSynth, State.synth]

@[simp] theorem State.setSynth_setSynth (s : State) (k : Synth) (x y : SynthSt) :
    (s.setSynth k x).setSynth k y = s.setSynth k y := by
  simp [State.setSynth]

/-- A start event notes at most when the ramp starts. -/
theorem State.rampEvent_eq (s : State) (k : Fin 8) (sel : Nat) (t : Instant) :
    ∃ due, s.rampEvent k sel t = s.setSynth (swOf k) { s.synth (swOf k) with startDue := due } := by
  unfold State.rampEvent
  dsimp only
  split
  · exact ⟨_, rfl⟩
  · exact ⟨(s.synth (swOf k)).startDue, (s.setSynth_synth (swOf k)).symm⟩

theorem State.rampEvent_setSynth (s : State) (k : Fin 8) (x : SynthSt) (sel : Nat) (t : Instant) :
    ∃ due, (s.setSynth (swOf k) x).rampEvent k sel t = s.setSynth (swOf k) { x with startDue := due } := by
  obtain ⟨due, h⟩ := (s.setSynth (swOf k) x).rampEvent_eq k sel t
  rw [State.setSynth_setSynth, State.synth_setSynth_self] at h
  exact ⟨due, h⟩

/-- A pier that comes on is a matter of its synthesizer, which takes the configuration and begins to refill. -/
theorem State.pierComesOn_eq (s : State) (k : Pier) :
    ∃ x, s.pierComesOn k = s.setSynth (swOf k) x ∧
      ∀ cfg, s.sweepOf k = some cfg → x.cfg = cfg.cfg ∧ x.hop.isSome = true := by
  unfold State.pierComesOn
  cases hcfg : s.sweepOf k with
  | none => exact ⟨s.synth (swOf k), (s.setSynth_synth _).symm, nofun⟩
  | some cfg =>
    have hcfg := (s.synth (swOf k)).powerOn_cfg cfg s.now
    have hhop := (s.synth (swOf k)).powerOn_hop cfg s.now
    dsimp only
    split
    · refine ⟨_, rfl, ?_⟩
      rintro _ ⟨rfl⟩
      exact ⟨hcfg, hhop⟩
    · obtain ⟨due, hdue⟩ := s.rampEvent_setSynth k
        { (s.synth (swOf k)).powerOn cfg s.now with inForce := s.nvm.powerForme } 2 s.now
      refine ⟨_, hdue, ?_⟩
      rintro _ ⟨rfl⟩
      exact ⟨hcfg, hhop⟩

/-! ## DOMAIN_ON -/

/-- The domain is on at mc 15,000 of its switch-on. -/
def State.switchedOn (s : State) (d : Dom) (n : Nat) : State := (s.at_ (s.mcAt (n + 15000))).setDom d .on

section On
variable {s : State} {n : Nat}

theorem State.domainOn_chan {c : Chan} (h : s.dom (chDom c) = .turningOn n) (hshed : s.thm.shedFrom = none) :
    s.domainOn (chDom c) = (((s.switchedOn (chDom c) n).reloading c).settleIdle c).pumpOn := by
  have hc : (chDom c).val < 96 := c.isLt
  have hcomes : (s.switchedOn (chDom c) n).chanComesOn c = ((s.switchedOn (chDom c) n).reloading c).settleIdle c :=
    State.chanComesOn_eq hshed
  rw [← hcomes, State.domainOn, h]
  simp only [hc, dif_pos]
  rfl

theorem State.domainOn_pier {k : Pier} (h : s.dom (pierDom k) = .turningOn n) :
    s.domainOn (pierDom k) = ((s.switchedOn (pierDom k) n).pierComesOn k).pumpOn := by
  rw [State.domainOn, h]
  simp only [not_pierDom_lt, dif_neg, not_false_eq_true, pier_of_pierDom]
  rfl

end On

/-! ## DOMAIN_OFF (R531, Table 17.4) -/

/-- The domain is off at mc 1,024 of its switch-off. -/
def State.switchedOff (s : State) (d : Dom) (n : Nat) : State := (s.at_ (s.mcAt (n + 1024))).setDom d .off

theorem State.domainOff_eq {s : State} {d : Dom} {n : Nat} (h : s.dom d = .turningOff n) :
    s.domainOff d = ((s.switchedOff d n).afterOff d).shedCheck := by
  rw [State.domainOff, h]
  rfl

/-- The list of cycles without those that are over. -/
def State.uncycled (s : State) (f : Nat → Bool) : State := s.modPwr fun p => { p with cycle := p.cycle.filter fun i => !f i }

theorem State.afterOff_chan (s : State) (c : Chan) : s.afterOff (chDom c) =
    if s.pwr.cycle.contains (96 + (pierOf c).val) then s.pierOffCheck (pierOf c)
    else if s.pwr.cycle.contains c.val then (s.uncycled (· == c.val)).requestOn [chDom c]
    else s.pierOffCheck (pierOf c) := by
  have hc : (chDom c).val < 96 := c.isLt
  unfold State.afterOff
  simp only [hc, dif_pos]
  rfl

/-- The synthesizer of a pier that is off is off with it. -/
def State.synthOff (s : State) (k : Pier) : State := s.modSynth (swOf k) (·.powerOff .highZ)

/-- A pier that has gone off: its synthesizer is off, and where a cycle waits for it, it is requested again. -/
theorem State.afterOff_pier (s : State) (k : Pier) :
    ∃ doms cycle, s.afterOff (pierDom k) =
        { s.synthOff k with pwr := { s.pwr with doms := doms, cycle := cycle } } ∧
      (s.pwr.cycle = [] → doms = s.pwr.doms) := by
  unfold State.afterOff
  simp only [not_pierDom_lt, dif_neg, not_false_eq_true, pier_of_pierDom]
  split
  case isTrue hcycle =>
    obtain ⟨doms, cycle, h⟩ := State.requestOn_eq ((s.synthOff k).uncycled fun i => i == (pierDom k).val ||
      ((chansOf k).filter fun c => s.pwr.cycle.contains c.val).any (·.val == i))
      (pierDom k :: ((chansOf k).filter fun c => s.pwr.cycle.contains c.val).map chDom)
    refine ⟨doms, cycle, h, fun hnil => ?_⟩
    rw [State.modSynth, State.setSynth_pwr, hnil] at hcycle
    exact absurd hcycle nofun
  case isFalse => exact ⟨_, _, rfl, fun _ => rfl⟩

/-- Time and mode stay with whatever a domain that has gone off does next. -/
theorem State.afterOff_frame (s : State) (d : Dom) :
    (s.afterOff d).now = s.now ∧ (s.afterOff d).pwr.mode = s.pwr.mode := by
  have hpier : ∀ k, (s.pierOffCheck k).now = s.now ∧ (s.pierOffCheck k).pwr.mode = s.pwr.mode := fun k => by
    rw [s.pierOffCheck_eq k]
    exact ⟨rfl, rfl⟩
  obtain ⟨c, rfl⟩ | ⟨k, rfl⟩ := dom_cases d
  · rw [s.afterOff_chan c]
    split
    · exact hpier _
    · split
      · obtain ⟨_, _, h⟩ := (s.uncycled (· == c.val)).requestOn_eq [chDom c]
        rw [h]
        exact ⟨rfl, rfl⟩
      · exact hpier _
  · obtain ⟨_, _, h, -⟩ := s.afterOff_pier k
    rw [h]
    exact ⟨rfl, rfl⟩

/-- Where no cycle waits, a domain that has gone off stays off. -/
theorem State.dom_afterOff {s : State} (d : Dom) (h : s.pwr.cycle = []) : (s.afterOff d).dom d = s.dom d := by
  obtain ⟨c, rfl⟩ | ⟨k, rfl⟩ := dom_cases d
  · rw [State.afterOff_chan, h]
    exact s.dom_pierOffCheck_ne _ (chDom_ne_pierDom c _)
  · obtain ⟨doms, cycle, hoff, hdoms⟩ := s.afterOff_pier k
    rw [hoff, State.dom]
    dsimp only
    rw [hdoms h]
    rfl

/-- The synthesizer of a pier that has gone off is off, its output high-impedance (Table 15.7). -/
theorem State.synth_afterOff (s : State) (k : Pier) :
    (s.afterOff (pierDom k)).synth (swOf k) = (s.synth (swOf k)).powerOff .highZ := by
  obtain ⟨_, _, h, -⟩ := s.afterOff_pier k
  rw [h]
  exact State.synth_setSynth_self _ _ _

/-- A channel domain that waits for a switch-off cycle is requested again, and the cycle is over. -/
theorem State.requestOn_cycled {s : State} {c : Chan} (hoff : s.dom (chDom c) = .off) (hshed : s.thm.shedFrom = none) :
    let t := (s.uncycled (· == c.val)).requestOn [chDom c]
    (t.dom (chDom c) = .waiting ∨ ∃ k, t.dom (chDom c) = .turningOn k) ∧ c.val ∉ t.pwr.cycle := by
  have hask : (s.uncycled (· == c.val)).askOn (chDom c) = (s.uncycled (· == c.val)).setDom (chDom c) .waiting :=
    State.askOn_of_off hoff hshed
  have hpump : (s.uncycled (· == c.val)).requestOn [chDom c] =
      ((s.uncycled (· == c.val)).setDom (chDom c) .waiting).pumpOn := congrArg State.pumpOn hask
  rw [hpump]
  refine ⟨State.dom_pumpOn_of_waiting (State.dom_setDom_self _ _ _), ?_⟩
  rw [State.pumpOn_cycle]
  simp [State.setDom, State.uncycled, State.modPwr]

end Sys2Proof.Machine
end

section
/-! SUPPORT. The statement about dips and power domains. -/

namespace Sys2Proof.Proofs

open Sys2Proof.Machine Sys2Proof.Safety

section Domains
variable {s : State} {n : Nat}

/-- A power-good check that fails: the domain switches off, and is reported as PD_FAIL (R533). -/
theorem powerGoodCheck_fails {d : Dom} (hmode : s.pwr.mode ≠ .reset) (hd : s.dom d = .turningOn n) :
    ∃ t, exec (.powerGoodCheck d false) s = .next t ∧ t.now = max s.now (s.mcAt (n + 10000)) ∧
      t.dom d = .turningOff (n + 10000) ∧ t.pwr.pdFail = BitVec.ofNat 7 d.val ∧ Reported t 194 0x01 ∧ t.chans = s.chans ∧
      t.mem = s.mem ∧ ∀ e, s.dom e ≠ .waiting → e ≠ d → t.dom e = s.dom e := by
  have hraised := (ChansRaised.refl (s.powerFailed d n).pumpOn).raise 194 0x01
  have hdom : ∀ e, State.dom _ e = (s.powerFailed d n).pumpOn.dom e := hraised.dom
  have hself : (s.powerFailed d n).dom d = .turningOff (n + 10000) := State.dom_setDom_self _ _ _
  refine ⟨_, (exec_powerGoodCheck s d false).trans (congrArg _ (State.powerGood_bad hd)), ?_, ?_, ?_, ?_, ?_, ?_,
    fun e he hne => ?_⟩
  · rw [hraised.now, State.pumpOn_now]
    rfl
  · rw [hdom, State.dom_pumpOn_of_ne (by rw [hself]; nofun), hself]
  · rw [hraised.pwr, State.pumpOn_pdFail]
    rfl
  · exact State.reported_raise _ 194 _ (by rw [State.pumpOn_mode]; exact hmode) (by decide)
  · rw [State.raise_chans, State.pumpOn_chans]
    rfl
  · rw [hraised.whole, (State.pumpOn_switchOns _).whole]
    rfl
  · have hsame : (s.powerFailed d n).dom e = s.dom e := (s.at_ _).dom_setDom_ne d e _ hne
    rw [hdom, State.dom_pumpOn_of_ne (hsame ▸ he), hsame]

/-- A channel domain that comes on (R49, R278). -/
theorem domainOn_chan {c : Chan} (hd : s.dom (chDom c) = .turningOn n) (hshed : s.thm.shedFrom = none) :
    let t := s.domainOn (chDom c)
    t.now = max s.now (s.mcAt (n + 15000)) ∧ t.pwr.mode = s.pwr.mode ∧
      ((s.chan c).shedPend = false → (s.chan c).pdoffPend = false →
        t.dom (chDom c) = .on ∧ (t.chan c).eng.reloadDue = some (s.mcAt (s.mc t.now + 2048)) ∧
        (t.chan c).armed = (s.chan c).armed ∧
        ∀ b i, pierOf b = pierOf c → i < 2 → (t.chan b).trg.pat.getLsbD (2 * posOf c + i) = false) ∧
      ∀ e, s.dom e ≠ .waiting → e ≠ chDom c → t.dom e = s.dom e := by
  intro t
  have ht : t = _ := State.domainOn_chan hd hshed
  have hraised := (s.switchedOn (chDom c) n).reloading_raised c
  obtain ⟨hnow, -, hmode, hdoms⟩ := ((s.switchedOn (chDom c) n).reloading c).settleIdle_frame c
  rw [ht, State.pumpOn_now, State.pumpOn_mode]
  refine ⟨hnow.trans hraised.now, ?_, fun hs hp => ?_, fun e he hne => ?_⟩
  · rw [hmode, hraised.pwr]
    rfl
  · obtain ⟨hpwr, hreload, harmed, hpat⟩ := State.settleIdle_reloading (s := s.switchedOn (chDom c) n) hs hp
    have hon : (((s.switchedOn (chDom c) n).reloading c).settleIdle c).dom (chDom c) = .on := by
      rw [State.dom, hpwr]
      exact State.dom_setDom_self _ _ _
    simp only [State.chan_pumpOn]
    refine ⟨?_, ?_, harmed, hpat⟩
    · rw [State.dom_pumpOn_of_ne (by rw [hon]; nofun), hon]
    · rw [hreload, hnow, hraised.now]
      rfl
  · have hsame : (((s.switchedOn (chDom c) n).reloading c).settleIdle c).dom e = s.dom e := by
      rw [hdoms e hne, hraised.dom]
      exact (s.at_ _).dom_setDom_ne _ e _ hne
    rw [State.dom_pumpOn_of_ne (hsame ▸ he), hsame]

/-- A pier domain that comes on takes the configuration of the forme in force, and its store refills (R151). -/
theorem domainOn_pier {k : Pier} (hd : s.dom (pierDom k) = .turningOn n) :
    let t := s.domainOn (pierDom k)
    t.now = max s.now (s.mcAt (n + 15000)) ∧ t.pwr.mode = s.pwr.mode ∧
      (∀ f cfg, s.nvm.powerForme.bind s.formeOf = some f → f.sweeps[k.val]? = some cfg →
        t.dom (pierDom k) = .on ∧ (t.synth (swOf k)).cfg = cfg.cfg ∧ (t.synth (swOf k)).hop.isSome = true ∧
        t.chans = s.chans) ∧
      ∀ e, s.dom e ≠ .waiting → e ≠ pierDom k → t.dom e = s.dom e := by
  intro t
  obtain ⟨x, hx, hcfg⟩ := (s.switchedOn (pierDom k) n).pierComesOn_eq k
  have ht : t = ((s.switchedOn (pierDom k) n).setSynth (swOf k) x).pumpOn := by
    rw [← hx]
    exact State.domainOn_pier hd
  have hon : ((s.switchedOn (pierDom k) n).setSynth (swOf k) x).dom (pierDom k) = .on := State.dom_setDom_self _ _ _
  rw [ht, State.pumpOn_now, State.pumpOn_mode, State.pumpOn_chans, State.synth_pumpOn, State.synth_setSynth_self]
  refine ⟨rfl, rfl, fun f cfg hf hsweep => ?_, fun e he hne => ?_⟩
  · have hof : (s.switchedOn (pierDom k) n).sweepOf k = some cfg := by
      have hbind : (s.switchedOn (pierDom k) n).sweepOf k = (s.nvm.powerForme.bind s.formeOf).bind fun f => f.sweeps[k.val]? :=
        rfl
      rw [hbind, hf]
      exact hsweep
    obtain ⟨hc, hh⟩ := hcfg cfg hof
    exact ⟨by rw [State.dom_pumpOn_of_ne (by rw [hon]; nofun), hon], hc, hh, rfl⟩
  · have hsame : ((s.switchedOn (pierDom k) n).setSynth (swOf k) x).dom e = s.dom e := (s.at_ _).dom_setDom_ne _ e _ hne
    rw [State.dom_pumpOn_of_ne (hsame ▸ he), hsame]

/-- The end of a switch-off, and what follows it (R531, Table 17.4). -/
theorem domainOff_completes {d : Dom} (hd : s.dom d = .turningOff n) :
    ∃ t, exec (.domainOff d) s = .next t ∧
      t.now = max s.now (s.mcAt (n + 1024)) ∧ t.mem = s.mem ∧ t.pwr.mode = s.pwr.mode ∧
      (s.pwr.cycle = [] → t.dom d = .off) ∧
      (∀ (k : Pier), d = pierDom k → (t.synth (swOf k)).out = .highZ ∧ (t.synth (swOf k)).rampOn = false) ∧
      (∀ c, d = chDom c → d.val ∈ s.pwr.cycle → 96 + (pierOf c).val ∉ s.pwr.cycle → s.thm.shedFrom = none →
        (t.dom d = .waiting ∨ ∃ k, t.dom d = .turningOn k) ∧ d.val ∉ t.pwr.cycle) := by
  have hoff : (s.switchedOff d n).dom d = .off := State.dom_setDom_self _ _ _
  obtain ⟨hnow, hmode⟩ := (s.switchedOff d n).afterOff_frame d
  obtain ⟨-, -, hmem, -⟩ := s.domainOff_keeps d
  rw [State.domainOff_eq hd] at hmem
  refine ⟨_, (exec_domainOff s d).trans (congrArg _ (State.domainOff_eq hd)), ?_, hmem, ?_, fun hnil => ?_, fun k hk => ?_,
    fun c hc hin hpier hfrom => ?_⟩
  · rw [State.shedCheck_now]
    exact hnow
  · rw [State.shedCheck_pwr]
    exact hmode
  · rw [State.dom_shedCheck]
    exact (State.dom_afterOff (s := s.switchedOff d n) d hnil).trans hoff
  · subst hk
    rw [State.synth_shedCheck, State.synth_afterOff]
    exact ⟨rfl, rfl⟩
  · subst hc
    have hnot : ¬(s.switchedOff (chDom c) n).pwr.cycle.contains (96 + (pierOf c).val) = true :=
      fun h => hpier (List.contains_iff_mem.mp h)
    have hyes : (s.switchedOff (chDom c) n).pwr.cycle.contains c.val = true := List.contains_iff_mem.mpr hin
    rw [State.dom_shedCheck, State.shedCheck_pwr, State.afterOff_chan, if_neg hnot, if_pos hyes]
    exact State.requestOn_cycled hoff hfrom

end Domains

/-- Settles O49: dips by the rails and the trims that they touch, domains by what each end of a switching sequence starts. -/
theorem dipsAndDomains : Obligations.DipsAndDomains := by
  intro s a hmode now m
  refine ⟨fun rail => dipStart_completes a rail hmode, dipEnd_completes a, long_completes hmode,
    fun rail => ov_completes a rail hmode, fun d n hd => ⟨?_, powerGoodCheck_fails hmode hd⟩, fun d n hd hshed => ?_,
    fun d n => domainOff_completes⟩
  · exact (exec_powerGoodCheck s d true).trans (congrArg _ (State.powerGood_good hd))
  · refine ⟨_, exec_domainOn s d, ?_⟩
    obtain ⟨-, -, hmem, -⟩ := s.domainOn_keeps d
    obtain ⟨c, rfl⟩ | ⟨k, rfl⟩ := dom_cases d
    · obtain ⟨hnow, hm, hchan, hothers⟩ := domainOn_chan hd hshed
      refine ⟨hnow, hmem, hm, fun b hb => ?_, fun k _ _ hk => absurd hk (chDom_ne_pierDom c k), hothers⟩
      obtain rfl := chDom_injective hb
      exact hchan
    · obtain ⟨hnow, hm, hpier, hothers⟩ := domainOn_pier hd
      refine ⟨hnow, hmem, hm, fun c hc => absurd hc.symm (chDom_ne_pierDom c k), fun j f cfg hj => ?_, hothers⟩
      obtain rfl := pierDom_injective hj
      exact hpier f cfg

end Sys2Proof.Proofs
end

section
/-! SUPPORT. What a one-word access of the management port does (R547, R568): its STATUS, the write that it lets through,
and the report of one that the life cycle refuses. -/

namespace Sys2Proof.Machine

open Sys2Proof.Safety

/-! ## Causes that a management unit raises -/

theorem State.recog_eq (s : State) (r : Recog) (hmode : s.pwr.mode ≠ .reset) :
    s.recog r = { s with truss := { s.truss with incoming := s.truss.incoming ++ [r] } } := if_neg hmode

/-- A raised cause adds to the conditions on their way to the truss and touches nothing else. -/
theorem State.raiseM_eq (s : State) (n : Source) (c : Byte) :
    ∃ l, s.raiseM n c = { s with truss := { s.truss with incoming := s.truss.incoming ++ l } } := by
  by_cases hc : c = 0
  · exact ⟨[], (if_pos hc).trans (by rw [List.append_nil])⟩
  · by_cases hmode : s.pwr.mode = .reset
    · exact ⟨[], (if_neg hc).trans ((if_pos hmode).trans (by rw [List.append_nil]))⟩
    · exact ⟨_, (if_neg hc).trans (s.recog_eq _ hmode)⟩

@[simp] theorem State.raiseM_msp (s : State) (n : Source) (c : Byte) : (s.raiseM n c).msp = s.msp := by
  obtain ⟨_, h⟩ := s.raiseM_eq n c
  rw [h]

/-- Outside RESET a raised cause is on its way to its source. -/
theorem State.reported_raiseM (s : State) (n : Source) (c : Byte) (hmode : s.pwr.mode ≠ .reset) (hc : c ≠ 0) :
    Reported (s.raiseM n c) n.val c := by
  have h : s.raiseM n c = _ := (if_neg hc).trans (s.recog_eq _ hmode)
  rw [h]
  exact ⟨_, List.mem_append_right _ List.mem_cons_self, rfl, BitVec.and_self⟩

/-! ## The blocks of the truss, the life cycle and the tests (Table 16.5) -/

section Blocks
variable {off : Nat}

theorem blockOf_trs (h : off < 0x100000) : blockOf (0xB00000 + off) = (.trs, off) := by
  unfold blockOf
  simp (disch := omega) only [if_neg, if_pos, Nat.add_sub_cancel_left]

theorem blockOf_lcy (h : off < 0x80000) : blockOf (0xD80000 + off) = (.lcy, off) := by
  unfold blockOf
  simp (disch := omega) only [if_neg, if_pos, Nat.add_sub_cancel_left]

theorem blockOf_tst (h : off < 0x100000) : blockOf (0xE00000 + off) = (.tst, off) := by
  unfold blockOf
  simp (disch := omega) only [if_neg, if_pos, Nat.add_sub_cancel_left]

/-- Only a word of the MSP block belongs to the mailbox. -/
theorem isMailbox_of_block {a : Nat} {b : Block} (h : blockOf a = (b, off)) (hb : b ≠ .msp) : isMailbox a = false := by
  unfold isMailbox
  rw [h]
  cases b with
  | msp => exact absurd rfl hb
  | _ => rfl

theorem isMakerWindow_outside {a : Nat} (h : a < 0xD81000 ∨ 0xE00000 ≤ a) : isMakerWindow a = false := by
  rw [isMakerWindow, Bool.and_eq_false_iff, decide_eq_false_iff_not, decide_eq_false_iff_not]
  omega

theorem isCdata_outside {a : Nat} (h : a < 0xD80040 ∨ 0xD80060 ≤ a) : isCdata a = false := by
  rw [isCdata, Bool.and_eq_false_iff, decide_eq_false_iff_not, decide_eq_false_iff_not]
  omega

/-! ## The words that are read -/

@[simp] theorem isSome_orRead (a b : Option Word) : (orRead a b).isSome = (a.isSome || b.isSome) := by
  cases a <;> rfl

variable (s : State)

/-- A defined word of a block that is open to the host is accessed. -/
theorem State.accessStatus_open {a : Nat} {b : Block} (hblock : blockOf a = (b, off)) (hcmp : ∀ c, b ≠ .cmp c)
    (htst : (b == .tst && !s.lcy.tstOpen) = false) (hmaker : (isMakerWindow a && !s.lcy.makerOpen) = false)
    (hcdata : isCdata a = false) (hreg : (s.reg a).isSome = true) : s.accessStatus a = 0 := by
  have hdefined : (s.reg a).isNone = false := Option.isNone_eq_false_iff.mpr hreg
  simp only [State.accessStatus, hblock, htst, hmaker, hcdata, hdefined, Bool.false_and, Bool.or_self]
  cases b with
  | cmp c => exact absurd rfl (hcmp c)
  | _ => rfl

/-- A word of the TST block is refused where the life cycle closes the block. -/
theorem State.accessStatus_tst_closed (h : off < 0x100000) (hclosed : s.lcy.tstOpen = false) :
    s.accessStatus (0xE00000 + off) = 4 := by
  simp [State.accessStatus, blockOf_tst h, hclosed]

theorem State.accessStatus_maker_closed {a : Nat} (ha : isMakerWindow a = true) (hclosed : s.lcy.makerOpen = false) :
    s.accessStatus a = 4 := by
  simp [State.accessStatus, ha, hclosed]

end Blocks

/-! ## One access -/

/-- The mailbox after an access that has ended with a STATUS. -/
def Msp.ended (m : Msp) (st : Byte) : Msp := { m with last := st }

section Access
variable {s : State} (t : Instant) {a : Nat} (w : Word)

theorem State.served_at (hs : Served s) : (s.at_ t).served = true := by
  obtain ⟨hmode, hshut⟩ := hs
  simp [State.served, hmode, hshut]

/-- A word that is let through is written, and STATUS is 0. -/
theorem State.access_granted (hs : Served s) (hmail : isMailbox a = false) (hst : (s.at_ t).accessStatus a = 0) :
    s.access t a w = ((s.at_ t).writeReg a w true).modMsp (·.ended 0) := by
  unfold State.access State.writeOne
  simp [State.served_at t hs, hmail, hst]
  rfl

/-- A word that the life cycle refuses is reported, and STATUS is 4. -/
theorem State.access_denied (hs : Served s) (hst : (s.at_ t).accessStatus a = 4) :
    s.access t a w = ((s.at_ t).reportDenied a 4).modMsp (·.ended 4) := by
  unfold State.access State.writeOne
  simp [State.served_at t hs, hst]
  rfl

theorem endedWith_ended {z : State} {st : Byte} (h : z.msp = s.msp) : EndedWith s (z.modMsp (·.ended st)) st where
  last := rfl
  cmd := congrArg (·.cmd) h
  arg := congrArg (·.arg) h
  buf := congrArg (·.buf) h

/-- An access whose only effect is a report to a source. -/
theorem State.access_reported {n : Source} {c : Byte} (hs : Served s) (hc : c ≠ 0) (hst : (s.at_ t).accessStatus a = 4)
    (hrep : (s.at_ t).reportDenied a 4 = (s.at_ t).raiseM n c) :
    OnlyMailbox s (s.access t a w) ∧ EndedWith s (s.access t a w) 4 ∧ Reported (s.access t a w) n.val c := by
  rw [State.access_denied t w hs hst, hrep]
  refine ⟨?_, endedWith_ended ((s.at_ t).raiseM_msp n c), (s.at_ t).reported_raiseM n c hs.1 hc⟩
  obtain ⟨l, hl⟩ := (s.at_ t).raiseM_eq n c
  rw [hl]
  rfl

end Access

end Sys2Proof.Machine
end

section
/-! SUPPORT. What a write of a truss register changes: the fields of a word, acknowledgements (R583) and source
configuration (R585, Tables 17.10, 17.11). -/

namespace Sys2Proof.Machine

open Sys2Proof.Safety

/-! ## Fields of a word -/

section Fields
variable {n : Nat} (w : BitVec n) (lo len v : Nat)

theorem testBit_fld (i : Nat) : (fld w lo len).testBit i = (decide (i < len) && w.getLsbD (lo + i)) := by
  rw [fld, Nat.testBit_mod_two_pow, Nat.testBit_div_two_pow, BitVec.testBit_toNat, Nat.add_comm]

theorem fld_lt : fld w lo len < 2 ^ len := Nat.mod_lt _ (Nat.two_pow_pos len)

/-- A written field in parts: what stands above it, what is written, what stands below it. -/
theorem toNat_sub_fld_add : w.toNat - fld w lo len * 2 ^ lo + v % 2 ^ len * 2 ^ lo =
    2 ^ lo * (2 ^ len * (w.toNat / 2 ^ lo / 2 ^ len) + v % 2 ^ len) + w.toNat % 2 ^ lo := by
  have hlow := Nat.div_add_mod w.toNat (2 ^ lo)
  have hhigh := Nat.div_add_mod (w.toNat / 2 ^ lo) (2 ^ len)
  have hw : 2 ^ lo * (2 ^ len * (w.toNat / 2 ^ lo / 2 ^ len)) + fld w lo len * 2 ^ lo + w.toNat % 2 ^ lo = w.toNat := by
    rw [fld, Nat.mul_comm _ (2 ^ lo), ← Nat.mul_add, hhigh, hlow]
  rw [Nat.mul_add, Nat.mul_comm (v % 2 ^ len)]
  omega

/-- A bit of a word with one field written. -/
theorem getLsbD_putFld (h : lo + len ≤ n) (i : Nat) :
    (putFld w lo len v).getLsbD i = if lo ≤ i ∧ i < lo + len then v.testBit (i - lo) else w.getLsbD i := by
  have hlow : w.toNat % 2 ^ lo < 2 ^ lo := Nat.mod_lt _ (Nat.two_pow_pos lo)
  have hmid : v % 2 ^ len < 2 ^ len := Nat.mod_lt _ (Nat.two_pow_pos len)
  rw [putFld, BitVec.getLsbD_ofNat, toNat_sub_fld_add, Nat.testBit_two_pow_mul_add _ hlow,
    Nat.testBit_two_pow_mul_add _ hmid]
  by_cases hlo : i < lo
  · have hi : i < n := by omega
    simp [hlo, hi, Nat.not_le.mpr hlo, Nat.testBit_mod_two_pow, BitVec.testBit_toNat]
  · by_cases hhi : i < lo + len
    · have hi : i < n := by omega
      have hin : i - lo < len := by omega
      simp [hlo, hi, hhi, hin, Nat.not_lt.mp hlo, Nat.testBit_mod_two_pow]
    · have hout : ¬ i - lo < len := by omega
      simp only [hlo, hhi, hout, if_false, and_false, Nat.testBit_div_two_pow, BitVec.testBit_toNat]
      rw [show i - lo - len + len + lo = i by omega]
      cases hb : w.getLsbD i with
      | false => rw [Bool.and_false]
      | true => rw [decide_eq_true (BitVec.lt_of_getLsbD hb), Bool.and_true]

variable {w lo len v}

theorem fld_putFld_self (h : lo + len ≤ n) : fld (putFld w lo len v) lo len = v % 2 ^ len := by
  refine Nat.eq_of_testBit_eq fun i => ?_
  rw [testBit_fld, getLsbD_putFld w lo len v h, Nat.testBit_mod_two_pow]
  by_cases hi : i < len <;> simp [hi]

/-- A field above the one that is written stands. -/
theorem fld_putFld_above {lo' len' : Nat} (h : lo + len ≤ n) (hle : lo + len ≤ lo') :
    fld (putFld w lo len v) lo' len' = fld w lo' len' := by
  refine Nat.eq_of_testBit_eq fun i => ?_
  have hout : ¬ lo' + i < lo + len := by omega
  rw [testBit_fld, testBit_fld, getLsbD_putFld w lo len v h, if_neg fun hc => hout hc.2]

end Fields

/-! ## Acknowledgements -/

/-- A source once acknowledged: PEND, LEVEL and the timer end where it was pending. -/
def SrcSt.acked (x : SrcSt) : SrcSt :=
  if x.pend then { x with pend := false, level := 0, timer := none, entReal := none, entInj := none, entTimer := none } else x

theorem SrcSt.acked_pend (x : SrcSt) : x.acked.pend = false := by
  unfold SrcSt.acked
  split
  · rfl
  · exact Bool.eq_false_iff.mpr ‹_›

theorem SrcSt.acked_acked (x : SrcSt) : x.acked.acked = x.acked :=
  if_neg (Bool.eq_false_iff.mp x.acked_pend)

theorem SrcSt.acked_latch (x : SrcSt) : x.acked.latch = x.latch := by unfold SrcSt.acked; split <;> rfl
theorem SrcSt.acked_cfg (x : SrcSt) : x.acked.cfg = x.cfg := by unfold SrcSt.acked; split <;> rfl

/-- Nothing changes but the sources and the edges from which nINT shows their pending state. -/
def OnlySources (s t : State) : Prop :=
  t = { s with truss := { s.truss with srcs := t.truss.srcs, nintAt := t.truss.nintAt, nintPrev := t.truss.nintPrev } }

theorem OnlySources.trans {s t u : State} (h : OnlySources s t) (g : OnlySources t u) : OnlySources s u := by
  refine Eq.trans g ?_
  rw [h]

theorem OnlySources.hist {s t : State} (h : OnlySources s t) : t.truss.hist = s.truss.hist := by rw [h]
theorem OnlySources.chans {s t : State} (h : OnlySources s t) : t.chans = s.chans := by rw [h]
theorem OnlySources.msp {s t : State} (h : OnlySources s t) : t.msp = s.msp := by rw [h]

section Ack
variable (s : State) (m : Nat) (n : Source)

theorem State.setSrc_onlySources (x : SrcSt) : OnlySources s (s.setSrc n x) := rfl

theorem State.nintFrom_onlySources (was : Bool) : OnlySources s (s.nintFrom was m) := by
  unfold State.nintFrom
  split <;> rfl

theorem State.src_nintFrom (was : Bool) : (s.nintFrom was m).src n = s.src n := by
  unfold State.nintFrom
  split <;> rfl

theorem State.ackPend_onlySources : OnlySources s (s.ackPend m n) := by
  unfold State.ackPend
  split
  · exact (s.setSrc_onlySources n _).trans (State.nintFrom_onlySources _ m _)
  · rfl

theorem State.src_ackPend_self : (State.ackPend m s n).src n = (s.src n).acked := by
  unfold State.ackPend SrcSt.acked State.ackSrc
  split
  · rw [State.src_nintFrom, State.src_setSrc_self]
  · rfl

theorem State.src_ackPend_ne {k : Source} (h : k ≠ n) : (State.ackPend m s n).src k = s.src k := by
  unfold State.ackPend State.ackSrc
  split
  · rw [State.src_nintFrom, State.src_setSrc_ne _ _ _ _ h]
  · rfl

/-- The acknowledgement of a list of sources. -/
theorem State.ackPends_onlySources (l : List Source) : OnlySources s (l.foldl (State.ackPend m) s) :=
  List.foldlRecOn l _ rfl fun z h k _ => h.trans (State.ackPend_onlySources z m k)

theorem State.src_ackPends (l : List Source) :
    (l.foldl (State.ackPend m) s).src n = if n ∈ l then (s.src n).acked else s.src n := by
  induction l generalizing s with
  | nil => rfl
  | cons k l ih =>
    rw [List.foldl_cons, ih]
    by_cases hk : n = k
    · subst hk
      rw [State.src_ackPend_self, SrcSt.acked_acked, ite_self, if_pos List.mem_cons_self]
    · rw [State.src_ackPend_ne s m k hk]
      simp [hk]

/-- TRS.ACK written with a source's number and bit 31 clear acknowledges that source. -/
theorem State.writeAck_source : s.writeAck (BitVec.ofNat 32 n.val) = State.ackPend s.nowMc s n := by
  have hn : n.val < 256 := n.isLt
  have hbit : (BitVec.ofNat 32 n.val).getLsbD 31 = false := by
    rw [BitVec.getLsbD_ofNat, Nat.testBit_lt_two_pow (by omega), Bool.and_false]
  have hfld : fld (BitVec.ofNat 32 n.val) 0 8 = n.val := by
    rw [fld, BitVec.toNat_ofNat]
    omega
  have hsrc : (Fin.ofNat 256 n.val : Source) = n := Fin.ext (Nat.mod_eq_of_lt hn)
  rw [State.writeAck, hbit, hfld, hsrc]
  rfl

/-- TRS.ACK written with bit 31 acknowledges every source. -/
theorem State.writeAck_all : OnlySources s (s.writeAck 0x80000000) ∧ ∀ k, (s.writeAck 0x80000000).src k = (s.src k).acked := by
  have hall : s.writeAck 0x80000000 = (List.finRange 256).foldl (State.ackPend s.nowMc) s := if_pos (by decide)
  rw [hall]
  refine ⟨s.ackPends_onlySources _ _, fun k => ?_⟩
  rw [State.src_ackPends, if_pos (List.mem_finRange k)]

end Ack

/-! ## Source configuration -/

/-- TRS.SRC_CFG of a source once `w` is written: bit 28 reads zero, and REACT stays where 6 or 7 is written. -/
def SrcSt.cfgOf (x : SrcSt) (w : Word) : Word :=
  if 6 ≤ fld w 29 3 then putFld (putFld w 28 1 0) 29 3 x.react else putFld w 28 1 0

theorem State.writeSrcCfg_eq (s : State) (n : Source) (w : Word) :
    s.writeSrcCfg n w = s.setSrc n { s.src n with cfg := (s.src n).cfgOf w } := rfl

section SrcCfg
variable (x : SrcSt) (w : Word)

theorem SrcSt.getLsbD_cfgOf {b : Nat} (h : b < 29) : (x.cfgOf w).getLsbD b = (putFld w 28 1 0).getLsbD b := by
  have hout : ¬ 29 ≤ b := by omega
  unfold SrcSt.cfgOf
  split
  · rw [getLsbD_putFld _ 29 3 x.react (by decide), if_neg fun hc => hout hc.1]
  · rfl

theorem SrcSt.cfgOf_reserved : (x.cfgOf w).getLsbD 28 = false := by
  rw [x.getLsbD_cfgOf w (by decide)]
  exact getLsbD_putFld_zero w 28 1 0 (by decide)

theorem SrcSt.cfgOf_low {b : Nat} (h : b < 28) : (x.cfgOf w).getLsbD b = w.getLsbD b := by
  have hout : ¬ 28 ≤ b := by omega
  rw [x.getLsbD_cfgOf w (by omega), getLsbD_putFld w 28 1 0 (by decide), if_neg fun hc => hout hc.1]

theorem SrcSt.cfgOf_react : fld (x.cfgOf w) 29 3 = if 6 ≤ fld w 29 3 then fld x.cfg 29 3 else fld w 29 3 := by
  unfold SrcSt.cfgOf
  split
  · rw [fld_putFld_self (by decide)]
    exact Nat.mod_eq_of_lt (fld_lt x.cfg 29 3)
  · exact fld_putFld_above (by decide) (by decide)

end SrcCfg

/-! ## The words of the block that are written -/

/-- Entry `i` of an array of words, and an offset in it. -/
theorem inArray_entry {base stride n i o : Nat} (hi : i < n) (ho : o < stride) :
    inArray (base + (stride * i + o)) base stride n = some (i, o) := by
  have hlt : stride * i + o < stride * n := by
    calc stride * i + o < stride * (i + 1) := by rw [Nat.mul_succ]; omega
      _ ≤ stride * n := Nat.mul_le_mul_left stride hi
  have hpos : 0 < stride := by omega
  rw [inArray, if_pos (by omega), Nat.add_sub_cancel_left, Nat.mul_add_div hpos, Nat.mul_add_mod,
    Nat.div_eq_of_lt ho, Nat.mod_eq_of_lt ho, Nat.add_zero]

section SrcCfgWord
variable (s : State) (n : Source)

theorem blockOf_srcCfg : blockOf (0xB01000 + 16 * n.val) = (.trs, 0x1000 + (16 * n.val + 0)) := by
  have hn : n.val < 256 := n.isLt
  rw [show 0xB01000 + 16 * n.val = 0xB00000 + (0x1000 + (16 * n.val + 0)) by omega]
  exact blockOf_trs (by omega)

/-- TRS.SRC_CFG of a source is a word of the truss. -/
theorem State.reg_srcCfg : (s.reg (0xB01000 + 16 * n.val)).isSome = true := by
  have haddr : (0xB01000 + 16 * n.val) % 4 = 0 := by omega
  have hentry := inArray_entry (base := 0x1000) (stride := 16) n.isLt (Nat.zero_lt_succ 15)
  simp only [State.reg, haddr, blockOf_srcCfg, State.trsReg, hentry]
  simp [wordsAt]

theorem State.writeReg_srcCfg (w : Word) (issue : Bool) :
    s.writeReg (0xB01000 + 16 * n.val) w issue = s.writeSrcCfg n w := by
  have hentry := inArray_entry (base := 0x1000) (stride := 16) n.isLt (Nat.zero_lt_succ 15)
  have hsrc : (Fin.ofNat 256 n.val : Source) = n := Fin.ext (Nat.mod_eq_of_lt n.isLt)
  simp (disch := omega) only [State.writeReg, blockOf_srcCfg, State.writeTrs, if_neg, hentry, hsrc]

theorem State.accessStatus_srcCfg : s.accessStatus (0xB01000 + 16 * n.val) = 0 := by
  have hn : n.val < 256 := n.isLt
  exact s.accessStatus_open (blockOf_srcCfg n) (fun _ => nofun) rfl
    (by rw [isMakerWindow_outside (by omega), Bool.false_and]) (isCdata_outside (by omega)) (s.reg_srcCfg n)

end SrcCfgWord

/-! ## The accesses -/

section Accesses
variable {s : State} (hs : Served s) (a : Instant)
include hs

/-- A write of TRS.ACK. -/
theorem State.access_ack (w : Word) : s.access a 0xB00000 w = ((s.at_ a).writeAck w).modMsp (·.ended 0) :=
  State.access_granted a w hs rfl
    ((s.at_ a).accessStatus_open (blockOf_trs (off := 0) (by decide)) (fun _ => nofun) rfl rfl rfl rfl)

theorem State.access_srcCfg (n : Source) (w : Word) :
    s.access a (0xB01000 + 16 * n.val) w = ((s.at_ a).writeSrcCfg n w).modMsp (·.ended 0) := by
  rw [← (s.at_ a).writeReg_srcCfg n w true]
  exact State.access_granted a w hs (isMailbox_of_block (blockOf_srcCfg n) nofun) ((s.at_ a).accessStatus_srcCfg n)

end Accesses

end Sys2Proof.Machine
end

section
/-! SUPPORT. What a write of the TST block and of the maker window changes (R592 to R598, R635, Tables 17.12, 19.8), and
the refusal where the life cycle closes them. -/

namespace Sys2Proof.Machine

open Sys2Proof.Safety

/-! ## The control register -/

/-- A stall that starts touches the stall pulses and the conditions on their way to the truss. -/
theorem State.stallStart_eq (s : State) : ∃ stalling next l, s.stallStart =
    { s with tst := { s.tst with stalling := stalling, stallNext := next },
             truss := { s.truss with incoming := s.truss.incoming ++ l } } := by
  have hnone : s = { s with truss := { s.truss with incoming := s.truss.incoming ++ [] } } := by rw [List.append_nil]
  unfold State.stallStart State.pulseBegin
  dsimp only
  split
  · split
    · obtain ⟨l, hl⟩ := State.raise_eq (s.modTst fun t => { t with
        stalling := true, stallNext := s.stallCycle s.tst.stallTarget.toNat s.now + t.stallLen.toNat }) 136 0x01
      exact ⟨_, _, l, hl⟩
    · exact ⟨true, _, [], by rw [List.append_nil]; rfl⟩
  · exact ⟨s.tst.stalling, s.tst.stallNext, [], hnone⟩

/-- TST.CTL as ON and CREACT are written. -/
theorem testOn_bits (creact : Bool) : (pack 32 [bitAt 31 true, bitAt 0 creact] : Word).getLsbD 31 = true ∧
    (pack 32 [bitAt 31 true, bitAt 0 creact] : Word).getLsbD 0 = creact := by
  cases creact <;> decide

theorem testOff_bits (creact : Bool) : (pack 32 [bitAt 0 creact] : Word).getLsbD 31 = false ∧
    (pack 32 [bitAt 0 creact] : Word).getLsbD 0 = creact := by
  cases creact <;> decide

/-- The facilities are on, with CREACT as given. -/
def State.testsOn (s : State) (creact : Bool) : State := s.modTst fun t => { t with creact := creact, on := true }

section Control
variable {s : State} {w : Word}

/-- ON is set: the facilities come on, TST_ON is raised, and a stall that is enabled starts. -/
theorem State.writeTstCtl_on (hmode : s.pwr.mode ≠ .reset) (hw : w.getLsbD 31 = true) (hon : s.tst.on = false) :
    ∃ stalling next l, s.writeTstCtl w =
      { s with tst := { s.tst with on := true, creact := w.getLsbD 0, stalling := stalling, stallNext := next },
               truss := { s.truss with incoming := s.truss.incoming ++ l } } ∧ Reported (s.writeTstCtl w) 240 0x01 := by
  have hctl : s.writeTstCtl w = ((s.testsOn (w.getLsbD 0)).raiseM 240 0x01).stallStart := by
    simp only [State.writeTstCtl, hw, hon]
    rfl
  obtain ⟨r, hr, hcond⟩ := (s.testsOn (w.getLsbD 0)).reported_raiseM 240 0x01 hmode (by decide)
  obtain ⟨l, hraise⟩ := (s.testsOn (w.getLsbD 0)).raiseM_eq 240 0x01
  obtain ⟨stalling, next, k, hstall⟩ := ((s.testsOn (w.getLsbD 0)).raiseM 240 0x01).stallStart_eq
  refine ⟨stalling, next, l ++ k, ?_, r, ?_, hcond⟩
  · rw [hctl, hstall, hraise, ← List.append_assoc]
    rfl
  · rw [hctl, hstall]
    exact List.mem_append_left k hr

/-- ON is cleared: every facility ends, and TST_OFF is raised. -/
theorem State.writeTstCtl_off (hmode : s.pwr.mode ≠ .reset) (hw : w.getLsbD 31 = false) (hc : w.getLsbD 0 = s.tst.creact)
    (hon : s.tst.on = true) :
    (∃ l, s.writeTstCtl w = { s with tst := s.tst.endAll, truss := { s.truss with incoming := s.truss.incoming ++ l } }) ∧
      Reported (s.writeTstCtl w) 240 0x02 := by
  have hctl : s.writeTstCtl w = (s.modTst Tst.endAll).raiseM 240 0x02 := by
    simp only [State.writeTstCtl, hw, hc, hon]
    rfl
  rw [hctl]
  exact ⟨State.raiseM_eq _ _ _, State.reported_raiseM _ _ _ hmode (by decide)⟩

end Control

/-! ## Assertions (R595) -/

/-- The condition that an assertion `w` queues at mc `m`. -/
def assertion (m : Nat) (w : Word) : Recog :=
  { mc := m, src := Fin.ofNat 256 (fld w 8 8), causes := w.extractLsb' 0 8, real := false, inj := true,
    contain := w.getLsbD 31 }

theorem assertion_src (m : Nat) (w : Word) : (assertion m w).src.val = fld w 8 8 := Nat.mod_eq_of_lt (fld_lt w 8 8)

section Assert
variable {s : State} {w : Word}

/-- While ON = 1 an assertion with a cause queues its condition; one for a source other than the timebase's does no more. -/
theorem State.writeAssert_on (hmode : s.pwr.mode ≠ .reset) (hon : s.tst.on = true) (hcauses : w.extractLsb' 0 8 ≠ 0)
    (hsrc : fld w 8 8 ≠ 153) : s.writeAssert w =
      { s with truss := { s.truss with incoming := s.truss.incoming ++ [assertion s.nowMc w] } } := by
  have hne : ¬ (Fin.ofNat 256 (fld w 8 8) : Source).val = 153 := fun h => hsrc ((assertion_src 0 w).symm.trans h)
  have hacts : (s.tst.on && w.extractLsb' 0 8 != 0) = true := by rw [hon, bne_iff_ne.mpr hcauses]; rfl
  unfold State.writeAssert
  dsimp only
  rw [if_pos hacts, if_neg hne]
  exact s.recog_eq _ hmode

theorem State.writeAssert_idle (h : s.tst.on = false ∨ w.extractLsb' 0 8 = 0) : s.writeAssert w = s := by
  have hnot : (s.tst.on && w.extractLsb' 0 8 != 0) = false := by
    obtain hoff | hnone := h
    · rw [hoff]; rfl
    · rw [hnone]; exact Bool.and_false _
  unfold State.writeAssert
  dsimp only
  rw [hnot]
  exact if_neg Bool.false_ne_true

end Assert

/-! ## The accesses -/

section Accesses
variable {s : State} (hs : Served s) (a : Instant) (w : Word)
include hs

/-- An access to a word of the TST block that the life cycle refuses is reported to source 240 (R592). -/
theorem State.access_tst_closed {off : Nat} (h : off < 0x100000) (hclosed : s.lcy.tstOpen = false) :
    OnlyMailbox s (s.access a (0xE00000 + off) w) ∧ EndedWith s (s.access a (0xE00000 + off) w) 4 ∧
      Reported (s.access a (0xE00000 + off) w) 240 0x04 := by
  refine State.access_reported (n := 240) (c := 0x04) a w hs (by decide) ((s.at_ a).accessStatus_tst_closed h hclosed) ?_
  unfold State.reportDenied
  rw [blockOf_tst h]
  rfl

/-- A word of the TST block is written where the life cycle opens the block. -/
theorem State.access_tst_open {off : Nat} (h : off < 0x100000) (hopen : s.lcy.tstOpen = true)
    (hreg : ((s.at_ a).reg (0xE00000 + off)).isSome = true) :
    s.access a (0xE00000 + off) w = ((s.at_ a).writeTst off w).modMsp (·.ended 0) := by
  have hblock := blockOf_tst h
  have hwrite : (s.at_ a).writeReg (0xE00000 + off) w true = (s.at_ a).writeTst off w := by
    unfold State.writeReg
    rw [hblock]
  rw [← hwrite]
  exact State.access_granted a w hs (isMailbox_of_block hblock nofun)
    ((s.at_ a).accessStatus_open hblock (fun _ => nofun) (by rw [State.at_lcy, hopen]; rfl)
      (by rw [isMakerWindow_outside (by omega), Bool.false_and]) (isCdata_outside (by omega)) hreg)

/-- A write of TST.CTL. -/
theorem State.access_tstCtl (hopen : s.lcy.tstOpen = true) :
    s.access a 0xE00000 w = ((s.at_ a).writeTstCtl w).modMsp (·.ended 0) :=
  State.access_tst_open hs a w (off := 0) (by decide) hopen rfl

/-- A write of TST.ASSERT. -/
theorem State.access_assert (hopen : s.lcy.tstOpen = true) :
    s.access a 0xE00004 w = ((s.at_ a).writeAssert w).modMsp (·.ended 0) :=
  State.access_tst_open hs a w (off := 4) (by decide) hopen rfl

/-- A write of TST.ECC_INJ. -/
theorem State.access_eccInj (hopen : s.lcy.tstOpen = true) :
    s.access a 0xE00040 w = ((s.at_ a).writeEccInj w).modMsp (·.ended 0) :=
  State.access_tst_open hs a w (off := 0x40) (by decide) hopen rfl

/-- An access to MK_PROG that the life cycle refuses is reported to source 225 (R635). -/
theorem State.access_makerProg_closed (hclosed : s.lcy.makerOpen = false) :
    OnlyMailbox s (s.access a 0xD81008 w) ∧ EndedWith s (s.access a 0xD81008 w) 4 ∧
      Reported (s.access a 0xD81008 w) 225 0x01 :=
  State.access_reported (n := 225) (c := 0x01) a w hs (by decide) ((s.at_ a).accessStatus_maker_closed rfl hclosed) rfl

theorem State.access_makerProg_open (hopen : s.lcy.makerOpen = true) :
    s.access a 0xD81008 w = ((s.at_ a).makerProg w).modMsp (·.ended 0) :=
  State.access_granted a w hs rfl ((s.at_ a).accessStatus_open (blockOf_lcy (off := 0x1008) (by decide)) (fun _ => nofun)
    rfl (by rw [State.at_lcy, hopen]; rfl) rfl rfl)

end Accesses

end Sys2Proof.Machine
end

section
/-! SUPPORT. The statement about the truss's registers, the TST block and the maker window, register by register. -/

namespace Sys2Proof.Proofs

open Sys2Proof.Machine Sys2Proof.Safety

section Registers
variable {s : State} (hs : Served s) (a : Instant)
include hs

/-! ## Acknowledgements and source configuration -/

/-- ACK: the source alone is acknowledged (R583). -/
theorem ack_completes (n : Source) : ∃ t, exec (.ack a n) s = .next t ∧ EndedWith s t 0 ∧ (∀ m, m ≠ n → t.src m = s.src m) ∧
    t.truss.hist = s.truss.hist ∧ t.chans = s.chans ∧ t.src n = (s.src n).acked := by
  have hexec : exec (.ack a n) s = .next (s.access a 0xB00000 (BitVec.ofNat 32 n.val)) := rfl
  rw [State.access_ack hs, State.writeAck_source] at hexec
  have honly := (s.at_ a).ackPend_onlySources (s.at_ a).nowMc n
  exact ⟨_, hexec, endedWith_ended honly.msp, fun m hm => (s.at_ a).src_ackPend_ne _ n hm, honly.hist, honly.chans,
    (s.at_ a).src_ackPend_self _ n⟩

/-- ACK_ALL: every source is acknowledged. -/
theorem ackAll_completes : ∃ t, exec (.ackAll a) s = .next t ∧ EndedWith s t 0 ∧ t.truss.hist = s.truss.hist ∧
    ∀ n, t.src n = (s.src n).acked := by
  have hexec : exec (.ackAll a) s = .next (s.access a 0xB00000 0x80000000) := rfl
  rw [State.access_ack hs] at hexec
  obtain ⟨honly, hsrc⟩ := (s.at_ a).writeAck_all
  generalize (s.at_ a).writeAck 0x80000000 = z at hexec honly hsrc
  exact ⟨_, hexec, endedWith_ended honly.msp, honly.hist, hsrc⟩

/-- SRC_CFG_WRITE: the source's configuration alone is written (R585, Table 17.10). -/
theorem srcCfgWrite_completes (n : Source) (w : Word) : ∃ t, exec (.srcCfgWrite a n w) s = .next t ∧ EndedWith s t 0 ∧
    (∀ m, m ≠ n → t.src m = s.src m) ∧ t.src n = { s.src n with cfg := (s.src n).cfgOf w } := by
  have hexec : exec (.srcCfgWrite a n w) s = .next (s.access a (0xB01000 + 16 * n.val) w) := rfl
  rw [State.access_srcCfg hs, State.writeSrcCfg_eq] at hexec
  exact ⟨_, hexec, endedWith_ended rfl, fun m hm => (s.at_ a).src_setSrc_ne n m _ hm,
    (s.at_ a).src_setSrc_self n _⟩

/-! ## The TST block -/

/-- TST_ON: the facilities come on, and source 240 learns of it (R594). -/
theorem tstOn_completes (hopen : s.lcy.tstOpen = true) (creact : Bool) (hon : s.tst.on = false) :
    ∃ t, exec (.tstOn a creact) s = .next t ∧ EndedWith s t 0 ∧ t.tst.on = true ∧ t.tst.creact = creact ∧
      t.tst.xdly = s.tst.xdly ∧ t.tst.tovr = s.tst.tovr ∧ Reported t 240 0x01 ∧ t.chans = s.chans := by
  obtain ⟨hset, hcreact⟩ := testOn_bits creact
  obtain ⟨_, _, l, hctl, hreport⟩ := State.writeTstCtl_on (s := s.at_ a) hs.1 hset hon
  rw [hctl] at hreport
  have hexec : exec (.tstOn a creact) s = .next (s.access a 0xE00000 (pack 32 [bitAt 31 true, bitAt 0 creact])) := rfl
  rw [State.access_tstCtl hs a _ hopen, hctl] at hexec
  exact ⟨_, hexec, endedWith_ended rfl, rfl, hcreact, rfl, rfl, hreport, rfl⟩

/-- TST_OFF: every facility ends, and source 240 learns of it (R594). -/
theorem tstOff_completes (hopen : s.lcy.tstOpen = true) (hon : s.tst.on = true) :
    ∃ t, exec (.tstOff a) s = .next t ∧ EndedWith s t 0 ∧
      t.tst = { s.tst with on := false, stalling := false, eccArm := false } ∧ Reported t 240 0x02 ∧ t.chans = s.chans := by
  obtain ⟨hclear, hcreact⟩ := testOff_bits s.tst.creact
  obtain ⟨⟨l, hctl⟩, hreport⟩ := State.writeTstCtl_off (s := s.at_ a) hs.1 hclear hcreact hon
  rw [hctl] at hreport
  have hexec : exec (.tstOff a) s = .next (s.access a 0xE00000 (pack 32 [bitAt 0 s.tst.creact])) := rfl
  rw [State.access_tstCtl hs a _ hopen, hctl] at hexec
  exact ⟨_, hexec, endedWith_ended rfl, rfl, hreport, rfl⟩

/-- ASSERT while ON = 1: the condition is queued as injected (R595). -/
theorem assert_completes (hopen : s.lcy.tstOpen = true) (w : Word) (hon : s.tst.on = true)
    (hcauses : w.extractLsb' 0 8 ≠ 0) (hsrc : fld w 8 8 ≠ 153) :
    ∃ t, exec (.assert a w) s = .next t ∧ EndedWith s t 0 ∧ t.chans = s.chans ∧
      t.truss = { s.truss with incoming := s.truss.incoming ++ [assertion (s.at_ a).nowMc w] } := by
  have hexec : exec (.assert a w) s = .next (s.access a 0xE00004 w) := rfl
  rw [State.access_assert hs a w hopen, State.writeAssert_on (s := s.at_ a) hs.1 hon hcauses hsrc] at hexec
  exact ⟨_, hexec, endedWith_ended rfl, rfl, rfl⟩

/-- ASSERT with ON = 0 or with no cause does nothing. -/
theorem assert_idle (hopen : s.lcy.tstOpen = true) (w : Word) (h : s.tst.on = false ∨ w.extractLsb' 0 8 = 0) :
    ∃ t, exec (.assert a w) s = .next t ∧ t = { s with now := t.now, msp := t.msp } := by
  have hexec : exec (.assert a w) s = .next (s.access a 0xE00004 w) := rfl
  rw [State.access_assert hs a w hopen, State.writeAssert_idle (s := s.at_ a) h] at hexec
  exact ⟨_, hexec, rfl⟩

/-- ECC_INJ takes its fields (R598). -/
theorem eccInj_completes (hopen : s.lcy.tstOpen = true) (w : Word) :
    ∃ t, exec (.eccInj a w) s = .next t ∧ EndedWith s t 0 ∧ t = { s with now := t.now, msp := t.msp, tst := { s.tst with
      eccArm := w.getLsbD 31, eccMode := w.extractLsb' 28 2, eccPort := w.extractLsb' 24 4, eccB := w.extractLsb' 0 8 } } :=
  ⟨_, congrArg Host.Outcome.next (State.access_eccInj hs a w hopen), endedWith_ended rfl, rfl⟩

/-- Each row of the TST block is refused where the life cycle closes the block (R592). -/
theorem tst_denied (hclosed : s.lcy.tstOpen = false) (w : Word) {i : Instr}
    (hi : i = .tstOn a false ∨ i = .tstOff a ∨ i = .assert a w ∨ i = .eccInj a w) :
    ∃ t, exec i s = .next t ∧ OnlyMailbox s t ∧ EndedWith s t 4 ∧ Reported t 240 0x04 := by
  have hden := fun v {off : Nat} (h : off < 0x100000) => State.access_tst_closed hs a v h hclosed
  obtain rfl | rfl | rfl | rfl := hi
  · exact ⟨_, rfl, hden _ (off := 0) (by decide)⟩
  · exact ⟨_, rfl, hden _ (off := 0) (by decide)⟩
  · exact ⟨_, rfl, hden w (off := 4) (by decide)⟩
  · exact ⟨_, rfl, hden w (off := 0x40) (by decide)⟩

/-! ## The maker window -/

/-- MK_PROG starts the blowing of the selected word (R635, Table 19.8). -/
theorem mkProg_completes (hopen : s.lcy.makerOpen = true) (w : Word)
    (hsel : s.lcy.mkSel.toNat < 4 ∨ 32 ≤ s.lcy.mkSel.toNat ∧ s.lcy.mkSel.toNat < 64) (hseq : s.lcy.seq = none)
    (hdip : s.pwr.dipActive = false) :
    ∃ t q, exec (.mkProg a w) s = .next t ∧ EndedWith s t 0 ∧ t.lcy = { s.lcy with seq := some q } ∧
      q.words = [(s.lcy.mkSel.toNat, w)] ∧ q.start = (s.at_ a).nowMc ∧ q.byAdvance = false := by
  have hexec : exec (.mkProg a w) s = .next (s.access a 0xD81008 w) := rfl
  have hgoes : (s.lcy.mkSel.toNat < 4 ∨ 32 ≤ s.lcy.mkSel.toNat ∧ s.lcy.mkSel.toNat < 64) ∧ s.lcy.seq.isNone ∧
      !s.pwr.dipActive := ⟨hsel, by rw [hseq]; rfl, by rw [hdip]; rfl⟩
  have hprog : (s.at_ a).makerProg w = _ := if_pos hgoes
  rw [State.access_makerProg_open hs a w hopen, hprog] at hexec
  exact ⟨_, _, hexec, endedWith_ended rfl, rfl, rfl, rfl, rfl⟩

end Registers

/-- Settles O30: the truss's registers by the source that is written, the TST block and the maker window by what the life
cycle opens. -/
theorem trussAndTestRegisters : Obligations.TrussAndTestRegisters := by
  refine ⟨fun s a hs => ⟨ack_completes hs a, ?_, fun n w => ?_⟩, fun s a w hs => ⟨fun h _ => tst_denied hs a h w,
    fun hopen => ⟨tstOn_completes hs a hopen, tstOff_completes hs a hopen, fun hon hcauses hsrc => ?_,
      assert_idle hs a hopen w, eccInj_completes hs a hopen w⟩,
    fun hclosed => ⟨_, rfl, State.access_makerProg_closed hs a w hclosed⟩,
    fun hopen => mkProg_completes hs a hopen w⟩⟩
  · obtain ⟨t, hexec, hended, hhist, hsrc⟩ := ackAll_completes hs a
    refine ⟨t, hexec, hended, hhist, fun n => ?_⟩
    rw [hsrc n]
    exact ⟨SrcSt.acked_pend _, SrcSt.acked_latch _, SrcSt.acked_cfg _,
      fun hpend => by rw [SrcSt.acked, if_pos hpend]; exact ⟨rfl, rfl⟩⟩
  · obtain ⟨t, hexec, hended, hothers, hsrc⟩ := srcCfgWrite_completes hs a n w
    refine ⟨t, hexec, hended, hothers, ?_⟩
    rw [hsrc]
    exact ⟨rfl, SrcSt.cfgOf_reserved _ w, fun b => SrcSt.cfgOf_low _ w, SrcSt.cfgOf_react _ w⟩
  · obtain ⟨t, hexec, hended, hchans, htruss⟩ := assert_completes hs a hopen w hon hcauses hsrc
    exact ⟨t, _, hexec, hended, htruss, rfl, assertion_src _ w, rfl, rfl, rfl, rfl, hchans⟩

end Sys2Proof.Proofs
end

section
/-! SUPPORT. The fields of the engine's instruction words (R217, Tables 6.1 to 6.5): what the encoder puts into a word is
what the decoder reads from it. -/

namespace Sys2Proof.Machine

/-! ## Fields of joined words -/

/-- Bits that lie wholly in the low part of two joined words, or wholly in the high part. -/
theorem extractLsb'_append_low {m n : Nat} (x : BitVec m) (y : BitVec n) {lo len : Nat} (h : lo + len ≤ n) :
    (x ++ y).extractLsb' lo len = y.extractLsb' lo len := by
  refine BitVec.eq_of_getLsbD_eq fun i hi => ?_
  have hlow : lo + i < n := by omega
  simp [BitVec.getLsbD_append, hi, hlow]

theorem extractLsb'_append_high {m n : Nat} (x : BitVec m) (y : BitVec n) {lo len : Nat} (h : n ≤ lo) :
    (x ++ y).extractLsb' lo len = x.extractLsb' (lo - n) len := by
  refine BitVec.eq_of_getLsbD_eq fun i hi => ?_
  have hhigh : ¬ lo + i < n := by omega
  simp [BitVec.getLsbD_append, hi, hhigh, Nat.sub_add_comm h]

theorem extractLsb'_cast {m n : Nat} (h : m = n) (x : BitVec m) (lo len : Nat) :
    (x.cast h).extractLsb' lo len = x.extractLsb' lo len := by
  subst h
  rfl

/-! ## Fields of the four formats -/

section Formats
variable (op : BitVec 6) (d a b k : BitVec 4) (imm : BitVec 18) (h : BitVec 2) (v : BitVec 16) (off : BitVec 12) {n : Nat}

theorem fmtR_joined : fmtR op d a b k = (op ++ d ++ a ++ b ++ k ++ 0#10).cast rfl := rfl
theorem fmtI_joined : fmtI op d a imm = (op ++ d ++ a ++ imm).cast rfl := rfl
theorem fmtU_joined : fmtU op d h v = (op ++ d ++ h ++ 0#4 ++ v).cast rfl := rfl
theorem fmtB_joined : fmtB op k off = (op ++ k ++ 0#10 ++ off).cast rfl := rfl

@[simp] theorem fmtR_op : (fmtR op d a b k).extractLsb' 26 6 = op := by
  rw [fmtR_joined, extractLsb'_cast]
  simp (disch := omega) only [extractLsb'_append_high]
  exact BitVec.extractLsb'_eq_self
@[simp] theorem fmtR_d (hn : n ≤ 4) : (fmtR op d a b k).extractLsb' 22 n = d.extractLsb' 0 n := by
  rw [fmtR_joined, extractLsb'_cast]
  simp (disch := omega) only [extractLsb'_append_high, extractLsb'_append_low]
@[simp] theorem fmtR_a (hn : n ≤ 4) : (fmtR op d a b k).extractLsb' 18 n = a.extractLsb' 0 n := by
  rw [fmtR_joined, extractLsb'_cast]
  simp (disch := omega) only [extractLsb'_append_high, extractLsb'_append_low]
@[simp] theorem fmtR_b (hn : n ≤ 4) : (fmtR op d a b k).extractLsb' 14 n = b.extractLsb' 0 n := by
  rw [fmtR_joined, extractLsb'_cast]
  simp (disch := omega) only [extractLsb'_append_high, extractLsb'_append_low]
@[simp] theorem fmtR_cond : (fmtR op d a b k).extractLsb' 10 4 = k := by
  rw [fmtR_joined, extractLsb'_cast]
  simp (disch := omega) only [extractLsb'_append_high, extractLsb'_append_low]
  exact BitVec.extractLsb'_eq_self

@[simp] theorem fmtI_op : (fmtI op d a imm).extractLsb' 26 6 = op := by
  rw [fmtI_joined, extractLsb'_cast]
  simp (disch := omega) only [extractLsb'_append_high]
  exact BitVec.extractLsb'_eq_self
@[simp] theorem fmtI_d (hn : n ≤ 4) : (fmtI op d a imm).extractLsb' 22 n = d.extractLsb' 0 n := by
  rw [fmtI_joined, extractLsb'_cast]
  simp (disch := omega) only [extractLsb'_append_high, extractLsb'_append_low]
@[simp] theorem fmtI_a (hn : n ≤ 4) : (fmtI op d a imm).extractLsb' 18 n = a.extractLsb' 0 n := by
  rw [fmtI_joined, extractLsb'_cast]
  simp (disch := omega) only [extractLsb'_append_high, extractLsb'_append_low]
@[simp] theorem fmtI_imm (hn : n ≤ 18) : (fmtI op d a imm).extractLsb' 0 n = imm.extractLsb' 0 n := by
  rw [fmtI_joined, extractLsb'_cast]
  simp (disch := omega) only [extractLsb'_append_low]

@[simp] theorem fmtU_op : (fmtU op d h v).extractLsb' 26 6 = op := by
  rw [fmtU_joined, extractLsb'_cast]
  simp (disch := omega) only [extractLsb'_append_high]
  exact BitVec.extractLsb'_eq_self
@[simp] theorem fmtU_d (hn : n ≤ 4) : (fmtU op d h v).extractLsb' 22 n = d.extractLsb' 0 n := by
  rw [fmtU_joined, extractLsb'_cast]
  simp (disch := omega) only [extractLsb'_append_high, extractLsb'_append_low]
@[simp] theorem fmtU_h : (fmtU op d h v).extractLsb' 20 2 = h := by
  rw [fmtU_joined, extractLsb'_cast]
  simp (disch := omega) only [extractLsb'_append_high, extractLsb'_append_low]
  exact BitVec.extractLsb'_eq_self
@[simp] theorem fmtU_imm : (fmtU op d h v).extractLsb' 0 16 = v := by
  rw [fmtU_joined, extractLsb'_cast]
  simp (disch := omega) only [extractLsb'_append_low]
  exact BitVec.extractLsb'_eq_self

@[simp] theorem fmtB_op : (fmtB op k off).extractLsb' 26 6 = op := by
  rw [fmtB_joined, extractLsb'_cast]
  simp (disch := omega) only [extractLsb'_append_high]
  exact BitVec.extractLsb'_eq_self
@[simp] theorem fmtB_cond : (fmtB op k off).extractLsb' 22 4 = k := by
  rw [fmtB_joined, extractLsb'_cast]
  simp (disch := omega) only [extractLsb'_append_high, extractLsb'_append_low]
  exact BitVec.extractLsb'_eq_self
@[simp] theorem fmtB_off : (fmtB op k off).extractLsb' 0 12 = off := by
  rw [fmtB_joined, extractLsb'_cast]
  simp (disch := omega) only [extractLsb'_append_low]
  exact BitVec.extractLsb'_eq_self

end Formats

/-- An accumulator number is the low bits of its field. -/
@[simp] theorem extractLsb'_accF (a : BitVec 3) : (accF a).extractLsb' 0 3 = a := by
  rw [← BitVec.setWidth_eq_extractLsb' (by decide), accF, BitVec.setWidth_setWidth_of_le _ (by decide), BitVec.setWidth_eq]

/-- The low bits of a count that is kept in a wider field. -/
@[simp] theorem extractLsb'_setWidth_self {m n : Nat} (x : BitVec m) (h : m ≤ n) : (x.setWidth n).extractLsb' 0 m = x := by
  rw [← BitVec.setWidth_eq_extractLsb' h, BitVec.setWidth_setWidth_of_le _ h, BitVec.setWidth_eq]

/-! ## Words of instructions -/

/-- The word of an instruction reads as that instruction, in the engine of some channel. -/
theorem readEng_encodeEng {i : Instr} {w : Word} (h : encodeEng i = some w) : ∃ c, readEng c w = some i := by
  cases i with
  | engineNop c | add c | sub c | and c | or c | xor c | shl c | shr c | sar c | mul c | min c | max c | minu c | maxu c
  | cmp c | addi c | andi c | ori c | xori c | shli c | shri c | sari c | cmpi c | movz c | movk c | csel c | clz c | evt c
  | evtp c | emit c | trig c | ld c | st c | lda c | sta c | stop c | halt c | gset c | sysr c | aclr c | amovs c | aaddg c
  | muls c | mulu c | macs c | macu c | aadd c | asub c | ashr c | ashl c | aget c | asat c | anorm c | acmp c | apack c
  | divu c | divs c | b c | bl c | jr c =>
    obtain rfl := Option.some.inj h
    exact ⟨c, by simp [readEng, readEng.cond']⟩
  | _ => exact absurd h nofun

/-- A word decodes to an instruction where it is that instruction's word and the instruction's fields are defined (R218). -/
theorem decodeEng_eq_some {c : Chan} {w : Word} {i : Instr} :
    decodeEng c w = some i ↔ readEng c w = some i ∧ encodeEng i = some w ∧ engFieldsOk i = true := by
  unfold decodeEng
  split
  next j hread =>
    rw [Option.ite_none_right_eq_some, hread, Option.some_inj]
    constructor
    · rintro ⟨hj, rfl⟩
      exact ⟨rfl, hj⟩
    · rintro ⟨rfl, hj⟩
      exact ⟨hj, rfl⟩
  next hread => simp [hread]

end Sys2Proof.Machine

namespace Sys2Proof.Proofs

open Sys2Proof.Machine

/-- Settles O56: a word is decoded by reading its fields and encoding what they name, so that it is left to show that the
fields of an encoded word are the instruction's operands. -/
theorem engineEncoding : Obligations.EngineEncoding := by
  refine ⟨fun i w hword hok => ?_, fun c w i h => (decodeEng_eq_some.mp h).2⟩
  obtain ⟨c, hread⟩ := readEng_encodeEng hword
  exact ⟨c, decodeEng_eq_some.mpr ⟨hread, hword, hok⟩⟩

end Sys2Proof.Proofs
end

section
/-! SUPPORT. What every command keeps: the queue of the commands that wait, each fuse bit that is set, and the canonical
form of the galley, of its check bits and of the fuses. -/

namespace Sys2Proof.Machine

open Sys2Proof.Safety

/-! ## The canonical form of the galley and its check bits -/

/-- The galley and its check bits are in canonical form. -/
def State.GalleyOk (s : State) : Prop := Memory.wf s.mem ∧ Sparse 0 s.chk

section Galley
variable {s t : State}

theorem State.GalleyOk.of_same (h : s.GalleyOk) (hmem : t.mem = s.mem) (hchk : t.chk = s.chk) : t.GalleyOk := by
  rw [GalleyOk, hmem, hchk]
  exact h

/-- An empty galley is in canonical form. -/
theorem State.galleyOk_of_empty (hmem : t.mem = []) (hchk : t.chk = []) : t.GalleyOk := by
  rw [GalleyOk, hmem, hchk]
  exact ⟨⟨.nil, nofun⟩, .nil, nofun⟩

/-- Of two states in canonical form, the one that a condition chooses. -/
theorem State.galleyOk_ite {p : Prop} [Decidable p] (hs : s.GalleyOk) (ht : t.GalleyOk) : (if p then s else t).GalleyOk := by
  split
  · exact hs
  · exact ht

theorem State.GalleyOk.raise (h : s.GalleyOk) (n : Source) (c : Byte) : (s.raise n c).GalleyOk :=
  h.of_same (by simp) (by simp)

theorem State.galleyOk_toReset (s : State) (f : Power → Power) : (s.toReset f).GalleyOk := galleyOk_of_empty rfl rfl

/-! ## Reactions of the truss -/

theorem State.GalleyOk.takeLevel (h : s.GalleyOk) (n : Source) (old lvl mc : Nat) : (s.takeLevel n old lvl mc).GalleyOk :=
  galleyOk_ite (s.galleyOk_toReset _) (galleyOk_ite (galleyOk_ite h h) (galleyOk_ite h h))

theorem State.GalleyOk.event (h : s.GalleyOk) (n : Source) (mc : Nat) (causes : Byte) (real inj contain : Bool) :
    (s.event n mc causes real inj contain).GalleyOk := by
  have hfrom : ∀ {z : State} (was : Bool), z.GalleyOk → (z.nintFrom was mc).GalleyOk := fun was hz =>
    hz.of_same (by simp) (by simp)
  have hset : ∀ tr x, (State.setSrc { s with truss := tr } n x).GalleyOk := fun _ _ => h
  unfold State.event
  exact galleyOk_ite h (galleyOk_ite ((hfrom _ (hset _ _)).takeLevel _ _ _ _) (hfrom _ (hset _ _)))

theorem State.GalleyOk.recognise (h : s.GalleyOk) : s.recognise.GalleyOk := by
  unfold State.recognise
  split
  · exact h
  · exact galleyOk_ite h (State.GalleyOk.event (s := { s.at_ _ with truss := _ }) h _ _ _ _ _ _)

theorem State.GalleyOk.strike (h : s.GalleyOk) (u : Upset) : (s.strike u).GalleyOk := by
  have hwriters : ∀ l, ({ s with writers := l } : State).GalleyOk := fun _ => h
  cases u with
  | chunkBuffer k pos flips unc => exact galleyOk_ite h ((hwriters _).raise _ _)
  | coreMemory unc => exact h.raise _ _
  | imem c a unc => exact galleyOk_ite h h
  | dmem c a unc => exact galleyOk_ite h h

theorem State.GalleyOk.trussEvent (h : s.GalleyOk) (u : Option (Instant × Upset)) : (s.trussEvent u).GalleyOk :=
  match u with
  | none => h.recognise
  | some (a, u) => State.GalleyOk.strike (s := s.at_ a) h u

theorem State.GalleyOk.escalation (h : s.GalleyOk) (n : Source) : (s.escalation n).GalleyOk := by
  unfold State.escalation
  split
  · exact h
  · exact State.GalleyOk.takeLevel (s := State.setSrc { s.at_ _ with truss := _ } n _) h _ _ _ _

/-! ## Thermal shutdown -/

theorem State.GalleyOk.cut (h : s.GalleyOk) (hard waited : Bool) : (s.cut hard waited).GalleyOk := by
  unfold State.cut
  split
  · exact h
  · exact State.galleyOk_toReset _ _

theorem State.GalleyOk.cutRow (h : s.GalleyOk) (a : Instant) : (s.cutRow a).GalleyOk := by
  unfold State.cutRow
  split
  · exact State.GalleyOk.cut (s := s.at_ _) h _ _
  · exact h

theorem State.GalleyOk.shutdownAt (h : s.GalleyOk) (i : SensorIx) : (s.shutdownAt i).GalleyOk := by
  have hset : ∀ x, (s.setSens i x).GalleyOk := fun _ => h
  have hshut : ∀ x thm, ({ s.setSens i x with thm := thm } : State).GalleyOk := fun _ _ => h
  unfold State.shutdownAt
  refine galleyOk_ite h (galleyOk_ite (galleyOk_ite ((hset _).cut _ _) (hset _)) (galleyOk_ite (galleyOk_ite ?_ ?_) (hset _)))
  · exact (galleyOk_of_empty rfl rfl).raise _ _
  · exact ((hshut _ _).raise _ _).cut _ _

theorem State.GalleyOk.sample (h : s.GalleyOk) (a : Instant) (i : SensorIx) (r : Option Int) : (s.sample a i r).GalleyOk := by
  have hfollow : ∀ {z : State} (push was wasNone), z.GalleyOk →
      (((z.piersFollow push was wasNone).warnAt i).throttleAt.shutdownAt i).GalleyOk :=
    fun _ _ _ hz => (hz.of_same (by simp) (by simp)).shutdownAt i
  have hmark : ∀ {z : State}, z.GalleyOk → (z.markBroken i).GalleyOk := fun hz => hz.of_same (by simp) (by simp)
  have hconvert : ∀ x, (((s.at_ a).convert i r).setSens i x).GalleyOk := fun _ => h.of_same (by simp) (by simp)
  unfold State.sample
  refine galleyOk_ite (galleyOk_ite ?_ h) (galleyOk_ite (hfollow _ _ _ (hconvert _)) (hmark (hfollow _ _ _ (hconvert _))))
  split <;> exact h

/-! ## The vault -/

theorem State.GalleyOk.storeCode (h : s.GalleyOk) (port g : Nat) (w : Qword) (own : Bool) : (s.storeCode port g w own).GalleyOk :=
  s.storeCode_wf port g w own h.1 h.2

theorem State.GalleyOk.column (h : s.GalleyOk) (q : Pch) (r : Req) (v : Nat) : (s.column q r v).GalleyOk := by
  have hsent : ∀ x, (s.setPch q x).GalleyOk := fun _ => h
  have hread : ∀ {z : State} f, z.GalleyOk → ((z.modReq r.id f).chunkStep q r false).GalleyOk :=
    fun _ hz => hz.of_same (by simp) (by simp)
  have hdone : ∀ {z : State}, z.GalleyOk → (((z.lateCheck q r v).chunkStep q r true).finishReq r v).GalleyOk :=
    fun hz => hz.of_same (by simp) (by simp)
  have hscrubbed : ∀ {z : State}, z.GalleyOk → (z.raiseFrom false (pcSrc q) 0x40 false).GalleyOk :=
    fun hz => hz.of_same (by simp) (by simp)
  have hstored : ∀ (l : List (Bool × Qword)) (z : State), z.GalleyOk → (l.foldl (fun z d =>
      z.storeCode r.port (2 * r.burst + bit d.1) d.2 (r.only.all (· == d.1))) z).GalleyOk :=
    fun l z hz => List.foldlRecOn l _ hz fun _ hy d _ => hy.storeCode _ _ _ _
  unfold State.column
  exact galleyOk_ite (hdone (galleyOk_ite (hscrubbed (hstored _ _ (hsent _))) (hstored _ _ (hsent _)))) (hread _ (hsent _))

theorem State.GalleyOk.issue (h : s.GalleyOk) (q : Pch) (r : Req) (v : Nat) : (s.issue q r v).GalleyOk := by
  unfold State.issue
  refine galleyOk_ite (h.of_same (by simp) (by simp)) ?_
  split
  · exact galleyOk_ite (h.column q r v) (h.of_same (by simp) (by simp))
  · exact galleyOk_ite (h.of_same (by simp) (by simp)) (h.of_same (by simp) (by simp))

theorem State.GalleyOk.chooseAt (h : s.GalleyOk) (q : Pch) (l : List (Req × Nat)) (due : Bool) (v : Nat) :
    (s.chooseAt q l due v).GalleyOk := by
  have hissue : ∀ r, ((s.at_ (s.vcAt v)).issue q r v).GalleyOk := fun r => State.GalleyOk.issue (s := s.at_ _) h q r v
  have hrefpb : ((s.at_ (s.vcAt v)).refpb q v).GalleyOk := h.of_same (by simp) (by simp)
  unfold State.chooseAt
  dsimp only
  split
  · exact galleyOk_ite (hissue _) hrefpb
  · exact hissue _
  · exact hrefpb
  · exact h

theorem State.GalleyOk.chooseRun (h : s.GalleyOk) (q : Pch) (l : List Nat) (v : Nat) : (s.chooseRun q l v).GalleyOk := by
  have hready : ∀ {z : State} v, z.GalleyOk → ((z.ceilAt q v).insertAt q v).GalleyOk :=
    fun v hz => hz.of_same (by simp) (by simp)
  have hforce : ∀ {z : State} v, z.GalleyOk → (z.forceNow q v).GalleyOk := fun v hz => hz.of_same (by simp) (by simp)
  unfold State.chooseRun
  refine galleyOk_ite (hforce v (hready v h)) ?_
  dsimp only
  split
  · exact hready v h
  · exact galleyOk_ite (hforce _ (hready _ (hready v h))) ((hready _ (hready v h)).chooseAt _ _ _ _)

theorem State.GalleyOk.vaultCommand (h : s.GalleyOk) (q : Pch) (l : List Nat) : (s.vaultCommand q l).GalleyOk := by
  have halone : ∀ v, ((s.ceilAt q v).refreshOnly q v).GalleyOk := fun v => h.of_same (by simp) (by simp)
  unfold State.vaultCommand
  dsimp only
  split
  · exact halone _
  · exact halone _
  · exact galleyOk_ite (halone _) h
  · exact galleyOk_ite h (h.chooseRun q l _)
  · exact h

theorem State.GalleyOk.stackReading (h : s.GalleyOk) (a : Instant) (r : Option Int) : (s.stackReading a r).GalleyOk := by
  have hsample := h.sample a 17 (r.map (8 * ·))
  have hmod : ∀ {z : State} f, z.GalleyOk → (Vault.mod z f).GalleyOk := fun _ hz => hz
  have hband : ∀ {z : State} v dbl, z.GalleyOk → (z.setBandDbl v dbl).GalleyOk := fun _ _ hz => hz.of_same (by simp) (by simp)
  unfold State.stackReading
  refine galleyOk_ite hsample ?_
  cases r with
  | none => exact galleyOk_ite ((hband _ _ (hmod _ (hmod _ hsample))).raise _ _) (hmod _ hsample)
  | some x =>
    refine galleyOk_ite (hmod _ hsample) (galleyOk_ite (hband _ _ ?_) (galleyOk_ite (hband _ _ ?_) ?_)) <;>
      exact hmod _ (hmod _ hsample)

theorem State.GalleyOk.initEnd (h : s.GalleyOk) : s.initEnd.GalleyOk := by
  unfold State.initEnd
  split
  · exact galleyOk_of_empty (by simp) (by simp)
  · exact h

/-! ## The trim store -/

theorem State.GalleyOk.pageDone (h : s.GalleyOk) (verified : Bool) : (s.pageDone verified).GalleyOk := by
  unfold State.pageDone
  split
  · exact h
  · refine galleyOk_ite h (galleyOk_ite (h.cut _ _) ?_)
    exact h.of_same (by simp) (by simp)

end Galley
end Sys2Proof.Machine
end

section
/-! SUPPORT. The statements about every command: each completes, keeps the queue and the canonical forms, and clears no
fuse bit. -/

namespace Sys2Proof.Machine

open Sys2Proof.Safety

/-- What every command keeps. -/
structure Kept (s t : State) : Prop where
  pending : t.pending = s.pending
  fuses : FusesKept s t
  store : StoreOk s → StoreOk t

section Kept
variable {s t : State}

/-- A command that leaves the fuses alone and the galley in canonical form. -/
theorem Kept.of_galley (h : t.pending = s.pending ∧ t.lcy.fuses = s.lcy.fuses) (hgalley : s.GalleyOk → t.GalleyOk) :
    Kept s t where
  pending := h.1
  fuses i b hb := by rw [h.2]; exact hb
  store hs := by
    obtain ⟨hmem, hchk⟩ := hgalley ⟨hs.1, hs.2.1⟩
    exact ⟨hmem, hchk, by rw [h.2]; exact hs.2.2⟩

theorem Kept.of_same
    (h : t.pending = s.pending ∧ t.lcy.fuses = s.lcy.fuses ∧ t.mem = s.mem ∧ t.chk = s.chk) : Kept s t := by
  obtain ⟨hpending, hfuses, hmem, hchk⟩ := h
  exact .of_galley ⟨hpending, hfuses⟩ fun hs => hs.of_same hmem hchk

/-! ## Fuse words (R634, R640) -/

/-- A read at the address written gives what was written, where that is not the default value, in any table. -/
theorem sget_sset_of_ne {α : Type} [DecidableEq α] {d : α} (l : List (Nat × α)) (a : Nat) {v : α} (hv : v ≠ d) :
    sget d (sset d l a v) a = v := by
  induction l with
  | nil => simp [sset, hv, sget]
  | cons q l ih =>
    obtain ⟨k, w⟩ := q
    rw [sset]
    split
    · rw [sget, if_pos rfl]
    · split
      · rw [sget, if_pos rfl]
      · next hne => rw [sget, if_neg hne, ih]

/-- A blown word keeps the bits that are set, of every word. -/
theorem LifeCycle.blow_keeps_bit {l : LifeCycle} (i : Nat) (w : Word) {k b : Nat} (h : (sget 0 l.fuses k).getLsbD b = true) :
    (sget 0 (l.blow i w).fuses k).getLsbD b = true := by
  by_cases hk : k = i
  · subst hk
    have hbit : (l.fuse k ||| w).getLsbD b = true := by
      rw [BitVec.getLsbD_or, LifeCycle.fuse, h, Bool.true_or]
    have hne : l.fuse k ||| w ≠ 0 := fun hz => by simp [hz] at hbit
    rw [LifeCycle.blow, sget_sset_of_ne _ _ hne]
    exact hbit
  · rw [LifeCycle.blow, sget_sset_ne _ _ _ _ hk]
    exact h

/-- The fuses after FUSE_WORD_DONE are those of before, or those with one word blown. -/
theorem State.fuses_fuseWordDone (s : State) (verified : Bool) :
    (s.fuseWordDone verified).lcy.fuses = s.lcy.fuses ∨
      ∃ i w, (s.fuseWordDone verified).lcy.fuses = (s.lcy.blow i w).fuses := by
  unfold State.fuseWordDone
  split
  · exact .inl rfl
  · dsimp only
    split
    · exact .inl rfl
    next i bits rest hwords =>
      refine .inr ⟨i, ?_⟩
      cases verified with
      | false => exact ⟨_, by simp [State.modLcy, LifeCycle.blow]; rfl⟩
      | true =>
        refine ⟨bits, ?_⟩
        simp only [if_true, ite_lcy, ite_fuses]
        simp [State.modLcy]

theorem kept_fuseWordDone (verified : Bool) : Kept s (s.fuseWordDone verified) := by
  obtain ⟨hpending, hmem, hchk⟩ := s.fuseWordDone_keeps verified
  obtain hsame | ⟨i, w, hblown⟩ := s.fuses_fuseWordDone verified
  · exact .of_same ⟨hpending, hsame, hmem, hchk⟩
  · refine ⟨hpending, fun k b hb => ?_, fun ⟨hm, hc, hf⟩ => ?_⟩
    · rw [hblown]
      exact LifeCycle.blow_keeps_bit i w hb
    · rw [StoreOk, hmem, hchk, hblown]
      exact ⟨hm, hc, sparse_sset _ _ _ hf⟩

end Kept

/-! ## Every command -/

/-- Every command completes, and keeps what is to be kept. -/
theorem exec_kept (i : Instr) (s : State) : ∃ t, exec i s = .next t ∧ Kept s t := by
  cases i with
  | registerWrite a port addr w => cases port <;> exact ⟨_, rfl, .of_same (by simp)⟩
  | evt c | evtWaitEnd c | emit c | emitwEnd c | trig c | stop c =>
    refine ⟨_, rfl, ?_⟩
    split <;> exact .of_same (by simp)
  | vaultCommand q l => exact ⟨_, rfl, .of_galley (s.vaultCommand_keeps q l) (·.vaultCommand q l)⟩
  | temperatureReading a r => exact ⟨_, rfl, .of_galley (s.stackReading_keeps a r) (·.stackReading a r)⟩
  | stackInitEnd => exact ⟨_, rfl, .of_galley s.initEnd_keeps (·.initEnd)⟩
  | pageProgramDone ok => exact ⟨_, rfl, .of_galley (s.pageDone_keeps ok) (·.pageDone ok)⟩
  | powerOn a => exact ⟨_, rfl, .of_galley (s.powerOn_keeps a) fun _ => State.galleyOk_of_empty rfl rfl⟩
  | resetNLow a => exact ⟨_, rfl, .of_galley (s.resetN_keeps a) fun _ => State.galleyOk_toReset _ _⟩
  | railBelowReset a rail => exact ⟨_, rfl, .of_galley (s.railReset_keeps a rail) fun _ => State.galleyOk_toReset _ _⟩
  | trussEvent u => exact ⟨_, rfl, .of_galley (s.trussEvent_keeps u) (·.trussEvent u)⟩
  | escalation n => exact ⟨_, rfl, .of_galley (s.escalation_keeps n) (·.escalation n)⟩
  | sensorSample a k r => exact ⟨_, rfl, .of_galley (s.sample_keeps a _ r) (·.sample a _ r)⟩
  | cut a => exact ⟨_, rfl, .of_galley (s.cutRow_keeps a) (·.cutRow a)⟩
  | fuseWordDone ok => exact ⟨_, rfl, kept_fuseWordDone ok⟩
  | headerRejected a l =>
    refine ⟨_, rfl, .of_same ?_⟩
    split
    · cases headerFault l <;> simp
    · simp
  | _ => exact ⟨_, rfl, .of_same (by simp)⟩

end Sys2Proof.Machine

namespace Sys2Proof.Proofs

open Sys2Proof.Machine Sys2Proof.Safety

/-- Settles O57: a step runs the front command on the state with the queue's rest, and every command keeps the canonical
forms. -/
theorem storeInvariant : Obligations.StoreInvariant := by
  intro s t hs hstep
  unfold step at hstep
  split at hstep
  next => exact Host.Outcome.next.inj hstep ▸ hs
  next c rest _ =>
    obtain ⟨u, hexec, hkept⟩ := exec_kept c { s with pending := rest }
    rw [hexec] at hstep
    exact Host.Outcome.next.inj hstep ▸ hkept.store hs

/-- Settles O58. -/
theorem commandsCompleteAndKeepFuses : Obligations.CommandsCompleteAndKeepFuses := by
  intro c s
  obtain ⟨t, hexec, hkept⟩ := exec_kept c s
  exact ⟨t, hexec, hkept.pending, hkept.fuses⟩

/-- Settles O55. -/
theorem stepRunsFrontCommand : Obligations.StepRunsFrontCommand := by
  intro s
  constructor
  · intro c rest h
    rw [step, h]
  · intro h
    rw [step, h]

/-- Settles O59: the reset state is written out field by field. -/
theorem resetState : Obligations.ResetState := by
  refine ⟨State.reset_wf, rfl, rfl, rfl, rfl, rfl, rfl, fun d => ?_, fun c => ?_, rfl, fun k => ?_, fun v => ?_, rfl, rfl,
    rfl, rfl, rfl, rfl⟩
  · simp [State.dom, State.reset, Power.reset]
  · simp [State.chan, State.reset, Channel.reset, Rec.reset]
  · simp only [State.synth, State.reset, synthsReset, Fin.getElem_fin, Vector.getElem_map, Vector.getElem_range]
    split <;> rfl
  · cases v <;> rfl

end Sys2Proof.Proofs
end

section
/-! SUPPORT. The results and flags of the integer and the accumulator instructions as numbers (R219, R221, R223, Tables 6.3,
6.4). -/

namespace Sys2Proof.Machine

open Sys2Proof.Safety

/-! ## Sums, differences, products -/

section Results
variable {n : Nat} (x y : BitVec n)

theorem add_eq_ofNat : x + y = BitVec.ofNat n (x.toNat + y.toNat) := by
  rw [BitVec.ofNat_add, BitVec.ofNat_toNat, BitVec.ofNat_toNat, BitVec.setWidth_eq, BitVec.setWidth_eq]

theorem add_eq_ofInt : x + y = BitVec.ofInt n (x.toInt + y.toInt) := by
  rw [BitVec.ofInt_add, BitVec.ofInt_toInt, BitVec.ofInt_toInt]

theorem sub_eq_ofInt : x - y = BitVec.ofInt n (x.toInt - y.toInt) :=
  BitVec.eq_of_toInt_eq (by rw [BitVec.toInt_sub, BitVec.toInt_ofInt])

theorem mul_eq_ofNat : x * y = BitVec.ofNat n (x.toNat * y.toNat) := by
  rw [BitVec.ofNat_mul, BitVec.ofNat_toNat, BitVec.ofNat_toNat, BitVec.setWidth_eq, BitVec.setWidth_eq]

theorem mul_eq_ofInt : x * y = BitVec.ofInt n (x.toInt * y.toInt) := by
  rw [BitVec.ofInt_mul, BitVec.ofInt_toInt, BitVec.ofInt_toInt]

/-- A difference of the unsigned values. -/
theorem sub_eq_ofInt_toNat : x - y = BitVec.ofInt n (x.toNat - y.toNat) := by
  refine BitVec.eq_of_toInt_eq ?_
  rw [BitVec.toInt_sub, BitVec.toInt_ofInt, BitVec.toInt_eq_toNat_bmod, BitVec.toInt_eq_toNat_bmod, Int.sub_bmod_bmod,
    Int.bmod_sub_bmod]

variable {x y}

/-- A number is held without loss exactly where it is in the signed range. -/
theorem toInt_ofInt_eq_iff (hn : 0 < n) (v : Int) :
    (BitVec.ofInt n v).toInt = v ↔ -(2 ^ (n - 1) : Int) ≤ v ∧ v < 2 ^ (n - 1) := by
  constructor
  · intro h
    rw [← h]
    exact ⟨BitVec.le_toInt _, BitVec.toInt_lt⟩
  · rintro ⟨hlo, hhi⟩
    exact BitVec.toInt_ofInt_eq_self hn (by exact_mod_cast hlo) (by exact_mod_cast hhi)

end Results

/-! ## Flags -/

section Flags
variable {n : Nat} (hn : 0 < n) (x y : BitVec n)
include hn

theorem addFlags_eq : addFlags x y = flagsSum x y := by
  have hv := toInt_ofInt_eq_iff hn (x.toInt + y.toInt)
  rw [← add_eq_ofInt] at hv
  have hz : (x + y == 0) = decide ((x + y).toNat = 0) := decide_eq_decide.mpr BitVec.toNat_eq
  simp only [addFlags, flagsSum, ne_eq, hv, hz, BitVec.msb_eq_decide, BitVec.toNat_add]

theorem subFlags_eq : subFlags x y = flagsDiff x y := by
  have hv := toInt_ofInt_eq_iff hn (x.toInt - y.toInt)
  rw [← sub_eq_ofInt] at hv
  have hz : (x - y == 0) = decide ((x - y).toNat = 0) := decide_eq_decide.mpr BitVec.toNat_eq
  simp only [subFlags, flagsDiff, ne_eq, hv, hz, BitVec.msb_eq_decide, BitVec.toNat_sub, Nat.add_comm]

end Flags

/-- The flags of a product: C where it needs more than 64 bits unsigned, V where it does signed. -/
theorem mulFlags_eq (x y : Dword) (f : EngFlags) : mulFlags x y =
    { flagsZN (BitVec.ofNat 64 (x.toNat * y.toNat)) f with
      c := decide (2 ^ 64 ≤ x.toNat * y.toNat)
      v := decide (¬(-(2 ^ 63 : Int) ≤ x.toInt * y.toInt ∧ x.toInt * y.toInt < 2 ^ 63)) } := by
  have hv := toInt_ofInt_eq_iff (n := 64) (by decide) (x.toInt * y.toInt)
  rw [← mul_eq_ofInt] at hv
  rw [← mul_eq_ofNat, ← EngFlags.zn_eq]
  simp only [mulFlags, EngFlags.zn, ne_eq, hv]

/-! ## Extremes -/

theorem sle_select (x y : Dword) : (if x.sle y then x else y) = lower BitVec.toInt x y := by
  simp only [BitVec.sle_iff_toInt_le, lower]
theorem sle_reject (x y : Dword) : (if x.sle y then y else x) = upper BitVec.toInt x y := by
  simp only [BitVec.sle_iff_toInt_le, upper]
theorem ule_select (x y : Dword) : (if x.ule y then x else y) = lower (fun z => z.toNat) x y := by
  simp only [BitVec.ule_iff_toNat_le, lower, Nat.cast_le]
theorem ule_reject (x y : Dword) : (if x.ule y then y else x) = upper (fun z => z.toNat) x y := by
  simp only [BitVec.ule_iff_toNat_le, upper, Nat.cast_le]

/-! ## Constants, halves and packing -/

theorem movz_eq (h : BitVec 2) (m : BitVec 16) :
    m.setWidth 64 <<< (16 * h.toNat) = BitVec.ofNat 64 (m.toNat * 2 ^ (16 * h.toNat)) := by
  refine BitVec.eq_of_toNat_eq ?_
  rw [BitVec.toNat_shiftLeft, BitVec.toNat_ofNat, Nat.shiftLeft_eq, BitVec.toNat_setWidth,
    Nat.mod_eq_of_lt (m.isLt.trans (by decide))]

/-- The slot that MOVK replaces is a field of the register. -/
theorem slot16_eq_putFld (g : Dword) (h : BitVec 2) (m : BitVec 16) : slot16 g h m = putFld g (16 * h.toNat) 16 m.toNat := by
  have hh := h.isLt
  refine BitVec.eq_of_getLsbD_eq fun i hi => ?_
  rw [getLsbD_putFld g (16 * h.toNat) 16 m.toNat (by omega), BitVec.testBit_toNat]
  simp only [slot16, BitVec.getLsbD_or, BitVec.getLsbD_and, BitVec.getLsbD_not, BitVec.getLsbD_shiftLeft,
    BitVec.getLsbD_setWidth, hi]
  have hones : ∀ j, (0xFFFF : Dword).getLsbD j = decide (j < 16) := fun j => by
    rw [show (0xFFFF : Dword) = BitVec.ofNat 64 (2 ^ 16 - 1) from rfl, BitVec.getLsbD_ofNat, Nat.testBit_two_pow_sub_one]
    by_cases hj : j < 16 <;> simp [hj]; omega
  rw [hones]
  split
  next hin =>
    have h1 : ¬ i < 16 * h.toNat := by omega
    have h2 : i - 16 * h.toNat < 16 := by omega
    have h3 : i - 16 * h.toNat < 64 := by omega
    simp [h1, h2, h3]
  next hout =>
    by_cases h1 : i < 16 * h.toNat
    · simp [h1]
    · have h2 : ¬ i - 16 * h.toNat < 16 := by omega
      simp [h1, h2, BitVec.getLsbD_of_ge m _ (Nat.not_lt.mp h2)]

theorem slot16_eq (g : Dword) (h : BitVec 2) (m : BitVec 16) : slot16 g h m =
    BitVec.ofNat 64 (g.toNat / 2 ^ (16 * h.toNat + 16) * 2 ^ (16 * h.toNat + 16) + m.toNat * 2 ^ (16 * h.toNat) +
      g.toNat % 2 ^ (16 * h.toNat)) := by
  rw [slot16_eq_putFld, putFld, toNat_sub_fld_add, Nat.mod_eq_of_lt m.isLt, Nat.div_div_eq_div_mul, ← Nat.pow_add]
  congr 1
  ring

theorem aget_eq (x : Qword) (h : BitVec 1) :
    x.extractLsb' (64 * h.toNat) 64 = BitVec.ofNat 64 (x.toNat / 2 ^ (64 * h.toNat)) := by
  refine BitVec.eq_of_toNat_eq ?_
  rw [BitVec.extractLsb'_toNat, BitVec.toNat_ofNat, Nat.shiftRight_eq_div_pow]

theorem apack_eq (x y : Dword) : x ++ y = BitVec.ofNat 128 (x.toNat * 2 ^ 64 + y.toNat) := by
  have hx := x.isLt
  have hy := y.isLt
  refine BitVec.eq_of_toNat_eq ?_
  rw [BitVec.toNat_append, BitVec.toNat_ofNat, ← Nat.shiftLeft_add_eq_or_of_lt hy, Nat.shiftLeft_eq]
  omega

/-! ## Accumulators -/

theorem ashl_eq (x : Qword) (k : Nat) : x <<< k = numShl x k := by
  refine BitVec.eq_of_toNat_eq ?_
  rw [numShl, BitVec.toNat_shiftLeft, BitVec.toNat_ofNat, Nat.shiftLeft_eq]

theorem ashr_eq (x : Qword) (k : Nat) : x.sshiftRight k = numSar x k := by
  rw [numSar, BitVec.sshiftRight, Int.shiftRight_eq_div_pow]; norm_cast

theorem prodS_eq (x y : Dword) : prodS x y = BitVec.ofInt 128 (x.toInt * y.toInt) := by
  rw [BitVec.ofInt_mul]; rfl

theorem prodU_eq (x y : Dword) : prodU x y = BitVec.ofNat 128 (x.toNat * y.toNat) := by
  rw [BitVec.ofNat_mul, BitVec.ofNat_toNat, BitVec.ofNat_toNat]; rfl

/-- The saturated value is the number clamped to the range, and V says that it was. -/
theorem sat64_eq (x : Qword) : sat64 x = (BitVec.ofInt 64 (max (-(2 ^ 63)) (min x.toInt (2 ^ 63 - 1))),
    decide (¬(-(2 ^ 63 : Int) ≤ x.toInt ∧ x.toInt < 2 ^ 63))) := by
  have hlow : BitVec.ofInt 64 x.toInt = x.setWidth 64 := by
    rw [← BitVec.signExtend_eq_setWidth_of_le x (by decide)]; rfl
  rw [ofInt_clamp, hlow, sat64]
  split
  next hneg =>
    have hbig : ¬(-(2 ^ 63 : Int) ≤ x.toInt ∧ x.toInt < 2 ^ 63) := by omega
    have hsign : x.toInt < 0 := by omega
    simp only [hbig, hsign, if_true, if_false, not_false_eq_true, decide_true]
  next hneg =>
    split
    next hpos =>
      have hbig : ¬(-(2 ^ 63 : Int) ≤ x.toInt ∧ x.toInt < 2 ^ 63) := by omega
      have hsign : ¬ x.toInt < 0 := by omega
      simp only [hbig, hsign, if_false, not_false_eq_true, decide_true]
    next hpos =>
      have hfit : -(2 ^ 63 : Int) ≤ x.toInt ∧ x.toInt < 2 ^ 63 := by omega
      simp only [hfit, and_self, not_true, if_true, decide_false]

/-! ## Leading zeros and runs of sign bits -/

theorem clz64_eq (x : Dword) : clz64 x = leadZeros x := by
  unfold clz64 leadZeros
  split
  next hz =>
    have hx : x = 0 := BitVec.eq_of_toNat_eq hz
    subst hx
    decide
  next hz =>
    have hlt : x.toNat.log2 < 64 := (Nat.log2_lt hz).mpr x.isLt
    have hfind : (List.range 64).find? (fun i => x.getLsbD (63 - i)) = some (63 - x.toNat.log2) := by
      rw [List.find?_range_eq_some]
      refine ⟨?_, List.mem_range.mpr (by omega), fun j hj => ?_⟩
      · rw [show 63 - (63 - x.toNat.log2) = x.toNat.log2 by omega]
        exact Nat.testBit_log2 hz
      · have habove : x.toNat < 2 ^ (63 - j) := (Nat.log2_lt hz).mp (by omega)
        rw [← BitVec.testBit_toNat, Nat.testBit_lt_two_pow habove]
        rfl
    rw [hfind]
    rfl

/-- ANORM counts the bits below bit 127 that equal it, up to the first that does not. -/
theorem norm128_spec (x : Qword) : norm128 x ≤ 127 ∧ (∀ j, j < norm128 x → x.getLsbD (126 - j) = x.msb) ∧
    (norm128 x < 127 → x.getLsbD (126 - norm128 x) ≠ x.msb) := by
  unfold norm128
  cases hfind : (List.range 127).find? (fun i => x.getLsbD (126 - i) != x.msb) with
  | none =>
    refine ⟨le_rfl, fun j hj => ?_, fun h => absurd h (lt_irrefl _)⟩
    simpa using List.find?_eq_none.mp hfind j (List.mem_range.mpr hj)
  | some k =>
    rw [List.find?_range_eq_some] at hfind
    obtain ⟨hne, hk, hbelow⟩ := hfind
    exact ⟨(List.mem_range.mp hk).le, fun j hj => by simpa using hbelow j hj, fun _ => by simpa using hne⟩

theorem norm128_beq_zero (x : Qword) : ((BitVec.ofNat 64 (norm128 x) : Dword) == 0) = decide (norm128 x = 0) := by
  rw [beq_eq_decide]
  refine decide_eq_decide.mpr (BitVec.toNat_eq.trans ?_)
  rw [BitVec.toNat_ofNat, Nat.mod_eq_of_lt ((norm128_spec x).1.trans_lt (by decide))]
  rfl

end Sys2Proof.Machine
end

section
/-! SUPPORT. The statements about the integer instructions and the accumulators. -/

namespace Sys2Proof.Machine

open Sys2Proof.Safety

/-! ## Instructions that write one accumulator, or the flags alone -/

theorem Engine.setFl_aw_eq (e : Engine) (d : BitVec 3) (v : Qword) (f : EngFlags) :
    (e.aw d v).setFl f = { e with g := ((e.aw d v).setFl f).g, a := ((e.aw d v).setFl f).a, fl := f } := rfl

/-- A write of a register keeps the flags. -/
theorem Engine.setFl_gw_self (e : Engine) (d : BitVec 4) (v : Dword) : (e.gw d v).setFl e.fl = e.gw d v := by
  rw [e.gw_eq d v]; rfl

section Forms
variable {c : Chan} {i : Instr} {k : Nat}

/-- An instruction that writes one accumulator and the flags. -/
theorem givesA_of_engOp {d : BitVec 3} {v : Engine → Qword} {f : Engine → EngFlags}
    {w : Engine → Qword} {g : Engine → EngFlags}
    (hexec : ∀ s, exec i s = .next (s.engOp c i k fun e => (e.aw d (w e)).setFl (g e)))
    (hw : ∀ e, w e.fetched = v e) (hg : ∀ e, g e.fetched = f e) : GivesA c i k d v f := by
  intro s h
  have heng := State.eng_engOp (F := fun e => (e.aw d (w e)).setFl (g e)) h
  refine ⟨_, hexec s, State.engOp_moved h (fun e => e.setFl_aw_eq d _ _) (fun _ _ _ => rfl)
    (fun e j hj => Engine.ar_aw_ne e d j _ (List.ne_of_not_mem_cons hj)), ?_, ?_⟩
  · rw [heng, Engine.ar_advance, Engine.ar_setFl, Engine.ar_aw_self, hw]
  · rw [heng, Engine.fl_advance, Engine.fl_setFl, hg]

/-- An instruction that writes one accumulator and keeps the flags. -/
theorem givesA_of_write {d : BitVec 3} {v w : Engine → Qword}
    (hexec : ∀ s, exec i s = .next (s.engOp c i k fun e => e.aw d (w e))) (hw : ∀ e, w e.fetched = v e) :
    GivesA c i k d v (fun e => e.fl) :=
  givesA_of_engOp (g := fun e => e.fl) hexec hw fun _ => rfl

/-- An instruction that writes one general register and keeps the flags. -/
theorem givesG_of_write {d : BitVec 4} {v w : Engine → Dword}
    (hexec : ∀ s, exec i s = .next (s.engOp c i k fun e => e.gw d (w e))) (hw : ∀ e, w e.fetched = v e) :
    GivesG c i k d v (fun e => e.fl) := by
  refine givesG_of_engOp (w := w) (g := fun e => e.fl) (fun s => ?_) hw fun _ => rfl
  simp only [Engine.setFl_gw_self]
  exact hexec s

/-- An instruction that writes the flags alone. -/
theorem givesF_of_engOp {f g : Engine → EngFlags}
    (hexec : ∀ s, exec i s = .next (s.engOp c i k fun e => e.setFl (g e))) (hg : ∀ e, g e.fetched = f e) :
    GivesF c i k f := by
  intro s h
  have heng := State.eng_engOp (F := fun e => e.setFl (g e)) h
  refine ⟨_, hexec s, State.engOp_moved h (fun _ => rfl) (fun _ _ _ => rfl) (fun _ _ _ => rfl), ?_⟩
  rw [heng, Engine.fl_advance, Engine.fl_setFl, hg]

/-- Z and N of the result written, C and V kept. -/
theorem givesG_zn {d : BitVec 4} {v w : Engine → Dword}
    (hexec : ∀ s, exec i s = .next (s.engOp c i k fun e => (e.gw d (w e)).setFl (e.fl.zn (w e))))
    (hw : ∀ e, w e.fetched = v e) : GivesG c i k d v (fun e => flagsZN (v e) e.fl) :=
  givesG_of_engOp (g := fun e => e.fl.zn (w e)) hexec hw fun e => by rw [EngFlags.zn_eq, hw]; rfl

theorem givesA_zn {d : BitVec 3} {v w : Engine → Qword}
    (hexec : ∀ s, exec i s = .next (s.engOp c i k fun e => (e.aw d (w e)).setFl (e.fl.zn (w e))))
    (hw : ∀ e, w e.fetched = v e) : GivesA c i k d v (fun e => flagsZN (v e) e.fl) :=
  givesA_of_engOp (g := fun e => e.fl.zn (w e)) hexec hw fun e => by rw [EngFlags.zn_eq, hw]; rfl

end Forms
end Sys2Proof.Machine

namespace Sys2Proof.Proofs

open Sys2Proof.Machine Sys2Proof.Safety

/-- Settles O1: each result and its flags, as numbers. -/
theorem engineArithmetic : Obligations.EngineArithmetic := by
  intro c d a b i
  have h64 : 0 < 64 := by decide
  refine ⟨givesG_of_engOp (fun _ => rfl) (fun e => add_eq_ofNat _ _) (fun e => addFlags_eq h64 _ _),
    givesG_of_engOp (fun _ => rfl) (fun e => sub_eq_ofInt_toNat _ _) (fun e => subFlags_eq h64 _ _),
    givesG_of_engOp (fun _ => rfl) (fun e => ?_) (fun e => addFlags_eq h64 _ _),
    givesF_of_engOp (fun _ => rfl) (fun e => subFlags_eq h64 _ _),
    givesF_of_engOp (fun _ => rfl) (fun e => subFlags_eq h64 _ _),
    givesG_of_engOp (fun _ => rfl) (fun e => mul_eq_ofNat _ _) (fun e => mulFlags_eq _ _ e.fl),
    givesG_zn (fun _ => rfl) fun e => sle_select _ _, givesG_zn (fun _ => rfl) fun e => sle_reject _ _,
    givesG_zn (fun _ => rfl) fun e => ule_select _ _, givesG_zn (fun _ => rfl) fun e => ule_reject _ _⟩
  rw [BitVec.ofInt_add, BitVec.ofInt_toInt]
  rfl

/-- Settles O2. -/
theorem engineLogicAndMoves : Obligations.EngineLogicAndMoves := by
  intro c d a b k i h m
  have himm : u18 i = BitVec.ofNat 64 i.toNat := (BitVec.ofNat_toNat 64 i).symm
  exact ⟨givesF_of_engOp (g := fun e => e.fl) (fun _ => rfl) fun _ => rfl,
    givesG_zn (fun _ => rfl) fun _ => rfl, givesG_zn (fun _ => rfl) fun _ => rfl, givesG_zn (fun _ => rfl) fun _ => rfl,
    givesG_zn (fun _ => rfl) fun e => congrArg (e.gr a &&& ·) himm,
    givesG_zn (fun _ => rfl) fun e => congrArg (e.gr a ||| ·) himm,
    givesG_zn (fun _ => rfl) fun e => congrArg (e.gr a ^^^ ·) himm,
    givesG_of_write (fun _ => rfl) fun _ => movz_eq h m, givesG_of_write (fun _ => rfl) fun e => slot16_eq (e.gr d) h m,
    givesG_of_write (fun _ => rfl) fun _ => rfl,
    givesG_zn (fun _ => rfl) fun e => congrArg (BitVec.ofNat 64) (clz64_eq (e.gr a))⟩

/-- Settles O4. -/
theorem engineAccumulators : Obligations.EngineAccumulators := by
  have h128 : 0 < 128 := by decide
  refine ⟨fun c d x y a b => ?_, fun c d x y a b k h => ?_⟩
  · refine ⟨givesA_of_write (fun _ => rfl) fun _ => rfl, givesA_of_write (fun _ => rfl) fun _ => rfl,
      givesA_of_engOp (fun _ => rfl) (fun e => ?_) fun e => addFlags_eq h128 _ _,
      givesA_zn (fun _ => rfl) fun e => prodS_eq _ _, givesA_zn (fun _ => rfl) fun e => prodU_eq _ _,
      givesA_of_engOp (fun _ => rfl) (fun e => ?_) (fun e => ?_), givesA_of_engOp (fun _ => rfl) (fun e => ?_) (fun e => ?_),
      givesA_of_engOp (fun _ => rfl) (fun e => add_eq_ofNat _ _) fun e => addFlags_eq h128 _ _,
      givesA_of_engOp (fun _ => rfl) (fun e => sub_eq_ofInt_toNat _ _) fun e => subFlags_eq h128 _ _,
      givesF_of_engOp (fun _ => rfl) fun e => subFlags_eq h128 _ _⟩
    · rw [BitVec.ofInt_add, BitVec.ofInt_toInt]; rfl
    · rw [BitVec.ofInt_add, BitVec.ofInt_toInt, ← prodS_eq]; rfl
    · rw [addFlags_eq h128, prodS_eq]; rfl
    · rw [BitVec.ofNat_add, BitVec.ofNat_toNat, BitVec.setWidth_eq, ← prodU_eq]; rfl
    · rw [addFlags_eq h128, prodU_eq]; rfl
  · refine ⟨givesA_of_engOp (fun _ => rfl) (fun e => ashr_eq _ _) (fun e => ?_),
      givesA_of_engOp (fun _ => rfl) (fun e => ashl_eq _ _) (fun e => ?_),
      givesG_of_write (fun _ => rfl) fun e => aget_eq _ _, givesG_of_engOp (fun _ => rfl) (fun e => ?_) (fun e => ?_),
      fun s hs => ?_, givesA_of_write (fun _ => rfl) fun e => apack_eq _ _⟩
    · rw [ashr_eq, EngFlags.shifted_outRight]; rfl
    · rw [ashl_eq, EngFlags.shifted_outLeft]; rfl
    · rw [sat64_eq]; rfl
    · rw [sat64_eq, EngFlags.zn_eq]; rfl
    · have hgives : GivesG c (.anorm c d x) 1 d (fun e => BitVec.ofNat 64 (norm128 (e.ar x)))
          (fun e => { e.fl with z := decide (norm128 (e.ar x) = 0) }) :=
        givesG_of_engOp (fun _ => rfl) (fun _ => rfl) fun e => by rw [norm128_beq_zero]; rfl
      obtain ⟨t, hexec, hmoved, hreg, hfl⟩ := hgives s hs
      obtain ⟨hle, hrun, hend⟩ := norm128_spec ((s.chan c).eng.ar x)
      exact ⟨t, _, hexec, hmoved, hle, hrun, hend, hreg, hfl⟩

end Sys2Proof.Proofs
end

section
/-! SUPPORT. A disarm and an engine fault: what of the machine they can change, and what becomes of the channel. -/

namespace Sys2Proof.Machine

open Sys2Proof.Safety

/-! ## Disarm -/

section Disarm
variable (s : State) (c : Chan)

theorem State.tbApply_eq : ∃ tb, s.tbApply = { s with tb := tb } := by
  unfold State.tbApply
  split
  · exact ⟨_, rfl⟩
  · split
    · exact ⟨_, rfl⟩
    · exact ⟨_, rfl⟩

theorem State.sweepApply_eq (k : Fin 8) : ∃ l, s.sweepApply k = { s with synths := l } := by
  unfold State.sweepApply
  simp only []
  split
  · split
    · exact ⟨_, rfl⟩
    · split
      · obtain ⟨x, hx⟩ := State.rampEvent_eq (s.setSynth (swOf k) _) k 2 s.now
        exact ⟨_, hx⟩
      · exact ⟨_, rfl⟩
  · exact ⟨_, rfl⟩

/-- What takes effect once a channel is disarmed lies in the timebase, the sweep synthesizers and the vault's idle timer. -/
theorem State.disarmed_eq : ∃ tb synths idle,
    s.disarmed c = { s with tb := tb, synths := synths, vlt := { s.vlt with idleFrom := idle } } := by
  unfold State.disarmed
  by_cases h : s.anyArmed = true
  · obtain ⟨l, hl⟩ := s.sweepApply_eq (pierOf c)
    exact ⟨s.tb, l, some (s.mc s.now), by rw [if_pos h]; exact congrArg State.idleRestart hl⟩
  · obtain ⟨tb, htb⟩ := s.tbApply_eq
    obtain ⟨l, hl⟩ := State.sweepApply_eq { s with tb := tb } (pierOf c)
    exact ⟨tb, l, some (s.mc s.now), by rw [if_neg h, htb]; exact congrArg State.idleRestart hl⟩

theorem State.showTrigger_eq (old : Trigger) : ∃ l, s.showTrigger c old = { s with folios := l } := by
  unfold State.showTrigger
  simp only []
  split
  · exact ⟨_, rfl⟩
  · exact ⟨_, rfl⟩

end Disarm

/-- A channel after a disarm at the instant `t`, which dc `n` is the first to reach. -/
def Channel.disarmed (x : Channel) (t : Instant) (n : Nat) (flags : Word) : Channel :=
  if !x.armed then x
  else
    let y := { x with armed := false, heldRearm := none, wantRearm := false }
    if x.armNext.isSome then { y with disarmNext := some t, lateFlags := flags }
    else if x.folder.closing.isSome then { y with disarmAt := some t, lateFlags := flags }
    else y.finalTrigger.closeAt t n flags

/-- A disarm reaches its channel, its folio, and what is applied once a channel is disarmed. -/
theorem State.disarm_eq (s : State) (c : Chan) (t : Instant) (flags : Word) : ∃ folios tb synths idle,
    s.disarm c t flags = { s.setChan c ((s.chan c).disarmed t (s.dcFrom t) flags) with
      folios := folios, tb := tb, synths := synths, vlt := { s.vlt with idleFrom := idle } } := by
  unfold State.disarm Channel.disarmed
  simp only []
  split
  · exact ⟨_, _, _, _, by rw [State.setChan_chan]⟩
  split
  · obtain ⟨_, _, _, h⟩ := (s.setChan c { s.chan c with
      armed := false, heldRearm := none, wantRearm := false, disarmNext := some t, lateFlags := flags }).disarmed_eq c
    exact ⟨_, _, _, _, h⟩
  split
  · obtain ⟨_, _, _, h⟩ := (s.setChan c { s.chan c with
      armed := false, heldRearm := none, wantRearm := false, disarmAt := some t, lateFlags := flags }).disarmed_eq c
    exact ⟨_, _, _, _, h⟩
  · obtain ⟨l, hl⟩ := State.showTrigger_eq (s.setChan c (Channel.closeAt (Channel.finalTrigger
      { s.chan c with armed := false, heldRearm := none, wantRearm := false }) t (s.dcFrom t) flags)) c (s.chan c).trg
    rw [hl]
    obtain ⟨_, _, _, h⟩ := State.disarmed_eq { (s.setChan c (Channel.closeAt (Channel.finalTrigger
      { s.chan c with armed := false, heldRearm := none, wantRearm := false }) t (s.dcFrom t) flags)) with folios := l } c
    exact ⟨_, _, _, _, h⟩

section DisarmedChannel
variable (x : Channel) (t : Instant) (n : Nat) (flags : Word)

theorem Channel.finalTrigger_eq : ∃ y, x.finalTrigger = { x with trg := y } := by
  unfold Channel.finalTrigger
  simp only []
  split
  · exact ⟨_, rfl⟩
  · exact ⟨_, rfl⟩

@[simp] theorem Channel.closeAt_eng : (x.closeAt t n flags).eng = x.eng := rfl
@[simp] theorem Channel.finalTrigger_eng : x.finalTrigger.eng = x.eng := by obtain ⟨_, h⟩ := x.finalTrigger_eq; rw [h]

@[simp] theorem Channel.disarmed_armed : (x.disarmed t n flags).armed = false := by
  obtain ⟨_, h⟩ := Channel.finalTrigger_eq { x with armed := false, heldRearm := none, wantRearm := false }
  unfold Channel.disarmed
  simp only [h, Channel.closeAt]
  split
  · simp_all
  · split
    · rfl
    · split <;> rfl

@[simp] theorem Channel.disarmed_eng : (x.disarmed t n flags).eng = x.eng := by
  unfold Channel.disarmed
  split
  · rfl
  · simp only []
    split
    · rfl
    · split <;> simp

@[simp] theorem Channel.disarmed_isOpen : (x.disarmed t n flags).rcd.isOpen = x.rcd.isOpen := by
  obtain ⟨_, h⟩ := Channel.finalTrigger_eq { x with armed := false, heldRearm := none, wantRearm := false }
  unfold Channel.disarmed
  simp only [h, Channel.closeAt]
  split
  · rfl
  · split
    · rfl
    · split <;> rfl

@[simp] theorem Channel.disarmed_outq : (x.disarmed t n flags).outq = x.outq := by
  obtain ⟨_, h⟩ := Channel.finalTrigger_eq { x with armed := false, heldRearm := none, wantRearm := false }
  unfold Channel.disarmed
  simp only [h, Channel.closeAt]
  split
  · rfl
  · split
    · rfl
    · split <;> rfl

@[simp] theorem Channel.disarmed_closePosted : (x.disarmed t n flags).folder.closePosted = x.folder.closePosted := by
  obtain ⟨_, h⟩ := Channel.finalTrigger_eq { x with armed := false, heldRearm := none, wantRearm := false }
  unfold Channel.disarmed
  simp only [h, Channel.closeAt]
  split
  · rfl
  · split
    · rfl
    · split <;> rfl

/-- A channel with an open record that nothing closes yet: the record closes at the disarm instant. -/
theorem Channel.disarmed_closes (harmed : x.armed = true) (hnext : x.armNext = none) (hclosing : x.folder.closing = none) :
    (x.disarmed t n flags).rcd = { x.rcd with closeFlags := flags } ∧
    (x.disarmed t n flags).folder = { x.folder with closing := some ((lsbOf t : Int) + x.folder.base), byDisarm := true } ∧
    (x.disarmed t n flags).disarmAt = some t := by
  obtain ⟨_, h⟩ := Channel.finalTrigger_eq { x with armed := false, heldRearm := none, wantRearm := false }
  unfold Channel.disarmed
  dsimp only
  rw [if_neg (by simp [harmed]), if_neg (by simp [hnext]), if_neg (by simp [hclosing]), h]
  exact ⟨rfl, rfl, rfl⟩

end DisarmedChannel

section DisarmFrame
variable (s : State) (c : Chan) (t : Instant) (flags : Word)

@[simp] theorem State.chan_disarm_self :
    (s.disarm c t flags).chan c = (s.chan c).disarmed t (s.dcFrom t) flags := by
  obtain ⟨_, _, _, _, h⟩ := s.disarm_eq c t flags
  rw [h]
  exact s.chan_setChan_self c _

theorem State.chan_disarm_ne {d : Chan} (hd : d ≠ c) : (s.disarm c t flags).chan d = s.chan d := by
  obtain ⟨_, _, _, _, h⟩ := s.disarm_eq c t flags
  rw [h]
  exact s.chan_setChan_ne c d _ hd

@[simp] theorem State.disarm_truss : (s.disarm c t flags).truss = s.truss := by
  obtain ⟨_, _, _, _, h⟩ := s.disarm_eq c t flags; rw [h]; rfl
@[simp] theorem State.disarm_now : (s.disarm c t flags).now = s.now := by
  obtain ⟨_, _, _, _, h⟩ := s.disarm_eq c t flags; rw [h]; rfl
@[simp] theorem State.disarm_pwr : (s.disarm c t flags).pwr = s.pwr := by
  obtain ⟨_, _, _, _, h⟩ := s.disarm_eq c t flags; rw [h]; rfl
@[simp] theorem State.disarm_clocks : (s.disarm c t flags).clocks = s.clocks := by
  obtain ⟨_, _, _, _, h⟩ := s.disarm_eq c t flags; rw [h]; rfl

variable {s} in
theorem State.reported_disarm {n : Nat} {b : Byte} (h : Reported s n b) : Reported (s.disarm c t flags) n b :=
  h.of_truss_eq (s.disarm_truss c t flags)

end DisarmFrame

/-! ## Engine faults -/

/-- The engine once it has faulted in dc `n`. -/
def Engine.faulted (e : Engine) (n : Nat) (code : BitVec 4) : Engine :=
  { e with
    st := .fault, faultCode := code, faultPc := e.pcAt n, queue := [], wdFrom := none, spanOpen := false
    tookClose := false, startDue := none }

/-- The channel of an engine that has faulted in dc `n`, before it is disarmed; `room` says that its writer holds nothing
up. -/
def Channel.faulted (x : Channel) (n : Nat) (code : BitVec 4) (room : Bool) : Channel :=
  { x with
    eng := x.eng.faulted n code
    folder := { x.folder with held := false, frozen := if room then none else x.folder.frozen }
    merge := if x.folder.held then x.merge.rebase n else x.merge }

/-- An engine fault while no open record waits behind a CLOSE. -/
theorem State.engineFault_eq {s : State} {c : Chan} (n : Nat) (code : BitVec 4)
    (hclose : ((s.chan c).folder.closePosted.isSome && (s.chan c).rcd.isOpen) = false) :
    ∃ t, s.engineFault c n code = ((((s.at_ (s.dcAt n)).setChan c
      ((s.chan c).faulted n code ((s.at_ (s.dcAt n)).writerRoom (pierOf c)))).raise (chSrc c) 0x08).disarm c t flagFault) := by
  refine ⟨((s.at_ (s.dcAt n)).setChan c
    ((s.chan c).faulted n code ((s.at_ (s.dcAt n)).writerRoom (pierOf c)))).spanVis n, ?_⟩
  unfold State.engineFault State.modChan
  dsimp only
  rw [if_neg]
  · rfl
  · rw [State.chan_disarm_self, Channel.disarmed_closePosted, Channel.disarmed_isOpen, State.chan_raise,
      State.chan_setChan_self]
    simpa using hclose

/-- An engine fault while no open record waits behind a CLOSE: the engine has stopped, its channel is disarmed, the cause is
on its way, and the other engines are as they were. -/
theorem State.engineFault_spec {s : State} {c : Chan} (n : Nat) (code : BitVec 4)
    (hclose : ((s.chan c).folder.closePosted.isSome && (s.chan c).rcd.isOpen) = false) (hmode : s.pwr.mode ≠ .reset) :
    ((s.engineFault c n code).chan c).eng = (s.chan c).eng.faulted n code ∧
    ((s.engineFault c n code).chan c).armed = false ∧ Reported (s.engineFault c n code) c.val 0x08 ∧
    (∀ d, d ≠ c → (s.engineFault c n code).chan d = s.chan d) := by
  obtain ⟨t, h⟩ := State.engineFault_eq n code hclose
  rw [h]
  refine ⟨?_, ?_, ?_, fun d hd => ?_⟩
  · rw [State.chan_disarm_self, Channel.disarmed_eng, State.chan_raise, State.chan_setChan_self]
    rfl
  · rw [State.chan_disarm_self, Channel.disarmed_armed]
  · exact State.reported_disarm _ _ _ (State.reported_raise _ (chSrc c) 0x08 hmode (by decide))
  · rw [State.chan_disarm_ne _ _ _ _ hd, State.chan_raise, State.chan_setChan_ne _ _ _ _ hd, State.chan_at]

theorem State.engineFault_now {s : State} {c : Chan} (n : Nat) (code : BitVec 4)
    (hclose : ((s.chan c).folder.closePosted.isSome && (s.chan c).rcd.isOpen) = false) :
    (s.engineFault c n code).now = max s.now (s.dcAt n) := by
  obtain ⟨t, h⟩ := State.engineFault_eq n code hclose
  rw [h, State.disarm_now, State.raise_now]
  rfl

/-- A ready instruction whose body is a fault. -/
theorem engFaulted_of_ready {s : State} {c : Chan} {i : Instr} {k : Nat} {body : Nat → State → State} {code : BitVec 4}
    (h : EngReady s c i k) (hclose : (s.chan c).folder.closePosted = none) (hmode : s.pwr.mode ≠ .reset)
    (hbody : body (s.chan c).eng.readyDc ((s.at_ (s.dcAt (s.chan c).eng.readyDc)).setChan c
        { s.chan c with eng := (s.chan c).eng.fetched }) =
      ((s.at_ (s.dcAt (s.chan c).eng.readyDc)).setChan c
        { s.chan c with eng := (s.chan c).eng.fetched }).engineFault c (s.chan c).eng.readyDc code) :
    EngFaulted s (s.engStep c i k body) c code := by
  rw [State.engStep_ready s c i k body h, hbody]
  have hlib := h.own
  obtain ⟨heng, harmed, htold, hothers⟩ := State.engineFault_spec (s := (s.at_ (s.dcAt (s.chan c).eng.readyDc)).setChan c
        { s.chan c with eng := (s.chan c).eng.fetched }) (c := c) (s.chan c).eng.readyDc code
        (by rw [State.chan_setChan_self]; simp [hclose]) hmode
  rw [State.chan_setChan_self] at heng
  refine ⟨by rw [heng]; rfl, by rw [heng]; rfl, ?_, by rw [heng]; rfl, by rw [heng]; rfl, by rw [heng]; rfl, by rw [heng]; rfl,
    by rw [heng]; rfl, harmed, htold, fun d hd => ?_⟩
  · rw [heng]
    simp [Engine.faulted, Engine.fetched, Engine.pcAt, hlib]
  · rw [hothers d hd, State.chan_setChan_ne _ _ _ _ hd, State.chan_at]

end Sys2Proof.Machine
end

section
/-! SUPPORT. Loads and stores of the engine. -/

namespace Sys2Proof.Machine

open Sys2Proof.Safety

/-! ## The frame of an instruction -/

/-- An engine that differs from the one before in nothing but what an instruction may write gives the frame of one. -/
theorem State.engMovedD_setChan {s : State} {c : Chan} {k : Nat} {next : BitVec 12} {d : List (BitVec 4)}
    {a : List (BitVec 3)} {e : Engine}
    (he : e = { (s.chan c).eng.fetched with
      g := e.g, a := e.a, fl := e.fl, pc := next, readyDc := (s.chan c).eng.readyDc + k, dmem := e.dmem
      dmemErr := e.dmemErr, dmemCorr := e.dmemCorr })
    (hg : ∀ j, j ∉ d → e.gr j = (s.chan c).eng.gr j) (ha : ∀ j, j ∉ a → e.ar j = (s.chan c).eng.ar j) :
    EngMovedD s ((s.at_ (s.dcAt (s.chan c).eng.readyDc)).setChan c { s.chan c with eng := e }) c k next d a where
  now := rfl
  only := s.onlyChan_setChan_at c _ _
  chan := by rw [State.chan_setChan_self]
  eng := by rw [State.chan_setChan_self]; exact he
  regs j hj := by rw [State.chan_setChan_self]; exact hg j hj
  accs j hj := by rw [State.chan_setChan_self]; exact ha j hj

/-! ## Data addresses -/

theorem Engine.dataAddr_eq (e : Engine) (a : BitVec 4) (off : BitVec 18) : dataAddr e a off = (e.addr a off).toNat := by
  have h : (s18 off).toInt = off.toInt := BitVec.toInt_signExtend_of_le (by decide)
  unfold dataAddr Engine.addr
  rw [add_eq_ofInt, h]

theorem dataArea_dmem {a : Dword} (h : a.toNat < 0x400) : dataArea a = .dmem a.toNat := if_pos h

theorem dataArea_bank {a : Dword} (h : 0x800 ≤ a.toNat) (h' : a.toNat < 0xC00) :
    dataArea a = .bank ((a.toNat - 0x800) / 0x100) (a.toNat % 0x100) := by
  unfold dataArea
  rw [if_neg (by omega), if_pos ⟨h, h'⟩]

theorem dataArea_bad {a : Dword} (h : (0x400 ≤ a.toNat ∧ a.toNat < 0x800) ∨ 0xC00 ≤ a.toNat) : dataArea a = .bad := by
  unfold dataArea
  rw [if_neg (by omega), if_neg (by omega)]

/-- The address of the second word of a pair. -/
theorem toNat_add_one_of_even {a : Dword} (h : a.toNat % 2 = 0) : (a + 1).toNat = a.toNat + 1 := by
  have := a.isLt
  have hone : (1 : Dword).toNat = 1 := rfl
  rw [BitVec.toNat_add, hone, Nat.mod_eq_of_lt (by omega)]

theorem getLsbD_zero_eq (a : Dword) : a.getLsbD 0 = decide (a.toNat % 2 = 1) := by
  simp [BitVec.getLsbD, Nat.testBit_zero]

section Access
variable {e : Engine} {a : Dword} {store : Bool}

/-- A load may read what the address space holds there. -/
theorem dataArea_loadable (h : Loadable e a.toNat) : dataArea a = .dmem a.toNat ∧ a.toNat < 0x400 ∧ e.dmemErr.lookup a.toNat ≠ some true ∨
    dataArea a = .bank ((a.toNat - 0x800) / 0x100) (a.toNat % 0x100) ∧ 0x800 ≤ a.toNat := by
  obtain ⟨hlt, herr⟩ | ⟨hge, hlt⟩ := h
  · exact .inl ⟨dataArea_dmem hlt, hlt, herr⟩
  · exact .inr ⟨dataArea_bank hge hlt, hge⟩

theorem accessOf_load (h : Loadable e a.toNat) : accessOf a false false = some [dataArea a] := by
  obtain ⟨ha, -⟩ | ⟨ha, -⟩ := dataArea_loadable h <;> simp [accessOf, ha]

theorem accessOf_load_pair (heven : a.toNat % 2 = 0) (h : Loadable e a.toNat) (h' : Loadable e (a + 1).toNat) :
    accessOf a true false = some [dataArea a, dataArea (a + 1)] := by
  have hbit : a.getLsbD 0 = false := by rw [getLsbD_zero_eq]; simp [heven]
  obtain ⟨ha, -⟩ | ⟨ha, -⟩ := dataArea_loadable h <;> obtain ⟨hb, -⟩ | ⟨hb, -⟩ := dataArea_loadable h' <;>
    · unfold accessOf
      rw [hbit, ha, hb]
      rfl

theorem accessOf_bad (h : (0x400 ≤ a.toNat ∧ a.toNat < 0x800) ∨ 0xC00 ≤ a.toNat) : accessOf a false store = none := by
  simp [accessOf, dataArea_bad h]

theorem accessOf_odd (h : a.toNat % 2 = 1) : accessOf a true store = none := by
  have hbit : a.getLsbD 0 = true := by rw [getLsbD_zero_eq]; simp [h]
  simp [accessOf, hbit]

theorem accessOf_store (h : a.toNat < 0x400) : accessOf a false true = some [.dmem a.toNat] := by
  simp [accessOf, dataArea_dmem h]

theorem accessOf_store_pair (heven : a.toNat % 2 = 0) (h : a.toNat < 0x400) :
    accessOf a true true = some [.dmem a.toNat, .dmem (a.toNat + 1)] := by
  have hbit : a.getLsbD 0 = false := by rw [getLsbD_zero_eq]; simp [heven]
  have hnext := toNat_add_one_of_even heven
  unfold accessOf
  rw [hbit, dataArea_dmem h, dataArea_dmem (a := a + 1) (by omega), hnext]
  rfl

theorem accessOf_store_outside (wide : Bool) (h : 0x400 ≤ a.toNat) : accessOf a wide true = none := by
  have harea : ∀ i, dataArea a ≠ .dmem i := by
    intro i
    unfold dataArea
    rw [if_neg (by omega)]
    split <;> simp
  unfold accessOf
  split
  · rfl
  · cases wide <;> cases hd : dataArea a <;> simp_all

end Access

/-! ## Error correction of the words loaded -/

section Check
variable (e : Engine) (l : List DataArea) (i : Nat)

theorem Engine.dmemCheck_bank (b : Nat) : e.dmemCheck (.bank b i :: l) = e.dmemCheck l := rfl

variable {e i}

theorem Engine.dmemCheck_clean (h : e.dmemErr.lookup i = none) : e.dmemCheck (.dmem i :: l) = e.dmemCheck l := by
  simp [Engine.dmemCheck, h]

theorem Engine.dmemCheck_corrected (h : e.dmemErr.lookup i = some false) :
    e.dmemCheck (.dmem i :: l) = ((e.dmemCheck l).1, (e.dmemCheck l).2 + 1) := by
  simp [Engine.dmemCheck, h]

theorem Engine.dmemCheck_uncorrectable (h : e.dmemErr.lookup i = some true) : (e.dmemCheck (.dmem i :: l)).1 = true := by
  simp [Engine.dmemCheck, h]

end Check

/-- Words that may be read have no uncorrectable error, and those that are corrected are counted. -/
theorem Engine.dmemCheck_loadable (e : Engine) (l : List Dword) (h : ∀ a ∈ l, Loadable e a.toNat) :
    e.dmemCheck (l.map dataArea) = (false, corrected e (l.map BitVec.toNat)) := by
  induction l with
  | nil => rfl
  | cons a l ih =>
    have ih := ih fun b hb => h b (List.mem_cons_of_mem _ hb)
    rw [List.map_cons, List.map_cons]
    unfold corrected at ih ⊢
    obtain ⟨ha, hlt, herr⟩ | ⟨ha, hge⟩ := dataArea_loadable (h a List.mem_cons_self)
    · rw [ha]
      cases hlook : e.dmemErr.lookup a.toNat with
      | none => rw [Engine.dmemCheck_clean _ hlook, ih, List.filter_cons_of_neg (by simp [hlook])]
      | some b =>
        obtain rfl : b = false := by simpa [hlook] using herr
        rw [Engine.dmemCheck_corrected _ hlook, ih, List.filter_cons_of_pos (by simp [hlook, hlt]), List.length_cons]
    · rw [ha, Engine.dmemCheck_bank, ih, List.filter_cons_of_neg (by simp; omega)]

/-- What a load reads at an address that it may read. -/
theorem Channel.dataWord_loadable {e : Engine} {a : Dword} (x : Channel) (h : Loadable e a.toNat) :
    x.dataWord (dataArea a) = dataAt x a.toNat := by
  unfold dataAt
  obtain ⟨ha, hlt, -⟩ | ⟨ha, hge⟩ := dataArea_loadable h
  · rw [ha, if_pos hlt]; rfl
  · rw [ha, if_neg (by omega)]; rfl

/-! ## Loads -/

/-- The engine that has counted what the load of the words at `l` corrects. -/
def Engine.counted (e : Engine) (l : List Dword) : Engine :=
  { e with dmemCorr := satAdd e.dmemCorr (corrected e (l.map BitVec.toNat)) }

section Load
variable {s : State} {c : Chan} {i : Instr} {wide : Bool} {addr : Engine → Dword} {f : List Dword → Engine → Engine}

/-- A load of words that may be read. -/
theorem State.engLoad_loadable (l : List Dword) (h : EngReady s c i 2)
    (hl : accessOf (addr (s.chan c).eng.fetched) wide false = some (l.map dataArea))
    (hok : ∀ a ∈ l, Loadable (s.chan c).eng a.toNat) :
    s.engLoad c i wide addr f = (s.at_ (s.dcAt (s.chan c).eng.readyDc)).setChan c
      { s.chan c with eng := (f (l.map fun a => dataAt (s.chan c) a.toNat) ((s.chan c).eng.fetched.counted l)).advance
                        (s.chan c).eng.readyDc 2 } := by
  have hcheck : (s.chan c).eng.fetched.dmemCheck (l.map dataArea) = _ := (s.chan c).eng.dmemCheck_loadable l hok
  have hdata : (l.map dataArea).map ({ s.chan c with eng := (s.chan c).eng.fetched } : Channel).dataWord =
      l.map fun a => dataAt (s.chan c) a.toNat := by
    rw [List.map_map]
    exact List.map_congr_left fun a ha => Channel.dataWord_loadable _ (hok a ha)
  unfold State.engLoad
  rw [State.engStep_ready s c i 2 _ h]
  simp only [State.chan_setChan_self, hl, hcheck, hdata, Bool.false_eq_true, if_false, State.setChan_setChan, Channel.modEng]
  rfl

theorem State.engLoad_bad (h : EngReady s c i 2) (hclose : (s.chan c).folder.closePosted = none)
    (hmode : s.pwr.mode ≠ .reset) (hl : accessOf (addr (s.chan c).eng.fetched) wide false = none) :
    EngFaulted s (s.engLoad c i wide addr f) c 4 := by
  refine engFaulted_of_ready h hclose hmode ?_
  simp only [State.chan_setChan_self, hl]

theorem State.engLoad_uncorrectable {l : List DataArea} (h : EngReady s c i 2)
    (hclose : (s.chan c).folder.closePosted = none) (hmode : s.pwr.mode ≠ .reset)
    (hl : accessOf (addr (s.chan c).eng.fetched) wide false = some l)
    (herr : ((s.chan c).eng.fetched.dmemCheck l).1 = true) : EngFaulted s (s.engLoad c i wide addr f) c 3 := by
  refine engFaulted_of_ready h hclose hmode ?_
  simp only [State.chan_setChan_self, hl, herr, if_true]

end Load

/-! ## Stores -/

/-- A store of one DMEM word. -/
theorem Engine.putDmem_dmem (e : Engine) (i : Nat) (v : Dword) :
    e.putDmem (.dmem i) v = { e with dmem := sset 0 e.dmem i v, dmemErr := e.dmemErr.filter (fun p => p.1 ≠ i) } := by
  have h : e.dmemErr.filter (fun p => p.1 != i) = e.dmemErr.filter (fun p => p.1 ≠ i) :=
    List.filter_congr fun p _ => by simp [bne, beq_eq_decide]
  rw [← h]
  rfl

/-- A store of two DMEM words. -/
theorem Engine.putDmem_pair (e : Engine) (i j : Nat) (v w : Dword) :
    (e.putDmem (.dmem i) v).putDmem (.dmem j) w = { e with
      dmem := sset 0 (sset 0 e.dmem i v) j w, dmemErr := e.dmemErr.filter (fun p => p.1 ≠ i ∧ p.1 ≠ j) } := by
  have h : (e.dmemErr.filter fun p => p.1 ≠ i).filter (fun p => p.1 ≠ j) = e.dmemErr.filter fun p => p.1 ≠ i ∧ p.1 ≠ j := by
    rw [List.filter_filter]
    exact List.filter_congr fun p _ => by simp [Bool.and_comm]
  rw [Engine.putDmem_dmem, Engine.putDmem_dmem, h]

theorem Qword.low_eq (w : Qword) : w.setWidth 64 = BitVec.ofNat 64 w.toNat := rfl

theorem Qword.high_eq (w : Qword) : w.extractLsb' 64 64 = BitVec.ofNat 64 (w.toNat / 2 ^ 64) := by
  rw [BitVec.extractLsb', Nat.shiftRight_eq_div_pow]

section Store
variable {s : State} {c : Chan} {i : Instr} {wide : Bool} {k : Nat} {addr : Engine → Dword} {f : Engine → List Dword}

theorem State.engStore_some {l : List DataArea} (h : EngReady s c i k)
    (hl : accessOf (addr (s.chan c).eng.fetched) wide true = some l) :
    s.engStore c i wide k addr f = (s.at_ (s.dcAt (s.chan c).eng.readyDc)).setChan c
      { s.chan c with eng := ((l.zip (f (s.chan c).eng.fetched)).foldl (fun e p => e.putDmem p.1 p.2)
        (s.chan c).eng.fetched).advance (s.chan c).eng.readyDc k } := by
  unfold State.engStore
  rw [State.engStep_ready s c i k _ h]
  simp only [State.chan_setChan_self, hl, State.setChan_setChan, Channel.modEng]

theorem State.engStore_bad (h : EngReady s c i k) (hclose : (s.chan c).folder.closePosted = none)
    (hmode : s.pwr.mode ≠ .reset) (hl : accessOf (addr (s.chan c).eng.fetched) wide true = none) :
    EngFaulted s (s.engStore c i wide k addr f) c 4 := by
  refine engFaulted_of_ready h hclose hmode ?_
  simp only [State.chan_setChan_self, hl]

end Store

end Sys2Proof.Machine

namespace Sys2Proof.Proofs

open Sys2Proof.Machine Sys2Proof.Safety

/-- Settles O6: a load of words that may be read takes them from DMEM or a bank; at any other address, and at a word with
an uncorrectable error, it faults. -/
theorem engineLoads : Obligations.EngineLoads := by
  intro s c d a x off
  dsimp only
  have haddr : (s.chan c).eng.fetched.addr a off = (s.chan c).eng.addr a off := rfl
  rw [Engine.dataAddr_eq]
  generalize hA : (s.chan c).eng.addr a off = A
  rw [hA] at haddr
  refine ⟨fun h hok => ?_, fun h heven hok hok' => ?_, fun hclose hmode => ⟨fun h hbad => ?_, fun h hodd => ?_, fun h hlt herr => ?_⟩⟩
  · have hl := State.engLoad_loadable (f := fun l e => e.gw d (l.getD 0 0)) [A] h
      (addr := fun e => e.addr a off) (by rw [haddr]; exact accessOf_load hok) (by simpa using hok)
    refine ⟨_, rfl, ?_⟩
    rw [hl]
    refine ⟨State.engMovedD_setChan ?_ (fun j hj => ?_) (fun j hj => ?_), ?_⟩
    · rw [Engine.gw_eq]; rfl
    · exact Engine.gr_gw_ne _ _ _ _ (List.ne_of_not_mem_cons hj)
    · exact Engine.ar_gw _ _ _ _
    · rw [State.chan_setChan_self]
      refine ⟨Engine.gr_gw_self _ _ _, ?_⟩
      rw [Engine.gw_eq]
      exact ⟨rfl, rfl, rfl, rfl⟩
  · have hnext := toNat_add_one_of_even heven
    rw [← hnext] at hok' ⊢
    have hl := State.engLoad_loadable (f := fun l e => e.aw x (l.getD 1 0 ++ l.getD 0 0)) [A, A + 1] h
      (addr := fun e => e.addr a off) (by rw [haddr]; exact accessOf_load_pair heven hok hok') (by simp [hok]; exact hok')
    refine ⟨_, rfl, ?_⟩
    rw [hl]
    refine ⟨State.engMovedD_setChan rfl (fun j _ => rfl) (fun j hj => ?_), ?_⟩
    · exact Engine.ar_aw_ne _ _ _ _ (List.ne_of_not_mem_cons hj)
    · rw [State.chan_setChan_self]
      exact ⟨Engine.ar_aw_self _ _ _, rfl, rfl, rfl, rfl⟩
  · exact ⟨_, rfl, State.engLoad_bad h hclose hmode (by rw [haddr]; exact accessOf_bad hbad)⟩
  · exact ⟨_, rfl, State.engLoad_bad h hclose hmode (by rw [haddr]; exact accessOf_odd hodd)⟩
  · refine ⟨_, rfl, State.engLoad_uncorrectable (l := [.dmem A.toNat]) h hclose hmode ?_
      (Engine.dmemCheck_uncorrectable _ herr)⟩
    rw [haddr]
    simp [accessOf, dataArea_dmem hlt]

/-- Settles O7: a store writes DMEM words alone, at any other address it faults; and a sparse table reads back what was
written to it. -/
theorem engineStoresAndTables : Obligations.EngineStoresAndTables := by
  refine ⟨fun s c d a x off => ?_, fun d l n m v h => ⟨sparse_sset l n v h, ?_⟩⟩
  · dsimp only
    have haddr : (s.chan c).eng.fetched.addr a off = (s.chan c).eng.addr a off := rfl
    rw [Engine.dataAddr_eq]
    generalize hA : (s.chan c).eng.addr a off = A
    rw [hA] at haddr
    refine ⟨fun h hlt => ?_, fun h heven hlt => ?_, fun hclose hmode => ⟨fun h hge => ?_, fun h hbad => ?_⟩⟩
    · have hs := State.engStore_some (f := fun e => [e.gr d]) h (addr := fun e => e.addr a off)
        (by rw [haddr]; exact accessOf_store hlt)
      rw [List.zip_cons_cons, List.zip_nil_left, List.foldl_cons, List.foldl_nil, Engine.putDmem_dmem] at hs
      refine ⟨_, rfl, ?_⟩
      rw [hs]
      refine ⟨State.engMovedD_setChan rfl (fun j _ => rfl) (fun j _ => rfl), ?_⟩
      rw [State.chan_setChan_self]
      exact ⟨rfl, rfl, rfl, rfl⟩
    · have hs := State.engStore_some (f := fun e => [(e.ar x).setWidth 64, (e.ar x).extractLsb' 64 64]) h
        (addr := fun e => e.addr a off) (by rw [haddr]; exact accessOf_store_pair heven hlt)
      rw [List.zip_cons_cons, List.zip_cons_cons, List.zip_nil_left, List.foldl_cons, List.foldl_cons, List.foldl_nil,
        Engine.putDmem_pair, Qword.low_eq, Qword.high_eq] at hs
      refine ⟨_, rfl, ?_⟩
      rw [hs]
      refine ⟨State.engMovedD_setChan rfl (fun j _ => rfl) (fun j _ => rfl), ?_⟩
      rw [State.chan_setChan_self]
      exact ⟨rfl, rfl, rfl, rfl⟩
    · exact ⟨_, rfl, State.engStore_bad h hclose hmode (by rw [haddr]; exact accessOf_store_outside _ hge)⟩
    · refine ⟨_, rfl, State.engStore_bad h hclose hmode ?_⟩
      rw [haddr]
      exact hbad.elim accessOf_odd (accessOf_store_outside true)
  · split
    next hm => rw [hm, sget_sset_self l n v h]
    next hm => exact sget_sset_ne l n m v hm

end Sys2Proof.Proofs
end

section
/-! SUPPORT. Branches, events, EMIT, and the instructions that act on the channel. -/

namespace Sys2Proof.Machine

open Sys2Proof.Safety

/-! ## Control flow -/

section Flow
variable {s : State} {c : Chan} {i : Instr} {k : Nat} {F : Nat → Engine → Engine}

/-- An instruction whose effect lies within the engine and which places the program counter itself. -/
theorem State.engStep_modEng (h : EngReady s c i k) :
    s.engStep c i k (fun n z => z.modChan c fun x => x.modEng (F n)) =
      (s.at_ (s.dcAt (s.chan c).eng.readyDc)).setChan c
        { s.chan c with eng := F (s.chan c).eng.readyDc (s.chan c).eng.fetched } := by
  rw [State.engStep_ready s c i k _ h]
  simp only [State.modChan, State.chan_setChan_self, State.setChan_setChan, Channel.modEng]

/-- The frame of an instruction that leaves DMEM alone. -/
theorem State.engMoved_setChan {next : BitVec 12} {d : List (BitVec 4)} {a : List (BitVec 3)} {e : Engine}
    (he : e = { (s.chan c).eng.fetched with
      g := e.g, a := e.a, fl := e.fl, pc := next, readyDc := (s.chan c).eng.readyDc + k })
    (hg : ∀ j, j ∉ d → e.gr j = (s.chan c).eng.gr j) (ha : ∀ j, j ∉ a → e.ar j = (s.chan c).eng.ar j) :
    EngMoved s ((s.at_ (s.dcAt (s.chan c).eng.readyDc)).setChan c { s.chan c with eng := e }) c k next d a := by
  refine ⟨State.engMovedD_setChan (by rw [he]) hg ha, ?_⟩
  unfold DmemSame
  rw [State.chan_setChan_self, he]
  exact ⟨rfl, rfl, rfl⟩

end Flow

/-! ## Events -/

section Take
variable {x : Channel} {n : Nat} {d : BitVec 4} {v : Ev} {rest : List Ev}

/-- The registers an event is written to are three different ones. -/
theorem eventRegs_eq (e : Engine) (hd : d.toNat ≤ 13) (i : BitVec 4) :
    (((e.gw d v.headWord).gw (d + 1) (stamp64 v.time)).gw (d + 2) v.val).gr i = eventRegs e d v i := by
  have h1 : d ≠ d + 1 := by bv_omega
  have h2 : d ≠ d + 2 := by bv_omega
  have h3 : d + 1 ≠ d + 2 := by bv_omega
  unfold eventRegs
  by_cases hi2 : i = d + 2
  · subst hi2
    rw [Engine.gr_gw_self, if_neg h2.symm, if_neg h3.symm, if_pos rfl]
  by_cases hi1 : i = d + 1
  · subst hi1
    rw [Engine.gr_gw_ne _ _ _ _ hi2, Engine.gr_gw_self, if_neg h1.symm, if_pos rfl]
  by_cases hi0 : i = d
  · subst hi0
    rw [Engine.gr_gw_ne _ _ _ _ hi2, Engine.gr_gw_ne _ _ _ _ hi1, Engine.gr_gw_self, if_pos rfl]
    rfl
  · rw [Engine.gr_gw_ne _ _ _ _ hi2, Engine.gr_gw_ne _ _ _ _ hi1, Engine.gr_gw_ne _ _ _ _ hi0, if_neg hi0, if_neg hi1,
      if_neg hi2]
    split
    · next h => rw [h]; rfl
    · rfl

/-- Three writes of general registers change nothing else. -/
theorem Engine.gw_gw_gw_eq (e : Engine) (a b c : BitVec 4) (u v w : Dword) :
    ((e.gw a u).gw b v).gw c w = { e with g := (((e.gw a u).gw b v).gw c w).g } := by
  unfold Engine.gw
  (repeat' split) <;> rfl

/-- What taking an event leaves of the engine: the rest of the queue, three registers, and the span's data. -/
theorem Channel.takeEvent_spec (hq : x.eng.queue = v :: rest) (hd : d.toNat ≤ 13) :
    (x.takeEvent n d).eng.queue = rest ∧ (∀ i, (x.takeEvent n d).eng.gr i = eventRegs x.eng d v i) ∧
    (x.takeEvent n d).eng.a = x.eng.a ∧ (x.takeEvent n d).eng.fl = x.eng.fl ∧ (x.takeEvent n d).eng.pc = x.eng.pc ∧
    (x.takeEvent n d).eng.st = x.eng.st ∧ (x.takeEvent n d).eng.dmem = x.eng.dmem := by
  have hr := eventRegs_eq (v := v) x.eng hd
  have hsame := x.eng.gw_gw_gw_eq d (d + 1) (d + 2) v.headWord (stamp64 v.time) v.val
  unfold Channel.takeEvent
  rw [hq]
  dsimp only
  generalize ((x.eng.gw d v.headWord).gw (d + 1) (stamp64 v.time)).gw (d + 2) v.val = e1 at hr hsame
  refine ⟨rfl, hr, ?_⟩
  rw [hsame]
  exact ⟨rfl, rfl, rfl, rfl, rfl⟩

end Take

/-! ## The EMIT word -/

theorem emitWord_fst (w : Qword) : (emitWord w).1 = emitted w := by
  have hw := w.isLt
  have hfld : fld w 108 20 = w.toNat / 2 ^ 108 := Nat.mod_eq_of_lt (by omega)
  have hput : putFld w 108 20 0xFFFFF = BitVec.ofNat 128 (0xFFFFF * 2 ^ 108 + w.toNat % 2 ^ 108) := by
    unfold putFld
    rw [hfld]
    congr 1
    omega
  unfold emitWord emitted
  rw [hfld, hput]
  dsimp only
  split <;> rfl

@[simp] theorem Channel.closeFull_eng (x : Channel) (n : Nat) : (x.closeFull n).eng = x.eng := by
  unfold Channel.closeFull; dsimp only; (repeat' split) <;> rfl
@[simp] theorem Channel.closeFull_outq (x : Channel) (n : Nat) : (x.closeFull n).outq = x.outq := by
  unfold Channel.closeFull; dsimp only; (repeat' split) <;> rfl

/-- A word handed over does not reach the engine. -/
@[simp] theorem Channel.handWord_eng (x : Channel) (n : Nat) (w : OutWord) : (x.handWord n w).eng = x.eng := by
  unfold Channel.handWord
  dsimp only
  (repeat' split) <;> simp

/-- A word handed over to an open record as it enters the output queue: unwritten where the ring is full behind the trigger
word, otherwise at the write pointer, an EMIT word under KIND RESULT or USER. -/
def Channel.outWord (x : Channel) (n : Nat) (w : OutWord) : OutWord :=
  if x.rcd.fs = .fill ∧ x.rcd.tw = some x.rcd.wp then { w with dc := n, g := none }
  else { w with
    word := (if w.emit then emitWord w.word else (w.word, false)).1, dc := n, g := some (x.rcd.base + 8 + x.rcd.wp) }

theorem Channel.handWord_closed {x : Channel} (n : Nat) (w : OutWord) (h : x.rcd.isOpen = false) : x.handWord n w = x := by
  simp [Channel.handWord, h]

/-- A word handed over enters the output queue of an open record. -/
theorem Channel.handWord_outq {x : Channel} (n : Nat) (w : OutWord) (h : x.rcd.isOpen = true) :
    (x.handWord n w).outq = x.outq ++ [x.outWord n w] := by
  unfold Channel.handWord Channel.outWord
  by_cases hfull : x.rcd.fs = .fill ∧ x.rcd.tw = some x.rcd.wp
  · simp [h, hfull]
  · rw [if_neg hfull]
    simp only [h, hfull, Bool.not_true, Bool.false_eq_true, if_false, Bool.and_eq_true, decide_eq_true_eq]
    cases x.rcd.fs <;> dsimp only
    · split <;> simp
    · split <;> simp

/-- A word of EMIT enters the output queue while a record is open. -/
theorem Channel.handOther_passed (x : Channel) (n : Nat) (w : Qword) : Passed x (x.handOther n true w) n w := by
  unfold Passed Channel.handOther
  by_cases hopen : x.rcd.isOpen = true
  · rw [if_pos hopen, Channel.handWord_outq _ _ hopen]
    refine ⟨_, rfl, ?_⟩
    unfold Channel.outWord
    by_cases hfull : x.rcd.fs = .fill ∧ x.rcd.tw = some x.rcd.wp
    · rw [if_pos hfull, if_pos hfull]
      exact ⟨rfl, rfl, rfl, rfl⟩
    · rw [if_neg hfull, if_neg hfull, if_pos rfl, emitWord_fst]
      exact ⟨rfl, rfl, rfl, rfl⟩
  · rw [if_neg hopen, Channel.handWord_closed _ _ (by simpa using hopen)]

/-! ## Stream time -/

/-- Stream time does not look at the engines, nor at the time of the last event. -/
theorem State.streamTime_setEng (s : State) (c d : Chan) (t : Instant) (e : Engine) (n : Nat) :
    ((s.at_ t).setChan c { s.chan c with eng := e }).streamTime d n = s.streamTime d n := by
  generalize hz : (s.at_ t).setChan c { s.chan c with eng := e } = z
  have hchan : ∀ d, ∃ e', z.chan d = { s.chan d with eng := e' } := by
    intro d
    subst hz
    by_cases hd : d = c
    · exact ⟨e, by rw [hd, State.chan_setChan_self]⟩
    · exact ⟨_, by rw [State.chan_setChan_ne _ _ _ _ hd]; rfl⟩
  have hlane : ∀ i, z.laneAt i = s.laneAt i := by
    intro i
    obtain ⟨_, h⟩ := hchan (laneChan i)
    unfold State.laneAt
    rw [h]; rfl
  obtain ⟨_, hd⟩ := hchan d
  have hdress : z.dress = s.dress := by
    subst hz
    funext i p en
    unfold State.dress
    rw [hlane]; rfl
  have hhead : z.headOf d = s.headOf d := by
    funext i p
    unfold State.headOf
    rw [hlane, hd]
  have hmarks : z.openMarks d = s.openMarks d := by
    unfold State.openMarks
    simp only [hdress, hlane, hd]
    rfl
  have hedge : z.streamEdge n = s.streamEdge n := by subst hz; rfl
  have hwr : z.writeEdge = s.writeEdge := by subst hz; rfl
  have hwait : z.waiting d = s.waiting d := by
    unfold State.waiting
    simp only [hdress, hlane, hhead, hmarks, hwr, hd]
    rfl
  unfold State.streamTime State.streamAxis
  rw [hedge, hwait, hd]

end Sys2Proof.Machine
end

section
/-! SUPPORT. The statements about branches, events, EMIT, and the instructions that act on the channel. -/

namespace Sys2Proof.Machine

open Sys2Proof.Safety

section Evts
variable {s : State} {c : Chan} {i : Instr} {d : BitVec 4} {v : Ev} {rest : List Ev}

/-- What the obligations ask of an engine that has taken the event `v` and goes on at dc `n` with the flags `fl`. -/
structure TookEvent (s t : State) (c : Chan) (d : BitVec 4) (v : Ev) (rest : List Ev) (fl : EngFlags) (n : Nat) : Prop where
  only : OnlyChan s t c
  queue : (t.chan c).eng.queue = rest
  regs : ∀ i, (t.chan c).eng.gr i = eventRegs (s.chan c).eng d v i
  accs : (t.chan c).eng.a = (s.chan c).eng.a
  flags : (t.chan c).eng.fl = fl
  pc : (t.chan c).eng.pc = (s.chan c).eng.pc + 1
  ready : (t.chan c).eng.readyDc = n
  st : (t.chan c).eng.st = .run
  dmem : (t.chan c).eng.dmem = (s.chan c).eng.dmem

/-- The engine that has taken an event goes on at the next word. -/
theorem tookEvent_setChan {e : Engine} {F : Engine → Engine} {fl : EngFlags} {n m : Nat} {a : Instant}
    (hsame : e = { (s.chan c).eng with pcRun := e.pcRun, imemCorr := e.imemCorr })
    (hq : (s.chan c).eng.queue = v :: rest) (hd : d.toNat ≤ 13)
    (hF : ∀ e1 : Engine, e1.fl = (s.chan c).eng.fl → e1.st = (s.chan c).eng.st →
      F e1 = { e1 with fl := fl, pc := e1.pc + 1, readyDc := m, st := .run }) :
    TookEvent s ((s.at_ a).setChan c ((({ s.chan c with eng := e } : Channel).takeEvent n d).modEng F)) c d v rest fl m := by
  obtain ⟨hqueue, hregs, haccs, hfl, hpc, hst, hdmem⟩ := Channel.takeEvent_spec
    (x := { s.chan c with eng := e }) (n := n) (d := d) (v := v) (rest := rest) (by rw [hsame]; exact hq) hd
  refine ⟨s.onlyChan_setChan_at c _ _, ?_, fun j => ?_, ?_, ?_, ?_, ?_, ?_, ?_⟩ <;>
    rw [State.chan_setChan_self, Channel.modEng, hF _ (by rw [hfl, hsame]) (by rw [hst, hsame])]
  · exact hqueue
  · rw [hsame] at hregs
    rw [hsame]
    exact hregs j
  · rw [haccs, hsame]
  · rw [hpc, hsame]
  · rw [hdmem, hsame]

section Taken
variable (hq : (s.chan c).eng.queue = v :: rest) (hd : d.toNat ≤ 13)
include hq hd

theorem State.evt_take (h : EngReady s c i 0) (hclose : (s.chan c).closesBy ((s.chan c).eng.readyDc + 3) = false) :
    TookEvent s (s.evt c i d) c d v rest (s.chan c).eng.fl ((s.chan c).eng.readyDc + 3) := by
  have hcl : ({ s.chan c with eng := (s.chan c).eng.fetched } : Channel).closesBy ((s.chan c).eng.readyDc + 3) = false := hclose
  have hemp : (s.chan c).eng.fetched.queue.isEmpty = false := by rw [show (s.chan c).eng.fetched.queue = v :: rest from hq]; rfl
  unfold State.evt
  rw [State.engStep_ready s c i 0 _ h]
  simp only [State.chan_setChan_self, hemp, hcl, Bool.false_eq_true, if_false, State.setChan_setChan]
  refine tookEvent_setChan rfl hq hd fun e1 hfl hst => ?_
  rw [← hfl, ← h.run, ← hst]
  rfl

theorem State.evtp_take (h : EngReady s c i 0) (hclose : (s.chan c).closesBy ((s.chan c).eng.readyDc + 3) = false) :
    TookEvent s (s.evtp c i d) c d v rest { (s.chan c).eng.fl with z := false } ((s.chan c).eng.readyDc + 3) := by
  have hcl : ({ s.chan c with eng := (s.chan c).eng.fetched } : Channel).closesBy ((s.chan c).eng.readyDc + 3) = false := hclose
  have hemp : (s.chan c).eng.fetched.queue.isEmpty = false := by rw [show (s.chan c).eng.fetched.queue = v :: rest from hq]; rfl
  have hbit : bit (s.chan c).eng.queue.isEmpty = 0 := by rw [hq]; rfl
  unfold State.evtp
  rw [hbit, State.engStep_ready s c i 0 _ h]
  simp only [State.chan_setChan_self, hemp, hcl, Bool.false_eq_true, if_false, State.setChan_setChan]
  refine tookEvent_setChan rfl hq hd fun e1 hfl hst => ?_
  rw [← hfl, ← h.run, ← hst]
  rfl

end Taken

theorem State.evtWaitEnd_take (hq : (s.chan c).eng.queue = v :: rest) (hd : (s.chan c).eng.evtD.toNat ≤ 13)
    (hon : s.chOn c = true) (hst : (s.chan c).eng.st = .wait)
    (hclose : (s.chan c).closesBy (max ((s.chan c).eng.wdFrom.getD 0) (s.chan c).eng.readyDc + 3) = false) :
    TookEvent s (s.evtWaitEnd c) c (s.chan c).eng.evtD v rest (s.chan c).eng.fl
      (max ((s.chan c).eng.wdFrom.getD 0) (s.chan c).eng.readyDc + 3) := by
  have hemp : (s.chan c).eng.queue.isEmpty = false := by rw [hq]; rfl
  unfold State.evtWaitEnd
  simp only [hon, hst, hemp, hclose, beq_self_eq_true, Bool.not_false, Bool.and_self, if_true, Bool.false_eq_true, if_false]
  refine tookEvent_setChan (e := (s.chan c).eng) rfl hq hd fun e1 hfl _ => ?_
  rw [← hfl]
  rfl

theorem State.evtp_none (hq : (s.chan c).eng.queue = []) (h : EngReady s c i 1) :
    EngMoved s (s.evtp c i d) c 1 ((s.chan c).eng.pc + 1) [] [] ∧
      ((s.evtp c i d).chan c).eng.fl = { (s.chan c).eng.fl with z := true } := by
  have hemp : (s.chan c).eng.fetched.queue.isEmpty = true := by rw [show (s.chan c).eng.fetched.queue = [] from hq]; rfl
  have hbit : bit (s.chan c).eng.queue.isEmpty = 1 := by rw [hq]; rfl
  unfold State.evtp
  rw [hbit, State.engStep_ready s c i 1 _ h]
  simp only [State.chan_setChan_self, hemp, if_true, State.setChan_setChan, Channel.modEng]
  exact ⟨State.engMoved_setChan rfl (fun _ _ => rfl) fun _ _ => rfl, by trivial⟩

theorem State.evt_none (hq : (s.chan c).eng.queue = []) (hclose : (s.chan c).eng.tookClose = false) (h : EngReady s c i 0) :
    OnlyChan s (s.evt c i d) c ∧ ((s.evt c i d).chan c).eng = { (s.chan c).eng with
      st := .wait, evtD := d, pcRun := (s.chan c).eng.pc, imemCorr := fetchCount (s.chan c).eng } := by
  have hemp : (s.chan c).eng.fetched.queue.isEmpty = true := by rw [show (s.chan c).eng.fetched.queue = [] from hq]; rfl
  have hcl : (s.chan c).eng.fetched.tookClose = false := hclose
  unfold State.evt
  rw [State.engStep_ready s c i 0 _ h]
  simp only [State.chan_setChan_self, hemp, hcl, if_true, State.setChan_setChan, Channel.modEng, Bool.false_and,
    Bool.false_eq_true, if_false]
  exact ⟨s.onlyChan_setChan_at c _ _, by rw [← hclose]; rfl⟩

theorem exec_evt (h : (s.chan c).eng.lib = none) : exec (.evt c d) s = .next (s.evt c (.evt c d) d) := by
  have he : exec (.evt c d) s = execEvt c d s := rfl
  rw [he, execEvt, h]

theorem exec_evtWaitEnd (h : (s.chan c).eng.lib = none) : exec (.evtWaitEnd c) s = .next (s.evtWaitEnd c) := by
  have he : exec (.evtWaitEnd c) s = execEvtWaitEnd c s := rfl
  rw [he, execEvtWaitEnd, h]

end Evts

/-! ## Branches -/

section Branches
variable {s : State} {c : Chan} {k : BitVec 4} {off : BitVec 12}

theorem exec_b_taken (hk : (s.chan c).eng.fl.holds k = true) : exec (.b c k off) s = .next
    (s.engStep c (.b c k off) 2 fun n z => z.modChan c fun x => x.modEng fun e =>
      if e.fl.holds k then e.jump n 2 (e.pc + off) else e.advance n 1) := by
  have he : exec (.b c k off) s = execB c k off s := rfl
  rw [he, execB, if_pos hk]

theorem exec_b_not_taken (hk : (s.chan c).eng.fl.holds k = false) : exec (.b c k off) s = .next
    (s.engStep c (.b c k off) 1 fun n z => z.modChan c fun x => x.modEng fun e =>
      if e.fl.holds k then e.jump n 2 (e.pc + off) else e.advance n 1) := by
  have he : exec (.b c k off) s = execB c k off s := rfl
  rw [he, execB, if_neg (by rw [hk]; decide)]

theorem branch_taken (hk : (s.chan c).eng.fl.holds k = true) (h : EngReady s c (.b c k off) 2) :
    ∃ t, exec (.b c k off) s = .next t ∧ EngMoved s t c 2 ((s.chan c).eng.pc + off) [] [] ∧
      (t.chan c).eng.fl = (s.chan c).eng.fl := by
  refine ⟨_, exec_b_taken hk, ?_⟩
  rw [State.engStep_modEng h, if_pos (show (s.chan c).eng.fetched.fl.holds k = true from hk)]
  exact ⟨State.engMoved_setChan rfl (fun _ _ => rfl) fun _ _ => rfl, by rw [State.chan_setChan_self]; rfl⟩

theorem branch_not_taken (hk : (s.chan c).eng.fl.holds k = false) (h : EngReady s c (.b c k off) 1) :
    ∃ t, exec (.b c k off) s = .next t ∧ EngMoved s t c 1 ((s.chan c).eng.pc + 1) [] [] ∧
      (t.chan c).eng.fl = (s.chan c).eng.fl := by
  have hk' : ¬(s.chan c).eng.fetched.fl.holds k = true := by
    rw [show (s.chan c).eng.fetched.fl.holds k = false from hk]; decide
  refine ⟨_, exec_b_not_taken hk, ?_⟩
  rw [State.engStep_modEng h, if_neg hk']
  exact ⟨State.engMoved_setChan rfl (fun _ _ => rfl) fun _ _ => rfl, by rw [State.chan_setChan_self]; rfl⟩

theorem branch_link (h : EngReady s c (.bl c off) 2) :
    ∃ t, exec (.bl c off) s = .next t ∧ EngMoved s t c 2 ((s.chan c).eng.pc + off) [15] [] ∧
      (t.chan c).eng.gr 15 = BitVec.ofNat 64 (((s.chan c).eng.pc.toNat + 1) % 4096) ∧
      (t.chan c).eng.fl = (s.chan c).eng.fl := by
  refine ⟨_, rfl, ?_⟩
  rw [State.engStep_modEng h]
  refine ⟨State.engMoved_setChan ?_ (fun j hj => ?_) (fun j _ => Engine.ar_gw _ _ _ _), ?_, ?_⟩
  · rw [Engine.gw_eq]; rfl
  · exact Engine.gr_gw_ne _ _ _ _ (List.ne_of_not_mem_cons hj)
  · rw [State.chan_setChan_self]
    refine (Engine.gr_gw_self _ _ _).trans ?_
    rw [if_neg (by decide), ← BitVec.ofNat_toNat, BitVec.toNat_add]
    rfl
  · rw [State.chan_setChan_self, Engine.gw_eq]; rfl

theorem jump_register {a : BitVec 4} (h : EngReady s c (.jr c a) 2) :
    ∃ t, exec (.jr c a) s = .next t ∧ EngMoved s t c 2 (BitVec.ofNat 12 ((s.chan c).eng.gr a).toNat) [] [] ∧
      (t.chan c).eng.fl = (s.chan c).eng.fl := by
  refine ⟨_, rfl, ?_⟩
  rw [State.engStep_modEng h]
  exact ⟨State.engMoved_setChan rfl (fun _ _ => rfl) fun _ _ => rfl, by rw [State.chan_setChan_self]; rfl⟩

end Branches

/-! ## EMIT -/

section Emits
variable {s : State} {c : Chan} {x : BitVec 3}

theorem exec_emit (h : (s.chan c).eng.lib = none) : exec (.emit c x) s = .next (s.emit c (.emit c x) x) := by
  have he : exec (.emit c x) s = execEmit c x s := rfl
  rw [he, execEmit, h]

theorem exec_emitwEnd (h : (s.chan c).eng.lib = none) : exec (.emitwEnd c) s = .next (s.emitwEnd c) := by
  have he : exec (.emitwEnd c) s = execEmitwEnd c s := rfl
  rw [he, execEmitwEnd, h]

theorem exec_trig {a : BitVec 4} (h : (s.chan c).eng.lib = none) : exec (.trig c a) s = .next (s.trigOp c (.trig c a) a) := by
  have he : exec (.trig c a) s = execTrig c a s := rfl
  rw [he, execTrig, h]

theorem exec_stop (h : (s.chan c).eng.lib = none) : exec (.stop c) s = .next (s.stopOp c (.stop c)) := by
  have he : exec (.stop c) s = execStop c s := rfl
  rw [he, execStop, h]

end Emits

section EmitRules
variable {s : State} {c : Chan} {i : Instr} {x : BitVec 3}

/-- A word of EMIT leaves the engine of its channel to go on as `F` says. -/
theorem emitted_setChan {e : Engine} {F : Engine → Engine} {n : Nat} {w : Qword} {a : Instant} :
    OnlyChan s ((s.at_ a).setChan c ((({ s.chan c with eng := e } : Channel).handOther n true w).modEng F)) c ∧
    Passed (s.chan c) (((s.at_ a).setChan c
      ((({ s.chan c with eng := e } : Channel).handOther n true w).modEng F)).chan c) n w ∧
    (((s.at_ a).setChan c ((({ s.chan c with eng := e } : Channel).handOther n true w).modEng F)).chan c).eng = F e := by
  refine ⟨s.onlyChan_setChan_at c _ _, ?_, ?_⟩ <;> rw [State.chan_setChan_self]
  · exact Channel.handOther_passed { s.chan c with eng := e } n w
  · exact congrArg F (Channel.handWord_eng _ _ _)

theorem State.emit_token (h : EngReady s c i 1) (hrate : (s.chan c).emitRate ≠ 0) (htok : (s.chan c).eng.tokens ≠ 0) :
    s.emit c i x = (s.at_ (s.dcAt (s.chan c).eng.readyDc)).setChan c
      ((({ s.chan c with eng := (s.chan c).eng.fetched } : Channel).handOther (s.chan c).eng.readyDc true
        ((s.chan c).eng.ar x)).modEng fun e => { e.advance (s.chan c).eng.readyDc 1 with tokens := e.tokens - 1 }) := by
  have hrate' : ¬({ s.chan c with eng := (s.chan c).eng.fetched } : Channel).emitRate = 0 := hrate
  have htok' : ¬(s.chan c).eng.fetched.tokens = 0 := htok
  unfold State.emit
  rw [State.engStep_ready s c i 1 _ h]
  simp only [State.chan_setChan_self, hrate', htok', if_false, State.setChan_setChan]
  rfl

theorem State.emit_waits (h : EngReady s c i 1) (hrate : (s.chan c).emitRate ≠ 0) (htok : (s.chan c).eng.tokens = 0) :
    s.emit c i x = (s.at_ (s.dcAt (s.chan c).eng.readyDc)).setChan c
      { s.chan c with eng := { (s.chan c).eng.fetched with st := .emitw, emitA := x } } := by
  have hrate' : ¬({ s.chan c with eng := (s.chan c).eng.fetched } : Channel).emitRate = 0 := hrate
  have htok' : (s.chan c).eng.fetched.tokens = 0 := htok
  unfold State.emit
  rw [State.engStep_ready s c i 1 _ h]
  simp only [State.chan_setChan_self, hrate', htok', if_false, if_true, State.setChan_setChan, Channel.modEng]

theorem State.emit_denied (h : EngReady s c i 1) (hclose : (s.chan c).folder.closePosted = none)
    (hmode : s.pwr.mode ≠ .reset) (hrate : (s.chan c).emitRate = 0) : EngFaulted s (s.emit c i x) c 5 := by
  have hrate' : ({ s.chan c with eng := (s.chan c).eng.fetched } : Channel).emitRate = 0 := hrate
  refine engFaulted_of_ready h hclose hmode ?_
  simp only [State.chan_setChan_self, hrate', if_true]

theorem State.emitwEnd_token (hon : s.chOn c = true) (hst : (s.chan c).eng.st = .emitw) (htok : (s.chan c).eng.tokens ≠ 0)
    (hcut : (s.chan c).cutBefore ((s.chan c).eng.nextRefill - 1024 + 1) = false) :
    s.emitwEnd c = (s.at_ (s.dcAt ((s.chan c).eng.nextRefill - 1024))).setChan c
      (((s.chan c).handOther ((s.chan c).eng.nextRefill - 1024) true ((s.chan c).eng.ar (s.chan c).eng.emitA)).modEng
        fun e => { e.advance ((s.chan c).eng.nextRefill - 1024) 1 with st := .run, tokens := e.tokens - 1 }) := by
  unfold State.emitwEnd
  simp only [hon, hst, hcut, bne_iff_ne.2 htok, beq_self_eq_true, Bool.not_false, Bool.and_self, if_true]

theorem State.tokenRefill_on (hon : s.chOn c = true) (hst : (s.chan c).eng.st = .run ∨ (s.chan c).eng.st = .wait ∨
    (s.chan c).eng.st = .emitw ∨ (s.chan c).eng.st = .halt) :
    s.tokenRefill c = (s.at_ (s.dcAt (s.chan c).eng.nextRefill)).setChan c { s.chan c with eng := { (s.chan c).eng with
      tokens := min 16 ((s.chan c).eng.tokens + (s.chan c).emitRate), nextRefill := (s.chan c).eng.nextRefill + 1024 } } := by
  have hact : ((s.chan c).eng.st.active || (s.chan c).eng.st == .halt) = true := by
    obtain h | h | h | h := hst <;> rw [h] <;> rfl
  unfold State.tokenRefill
  simp only [hon, hact, Bool.and_self, if_true, Channel.modEng]

end EmitRules

/-! ## TRIG, GSET, SYSR, STOP and HALT -/

section ChannelOps
variable {s : State} {c : Chan} {i : Instr} {a d : BitVec 4}

theorem Channel.meets_eq (x : Channel) (n : Nat) (t : Int) (l : List Nat) :
    l.foldl (fun y k => y.meet n k t) x =
      { x with trg := { x.trg with pend := x.trg.pend ++ l.map fun i => { i := i, time := t, dc := n } } } := by
  induction l generalizing x with
  | nil => simp
  | cons k l ih =>
    rw [List.foldl_cons, ih]
    simp [Channel.meet, Channel.modTrg]

/-- The engine conditions that TRIG presents in dc `n`, one dc later. -/
def Channel.engConds (x : Channel) (n : Nat) (v : Dword) : List Cond :=
  if x.eng.spanOpen then
    (x.condsOf 4).map fun i => { i := i, time := stampClamp x.eng.spanO x.eng.lastTime v, dc := n + 1 }
  else []

theorem Channel.trigger_eq (x : Channel) (n : Nat) (v : Dword) :
    x.trigger n v = { x with trg := { x.trg with pend := x.trg.pend ++ x.engConds n v } } := by
  unfold Channel.trigger Channel.engConds
  split
  · exact x.meets_eq _ _ _
  · rw [List.append_nil]

theorem State.trigOp_ready (h : EngReady s c i 1) :
    s.trigOp c i a = (s.at_ (s.dcAt (s.chan c).eng.readyDc)).setChan c
      { s.chan c with
        trg := { (s.chan c).trg with
          pend := (s.chan c).trg.pend ++ (s.chan c).engConds (s.chan c).eng.readyDc ((s.chan c).eng.gr a) }
        eng := (s.chan c).eng.fetched.advance (s.chan c).eng.readyDc 1 } := by
  unfold State.trigOp
  rw [State.engStep_ready s c i 1 _ h]
  simp only [State.modChan, State.chan_setChan_self, State.setChan_setChan, Channel.modEng, Channel.trigger_eq]
  rfl

/-- GSET in dc `n`, with stream time `v`, as it leaves the engine. -/
def Engine.gset (e : Engine) (n : Nat) (v : Int) (w : Dword) (kind : Bool) : Engine :=
  (if e.spanOpen && kind then
    { e.setFl { e.fl with c := (stampLater v w).isNone } with boundary := some ((stampLater v w).getD v) } else e).advance n 1

theorem Engine.gset_fetched (e : Engine) (n : Nat) (v : Int) (w : Dword) (kind : Bool) :
    e.fetched.gset n v w kind = { e with
      pcRun := e.pc, imemCorr := fetchCount e, pc := e.pc + 1, readyDc := n + 1
      boundary := if e.spanOpen && kind then some ((stampLater v w).getD v) else e.boundary
      fl := if e.spanOpen && kind then { e.fl with c := (stampLater v w).isNone } else e.fl } := by
  unfold Engine.gset
  by_cases hcond : (e.spanOpen && kind) = true
  · rw [if_pos (show (e.fetched.spanOpen && kind) = true from hcond), if_pos hcond, if_pos hcond]; rfl
  · rw [if_neg (show ¬(e.fetched.spanOpen && kind) = true from hcond), if_neg hcond, if_neg hcond]; rfl

theorem State.gset_ready (h : EngReady s c i 1) :
    s.gset c i a = (s.at_ (s.dcAt (s.chan c).eng.readyDc)).setChan c
      { s.chan c with eng := (s.chan c).eng.fetched.gset (s.chan c).eng.readyDc
                        (s.streamTime c (s.chan c).eng.readyDc) ((s.chan c).eng.gr a) ((s.chan c).gateKind == 2) } := by
  unfold State.gset
  rw [State.engStep_ready s c i 1 _ h]
  simp only [State.modChan, State.chan_setChan_self, State.setChan_setChan, Channel.modEng, State.streamTime_setEng]
  have hkind : ({ s.chan c with eng := (s.chan c).eng.fetched } : Channel).gateKind = (s.chan c).gateKind := rfl
  rw [hkind]
  unfold Engine.gset
  by_cases hcond : ((s.chan c).eng.fetched.spanOpen && (s.chan c).gateKind == 2) = true
  · rw [if_pos hcond, if_pos hcond]; rfl
  · rw [if_neg hcond, if_neg hcond]

theorem State.sysrValue_setEng (n sel : Nat) (hsel : sel ≤ 8) (t : Instant) :
    ((s.at_ t).setChan c { s.chan c with eng := (s.chan c).eng.fetched }).sysrValue c n sel = sysReg s c n sel := by
  have hspan : (if (s.chan c).eng.fetched.spanOpen = true then (s.chan c).eng.fetched.spanRec.setWidth 64 else (0 : Dword)) =
      BitVec.ofNat 64 (if (s.chan c).eng.spanOpen = true then (s.chan c).eng.spanRec.toNat else 0) := by
    rw [apply_ite (BitVec.ofNat 64), BitVec.ofNat_toNat]; rfl
  unfold State.sysrValue sysReg
  simp only [State.chan_setChan_self, State.streamTime_setEng, hspan]
  interval_cases sel <;> rfl

theorem State.stopOp_ready (h : EngReady s c i 1) :
    s.stopOp c i = ((s.at_ (s.dcAt (s.chan c).eng.readyDc)).setChan c
      { s.chan c with eng := (s.chan c).eng.fetched.advance (s.chan c).eng.readyDc 1 }).stopIn c (s.chan c).eng.readyDc := by
  unfold State.stopOp
  rw [State.engStep_ready s c i 1 _ h]
  simp only [State.modChan, State.chan_setChan_self, State.setChan_setChan, Channel.modEng]

/-- A STOP outside a record span, or after one that the span has had, does nothing. -/
theorem State.stopOp_idle (h : EngReady s c i 1)
    (hidle : (s.chan c).eng.spanOpen = false ∨ (s.chan c).eng.spanOpen = true ∧ (s.chan c).eng.stopped = true) :
    s.stopOp c i = (s.at_ (s.dcAt (s.chan c).eng.readyDc)).setChan c
      { s.chan c with eng := (s.chan c).eng.fetched.advance (s.chan c).eng.readyDc 1 } := by
  rw [State.stopOp_ready h]
  have hcond : ((s.chan c).eng.spanOpen && !(s.chan c).eng.stopped) = false := by
    obtain ho | ⟨ho, hs⟩ := hidle <;> simp [*]
  have hstopped : ((s.chan c).eng.stopped || (s.chan c).eng.spanOpen) = (s.chan c).eng.stopped := by
    obtain ho | ⟨ho, hs⟩ := hidle <;> simp [*]
  unfold State.stopIn
  simp only [State.modChan, State.chan_setChan_self, State.setChan_setChan, Channel.modEng]
  rw [show (((s.chan c).eng.fetched.advance (s.chan c).eng.readyDc 1).spanOpen &&
    !((s.chan c).eng.fetched.advance (s.chan c).eng.readyDc 1).stopped) = false from hcond, if_neg (by decide)]
  rw [show (((s.chan c).eng.fetched.advance (s.chan c).eng.readyDc 1).stopped ||
    ((s.chan c).eng.fetched.advance (s.chan c).eng.readyDc 1).spanOpen) = (s.chan c).eng.stopped from hstopped]
  rfl

/-- The first STOP of a record span disarms the channel. -/
theorem State.stopOp_first (h : EngReady s c i 1) (hspan : (s.chan c).eng.spanOpen = true)
    (hstop : (s.chan c).eng.stopped = false) : ∃ (z : State) (t : Instant),
    s.stopOp c i = z.disarm c t flagStop ∧ z.chan c = { s.chan c with
      eng := { (s.chan c).eng.fetched.advance (s.chan c).eng.readyDc 1 with stopped := true } } := by
  rw [State.stopOp_ready h]
  have hcond : ((s.chan c).eng.spanOpen && !(s.chan c).eng.stopped) = true := by simp [hspan, hstop]
  have hstopped : ((s.chan c).eng.stopped || (s.chan c).eng.spanOpen) = true := by simp [hspan]
  unfold State.stopIn
  simp only [State.modChan, State.chan_setChan_self, State.setChan_setChan, Channel.modEng]
  rw [show (((s.chan c).eng.fetched.advance (s.chan c).eng.readyDc 1).spanOpen &&
    !((s.chan c).eng.fetched.advance (s.chan c).eng.readyDc 1).stopped) = true from hcond, if_pos rfl]
  refine ⟨_, _, rfl, ?_⟩
  rw [State.chan_setChan_self]
  rw [show (((s.chan c).eng.fetched.advance (s.chan c).eng.readyDc 1).stopped ||
    ((s.chan c).eng.fetched.advance (s.chan c).eng.readyDc 1).spanOpen) = true from hstopped]

theorem State.haltOp_ready (h : EngReady s c i 1) (hclose : (s.chan c).folder.closePosted = none) :
    s.haltOp c i = (s.at_ (s.dcAt (s.chan c).eng.readyDc)).setChan c
      { s.chan c with eng := { (s.chan c).eng.fetched.advance (s.chan c).eng.readyDc 1 with
          st := .halt, queue := [], wdFrom := none } } := by
  unfold State.haltOp
  rw [State.engStep_ready s c i 1 _ h]
  simp only [State.modChan, State.chan_setChan_self, State.setChan_setChan, Channel.modEng, hclose, Option.isSome_none,
    Bool.false_and, Bool.false_eq_true, if_false]

end ChannelOps

/-! ## TRIG and GSET: times on the 64-bit scale -/

theorem stamp64_toNat {o : Int} (h : 0 ≤ o) (h' : o < 2 ^ 64) : ((stamp64 o).toNat : Int) = o := by
  unfold stamp64
  rw [BitVec.toNat_ofInt]
  omega

theorem stamp64_lt_iff {o : Int} (h : 0 ≤ o) (h' : o < 2 ^ 64) (w : Dword) : stamp64 o < w ↔ o < w.toNat := by
  have ho := stamp64_toNat h h'
  rw [BitVec.lt_def]
  omega

/-- The distance of a word from a stamp, counted upwards. -/
theorem toNat_sub_stamp64 {o : Int} (h : 0 ≤ o) (h' : o < 2 ^ 64) (w : Dword) :
    ((w - stamp64 o).toNat : Int) = if o ≤ w.toNat then w.toNat - o else 2 ^ 64 + w.toNat - o := by
  have ho := stamp64_toNat h h'
  have hw := w.isLt
  rw [BitVec.toNat_sub]
  split <;> omega

theorem stampClamp_eq {o t : Int} (h : 0 ≤ o) (hot : o ≤ t) (ht : t < 2 ^ 64) (w : Dword) :
    stampClamp o t w = max o (min (w.toNat : Int) t) := by
  have hd := toNat_sub_stamp64 h (by omega) w
  have hlater := stamp64_lt_iff (by omega : 0 ≤ t) ht w
  have hw := w.isLt
  unfold stampClamp
  simp only [hd, hlater]
  by_cases ho : o ≤ w.toNat
  · rw [if_pos ho]
    split <;> omega
  · rw [if_neg ho, if_neg (by omega), if_neg (by omega)]
    omega

theorem stampLater_eq {v : Int} (h : 0 ≤ v) (hv : v < 2 ^ 63) (w : Dword) :
    stampLater v w = if v < w.toNat then some (w.toNat : Int) else none := by
  have hd := toNat_sub_stamp64 h (by omega) w
  have hlater := stamp64_lt_iff h (by omega) w
  have hw := w.isLt
  unfold stampLater
  simp only [hd, hlater]
  by_cases hlt : v < w.toNat
  · rw [if_pos hlt, if_pos (.inl hlt), if_pos hlt.le]
    congr 1
    omega
  · rw [if_neg hlt, if_neg]
    split at hd <;> omega

end Sys2Proof.Machine

namespace Sys2Proof.Proofs

open Sys2Proof.Machine Sys2Proof.Safety

/-- Settles O8: a branch moves the program counter alone, and EVT, EVTP and EVT_WAIT_END take the oldest event of the
queue, or wait, or go on without one. -/
theorem engineFlowAndEvents : Obligations.EngineFlowAndEvents := by
  refine ⟨fun s c a k off => ?_, fun s c d v rest => ?_⟩
  · exact ⟨fun h hk => branch_taken hk h, fun h hk => branch_not_taken hk h, branch_link, jump_register⟩
  · dsimp only
    refine ⟨fun hd hq => ⟨fun h hclose => ?_, fun h hclose => ?_⟩, fun hd hq hon hlib hst hclose => ?_, fun hq h => ?_,
      fun hq hclose h => ?_⟩
    · obtain ⟨h1, h2, h3, h4, h5, h6, h7, h8, h9⟩ := State.evt_take hq hd h hclose
      exact ⟨_, exec_evt h.own, h1, h2, h3, h4, h5, h6, h7, h8, h9⟩
    · obtain ⟨h1, h2, h3, h4, h5, h6, h7, h8, h9⟩ := State.evtp_take hq hd h hclose
      exact ⟨_, rfl, h1, h2, h3, h4, h5, h6, h7, h8, h9⟩
    · obtain ⟨h1, h2, h3, h4, h5, h6, h7, h8, h9⟩ := State.evtWaitEnd_take hq hd hon hst hclose
      exact ⟨_, exec_evtWaitEnd hlib, h1, h2, h3, h4, h5, h6, h7, h8, h9⟩
    · exact ⟨_, rfl, State.evtp_none hq h⟩
    · exact ⟨_, exec_evt h.own, State.evt_none hq hclose h⟩

/-- Settles O9: with a token EMIT passes its word, without one it waits for the bucket, and at rate 0 it faults. -/
theorem engineEmits : Obligations.EngineEmits := by
  intro s c x
  dsimp only
  refine ⟨fun hrate htok h => ?_, fun hrate htok h => ?_, fun hon hlib hst htok hcut => ?_, fun hon hst => ?_,
    fun hrate hclose hmode h => ?_⟩
  · obtain ⟨honly, hpassed, heng⟩ := emitted_setChan (s := s) (c := c) (e := (s.chan c).eng.fetched)
      (F := fun e => { e.advance (s.chan c).eng.readyDc 1 with tokens := e.tokens - 1 }) (n := (s.chan c).eng.readyDc)
      (w := (s.chan c).eng.ar x) (a := s.dcAt (s.chan c).eng.readyDc)
    refine ⟨_, exec_emit h.own, ?_⟩
    rw [State.emit_token h hrate htok]
    refine ⟨honly, hpassed, ?_⟩
    rw [heng]
    exact ⟨rfl, rfl, rfl, rfl, rfl, rfl⟩
  · refine ⟨_, exec_emit h.own, ?_⟩
    rw [State.emit_waits h hrate htok]
    exact ⟨s.onlyChan_setChan_at c _ _, by rw [State.chan_setChan_self]; rfl⟩
  · obtain ⟨honly, hpassed, heng⟩ := emitted_setChan (s := s) (c := c) (e := (s.chan c).eng)
      (F := fun e => { e.advance ((s.chan c).eng.nextRefill - 1024) 1 with st := .run, tokens := e.tokens - 1 })
      (n := (s.chan c).eng.nextRefill - 1024) (w := (s.chan c).eng.ar (s.chan c).eng.emitA)
      (a := s.dcAt ((s.chan c).eng.nextRefill - 1024))
    refine ⟨_, exec_emitwEnd hlib, ?_⟩
    rw [State.emitwEnd_token hon hst htok hcut]
    refine ⟨honly, hpassed, ?_⟩
    rw [heng]
    exact ⟨rfl, rfl, rfl, rfl⟩
  · refine ⟨_, rfl, ?_⟩
    rw [State.tokenRefill_on hon hst]
    exact ⟨s.onlyChan_setChan_at c _ _, State.chan_setChan_self _ _ _⟩
  · exact ⟨_, exec_emit h.own, State.emit_denied h hclose hmode hrate⟩

/-- Settles O10: within a record span TRIG, GSET, SYSR and STOP act on the channel, and HALT halts the engine. -/
theorem engineChannelInstructions : Obligations.EngineChannelInstructions := by
  intro s c d a sel
  dsimp only
  refine ⟨fun h => ?_, fun h => ?_, fun hsel h => ?_, fun h => ⟨fun hspan => ?_, fun hspan hstop => ?_,
    fun hspan hstop harmed hnext hclosing => ?_⟩, fun hclose h => ?_⟩
  · refine ⟨_, exec_trig h.own, ?_⟩
    rw [State.trigOp_ready h]
    refine ⟨s.onlyChan_setChan_at c _ _, ?_, fun ho hot ht => stampClamp_eq ho hot ht _, ?_⟩
    · rw [State.chan_setChan_self]; rfl
    · rw [State.chan_setChan_self]; rfl
  · refine ⟨_, rfl, ?_⟩
    rw [State.gset_ready h]
    refine ⟨s.onlyChan_setChan_at c _ _, ?_, fun hv hv' => stampLater_eq hv hv' _⟩
    rw [State.chan_setChan_self]
    exact Engine.gset_fetched _ _ _ _ _
  · have hv := State.sysrValue_setEng (s := s) (c := c) (s.chan c).eng.readyDc sel.toNat hsel (s.dcAt (s.chan c).eng.readyDc)
    refine ⟨_, rfl, ?_⟩
    rw [State.engStep_ready s c _ 1 _ h]
    simp only [State.modChan, State.chan_setChan_self, State.setChan_setChan, Channel.modEng, hv]
    refine ⟨State.engMoved_setChan ?_ (fun j hj => ?_) (fun j _ => Engine.ar_gw _ _ _ _), ?_, Engine.gr_gw_self _ _ _⟩
    · rw [Engine.gw_eq]; rfl
    · exact Engine.gr_gw_ne _ _ _ _ (List.ne_of_not_mem_cons hj)
    · rw [Engine.gw_eq]; rfl
  · refine ⟨_, exec_stop h.own, ?_⟩
    rw [State.stopOp_idle h (.inl hspan)]
    exact ⟨State.engMoved_setChan rfl (fun _ _ => rfl) fun _ _ => rfl, by rw [State.chan_setChan_self]; rfl⟩
  · refine ⟨_, exec_stop h.own, ?_⟩
    rw [State.stopOp_idle h (.inr ⟨hspan, hstop⟩)]
    exact ⟨State.engMoved_setChan rfl (fun _ _ => rfl) fun _ _ => rfl, by rw [State.chan_setChan_self]; rfl⟩
  · obtain ⟨z, t, hz, hchan⟩ := State.stopOp_first h hspan hstop
    obtain ⟨hrcd, hfolder, -⟩ := Channel.disarmed_closes (z.chan c) t (z.dcFrom t) flagStop
      (by rw [hchan]; exact harmed) (by rw [hchan]; exact hnext) (by rw [hchan]; exact hclosing)
    refine ⟨_, exec_stop h.own, ?_⟩
    rw [hz, State.chan_disarm_self, Channel.disarmed_armed, hrcd, hfolder, Channel.disarmed_eng, hchan]
    exact ⟨rfl, rfl, rfl, rfl, rfl, rfl, rfl, rfl, rfl⟩
  · refine ⟨_, rfl, ?_⟩
    rw [State.haltOp_ready h hclose]
    exact ⟨s.onlyChan_setChan_at c _ _, by rw [State.chan_setChan_self]; rfl⟩

end Sys2Proof.Proofs
end

section
/-! SUPPORT. A record boundary as far as the output queue and the closed record are concerned: what is applied at the
boundary and after it reaches neither. -/

namespace Sys2Proof.Machine

open Sys2Proof.Safety

/-- The output queue and the open record's being open are the same, and no arm comes to wait for the boundary. -/
structure SameOut (x y : Channel) : Prop where
  outq : y.outq = x.outq
  isOpen : y.rcd.isOpen = x.rcd.isOpen
  armNext : x.armNext = none → y.armNext = none

theorem SameOut.refl (x : Channel) : SameOut x x := ⟨rfl, rfl, id⟩
theorem SameOut.trans {x y z : Channel} (h : SameOut x y) (g : SameOut y z) : SameOut x z :=
  ⟨g.outq.trans h.outq, g.isOpen.trans h.isOpen, g.armNext ∘ h.armNext⟩

section Channels
variable (x : Channel)

theorem Channel.sameOut_setLane (l : Bool) (y : Lane) : SameOut x (x.setLane l y) := by cases l <;> exact ⟨rfl, rfl, id⟩

theorem Channel.sameOut_remerge (old : ChanCfg) : SameOut x (x.remerge old) := by
  unfold Channel.remerge; split <;> exact ⟨rfl, rfl, id⟩

theorem Channel.sameOut_applyPost : SameOut x x.applyPost := by
  unfold Channel.applyPost; split <;> exact ⟨rfl, rfl, id⟩

theorem Channel.sameOut_applyTrim (band : Nat) : SameOut x (x.applyTrim band) := by
  unfold Channel.applyTrim
  dsimp only
  split
  · split <;> exact ⟨rfl, rfl, id⟩
  · exact ⟨rfl, rfl, id⟩

end Channels

/-- Time stands, and every channel keeps its output queue and its record. -/
structure OutKept (s t : State) : Prop where
  now : t.now = s.now
  chans : ∀ c, SameOut (s.chan c) (t.chan c)

namespace OutKept
variable {s t u : State}

theorem refl (s : State) : OutKept s s := ⟨rfl, fun _ => .refl _⟩

theorem trans (h : OutKept s t) (g : OutKept t u) : OutKept s u := ⟨g.now.trans h.now, fun c => (h.chans c).trans (g.chans c)⟩

theorem of_same (h : OutKept s t) (hnow : u.now = t.now) (hchans : u.chans = t.chans) : OutKept s u :=
  h.trans ⟨hnow, fun c => by rw [State.chan, State.chan, hchans]; exact .refl _⟩

theorem setChan (h : OutKept s t) {c : Chan} {x : Channel} (hx : SameOut (t.chan c) x) : OutKept s (t.setChan c x) := by
  refine h.trans ⟨rfl, fun b => ?_⟩
  by_cases hb : b = c
  · rw [hb, State.chan_setChan_self]
    exact hx
  · rw [State.chan_setChan_ne _ _ _ _ hb]
    exact .refl _

theorem modChan (h : OutKept s t) (c : Chan) {f : Channel → Channel} (hf : ∀ x, SameOut x (f x)) :
    OutKept s (t.modChan c f) := h.setChan (hf _)

theorem raise (h : OutKept s t) (n : Source) (b : Byte) : OutKept s (t.raise n b) :=
  h.of_same (t.raise_now n b) (t.raise_chans n b)

theorem raiseM (h : OutKept s t) (n : Source) (b : Byte) : OutKept s (t.raiseM n b) := by
  obtain ⟨_, hr⟩ := t.raiseM_eq n b
  exact h.of_same (by rw [hr]) (by rw [hr])

theorem showTrigger (h : OutKept s t) (c : Chan) (old : Trigger) : OutKept s (t.showTrigger c old) := by
  obtain ⟨_, hl⟩ := t.showTrigger_eq c old
  exact h.of_same (by rw [hl]) (by rw [hl])

theorem startReload (h : OutKept s t) (c : Chan) (a : Instant) : OutKept s (t.startReload c a) :=
  h.modChan c fun _ => ⟨rfl, rfl, id⟩

theorem startTrim (h : OutKept s t) (c : Chan) (w0 : Instant) (wasArmed wasHeld : Bool) :
    OutKept s (t.startTrim c w0 wasArmed wasHeld) := h.modChan c fun _ => ⟨rfl, rfl, id⟩

theorem formeDone (h : OutKept s t) : OutKept s t.formeDone := by
  unfold State.formeDone
  split
  · exact (h.of_same (u := { t with nvm := { t.nvm with runPhase := 0, stagedForme := none } }) rfl rfl).raiseM _ _
  · exact h

theorem purge (h : OutKept s t) (c : Chan) (n : Nat) : OutKept s (t.purge c n) := by
  unfold State.purge
  dsimp only
  split
  · refine (h.modChan c ?_).modChan _ fun x => x.sameOut_setLane _ _
    exact fun _ => ⟨rfl, rfl, id⟩
  · exact h.modChan c fun _ => ⟨rfl, rfl, id⟩

/-- A change of the partner subscription touches lanes and merges alone. -/
theorem rePartner (h : OutKept s t) (c : Chan) (old : Option LaneIx) (at_ : Int) (idle : Bool) :
    OutKept s (t.rePartner c old at_ idle) := by
  have hlane : ∀ {z : State} (i : LaneIx) (f : Channel → Lane), OutKept s z →
      OutKept s (z.modChan (laneChan i) fun x => x.setLane (laneIsL i) (f x)) :=
    fun i f hz => hz.modChan _ fun x => x.sameOut_setLane _ _
  have hmerge : ∀ {z : State} (f : Channel → Merge), OutKept s z →
      OutKept s (z.modChan c fun x => { x with merge := f x }) :=
    fun f hz => hz.modChan c fun _ => ⟨rfl, rfl, id⟩
  unfold State.rePartner
  dsimp only
  split
  · exact h
  · split
    · split
      · exact hlane _ _ (hlane _ _ (hmerge _ h))
      · exact hlane _ _ (hmerge _ h)
    · split
      · exact hlane _ _ (hmerge _ h)
      · exact hmerge _ h

theorem applyForme (h : OutKept s t) (c : Chan) (at_ : Int) (idle : Bool) : OutKept s (t.applyForme c at_ idle).1 := by
  unfold State.applyForme
  dsimp only
  split
  · exact h
  · split
    · exact h.setChan ⟨rfl, rfl, id⟩
    · refine (h.setChan ?_).rePartner _ _ _ _
      refine SameOut.trans (SameOut.trans (?_ : SameOut (t.chan c) _) (Channel.sameOut_remerge _ _)) ⟨rfl, rfl, id⟩
      exact ⟨rfl, rfl, id⟩

theorem applyPlaces (h : OutKept s t) (c : Chan) : OutKept s (t.applyPlaces c) := by
  unfold State.applyPlaces
  dsimp only
  split
  · exact h
  · split
    · exact h
    · exact h.setChan ⟨rfl, rfl, id⟩

theorem applyStaged (h : OutKept s t) (c : Chan) (at_ : Int) (idle : Bool) : OutKept s (t.applyStaged c at_ idle).1 :=
  ((h.applyForme c at_ idle).applyPlaces c).modChan c fun x => x.sameOut_applyPost.trans (Channel.sameOut_applyTrim _ _)

theorem requestOff (h : OutKept s t) (c : Chan) : OutKept s (t.requestOff c) := by
  unfold State.requestOff
  dsimp only
  split
  · exact (h.modChan c (f := fun x => { x.powerOff with shedPend := false, pdoffPend := false }) fun _ => ⟨rfl, rfl, fun _ => rfl⟩).of_same
      rfl rfl
  · exact h

theorem settleIdle (h : OutKept s t) (c : Chan) : OutKept s (t.settleIdle c) := by
  have hstaged := h.applyStaged c (lsbUp t.now) true
  unfold State.settleIdle
  dsimp only
  split
  · exact h
  · split
    · split
      · exact (hstaged.startReload c _).formeDone.startTrim c _ _ _
      · exact (hstaged.startReload c _).formeDone.requestOff c
    · split
      · exact hstaged.formeDone.startTrim c _ _ _
      · exact hstaged.formeDone.requestOff c

theorem settleAll (h : OutKept s t) (l : List Chan) : OutKept s (l.foldl (fun z d => z.settleIdle d) t) := by
  induction l generalizing t with
  | nil => exact h
  | cons d l ih => exact ih (h.settleIdle d)

theorem relock (h : OutKept s t) (k : Synth) (b : Byte) : OutKept s (t.relock k b) := by
  have hclock : OutKept s (if k.val = 9 then (t.onClock (k.val = 9) t.clocks.mgmt).vaultClock true
      else t.onClock (k.val = 9) t.clocks.mgmt) := by
    split
    · exact h.of_same (State.vaultClockIf_now _ true true) (State.vaultClockIf_chans _ true true)
    · exact h.of_same rfl rfl
  unfold State.relock
  exact (hclock.of_same (u := State.modSynth _ k _) rfl rfl).raise _ _

theorem sscLock (h : OutKept s t) (k : Synth) : OutKept s (t.sscLock k) := by
  unfold State.sscLock
  split
  · split
    · split
      · exact h
      · exact h.of_same rfl rfl
    · exact (h.of_same (u := t.modSynth k _) rfl rfl).relock k _
  · exact h

theorem sscApply (h : OutKept s t) : OutKept s t.sscApply := by
  unfold State.sscApply
  dsimp only
  split
  · exact h
  · exact (h.sscLock 8).sscLock 9

/-- The end of an arm with none waiting: the channel comes to an idle point, and so do those of its pier whose trim waited. -/
theorem endOfArm (h : OutKept s t) {c : Chan} (hnext : (t.chan c).armNext = none) : OutKept s (t.endOfArm c) := by
  unfold State.endOfArm
  simp only [hnext]
  have hidle := (h.purge c (lsbOf t.now + 1)).startReload c (t.clocks.mgmt.vis win400 t.now)
  refine sscApply (settleAll (requestOff ?_ c) _)
  split
  · refine startTrim (hidle.modChan c ?_) c _ _ _
    exact fun _ => ⟨rfl, rfl, id⟩
  · refine hidle.modChan c ?_
    exact fun _ => ⟨rfl, rfl, id⟩

end OutKept

end Sys2Proof.Machine
end

section
/-! SUPPORT. The start of an engine, the reload of its images, and its two watchdogs. -/

namespace Sys2Proof.Machine

open Sys2Proof.Safety

/-! ## Images -/

/-- What a table holds after a list of words has been written from an address on. -/
theorem sget_ssets {α : Type} [DecidableEq α] {d : α} (l : List (Nat × α)) (a : Nat) (vs : List α) (n : Nat) (h : Sparse d l) :
    sget d (ssets d l a vs) n = if a ≤ n ∧ n < a + vs.length then vs.getD (n - a) d else sget d l n := by
  induction vs generalizing l a with
  | nil => simp [ssets]
  | cons v vs ih =>
    rw [ssets, ih _ _ (sparse_sset l a v h), List.length_cons]
    by_cases hn : n = a
    · subst hn
      rw [if_neg (by omega), if_pos (by omega), sget_sset_self l n v h, Nat.sub_self, List.getD_cons_zero]
    · rw [sget_sset_ne l a n v hn]
      by_cases hin : a + 1 ≤ n ∧ n < a + 1 + vs.length
      · rw [if_pos hin, if_pos (by omega), show n - a = n - (a + 1) + 1 by omega, List.getD_cons_succ]
      · rw [if_neg hin, if_neg (by omega)]

/-- Images written from address 0 read as their words, and as zero beyond them. -/
theorem sget_ssets_nil {α : Type} [DecidableEq α] {d : α} (vs : List α) (n : Nat) :
    sget d (ssets d [] 0 vs) n = vs.getD n d := by
  rw [sget_ssets [] 0 vs n ⟨List.Pairwise.nil, by simp⟩]
  split
  · rfl
  · next h => rw [List.getD_eq_default _ _ (by omega)]; rfl

/-- A bit set in one field of a packed word is set in the word. -/
theorem getLsbD_pack {n i : Nat} {f : Nat × Nat} {fs : List (Nat × Nat)} (hf : f ∈ fs)
    (hbit : (BitVec.ofNat n (f.2 * 2 ^ f.1)).getLsbD i = true) : (pack n fs).getLsbD i = true := by
  induction fs with
  | nil => cases hf
  | cons g fs ih =>
    unfold pack
    rw [List.foldr_cons, BitVec.getLsbD_or]
    obtain rfl | hf := List.mem_cons.1 hf
    · rw [hbit, Bool.true_or]
    · rw [show (List.foldr (fun f acc => BitVec.ofNat n (f.2 * 2 ^ f.1) ||| acc) 0 fs).getLsbD i = true from ih hf, Bool.or_true]

/-! ## Starts -/

section Starts
variable {s : State} {c : Chan} {t : Instant}

theorem State.engineStart_due (hdue : (s.chan c).eng.startDue = some t) (hrel : (s.chan c).eng.reloadDue = none)
    (hon : s.chOn c = true) (hen : (s.chan c).engOn = true) :
    s.engineStart c = (s.at_ t).setChan c { s.chan c with eng := { (s.chan c).eng with
      g := Vector.replicate 16 0, a := Vector.replicate 8 0, fl := ⟨false, false, false, false⟩, pc := (s.chan c).entry
      st := .run, startDue := none, startDc := s.dc t, readyDc := s.dc t, tokens := 16, nextRefill := s.dc t + 1024
      lib := if (s.programFor (s.chan c)).library then some (LibSt.init c.val) else none
      spanOpen := false, stopped := false, spanRec := 0, spanO := 0, spanSteps := 0, lastTime := 0, tookClose := false
      bank := none, boundary := none } } := by
  unfold State.engineStart
  simp only [hdue, hrel, hon, hen, Bool.not_true, Bool.or_self, Bool.false_eq_true, if_false, Option.isSome_none]

theorem Engine.gr_of_cleared {e : Engine} (h : e.g = Vector.replicate 16 0) (i : BitVec 4) : e.gr i = 0 := by
  unfold Engine.gr
  rw [h]
  split <;> simp

theorem Engine.ar_of_cleared {e : Engine} (h : e.a = Vector.replicate 8 0) (i : BitVec 3) : e.ar i = 0 := by
  unfold Engine.ar
  rw [h]
  simp

theorem State.imageReload_due (hrel : (s.chan c).eng.reloadDue = some t) :
    s.imageReload c = (s.at_ t).setChan c { s.chan c with
      eng := (s.chan c).eng.load (s.programFor (s.chan c)) ((s.chan c).engOn && s.chOn c) } := by
  unfold State.imageReload
  simp only [hrel, Channel.modEng]

end Starts

/-! ## Watchdogs -/

section Watchdogs
variable {s : State} {c : Chan} {w p : Nat}

theorem EngState.active_of {st : EngState} (h : st = .run ∨ st = .wait ∨ st = .emitw) : st.active = true := by
  obtain rfl | rfl | rfl := h <;> rfl

theorem Channel.runawayAt_eq {x : Channel} (hst : x.eng.st.active = true) (hw : x.eng.wdFrom = some w) :
    x.runawayAt = some (w + fld x.engCtl 8 8 * 1024 - 1) := by
  simp [Channel.runawayAt, hst, hw, Channel.wdogDc]

theorem Channel.closeToAt_eq {x : Channel} (hst : x.eng.st.active = true) (hp : x.folder.closePosted = some p)
    (hopen : x.rcd.isOpen = true) : x.closeToAt = some (max p x.eng.startDc + fld x.engCtl 8 8 * 1024) := by
  simp [Channel.closeToAt, hst, hp, hopen, Channel.wdogDc]

/-- A fault of an engine that runs no library, seen from the state before. -/
theorem State.engineFault_faulted (n : Nat) (code : BitVec 4) (hclose : (s.chan c).folder.closePosted = none)
    (hmode : s.pwr.mode ≠ .reset) (hlib : (s.chan c).eng.lib = none) : EngFaulted s (s.engineFault c n code) c code := by
  obtain ⟨heng, harmed, htold, hothers⟩ := State.engineFault_spec (s := s) (c := c) n code (by simp [hclose]) hmode
  refine ⟨by rw [heng]; rfl, by rw [heng]; rfl, ?_, by rw [heng]; rfl, by rw [heng]; rfl, by rw [heng]; rfl, by rw [heng]; rfl,
    by rw [heng]; rfl, harmed, htold, fun d hd => by rw [hothers d hd]⟩
  rw [heng]
  simp [Engine.faulted, Engine.pcAt, hlib]

/-- A channel as it meets the record boundary. -/
def Channel.atBoundary (x : Channel) : Channel := x.finalTrigger.modEng fun e => { e with tookClose := false }

/-- The words of a colophon as they are handed over in dc `n`. -/
def Channel.colophonOut (x : Channel) (c : Chan) (flags : Word) (n : Nat) : List OutWord :=
  (x.colophon c flags).mapIdx fun i w =>
    ({ OutWord.none with word := w, dc := n, g := some (x.rcd.base + i), final := true } : OutWord)

/-- The closed record joins those that await readout, its trigger is final, and what is staged takes effect. -/
def State.boundaryStaged (s : State) (c : Chan) : State :=
  let x := (s.chan c).atBoundary
  let s0 := (s.setChan c x).showTrigger c (s.chan c).trg
  let s1 := if s.frozen then s0 else { s0 with closed := s0.closed ++ [x.closedRec c s.now] }
  (s1.applyStaged c (x.folder.closing.getD (x.folder.last + 1) - x.folder.base) false).1

/-- A channel whose record `x` has closed, with the colophon behind what its output queue holds. -/
def Channel.shut (y x : Channel) (ws : List OutWord) : Channel :=
  { y with
    outq := y.outq ++ ws, rcd := { y.rcd with isOpen := false }
    twHeld := x.rcd.tw.map fun j => (x.rcd.base + 8 + j, x.rcd.twWord) }

/-- The record is closed: its colophon stands, its folio is closed, and its ring's queue holds it. -/
def State.boundaryClosed (s : State) (c : Chan) (n : Nat) (flags : Word) : State :=
  let x := (s.chan c).atBoundary
  let s3 := s.boundaryStaged c |>.modChan c fun y => y.shut x (x.colophonOut c flags n)
  (if s.frozen then s3
    else (s3.closeFolio x flags).modRing (x.closedRec c s.now).ring fun q =>
      { q with queue := s.enqueued q.queue (x.closedRec c s.now) }.settle s.now).formeDone

/-- A boundary at which no record follows. -/
theorem State.recordBoundary_eq_endOfArm (n : Nat) (closeTo : Bool) (harmed : (s.chan c).atBoundary.armed = false)
    (hby : (s.chan c).atBoundary.folder.byDisarm = true) :
    s.recordBoundary c n closeTo = ((s.at_ (s.dcAt n)).boundaryClosed c n
      ((s.chan c).atBoundary.finalFlags closeTo false)).endOfArm c := by
  have hagain : ((s.chan c).atBoundary.armed && (s.chan c).atBoundary.armNext.isNone ||
      ((s.chan c).atBoundary.disarmAt.isSome && !(s.chan c).atBoundary.folder.byDisarm)) = false := by simp [harmed, hby]
  have hx : ((s.at_ (s.dcAt n)).chan c).finalTrigger.modEng (fun e => { e with tookClose := false }) =
    (s.chan c).atBoundary := rfl
  unfold State.recordBoundary
  simp only [hx, hagain, Bool.not_false, if_true, Bool.false_and, Bool.false_eq_true, if_false]
  rfl

theorem OutKept.boundaryStaged (s : State) (c : Chan) (hx : SameOut (s.chan c) (s.chan c).atBoundary) :
    OutKept s (s.boundaryStaged c) := by
  unfold State.boundaryStaged
  dsimp only
  refine OutKept.applyStaged ?_ c _ _
  have h0 := ((OutKept.refl s).setChan hx).showTrigger c (s.chan c).trg
  split
  · exact h0
  · exact h0.of_same rfl rfl

theorem OutKept.boundaryClosed (s : State) (c : Chan) (n : Nat) (flags : Word) :
    OutKept (s.boundaryStaged c |>.modChan c fun y => y.shut (s.chan c).atBoundary ((s.chan c).atBoundary.colophonOut c flags n))
      (s.boundaryClosed c n flags) := by
  unfold State.boundaryClosed
  dsimp only
  refine OutKept.formeDone ?_
  split
  · exact .refl _
  · exact (OutKept.refl _).of_same rfl rfl

/-- The record boundary of a channel that is disarmed, with no arm waiting: the record is closed, with its colophon behind
what the output queue holds. -/
theorem State.recordBoundary_last (n : Nat) (closeTo : Bool) (harmed : (s.chan c).armed = false)
    (hnext : (s.chan c).armNext = none) (hby : (s.chan c).folder.byDisarm = true) :
    (s.recordBoundary c n closeTo).now = max s.now (s.dcAt n) ∧
    ((s.recordBoundary c n closeTo).chan c).rcd.isOpen = false ∧
    ∃ x : Channel, ((s.recordBoundary c n closeTo).chan c).outq =
      (s.chan c).outq ++ x.colophonOut c (x.finalFlags closeTo false) n := by
  obtain ⟨trg, htrg⟩ := Channel.finalTrigger_eq (s.chan c)
  have hx : (s.chan c).atBoundary = { s.chan c with trg := trg, eng := { (s.chan c).eng with tookClose := false } } := by
    rw [Channel.atBoundary, htrg]; rfl
  have hout : SameOut (s.chan c) (s.chan c).atBoundary := by rw [hx]; exact ⟨rfl, rfl, id⟩
  rw [State.recordBoundary_eq_endOfArm n closeTo (by rw [hx]; exact harmed) (by rw [hx]; exact hby)]
  generalize hflags : (s.chan c).atBoundary.finalFlags closeTo false = flags
  have hstaged := OutKept.boundaryStaged (s.at_ (s.dcAt n)) c hout
  have hclosed := OutKept.boundaryClosed (s.at_ (s.dcAt n)) c n flags
  have hc := hclosed.chans c
  rw [State.modChan, State.chan_setChan_self] at hc
  have hend := (OutKept.refl ((s.at_ (s.dcAt n)).boundaryClosed c n flags)).endOfArm
    (c := c) (hc.armNext ((hstaged.chans c).armNext hnext))
  refine ⟨hend.now.trans (hclosed.now.trans hstaged.now), (hend.chans c).isOpen.trans hc.isOpen, (s.chan c).atBoundary, ?_⟩
  rw [(hend.chans c).outq, hc.outq, hflags]
  exact congrArg (· ++ _) (hstaged.chans c).outq

/-- The first word of a colophon carries the flags. -/
theorem Channel.colophonOut_eq (x : Channel) (c : Chan) (flags : Word) (n : Nat) :
    ∃ o ws, x.colophonOut c flags n = o :: ws ∧ ws.length = 7 ∧ ∀ i < 32, flags.getLsbD i = true → o.word.getLsbD i = true := by
  unfold Channel.colophonOut Channel.colophon
  dsimp only
  rw [List.mapIdx_cons]
  refine ⟨_, _, rfl, by simp, fun i hi hbit => getLsbD_pack (f := (0, flags.toNat)) (by simp) ?_⟩
  rw [BitVec.getLsbD_ofNat, Nat.pow_zero, Nat.mul_one, BitVec.testBit_toNat, hbit, decide_eq_true (by omega)]
  rfl

theorem Channel.finalFlags_closeTo (x : Channel) (held : Bool) : (x.finalFlags true held).getLsbD 10 = true := by
  have h : flagCloseTo.getLsbD 10 = true := rfl
  unfold Channel.finalFlags
  simp only [BitVec.getLsbD_or, if_true, h, Bool.or_true, Bool.true_or]

/-- A close timeout: the record closes under the flag of Table 9.9, and the engine faults. -/
theorem State.closeTo_spec {n : Nat} (hdue : (s.chan c).closeToAt = some n) (hon : s.chOn c = true)
    (harmed : (s.chan c).armed = false) (hnext : (s.chan c).armNext = none) (hby : (s.chan c).folder.byDisarm = true) :
    ((s.closeTo c).chan c).eng.st = .fault ∧ ((s.closeTo c).chan c).eng.faultCode = 7 ∧
    ((s.closeTo c).chan c).rcd.isOpen = false ∧ s.dcAt n ≤ (s.closeTo c).now ∧
    ∃ o ws, ((s.closeTo c).chan c).outq = (s.chan c).outq ++ o :: ws ∧ ws.length = 7 ∧ o.word.getLsbD 10 = true := by
  have heq : s.closeTo c = (s.recordBoundary c n true).engineFault c n 7 := by
    unfold State.closeTo
    rw [hdue]
    exact if_pos hon
  obtain ⟨hnow, hopen, x, hout⟩ := State.recordBoundary_last n true harmed hnext hby
  have hshut : (((s.recordBoundary c n true).chan c).folder.closePosted.isSome &&
      ((s.recordBoundary c n true).chan c).rcd.isOpen) = false := by rw [hopen, Bool.and_false]
  obtain ⟨a, hfault⟩ := State.engineFault_eq n 7 hshut
  have hlater := State.engineFault_now n 7 hshut
  obtain ⟨o, ws, hcolo, hlen, hbits⟩ := x.colophonOut_eq c (x.finalFlags true false) n
  rw [heq, hlater, hfault, State.chan_disarm_self, Channel.disarmed_eng, Channel.disarmed_isOpen, Channel.disarmed_outq,
    State.chan_raise, State.chan_setChan_self]
  refine ⟨rfl, rfl, hopen, ?_, o, ws, hout.trans (by rw [hcolo]), hlen, hbits 10 (by decide) (x.finalFlags_closeTo false)⟩
  rw [hnow]
  exact (le_max_right _ _).trans (le_max_left _ _)

end Watchdogs

end Sys2Proof.Machine

namespace Sys2Proof.Proofs

open Sys2Proof.Machine Sys2Proof.Safety

/-- Settles O12: an engine starts cleared at its entry, its images reload, and each of its two watchdogs ends in a fault. -/
theorem engineStartsAndWatchdogs : Obligations.EngineStartsAndWatchdogs := by
  refine ⟨fun s c t0 => ⟨fun hdue hrel hon hen => ?_, fun hrel => ?_⟩, fun s c w p => ?_⟩
  · refine ⟨_, rfl, ?_⟩
    rw [State.engineStart_due hdue hrel hon hen]
    refine ⟨rfl, s.onlyChan_setChan_at c _ _, ?_⟩
    rw [State.chan_setChan_self]
    exact ⟨rfl, rfl, Engine.gr_of_cleared rfl, Engine.ar_of_cleared rfl, rfl, rfl, rfl, rfl, rfl, rfl, rfl⟩
  · refine ⟨_, rfl, ?_⟩
    rw [State.imageReload_due hrel]
    refine ⟨rfl, s.onlyChan_setChan_at c _ _, ?_⟩
    rw [State.chan_setChan_self]
    exact ⟨sget_ssets_nil _, sget_ssets_nil _, rfl, rfl, rfl⟩
  · dsimp only
    intro hon hmode hst
    have hact := EngState.active_of hst
    refine ⟨fun hw hclose hlib => ?_, fun hp hopen harmed hnext hby => ?_⟩
    · have hrun := Channel.runawayAt_eq hact hw
      have heq : s.runaway c = s.engineFault c (w + fld (s.chan c).engCtl 8 8 * 1024 - 1) 6 := by
        unfold State.runaway
        rw [hrun]
        exact if_pos hon
      refine ⟨_, rfl, ?_⟩
      rw [heq, State.engineFault_now _ _ (by simp [hclose])]
      exact ⟨State.engineFault_faulted _ _ hclose hmode hlib, le_max_right _ _⟩
    · refine ⟨_, rfl, State.closeTo_spec (Channel.closeToAt_eq hact hp hopen) hon harmed hnext hby⟩

end Sys2Proof.Proofs
end

section
/-! SUPPORT. A converted edge while the phase of SPAN glides: the write edge lies 7 span cycles after the next SPAN edge, and
those cycles are longer than 51,200 units of the time axis. -/

namespace Sys2Proof.Machine

open Sys2Proof.Safety

/-- Channel 0 is armed and its lane H takes rising edges while the timebase settles: SPAN still has to move by 1,000 LSB in
62,000 cycles, from its edge 500 on (R121). -/
def glidingLane : State :=
  { State.reset with
    chans := State.reset.chans.set 0 { Channel.reset with armed := true, cfg := { Channel.reset.cfg with lnCfgH := 0x10 } }
    tb := { State.reset.tb with st := .settle, offset := -1000, glide := some 26200 }
    pwr := { State.reset.pwr with mode := .run, doms := Vector.replicate 104 .on } }

/-- An instant 100 units after SPAN edge 600. -/
def glidingEdge : Instant := 30746340

/-- SPAN edge 608, at which the entry is written, and 7 times 51,200 units after SPAN edge 601. -/
theorem glidingLane_writeEdge :
    ((glidingLane.transition glidingEdge 0 true).laneAt 0).reserved.map Prod.fst = [31155843] ∧
      glidingLane.span.next (glidingEdge + 1) + 7 * 51200 = 31155840 := by
  decide +kernel

theorem glidingLane_ready :
    (glidingLane.chOn (laneChan 0) = true ∧ glidingLane.stamping = true ∧
      (glidingLane.chan (laneChan 0)).trim.running = false ∧ (glidingLane.laneAt 0).level ≠ true ∧
      (glidingLane.chan (laneChan 0)).armedAt (max glidingLane.now glidingEdge) = true ∧
      (glidingLane.laneAt 0).restartAt = none) ∧
    (((glidingLane.chan (laneChan 0)).lnCfg (laneIsL 0)).getLsbD
        (if (true != ((glidingLane.chan (laneChan 0)).lnCfg (laneIsL 0)).getLsbD 3) then 4 else 5) = true ∧
      (glidingLane.laneAt 0).loss = none ∧ (glidingLane.laneAt 0).need ≤ (glidingLane.laneAt 0).edges + 1 ∧
      (glidingLane.laneAt 0).xopen = none ∧ fld ((glidingLane.chan (laneChan 0)).lnXchk (laneIsL 0)) 0 4 = 0 ∧
      (glidingLane.laneAt 0).lastConv = none ∧
      (glidingLane.laneAt 0).fifo.length + (glidingLane.laneAt 0).reserved.length < 4096) := by
  decide +kernel

end Sys2Proof.Machine

namespace Sys2Proof.Proofs

open Sys2Proof.Machine Sys2Proof.Safety

/-- Refutes O13: while SPAN's phase glides after a REANCHOR the write edge of a converted edge, 7 span cycles after the next
SPAN edge, is not 7 times 51,200 units after it. -/
theorem not_laneTransitions : ¬ Obligations.LaneTransitions := by
  intro h
  obtain ⟨⟨hon, hstamp, htrim, hlevel, harmed, hrestart⟩, hsel, hloss, hneed, hopen, hrate, hconv, hroom⟩ := glidingLane_ready
  obtain ⟨-, -, hconverts⟩ := h glidingLane glidingEdge 0 true hon hstamp htrim hlevel harmed hrestart
  obtain ⟨hreserves, -⟩ := hconverts hsel hloss hneed hopen hrate fun p hp => by simp [hconv] at hp
  obtain ⟨t, e, hexec, hreserved, -⟩ := hreserves hroom
  obtain ⟨hwrite, hspan⟩ := glidingLane_writeEdge
  obtain rfl : glidingLane.transition glidingEdge 0 true = t := Host.Outcome.next.inj hexec
  rw [hreserved] at hwrite
  have hnow : max glidingLane.now glidingEdge = glidingEdge := rfl
  have hempty : (glidingLane.laneAt 0).reserved = [] := rfl
  rw [hnow, hspan, hempty] at hwrite
  exact absurd hwrite (by simp)

end Sys2Proof.Proofs
end

section
/-! SUPPORT. Entries of a lane: FIFO writes, loss intervals, cross-checks. -/

namespace Sys2Proof.Machine

open Sys2Proof.Safety

@[simp] theorem Channel.lane_setLane (x : Channel) (l : Bool) (y : Lane) : (x.setLane l y).lane l = y := by
  cases l <;> rfl

theorem toNat_satAdd {n : Nat} (b : BitVec n) (k : Nat) : (satAdd b k).toNat = min (b.toNat + k) (2 ^ n - 1) := by
  have hb := b.isLt
  unfold satAdd
  split
  · rw [BitVec.toNat_ofNat, Nat.mod_eq_of_lt (by omega)]
    omega
  · rw [BitVec.toNat_allOnes]
    omega

theorem codeDiff_eq (a b : BitVec 11) : (codeDiff a b : Int) = |(a.toNat : Int) - b.toNat| := by
  unfold codeDiff
  rw [abs_eq_max_neg]
  omega

section Lanes
variable {s : State} {i : LaneIx}

theorem State.laneAt_setChan (x : Channel) : (s.setChan (laneChan i) x).laneAt i = x.lane (laneIsL i) := by
  unfold State.laneAt
  rw [State.chan_setChan_self]

/-- The oldest reserved entry is written. -/
theorem State.laneFifoWrite_eq {wr : Instant} {e : Entry} {rest : List (Instant × Entry)}
    (h : (s.laneAt i).reserved = (wr, e) :: rest) : ∃ f : FifoEntry, f.e = e ∧ f.wr = wr ∧ f.own = true ∧
    s.laneFifoWrite i = (s.at_ wr).setChan (laneChan i) ((s.chan (laneChan i)).setLane (laneIsL i) { s.laneAt i with
      reserved := rest, fifo := (s.laneAt i).fifo ++ [f], hwm := max (s.laneAt i).hwm ((s.laneAt i).fifo.length + 1) }) := by
  refine ⟨{ e := e, wr := wr, own := true, subs := s.subscribers i (e.conv * lsbUnits) }, rfl, rfl, rfl, ?_⟩
  have h' : ((s.chan (laneChan i)).lane (laneIsL i)).reserved = (wr, e) :: rest := h
  unfold State.laneFifoWrite
  simp only [h', List.length_append, List.length_singleton]
  rfl

/-- An entry of lane `i` as it is written at `wr`, with the readers that claim it. -/
def State.written (s : State) (i : LaneIx) (wr : Instant) (e : Entry) : FifoEntry :=
  { e := e, wr := wr, own := true, subs := s.subscribers i (e.conv * lsbUnits) }

/-- What the FIFO of lane `i` holds once the loss interval `l` has closed at `t`. -/
def State.fifoClosed (s : State) (i : LaneIx) (l : Loss) (t : Instant) : List FifoEntry :=
  (s.laneAt i).fifo ++ (s.laneAt i).reserved.map (fun r => s.written i r.1 r.2) ++
    [s.written i t (markEntry i l false), s.written i t (markEntry i l true)]

/-- A loss interval closes once there is room: its two marks stand behind every entry reserved before it. -/
theorem State.lossClose_room {l : Loss} (h : (s.laneAt i).loss = some l)
    (hroom : (s.laneAt i).taken + (s.chan (laneChan i)).closeRoom (s.span.next s.now) ≤ fifoDepth) :
    s.lossClose i = (s.at_ (s.span.next s.now)).setChan (laneChan i) ((s.chan (laneChan i)).setLane (laneIsL i)
      { s.laneAt i with
        reserved := [], fifo := s.fifoClosed i l (s.span.next s.now)
        hwm := max (s.laneAt i).hwm (s.fifoClosed i l (s.span.next s.now)).length
        loss := none, edges := 0, first := none, need := 1, fromStart := true }) := by
  have h' : ((s.chan (laneChan i)).lane (laneIsL i)).loss = some l := h
  have hroom' : ¬fifoDepth < ((s.chan (laneChan i)).lane (laneIsL i)).taken +
      (s.chan (laneChan i)).closeRoom (s.span.next s.now) := Nat.not_lt.2 hroom
  unfold State.lossClose
  simp only [h', hroom', if_false]
  rfl

theorem State.lossClose_full {l : Loss} (h : (s.laneAt i).loss = some l)
    (hfull : fifoDepth < (s.laneAt i).taken + (s.chan (laneChan i)).closeRoom (s.span.next s.now)) : s.lossClose i = s := by
  have h' : ((s.chan (laneChan i)).lane (laneIsL i)).loss = some l := h
  have hfull' : fifoDepth < ((s.chan (laneChan i)).lane (laneIsL i)).taken +
      (s.chan (laneChan i)).closeRoom (s.span.next s.now) := hfull
  unfold State.lossClose
  simp only [h', hfull', if_true]

/-- How an entry says that its check has ended. -/
def Entry.checked (e : Entry) (t : Instant) (bad : Bool) : Entry :=
  if e.conv = lsbOf t && e.type = 0 then { e with xck := if bad then 2 else 1 } else e

/-- The lane once the check of the edge at `t` is settled. -/
def Lane.checked (ln : Lane) (t : Instant) (bad : Bool) : Lane :=
  { ln with
    xopen := none, mismatch := if bad then satAdd ln.mismatch 1 else ln.mismatch
    reserved := ln.reserved.map fun r => (r.1, r.2.checked t bad), fifo := ln.fifo.map fun r => { r with e := r.e.checked t bad } }

section CrossCheck
variable {t : Instant} {leader code : BitVec 11} (h : (s.laneAt i).xopen = some (t, leader))
include h

/-- The codes differ by more than LIMIT. -/
theorem State.crossCheck_bad (hbad : fld ((s.chan (laneChan i)).lnXchk (laneIsL i)) 16 8 < codeDiff leader code) :
    s.crossCheck i code = ((s.at_ (t + busyTime)).setChan (laneChan i)
      ((s.chan (laneChan i)).setLane (laneIsL i) ((s.laneAt i).checked t true))).raise (chSrc (laneChan i)) 0x02 := by
  have h' : ((s.chan (laneChan i)).lane (laneIsL i)).xopen = some (t, leader) := h
  unfold State.crossCheck
  simp only [h', hbad, if_true]
  rfl

theorem State.crossCheck_good (hgood : ¬fld ((s.chan (laneChan i)).lnXchk (laneIsL i)) 16 8 < codeDiff leader code) :
    s.crossCheck i code = (s.at_ (t + busyTime)).setChan (laneChan i)
      ((s.chan (laneChan i)).setLane (laneIsL i) ((s.laneAt i).checked t false)) := by
  have h' : ((s.chan (laneChan i)).lane (laneIsL i)).xopen = some (t, leader) := h
  unfold State.crossCheck
  simp only [h', hgood, if_false]
  rfl

end CrossCheck

theorem Entry.checked_eq (e : Entry) (t : Instant) (bad : Bool) :
    e.checked t bad = if e.conv = t / 25 ∧ e.type = 0 then { e with xck := if bad then 2 else 1 } else e := by
  unfold Entry.checked
  simp only [Bool.and_eq_true, decide_eq_true_eq]
  rfl

@[simp] theorem State.laneAt_raise (n : Source) (b : Byte) : (s.raise n b).laneAt i = s.laneAt i := by
  unfold State.laneAt
  rw [State.chan_raise]

end Lanes

theorem State.onlyChanT_setChan_at (s : State) (c : Chan) (t : Instant) (x : Channel) :
    OnlyChanT s ((s.at_ t).setChan c x) c :=
  ⟨rfl, fun _ hd => State.chan_setChan_ne _ _ _ _ hd⟩

/-- Raising a cause stays within the frame of a channel and the truss. -/
theorem State.onlyChanT_raise {s t : State} {c : Chan} (h : OnlyChanT s t c) (n : Source) (b : Byte) :
    OnlyChanT s (t.raise n b) c := by
  obtain ⟨l, hl⟩ := t.raise_eq n b
  refine ⟨?_, fun d hd => (State.chan_raise t n b d).trans (h.others d hd)⟩
  rw [hl]
  rw [h.whole]

end Sys2Proof.Machine

namespace Sys2Proof.Proofs

open Sys2Proof.Machine Sys2Proof.Safety

/-- Settles O14: the oldest reserved entry is written, a loss interval closes with its two marks once there is room, and a
cross-check ends with the entry saying how. -/
theorem laneFifoAndChecks : Obligations.LaneFifoAndChecks := by
  intro s i code
  dsimp only
  refine ⟨fun wr e rest h => ?_, fun l h => ⟨fun hroom => ?_, fun hfull => ?_⟩, fun t0 leader h => ?_⟩
  · obtain ⟨f, hfe, hfw, hown, heq⟩ := State.laneFifoWrite_eq h
    refine ⟨_, f, rfl, ?_⟩
    rw [heq]
    exact ⟨rfl, s.onlyChan_setChan_at _ _ _, hfe, hfw, hown, State.chan_setChan_self _ _ _⟩
  · have heq := State.lossClose_room h hroom
    refine ⟨_, markEntry i l false, markEntry i l true, rfl, ?_⟩
    rw [heq, State.laneAt_setChan, Channel.lane_setLane]
    refine ⟨rfl, s.onlyChan_setChan_at _ _ _, ?_, rfl, rfl, rfl, rfl, Nat.mod_add_div _ _, rfl, rfl, rfl, rfl, rfl, rfl, rfl⟩
    unfold State.fifoClosed
    rw [List.map_append, List.map_append, List.map_map]
    rfl
  · have heq := State.lossClose_full h hfull
    exact congrArg Host.Outcome.next heq
  · by_cases hbad : fld ((s.chan (laneChan i)).lnXchk (laneIsL i)) 16 8 < codeDiff leader code
    · have hbad' := hbad
      rw [← Int.ofNat_lt, codeDiff_eq] at hbad'
      have heq := State.crossCheck_bad h hbad
      refine ⟨_, rfl, ?_⟩
      rw [heq, State.laneAt_raise, State.laneAt_setChan, Channel.lane_setLane, State.raise_now]
      refine ⟨rfl, State.onlyChanT_raise (s.onlyChanT_setChan_at _ _ _) _ _, rfl, ?_⟩
      simp only [if_pos hbad']
      refine ⟨?_, ?_, ?_, fun _ hmode => State.reported_raise _ (chSrc (laneChan i)) 2 hmode (by decide), fun h => absurd hbad' h⟩
      · exact List.map_congr_left fun r _ => by rw [Entry.checked_eq]; rfl
      · rw [Lane.checked, List.map_map]
        exact List.map_congr_left fun f _ => f.e.checked_eq t0 true
      · exact toNat_satAdd _ _
    · have hgood := hbad
      rw [← Int.ofNat_lt, codeDiff_eq] at hgood
      have heq := State.crossCheck_good h hbad
      refine ⟨_, rfl, ?_⟩
      rw [heq, State.laneAt_setChan, Channel.lane_setLane]
      refine ⟨rfl, s.onlyChanT_setChan_at _ _ _, rfl, ?_⟩
      simp only [if_neg hgood]
      refine ⟨?_, ?_, rfl, fun h => absurd h hgood, fun _ => rfl⟩
      · exact List.map_congr_left fun r _ => by rw [Entry.checked_eq]; rfl
      · rw [Lane.checked, List.map_map]
        exact List.map_congr_left fun f _ => f.e.checked_eq t0 false

end Sys2Proof.Proofs
end

section
/-! SUPPORT. Reads of the merge: which item is read, in which dc, and what the read leaves. -/

namespace Sys2Proof.Machine

open Sys2Proof.Safety

theorem State.onlyChan_setChan (s : State) (c : Chan) (x : Channel) : OnlyChan s (s.setChan c x) c :=
  ⟨rfl, fun _ hd => State.chan_setChan_ne _ _ _ _ hd⟩

/-! ## The dc of a read (R40, R77) -/

section Slot
variable {l : List (Nat × Nat)} {n : Nat}

/-- The first dc after every read of a window. -/
theorem le_foldl_max_succ (l : List (Nat × Nat)) (n : Nat) : n ≤ l.foldl (fun a p => max a (p.1 + 1)) n := by
  induction l generalizing n with
  | nil => exact le_rfl
  | cons p l ih => exact (le_max_left _ _).trans (ih _)

theorem lt_foldl_max_succ {p : Nat × Nat} (hp : p ∈ l) : p.1 < l.foldl (fun a p => max a (p.1 + 1)) n := by
  induction l generalizing n with
  | nil => cases hp
  | cons q l ih =>
    obtain rfl | hp := List.mem_cons.1 hp
    · exact (le_max_right _ _).trans (le_foldl_max_succ l _)
    · exact ih hp

variable (m : Merge) (raw : Bool) (k : Nat)

/-- The dc that the rate allows lies at or after the first one after every read. -/
theorem Merge.le_slotAt : m.window.foldl (fun a p => max a (p.1 + 1)) n ≤ m.slotAt raw k n := by
  unfold Merge.slotAt
  dsimp only
  split
  · cases hfind : (((List.range 65).map (m.window.foldl (fun a p => max a (p.1 + 1)) n + ·)).find? fun j => m.used j + k ≤ 40) with
    | none => exact Nat.le_add_right _ _
    | some j =>
      obtain ⟨i, -, rfl⟩ := List.mem_map.1 (List.mem_of_find?_eq_some hfind)
      exact Nat.le_add_right _ _
  · exact le_rfl

theorem Merge.ready_le_slotAt : n ≤ m.slotAt raw k n := (le_foldl_max_succ _ _).trans (m.le_slotAt raw k)

theorem Merge.window_lt_slotAt {p : Nat × Nat} (hp : p ∈ m.window) : p.1 < m.slotAt raw k n :=
  (lt_foldl_max_succ hp).trans_le (m.le_slotAt raw k)

/-- 64 dc after the last read nothing of the window counts. -/
theorem Merge.used_eq_zero (h : ∀ p ∈ m.window, p.1 + 64 ≤ n) : m.used n = 0 := by
  unfold Merge.used
  rw [List.filter_eq_nil_iff.2 fun p hp => by have := h p hp; simp; omega]
  rfl

theorem Merge.used_slotAt (hk : k ≤ 40) : m.used (m.slotAt true k n) + k ≤ 40 := by
  unfold Merge.slotAt
  dsimp only
  rw [if_pos rfl]
  cases hfind : (((List.range 65).map (m.window.foldl (fun a p => max a (p.1 + 1)) n + ·)).find? fun j => m.used j + k ≤ 40) with
  | none =>
    rw [Option.getD_none, m.used_eq_zero fun p hp => ?_, Nat.zero_add]
    · exact hk
    · have := lt_foldl_max_succ (n := n) hp
      omega
  | some j => simpa using List.find?_some hfind

end Slot

/-! ## The item that is read (R76) -/

/-- Of a list of heads the earliest is read. -/
def firstHead (n : Nat) (l : List (Item × Nat × Instant × Input)) : Option (Item × Nat × Instant × Input) :=
  l.foldl (fun a h => match a with
    | none => some (h.1, n, h.2.2)
    | some b => if h.1.before b.1 then some (h.1, n, h.2.2) else some b) none

theorem foldl_head_mem (n : Nat) (l l' : List (Item × Nat × Instant × Input)) (a : Option (Item × Nat × Instant × Input))
    (ha : a = none ∧ l ≠ [] ∨ ∃ h ∈ l', a = some (h.1, n, h.2.2)) :
    ∃ h ∈ l' ++ l, l.foldl (fun a h => match a with
      | none => some (h.1, n, h.2.2)
      | some b => if h.1.before b.1 then some (h.1, n, h.2.2) else some b) a = some (h.1, n, h.2.2) := by
  induction l generalizing a l' with
  | nil =>
    obtain ⟨-, h⟩ | ⟨h, hh, rfl⟩ := ha
    · exact absurd rfl h
    · exact ⟨h, by simpa using hh, rfl⟩
  | cons q l ih =>
    have happ : l' ++ q :: l = (l' ++ [q]) ++ l := by simp
    rw [happ]
    refine ih (l' ++ [q]) _ (.inr ?_)
    obtain ⟨rfl, -⟩ | ⟨h, hh, rfl⟩ := ha
    · exact ⟨q, by simp, rfl⟩
    · dsimp only
      split
      · exact ⟨q, by simp, rfl⟩
      · exact ⟨h, by simp [hh], rfl⟩

theorem firstHead_mem (n : Nat) {l : List (Item × Nat × Instant × Input)} (hl : l ≠ []) :
    ∃ h ∈ l, firstHead n l = some (h.1, n, h.2.2) := by
  obtain ⟨h, hh, heq⟩ := foldl_head_mem n l [] none (.inl ⟨rfl, hl⟩)
  exact ⟨h, by simpa using hh, heq⟩

section Read
variable {s : State} {c : Chan}

/-- Heads that no open loss interval precedes. -/
def State.readHeads (s : State) (c : Chan) : List (Item × Nat × Instant × Input) :=
  (s.heads c).filter fun h => !(s.openMarks c).any fun m => m.before h.1

/-- The first dc after every read of the merge's window. -/
def Merge.start (m : Merge) : Nat := m.window.foldl (fun a p => max a (p.1 + 1)) 0

theorem State.nextRead_eq {n : Nat} (h : ((s.readHeads c).map fun h => max h.2.1 (s.chan c).merge.start).min? = some n) :
    s.nextRead c = firstHead n ((s.readHeads c).filter fun h => h.2.1 ≤ n) := by
  have h' : (((s.heads c).filter fun h => !(s.openMarks c).any fun m => m.before h.1).map fun h =>
      max h.2.1 ((s.chan c).merge.window.foldl (fun a p => max a (p.1 + 1)) 0)).min? = some n := h
  unfold State.nextRead
  simp only [h']
  rfl

/-- Where something can be read, one of the heads is, and not before it can be. -/
theorem State.nextRead_some (h : ∃ h ∈ s.heads c, ∀ m ∈ s.openMarks c, m.before h.1 = false) :
    ∃ it r wr k n, s.nextRead c = some (it, n, wr, k) ∧ (it, r, wr, k) ∈ s.heads c ∧ r ≤ n := by
  obtain ⟨h0, hmem, hfree⟩ := h
  have h0mem : h0 ∈ s.readHeads c := List.mem_filter.2 ⟨hmem, by simpa using hfree⟩
  cases hmin : ((s.readHeads c).map fun h => max h.2.1 (s.chan c).merge.start).min? with
  | none =>
    rw [List.min?_eq_none_iff, List.map_eq_nil_iff] at hmin
    rw [hmin] at h0mem
    cases h0mem
  | some n =>
    obtain ⟨h1, h1mem, hn⟩ := List.mem_map.1 (List.min?_mem hmin)
    have hne : (s.readHeads c).filter (fun h => h.2.1 ≤ n) ≠ [] :=
      List.ne_nil_of_mem (List.mem_filter.2 ⟨h1mem, by simpa using (le_max_left _ _).trans hn.le⟩)
    obtain ⟨h2, h2mem, heq⟩ := firstHead_mem n hne
    obtain ⟨h2read, h2le⟩ := List.mem_filter.1 h2mem
    exact ⟨h2.1, h2.2.1, h2.2.2.1, h2.2.2.2, n, (State.nextRead_eq hmin).trans heq, (List.mem_filter.1 h2read).1, by
      simpa using h2le⟩

/-! ## What a read leaves -/

/-- Removing what was read touches neither the reorder window, the folder nor the engine. -/
theorem State.consume_spec (k : Input) : (s.consume c k).now = s.now ∧
    ((s.consume c k).chan c).merge.reorder = (s.chan c).merge.reorder ∧ ((s.consume c k).chan c).folder = (s.chan c).folder ∧
    ((s.consume c k).chan c).eng = (s.chan c).eng := by
  have hset : ∀ (d : Chan) (x : Channel), x.merge.reorder = (s.chan d).merge.reorder → x.folder = (s.chan d).folder →
      x.eng = (s.chan d).eng → ((s.setChan d x).chan c).merge.reorder = (s.chan c).merge.reorder ∧
        ((s.setChan d x).chan c).folder = (s.chan c).folder ∧ ((s.setChan d x).chan c).eng = (s.chan c).eng := by
    intro d x hr hf he
    by_cases hd : c = d
    · subst hd
      rw [State.chan_setChan_self]
      exact ⟨hr, hf, he⟩
    · rw [State.chan_setChan_ne _ _ _ _ hd]
      exact ⟨rfl, rfl, rfl⟩
  have hlane : ∀ (x : Channel) (l : Bool) (y : Lane), (x.setLane l y).merge.reorder = x.merge.reorder ∧
      (x.setLane l y).folder = x.folder ∧ (x.setLane l y).eng = x.eng := by
    intro x l y; cases l <;> exact ⟨rfl, rfl, rfl⟩
  unfold State.consume
  split
  · split
    · exact ⟨rfl, hset _ _ rfl rfl rfl⟩
    · next i _ _ =>
      obtain ⟨hr, hf, he⟩ := hlane (s.chan (laneChan i)) (laneIsL i) _
      exact ⟨rfl, hset _ _ hr hf he⟩
  · exact ⟨rfl, hset _ _ rfl rfl rfl⟩

theorem Channel.readCost_reorder (x : Channel) (it : Item) : (x.readCost it).2.reorder = x.merge.reorder := by
  unfold Channel.readCost Channel.restartMerge
  dsimp only
  (repeat' split) <;> rfl

/-- A read of the merge in the first dc that its rate allows. -/
theorem State.mergeRead_spec {it : Item} {wr : Instant} {k : Input} {n0 n : Nat} (hheld : (s.chan c).merge.held = false)
    (hon : s.chOn c = true) (hnext : s.nextRead c = some (it, n0, wr, k))
    (hn : n = (s.chan c).merge.slotAt ((s.chan c).kind < 2) ((s.chan c).readCost it).1 n0) :
    (s.mergeRead c).now = max s.now (s.dcAt n) ∧
    ((s.mergeRead c).chan c).merge.reorder = insertItem (it, n + 97, wr) (s.chan c).merge.reorder ∧
    ((s.mergeRead c).chan c).folder = (s.chan c).folder ∧ ((s.mergeRead c).chan c).eng = (s.chan c).eng := by
  have hcond : ((s.chan c).merge.held || !s.chOn c) = false := by simp [hheld, hon]
  unfold State.mergeRead
  simp only [hcond, Bool.false_eq_true, if_false, hnext, ← hn]
  obtain ⟨hnow, hr, hf, he⟩ := State.consume_spec (c := c) (s := (s.at_ (s.dcAt n)).modChan c fun y => { y with
    merge := { ((s.chan c).readCost it).2 with
      window := ((((s.chan c).readCost it).2).window.filter fun p => n < p.1 + 64) ++ [(n, ((s.chan c).readCost it).1)]
      reorder := insertItem (it, n + 97, wr) ((s.chan c).readCost it).2.reorder } }) k
  refine ⟨hnow, hr.trans ?_, hf.trans ?_, he.trans ?_⟩
  · rw [State.modChan, State.chan_setChan_self, (s.chan c).readCost_reorder it]
  · rw [State.modChan, State.chan_setChan_self, State.chan_at]
  · rw [State.modChan, State.chan_setChan_self, State.chan_at]

/-- With an entry in either lane and nothing else to read, the heads are those two entries. -/
theorem State.heads_two {f g : FifoEntry} (hptnr : (s.chan c).cfg.ptnr.getLsbD 31 = false)
    (hins : (s.chan c).merge.ins = []) (hf : s.headOf c (laneIx c false) false = some f)
    (hg : s.headOf c (laneIx c true) false = some g) :
    s.heads c =
      [(.entry (s.dress (laneIx c false) false f.e), s.readable (laneIx c false) f.wr, f.wr, .lane (laneIx c false) false),
        (.entry (s.dress (laneIx c true) false g.e), s.readable (laneIx c true) g.wr, g.wr, .lane (laneIx c true) false)] := by
  have hpartner : (s.chan c).partner c = none := by
    unfold Channel.partner partnerOf
    rw [hptnr]
    rfl
  unfold State.heads
  simp [hpartner, hins, hf, hg]

/-- Of an entry of lane H and one of lane L the one with the earlier deskewed time goes first, that of H at a tie. -/
theorem Entry.before_iff {h l : Entry} (hlane : h.lane = false) (llane : l.lane = true) (hp : h.ptnr = false)
    (lp : l.ptnr = false) : (Item.entry l).before (.entry h) = decide (¬h.abs ≤ l.abs) := by
  simp [Item.before, Entry.rank, hlane, llane, hp, lp, bit]

theorem State.nextRead_two {f g : FifoEntry} (hptnr : (s.chan c).cfg.ptnr.getLsbD 31 = false)
    (hins : (s.chan c).merge.ins = []) (hmarks : s.openMarks c = []) (hf : s.headOf c (laneIx c false) false = some f)
    (hg : s.headOf c (laneIx c true) false = some g)
    (hfr : s.readable (laneIx c false) f.wr ≤ (s.chan c).merge.start)
    (hgr : s.readable (laneIx c true) g.wr ≤ (s.chan c).merge.start)
    (hlane : (s.dress (laneIx c false) false f.e).lane = false) (llane : (s.dress (laneIx c true) false g.e).lane = true) :
    ∃ k, s.nextRead c = some (
      if (s.dress (laneIx c false) false f.e).abs ≤ (s.dress (laneIx c true) false g.e).abs then
        (.entry (s.dress (laneIx c false) false f.e), (s.chan c).merge.start, f.wr, k)
      else (.entry (s.dress (laneIx c true) false g.e), (s.chan c).merge.start, g.wr, k)) := by
  have hheads : s.readHeads c = s.heads c := List.filter_eq_self.2 fun h _ => by rw [hmarks]; rfl
  have hmin : ((s.readHeads c).map fun h => max h.2.1 (s.chan c).merge.start).min? = some (s.chan c).merge.start := by
    rw [hheads, State.heads_two hptnr hins hf hg]
    simp [hfr, hgr]
  have hbefore := Entry.before_iff hlane llane rfl rfl
  rw [State.nextRead_eq hmin, hheads, State.heads_two hptnr hins hf hg]
  unfold firstHead
  by_cases hle : (s.dress (laneIx c false) false f.e).abs ≤ (s.dress (laneIx c true) false g.e).abs
  · exact ⟨_, by simp [hfr, hgr, hbefore, hle]; rfl⟩
  · exact ⟨_, by simp [hfr, hgr, hbefore, hle]; rfl⟩

/-- A held merge reads again once neither the folder nor the writer holds it. -/
theorem State.mergeResume_eq (hheld : (s.chan c).merge.held = true) (hfolder : (s.chan c).folder.held = false)
    (hroom : s.writerRoom (pierOf c) = true) :
    s.mergeResume c = s.setChan c { s.chan c with
      folder := { (s.chan c).folder with frozen := none }
      merge := { (s.chan c).merge with
        held := false, window := (s.chan c).merge.window ++ [(s.dc s.now - 1, 0)]
        reorder := (s.chan c).merge.reorder.mapIdx fun i r => (r.1, max r.2.1 (s.dc s.now + i), r.2.2) } } := by
  unfold State.mergeResume
  exact if_pos (by simp [hheld, hfolder, hroom])

end Read

end Sys2Proof.Machine

namespace Sys2Proof.Proofs

open Sys2Proof.Machine Sys2Proof.Safety

/-- Settles O15: the merge reads the earliest item that can be read, as soon as its rate allows. -/
theorem mergeReads : Obligations.MergeReads := by
  intro s c
  dsimp only
  refine ⟨fun hheld hon hhead => ?_, fun f g hheld hon hptnr hins hmarks hf hg hfr hgr hlane llane => ?_,
    fun hheld hfolder hroom => ?_⟩
  · obtain ⟨it, r, wr, k, n0, hnext, hmem, hr⟩ := State.nextRead_some hhead
    obtain ⟨hnow, hreorder, hfol, heng⟩ := State.mergeRead_spec hheld hon hnext rfl
    refine ⟨_, it, r, wr, k, _, rfl, hmem, hr.trans (Merge.ready_le_slotAt _ _ _), hnow,
      fun p hp => Merge.window_lt_slotAt _ _ _ hp, hreorder, fun hkind hcost => ?_, hfol, heng⟩
    rw [decide_eq_true hkind]
    exact Merge.used_slotAt _ _ hcost
  · obtain ⟨k, hnext⟩ := State.nextRead_two hptnr hins hmarks hf hg hfr hgr hlane llane
    split at hnext
    · next hle =>
      obtain ⟨-, hreorder, -, -⟩ := State.mergeRead_spec hheld hon hnext rfl
      exact ⟨_, _, rfl, by rw [if_pos hle]; exact hreorder⟩
    · next hle =>
      obtain ⟨-, hreorder, -, -⟩ := State.mergeRead_spec hheld hon hnext rfl
      exact ⟨_, _, rfl, by rw [if_neg hle]; exact hreorder⟩
  · refine ⟨_, rfl, ?_⟩
    rw [State.mergeResume_eq hheld hfolder hroom]
    exact ⟨rfl, s.onlyChan_setChan c _, State.chan_setChan_self _ _ _⟩

end Sys2Proof.Proofs
end

section
/-! SUPPORT. The units of the folder: what each of them leaves of the channel. Handing over a word, an event that falls due and
a condition that is met leave every unit still; a unit leaves the frame, the pairing chains and, in a RECORD gate, the tally. -/

namespace Sys2Proof.Machine

open Sys2Proof.Safety

/-! ## What leaves every unit still -/

/-- A folder without the events that have fallen due, the raw path's states and the closing time. -/
def Folder.still (f : Folder) : Folder :=
  { f with
    due := [], rawOpen := [], eH := 0, eL := 0, fH := 0, fL := 0, rawFirst := false, rawLast := 0, closing := none
    byDisarm := false, closeDc := 0 }

/-- A channel as its folder's units see it. -/
structure Still where
  folder : Folder
  merge : Merge
  cfg : ChanCfg
  engCtl : Word
  evqCfg : Word
  eng : Engine
  plOpen : Placement
  maskFail : Nat

def Channel.still (x : Channel) : Still :=
  { folder := x.folder.still, merge := x.merge, cfg := x.cfg, engCtl := x.engCtl, evqCfg := x.evqCfg, eng := x.eng
    plOpen := x.rcd.plOpen, maskFail := x.rcd.maskFail }

section Quiet
variable (x : Channel) (n : Nat)

theorem still_foldl {α : Type} {f : Channel → α → Channel} (hf : ∀ y a, (f y a).still = y.still) (l : List α) (x : Channel) :
    (l.foldl f x).still = x.still := by
  induction l generalizing x with
  | nil => rfl
  | cons a l ih => exact (ih _).trans (hf x a)

@[simp] theorem Channel.still_ev (type : Byte) (head : Nat) (t : Int) (v : Dword) : (x.ev type head t v).still = x.still := by
  unfold Channel.ev; split <;> rfl

@[simp] theorem Channel.still_meet (i : Nat) (t : Int) : (x.meet n i t).still = x.still := rfl

@[simp] theorem Channel.still_countEdges (t : Int) (k : Nat) (who : Nat → Bool) :
    (x.countEdges n t k who).still = x.still := by
  refine still_foldl (fun y i => ?_) _ x
  dsimp only
  split
  · split <;> rfl
  · rfl

@[simp] theorem Channel.still_qual (j : Nat) (t : Int) (d : Nat) : (x.qual n j t d).still = x.still := by
  refine still_foldl (fun y i => ?_) _ x
  dsimp only
  split <;> rfl

@[simp] theorem Channel.still_closeFull : (x.closeFull n).still = x.still := by
  unfold Channel.closeFull; dsimp only; (repeat' split) <;> rfl

@[simp] theorem Channel.still_handWord (w : OutWord) : (x.handWord n w).still = x.still := by
  unfold Channel.handWord
  dsimp only
  split
  · rfl
  · split
    · rfl
    · split
      · rfl
      · split
        · exact Channel.still_closeFull _ n
        · rfl
      · split
        · exact Channel.still_closeFull _ n
        · rfl

@[simp] theorem Channel.still_handOther (emit : Bool) (w : Qword) : (x.handOther n emit w).still = x.still :=
  x.still_handWord n _
@[simp] theorem Channel.still_handRaw (w : Qword) : (x.handRaw n w).still = x.still := x.still_handWord n _
@[simp] theorem Channel.still_flag (bits : Word) : (x.flag bits).still = x.still := rfl

/-- A change of the folder that its units do not see. -/
theorem Channel.still_modF {f : Folder → Folder} (hf : ∀ z, (f z).still = z.still) : (x.modF f).still = x.still := by
  unfold Channel.still Channel.modF
  rw [hf]

@[simp] theorem Channel.still_closePacked : (x.closePacked n).still = x.still := by
  unfold Channel.closePacked
  split
  · rfl
  · exact ((x.handRaw n _).still_modF fun _ => rfl).trans (x.still_handRaw n _)

theorem Channel.still_slot (w : Word) {f : Folder → Folder} (hf : ∀ z, (f z).still = z.still) :
    (x.slot n w f).still = x.still := by
  have hy : (x.modF fun z => { f z with rawOpen := (f z).rawOpen ++ [w] }).still = x.still := x.still_modF hf
  unfold Channel.slot
  dsimp only
  split
  · exact (Channel.still_closePacked _ n).trans hy
  · exact hy

theorem Folder.still_applyCode (w : Word) (f : Folder) : (applyCode w f).still = f.still := by
  unfold applyCode; dsimp only; (repeat' split) <;> rfl

@[simp] theorem Channel.still_rawEntry (e : Entry) : (x.rawEntry n e).still = x.still := by
  unfold Channel.rawEntry
  dsimp only
  split
  · rfl
  · split
    · rw [Channel.still_handRaw]
      exact (Channel.still_modF _ fun _ => rfl).trans (x.still_closePacked n)
    · refine (Channel.still_slot _ n _ ?_).trans (still_foldl (fun y w => y.still_slot n w (Folder.still_applyCode w)) _ x)
      exact fun _ => rfl

@[simp] theorem Channel.still_rawInsert (r : Insert) : (x.rawInsert n r).still = x.still := by
  have hy : ((insertWords r).foldl (fun y w => y.handOther n false w) (x.closePacked n)).still = x.still :=
    (still_foldl (fun y w => y.still_handOther n false w) _ _).trans (x.still_closePacked n)
  unfold Channel.rawInsert
  dsimp only
  split
  · exact hy
  · exact (Channel.still_modF _ fun _ => rfl).trans hy

end Quiet

/-! ## What a unit leaves -/

/-- What no unit of the folder touches. -/
structure FolderFrame where
  merge : Merge
  cfg : ChanCfg
  engCtl : Word
  evqCfg : Word
  g : Vector Dword 16
  queue : List Ev
  o : Int
  base : Int
  comp : Int
  last : Int
  plOpen : Placement

/-- The frame, the pairing chains (open starts, inputs whose next stamp restarts them), and the tally of the open gate (class
counts, lost edges, steps). -/
def Still.frame (q : Still) : FolderFrame :=
  { merge := q.merge, cfg := q.cfg, engCtl := q.engCtl, evqCfg := q.evqCfg, g := q.eng.g, queue := q.eng.queue
    o := q.folder.o, base := q.folder.base, comp := q.folder.comp, last := q.folder.last, plOpen := q.plOpen }
def Still.chains (q : Still) : List (Option Int) × Bool × Bool × Bool :=
  (q.folder.slots, q.folder.restartH, q.folder.restartL, q.folder.restartP)
def Still.tally (q : Still) : List Nat × Nat × Int := (q.folder.gate.counts, q.folder.gate.lost, q.folder.gate.steps)

/-- Frame and chains are the same, and in a RECORD gate the tally. -/
structure SameTaken (x y : Channel) : Prop where
  frame : y.still.frame = x.still.frame
  chains : y.still.chains = x.still.chains
  tally : x.gateKind = 0 → y.still.tally = x.still.tally

theorem Channel.gateStop_record {x : Channel} (hk : x.gateKind = 0) : x.gateStop = none := by
  unfold Channel.gateStop
  rw [hk]
  cases x.folder.closing <;> rfl

namespace SameTaken
variable {x y z : Channel}

theorem cfg (h : SameTaken x y) : y.cfg = x.cfg := congrArg FolderFrame.cfg h.frame

theorem gateKind (h : SameTaken x y) : y.gateKind = x.gateKind := by
  unfold Channel.gateKind; rw [h.cfg]

theorem of_still (h : y.still = x.still) : SameTaken x y :=
  ⟨congrArg Still.frame h, congrArg Still.chains h, fun _ => congrArg Still.tally h⟩

theorem refl (x : Channel) : SameTaken x x := of_still rfl
theorem trans (h : SameTaken x y) (g : SameTaken y z) : SameTaken x z :=
  ⟨g.frame.trans h.frame, g.chains.trans h.chains, fun hk => (g.tally (h.gateKind.trans hk)).trans (h.tally hk)⟩

theorem foldl {α : Type} {f : Channel → α → Channel} (hf : ∀ y a, SameTaken y (f y a)) (l : List α) (x : Channel) :
    SameTaken x (l.foldl f x) := by
  induction l generalizing x with
  | nil => exact .refl _
  | cons a l ih => exact (hf x a).trans (ih _)

/-! ## The gate's operations, the mask checker -/

theorem gateDo (x : Channel) (t : Int) {op : GateOp} (hop : ∀ g : Gate, ((x.gateTake g t op).counts,
    (x.gateTake g t op).lost, (x.gateTake g t op).steps) = (g.counts, g.lost, g.steps)) : SameTaken x (x.gateDo t op) := by
  unfold Channel.gateDo
  split
  · exact ⟨rfl, rfl, fun _ => rfl⟩
  · exact ⟨rfl, rfl, fun _ => hop x.folder.gate⟩

theorem gateDo_verdict (x : Channel) (t : Int) (code : Nat) : SameTaken x (x.gateDo t (.verdict code)) := by
  refine gateDo x t fun g => ?_
  unfold Channel.gateTake
  dsimp only
  split <;> rfl

theorem gateDo_delta (x : Channel) (t : Int) (j d : Nat) (sat : Bool) : SameTaken x (x.gateDo t (.delta j d sat)) := by
  refine gateDo x t fun g => ?_
  unfold Channel.gateTake Gate.histAdd
  dsimp only
  (repeat' split) <;> rfl

theorem verdict (x : Channel) (n : Nat) (p : MaskPend) (code : Nat) (t : Int) : SameTaken x (x.verdict n p code t) := by
  have hy := gateDo_verdict x t code
  have hz : SameTaken x (if (x.gateDo t (.verdict code)).sub 9 then
      (x.gateDo t (.verdict code)).ev 6 (p.w * 256 + code) t (stamp64 p.ref) else x.gateDo t (.verdict code)) := by
    split
    · exact hy.trans (of_still (Channel.still_ev _ _ _ _ _))
    · exact hy
  unfold Channel.verdict
  dsimp only
  generalize (if (x.gateDo t (.verdict code)).sub 9 then
      (x.gateDo t (.verdict code)).ev 6 (p.w * 256 + code) t (stamp64 p.ref) else x.gateDo t (.verdict code)) = z at hz ⊢
  split
  · have hmeet : ∀ (w : Channel) (l : List Nat), (l.foldl (fun z i => if (z.trgCond i).2.1.getLsbD p.w then z.meet n i t else z)
        w).still = w.still := fun w l => still_foldl (fun y i => by split <;> rfl) l w
    have hfail : SameTaken x (((z.modRec fun r => { r with maskFail := r.maskFail + 1 }).condsOf 6).foldl
        (fun z i => if (z.trgCond i).2.1.getLsbD p.w then z.meet n i t else z)
        (z.modRec fun r => { r with maskFail := r.maskFail + 1 })) := by
      refine (hz.trans ?_).trans (of_still (hmeet _ _))
      exact ⟨rfl, rfl, fun _ => rfl⟩
    split
    · exact hfail.trans ⟨rfl, rfl, fun _ => rfl⟩
    · exact hfail
  · exact hz

theorem modF (x : Channel) {f : Folder → Folder} (h : SameTaken x { x with folder := f x.folder }) :
    SameTaken x (x.modF f) := h

theorem maskCloseAt (x : Channel) (n : Nat) (t : Int) : SameTaken x (x.maskCloseAt n t) := by
  unfold Channel.maskCloseAt
  dsimp only
  refine SameTaken.trans ?_ (foldl (fun y p => verdict y n p _ _) _ _)
  exact ⟨rfl, rfl, fun _ => rfl⟩

theorem maskStamp (x : Channel) (n cls : Nat) (t : Int) : SameTaken x (x.maskStamp n cls t) := by
  unfold Channel.maskStamp
  dsimp only
  refine SameTaken.trans ?_ (foldl (fun y p => verdict y n p _ _) _ _)
  exact ⟨rfl, rfl, fun _ => rfl⟩

theorem maskSet (x : Channel) (l : List MaskPend) : SameTaken x (x.modF fun f => { f with mask := l }) :=
  ⟨rfl, rfl, fun _ => rfl⟩

theorem maskRefer (x : Channel) (n : Nat) (t : Int) : SameTaken x (x.maskRefer n t) :=
  (((maskCloseAt x n t).trans (maskSet _ _)).trans (foldl (fun y p => verdict y n p _ _) _ _)).trans
    ((maskSet _ _).trans (foldl (fun y _ => maskStamp y n _ _) _ _))

/-! ## Gates, reducers, samples -/

theorem flush (x : Channel) (p : Int → Bool) : SameTaken x (x.flush p) := by
  unfold Channel.flush
  split
  · exact refl x
  · next hk => exact ⟨rfl, rfl, fun h => absurd (h.symm.trans (not_not.1 hk)) (by decide)⟩

/-- A gate that opens, where the gate is not the record's. -/
theorem gateOpen (x : Channel) (n i : Nat) (t : Int) (hk : x.gateKind ≠ 0) : SameTaken x (x.gateOpen n i t) := by
  have hy : SameTaken x (x.modF fun f => { f with gate := { Gate.reset with isOpen := true, idx := i, start := t } }) :=
    ⟨rfl, rfl, fun h => absurd h hk⟩
  unfold Channel.gateOpen
  dsimp only
  split
  · exact hy.trans (maskRefer _ n t)
  · exact hy

theorem gateShut (x : Channel) : SameTaken x (x.modG fun g => { g with isOpen := false }) := ⟨rfl, rfl, fun _ => rfl⟩

theorem gateEnd (x : Channel) (t : Int) (extra : BitVec 12) : SameTaken x (x.gateEnd t extra) := by
  have hy : SameTaken x (if x.engOn then x.modF fun f => { f with sums := f.sums ++ [x.folder.gate.bank t extra] } else x) := by
    split
    · exact ⟨rfl, rfl, fun _ => rfl⟩
    · exact refl x
  exact (hy.trans (of_still (Channel.still_ev _ 4 0 t _))).trans (gateShut _)

theorem boundary (x : Channel) (b : Engine → Option Int) : SameTaken x (x.modEng fun e => { e with boundary := b e }) :=
  ⟨rfl, rfl, fun _ => rfl⟩

/-- A gate that ends, and the next one that opens, where the gate is not the record's. -/
theorem gateNext (x : Channel) (n : Nat) (t : Int) (hk : x.gateKind ≠ 0) : SameTaken x (x.gateNext n t) := by
  have hy := ((flush x (· < t)).trans (gateEnd _ t 0)).trans
    (boundary _ fun e => if x.gateKind = 2 then none else e.boundary)
  exact hy.trans (gateOpen _ n _ t fun h => hk (hy.gateKind.symm.trans h))

theorem evIf (x : Channel) (b : Bool) (type : Byte) (head : Nat) (t : Int) (v : Dword) :
    SameTaken x (if b then x.ev type head t v else x) := by
  cases b
  · exact refl x
  · exact of_still (Channel.still_ev _ _ _ _ _)

theorem redSet (x : Channel) (l : Folder → List Reducer) : SameTaken x (x.modF fun f => { f with red := l f }) :=
  ⟨rfl, rfl, fun _ => rfl⟩

theorem phsSet (x : Channel) : SameTaken x (x.modF fun f => { f with phsI := f.phsI + 1 }) := ⟨rfl, rfl, fun _ => rfl⟩

theorem seenSet (x : Channel) (k : Folder → Nat) :
    SameTaken x (x.modF fun f => { f with phsSeen := true, phsK := k f }) := ⟨rfl, rfl, fun _ => rfl⟩

theorem handIf (x : Channel) (n : Nat) (p : Prop) [Decidable p] (w : Qword) :
    SameTaken x (if p then x.handOther n false w else x) := by
  split
  · exact of_still (x.still_handOther n _ _)
  · exact refl x

theorem reduceOut (x : Channel) (n i : Nat) (t : Int) : SameTaken x (x.reduceOut n i t) :=
  ((handIf x n _ _).trans (evIf _ _ _ _ t _)).trans (redSet _ fun _ => _)

theorem reduceTo (x : Channel) (n : Nat) (t : Int) (fuel : Nat) : SameTaken x (x.reduceTo n t fuel) := by
  induction fuel generalizing x with
  | zero => exact refl x
  | succ fuel ih =>
    unfold Channel.reduceTo
    split
    · exact (reduceOut x n _ _).trans (ih _)
    · exact refl x

theorem phaseOut (x : Channel) (t : Int) (k : Option Nat) : SameTaken x (x.phaseOut t k) :=
  (evIf x _ _ _ t _).trans (phsSet _)

theorem phaseTo (x : Channel) (t : Int) (fuel : Nat) : SameTaken x (x.phaseTo t fuel) := by
  induction fuel generalizing x with
  | zero => exact refl x
  | succ fuel ih =>
    unfold Channel.phaseTo
    split
    · exact (phaseOut x _ _).trans (ih _)
    · exact refl x

theorem phaseStamp (x : Channel) (t : Int) (k : Nat) : SameTaken x (x.phaseStamp t k) := by
  unfold Channel.phaseStamp
  dsimp only
  split
  · exact (seenSet x fun f => if f.phsSeen then f.phsK + k else 0).trans (phaseOut _ t _)
  · exact seenSet x fun f => if f.phsSeen then f.phsK + k else 0

theorem windowsTo (x : Channel) (n : Nat) (t : Int) (fuel : Nat) : SameTaken x (x.windowsTo n t fuel) := by
  induction fuel generalizing x with
  | zero => exact refl x
  | succ fuel ih =>
    have hstop : ∀ g, x.gateStop = some g → SameTaken x ((x.gateNext n g).windowsTo n t fuel) := fun g hg =>
      (gateNext x n g fun hk => by rw [Channel.gateStop_record hk] at hg; cases hg).trans (ih _)
    unfold Channel.windowsTo
    dsimp only
    split
    next g w hg hw =>
      split
      · split
        · exact hstop g hg
        · exact refl x
      · split
        · exact (maskCloseAt x n w).trans (ih _)
        · exact refl x
    next g hg hw =>
      split
      · exact hstop g hg
      · exact refl x
    next w hg hw =>
      split
      · exact (maskCloseAt x n w).trans (ih _)
      · exact refl x
    next => exact refl x

theorem catchUp (x : Channel) (n : Nat) (t : Int) : SameTaken x (x.catchUp n t) :=
  ((windowsTo x n t _).trans (reduceTo _ n t _)).trans (phaseTo _ t _)

end SameTaken

end Sys2Proof.Machine
end

section
/-! SUPPORT. What the folder makes of one item (R181, R182, R363): the frame, the tally of a RECORD gate and the pairing chains
after a stamp, a mark, a discontinuity record and a fence record. -/

namespace Sys2Proof.Machine

open Sys2Proof.Safety

/-- Frame and, in a RECORD gate, tally are the same; the chains need not be. -/
structure SameTally (x y : Channel) : Prop where
  frame : y.still.frame = x.still.frame
  tally : x.gateKind = 0 → y.still.tally = x.still.tally

theorem SameTaken.sameTally {x y : Channel} (h : SameTaken x y) : SameTally x y := ⟨h.frame, h.tally⟩

namespace SameTally
variable {x y z : Channel}

theorem cfg (h : SameTally x y) : y.cfg = x.cfg := congrArg FolderFrame.cfg h.frame
theorem dslot (h : SameTally x y) (j : Nat) : y.dslot j = x.dslot j := by unfold Channel.dslot; rw [h.cfg]
theorem gateKind (h : SameTally x y) : y.gateKind = x.gateKind := by unfold Channel.gateKind; rw [h.cfg]
theorem refl (x : Channel) : SameTally x x := ⟨rfl, fun _ => rfl⟩
theorem trans (h : SameTally x y) (g : SameTally y z) : SameTally x z :=
  ⟨g.frame.trans h.frame, fun hk => (g.tally (h.gateKind.trans hk)).trans (h.tally hk)⟩

theorem foldl {α : Type} {f : Channel → α → Channel} (hf : ∀ y a, SameTally y (f y a)) (l : List α) (x : Channel) :
    SameTally x (l.foldl f x) := by
  induction l generalizing x with
  | nil => exact .refl _
  | cons a l ih => exact (hf x a).trans (ih _)

end SameTally

theorem SameTaken.slots {x y : Channel} (h : SameTaken x y) : y.folder.slots = x.folder.slots := congrArg Prod.fst h.chains

/-! ## A pair of a delta slot -/

theorem Channel.gateDo_frame (x : Channel) (t : Int) (op : GateOp) : (x.gateDo t op).still.frame = x.still.frame := by
  unfold Channel.gateDo; split <;> rfl
theorem Channel.gateDo_chains (x : Channel) (t : Int) (op : GateOp) : (x.gateDo t op).still.chains = x.still.chains := by
  unfold Channel.gateDo; split <;> rfl
theorem Channel.gateDo_record (x : Channel) (t : Int) (op : GateOp) (hk : x.gateKind = 0) :
    x.gateDo t op = x.modG fun g => x.gateTake g t op := by
  unfold Channel.gateDo; rw [if_neg (by rw [hk]; decide)]

theorem sameTaken_delta (x : Channel) (n j : Nat) (t : Int) (d : Nat) (sat : Bool) : SameTaken x (x.delta n j t d sat) := by
  have hred : ∀ (y : Channel) (i : Nat), SameTaken y
      (if (y.redCfg i).getLsbD 31 && fld (y.redCfg i) 0 2 == j then
        y.modF fun f =>
          let q := f.red.getD i Reducer.reset
          { f with red := setAt f.red i
                     { q with any := true, mn := if q.any then min q.mn d else d, mx := if q.any then max q.mx d else d } }
        else y) := by
    intro y i
    split
    · exact SameTaken.redSet y _
    · exact .refl y
  unfold Channel.delta
  exact ((SameTaken.gateDo_delta x t j d sat).trans (SameTaken.foldl hred _ _)).trans (.of_still (Channel.still_qual _ n j t d))

/-- The open start of a delta slot after a stamp of a class (R181). -/
def pairSlot (w : Word) (cls : Nat) (t : Int) (u : Option Int) : Option Int :=
  if w.getLsbD 31 then if inClass (fld w 8 3) cls then some t else if inClass (fld w 0 3) cls then none else u else u

theorem Channel.slots_modF_set (x : Channel) (j : Nat) (u : Option Int) :
    (x.modF fun f => { f with slots := setAt f.slots j u }).folder.slots = x.folder.slots.set j u := rfl

theorem sameTally_slots (x : Channel) (l : Folder → List (Option Int)) : SameTally x (x.modF fun f => { f with slots := l f }) :=
  ⟨rfl, fun _ => rfl⟩

/-- A pair that the stop class ends. -/
def Channel.pairStop (x : Channel) (n j cls : Nat) (t : Int) : Channel :=
  if inClass (fld (x.dslot j) 0 3) cls then
    match x.folder.slots.getD j none with
    | some u =>
      (x.delta n j t (satNat 48 (t - u).toNat) (2 ^ 48 ≤ (t - u).toNat)).modF fun f => { f with slots := setAt f.slots j none }
    | none => x
  else x

theorem Channel.pair_eq (x : Channel) (n j cls : Nat) (t : Int) :
    x.pair n j cls t = if !(x.dslot j).getLsbD 31 then x
      else if inClass (fld (x.dslot j) 8 3) cls then
        (x.pairStop n j cls t).modF fun f => { f with slots := setAt f.slots j (some t) }
      else x.pairStop n j cls t := rfl

theorem sameTally_pairStop (x : Channel) (n j cls : Nat) (t : Int) : SameTally x (x.pairStop n j cls t) := by
  unfold Channel.pairStop
  split
  · split
    · exact (sameTaken_delta x n j t _ _).sameTally.trans (sameTally_slots _ fun f => setAt f.slots j none)
    · exact .refl x
  · exact .refl x

theorem sameTally_pair (x : Channel) (n j cls : Nat) (t : Int) : SameTally x (x.pair n j cls t) := by
  rw [Channel.pair_eq]
  split
  · exact .refl x
  · split
    · exact (sameTally_pairStop x n j cls t).trans (sameTally_slots _ fun f => setAt f.slots j (some t))
    · exact sameTally_pairStop x n j cls t

theorem Channel.pairStop_slots (x : Channel) (n j cls : Nat) (t : Int) :
    (x.pairStop n j cls t).folder.slots =
      if inClass (fld (x.dslot j) 0 3) cls then x.folder.slots.set j none else x.folder.slots := by
  unfold Channel.pairStop
  split
  · split
    next u hu => rw [Channel.slots_modF_set, (sameTaken_delta x n j t _ _).slots]
    next hu =>
      refine (List.ext_getElem? fun i => ?_).symm
      rw [List.getElem?_set]
      split
      next hi =>
        subst hi
        rw [List.getD_eq_getElem?_getD] at hu
        split
        next hl => rw [List.getElem?_eq_getElem hl] at hu ⊢; exact congrArg some hu.symm
        next hl => rw [List.getElem?_eq_none (Nat.le_of_not_lt hl)]
      next => rfl
  · rfl

theorem Channel.pair_slots (x : Channel) (n i cls : Nat) (t : Int) (hi : i < x.folder.slots.length) :
    (x.pair n i cls t).folder.slots.length = x.folder.slots.length ∧
    ∀ j, (x.pair n i cls t).folder.slots.getD j none =
      if j = i then pairSlot (x.dslot i) cls t (x.folder.slots.getD i none) else x.folder.slots.getD j none := by
  have hset : ∀ u j, (x.folder.slots.set i u).getD j none = if j = i then u else x.folder.slots.getD j none := by
    intro u j
    simp only [List.getD_eq_getElem?_getD, List.getElem?_set]
    split
    · next h => subst h; simp
    · next h => rw [if_neg (Ne.symm h)]
  rw [Channel.pair_eq]
  unfold pairSlot
  cases hon : (x.dslot i).getLsbD 31
  · simp only [Bool.not_false, Bool.false_eq_true, if_false, if_true, true_and]
    intro j
    split
    · next h => subst h; rfl
    · rfl
  · simp only [Bool.not_true, Bool.false_eq_true, if_false, if_true]
    split
    · rw [Channel.slots_modF_set, Channel.pairStop_slots]
      split
      · rw [List.set_set]; exact ⟨List.length_set, hset _⟩
      · exact ⟨List.length_set, hset _⟩
    · rw [Channel.pairStop_slots]
      split
      · exact ⟨List.length_set, hset _⟩
      · refine ⟨rfl, fun j => ?_⟩
        split
        · next h => subst h; rfl
        · rfl

/-- Every slot of a list of different slots sees the stamp once. -/
theorem pairs_slots (n cls : Nat) (t : Int) (l : List Nat) (hl : l.Nodup) (x : Channel)
    (hlen : ∀ i ∈ l, i < x.folder.slots.length) (j : Nat) :
    (l.foldl (fun y j => y.pair n j cls t) x).folder.slots.getD j none =
      if j ∈ l then pairSlot (x.dslot j) cls t (x.folder.slots.getD j none) else x.folder.slots.getD j none := by
  induction l generalizing x with
  | nil => rfl
  | cons i l ih =>
    obtain ⟨hil, hl⟩ := List.nodup_cons.1 hl
    obtain ⟨hlenx, hx⟩ := x.pair_slots n i cls t (hlen i (List.mem_cons_self ..))
    rw [List.foldl_cons, ih hl _ fun k hk => hlenx ▸ hlen k (List.mem_cons_of_mem _ hk), hx,
      (sameTally_pair x n i cls t).dslot]
    by_cases hji : j = i
    · subst hji
      rw [if_neg hil, if_pos rfl, if_pos (List.mem_cons_self ..)]
    · rw [if_neg hji]
      simp only [List.mem_cons, hji, false_or]

/-! ## A stamp -/

/-- The input of an entry restarts its chains at the next stamp (R182). -/
def Channel.needRestart (x : Channel) (e : Entry) : Bool :=
  if e.ptnr then x.folder.restartP else if e.lane then x.folder.restartL else x.folder.restartH

/-- Chains restarted where the entry's input asks for it. -/
def Channel.restarted (x : Channel) (e : Entry) : Channel :=
  if x.needRestart e then
    x.restartChains.modF fun f =>
      if e.ptnr then { f with restartP := false } else if e.lane then { f with restartL := false }
      else { f with restartH := false }
  else x

theorem sameTally_restarted (x : Channel) (e : Entry) : SameTally x (x.restarted e) := by
  unfold Channel.restarted Channel.modF
  split
  · split
    · exact ⟨rfl, fun _ => rfl⟩
    · split
      · exact ⟨rfl, fun _ => rfl⟩
      · exact ⟨rfl, fun _ => rfl⟩
  · exact .refl x

/-- The units after the pairs: mask checker, COUNT conditions, the event. -/
def Channel.stampTail (x : Channel) (n : Nat) (e : Entry) (t : Int) : Channel :=
  let x5 := x.maskStamp n e.cls t
  let x6 := if x5.maskKind = some 0 && inClass (fld x5.cfg.maskRef 0 3) e.cls then x5.maskRefer n t else x5
  let x7 := x6.countEdges n t e.edges.toNat (fun code => inClass code e.cls)
  let x8 := x7.modF fun f => { f with ahead := f.ahead ++ [(t, e.cls)] }
  if e.cls < 6 && x8.sub e.cls then x8.ev 3 (e.cls * 2 ^ 32 + e.attr.toNat) t (BitVec.ofNat 64 e.edges.toNat) else x8

theorem sameTaken_ahead (x : Channel) (l : Folder → List (Int × Nat)) : SameTaken x (x.modF fun f => { f with ahead := l f }) :=
  ⟨rfl, rfl, fun _ => rfl⟩

theorem sameTaken_stampTail (x : Channel) (n : Nat) (e : Entry) (t : Int) : SameTaken x (x.stampTail n e t) := by
  have hrefer : ∀ (y : Channel) (b : Bool), SameTaken y (if b then y.maskRefer n t else y) := by
    intro y b
    cases b
    · exact .refl y
    · exact SameTaken.maskRefer y n t
  unfold Channel.stampTail
  exact ((((SameTaken.maskStamp x n e.cls t).trans (hrefer _ _)).trans (.of_still (Channel.still_countEdges _ n t _ _))).trans
    (sameTaken_ahead _ fun f => f.ahead ++ [(t, e.cls)])).trans (SameTaken.evIf _ _ _ _ t _)

/-- What a stamp brings the gate. -/
def stampOp (e : Entry) : GateOp :=
  .stamp e.cls e.edges.toNat (pack 12 [bitAt 8 e.coast, bitAt 9 e.slew, bitAt 10 e.sup, bitAt 11 e.inj])

/-- The gate and the phase sampler take a stamp. -/
def Channel.stampGate (x : Channel) (e : Entry) (t : Int) : Channel :=
  let x2 := x.gateDo t (stampOp e)
  if x2.phsOn && inClass x2.phsClass e.cls then x2.phaseStamp t e.edges.toNat else x2

theorem Channel.stampUnits_eq (x : Channel) (n : Nat) (e : Entry) (t : Int) :
    x.stampUnits n e t =
      ((List.range 4).foldl (fun y j => y.pair n j e.cls t) ((x.restarted e).stampGate e t)).stampTail n e t := rfl

theorem sameTaken_phaseIf (x : Channel) (b : Bool) (t : Int) (k : Nat) : SameTaken x (if b then x.phaseStamp t k else x) := by
  cases b
  · exact .refl x
  · exact SameTaken.phaseStamp x t k

/-- A tally after a stamp, and after a step. -/
def stampTally (e : Entry) (q : List Nat × Nat × Int) : List Nat × Nat × Int :=
  (q.1.set e.cls (q.1.getD e.cls 0 + e.edges.toNat), q.2)
def stepTally (d : Int) (q : List Nat × Nat × Int) : List Nat × Nat × Int := (q.1, q.2.1, q.2.2 + d)

theorem Channel.tally_stamp (x : Channel) (t : Int) (e : Entry) (hk : x.gateKind = 0) :
    (x.gateDo t (stampOp e)).still.tally = stampTally e x.still.tally := by
  rw [x.gateDo_record _ _ hk]; rfl
theorem Channel.tally_step (x : Channel) (t : Int) (d : Int) (hk : x.gateKind = 0) :
    (x.gateDo t (.step d)).still.tally = stepTally d x.still.tally := by
  rw [x.gateDo_record _ _ hk]; rfl

/-- What a stamp leaves: frame; in a RECORD gate the class count grows by its edges; without a restart each slot is paired. -/
theorem Channel.stampUnits_spec (x : Channel) (n : Nat) (e : Entry) (t : Int) :
    (x.stampUnits n e t).still.frame = x.still.frame ∧
    (x.gateKind = 0 → (x.stampUnits n e t).still.tally = stampTally e x.still.tally) ∧
    (x.needRestart e = false → x.folder.slots.length = 4 → ∀ j, j < 4 →
      (x.stampUnits n e t).folder.slots.getD j none = pairSlot (x.dslot j) e.cls t (x.folder.slots.getD j none)) := by
  rw [Channel.stampUnits_eq]
  have hr := sameTally_restarted x e
  have hp : SameTaken ((x.restarted e).gateDo t (stampOp e)) ((x.restarted e).stampGate e t) := sameTaken_phaseIf _ _ t _
  have hpairs := SameTally.foldl (fun y j => sameTally_pair y n j e.cls t) (List.range 4) ((x.restarted e).stampGate e t)
  have htail := sameTaken_stampTail
    ((List.range 4).foldl (fun y j => y.pair n j e.cls t) ((x.restarted e).stampGate e t)) n e t
  have hafter := hp.sameTally.trans (hpairs.trans htail.sameTally)
  have hframe := (x.restarted e).gateDo_frame t (stampOp e)
  refine ⟨hafter.frame.trans (hframe.trans hr.frame), fun hk => ?_, fun hn hlen j hj => ?_⟩
  · have hk1 : (x.restarted e).gateKind = 0 := hr.gateKind.trans hk
    have hk2 : ((x.restarted e).gateDo t (stampOp e)).gateKind = 0 := by
      rw [Channel.gateDo_record _ _ _ hk1]; exact hk1
    rw [hafter.tally hk2, Channel.tally_stamp _ _ _ hk1, hr.tally hk]
  · have hx : x.restarted e = x := by unfold Channel.restarted; rw [hn]; rfl
    rw [hx] at hp ⊢
    have hslots : (x.stampGate e t).folder.slots = x.folder.slots :=
      hp.slots.trans (congrArg Prod.fst (x.gateDo_chains t (stampOp e)))
    have hcfg : (x.stampGate e t).cfg = x.cfg :=
      congrArg FolderFrame.cfg (hp.frame.trans (x.gateDo_frame t (stampOp e)))
    rw [hx] at htail
    rw [htail.slots, pairs_slots n e.cls t (List.range 4) List.nodup_range _ fun i hi => ?_, hslots,
      if_pos (List.mem_range.2 hj)]
    · unfold Channel.dslot
      rw [hcfg]
    · rw [hslots, hlen]; exact List.mem_range.1 hi

/-! ## An item -/

/-- Everything that ends before an item has closed, and stream time has passed. -/
def Channel.caughtUp (x : Channel) (n : Nat) (now : Int) (it : Item) : Channel :=
  ((x.catchUp n (x.folder.compTime it)).flush (· < now)).modF fun f =>
    { f with last := max f.last (x.folder.compTime it), ahead := f.ahead.filter fun p => now ≤ p.1 }

/-- What `caughtUp` leaves: all but the time of the last item. -/
theorem Channel.caughtUp_spec (x : Channel) (n : Nat) (now : Int) (it : Item) :
    (x.caughtUp n now it).still.frame = { x.still.frame with last := max x.folder.last (x.folder.compTime it) } ∧
    (x.caughtUp n now it).still.chains = x.still.chains ∧
    (x.gateKind = 0 → (x.caughtUp n now it).still.tally = x.still.tally) := by
  have h := (SameTaken.catchUp x n (x.folder.compTime it)).trans (SameTaken.flush _ (· < now))
  refine ⟨?_, h.chains, fun hk => h.tally hk⟩
  rw [← h.frame]
  have hlast : ((x.catchUp n (x.folder.compTime it)).flush (· < now)).folder.last = x.folder.last :=
    congrArg FolderFrame.last h.frame
  rw [← hlast]
  rfl

/-- An entry's placement, flags and raw words. -/
def Channel.entered (x : Channel) (n : Nat) (now : Int) (e : Entry) : Channel :=
  (((x.caughtUp n now (.entry e)).modRec fun q => q.place q.plOpen).flag (entryFlags e)).rawEntry n e

theorem Channel.still_place (x : Channel) : (x.modRec fun q => q.place q.plOpen).still = x.still := rfl

theorem Channel.still_entered (x : Channel) (n : Nat) (now : Int) (e : Entry) :
    (x.entered n now e).still = (x.caughtUp n now (.entry e)).still := by
  unfold Channel.entered
  rw [Channel.still_rawEntry, Channel.still_flag, Channel.still_place]

/-- An inserted record's placement, flags and raw words. -/
def Channel.inserted (x : Channel) (n : Nat) (now : Int) (r : Insert) : Channel :=
  (((x.caughtUp n now (.ins r)).modRec fun q => q.place q.plOpen).flag 0x100).rawInsert n r

theorem Channel.still_inserted (x : Channel) (n : Nat) (now : Int) (r : Insert) :
    (x.inserted n now r).still = (x.caughtUp n now (.ins r)).still := by
  unfold Channel.inserted
  rw [Channel.still_rawInsert, Channel.still_flag, Channel.still_place]

/-- The placement that a fence record brings. -/
def Insert.placement (r : Insert) : Placement := { site := r.newSite, step := r.newStep, epoch := r.newEpoch }

/-- A fence record's placement, flags and raw words. -/
def Channel.fenced (x : Channel) (n : Nat) (now : Int) (r : Insert) : Channel :=
  (((x.caughtUp n now (.ins r)).modRec fun q => { q.place r.placement with plOpen := r.placement }).flag 0x200).rawInsert n r

theorem Channel.still_fenced (x : Channel) (n : Nat) (now : Int) (r : Insert) :
    (x.fenced n now r).still = { (x.caughtUp n now (.ins r)).still with plOpen := r.placement } := by
  unfold Channel.fenced
  rw [Channel.still_rawInsert, Channel.still_flag]
  rfl

/-- A mark's pair of entries leaves the frame. -/
theorem Channel.markUnits_frame (x : Channel) (n : Nat) (e1 e2 : Entry) (t1 t2 : Int) (one : Bool) :
    (x.markUnits n e1 e2 t1 t2 one).still.frame = x.still.frame := by
  unfold Channel.markUnits
  dsimp only
  rw [Channel.still_ev, Channel.still_countEdges]
  refine Eq.trans ?_ (x.gateDo_frame t1 (.mark e1.input (e1.lost + e2.lost * 2 ^ 23)))
  unfold Channel.modF
  split
  · rfl
  · split <;> rfl

/-- An entry leaves the frame but for the time of the last item. -/
theorem Channel.intake_entry_frame (x : Channel) (n : Nat) (now : Int) (e : Entry) (one : Bool) :
    (x.intake n now (.entry e) one).still.frame =
      { x.still.frame with last := max x.folder.last (x.folder.compTime (.entry e)) } := by
  refine Eq.trans ?_ ((congrArg Still.frame (x.still_entered n now e)).trans (x.caughtUp_spec n now (.entry e)).1)
  change (if e.type = 1 then ((x.entered n now e).gateDo (x.folder.compTime (.entry e)) (.flags 0x20)).modF
        fun f => { f with mark1 := some e }
    else if e.type = 2 then
      match (x.entered n now e).folder.mark1 with
      | some e1 => ((x.entered n now e).markUnits n e1 e (e1.time - (x.entered n now e).folder.comp)
          (e.time - (x.entered n now e).folder.comp) one).modF fun f => { f with mark1 := none }
      | none => x.entered n now e
    else (x.entered n now e).stampUnits n e (x.folder.compTime (.entry e))).still.frame = _
  generalize x.entered n now e = y
  split
  · exact y.gateDo_frame _ _
  · split
    · split
      · exact y.markUnits_frame ..
      · rfl
    · exact (y.stampUnits_spec n e _).1

theorem Channel.intake_stamp (x : Channel) (n : Nat) (now : Int) (e : Entry) (one : Bool) (he : e.type = 0) :
    x.intake n now (.entry e) one = (x.entered n now e).stampUnits n e (x.folder.compTime (.entry e)) := by
  unfold Channel.intake
  dsimp only
  rw [if_neg (by rw [he]; decide), if_neg (by rw [he]; decide)]
  rfl

theorem Channel.intake_ins (x : Channel) (n : Nat) (now : Int) (r : Insert) (one : Bool) (hr : r.fence = false) :
    x.intake n now (.ins r) one =
      (((x.inserted n now r).modF fun f => { f with comp := f.comp + r.step }).gateDo (x.folder.compTime (.ins r))
        (.step r.step)).ev 8 (r.cause.toNat % 4) (x.folder.compTime (.ins r)) (stamp64 r.step) := by
  unfold Channel.intake
  dsimp only
  rw [hr]
  rfl

theorem Channel.intake_fence (x : Channel) (n : Nat) (now : Int) (r : Insert) (one : Bool) (hr : r.fence = true) :
    x.intake n now (.ins r) one =
      ((x.fenced n now r).restartChains.gateDo (x.folder.compTime (.ins r)) (.flags 0x80)).ev 9 r.newSite.toNat
        (x.folder.compTime (.ins r)) (r.newStep.setWidth 64) := by
  unfold Channel.intake
  dsimp only
  rw [hr]
  rfl

/-- A discontinuity record adds its STEP to the correction. -/
theorem Channel.intake_ins_frame (x : Channel) (n : Nat) (now : Int) (r : Insert) (one : Bool) (hr : r.fence = false) :
    (x.intake n now (.ins r) one).still.frame =
      { x.still.frame with last := max x.folder.last (x.folder.compTime (.ins r)), comp := x.folder.comp + r.step } := by
  have hf := (congrArg Still.frame (x.still_inserted n now r)).trans (x.caughtUp_spec n now (.ins r)).1
  have hc : (x.inserted n now r).folder.comp = x.folder.comp := congrArg FolderFrame.comp hf
  rw [x.intake_ins n now r one hr, Channel.still_ev, Channel.gateDo_frame, ← hc]
  exact congrArg (fun q : FolderFrame => { q with comp := (x.inserted n now r).folder.comp + r.step }) hf

theorem Channel.intake_ins_tally (x : Channel) (n : Nat) (now : Int) (r : Insert) (one : Bool) (hr : r.fence = false)
    (hk : x.gateKind = 0) : (x.intake n now (.ins r) one).still.tally = stepTally r.step x.still.tally := by
  have hf := (congrArg Still.frame (x.still_inserted n now r)).trans (x.caughtUp_spec n now (.ins r)).1
  have ht := (congrArg Still.tally (x.still_inserted n now r)).trans ((x.caughtUp_spec n now (.ins r)).2.2 hk)
  have hcfg : (x.inserted n now r).cfg = x.cfg := congrArg FolderFrame.cfg hf
  have hk1 : ((x.inserted n now r).modF fun f => { f with comp := f.comp + r.step }).gateKind = 0 := by
    rw [← hk]; exact congrArg (fun q : ChanCfg => fld q.fldCfg 28 2) hcfg
  rw [x.intake_ins n now r one hr, Channel.still_ev, Channel.tally_step _ _ _ hk1]
  exact congrArg (stepTally r.step) ht

/-- A fence record leaves the frame but for the last item's time and the record's placement; it restarts every chain. -/
theorem Channel.intake_fence_spec (x : Channel) (n : Nat) (now : Int) (r : Insert) (one : Bool) (hr : r.fence = true) :
    (x.intake n now (.ins r) one).still.frame =
      { x.still.frame with last := max x.folder.last (x.folder.compTime (.ins r)), plOpen := r.placement } ∧
    (x.intake n now (.ins r) one).folder.slots = List.replicate 4 none := by
  have hf : (x.fenced n now r).still.frame =
      { x.still.frame with last := max x.folder.last (x.folder.compTime (.ins r)), plOpen := r.placement } := by
    rw [Channel.still_fenced]
    exact congrArg (fun q : FolderFrame => { q with plOpen := r.placement }) (x.caughtUp_spec n now (.ins r)).1
  rw [x.intake_fence n now r one hr]
  constructor
  · rw [Channel.still_ev, Channel.gateDo_frame, ← hf]
    rfl
  · refine (SameTaken.of_still (Channel.still_ev _ _ _ _ _)).slots.trans ?_
    exact congrArg Prod.fst ((x.fenced n now r).restartChains.gateDo_chains _ _)

theorem mem_insertEv (v u : Ev) (l : List Ev) : v ∈ insertEv u l ↔ v = u ∨ v ∈ l := by
  induction l with
  | nil => simp [insertEv]
  | cons a l ih =>
    unfold insertEv
    split
    · simp
    · simp only [List.mem_cons, ih]
      tauto

/-- The event is among those that have fallen due. -/
theorem Channel.mem_due_ev (x : Channel) (type : Byte) (head : Nat) (t : Int) (val : Dword) (h : x.engOn = true) :
    { type := type, head := BitVec.ofNat 56 head, time := t, val := val } ∈ (x.ev type head t val).folder.due := by
  unfold Channel.ev
  rw [if_pos h]
  exact (mem_insertEv _ _ _).2 (.inl rfl)

theorem Channel.intake_fence_event (x : Channel) (n : Nat) (now : Int) (r : Insert) (one : Bool) (hr : r.fence = true)
    (hon : x.engOn = true) : ∃ v ∈ (x.intake n now (.ins r) one).folder.due,
      v.type = 9 ∧ v.time = x.folder.compTime (.ins r) ∧ v.val = r.newStep.setWidth 64 := by
  have hq : ((x.fenced n now r).restartChains.gateDo (x.folder.compTime (.ins r)) (.flags 0x80)).still.frame.engCtl =
      x.engCtl := by
    rw [Channel.gateDo_frame]
    exact (congrArg (fun q => q.engCtl) (x.still_fenced n now r)).trans
      (congrArg FolderFrame.engCtl (x.caughtUp_spec n now (.ins r)).1)
  rw [x.intake_fence n now r one hr]
  exact ⟨_, Channel.mem_due_ev _ _ _ _ _ ((congrArg (fun w : Word => w.getLsbD 0) hq).trans hon), rfl, rfl, rfl⟩

theorem State.folderIntake_eq (s : State) (c : Chan) (it : Item) (n : Nat) (wr : Instant) (rest : List (Item × Nat × Instant))
    (hon : s.chOn c = true) (hheld : (s.chan c).folder.held = false) (hfro : (s.chan c).folder.frozen = none)
    (hopen : (s.chan c).folder.recOpen = true) (hre : (s.chan c).merge.reorder = (it, n, wr) :: rest) :
    s.folderIntake c = (s.at_ (s.dcAt n)).setChan c
      (if (s.chan c).folder.belongs (s.chan c) it then
        { s.chan c with merge := { (s.chan c).merge with reorder := rest } }.intake n (s.streamTime c n) it (s.onePol c it)
      else { s.chan c with merge := { (s.chan c).merge with reorder := rest, taken := (s.chan c).merge.taken ++ [it] } }) := by
  unfold State.folderIntake
  dsimp only
  rw [hre]
  dsimp only
  rw [if_neg (by rw [hheld, hfro, hon, hopen]; decide)]
  split <;> rfl

end Sys2Proof.Machine

namespace Sys2Proof.Proofs

open Sys2Proof.Machine Sys2Proof.Safety

/-- Settles O16: an item that does not belong waits; one that does leaves the frame, and each kind of item its own mark on the
tally, the chains, the correction or the placement. -/
theorem folderIntakes : Obligations.FolderIntakes := by
  intro s c it n wr rest x time hon hheld hfro hopen hre
  have heq := s.folderIntake_eq c it n wr rest hon hheld hfro hopen hre
  let y : Channel := { x with merge := { x.merge with reorder := rest } }
  constructor
  · intro hb
    refine ⟨_, rfl, ?_⟩
    rw [heq, if_neg (by rw [hb]; decide)]
    exact ⟨rfl, State.onlyChan_setChan_at .., State.chan_setChan_self ..⟩
  · intro hb
    refine ⟨_, rfl, ?_⟩
    rw [heq, if_pos hb]
    refine ⟨rfl, State.onlyChan_setChan_at .., ?_⟩
    rw [State.chan_setChan_self]
    change (y.intake n (s.streamTime c n) it (s.onePol c it)).merge = _ ∧ _
    generalize s.streamTime c n = now
    generalize s.onePol c it = one
    have hframe : ∃ comp pl, (y.intake n now it one).still.frame =
        { y.still.frame with last := max x.folder.last time, comp := comp, plOpen := pl } := by
      cases it with
      | entry e => exact ⟨_, _, y.intake_entry_frame n now e one⟩
      | ins r =>
        cases hr : r.fence
        · exact ⟨_, _, y.intake_ins_frame n now r one hr⟩
        · exact ⟨_, _, (y.intake_fence_spec n now r one hr).1⟩
    obtain ⟨comp, pl, hframe⟩ := hframe
    refine ⟨congrArg FolderFrame.merge hframe, congrArg FolderFrame.cfg hframe, congrArg FolderFrame.g hframe,
      congrArg FolderFrame.o hframe, congrArg FolderFrame.last hframe, ?_, ?_, ?_, ?_⟩
    · rintro hk e rfl he
      have hst := y.still_entered n now e
      obtain ⟨hcf, -, hct⟩ := y.caughtUp_spec n now (.entry e)
      have hcfg : (y.entered n now e).cfg = y.cfg := congrArg FolderFrame.cfg ((congrArg Still.frame hst).trans hcf)
      have htally := (congrArg Still.tally hst).trans (hct hk)
      have hspec := ((y.entered n now e).stampUnits_spec n e time).2.1
        (by rw [← hk]; exact congrArg (fun q : ChanCfg => fld q.fldCfg 28 2) hcfg)
      rw [htally] at hspec
      obtain ⟨h1, h23⟩ := Prod.mk.inj hspec
      obtain ⟨h2, h3⟩ := Prod.mk.inj h23
      have hcomp := congrArg FolderFrame.comp (y.intake_entry_frame n now e one)
      rw [y.intake_stamp n now e one he] at hcomp ⊢
      exact ⟨h1, h2, h3, hcomp⟩
    · rintro e j rfl he hj hlen hd hneed
      have hst := y.still_entered n now e
      obtain ⟨hcf, hcc, -⟩ := y.caughtUp_spec n now (.entry e)
      have hcfg : (y.entered n now e).cfg = y.cfg := congrArg FolderFrame.cfg ((congrArg Still.frame hst).trans hcf)
      have hchains := (congrArg Still.chains hst).trans hcc
      obtain ⟨hslots, hrest⟩ := Prod.mk.inj hchains
      obtain ⟨hH, hrest⟩ := Prod.mk.inj hrest
      obtain ⟨hL, hP⟩ := Prod.mk.inj hrest
      have hslots : (y.entered n now e).folder.slots = x.folder.slots := hslots
      have hneed : (y.entered n now e).needRestart e = false := by
        refine Eq.trans ?_ hneed
        unfold Channel.needRestart
        rw [show (y.entered n now e).folder.restartH = x.folder.restartH from hH,
          show (y.entered n now e).folder.restartL = x.folder.restartL from hL,
          show (y.entered n now e).folder.restartP = x.folder.restartP from hP]
      have hd' : (y.entered n now e).dslot j = x.dslot j := congrArg (fun q : ChanCfg => q.dslot.getD j 0) hcfg
      rw [y.intake_stamp n now e one he,
        ((y.entered n now e).stampUnits_spec n e _).2.2 hneed (by rw [hslots, hlen]) j hj, hslots, hd']
      unfold pairSlot
      rw [if_pos hd]
    · rintro r rfl hr
      refine ⟨congrArg FolderFrame.comp (y.intake_ins_frame n now r one hr), fun hk => ?_⟩
      exact congrArg (fun q => q.2.2) (y.intake_ins_tally n now r one hr hk)
    · rintro r rfl hr
      obtain ⟨hf, hslots⟩ := y.intake_fence_spec n now r one hr
      exact ⟨hslots, congrArg FolderFrame.comp hf, congrArg FolderFrame.plOpen hf,
        fun heng => y.intake_fence_event n now r one hr heng⟩

end Sys2Proof.Proofs
end

section
/-! SUPPORT. The event queue (R194, R197, R198): what posting one event leaves, and the end of a hold. -/

namespace Sys2Proof.Machine

open Sys2Proof.Safety

theorem Channel.freeBank_eq {x : Channel} {b : Nat} (hb : b < 4) (hfree : (x.banks.getD b Bank.reset).held = false)
    (hlow : ∀ a, a < b → (x.banks.getD a Bank.reset).held = true) : x.freeBank = some b := by
  refine List.find?_range_eq_some.2 ⟨by rw [hfree]; rfl, List.mem_range.2 hb, fun a ha => ?_⟩
  rw [hlow a ha]; rfl

theorem Channel.freeBank_none_iff {x : Channel} : x.freeBank.isNone = true ↔
    ∀ a, a < 4 → (x.banks.getD a Bank.reset).held = true := by
  unfold Channel.freeBank
  rw [Option.isNone_iff_eq_none, List.find?_eq_none]
  simp only [List.mem_range, Bool.not_eq_true', Bool.not_eq_false]

/-- The queue has no place for an event: it is full, or no bank is free for a SUMMARY. -/
def Channel.noPlace (x : Channel) (v : Ev) : Bool := x.eng.queue.length ≥ 64 || (v.type == 4 && x.freeBank.isNone)

theorem Channel.noPlace_iff {x : Channel} {v : Ev} : x.noPlace v = true ↔
    64 ≤ x.eng.queue.length ∨ v.type = 4 ∧ ∀ a, a < 4 → (x.banks.getD a Bank.reset).held = true := by
  unfold Channel.noPlace
  rw [Bool.or_eq_true, Bool.and_eq_true, decide_eq_true_iff, beq_iff_eq, Channel.freeBank_none_iff]

/-- The dc of the next post. -/
def Folder.postDc (f : Folder) (d : Nat) : Nat := match f.lastPost with | some p => max d (p + 20) | none => d

/-- The state once the units have closed, if the closing time is reached. -/
def State.unitsClosed (s : State) (c : Chan) : State :=
  match s.closeDue c with
  | some n => if (s.chan c).folder.done then s else
      (s.at_ (s.dcAt n)).setChan c ((s.chan c).finish n ((s.chan c).folder.closing.getD 0))
  | none => s

/-- The dc in which a due event may be posted. -/
def State.postDue (s : State) (c : Chan) (v : Ev) : Option Nat :=
  if v.type = 1 || (s.chan c).folder.done then some (s.dc s.now) else s.streamDue c (v.time + 1)

/-- The first due event is posted, or the boundary comes. -/
def State.postFirst (s : State) (c : Chan) : State :=
  match (s.chan c).folder.due with
  | [] => if (s.chan c).folder.done && !(s.chan c).engOn then s.recordBoundary c (s.dc s.now) false else s
  | v :: rest =>
    match s.postDue c v with
    | none => s
    | some d => s.post c ((s.chan c).folder.postDc d) v rest

theorem State.eventPost_stages (s : State) (c : Chan) :
    s.eventPost c = if !(s.chan c).folder.recOpen || (s.chan c).folder.held || !s.chOn c then s
      else (s.unitsClosed c).postFirst c := rfl

theorem State.unitsClosed_self {s : State} {c : Chan} (h : s.closeDue c = none ∨ (s.chan c).folder.done = true) :
    s.unitsClosed c = s := by
  unfold State.unitsClosed
  cases h with
  | inl h => rw [h]
  | inr h =>
    split
    · rw [if_pos h]
    · rfl

theorem State.eventPost_eq (s : State) (c : Chan) (v : Ev) (rest : List Ev) (d : Nat) (hon : s.chOn c = true)
    (hopen : (s.chan c).folder.recOpen = true) (hheld : (s.chan c).folder.held = false)
    (hclose : s.closeDue c = none ∨ (s.chan c).folder.done = true) (hdue : (s.chan c).folder.due = v :: rest)
    (hd : if v.type = 1 ∨ (s.chan c).folder.done = true then d = s.dc s.now else s.streamDue c (v.time + 1) = some d) :
    s.eventPost c = s.post c ((s.chan c).folder.postDc d) v rest := by
  have hwhen : s.postDue c v = some d := by
    unfold State.postDue
    simp only [Bool.or_eq_true, decide_eq_true_eq]
    split at hd
    · next h => rw [if_pos h, hd]
    · next h => rw [if_neg h, hd]
  rw [State.eventPost_stages, if_neg (by rw [hopen, hheld, hon]; decide), State.unitsClosed_self hclose]
  unfold State.postFirst
  rw [hdue]
  dsimp only
  rw [hwhen]

section Post
variable (s : State) (c : Chan) (n : Nat) (v : Ev) (rest : List Ev)

theorem State.post_deaf (hdeaf : (s.chan c).eng.deaf = true) (hv : v.type ≠ 2) :
    s.post c n v rest = (s.at_ (s.dcAt n)).setChan c ((s.chan c).modF fun f =>
      { f with due := rest, lastPost := some n, sums := if v.type = 4 then f.sums.drop 1 else f.sums }) := by
  unfold State.post
  dsimp only
  exact (if_pos hdeaf).trans (if_neg hv)

/-- The channel after a post that the full queue refuses. -/
def Channel.postHeld (x : Channel) (stop : Int) : Channel :=
  { x with
    folder := { x.folder with held := true, frozen := some stop }
    merge := { x.merge with held := true }
    eng := { x.eng with holds := satAdd x.eng.holds 1 } }

theorem State.post_noPlace (hdeaf : (s.chan c).eng.deaf = false) (hfull : (s.chan c).noPlace v = true) :
    s.post c n v rest = ((s.at_ (s.dcAt n)).setChan c
      ((s.chan c).postHeld ((s.at_ (s.dcAt n)).streamTime c n))).raise (chSrc c) 0x04 := by
  unfold State.post
  dsimp only
  exact (if_neg (by rw [State.chan_at, hdeaf]; decide)).trans (if_pos hfull)

/-- The channel after a post, without the event in the queue. -/
def Channel.postTaken (x : Channel) (n : Nat) (v : Ev) (rest : List Ev) : Channel :=
  x.modF fun f =>
    { f with due := rest, lastPost := some n, closePosted := if v.type = 2 then some n else f.closePosted }

theorem State.post_place (hdeaf : (s.chan c).eng.deaf = false) (hfull : (s.chan c).noPlace v = false) (hv : v.type ≠ 4) :
    s.post c n v rest = (s.at_ (s.dcAt n)).setChan c (((s.chan c).postTaken n v rest).enqueue n v) := by
  unfold State.post
  dsimp only
  refine ((if_neg (by rw [State.chan_at, hdeaf]; decide)).trans (if_neg ?_)).trans (if_neg hv)
  exact fun h => Bool.false_ne_true (hfull.symm.trans h)

theorem State.post_summary (b : Nat) (hdeaf : (s.chan c).eng.deaf = false) (hfull : (s.chan c).noPlace v = false)
    (hv : v.type = 4) (hb : (s.chan c).freeBank = some b) :
    s.post c n v rest = (s.at_ (s.dcAt n)).setChan c
      (({ ((s.chan c).postTaken n v rest).modF fun f => { f with sums := f.sums.drop 1 } with
          banks := (s.chan c).banks.set b { words := (s.chan c).folder.sums.headD [], held := true } } : Channel).enqueue n
        { v with head := BitVec.ofNat 56 b }) := by
  unfold State.post
  dsimp only
  refine ((if_neg (by rw [State.chan_at, hdeaf]; decide)).trans (if_neg ?_)).trans ((if_pos hv).trans ?_)
  · exact fun h => Bool.false_ne_true (hfull.symm.trans h)
  · rw [State.chan_at, show ((s.chan c).freeBank.getD 0) = b from by rw [hb]; rfl]
    rfl

end Post

theorem Merge.rebase_items (m : Merge) (n : Nat) : (m.rebase n).reorder.map (·.1) = m.reorder.map (·.1) := by
  unfold Merge.rebase
  exact List.ext_getElem (by simp) fun i _ _ => by simp

theorem State.folderResume_eq (s : State) (c : Chan) (hheld : (s.chan c).folder.held = true)
    (hroom : (s.chan c).eng.queue.length < 64)
    (hbank : ∀ w, (s.chan c).folder.due.head? = some w → w.type = 4 →
      ∃ a, a < 4 ∧ ((s.chan c).banks.getD a Bank.reset).held = false) :
    s.folderResume c = s.setChan c { s.chan c with
      folder := { (s.chan c).folder with
        held := false, frozen := if s.writerRoom (pierOf c) then none else (s.chan c).folder.frozen }
      merge := (s.chan c).merge.rebase (s.dc s.now) } := by
  have hblocked : (decide ((s.chan c).eng.queue.length ≥ 64) || (match (s.chan c).folder.due with
      | v :: _ => v.type == 4 && (s.chan c).freeBank.isNone
      | [] => false)) = false := by
    rw [Bool.or_eq_false_iff]
    refine ⟨decide_eq_false (Nat.not_le.2 hroom), ?_⟩
    split
    next v rest hdue =>
      rw [Bool.and_eq_false_iff]
      by_cases hv : v.type = 4
      · right
        obtain ⟨a, ha, hfree⟩ := hbank v (by rw [hdue]; rfl) hv
        refine Bool.eq_false_iff.2 fun h => ?_
        rw [Channel.freeBank_none_iff.1 h a ha] at hfree
        exact Bool.false_ne_true hfree.symm
      · exact .inl (beq_eq_false_iff_ne.2 hv)
    next => rfl
  unfold State.folderResume
  dsimp only
  refine if_pos ?_
  rw [hheld]
  exact congrArg (fun b => true && !(b && !(s.chan c).eng.deaf)) hblocked

end Sys2Proof.Machine

namespace Sys2Proof.Proofs

open Sys2Proof.Machine Sys2Proof.Safety

/-- Settles O18, by what `post` does where the engine is deaf, where the queue has no place, and where it has one. -/
theorem eventQueue : Obligations.EventQueue := by
  intro s c v rest d x n hon hopen
  refine ⟨fun hheld hclose hdue hd => ?_, fun hheld hroom hbank => ?_⟩
  · have heq : s.eventPost c = s.post c n v rest := s.eventPost_eq c v rest d hon hopen hheld hclose hdue hd
    have hplace : ∀ {w : Ev}, x.eng.queue.length < 64 → (w.type = 4 → ∃ a, a < 4 ∧ (x.banks.getD a Bank.reset).held = false) →
        x.noPlace w = false := by
      intro w hroom hw
      refine Bool.eq_false_iff.2 fun h => ?_
      rcases Channel.noPlace_iff.1 h with h | ⟨hw4, hall⟩
      · omega
      · obtain ⟨a, ha, hfree⟩ := hw hw4
        exact Bool.false_ne_true (hfree.symm.trans (hall a ha))
    refine ⟨fun hdeaf hroom hv => ?_, fun b hdeaf hroom hv hlen hb hfree hlow => ?_, fun hdeaf hfull => ?_,
      fun hdeaf hv => ?_⟩ <;> refine ⟨_, rfl, ?_⟩ <;> rw [heq]
    · rw [s.post_place c n v rest hdeaf (hplace hroom fun h => absurd h hv) hv]
      refine ⟨rfl, State.onlyChan_setChan_at .., ?_⟩
      rw [State.chan_setChan_self]
      refine ⟨?_, rfl, rfl⟩
      unfold Channel.enqueue Channel.postTaken Channel.modEng
      dsimp only
      rw [List.length_append]
      cases hq : x.eng.queue <;> simp [x, hq, Channel.modF]
    · rw [s.post_summary c n v rest b hdeaf (hplace hroom fun _ => ⟨b, hb, hfree⟩) hv (Channel.freeBank_eq hb hfree hlow)]
      refine ⟨rfl, State.onlyChan_setChan_at .., ?_⟩
      rw [State.chan_setChan_self]
      exact ⟨rfl, rfl, rfl, rfl⟩
    · rw [s.post_noPlace c n v rest hdeaf (Channel.noPlace_iff.2 hfull)]
      refine ⟨State.raise_now .., State.onlyChanT_raise (State.onlyChanT_setChan_at ..) _ _, ?_⟩
      rw [State.chan_raise, State.chan_setChan_self]
      exact ⟨rfl, rfl, rfl, rfl, toNat_satAdd _ _, fun hmode => State.reported_raise _ _ _ hmode (by decide)⟩
    · rw [s.post_deaf c n v rest hdeaf hv]
      refine ⟨State.onlyChan_setChan_at .., ?_⟩
      rw [State.chan_setChan_self]
      exact ⟨rfl, rfl, rfl⟩
  · refine ⟨_, rfl, ?_⟩
    rw [s.folderResume_eq c hheld hroom hbank]
    refine ⟨rfl, State.onlyChan_setChan .., ?_⟩
    rw [State.chan_setChan_self]
    exact ⟨rfl, rfl, Merge.rebase_items _ _⟩

end Sys2Proof.Proofs
end

section
/-! SUPPORT. The ends of gates, reduction intervals, mask windows and samples (R183, R186 to R188): what a verdict touches, and
what closes by a time. -/

namespace Sys2Proof.Machine

open Sys2Proof.Safety

/-! ## What a verdict touches -/

/-- A channel without what verdicts change: the gate's verdict counts, what waits for the gate, the due events, the windows, the
conditions met, the STOP asked for and the failures of the record. -/
def Channel.sansVerdict (x : Channel) : Channel :=
  { x with
    folder := { x.folder with
      gate := { x.folder.gate with pass := 0, fail := 0, abortRef := 0, abortOvf := 0 }
      ops := [], due := [], stopAsk := none, mask := [] }
    trg := { x.trg with pend := [] }
    rcd := { x.rcd with maskFail := 0 } }

/-- The gate counts a verdict, and its event falls due. -/
def Channel.verdictSeen (x : Channel) (p : MaskPend) (code : Nat) (t : Int) : Channel :=
  let y := x.gateDo t (.verdict code)
  if y.sub 9 then y.ev 6 (p.w * 256 + code) t (stamp64 p.ref) else y

/-- The record counts a failure, and the conditions on it are met. -/
def Channel.failMet (x : Channel) (n : Nat) (p : MaskPend) (t : Int) : Channel :=
  let z1 := x.modRec fun r => { r with maskFail := r.maskFail + 1 }
  (z1.condsOf 6).foldl (fun z i => if (z.trgCond i).2.1.getLsbD p.w then z.meet n i t else z) z1

/-- A failure may ask for a STOP. -/
def Channel.askStop (x : Channel) (t : Int) : Channel :=
  if x.cfg.trgCfg.getLsbD 0 then
    x.modF fun f => { f with stopAsk := some (match f.stopAsk with | some u => min u t | none => t) }
  else x

theorem Channel.verdict_eq (x : Channel) (n : Nat) (p : MaskPend) (code : Nat) (t : Int) :
    x.verdict n p code t = if code = 1 then ((x.verdictSeen p code t).failMet n p t).askStop t
      else x.verdictSeen p code t := rfl

/-- Only verdicts lie between two channels, and no due event is lost. -/
structure OnlyVerdicts (x y : Channel) : Prop where
  same : y.sansVerdict = x.sansVerdict
  due : ∀ v ∈ x.folder.due, v ∈ y.folder.due

namespace OnlyVerdicts
variable {x y z : Channel}

theorem refl (x : Channel) : OnlyVerdicts x x := ⟨rfl, fun _ h => h⟩
theorem trans (h : OnlyVerdicts x y) (g : OnlyVerdicts y z) : OnlyVerdicts x z :=
  ⟨g.same.trans h.same, fun v hv => g.due v (h.due v hv)⟩

theorem foldl {α : Type} {f : Channel → α → Channel} (hf : ∀ y a, OnlyVerdicts y (f y a)) (l : List α) (x : Channel) :
    OnlyVerdicts x (l.foldl f x) := by
  induction l generalizing x with
  | nil => exact .refl _
  | cons a l ih => exact (hf x a).trans (ih _)

theorem cfg (h : OnlyVerdicts x y) : y.cfg = x.cfg :=
  (congrArg Channel.cfg h.same : y.sansVerdict.cfg = x.sansVerdict.cfg)
theorem gateStop (h : OnlyVerdicts x y) : y.gateStop = x.gateStop :=
  (congrArg Channel.gateStop h.same : y.sansVerdict.gateStop = x.sansVerdict.gateStop)
theorem maskWin (h : OnlyVerdicts x y) (w : Nat) : y.maskWin w = x.maskWin w := by unfold Channel.maskWin; rw [h.cfg]

theorem ev (x : Channel) (type : Byte) (head : Nat) (t : Int) (v : Dword) : OnlyVerdicts x (x.ev type head t v) := by
  unfold Channel.ev
  split
  · exact ⟨rfl, fun u hu => (mem_insertEv _ _ _).2 (.inr hu)⟩
  · exact .refl x

theorem meet (x : Channel) (n i : Nat) (t : Int) : OnlyVerdicts x (x.meet n i t) := ⟨rfl, fun _ h => h⟩
theorem maskFail (x : Channel) : OnlyVerdicts x (x.modRec fun r => { r with maskFail := r.maskFail + 1 }) := ⟨rfl, fun _ h => h⟩
theorem stopAsk (x : Channel) (a : Folder → Option Int) : OnlyVerdicts x (x.modF fun f => { f with stopAsk := a f }) :=
  ⟨rfl, fun _ h => h⟩
theorem mask (x : Channel) (l : List MaskPend) : OnlyVerdicts x (x.modF fun f => { f with mask := l }) := ⟨rfl, fun _ h => h⟩

theorem gateDo (x : Channel) (t : Int) (code : Nat) : OnlyVerdicts x (x.gateDo t (.verdict code)) := by
  unfold Channel.gateDo Channel.modF Channel.modG
  split
  · exact ⟨rfl, fun _ h => h⟩
  · refine ⟨?_, fun _ h => h⟩
    unfold Channel.gateTake
    dsimp only
    split <;> rfl

/-- The event of a verdict. -/
theorem evIf (x : Channel) (b : Bool) (type : Byte) (head : Nat) (t : Int) (v : Dword) :
    OnlyVerdicts x (if b then x.ev type head t v else x) := by
  cases b
  · exact .refl x
  · exact ev x type head t v

theorem failMet (x : Channel) (n : Nat) (p : MaskPend) (t : Int) : OnlyVerdicts x (x.failMet n p t) := by
  refine (maskFail x).trans (foldl (fun y i => ?_) _ _)
  split
  · exact meet y n i t
  · exact .refl y

theorem askStop (x : Channel) (t : Int) : OnlyVerdicts x (x.askStop t) := by
  unfold Channel.askStop
  split
  · exact stopAsk x _
  · exact .refl x

theorem verdict (x : Channel) (n : Nat) (p : MaskPend) (code : Nat) (t : Int) : OnlyVerdicts x (x.verdict n p code t) := by
  have hseen : OnlyVerdicts x (x.verdictSeen p code t) := (gateDo x t code).trans (evIf _ _ _ _ t _)
  rw [Channel.verdict_eq]
  split
  · exact (hseen.trans (failMet _ n p t)).trans (askStop _ t)
  · exact hseen

theorem maskCloseAt (x : Channel) (n : Nat) (t : Int) : OnlyVerdicts x (x.maskCloseAt n t) :=
  (mask x _).trans (foldl (fun y p => verdict y n p _ _) _ _)

theorem maskStamp (x : Channel) (n cls : Nat) (t : Int) : OnlyVerdicts x (x.maskStamp n cls t) :=
  (mask x _).trans (foldl (fun y p => verdict y n p _ _) _ _)

theorem maskRefer (x : Channel) (n : Nat) (t : Int) : OnlyVerdicts x (x.maskRefer n t) :=
  (((maskCloseAt x n t).trans (mask _ _)).trans (foldl (fun y p => verdict y n p _ _) _ _)).trans
    ((mask _ _).trans (foldl (fun y _ => maskStamp y n _ _) _ _))

end OnlyVerdicts

/-! ## Windows that end -/

/-- The windows and the record of a channel. -/
def Channel.maskRec (x : Channel) : List MaskPend × Rec := (x.folder.mask, x.rcd)

theorem Channel.ev_maskRec (x : Channel) (type : Byte) (head : Nat) (t : Int) (v : Dword) :
    (x.ev type head t v).maskRec = x.maskRec := by
  unfold Channel.ev; split <;> rfl

theorem Channel.verdictSeen_maskRec (x : Channel) (p : MaskPend) (code : Nat) (t : Int) :
    (x.verdictSeen p code t).maskRec = x.maskRec := by
  have hgate : (x.gateDo t (.verdict code)).maskRec = x.maskRec := by unfold Channel.gateDo; split <;> rfl
  unfold Channel.verdictSeen
  dsimp only
  split
  · exact (Channel.ev_maskRec ..).trans hgate
  · exact hgate

theorem Channel.failMet_maskRec (x : Channel) (n : Nat) (p : MaskPend) (t : Int) :
    (x.failMet n p t).maskRec = (x.folder.mask, { x.rcd with maskFail := x.rcd.maskFail + 1 }) := by
  have hmeet : ∀ (l : List Nat) (y : Channel),
      (l.foldl (fun z i => if (z.trgCond i).2.1.getLsbD p.w then z.meet n i t else z) y).maskRec = y.maskRec := by
    intro l
    induction l with
    | nil => exact fun _ => rfl
    | cons i l ih => exact fun y => (ih _).trans (by dsimp only; split <;> rfl)
  exact hmeet _ _

theorem Channel.askStop_maskRec (x : Channel) (t : Int) : (x.askStop t).maskRec = x.maskRec := by
  unfold Channel.askStop; split <;> rfl

theorem Channel.verdict_maskRec (x : Channel) (n : Nat) (p : MaskPend) (code : Nat) (t : Int) :
    (x.verdict n p code t).maskRec =
      (x.folder.mask, if code = 1 then { x.rcd with maskFail := x.rcd.maskFail + 1 } else x.rcd) := by
  have hseen := x.verdictSeen_maskRec p code t
  rw [Channel.verdict_eq]
  split
  · rw [Channel.askStop_maskRec, Channel.failMet_maskRec]
    exact congrArg (fun q : List MaskPend × Rec => (q.1, { q.2 with maskFail := q.2.maskFail + 1 })) hseen
  · exact hseen

theorem Channel.verdict_mask (x : Channel) (n : Nat) (p : MaskPend) (code : Nat) (t : Int) :
    (x.verdict n p code t).folder.mask = x.folder.mask := congrArg Prod.fst (x.verdict_maskRec n p code t)

theorem Channel.verdict_maskFail (x : Channel) (n : Nat) (p : MaskPend) (code : Nat) (t : Int) :
    (x.verdict n p code t).rcd.maskFail = x.rcd.maskFail + if code = 1 then 1 else 0 := by
  refine (congrArg (fun q => Rec.maskFail (Prod.snd q)) (x.verdict_maskRec n p code t)).trans ?_
  dsimp only
  split <;> rfl

/-- The window fails at its close: a presence window without loss. -/
def Channel.failsAtClose (x : Channel) (p : MaskPend) : Bool := !p.ovf && !maskSense (x.maskWin p.w).1

/-- Windows that take the verdict of their close leave the others, and count those that fail. -/
theorem Channel.closes_mask (n : Nat) (l : List MaskPend) (x : Channel) :
    let y := l.foldl (fun y p =>
      y.verdict n p (if p.ovf then 3 else if maskSense (y.maskWin p.w).1 then 0 else 1) p.stop) x
    y.folder.mask = x.folder.mask ∧ y.rcd.maskFail = x.rcd.maskFail + l.countP x.failsAtClose := by
  induction l generalizing x with
  | nil => exact ⟨rfl, rfl⟩
  | cons p l ih =>
    intro y
    obtain ⟨hmask, hfail⟩ := ih (x.verdict n p (if p.ovf then 3 else if maskSense (x.maskWin p.w).1 then 0 else 1) p.stop)
    refine ⟨hmask.trans (x.verdict_mask ..), hfail.trans ?_⟩
    have hsame : (x.verdict n p (if p.ovf then 3 else if maskSense (x.maskWin p.w).1 then 0 else 1) p.stop).failsAtClose =
        x.failsAtClose := funext fun q => by
      unfold Channel.failsAtClose
      rw [(OnlyVerdicts.verdict x n p _ _).maskWin]
    rw [hsame, x.verdict_maskFail, List.countP_cons, Nat.add_assoc, Nat.add_comm (List.countP _ _)]
    congr 2
    unfold Channel.failsAtClose
    cases p.ovf <;> cases maskSense (x.maskWin p.w).1 <;> rfl

theorem Channel.maskCloseAt_spec (x : Channel) (n : Nat) (t : Int) :
    (x.maskCloseAt n t).folder.mask = x.folder.mask.filter (fun p => !decide (p.stop ≤ t)) ∧
    (x.maskCloseAt n t).rcd.maskFail =
      x.rcd.maskFail + x.folder.mask.countP fun p => decide (p.stop ≤ t) && x.failsAtClose p := by
  unfold Channel.maskCloseAt
  rw [List.partition_eq_filter_filter]
  obtain ⟨hmask, hfail⟩ := Channel.closes_mask n (x.folder.mask.filter fun p => decide (p.stop ≤ t))
    (x.modF fun f => { f with mask := x.folder.mask.filter (not ∘ fun p => decide (p.stop ≤ t)) })
  refine ⟨hmask, hfail.trans ?_⟩
  rw [List.countP_filter]
  exact congrArg (x.rcd.maskFail + ·) (List.countP_congr fun p _ => by rw [Bool.and_comm]; exact Iff.rfl)

section Windows
variable {x : Channel} {n : Nat} {t : Int}

theorem Channel.windowsTo_gate (fuel : Nat) {g : Int} (hg : x.gateStop = some g) (hgt : g ≤ t)
    (hmask : ∀ p ∈ x.folder.mask, g ≤ p.stop) : x.windowsTo n t (fuel + 1) = (x.gateNext n g).windowsTo n t fuel := by
  rw [Channel.windowsTo, hg]
  cases hm : (x.folder.mask.map (·.stop)).min? with
  | none => exact if_pos hgt
  | some w =>
    obtain ⟨p, hp, hw⟩ := List.mem_map.1 (List.min?_mem hm)
    dsimp only
    rw [if_pos (hw ▸ hmask p hp), if_pos hgt]

theorem Channel.windowsTo_mask (fuel : Nat) {w : Int} (hg : ∀ e, x.gateStop = some e → t < e)
    (hm : (x.folder.mask.map (·.stop)).min? = some w) (hw : w ≤ t) :
    x.windowsTo n t (fuel + 1) = (x.maskCloseAt n w).windowsTo n t fuel := by
  rw [Channel.windowsTo, hm]
  cases hstop : x.gateStop with
  | none => exact if_pos hw
  | some e =>
    have := hg e hstop
    dsimp only
    rw [if_neg (by omega), if_pos hw]

theorem Channel.windowsTo_idle (fuel : Nat) (hg : ∀ e, x.gateStop = some e → t < e)
    (hm : ∀ w, (x.folder.mask.map (·.stop)).min? = some w → t < w) : x.windowsTo n t fuel = x := by
  cases fuel with
  | zero => rfl
  | succ fuel =>
    rw [Channel.windowsTo]
    cases hstop : x.gateStop with
    | none =>
      cases hmin : (x.folder.mask.map (·.stop)).min? with
      | none => rfl
      | some w => exact if_neg (by have := hm w hmin; omega)
    | some e =>
      have he := hg e hstop
      cases hmin : (x.folder.mask.map (·.stop)).min? with
      | none => exact if_neg (by omega)
      | some w =>
        have hw := hm w hmin
        dsimp only
        rw [if_neg (show ¬ e ≤ t by omega), if_neg (show ¬ w ≤ t by omega), ite_self]

/-- While no gate ends, only windows close. -/
theorem OnlyVerdicts.windowsTo (n : Nat) (t : Int) (fuel : Nat) (x : Channel) (hg : ∀ e, x.gateStop = some e → t < e) :
    OnlyVerdicts x (x.windowsTo n t fuel) := by
  induction fuel generalizing x with
  | zero => exact .refl x
  | succ fuel ih =>
    by_cases hm : ∀ w, (x.folder.mask.map (·.stop)).min? = some w → t < w
    · rw [Channel.windowsTo_idle _ hg hm]
      exact .refl x
    · push Not at hm
      obtain ⟨w, hmin, hw⟩ := hm
      have hy := OnlyVerdicts.maskCloseAt x n w
      rw [Channel.windowsTo_mask fuel hg hmin hw]
      exact hy.trans (ih _ (hy.gateStop ▸ hg))

end Windows

/-! ## A gate that ends -/

theorem Channel.gateTake_idx (x : Channel) (g : Gate) (t : Int) (op : GateOp) : (x.gateTake g t op).idx = g.idx := by
  cases op with
  | delta j d sat => unfold Channel.gateTake Gate.histAdd; dsimp only; (repeat' split) <;> rfl
  | verdict code => unfold Channel.gateTake; dsimp only; split <;> rfl
  | _ => rfl

theorem Channel.flush_idx (x : Channel) (p : Int → Bool) : (x.flush p).folder.gate.idx = x.folder.gate.idx := by
  have hfold : ∀ (l : List (Int × GateOp)) (g : Gate), (l.foldl (fun g o => x.gateTake g o.1 o.2) g).idx = g.idx := by
    intro l
    induction l with
    | nil => exact fun _ => rfl
    | cons o l ih => exact fun g => (ih _).trans (x.gateTake_idx g _ _)
  unfold Channel.flush
  split
  · rfl
  · exact hfold _ _

/-- The gate has ended: its SUMMARY is due, and no boundary of an engine gate is pending. -/
def Channel.gateEnded (x : Channel) (g : Int) : Channel :=
  ((x.flush (· < g)).gateEnd g 0).modEng fun e => { e with boundary := if x.gateKind = 2 then none else e.boundary }

/-- The next gate is open, before the mask checker sees its opening. -/
def Channel.gateFresh (x : Channel) (g : Int) : Channel :=
  (x.gateEnded g).modF fun f =>
    { f with gate := { Gate.reset with isOpen := true, idx := x.folder.gate.idx + 1, start := g } }

theorem OnlyVerdicts.gateNext (x : Channel) (n : Nat) (g : Int) : OnlyVerdicts (x.gateFresh g) (x.gateNext n g) := by
  change OnlyVerdicts (x.gateFresh g) (if (x.gateFresh g).maskKind = some 1 then (x.gateFresh g).maskRefer n g
    else x.gateFresh g)
  split
  · exact OnlyVerdicts.maskRefer _ n g
  · exact .refl _

/-- A channel without what the end of a gate changes: the gate, what waits for it, the due events, the summaries and the pending
boundary. -/
def Channel.sansGate (x : Channel) : Channel :=
  { x with folder := { x.folder with gate := Gate.reset, ops := [], due := [], sums := [] }
           eng := { x.eng with boundary := none } }

theorem Channel.sansGate_flush (x : Channel) (p : Int → Bool) : (x.flush p).sansGate = x.sansGate := by
  unfold Channel.flush; split <;> rfl

theorem Channel.sansGate_ev (x : Channel) (type : Byte) (head : Nat) (t : Int) (v : Dword) :
    (x.ev type head t v).sansGate = x.sansGate := by
  unfold Channel.ev; split <;> rfl

/-- The summary of a gate that ends is kept for its event. -/
def Channel.gateSummed (x : Channel) (g : Int) : Channel :=
  if x.engOn then x.modF fun f => { f with sums := f.sums ++ [x.folder.gate.bank g 0] } else x

theorem Channel.sansGate_gateSummed (x : Channel) (g : Int) : (x.gateSummed g).sansGate = x.sansGate := by
  unfold Channel.gateSummed; split <;> rfl

theorem Channel.sansGate_gateEnded (x : Channel) (g : Int) : (x.gateEnded g).sansGate = x.sansGate := by
  refine Eq.trans ?_ (x.sansGate_flush (· < g))
  refine Eq.trans ?_ ((x.flush (· < g)).sansGate_gateSummed g)
  exact (Channel.sansGate_ev _ 4 0 g _)

theorem Channel.gateEnded_boundary (x : Channel) (g : Int) (hk : x.gateKind = 2) : (x.gateEnded g).eng.boundary = none :=
  if_pos hk

theorem Channel.sums_ev (x : Channel) (type : Byte) (head : Nat) (t : Int) (v : Dword) :
    (x.ev type head t v).folder.sums = x.folder.sums := by
  unfold Channel.ev; split <;> rfl

theorem Channel.sums_flush (x : Channel) (p : Int → Bool) : (x.flush p).folder.sums = x.folder.sums := by
  unfold Channel.flush; split <;> rfl

/-- With the engine on, the summary and its event. -/
theorem Channel.gateEnded_summary (x : Channel) (g : Int) (hon : x.engOn = true) :
    (x.gateEnded g).folder.sums = x.folder.sums ++ [(x.flush (· < g)).folder.gate.bank g 0] ∧
    ∃ v ∈ (x.gateEnded g).folder.due, v.type = 4 ∧ v.time = g ∧ v.val = BitVec.ofNat 64 x.folder.gate.idx := by
  have hon' : (x.flush (· < g)).engOn = true :=
    (congrArg (fun y : Channel => y.engOn) (x.sansGate_flush (· < g)) : (x.flush (· < g)).sansGate.engOn = _).trans hon
  have hsummed : (x.flush (· < g)).gateSummed g = (x.flush (· < g)).modF fun f =>
      { f with sums := f.sums ++ [(x.flush (· < g)).folder.gate.bank g 0] } := if_pos hon'
  constructor
  · refine (Channel.sums_ev ((x.flush (· < g)).gateSummed g) 4 0 g _).trans ?_
    rw [hsummed, ← x.sums_flush (· < g)]
    rfl
  · refine ⟨_, Channel.mem_due_ev ((x.flush (· < g)).gateSummed g) 4 0 g _ ?_, rfl, rfl, congrArg (BitVec.ofNat 64) (x.flush_idx (· < g))⟩
    rw [hsummed]
    exact hon'

theorem Channel.gateFresh_stop (x : Channel) (g : Int) (hlen : x.cfg.gateSc ≠ 0) :
    ∀ e, (x.gateFresh g).gateStop = some e → g < e := by
  have hpos : 0 < x.gateLen := by
    unfold Channel.gateLen
    have : 0 < x.cfg.gateSc.toNat := Nat.pos_of_ne_zero fun h => hlen (BitVec.eq_of_toNat_eq h)
    omega
  intro e he
  have hstop : ∀ o c : Option Int, (∀ u, o = some u → g < u) →
      (match o, c with | some t, some c => if t < c then some t else none | e, _ => e) = some e → g < e := by
    intro o c ho h
    cases o with
    | none => cases c <;> simp at h
    | some u =>
      have hu := ho u rfl
      cases c with
      | none => simp only [Option.some.injEq] at h; omega
      | some c =>
        dsimp only at h
        split at h
        · simp only [Option.some.injEq] at h; omega
        · cases h
  refine hstop _ (x.gateFresh g).folder.closing (fun u hu => ?_) he
  have hcfg : (x.gateFresh g).cfg = x.cfg := (congrArg (fun y : Channel => y.cfg) (x.sansGate_gateEnded g) :)
  have hkind : (x.gateFresh g).gateKind = x.gateKind := by unfold Channel.gateKind; rw [hcfg]
  have hlen' : (x.gateFresh g).gateLen = x.gateLen := by unfold Channel.gateLen; rw [hcfg]
  rw [hkind, hlen'] at hu
  split at hu
  · rw [← Option.some.inj hu]
    exact lt_add_of_pos_right g (Int.natCast_pos.2 hpos)
  · next h2 => exact absurd ((x.gateEnded_boundary g h2).symm.trans hu) (by simp)
  · cases hu

end Sys2Proof.Machine
end

section
/-! SUPPORT. Reduction intervals that end by a time (R187), and the rows of the folder's units. -/

namespace Sys2Proof.Machine

open Sys2Proof.Safety

/-! ## Reduction intervals -/

/-- The word of an interval is handed over under KIND RED. -/
def Channel.reduceHand (x : Channel) (n i : Nat) : Channel :=
  let q := x.folder.red.getD i Reducer.reset
  if x.kind = 2 then x.handOther n false (reducedWord i q.idx q.any q.mx q.mn) else x

/-- Its event falls due. -/
def Channel.reduceSeen (x : Channel) (n i : Nat) (t : Int) : Channel :=
  let q := x.folder.red.getD i Reducer.reset
  let y := x.reduceHand n i
  if y.sub 10 then y.ev 7 (i + 2 * bit (!q.any)) t (BitVec.ofNat 64 (if q.any then q.mx - q.mn else 0)) else y

theorem Channel.reduceOut_eq (x : Channel) (n i : Nat) (t : Int) :
    x.reduceOut n i t = (x.reduceSeen n i t).modF fun f =>
      { f with red := setAt f.red i { idx := (x.folder.red.getD i Reducer.reset).idx + 1, any := false, mn := 0, mx := 0 } } :=
  rfl

theorem Channel.still_reduceSeen (x : Channel) (n i : Nat) (t : Int) : (x.reduceSeen n i t).still = x.still := by
  have hhand : (x.reduceHand n i).still = x.still := by
    unfold Channel.reduceHand
    dsimp only
    split
    · exact x.still_handOther n _ _
    · rfl
  unfold Channel.reduceSeen
  dsimp only
  split
  · exact (Channel.still_ev _ _ _ _ _).trans hhand
  · exact hhand

theorem Channel.ev_outq (x : Channel) (type : Byte) (head : Nat) (t : Int) (v : Dword) :
    (x.ev type head t v).outq = x.outq := by
  unfold Channel.ev; split <;> rfl

/-- The reducers after an interval of unit `i` has ended. -/
theorem Channel.reduceOut_spec (x : Channel) (n i : Nat) (t : Int) :
    (x.reduceOut n i t).folder.red = x.folder.red.set i
      { idx := (x.folder.red.getD i Reducer.reset).idx + 1, any := false, mn := 0, mx := 0 } ∧
    (x.reduceOut n i t).folder.gate = x.folder.gate ∧
    (x.reduceOut n i t).folder.o = x.folder.o ∧ (x.reduceOut n i t).cfg = x.cfg ∧
    (x.reduceOut n i t).outq = (x.reduceHand n i).outq := by
  have hs := x.still_reduceSeen n i t
  have hf : (x.reduceSeen n i t).folder.still = x.folder.still := congrArg Still.folder hs
  have hred : (x.reduceSeen n i t).folder.red = x.folder.red := (congrArg Folder.red hf :)
  rw [x.reduceOut_eq]
  refine ⟨?_, (congrArg Folder.gate hf :), (congrArg Folder.o hf :), (congrArg Still.cfg hs :), ?_⟩
  · rw [← hred]; rfl
  · change (x.reduceSeen n i t).outq = _
    unfold Channel.reduceSeen
    dsimp only
    split
    · exact Channel.ev_outq _ _ _ _ _
    · rfl

/-- The word of an interval is in the output queue of an open record. -/
theorem Channel.reduceHand_mem (x : Channel) (n i : Nat) (hk : x.kind = 2) (hopen : x.rcd.isOpen = true) :
    ∃ o ∈ (x.reduceHand n i).outq, o.dc = n ∧
      o.word = reducedWord i (x.folder.red.getD i Reducer.reset).idx (x.folder.red.getD i Reducer.reset).any
        (x.folder.red.getD i Reducer.reset).mx (x.folder.red.getD i Reducer.reset).mn := by
  unfold Channel.reduceHand Channel.handOther
  rw [if_pos hk, Channel.handWord_outq _ _ hopen]
  refine ⟨_, List.mem_append_right _ (List.mem_singleton.2 rfl), ?_⟩
  unfold Channel.outWord
  split <;> exact ⟨rfl, rfl⟩

theorem Channel.reduceHand_outq (x : Channel) (n i : Nat) : ∀ o ∈ x.outq, o ∈ (x.reduceHand n i).outq := by
  intro o ho
  unfold Channel.reduceHand Channel.handOther
  dsimp only
  split
  · cases hopen : x.rcd.isOpen with
    | false => rw [Channel.handWord_closed _ _ hopen]; exact ho
    | true => rw [Channel.handWord_outq _ _ hopen]; exact List.mem_append_left _ ho
  · exact ho

/-- The interval of unit `i` is the one that ends by `t`: no other unit ends before it. -/
def Channel.redTurn (x : Channel) (t : Int) (i : Nat) : Bool :=
  (x.redCfg i).getLsbD 31 && decide (x.redStop i ≤ t) &&
    (decide (i = 0) || !(x.redCfg 0).getLsbD 31 || decide (x.redStop i < x.redStop 0))

theorem Channel.reduceTo_succ (x : Channel) (n : Nat) (t : Int) (fuel : Nat) :
    x.reduceTo n t (fuel + 1) = if x.redTurn t 0 then (x.reduceOut n 0 (x.redStop 0)).reduceTo n t fuel
      else if x.redTurn t 1 then (x.reduceOut n 1 (x.redStop 1)).reduceTo n t fuel else x := by
  change (match [0, 1].find? (x.redTurn t) with
    | some i => (x.reduceOut n i (x.redStop i)).reduceTo n t fuel
    | none => x) = _
  rw [List.find?_cons, List.find?_cons]
  cases x.redTurn t 0 <;> cases x.redTurn t 1 <;> rfl

theorem Channel.redStop_reduceOut (x : Channel) (n i j : Nat) (t : Int) (hi : i < x.folder.red.length) :
    (x.reduceOut n i t).redStop j = if j = i then x.redStop i + x.redLen else x.redStop j := by
  obtain ⟨hred, -, ho, hcfg, -⟩ := x.reduceOut_spec n i t
  have hlen : (x.reduceOut n i t).redLen = x.redLen := by unfold Channel.redLen; rw [hcfg]
  unfold Channel.redStop
  rw [hred, ho, hlen, List.getD_eq_getElem?_getD]
  split
  · next h =>
    subst h
    rw [List.getElem?_set_self hi, Option.getD_some]
    push_cast
    ring
  · next h => rw [List.getElem?_set_ne (Ne.symm h), ← List.getD_eq_getElem?_getD]

theorem Channel.redCfg_reduceOut (x : Channel) (n i j : Nat) (t : Int) : (x.reduceOut n i t).redCfg j = x.redCfg j := by
  unfold Channel.redCfg
  rw [(x.reduceOut_spec n i t).2.2.2.1]

theorem Channel.redLen_pos {x : Channel} (h : x.cfg.redSc ≠ 0) : 0 < x.redLen := by
  unfold Channel.redLen
  have : 0 < x.cfg.redSc.toNat := Nat.pos_of_ne_zero fun h0 => h (BitVec.eq_of_toNat_eq h0)
  omega

/-- What the row leaves of unit `i`, which ends at `g`. -/
def RedEnded (x y : Channel) (n i : Nat) : Prop :=
  y.folder.red.getD i Reducer.reset =
    { idx := (x.folder.red.getD i Reducer.reset).idx + 1, any := false, mn := 0, mx := 0 } ∧
  y.folder.gate = x.folder.gate ∧ ∀ o ∈ (x.reduceHand n i).outq, o ∈ y.outq

theorem redEnded_reduceOut (x : Channel) (n i : Nat) (t : Int) (hi : i < x.folder.red.length) :
    RedEnded x (x.reduceOut n i t) n i := by
  obtain ⟨hred, hgate, -, -, hout⟩ := x.reduceOut_spec n i t
  refine ⟨?_, hgate, fun o ho => hout ▸ ho⟩
  rw [hred, List.getD_eq_getElem?_getD, List.getElem?_set_self hi, Option.getD_some]

theorem RedEnded.reduceOut {x y : Channel} {n i : Nat} (h : RedEnded x y n i) (j : Nat) (t : Int) (hj : j ≠ i) :
    RedEnded x (y.reduceOut n j t) n i := by
  obtain ⟨hred, hgate, hout⟩ := h
  obtain ⟨hred', hgate', -, -, hout'⟩ := y.reduceOut_spec n j t
  refine ⟨?_, hgate'.trans hgate, fun o ho => hout' ▸ y.reduceHand_outq n j o (hout o ho)⟩
  rw [hred', List.getD_eq_getElem?_getD, List.getElem?_set_ne hj, ← List.getD_eq_getElem?_getD, hred]

/-- The row at the end of an interval: unit `i` ends, and unit 1 after unit 0 where both do. -/
theorem Channel.reduceTo_two (x : Channel) (n i : Nat) (g : Int) (hi : i < 2) (hlen : x.folder.red.length = 2)
    (hon : (x.redCfg i).getLsbD 31 = true) (hstop : x.redStop i = g) (hsc : x.cfg.redSc ≠ 0)
    (hother : ∀ j, j < 2 → (x.redCfg j).getLsbD 31 = true → j ≠ i → if j < i then g < x.redStop j else g ≤ x.redStop j) :
    RedEnded x (x.reduceTo n g 2) n i := by
  have hpos := Channel.redLen_pos hsc
  have hout := redEnded_reduceOut x n i g (hlen ▸ hi)
  have hafter : ∀ j, (x.reduceOut n i g).redStop j = if j = i then x.redStop i + x.redLen else x.redStop j :=
    fun j => x.redStop_reduceOut n i j g (hlen ▸ hi)
  have hturn : (x.reduceOut n i g).redTurn g i = false := by
    unfold Channel.redTurn
    rw [hafter, if_pos rfl, decide_eq_false (show ¬ x.redStop i + x.redLen ≤ g by omega), Bool.and_false, Bool.false_and]
  obtain rfl | rfl : i = 0 ∨ i = 1 := by omega
  · have h0 : x.redTurn g 0 = true := by
      unfold Channel.redTurn
      rw [hon, hstop, decide_eq_true (Int.le_refl g)]
      rfl
    rw [Channel.reduceTo_succ, if_pos h0, hstop, Channel.reduceTo_succ, hturn, if_neg Bool.false_ne_true]
    split
    · exact hout.reduceOut 1 _ (by decide)
    · exact hout
  · have hstop0 : (x.redCfg 0).getLsbD 31 = true → g < x.redStop 0 := fun h => hother 0 (by decide) h (by decide)
    have h0 : ∀ y : Channel, y.redCfg 0 = x.redCfg 0 → y.redStop 0 = x.redStop 0 → y.redTurn g 0 = false := by
      intro y hc hs
      unfold Channel.redTurn
      rw [hc, hs]
      cases hon0 : (x.redCfg 0).getLsbD 31
      · rfl
      · rw [decide_eq_false (not_le.2 (hstop0 hon0))]; rfl
    have h1 : x.redTurn g 1 = true := by
      unfold Channel.redTurn
      rw [hon, hstop, decide_eq_true (Int.le_refl g)]
      cases hon0 : (x.redCfg 0).getLsbD 31
      · rfl
      · rw [decide_eq_true (hstop0 hon0)]; rfl
    rw [Channel.reduceTo_succ, h0 x rfl rfl, if_neg Bool.false_ne_true, if_pos h1, hstop, Channel.reduceTo_succ,
      h0 _ (x.redCfg_reduceOut n 1 0 g) ((hafter 0).trans (if_neg (by decide))), hturn, if_neg Bool.false_ne_true,
      if_neg Bool.false_ne_true]
    exact hout

/-! ## The rows -/

theorem State.unitAt_eq (s : State) (c : Chan) (t : Int) (n : Nat) (f : Nat → Int → Channel → Channel)
    (hon : s.chOn c = true) (hopen : (s.chan c).folder.recOpen = true) (hdone : (s.chan c).folder.done = false)
    (hclose : ∀ cl, (s.chan c).folder.closing = some cl → t ≤ cl) (hdue : s.streamDue c t = some n) :
    s.unitAt c (some t) f = (s.at_ (s.dcAt n)).setChan c (f n t (s.chan c)) := by
  unfold State.unitAt
  dsimp only
  rw [if_neg (by rw [hopen, hdone, hon]; decide)]
  split
  · next cl hcl => rw [if_neg (not_lt.2 (hclose cl hcl)), hdue]
  · rw [hdue]

theorem Channel.phaseOut_none_spec (x : Channel) (t : Int) :
    (x.phaseOut t none).folder.phsI = x.folder.phsI + 1 ∧ (x.phaseOut t none).folder.phsK = x.folder.phsK ∧
    (x.phaseOut t none).folder.gate = x.folder.gate ∧
    (x.engOn = true → x.evqCfg.getLsbD 8 = true → ∃ v ∈ (x.phaseOut t none).folder.due,
      v.type = 5 ∧ v.head = 1 ∧ v.time = t ∧ v.val = BitVec.allOnes 64) ∧
    (x.evqCfg.getLsbD 8 = false → (x.phaseOut t none).folder.due = x.folder.due) := by
  have hstill : (if x.sub 8 then x.ev 5 (bit true) t (BitVec.allOnes 64) else x).folder.still = x.folder.still := by
    split
    · exact congrArg Still.folder (x.still_ev _ _ _ _)
    · rfl
  refine ⟨(congrArg (fun f : Folder => f.phsI + 1) hstill :), (congrArg Folder.phsK hstill :),
    (congrArg Folder.gate hstill :), fun hon hsub => ?_, fun hsub => ?_⟩
  · refine ⟨⟨5, BitVec.ofNat 56 (bit true), t, BitVec.allOnes 64⟩, ?_, rfl, rfl, rfl, rfl⟩
    · change _ ∈ (if x.sub 8 then x.ev 5 (bit true) t (BitVec.allOnes 64) else x).folder.due
      rw [if_pos (show x.sub 8 = true from hsub)]
      exact x.mem_due_ev 5 (bit true) t _ hon
  · change (if x.sub 8 then x.ev 5 (bit true) t (BitVec.allOnes 64) else x).folder.due = _
    rw [if_neg (by unfold Channel.sub; rw [hsub]; decide)]

end Sys2Proof.Machine

namespace Sys2Proof.Proofs

open Sys2Proof.Machine Sys2Proof.Safety

/-- The row at the end of a gate: what the next gate and the units find. -/
theorem gateClose_units (x : Channel) (n : Nat) (g : Int) (hstop : x.gateStop = some g)
    (hmask : ∀ p ∈ x.folder.mask, g ≤ p.stop) (hsc : x.cfg.gateSc ≠ 0) :
    OnlyVerdicts (x.gateFresh g) (x.windowsTo n g 36) := by
  have hnext := OnlyVerdicts.gateNext x n g
  have hfresh := x.gateFresh_stop g hsc
  rw [← hnext.gateStop] at hfresh
  rw [Channel.windowsTo_gate 35 hstop (Int.le_refl g) hmask]
  exact hnext.trans (OnlyVerdicts.windowsTo n g 35 _ hfresh)

/-- The row at the end of a mask window: every window that has ended by then closes. -/
theorem maskWindows_closed (x : Channel) (n : Nat) (g : Int) (hmin : (x.folder.mask.map (·.stop)).min? = some g)
    (hstop : ∀ e, x.gateStop = some e → g < e) : x.windowsTo n g 36 = x.maskCloseAt n g := by
  rw [Channel.windowsTo_mask 35 hstop hmin (Int.le_refl g)]
  refine Channel.windowsTo_idle 35 (fun e he => hstop e ((OnlyVerdicts.maskCloseAt x n g).gateStop ▸ he)) fun w hw => ?_
  obtain ⟨p, hp, rfl⟩ := List.mem_map.1 (List.min?_mem hw)
  rw [(x.maskCloseAt_spec n g).1, List.mem_filter] at hp
  have := hp.2
  simp only [Bool.not_eq_true', decide_eq_false_iff_not] at this
  omega

/-- Settles O17, by `unitAt` at the end of each unit. -/
theorem folderUnits : Obligations.FolderUnits := by
  constructor
  · intro s c n g x hon hopen hdone hclose hdue
    have hunit : ∀ f, s.unitAt c (some g) f = (s.at_ (s.dcAt n)).setChan c (f n g x) := fun f =>
      s.unitAt_eq c g n f hon hopen hdone (fun cl hcl => Int.le_of_lt (hclose cl hcl)) hdue
    refine ⟨fun hstop hmask hsc => ?_, fun i hi hlen hredon hstop hsc hother => ?_, fun hmin hstop => ?_⟩
    · refine ⟨_, rfl, ?_⟩
      have heq : s.gateClose c = (s.at_ (s.dcAt n)).setChan c (x.windowsTo n g 36) :=
        (congrArg (fun o => s.unitAt c o fun n t x => x.windowsTo n t 36) hstop).trans (hunit _)
      rw [heq]
      refine ⟨rfl, State.onlyChan_setChan_at .., ?_⟩
      rw [State.chan_setChan_self]
      have hv := gateClose_units x n g hstop hmask hsc
      have hs := hv.same
      have hend := x.sansGate_gateEnded g
      refine ⟨(congrArg (fun y : Channel => y.folder.gate.isOpen) hs :), (congrArg (fun y : Channel => y.folder.gate.idx) hs :),
        (congrArg (fun y : Channel => y.folder.gate.start) hs :), (congrArg (fun y : Channel => y.folder.gate.counts) hs :),
        (congrArg (fun y : Channel => y.folder.gate.m0) hs :), (congrArg (fun y : Channel => y.folder.gate.bins) hs :),
        (congrArg (fun y : Channel => y.folder.red) hs :).trans (congrArg (fun y : Channel => y.folder.red) hend :),
        (congrArg (fun y : Channel => y.eng.queue) hs :).trans (congrArg (fun y : Channel => y.eng.queue) hend :),
        fun heng => ?_⟩
      obtain ⟨hsums, v, hvm, hvs⟩ := x.gateEnded_summary g heng
      exact ⟨(congrArg (fun y : Channel => y.folder.sums) hs :).trans hsums, v, hv.due v hvm, hvs⟩
    · refine ⟨_, rfl, ?_⟩
      have hends : ((List.range 2).filterMap fun j =>
          if (x.redCfg j).getLsbD 31 then some (x.redStop j) else none).min? = some g := by
        rw [List.min?_eq_some_iff]
        simp only [List.mem_filterMap, List.mem_range, Option.ite_none_right_eq_some, Option.some.injEq]
        refine ⟨⟨i, hi, hredon, hstop⟩, ?_⟩
        rintro _ ⟨j, hj, hjon, rfl⟩
        by_cases hji : j = i
        · rw [hji, hstop]
        · have := hother j hj hjon hji
          split at this <;> omega
      have heq : s.reductionClose c = (s.at_ (s.dcAt n)).setChan c (x.reduceTo n g 2) :=
        (congrArg (fun o => s.unitAt c o fun n t x => x.reduceTo n t 2) hends).trans (hunit _)
      rw [heq]
      refine ⟨rfl, State.onlyChan_setChan_at .., ?_⟩
      rw [State.chan_setChan_self]
      obtain ⟨hred, hgate, hout⟩ := x.reduceTo_two n i g hi hlen hredon hstop hsc hother
      refine ⟨hred, fun hk hrec => ?_, hgate⟩
      obtain ⟨o, ho, hword⟩ := x.reduceHand_mem n i hk hrec
      exact ⟨o, hout o ho, hword⟩
    · refine ⟨_, rfl, ?_⟩
      have heq : s.maskWindowClose c = (s.at_ (s.dcAt n)).setChan c (x.windowsTo n g 36) :=
        (congrArg (fun o => s.unitAt c o fun n t x => x.windowsTo n t 36) hmin).trans (hunit _)
      rw [heq, maskWindows_closed x n g hmin hstop]
      refine ⟨rfl, State.onlyChan_setChan_at .., ?_⟩
      rw [State.chan_setChan_self]
      obtain ⟨hmask, hfail⟩ := x.maskCloseAt_spec n g
      have hs := (OnlyVerdicts.maskCloseAt x n g).same
      refine ⟨hmask, hfail.trans ?_, (congrArg (fun y : Channel => y.folder.gate.counts) hs :),
        (congrArg (fun y : Channel => y.folder.red) hs :)⟩
      exact congrArg (x.rcd.maskFail + ·) (List.countP_congr fun p _ => by
        unfold Channel.failsAtClose; rw [Bool.and_assoc])
  · intro s c n x g hon hopen hdone hclose hphs hdue
    refine ⟨_, rfl, ?_⟩
    have hat : (if x.phsOn then some (x.phsAt (x.folder.phsI + 1)) else none) = some g := if_pos hphs
    have heq : s.phaseSample c = (s.at_ (s.dcAt n)).setChan c (x.phaseTo g 1) :=
      (congrArg (fun o => s.unitAt c o fun _ t x => x.phaseTo t 1) hat).trans
        (s.unitAt_eq c g n _ hon hopen hdone hclose hdue)
    have hto : x.phaseTo g 1 = x.phaseOut g none := by
      unfold Channel.phaseTo
      refine if_pos ?_
      rw [Bool.and_eq_true]
      exact ⟨hphs, decide_eq_true (Int.le_refl g)⟩
    rw [heq, hto]
    refine ⟨rfl, State.onlyChan_setChan_at .., ?_⟩
    rw [State.chan_setChan_self]
    exact x.phaseOut_none_spec g

end Sys2Proof.Proofs
end

section
/-! SUPPORT. A re-arm and the record it opens (R206, R274, R299, R300, R304). -/

namespace Sys2Proof.Machine

open Sys2Proof.Safety

/-! ## What a purge leaves -/

/-- A channel without its lanes and its merge. -/
def Channel.sansLanes (x : Channel) : Channel := { x with laneH := Lane.reset, laneL := Lane.reset, merge := Merge.reset }

theorem Channel.sansLanes_setLane (x : Channel) (l : Bool) (ln : Lane) : (x.setLane l ln).sansLanes = x.sansLanes := by
  cases l <;> rfl

/-- Two states that differ in lanes and merges only. -/
structure LanesOnly (s t : State) : Prop where
  frame : t = { s with chans := t.chans }
  chan : ∀ d, (t.chan d).sansLanes = (s.chan d).sansLanes

theorem LanesOnly.modChan {s t : State} (h : LanesOnly s t) (c : Chan) {f : Channel → Channel}
    (hf : ∀ x, (f x).sansLanes = x.sansLanes) : LanesOnly s (t.modChan c f) := by
  refine ⟨?_, fun d => ?_⟩
  · have := h.frame
    unfold State.modChan State.setChan
    rw [this]
  · unfold State.modChan
    by_cases hd : d = c
    · rw [hd, State.chan_setChan_self, hf, h.chan]
    · rw [State.chan_setChan_ne _ _ _ _ hd, h.chan]

theorem State.purge_lanesOnly (s : State) (c : Chan) (t : Nat) : LanesOnly s (s.purge c t) := by
  have h0 : LanesOnly s s := ⟨rfl, fun _ => rfl⟩
  unfold State.purge
  dsimp only
  split
  · refine LanesOnly.modChan (h0.modChan c ?_) _ ?_
    · exact fun _ => rfl
    · exact fun x => x.sansLanes_setLane _ _
  · refine h0.modChan c ?_
    exact fun _ => rfl

/-! ## The first record of an arm -/

/-- A channel as its first record opens: no record before it, an empty folder and an empty merge. -/
def Channel.firstReady (x : Channel) : Channel :=
  { x with
    disarmAt := none, folder := { Folder.reset with lastPost := none }, merge := { x.restartMerge with window := [] } }

/-- The record that `openRecord` opens. -/
def Channel.firstRec (x : Channel) (fo : Nat) (o base : Int) (pl : Placement) (p : RecPlace) : Rec :=
  let table := x.trim.inForce.map fun b => x.trim.table b
  { Rec.reset with
    isOpen := true, isSeg := p.isSeg, slot := p.slot, base := p.base, r := p.r, p := p.p, folio := fo, recNo := x.recCount
    o := o, oAbs := o - base, plOpen := pl, flags := if x.trim.stale then flagStale else 0
    forme := BitVec.ofNat 6 (x.forme.getD 0), trimGen := match table with | some t => t.gen | none => 0
    band := BitVec.ofNat 2 (x.trim.inForce.getD 0) }

/-- A channel with its record open and its units not yet so. -/
def Channel.recOpened (x : Channel) (fo : Nat) (o base a shift : Int) (pl : Placement) (p : RecPlace) : Channel :=
  { x with rcd := x.firstRec fo o base pl p, recCount := x.recCount + 1, trg := x.trg.open_ o a shift, held := false }

/-- The folio of a record that opens. -/
def openFolio (c : Chan) (p : RecPlace) (no : BitVec 16) : Folio :=
  { ttime := BitVec.allOnes 64, addr := BitVec.ofNat 30 p.base, ch := BitVec.ofNat 7 c.val, seg := p.isSeg, trig := false
    stop := false, trunc := false, ovf := false, st := 1, recNo := no }

theorem openFolio_ne_free (c : Chan) (p : RecPlace) (no : BitVec 16) : openFolio c p no ≠ Folio.free := fun h =>
  have hst : (1 : BitVec 2) = 0 := congrArg Folio.st h
  absurd hst (by decide)

theorem State.openRecord_eq (s : State) (c : Chan) (n : Nat) (o base a shift : Int) (pl : Placement) (p : RecPlace) :
    s.openRecord c n o base a shift pl p =
      (s.setChan c (((s.chan c).recOpened (s.freeFolio (s.chan c).cfg) o base a shift pl p).openUnits n o base
        (s.chan c).recCount ((s.chan c).forme.getD 0))).setFolio (s.freeFolio (s.chan c).cfg)
        (openFolio c p (s.chan c).recCount) := rfl

/-- The units at the open time, before the mask checker sees the opening. -/
def Channel.unitsOpened (x : Channel) (o base : Int) (recNo : BitVec 16) (forme : Nat) : Channel :=
  (((x.modF fun f =>
    { Folder.reset with
      recOpen := true, o := o, recNo := recNo, base := base, last := o - 1, lastPost := f.lastPost, held := f.held
      frozen := f.frozen, due := f.due, sums := f.sums }).rawOpenStates).ev 1 recNo.toNat o (BitVec.ofNat 64 forme)).modF
    fun f => { f with gate := { Gate.reset with isOpen := true, idx := 0, start := o } }

theorem OnlyVerdicts.openUnits (x : Channel) (n : Nat) (o base : Int) (recNo : BitVec 16) (forme : Nat) :
    OnlyVerdicts (x.unitsOpened o base recNo forme) (x.openUnits n o base recNo forme) := by
  change OnlyVerdicts (x.unitsOpened o base recNo forme) (if (x.unitsOpened o base recNo forme).maskKind = some 1 then
    (x.unitsOpened o base recNo forme).maskRefer n o else x.unitsOpened o base recNo forme)
  split
  · exact OnlyVerdicts.maskRefer _ n o
  · exact .refl _

/-- OPEN is in the queue when the engine starts. -/
def State.openQueued (s : State) (t : Instant) (y : Channel) : Channel :=
  let f := y.folder
  let e := y.eng
  match f.due with
  | v :: rest =>
    { y with folder := { f with due := rest }
             eng := { e with queue := [v], hwm := max e.hwm 1, wdFrom := some (s.dc t)
                             startDue := if y.engOn then some (s.startAt y t) else none } }
  | [] => { y with eng := { e with startDue := if y.engOn then some (s.startAt y t) else none } }

/-- The state in which the first record opens. -/
def State.firstCleared (s : State) (c : Chan) (t : Instant) : State := (s.purge c (lsbOf t)).modChan c Channel.firstReady

theorem State.firstRecord_eq (s : State) (c : Chan) (t : Instant) (scale : Int) (p : RecPlace)
    (hp : s.placeFor c (s.chan c).cfg none = some p) :
    s.firstRecord c t scale =
      let s1 := s.firstCleared c t
      let s2 := s1.openRecord c (s.dc t) ((lsbOf t : Int) + scale) scale ((lsbOf t : Int) + scale) 0 (s1.placeAtArm c) p
      s2.setChan c (s.openQueued t (s2.chan c)) := by
  unfold State.firstRecord
  dsimp only
  rw [hp]
  rfl

/-- A channel without what verdicts and the first event change, its engine, its lanes and its merge. -/
def Channel.opening (x : Channel) : Channel :=
  let y := x.sansVerdict.sansLanes
  { y with eng := Engine.reset }

theorem State.opening_openQueued (s : State) (t : Instant) (y : Channel) :
    (s.openQueued t y).opening = y.opening := by
  unfold State.openQueued
  dsimp only
  split <;> rfl

/-- A channel whose record and units are open, up to verdicts and events. -/
def Channel.opensAs (x : Channel) (fo : Nat) (o base a shift : Int) (pl : Placement) (p : RecPlace) : Channel :=
  let y := x.recOpened fo o base a shift pl p
  (y.modF fun f =>
    { Folder.reset with
      recOpen := true, o := o, recNo := x.recCount, base := base, last := o - 1, lastPost := f.lastPost, held := f.held
      frozen := f.frozen, due := f.due, sums := f.sums }).rawOpenStates.modF
    fun f => { f with gate := { Gate.reset with isOpen := true, idx := 0, start := o } }

theorem Channel.opening_openUnits (x : Channel) (n fo : Nat) (o base a shift : Int) (pl : Placement) (p : RecPlace) :
    ((x.recOpened fo o base a shift pl p).openUnits n o base x.recCount (x.forme.getD 0)).opening =
      (x.opensAs fo o base a shift pl p).opening := by
  have h := (OnlyVerdicts.openUnits (x.recOpened fo o base a shift pl p) n o base x.recCount (x.forme.getD 0)).same
  refine (congrArg (fun y : Channel => { y.sansLanes with eng := Engine.reset }) h).trans ?_
  unfold Channel.unitsOpened Channel.ev
  split <;> rfl

/-- What the first record leaves of the state. -/
theorem State.firstRecord_spec (s : State) (c : Chan) (t : Instant) (scale : Int) (p : RecPlace)
    (hp : s.placeFor c (s.chan c).cfg none = some p) :
    ∃ (w : Channel) (pl : Placement), w.sansLanes = (s.chan c).firstReady.sansLanes ∧
      ((s.firstRecord c t scale).chan c).opening =
        (w.opensAs (s.freeFolio (s.chan c).cfg) ((lsbOf t : Int) + scale) scale ((lsbOf t : Int) + scale) 0 pl p).opening ∧
      (s.firstRecord c t scale).folios =
        sset Folio.free s.folios (s.freeFolio (s.chan c).cfg) (openFolio c p (s.chan c).recCount) ∧
      (s.firstRecord c t scale).now = s.now ∧ (s.firstRecord c t scale).mem = s.mem ∧
      (s.firstRecord c t scale).closed = s.closed := by
  obtain ⟨hframe, hchan⟩ := s.purge_lanesOnly c (lsbOf t)
  have hw : (s.firstCleared c t).chan c = ((s.purge c (lsbOf t)).chan c).firstReady := State.chan_setChan_self ..
  have hlanes : ((s.firstCleared c t).chan c).sansLanes = (s.chan c).firstReady.sansLanes := by
    rw [hw]
    exact congrArg (fun y : Channel => { y with disarmAt := none, folder := { Folder.reset with lastPost := none } }) (hchan c)
  have hcfg : ((s.firstCleared c t).chan c).cfg = (s.chan c).cfg := (congrArg (fun y : Channel => y.cfg) hlanes :)
  have hcount : ((s.firstCleared c t).chan c).recCount = (s.chan c).recCount :=
    (congrArg (fun y : Channel => y.recCount) hlanes :)
  have hfolio : (s.firstCleared c t).freeFolio (s.chan c).cfg = s.freeFolio (s.chan c).cfg :=
    (congrArg (fun z : State => z.freeFolio (s.chan c).cfg) hframe :)
  refine ⟨(s.firstCleared c t).chan c, (s.firstCleared c t).placeAtArm c, hlanes, ?_, ?_, ?_, ?_, ?_⟩ <;>
    rw [s.firstRecord_eq c t scale p hp] <;> dsimp only <;> rw [State.openRecord_eq, hcfg, hfolio]
  · rw [State.chan_setChan_self, State.opening_openQueued, ← Channel.opening_openUnits]
    exact congrArg Channel.opening (State.chan_setChan_self ..)
  · rw [hcount]
    exact congrArg (fun l => sset Folio.free l _ _) (congrArg State.folios hframe :)
  · exact (congrArg State.now hframe :)
  · exact (congrArg State.mem hframe :)
  · exact (congrArg State.closed hframe :)

/-! ## A re-arm -/

/-- The state at the re-arm's instant, its wait over. -/
def State.rearmed (s : State) (c : Chan) (x : Channel) (t : Instant) : State := (s.at_ t).setChan c x

/-- A channel that may be re-armed at `t` is armed there, and its first record opens. -/
theorem State.armAtInstant_first (s : State) (c : Chan) (t : Instant) (hopen : (s.chan c).rcd.isOpen = false) :
    s.armAtInstant c t = ((s.wakeVault t).setChan c (((s.wakeVault t).chan c).armUnits t)).firstRecord c t s.tb.scale := by
  have hwake : (s.wakeVault t).chan c = s.chan c ∧ (s.wakeVault t).tb = s.tb := by
    unfold State.wakeVault; split <;> exact ⟨rfl, rfl⟩
  unfold State.armAtInstant
  dsimp only
  rw [hwake.1, hwake.2]
  exact if_neg (by rw [hopen]; decide)

theorem State.wakeVault_frame (s : State) (t : Instant) :
    (s.wakeVault t).chans = s.chans ∧ (s.wakeVault t).closed = s.closed ∧ (s.wakeVault t).folios = s.folios ∧
      (s.wakeVault t).mem = s.mem ∧ (s.wakeVault t).now = s.now := by
  unfold State.wakeVault; split <;> exact ⟨rfl, rfl, rfl, rfl, rfl⟩

/-- Places depend on the records that await readout only; the lowest free folio on the folios. -/
theorem State.placeFor_congr {s t : State} (h : t.closed = s.closed) (c : Chan) (g : ChanCfg) (k : Option (Nat × Nat)) :
    t.placeFor c g k = s.placeFor c g k := by
  unfold State.placeFor State.circFree State.slotFree State.closedOf
  rw [h]

theorem State.freeFolio_congr {s t : State} (h : t.folios = s.folios) (g : ChanCfg) : t.freeFolio g = s.freeFolio g := by
  unfold State.freeFolio State.folio
  rw [h]

/-- The checks of a re-arm pass at its instant. -/
theorem State.mayRearm (s : State) {c : Chan} {y : Channel} {t : Instant} {g : ChanCfg} {p : RecPlace} (hon : s.chOn c = true)
    (hbound : s.bound c = true) (hp : s.placeFor c g none = some p) :
    (s.rearmed c y t).chOn c = true ∧ (s.rearmed c y t).bound c = true ∧
      ((s.rearmed c y t).placeFor c g none).isSome = true :=
  ⟨hon, hbound, by
    have h : (s.rearmed c y t).placeFor c g none = some p := (State.placeFor_congr (s := s) rfl c g none).trans hp
    rw [h]; rfl⟩

/-- What a re-arm at `t` leaves of the state in which the channel is `x`. -/
theorem State.rearm_spec (s : State) (c : Chan) (x : Channel) (u t : Instant) (p : RecPlace) (hopen : x.rcd.isOpen = false)
    (hp : s.placeFor c x.cfg none = some p) :
    let z := (s.rearmed c x u).armAtInstant c t
    ∃ (w : Channel) (pl : Placement), w.sansLanes = (x.armUnits t).firstReady.sansLanes ∧
      (z.chan c).opening = (w.opensAs (s.freeFolio x.cfg) ((lsbOf t : Int) + s.tb.scale) s.tb.scale
        ((lsbOf t : Int) + s.tb.scale) 0 pl p).opening ∧
      z.folios = sset Folio.free s.folios (s.freeFolio x.cfg) (openFolio c p 0) ∧
      z.now = max s.now u ∧ z.mem = s.mem ∧ z.closed = s.closed := by
  have hx : (s.rearmed c x u).chan c = x := State.chan_setChan_self ..
  obtain ⟨hchans, hclosed, hfolios, hmem, hnow⟩ := (s.rearmed c x u).wakeVault_frame t
  have hxw : ((s.rearmed c x u).wakeVault t).chan c = x := (congrArg (·[c]) hchans).trans hx
  intro z
  have hz : z = (((s.rearmed c x u).wakeVault t).setChan c (x.armUnits t)).firstRecord c t s.tb.scale := by
    refine (State.armAtInstant_first _ c t (by rw [hx]; exact hopen)).trans ?_
    rw [hxw]
    rfl
  have harm : (((s.rearmed c x u).wakeVault t).setChan c (x.armUnits t)).chan c = x.armUnits t := State.chan_setChan_self ..
  have hfree : (((s.rearmed c x u).wakeVault t).setChan c (x.armUnits t)).freeFolio x.cfg = s.freeFolio x.cfg :=
    State.freeFolio_congr (s := s) hfolios _
  have hplace : (((s.rearmed c x u).wakeVault t).setChan c (x.armUnits t)).placeFor c x.cfg none = some p :=
    (State.placeFor_congr (s := s) hclosed _ _ _).trans hp
  have hspec := State.firstRecord_spec (((s.rearmed c x u).wakeVault t).setChan c (x.armUnits t)) c t s.tb.scale p
    (by rw [harm]; exact hplace)
  rw [harm] at hspec
  obtain ⟨w, pl, hw, hop, hfo, hnow', hmem', hclosed'⟩ := hspec
  rw [hz]
  refine ⟨w, pl, hw, hop.trans (by rw [← hfree]; rfl), hfo.trans ?_, hnow'.trans hnow, hmem'.trans hmem, hclosed'.trans hclosed⟩
  rw [← hfree]
  exact congrArg (fun l => sset Folio.free l _ _) hfolios

end Sys2Proof.Machine

namespace Sys2Proof.Proofs

open Sys2Proof.Machine Sys2Proof.Safety

/-- A re-arm whose checks pass arms the channel at its instant. -/
theorem rearm_exec {s : State} {c : Chan} {t0 : Instant} {p : RecPlace} (hon : s.chOn c = true) (hbound : s.bound c = true)
    (htrim : (s.chan c).trim.running = false) (hp : s.placeFor c (s.chan c).cfg none = some p) {i : Instr}
    (hi : i = .heldRearm c ∧ (s.chan c).heldRearm = some t0 ∨
      i = .formeRearm c ∧ (s.chan c).formeRearm = some t0 ∧ (s.chan c).armed = false) :
    ∃ y : Channel, exec i s = .next ((s.rearmed c y (s.span.next (t0 + 1))).armAtInstant c (max s.now (s.span.next (t0 + 1)))) ∧
      y.rcd = (s.chan c).rcd ∧ y.cfg = (s.chan c).cfg := by
  have hmay := fun y : Channel => s.mayRearm (y := y) (t := s.span.next (t0 + 1)) hon hbound hp
  rcases hi with ⟨rfl, h⟩ | ⟨rfl, h, harmed⟩
  · refine ⟨{ s.chan c with heldRearm := none }, congrArg Host.Outcome.next ?_, rfl, rfl⟩
    obtain ⟨hon', hbound', hplace⟩ := hmay { s.chan c with heldRearm := none }
    unfold State.heldRearm
    dsimp only
    rw [h]
    exact if_pos (Bool.and_eq_true_iff.2 ⟨Bool.and_eq_true_iff.2 ⟨Bool.and_eq_true_iff.2 ⟨hon', hbound'⟩,
      (congrArg (!·) htrim :)⟩, hplace⟩)
  · refine ⟨{ s.chan c with formeRearm := none }, congrArg Host.Outcome.next ?_, rfl, rfl⟩
    obtain ⟨hon', hbound', hplace⟩ := hmay { s.chan c with formeRearm := none }
    unfold State.formeRearm
    dsimp only
    rw [h]
    exact if_pos (Bool.and_eq_true_iff.2 ⟨Bool.and_eq_true_iff.2 ⟨Bool.and_eq_true_iff.2 ⟨Bool.and_eq_true_iff.2
      ⟨hon', hbound'⟩, (congrArg (!·) harmed :)⟩, (congrArg (!·) htrim :)⟩, hplace⟩)

/-- The record and the units of a channel that opens one with its open time as arm point. -/
theorem opened_fields {z w : Channel} {fo : Nat} {o base shift : Int} {pl : Placement} {p : RecPlace}
    (h : z.opening = (w.opensAs fo o base o shift pl p).opening) :
    (z.held = false ∧ z.rcd.isOpen = true ∧ z.rcd.recNo = w.recCount ∧ z.rcd.o = o ∧ z.rcd.base = p.base ∧ z.rcd.r = p.r ∧
      z.rcd.wp = 0 ∧ z.rcd.fs = .pre ∧ z.rcd.folio = fo ∧ z.recCount = w.recCount + 1) ∧
    (z.trg.st = .armed ∧ z.trg.a = o ∧ z.trg.cause = 0) ∧
    z.folder.recOpen = true ∧ z.folder.o = o ∧ z.folder.gate.isOpen = true := by
  have hst : (if o < o then TrgState.holdoff else TrgState.armed) = .armed := if_neg (lt_irrefl o)
  refine ⟨⟨(congrArg (fun v : Channel => v.held) h :), (congrArg (fun v : Channel => v.rcd.isOpen) h :),
    (congrArg (fun v : Channel => v.rcd.recNo) h :), (congrArg (fun v : Channel => v.rcd.o) h :),
    (congrArg (fun v : Channel => v.rcd.base) h :), (congrArg (fun v : Channel => v.rcd.r) h :),
    (congrArg (fun v : Channel => v.rcd.wp) h :), (congrArg (fun v : Channel => v.rcd.fs) h :),
    (congrArg (fun v : Channel => v.rcd.folio) h :), (congrArg (fun v : Channel => v.recCount) h :)⟩,
    ⟨?_, (congrArg (fun v : Channel => v.trg.a) h :), (congrArg (fun v : Channel => v.trg.cause) h :)⟩,
    (congrArg (fun v : Channel => v.folder.recOpen) h :), (congrArg (fun v : Channel => v.folder.o) h :),
    (congrArg (fun v : Channel => v.folder.gate.isOpen) h :)⟩
  exact (congrArg (fun v : Channel => v.trg.st) h :).trans hst

/-- What is the channel's own, whatever record it opens. -/
def ownOf (x : Channel) : Bool × Instant × Option Instant × Option Instant × ChanCfg :=
  (x.armed, x.armAt, x.heldRearm, x.formeRearm, x.cfg)

theorem ownOf_opening (x : Channel) : ownOf x.opening = ownOf x := rfl
theorem ownOf_sansLanes (x : Channel) : ownOf x.sansLanes = ownOf x := rfl
theorem ownOf_opensAs (x : Channel) (fo : Nat) (o base a shift : Int) (pl : Placement) (p : RecPlace) :
    ownOf (x.opensAs fo o base a shift pl p) = ownOf x := by
  unfold Channel.opensAs Channel.rawOpenStates Channel.modF Channel.modRec Channel.recOpened ownOf
  rfl

theorem opened_own {z w y : Channel} {fo : Nat} {o base a shift : Int} {pl : Placement} {p : RecPlace}
    (h : z.opening = (w.opensAs fo o base a shift pl p).opening) (hw : w.sansLanes = y.sansLanes) : ownOf z = ownOf y := by
  rw [← ownOf_opening z, h, ownOf_opening, ownOf_opensAs, ← ownOf_sansLanes w, hw, ownOf_sansLanes]

/-- Settles O20, by `State.rearm_spec` for the channel with its own wait cleared. -/
theorem rearmOpensRecord : Obligations.RearmOpensRecord := by
  intro s c t0 p x at_ o hon hbound htrim hopen hp i hi
  obtain ⟨y, hy, hrcd, hcfg⟩ := rearm_exec hon hbound htrim hp hi
  obtain ⟨w, pl, hw, hop, hfo, hnow, hmem, hclosed⟩ :=
    s.rearm_spec c y (s.span.next (t0 + 1)) at_ p (by rw [hrcd]; exact hopen) (by rw [hcfg]; exact hp)
  rw [hcfg] at hop hfo
  have hcount : w.recCount = 0 := (congrArg (fun v : Channel => v.recCount) hw :)
  have hown := (opened_own hop hw).trans (show ownOf (y.armUnits at_).firstReady = (true, at_, none, none, y.cfg) from rfl)
  obtain ⟨harmed, hown⟩ := Prod.mk.inj hown
  obtain ⟨harmAt, hown⟩ := Prod.mk.inj hown
  obtain ⟨hheld, hown⟩ := Prod.mk.inj hown
  obtain ⟨hforme, hcfg'⟩ := Prod.mk.inj hown
  obtain ⟨⟨h1, h2, h3, h4, h5, h6, h7, h8, h9, h10⟩, ⟨h11, h12, h13⟩, h14, h15, h16⟩ := opened_fields hop
  rw [hcount] at h3 h10
  refine ⟨_, hy, hnow, harmed, harmAt, hheld, hforme, h1, h2, h3, h4, h5, h6, h7, h8, h10, h11, h12, h13, h14, h15, h16,
    hcfg'.trans hcfg, h9, ?_, fun f hf => ?_, hmem, hclosed⟩
  · exact (congrArg (fun l => sget Folio.free l (s.freeFolio x.cfg)) hfo).trans
      (sget_sset_of_ne _ _ (openFolio_ne_free c p 0))
  · exact (congrArg (fun l => sget Folio.free l f) hfo).trans (sget_sset_ne _ _ _ _ hf)

end Sys2Proof.Proofs
end

section
/-! SUPPORT. The vault's request table as ports see it (R389, R392): what asking for an access leaves, and the bursts of a group of
words (R391). -/

namespace Sys2Proof.Machine

open Sys2Proof.Safety

/-! ## Asking for accesses -/

/-- A request but for when it is presented. -/
def Req.core (r : Req) : Req := { r with presented := false, accepted := 0 }

def State.cores (s : State) : List Req := s.vlt.reqs.map Req.core

/-- Two states that differ in the vault only. -/
def VaultOnly (s t : State) : Prop := t = { s with vlt := t.vlt }

theorem VaultOnly.refl (s : State) : VaultOnly s s := rfl
theorem VaultOnly.trans {s t u : State} (h : VaultOnly s t) (g : VaultOnly t u) : VaultOnly s u := by
  unfold VaultOnly at *; rw [g, h]

/-- Waiting requests that are presented are the same requests. -/
theorem State.presentAll_spec (s : State) (v : Nat) :
    VaultOnly s (s.presentAll v) ∧ (s.presentAll v).cores = s.cores ∧ (s.presentAll v).vlt.nextId = s.vlt.nextId := by
  have hfold : ∀ (l : List Req) (f : List Req × List Nat × Bool → Req → List Req × List Nat × Bool),
      (∀ acc r, (f acc r).1.map Req.core = acc.1.map Req.core ++ [r.core]) → ∀ acc,
      (l.foldl f acc).1.map Req.core = acc.1.map Req.core ++ l.map Req.core := by
    intro l f hf
    induction l with
    | nil => intro acc; simp
    | cons r l ih => intro acc; rw [List.foldl_cons, ih, hf, List.append_assoc]; rfl
  have hwake : ∀ (z : State) (n : Nat), VaultOnly z ((z.wakeVault (s.vcAt n)).idleRestart) ∧
      ((z.wakeVault (s.vcAt n)).idleRestart).vlt.reqs = z.vlt.reqs ∧
      ((z.wakeVault (s.vcAt n)).idleRestart).vlt.nextId = z.vlt.nextId := by
    intro z n
    unfold State.wakeVault State.idleRestart
    split <;> exact ⟨rfl, rfl, rfl⟩
  unfold State.presentAll
  split
  · exact ⟨rfl, rfl, rfl⟩
  · split
    next l shut woke hl =>
      have hcores : l.map Req.core = s.vlt.reqs.map Req.core := by
        refine (congrArg (fun q => q.1.map Req.core) hl.symm).trans ((hfold _ _ (fun acc r => ?_) _).trans (List.nil_append _))
        obtain ⟨out, shut, woke⟩ := acc
        dsimp only
        split
        · rw [List.map_append]; rfl
        · split <;> (rw [List.map_append]; rfl)
      dsimp only
      split
      · obtain ⟨hv, hreqs, hid⟩ := hwake
          (Vault.mod s fun w => { w with reqs := l, poolMin := min w.poolMin (poolFree w l) }) v
        exact ⟨VaultOnly.trans (t := Vault.mod s _) rfl hv, (congrArg (List.map Req.core) hreqs).trans hcores, hid⟩
      · exact ⟨rfl, hcores, rfl⟩

/-- The request that `addReq` puts at the end of the table. -/
def newReq (id port : Nat) (kind : ReqKind) (burst : Nat) (data : List (Bool × Qword)) (hint : Bool) : Req :=
  { id := id, port := port, kind := kind, pc := gPc (2 * burst), bank := gBank (2 * burst), row := gRow (2 * burst)
    burst := burst, data := data, accepted := 0, promoted := false, hint := hint, issued := false, gotRead := false
    presented := false, only := none }

/-- Asking for an access adds a request, or completes a pending one of the same burst. -/
theorem State.submit_spec (s : State) (v port : Nat) (kind : ReqKind) (burst : Nat) (data : List (Bool × Qword)) (hint : Bool) :
    VaultOnly s (s.submit v port kind burst data hint) ∧
    ((s.mergeable kind burst data = none ∧
        (s.submit v port kind burst data hint).cores = s.cores ++ [newReq s.vlt.nextId port kind burst data hint] ∧
        (s.submit v port kind burst data hint).vlt.nextId = s.vlt.nextId + 1) ∨
      ∃ id both, s.mergeable kind burst data = some (id, both) ∧
        (s.submit v port kind burst data hint).cores =
          s.cores.map (fun r => if r.id = id then { r with kind := .writeBurst, data := both } else r) ∧
        (s.submit v port kind burst data hint).vlt.nextId = s.vlt.nextId) := by
  unfold State.submit
  dsimp only
  cases hm : s.mergeable kind burst data with
  | none =>
    let r : Req := { newReq s.vlt.nextId port kind burst data hint with accepted := v }
    let z : State := Vault.mod s fun w => { w with nextId := w.nextId + 1, reqs := w.reqs ++ [r] }
    obtain ⟨hv, hc, hid⟩ := State.presentAll_spec z v
    refine ⟨VaultOnly.trans (t := z) rfl hv, .inl ⟨rfl, hc.trans ?_, hid⟩⟩
    exact List.map_append
  | some p =>
    refine ⟨rfl, .inr ⟨_, _, rfl, ?_, rfl⟩⟩
    change (s.vlt.reqs.map _).map Req.core = (s.vlt.reqs.map Req.core).map _
    rw [List.map_map, List.map_map]
    refine List.map_congr_left fun r _ => ?_
    simp only [Function.comp]
    by_cases h : r.id = p.1
    · rw [if_pos h, if_pos (show r.core.id = p.1 from h)]; rfl
    · rw [if_neg h, if_neg (show ¬ r.core.id = p.1 from h)]

/-- A pending write of one codeword that a write of the other half of its burst completes. -/
theorem State.mergeable_some {s : State} {kind : ReqKind} {burst id : Nat} {data both : List (Bool × Qword)}
    (h : s.mergeable kind burst data = some (id, both)) :
    kind = .rmw ∧ ∃ r ∈ s.cores, r.id = id ∧ r.burst = burst ∧ ∃ d n, data = [n] ∧ both = [d, n] := by
  unfold State.mergeable at h
  split at h
  next n r hr =>
    split at h
    next d hd =>
      split at h
      · cases h
      · cases h
        have hmem := List.mem_of_getLast? hr
        rw [List.mem_filter, Bool.and_eq_true, beq_iff_eq] at hmem
        exact ⟨rfl, r.core, List.mem_map.2 ⟨r, hmem.1, rfl⟩, rfl, hmem.2.1, d, n, rfl, rfl⟩
    next => cases h
  next => cases h

/-! ## Bursts in the order of their words -/

/-- Bursts asked for one by one. -/
def State.submitAll (s : State) (v k : Nat) (l : List (BurstData × Bool)) : State :=
  l.foldl (fun z b => z.submit v k (if b.1.2.length = 2 then .writeBurst else .rmw) b.1.1 b.1.2 b.2) s

theorem State.presentBursts_eq (s : State) (k : Pier) (l : List BurstData) :
    s.presentBursts k l = s.submitAll (s.presentVc k) k.val (withHints l) := rfl

theorem withHints_fst (l : List BurstData) : (withHints l).map (·.1) = l := by
  induction l with
  | nil => rfl
  | cons b l ih => exact congrArg (b :: ·) ih

section SubmitAll
variable (v k : Nat)

theorem State.submitAll_vaultOnly (l : List (BurstData × Bool)) (s : State) : VaultOnly s (s.submitAll v k l) := by
  induction l generalizing s with
  | nil => rfl
  | cons b l ih => exact (s.submit_spec v k _ b.1.1 b.1.2 b.2).1.trans (ih _)

/-- Complete bursts are requests of their own. -/
theorem State.submitAll_complete (l : List (BurstData × Bool)) (hl : ∀ b ∈ l, b.1.2.length = 2) (s : State) :
    (∀ r ∈ s.cores, r ∈ (s.submitAll v k l).cores) ∧
    ∀ b ∈ l, ∃ r ∈ (s.submitAll v k l).cores, r.port = k ∧ r.kind = .writeBurst ∧ r.burst = b.1.1 ∧ r.data = b.1.2 := by
  induction l generalizing s with
  | nil => exact ⟨fun _ h => h, fun b hb => absurd hb List.not_mem_nil⟩
  | cons b l ih =>
    have hb := hl b List.mem_cons_self
    have hspec := (s.submit_spec v k (if b.1.2.length = 2 then .writeBurst else .rmw) b.1.1 b.1.2 b.2).2
    rw [if_pos hb] at hspec
    obtain ⟨hold, hnew⟩ := ih (fun c hc => hl c (List.mem_cons_of_mem _ hc))
      (s.submit v k (if b.1.2.length = 2 then .writeBurst else .rmw) b.1.1 b.1.2 b.2)
    have hcores : (s.submit v k (if b.1.2.length = 2 then .writeBurst else .rmw) b.1.1 b.1.2 b.2).cores =
        s.cores ++ [newReq s.vlt.nextId k .writeBurst b.1.1 b.1.2 b.2] := by
      rw [if_pos hb]
      rcases hspec with ⟨-, hc, -⟩ | ⟨id, both, hm, -⟩
      · exact hc
      · exact absurd (State.mergeable_some hm).1 (by decide)
    refine ⟨fun r hr => hold r (hcores ▸ List.mem_append_left _ hr), fun c hc => ?_⟩
    rcases List.mem_cons.1 hc with rfl | hc
    · exact ⟨_, hold _ (hcores ▸ List.mem_append_right _ List.mem_cons_self), rfl, rfl, rfl, rfl⟩
    · exact hnew c hc

/-- Every request comes from port `k`, and each has its own number, below the next one. -/
structure OwnReqs (s : State) : Prop where
  port : ∀ r ∈ s.cores, r.port = k
  below : ∀ r ∈ s.cores, r.id < s.vlt.nextId
  nodup : (s.cores.map (·.id)).Nodup

theorem OwnReqs.submit {k : Nat} {s : State} (h : OwnReqs k s) (kind : ReqKind) (burst : Nat) (data : List (Bool × Qword))
    (hint : Bool) : OwnReqs k (s.submit v k kind burst data hint) := by
  rcases (s.submit_spec v k kind burst data hint).2 with ⟨-, hc, hid⟩ | ⟨id, both, -, hc, hid⟩
  · refine ⟨fun r hr => ?_, fun r hr => ?_, ?_⟩
    · rw [hc, List.mem_append, List.mem_singleton] at hr
      exact hr.elim (h.port r) fun h => h ▸ rfl
    · rw [hc, List.mem_append, List.mem_singleton] at hr
      rw [hid]
      exact hr.elim (fun hr => Nat.lt_succ_of_lt (h.below r hr)) fun h => h ▸ Nat.lt_succ_self _
    · rw [hc, List.map_append, List.nodup_append]
      refine ⟨h.nodup, List.nodup_singleton _, fun a ha b hb => ?_⟩
      obtain ⟨r, hr, rfl⟩ := List.mem_map.1 ha
      rw [List.map_singleton, List.mem_singleton] at hb
      exact hb ▸ Nat.ne_of_lt (h.below r hr)
  · have hkeep : ∀ r : Req, (if r.id = id then { r with kind := .writeBurst, data := both } else r).id = r.id ∧
        (if r.id = id then { r with kind := .writeBurst, data := both } else r).port = r.port := by
      intro r; split <;> exact ⟨rfl, rfl⟩
    refine ⟨fun r hr => ?_, fun r hr => ?_, ?_⟩
    · rw [hc] at hr
      obtain ⟨q, hq, rfl⟩ := List.mem_map.1 hr
      rw [(hkeep q).2]; exact h.port q hq
    · rw [hc] at hr
      obtain ⟨q, hq, rfl⟩ := List.mem_map.1 hr
      rw [(hkeep q).1, hid]; exact h.below q hq
    · rw [hc, List.map_map]
      exact (List.map_congr_left fun r _ => (hkeep r).1) ▸ h.nodup

/-- A datum is on its way to a burst. -/
def Asked (s : State) (burst : Nat) (d : Bool × Qword) : Prop := ∃ r ∈ s.cores, r.burst = burst ∧ d ∈ r.data

/-- Accesses to other bursts leave a datum on its way. -/
theorem Asked.submit {s : State} {burst : Nat} {d : Bool × Qword} (h : Asked s burst d) (hown : OwnReqs k s) (kind : ReqKind)
    (b : Nat) (data : List (Bool × Qword)) (hint : Bool) (hb : b ≠ burst) : Asked (s.submit v k kind b data hint) burst d := by
  obtain ⟨r, hr, hrb, hd⟩ := h
  rcases (s.submit_spec v k kind b data hint).2 with ⟨-, hc, -⟩ | ⟨id, both, hm, hc, -⟩
  · exact ⟨r, hc ▸ List.mem_append_left _ hr, hrb, hd⟩
  · obtain ⟨-, q, hq, hqid, hqb, -⟩ := State.mergeable_some hm
    have hne : r.id ≠ id := by
      rintro h
      have : r = q := List.inj_on_of_nodup_map hown.nodup hr hq (h.trans hqid.symm)
      exact hb (hqb ▸ this ▸ hrb)
    refine ⟨r, ?_, hrb, hd⟩
    rw [hc]
    exact List.mem_map.2 ⟨r, hr, if_neg hne⟩

/-- A burst that is asked for carries its data. -/
theorem asked_submit {s : State} (kind : ReqKind) (b : Nat) (data : List (Bool × Qword)) (hint : Bool) :
    ∀ d ∈ data, Asked (s.submit v k kind b data hint) b d := by
  intro d hd
  rcases (s.submit_spec v k kind b data hint).2 with ⟨-, hc, -⟩ | ⟨id, both, hm, hc, -⟩
  · exact ⟨_, hc ▸ List.mem_append_right _ List.mem_cons_self, rfl, hd⟩
  · obtain ⟨-, q, hq, hqid, hqb, e, n, rfl, rfl⟩ := State.mergeable_some hm
    refine ⟨{ q with kind := .writeBurst, data := [e, n] }, ?_, hqb, ?_⟩
    · rw [hc]
      exact List.mem_map.2 ⟨q, hq, if_pos hqid⟩
    · exact List.mem_cons_of_mem _ hd

/-- Of bursts asked for one by one, one that no later one repeats carries its data. -/
theorem State.submitAll_asked (l : List (BurstData × Bool)) (s : State) (hown : OwnReqs k s) :
    OwnReqs k (s.submitAll v k l) ∧
    (∀ b d, Asked s b d → (∀ c ∈ l, c.1.1 ≠ b) → Asked (s.submitAll v k l) b d) := by
  induction l generalizing s with
  | nil => exact ⟨hown, fun _ _ h _ => h⟩
  | cons c l ih =>
    obtain ⟨hown', hasked⟩ := ih (s.submit v k (if c.1.2.length = 2 then .writeBurst else .rmw) c.1.1 c.1.2 c.2)
      (hown.submit v _ _ _ _)
    exact ⟨hown', fun b d h hl => hasked b d (h.submit v k hown _ _ _ _ (hl c List.mem_cons_self))
      fun e he => hl e (List.mem_cons_of_mem _ he)⟩

theorem State.submitAll_append (l m : List (BurstData × Bool)) (s : State) :
    s.submitAll v k (l ++ m) = (s.submitAll v k l).submitAll v k m := List.foldl_append

end SubmitAll

/-! ## Bursts of a group of words -/

theorem intoBurst_keys (l : List BurstData) (w : BufWord) :
    (intoBurst l w).map (·.1) = if w.g / 2 ∈ l.map (·.1) then l.map (·.1) else l.map (·.1) ++ [w.g / 2] := by
  unfold intoBurst
  dsimp only
  by_cases h : l.any (·.1 == w.g / 2) = true
  · have hmem : w.g / 2 ∈ l.map (·.1) := by
      obtain ⟨b, hb, hk⟩ := List.any_eq_true.1 h
      exact List.mem_map.2 ⟨b, hb, beq_iff_eq.1 hk⟩
    rw [if_pos h, if_pos hmem, List.map_map]
    refine List.map_congr_left fun b _ => ?_
    simp only [Function.comp]
    split
    · next hb => exact hb.symm
    · rfl
  · have hmem : w.g / 2 ∉ l.map (·.1) := by
      intro hm
      obtain ⟨b, hb, hk⟩ := List.mem_map.1 hm
      exact h (List.any_eq_true.2 ⟨b, hb, beq_iff_eq.2 hk⟩)
    rw [if_neg h, if_neg hmem, List.map_append]
    rfl

/-- No burst stands twice. -/
theorem burstsOf_nodup (ws : List BufWord) : ((burstsOf ws).map (·.1)).Nodup := by
  unfold burstsOf
  generalize hl : ([] : List BurstData) = l
  have hnd : (l.map (·.1)).Nodup := hl ▸ List.nodup_nil
  clear hl
  induction ws generalizing l with
  | nil => exact hnd
  | cons w ws ih =>
    refine ih _ ?_
    rw [intoBurst_keys]
    split
    · exact hnd
    · next h => exact List.nodup_append.2 ⟨hnd, List.nodup_singleton _, fun a ha b hb => by
        rw [List.mem_singleton] at hb; exact fun hab => h (hb ▸ hab ▸ ha)⟩

/-- The last word is in its burst. -/
theorem mem_burstsOf_last (ws : List BufWord) (w : BufWord) :
    ∃ b ∈ burstsOf (ws ++ [w]), b.1 = w.g / 2 ∧ (w.g % 2 == 1, w.word) ∈ b.2 := by
  unfold burstsOf
  rw [List.foldl_append]
  change ∃ b ∈ intoBurst _ w, _
  generalize ws.foldl intoBurst [] = l
  unfold intoBurst
  dsimp only
  by_cases h : l.any (·.1 == w.g / 2) = true
  · rw [if_pos h]
    obtain ⟨b, hb, hk⟩ := List.any_eq_true.1 h
    exact ⟨_, List.mem_map.2 ⟨b, hb, if_pos (beq_iff_eq.1 hk)⟩, rfl, List.mem_append_right _ List.mem_cons_self⟩
  · rw [if_neg h]
    exact ⟨_, List.mem_append_right _ List.mem_cons_self, rfl, List.mem_cons_self⟩

end Sys2Proof.Machine
end

section
/-! SUPPORT. The galley writers' rows (R391 to R393): presenting a chunk and a record, HAND_OVER and FLUSH. -/

namespace Sys2Proof.Machine

open Sys2Proof.Safety

/-- A burst of a group that no later burst of the group repeats carries its data. -/
theorem State.submitAll_last (v k : Nat) (s : State) (hown : OwnReqs k s) {l : List (BurstData × Bool)}
    {pre post : List BurstData} {b : BurstData} (hl : l.map (·.1) = pre ++ b :: post) (hpost : ∀ c ∈ post, c.1 ≠ b.1) :
    OwnReqs k (s.submitAll v k l) ∧ ∀ d ∈ b.2, Asked (s.submitAll v k l) b.1 d := by
  obtain ⟨l1, l2, rfl, -, hl2⟩ := List.map_eq_append_iff.1 hl
  obtain ⟨c, l3, rfl, rfl, hl3⟩ := List.map_eq_cons_iff.1 hl2
  rw [State.submitAll_append]
  have hown1 := (State.submitAll_asked v k l1 s hown).1
  have hown2 := hown1.submit (if c.1.2.length = 2 then .writeBurst else .rmw) c.1.1 c.1.2 c.2 (v := v)
  obtain ⟨hown3, hasked⟩ := State.submitAll_asked v k l3 _ hown2
  refine ⟨hown3, fun d hd => hasked _ _ (asked_submit v k _ _ _ _ d hd) fun e he => ?_⟩
  exact hpost e.1 (hl3 ▸ List.mem_map.2 ⟨e, he, rfl⟩)

theorem State.mem_reqs_of_core {s : State} {q : Req} (h : q ∈ s.cores) : ∃ r ∈ s.vlt.reqs, r.core = q := by
  obtain ⟨r, hr, he⟩ := List.mem_map.1 h
  exact ⟨r, hr, he⟩

/-- Two states that differ in the vault and in the words that the writers hold. -/
def WritersOnly (s t : State) : Prop := t = { s with vlt := t.vlt, writers := t.writers }

theorem writers_set_ne (s : State) (k j : Pier) (l : List BufWord) (h : j ≠ k) : (s.writers.set k l)[j] = s.writers[j] :=
  Vector.getElem_set_ne _ _ fun he => h (Fin.ext he.symm)
theorem writers_set_self (s : State) (k : Pier) (l : List BufWord) : (s.writers.set k l)[k] = l :=
  Vector.getElem_set_self _

/-- What presenting a chunk of the words `ws` leaves: their complete bursts are requests, the other words stay. -/
def ChunkPut (t : State) (k : Pier) (ws : List BufWord) (n : Nat) : Prop :=
  t.writers[k] = ws.filter (fun w => !((completeBursts (ws.filter fun w => chunkOf w.g == n)).any fun b => b.1 == w.g / 2)) ∧
  ∀ b ∈ completeBursts (ws.filter fun w => chunkOf w.g == n),
    ∃ r ∈ t.vlt.reqs, r.port = k.val ∧ r.kind = .writeBurst ∧ r.burst = b.1 ∧ r.data = b.2

theorem State.presentChunk_spec (s : State) (k : Pier) (n : Nat) :
    WritersOnly s (s.presentChunk k n) ∧ ChunkPut (s.presentChunk k n) k s.writers[k] n ∧
    ∀ j, j ≠ k → (s.presentChunk k n).writers[j] = s.writers[j] := by
  let l := completeBursts ((s.writers[k]).filter fun w => chunkOf w.g == n)
  let z : State := { s with writers := s.writers.set k ((s.writers[k]).filter fun w => !(l.any fun b => b.1 == w.g / 2)) }
  have hz : s.presentChunk k n = z.submitAll (z.presentVc k) k.val (withHints l) := rfl
  have hv := State.submitAll_vaultOnly (z.presentVc k) k.val (withHints l) z
  have hw : (s.presentChunk k n).writers = z.writers := by
    rw [hz]; exact (congrArg State.writers (show _ = _ from hv) :)
  refine ⟨?_, ⟨?_, fun b hb => ?_⟩, fun j hj => ?_⟩
  · rw [hz]
    unfold WritersOnly
    rw [hv]
  · rw [hw]; exact writers_set_self ..
  · have hlen : ∀ c ∈ withHints l, c.1.2.length = 2 := fun c hc => by
      have hmem : c.1 ∈ l := withHints_fst l ▸ List.mem_map.2 ⟨c, hc, rfl⟩
      exact beq_iff_eq.1 (List.mem_filter.1 hmem).2
    have hb' : b ∈ (withHints l).map (·.1) := by rw [withHints_fst]; exact hb
    obtain ⟨c, hc, rfl⟩ := List.mem_map.1 hb'
    obtain ⟨q, hq, hport, hkind, hburst, hdata⟩ :=
      (State.submitAll_complete (z.presentVc k) k.val (withHints l) hlen z).2 c hc
    obtain ⟨r, hr, rfl⟩ := State.mem_reqs_of_core hq
    exact ⟨r, hz ▸ hr, hport, hkind, hburst, hdata⟩
  · rw [hw]; exact writers_set_ne _ _ _ _ hj

/-- At a boundary the channel's words leave the buffer, and with an empty table the last one is on its way. -/
theorem State.presentRecord_spec (s : State) (k : Pier) (c : Chan) (ws : List BufWord) (b : BufWord)
    (hws : s.writers[k] = ws ++ [b]) (hb : b.ch = c) (hfinal : b.final = true) :
    (∃ v w, s.presentRecord k c = { s.modChan c fun x => { x with twHeld := none } with vlt := v, writers := w }) ∧
    (s.presentRecord k c).writers[k] = ws.filter (fun w => w.ch != c) ∧
    (∀ j, j ≠ k → (s.presentRecord k c).writers[j] = s.writers[j]) ∧
    (s.vlt.reqs = [] → ∃ r ∈ (s.presentRecord k c).vlt.reqs, r.port = k.val ∧ r.burst = b.g / 2 ∧
      (b.g % 2 == 1, b.word) ∈ r.data) := by
  let mine := (s.writers[k]).filter fun w => w.ch == c
  let body := (burstsOf (mine.filter fun w => !w.final)).map (fromCopy (s.chan c).twHeld)
  let colo := burstsOf (mine.filter (·.final))
  let z : State := { s with writers := s.writers.set k ((s.writers[k]).filter fun w => w.ch != c) }.modChan c
    fun x => { x with twHeld := none }
  have hz : s.presentRecord k c = z.submitAll (z.presentVc k) k.val (withHints (body ++ colo)) := rfl
  have hv := State.submitAll_vaultOnly (z.presentVc k) k.val (withHints (body ++ colo)) z
  have hw : (s.presentRecord k c).writers = z.writers := by
    rw [hz]; exact (congrArg State.writers (show _ = _ from hv) :)
  refine ⟨⟨(s.presentRecord k c).vlt, z.writers, ?_⟩, ?_, fun j hj => ?_, fun hreqs => ?_⟩
  · rw [hz]; exact hv
  · rw [hw]
    refine (writers_set_self ..).trans ?_
    rw [hws, List.filter_append, List.filter_cons_of_neg (by rw [hb]; simp), List.filter_nil, List.append_nil]
  · rw [hw]; exact writers_set_ne _ _ _ _ hj
  · have hmine : mine.filter (·.final) = (ws.filter fun w => w.ch == c).filter (·.final) ++ [b] := by
      simp only [mine]
      rw [hws, List.filter_append, List.filter_append, List.filter_cons_of_pos (by rw [hb]; simp), List.filter_nil,
        List.filter_cons_of_pos (by exact hfinal), List.filter_nil]
    obtain ⟨d, hd, hkey, hdata⟩ := mem_burstsOf_last ((ws.filter fun w => w.ch == c).filter (·.final)) b
    obtain ⟨pre, post, hsplit⟩ := List.append_of_mem (show d ∈ colo by simp only [colo]; rw [hmine]; exact hd)
    have hnd := burstsOf_nodup (mine.filter (·.final))
    have hpost : ∀ e ∈ post, e.1 ≠ d.1 := by
      intro e he h
      rw [show burstsOf (mine.filter (·.final)) = pre ++ d :: post from hsplit, List.map_append, List.map_cons,
        List.nodup_append] at hnd
      exact (List.nodup_cons.1 hnd.2.1).1 (h ▸ List.mem_map.2 ⟨e, he, rfl⟩)
    have hown : OwnReqs k.val z := by
      have hc : z.cores = [] := congrArg (List.map Req.core) hreqs
      refine ⟨fun r hr => ?_, fun r hr => ?_, ?_⟩
      · rw [hc] at hr; cases hr
      · rw [hc] at hr; cases hr
      · rw [hc]; exact List.nodup_nil
    have hmap : (withHints (body ++ colo)).map (·.1) = (body ++ pre) ++ d :: post := by
      rw [withHints_fst, hsplit, List.append_assoc]
    obtain ⟨hown', hasked⟩ := State.submitAll_last (z.presentVc k) k.val z hown hmap hpost
    obtain ⟨q, hq, hburst, hmem⟩ := hasked _ hdata
    have hport := hown'.port q hq
    obtain ⟨r, hr, rfl⟩ := State.mem_reqs_of_core hq
    exact ⟨r, hz ▸ hr, hport, hburst.trans hkey, hmem⟩

/-! ## A pier with a channel on -/

/-- A pier with a channel on is not switched off. -/
theorem State.pierOffCheck_on {s : State} {c : Chan} (hon : s.chOn c = true) : s.pierOffCheck (pierOf c) = s := by
  have hoff : s.chansOff (pierOf c) = false := by
    refine Bool.eq_false_iff.2 fun h => ?_
    have hc := List.all_eq_true.1 h c (List.mem_filter.2 ⟨List.mem_finRange c, beq_self_eq_true _⟩)
    unfold State.chOn at hon
    rw [beq_iff_eq] at hon hc
    rw [hon] at hc
    cases hc
  unfold State.pierOffCheck
  rw [if_neg]
  rw [hoff]
  simp

/-! ## FLUSH -/

/-- Of two chunks the one whose oldest word has waited longer. -/
def olderChunk (a : Option (Nat × Nat)) (x : Nat × Nat) : Option (Nat × Nat) :=
  match a with
  | none => some x
  | some y => if x.2 < y.2 then some x else some y

theorem State.flushRow_eq (s : State) (k : Pier) :
    s.flushRow k = match (flushable s.writers[k]).foldl olderChunk none with
      | none => s
      | some (n, d) => ((s.at_ (s.dcAt (d + s.vlt.flush * 64))).presentChunk k n).pierOffCheck k := rfl

/-- The chunk whose oldest word has waited longest is found. -/
theorem oldest_flushable (l : List (Nat × Nat)) (n d : Nat) (hmem : (n, d) ∈ l) (hmin : ∀ q ∈ l, q ≠ (n, d) → d < q.2) :
    l.foldl olderChunk none = some (n, d) := by
  have hgo : ∀ (l : List (Nat × Nat)) (a : Option (Nat × Nat)), (∀ q ∈ l, q ≠ (n, d) → d < q.2) →
      (∀ y, a = some y → y ≠ (n, d) → d < y.2) → ((n, d) ∈ l ∨ a = some (n, d)) →
      l.foldl olderChunk a = some (n, d) := by
    intro l
    induction l with
    | nil => intro a _ _ h; exact h.resolve_left List.not_mem_nil
    | cons x l ih =>
      intro a hl ha h
      refine ih _ (fun q hq => hl q (List.mem_cons_of_mem _ hq)) (fun y hy hne => ?_) ?_
      · cases a with
        | none =>
          cases Option.some.inj hy
          exact hl x List.mem_cons_self hne
        | some z =>
          unfold olderChunk at hy
          dsimp only at hy
          split at hy
          · cases Option.some.inj hy
            exact hl x List.mem_cons_self hne
          · cases Option.some.inj hy
            exact ha _ rfl hne
      · rcases h with h | rfl
        · rcases List.mem_cons.1 h with rfl | h
          · right
            cases a with
            | none => rfl
            | some z =>
              unfold olderChunk
              dsimp only
              by_cases hz : z = (n, d)
              · rw [hz, if_neg (Nat.lt_irrefl _)]
              · rw [if_pos (ha z rfl hz)]
          · exact .inl h
        · right
          unfold olderChunk
          dsimp only
          by_cases hx : x = (n, d)
          · rw [hx, if_neg (Nat.lt_irrefl _)]
          · rw [if_neg (Nat.lt_asymm (hl x List.mem_cons_self hx))]
  exact hgo l none hmin (fun _ h => by cases h) (.inl hmem)

/-! ## HAND_OVER -/

/-- The word as the writer's buffer holds it. -/
def State.bufWordOf (s : State) (c : Chan) (w : OutWord) (g : Nat) : BufWord :=
  { ch := c, g := g, word := w.word, dc := s.dc (max s.now (s.dcAt (w.dc + 3))), final := w.final }

/-- The state with the word in the pier's buffer. -/
def State.wordTaken (s : State) (c : Chan) (w : OutWord) (rest : List OutWord) (g : Nat) : State :=
  { (s.at_ (s.dcAt (w.dc + 3))).setChan c { s.chan c with outq := rest } with
    writers := s.writers.set (pierOf c) (s.writers[pierOf c] ++ [s.bufWordOf c w g]) }

theorem State.handOver_room (s : State) (c : Chan) (w : OutWord) (rest : List OutWord) (g : Nat)
    (hq : (s.chan c).outq = w :: rest) (hg : w.g = some g) (hroom : s.writerRoom (pierOf c) = true) :
    s.handOver c = (if w.final then
        (if rest.any (·.final) then s.wordTaken c w rest g else (s.wordTaken c w rest g).presentRecord (pierOf c) c)
      else if (s.wordTaken c w rest g).endsChunk c g then (s.wordTaken c w rest g).presentChunk (pierOf c) (chunkOf g)
      else s.wordTaken c w rest g).pierOffCheck (pierOf c) := by
  unfold State.handOver
  dsimp only
  rw [hq]
  dsimp only
  rw [hg]
  have hroom' : (s.at_ (s.dcAt (w.dc + 3))).writerRoom (pierOf c) = true := hroom
  exact if_neg (by rw [hroom']; decide)

theorem State.chan_wordTaken (s : State) (c : Chan) (w : OutWord) (rest : List OutWord) (g : Nat) :
    (s.wordTaken c w rest g).chan c = { s.chan c with outq := rest } :=
  State.chan_setChan_self (s.at_ (s.dcAt (w.dc + 3))) c _

theorem State.endsChunk_wordTaken (s : State) (c : Chan) (w : OutWord) (rest : List OutWord) (g n : Nat) :
    (s.wordTaken c w rest g).endsChunk c n = s.endsChunk c n := by
  unfold State.endsChunk
  rw [State.chan_wordTaken]

end Sys2Proof.Machine

namespace Sys2Proof.Proofs

open Sys2Proof.Machine Sys2Proof.Safety

/-- Settles O21, by `handOver_room` with the chunk and the record presented, and by the chunk that FLUSH finds. -/
theorem galleyWriters : Obligations.GalleyWriters := by
  intro s c x k put hon
  refine ⟨fun w rest hq => ⟨fun hg => ?_, fun g hg hroom => ?_, fun g hg hroom => ?_⟩, fun n d hmem hmin => ?_⟩
  · refine ⟨_, rfl, ?_⟩
    have heq : s.handOver c = (s.at_ (s.dcAt (w.dc + 3))).setChan c { x with outq := rest } := by
      unfold State.handOver
      dsimp only
      rw [hq]
      dsimp only
      rw [hg]
    rw [heq]
    exact ⟨rfl, State.onlyChan_setChan_at .., State.chan_setChan_self ..⟩
  · refine ⟨_, rfl, ?_⟩
    have heq : ∃ stop, s.handOver c =
        (if x.merge.held || s.intakeStalled k then (s.at_ (s.dcAt (w.dc + 3))).setChan c { x with
            merge := { x.merge with held := true }, folder := { x.folder with frozen := some stop } }
          else ((s.at_ (s.dcAt (w.dc + 3))).setChan c { x with
            merge := { x.merge with held := true }, folder := { x.folder with frozen := some stop } }).raise 136 0x01) := by
      refine ⟨(s.at_ (s.dcAt (w.dc + 3))).streamTime c (s.dc (max s.now (s.dcAt (w.dc + 3)))), ?_⟩
      unfold State.handOver
      dsimp only
      rw [hq]
      dsimp only
      rw [hg]
      have hroom' : (s.at_ (s.dcAt (w.dc + 3))).writerRoom (pierOf c) = false := hroom
      exact if_pos (by rw [hroom']; decide)
    obtain ⟨stop, heq⟩ := heq
    rw [heq]
    split
    · next h =>
      refine ⟨State.onlyChanT_setChan_at .., ?_⟩
      rw [State.chan_setChan_self]
      refine ⟨rfl, rfl, rfl, fun hheld hstall => ?_⟩
      rw [hheld, hstall] at h
      cases h
    · refine ⟨State.onlyChanT_raise (State.onlyChanT_setChan_at ..) _ _, ?_⟩
      rw [State.chan_raise, State.chan_setChan_self]
      exact ⟨rfl, rfl, rfl, fun _ _ hmode => State.reported_raise _ _ _ hmode (by decide)⟩
  · intro b
    have heq := s.handOver_room c w rest g hq hg hroom
    have hws : (s.wordTaken c w rest g).writers[k] = s.writers[k] ++ [b] := writers_set_self ..
    have hother : ∀ j, j ≠ k → (s.wordTaken c w rest g).writers[j] = s.writers[j] := fun j hj => writers_set_ne _ _ _ _ hj
    have houtq : ((s.wordTaken c w rest g).chan c).outq = rest := congrArg Channel.outq (s.chan_wordTaken ..)
    have hon1 : (s.wordTaken c w rest g).chOn c = true := hon
    refine ⟨_, rfl, ?_⟩
    cases hf : w.final
    · rw [hf, if_neg Bool.false_ne_true, State.endsChunk_wordTaken] at heq
      cases he : s.endsChunk c g
      · rw [he, if_neg Bool.false_ne_true, State.pierOffCheck_on hon1] at heq
        rw [heq]
        refine ⟨rfl, houtq, hother, rfl, fun _ _ => ⟨rfl, hws, s.chan_wordTaken ..⟩, fun _ h => ?_, fun h => ?_⟩
        · cases h
        · cases h
      · obtain ⟨honly, hput, hothers⟩ := (s.wordTaken c w rest g).presentChunk_spec k (chunkOf g)
        have hon' : ((s.wordTaken c w rest g).presentChunk k (chunkOf g)).chOn c = true := by
          rw [honly]; exact hon
        rw [he, if_pos rfl, State.pierOffCheck_on hon'] at heq
        rw [heq]
        refine ⟨by rw [honly]; rfl, ?_, fun j hj => (hothers j hj).trans (hother j hj), by rw [honly]; rfl, fun _ h => ?_,
          fun _ _ => hws ▸ hput, fun h => ?_⟩
        · rw [honly]; exact houtq
        · cases h
        · cases h
    · cases hany : rest.any (·.final)
      · obtain ⟨⟨v, ws, hrec⟩, hfil, hothers, hlast⟩ :=
          (s.wordTaken c w rest g).presentRecord_spec k c _ b hws rfl hf
        have hon' : ((s.wordTaken c w rest g).presentRecord k c).chOn c = true := by
          rw [hrec]; exact hon
        rw [hf, if_pos rfl, hany, if_neg Bool.false_ne_true, State.pierOffCheck_on hon'] at heq
        rw [heq]
        refine ⟨by rw [hrec]; rfl, ?_, fun j hj => (hothers j hj).trans (hother j hj), by rw [hrec]; rfl, fun h => ?_,
          fun h => ?_, fun _ _ => ⟨hfil, hlast⟩⟩
        · rw [hrec]
          refine (congrArg Channel.outq (State.chan_setChan_self (s.wordTaken c w rest g) c _)).trans houtq
        · cases h
        · cases h
      · rw [hf, if_pos rfl, hany, if_pos rfl, State.pierOffCheck_on hon1] at heq
        rw [heq]
        refine ⟨rfl, houtq, hother, rfl, fun h => ?_, fun h => ?_, fun _ h => ?_⟩
        · cases h
        · cases h
        · cases h
  · refine ⟨_, rfl, ?_⟩
    let z := s.at_ (s.dcAt (d + fld s.vlt.cfg 0 8 * 64))
    obtain ⟨honly, hput, hothers⟩ := z.presentChunk_spec k n
    have heq : s.flushRow k = z.presentChunk k n := by
      rw [State.flushRow_eq, oldest_flushable _ n d hmem hmin]
      refine State.pierOffCheck_on (c := c) ?_
      change (z.presentChunk k n).chOn c = true
      rw [honly]; exact hon
    rw [heq]
    exact ⟨by rw [honly]; rfl, hput, hothers, by rw [honly]; rfl, by rw [honly]; rfl⟩

end Sys2Proof.Proofs
end

section
/-! SUPPORT. Issue of mailbox commands (R549, R551): every row is one write of a command; what is latched, and what acts at the
issue edge. -/

namespace Sys2Proof.Machine

open Sys2Proof.Safety

/-! ## Rows as commands -/

theorem pack_advance (n : BitVec 4) : pack 32 [(8, n.toNat), (0, 3)] = BitVec.ofNat 32 (n.toNat * 256 + 3) := by
  revert n; decide

theorem subop_advance (n : BitVec 4) : fld (BitVec.ofNat 32 (n.toNat * 256 + 3)) 0 4 = 3 := by
  revert n; decide

/-- Every mailbox row writes its command. -/
theorem exec_hostCmd {i : Instr} {h : HostCmd} (hi : hostCmd i = some h) (s : State) :
    exec i s = .next (s.command h.at_ h.opc.toNat h.tag h.arg h.buf) := by
  cases i <;> cases hi
  case advance at_ tag target key cdata =>
    exact congrArg (fun w => Host.Outcome.next (s.command at_ opLifecycle tag [w] (wordsLE 24 (octets 64 key ++ octets 32 cdata))))
      (pack_advance target)
  all_goals rfl

/-- mc from issue to completion, by opcode and SUBOP. -/
def rowTime (o sub : Nat) : Nat :=
  if o = opReadTime ∨ o = opThrottleAck then 64
  else if o = opSelectForme then 4096
  else if o = opArm ∨ o = opDisarm ∨ o = opRemap then 512
  else if o = opSetPost ∨ o = opRelease ∨ o = opCalibrate ∨ o = opStoreCal ∨ o = opShedExit ∨ o = opDiagRead ∨ o = opDiagWrite then 256
  else if o = opLifecycle then
    match sub with
    | 1 => 2048
    | 2 => 250000
    | 3 => 500000
    | 4 => 250000
    | _ => 64
  else 32

/-- The command's own time, by its row, and which rows wait for the vault. -/
theorem rowTime_hostCmd {i : Instr} {h : HostCmd} (hi : hostCmd i = some h) :
    (∀ k, h.after = some k → rowTime h.opc.toNat (fld (h.arg.getD 0 0) 0 4) = k ∧
      (h.opc.toNat == opDiagRead || h.opc.toNat == opDiagWrite) = false) ∧
    (h.after = none → (h.opc.toNat == opDiagRead || h.opc.toNat == opDiagWrite) = true) := by
  have timed : ∀ (k o sub : Nat), rowTime o sub = k → (o == opDiagRead || o == opDiagWrite) = false →
      (∀ n, some k = some n → rowTime o sub = n ∧ (o == opDiagRead || o == opDiagWrite) = false) ∧
      (some k = none → (o == opDiagRead || o == opDiagWrite) = true) := fun k o sub ht hd =>
    ⟨fun n hn => ⟨ht.trans (Option.some.inj hn), hd⟩, fun hn => nomatch hn⟩
  cases i <;> cases hi
  case advance at_ tag target key cdata =>
    exact timed _ _ _ (congrArg (rowTime opLifecycle) (subop_advance target)) rfl
  case state => exact timed _ _ _ (congrArg (rowTime opLifecycle) (show fld (0 : Word) 0 4 = 0 by decide)) rfl
  case challenge => exact timed _ _ _ (congrArg (rowTime opLifecycle) (show fld (1 : Word) 0 4 = 1 by decide)) rfl
  case respond => exact timed _ _ _ (congrArg (rowTime opLifecycle) (show fld (2 : Word) 0 4 = 2 by decide)) rfl
  case token => exact timed _ _ _ (congrArg (rowTime opLifecycle) (show fld (4 : Word) 0 4 = 4 by decide)) rfl
  case diagRead => exact ⟨fun k hk => (nomatch hk), fun _ => rfl⟩
  case diagWrite => exact ⟨fun k hk => (nomatch hk), fun _ => rfl⟩
  all_goals exact timed _ _ _ rfl rfl

/-- A command latched with a row's opcode and first argument has the row's time. -/
theorem latency_hostCmd {i : Instr} {h : HostCmd} (hi : hostCmd i = some h) {c : Cmd} (hopc : c.opc = h.opc)
    (harg : c.arg.getD 0 0 = h.arg.getD 0 0) :
    (∀ k, h.after = some k → Command.latency c = k ∧ Command.isDiag c = false) ∧
    (h.after = none → Command.isDiag c = true) := by
  have hlat : Command.latency c = rowTime h.opc.toNat (fld (h.arg.getD 0 0) 0 4) := by rw [← hopc, ← harg]; rfl
  have hdiag : Command.isDiag c = (h.opc.toNat == opDiagRead || h.opc.toNat == opDiagWrite) := by rw [← hopc]; rfl
  rw [hlat, hdiag]
  exact rowTime_hostCmd hi

/-! ## Words that overlay a register -/

theorem getD_overlay {n : Nat} (v : Vector Word n) (ws : List Word) (j : Nat) (hj : j < n) :
    (overlay v ws).toList.getD j 0 = ws.getD j v[j] := by
  unfold overlay
  rw [List.getD_eq_getElem?_getD, Vector.getElem?_toList, Vector.getElem?_eq_getElem hj, Option.getD_some,
    Vector.getElem_mapFinIdx]

/-! ## The issue edge -/

/-- The mailbox once the host has written its words. -/
def Msp.written (m : Msp) (arg buf : List Word) : Msp :=
  { m with arg := overlay (Vector.replicate 8 0) arg, buf := overlay m.buf buf, last := 0 }

/-- The state at the issue edge, with the host's words written. -/
def State.hostWrote (s : State) (t : Instant) (arg buf : List Word) : State :=
  let z := (s.at_ t).modMsp (·.written arg buf)
  z.at_ (z.mcAt z.nowMc)

/-- The command that is latched. -/
def State.latched (s : State) (t : Instant) (opc : Byte) (arg buf : List Word) : Cmd :=
  (s.hostWrote t arg buf).latch opc ((s.at_ t).nowMc)

/-- The state with a command in progress. -/
def State.inProgress (s : State) (opc tag : Byte) (c : Cmd) : State :=
  s.modMsp fun x => { x with busy := true, done := false, tag := tag, opc := opc, cmd := some c }

section Command
variable (s : State) (t : Instant) (opc : Byte) (tag : Byte) (arg buf : List Word)

theorem State.command_idle (hs : Served s) (hbusy : s.msp.busy = false) :
    s.command t opc.toNat tag arg buf = ((s.at_ t).modMsp (·.written arg buf)).issueCmd opc tag := by
  have hopc : BitVec.ofNat 8 opc.toNat = opc := by rw [BitVec.ofNat_toNat, BitVec.setWidth_eq]
  unfold State.command
  dsimp only
  rw [State.served_at t hs, hopc]
  exact (if_neg (by decide)).trans (if_neg (fun h => Bool.false_ne_true (hbusy.symm.trans h)))

theorem State.command_busy (hs : Served s) (hbusy : s.msp.busy = true) :
    s.command t opc.toNat tag arg buf =
      ((s.at_ t).modMsp fun m => { m with last := 6, errBusy := satAdd m.errBusy 1 }).raiseM 232 0x04 := by
  unfold State.command
  dsimp only
  rw [State.served_at t hs]
  exact (if_neg (by decide)).trans (if_pos hbusy)

/-- Before the firmware has started a command completes with MODE after 32 mc. -/
theorem State.issue_noFirmware (hfw : s.msp.fwup = false) :
    ∃ l, ((s.at_ t).modMsp (·.written arg buf)).issueCmd opc tag = (s.hostWrote t arg buf).inProgress opc tag
      { s.latched t opc arg buf with
        outcome := some (codeMode, l, none), doneAt := some ((s.at_ t).nowMc + 32) } := by
  unfold State.issueCmd
  dsimp only
  have h : (!((s.at_ t).modMsp (·.written arg buf)).msp.fwup) = true := congrArg (!·) hfw
  rw [if_pos h]
  exact ⟨_, rfl⟩

/-- A command that needs no request of the vault. -/
theorem State.issue_timed (hfw : s.msp.fwup = true) (hdiag : Command.isDiag (s.latched t opc arg buf) = false) :
    let c := s.latched t opc arg buf
    let z := (s.hostWrote t arg buf).inProgress opc tag
      { c with doneAt := some ((s.at_ t).nowMc + Command.latency c) }
    ((s.at_ t).modMsp (·.written arg buf)).issueCmd opc tag = if Command.badArg c then z else z.issueActs c := by
  intro c z
  unfold State.issueCmd
  dsimp only
  have h : ¬(!((s.at_ t).modMsp (·.written arg buf)).msp.fwup) = true :=
    fun h => Bool.false_ne_true ((congrArg (!·) hfw).symm.trans h)
  refine (if_neg h).trans (if_neg fun h => Bool.false_ne_true (hdiag.symm.trans h))

/-- Two states that differ in the vault and in the requests that the command in progress waits for. -/
def Requested (s u : State) : Prop :=
  ∃ v l, u = { s with
    vlt := v, msp := { s.msp with cmd := s.msp.cmd.map fun c => { c with left := c.left ++ l } } }

theorem Requested.refl (s : State) : Requested s s := by
  refine ⟨s.vlt, [], ?_⟩
  cases h : s.msp.cmd with
  | none => rw [Option.map_none, ← h]
  | some c => rw [Option.map_some, List.append_nil, ← h]

theorem Requested.trans {s u w : State} (h : Requested s u) (g : Requested u w) : Requested s w := by
  obtain ⟨v, l, rfl⟩ := h
  obtain ⟨v', l', rfl⟩ := g
  refine ⟨v', l ++ l', ?_⟩
  simp only [Option.map_map, Function.comp_def, List.append_assoc]

theorem State.diagRequest_requested (s : State) (v : Nat) (c : Cmd) (i : Nat) : Requested s (s.diagRequest v c i) := by
  have h := (State.submit_spec (s.modCmd fun c => { c with left := c.left ++ [s.vlt.nextId] }) v 13
    (if Command.op c = opDiagWrite then .codewordWrite else .codewordRead) ((Command.first c + i) / 2)
    [((Command.first c + i) % 2 == 1, Command.data c i)] false).1
  exact ⟨_, _, h⟩

theorem State.diagStart_requested (s : State) (c : Cmd) : Requested s (s.diagStart c) := by
  unfold State.diagStart
  generalize s.vc (s.clocks.vault.next s.now) = v
  generalize List.range (Command.count c) = l
  induction l generalizing s with
  | nil => exact .refl s
  | cons i l ih => exact (s.diagRequest_requested v c i).trans (ih _)

/-- A command of DIAG asks the vault, or ends with what its checks find. -/
theorem State.issue_diag (hfw : s.msp.fwup = true) (hdiag : Command.isDiag (s.latched t opc arg buf) = true) :
    ∃ v left outcome doneAt, ((s.at_ t).modMsp (·.written arg buf)).issueCmd opc tag =
      { (s.hostWrote t arg buf).inProgress opc tag
          { s.latched t opc arg buf with left := left, outcome := outcome, doneAt := doneAt } with vlt := v } := by
  have hissue : ((s.at_ t).modMsp (·.written arg buf)).issueCmd opc tag =
      let c := s.latched t opc arg buf
      let z := (s.hostWrote t arg buf).inProgress opc tag c
      if z.diagFails c = 0 then z.diagStart c
      else z.modCmd fun x => { x with
        outcome := some (z.diagFails c, [], none), doneAt := some ((s.at_ t).nowMc + 256) } := by
    unfold State.issueCmd
    dsimp only
    have h : ¬(!((s.at_ t).modMsp (·.written arg buf)).msp.fwup) = true :=
      fun h => Bool.false_ne_true ((congrArg (!·) hfw).symm.trans h)
    exact (if_neg h).trans (if_pos hdiag)
  rw [hissue]
  dsimp only
  split
  · obtain ⟨v, l, h⟩ := State.diagStart_requested ((s.hostWrote t arg buf).inProgress opc tag (s.latched t opc arg buf))
      (s.latched t opc arg buf)
    exact ⟨v, [] ++ l, none, none, h⟩
  · exact ⟨s.vlt, (s.latched t opc arg buf).left,
      some (((s.hostWrote t arg buf).inProgress opc tag (s.latched t opc arg buf)).diagFails (s.latched t opc arg buf), [], none),
      some ((s.at_ t).nowMc + 256), rfl⟩

end Command

/-- What acts at the issue edge leaves the mailbox, the channels, the galley, the placement and the fuses. -/
theorem State.issueActs_frame (s : State) (c : Cmd) :
    (s.issueActs c).now = s.now ∧ (s.issueActs c).msp = s.msp ∧ (s.issueActs c).chans = s.chans ∧
      (s.issueActs c).mem = s.mem ∧ (s.issueActs c).place = s.place ∧ (s.issueActs c).lcy.fuses = s.lcy.fuses := by
  unfold State.issueActs
  dsimp only
  split
  · unfold State.throttleAck
    dsimp only
    split
    · split
      · obtain ⟨l, h⟩ := State.raise_eq { s with thm := { s.thm with acked := true, deadline := _ } } 182 0x02
        rw [h]
        exact ⟨rfl, rfl, rfl, rfl, rfl, rfl⟩
      · exact ⟨rfl, rfl, rfl, rfl, rfl, rfl⟩
    · exact ⟨rfl, rfl, rfl, rfl, rfl, rfl⟩
  · split
    · exact ⟨rfl, rfl, rfl, rfl, rfl, rfl⟩
    · exact ⟨rfl, rfl, rfl, rfl, rfl, rfl⟩

/-- Only THROTTLE_ACK and ADVANCE act at the issue edge. -/
theorem State.issueActs_none (s : State) (c : Cmd) (hack : c.opc ≠ 0x30)
    (hadv : fld (c.arg.getD 0 0) 0 4 ≠ 3 ∨ c.opc ≠ 0x40) : s.issueActs c = s := by
  have hop : ∀ n : Byte, c.opc ≠ n → Command.op c ≠ n.toNat := fun n hn h => hn (BitVec.eq_of_toNat_eq h)
  unfold State.issueActs
  dsimp only
  rw [if_neg (show ¬ Command.op c = opThrottleAck from hop 0x30 hack), if_neg]
  rw [Bool.and_eq_true, decide_eq_true_iff, beq_iff_eq]
  rintro ⟨hlc, hsub⟩
  exact hadv.elim (fun h => h hsub) fun h => hop 0x40 h hlc

end Sys2Proof.Machine

namespace Sys2Proof.Proofs

open Sys2Proof.Machine Sys2Proof.Safety

/-- Settles O22: a row is one write of its command; the firmware, DIAG and every other command at the issue edge. -/
theorem commandsIssue : Obligations.CommandsIssue := by
  intro s i h hi hs z m
  have hexec := exec_hostCmd hi s
  have hlatchArg : ArgLatched (s.latched h.at_ h.opc h.arg h.buf) h.arg := fun j hj =>
    (getD_overlay _ _ j hj).trans (by rw [Vector.getElem_replicate])
  have hlatchBuf : BufLatched s (s.latched h.at_ h.opc h.arg h.buf) h.buf := fun j hj => getD_overlay _ _ j hj
  obtain ⟨htimed, hdiag⟩ := latency_hostCmd hi (c := s.latched h.at_ h.opc h.arg h.buf) rfl (hlatchArg 0 (by decide))
  refine ⟨fun hbusy hfw => ?_, fun hbusy hfw => ?_, fun hbusy => ?_⟩
  · rw [hexec, State.command_idle s _ _ _ _ _ hs hbusy]
    cases hafter : h.after with
    | none =>
      obtain ⟨v, left, outcome, doneAt, hissue⟩ := s.issue_diag h.at_ h.opc h.tag h.arg h.buf hfw (hdiag hafter)
      refine ⟨_, { s.latched h.at_ h.opc h.arg h.buf with left := left, outcome := outcome, doneAt := doneAt }, rfl, ?_⟩
      rw [hissue]
      exact ⟨rfl, rfl, rfl, rfl, rfl, rfl, rfl, rfl, rfl, rfl, hlatchArg, hlatchBuf, rfl, rfl, fun k hk => (nomatch hk),
        fun hk => absurd rfl hk, rfl, rfl, rfl, rfl⟩
    | some k =>
      obtain ⟨hlat, hnd⟩ := htimed k hafter
      have hissue := s.issue_timed h.at_ h.opc h.tag h.arg h.buf hfw hnd
      refine ⟨_, { s.latched h.at_ h.opc h.arg h.buf with doneAt := some (m + k) }, rfl, ?_⟩
      have hdone : ∀ j, some k = some j → some (m + k) = some (m + j) ∧ (none : Option (Byte × List Word × Option (List Word))) = none :=
        fun j hj => ⟨by rw [Option.some.inj hj], rfl⟩
      rw [hissue, hlat]
      dsimp only
      split
      · exact ⟨rfl, rfl, rfl, rfl, rfl, rfl, rfl, rfl, rfl, rfl, hlatchArg, hlatchBuf, rfl, rfl, hdone, fun _ _ _ => rfl, rfl,
          rfl, rfl, rfl⟩
      · obtain ⟨hnow, hmsp, hchans, hmem, hplace, hfuses⟩ := State.issueActs_frame
          ((s.hostWrote h.at_ h.arg h.buf).inProgress h.opc h.tag
            { s.latched h.at_ h.opc h.arg h.buf with doneAt := some (m + k) }) (s.latched h.at_ h.opc h.arg h.buf)
        refine ⟨hnow, (congrArg Msp.cmd hmsp :), (congrArg Msp.busy hmsp :), (congrArg Msp.done hmsp :),
          (congrArg Msp.tag hmsp :), (congrArg Msp.opc hmsp :), (congrArg Msp.last hmsp :), (congrArg Msp.code hmsp :),
          (congrArg Msp.resp hmsp :), rfl, hlatchArg, hlatchBuf, rfl, rfl, hdone, fun _ hack hadv => ?_, hchans, hmem, hplace,
          hfuses⟩
        rw [State.issueActs_none _ _ hack]
        · rfl
        · rw [hlatchArg 0 (by decide)]
          exact hadv
  · rw [hexec, State.command_idle s _ _ _ _ _ hs hbusy]
    obtain ⟨l, hissue⟩ := s.issue_noFirmware h.at_ h.opc h.tag h.arg h.buf hfw
    exact ⟨_, _, l, congrArg Host.Outcome.next hissue, rfl, rfl, rfl, rfl, rfl, rfl⟩
  · rw [hexec, State.command_busy s _ _ _ _ _ hs hbusy]
    obtain ⟨l, hraise⟩ := State.raiseM_eq ((s.at_ h.at_).modMsp fun m => { m with last := 6, errBusy := satAdd m.errBusy 1 })
      232 0x04
    refine ⟨_, rfl, ?_, ?_, ?_, State.reported_raiseM _ _ _ hs.1 (by decide)⟩ <;> rw [hraise] <;> rfl

end Sys2Proof.Proofs
end

section
/-! SUPPORT. An idle point and an arm as far as the rest of the machine is concerned: what is applied there reaches the channels,
domains and the NVM unit, and of other channels lanes and merges alone. -/

namespace Sys2Proof.Machine

open Sys2Proof.Safety

/-- Channels, domains, the NVM unit and the conditions on their way to the truss may differ; of channels other than `c` only
lanes and merges. -/
structure IdleFrame (c : Chan) (s t : State) : Prop where
  whole : t = { s with
    chans := t.chans, pwr := { s.pwr with doms := t.pwr.doms }, nvm := t.nvm
    truss := { s.truss with incoming := t.truss.incoming } }
  others : ∀ d, d ≠ c → (t.chan d).sansLanes = (s.chan d).sansLanes

namespace IdleFrame
variable {c : Chan} {s t u : State}

theorem refl (s : State) : IdleFrame c s s := ⟨rfl, fun _ _ => rfl⟩

theorem trans (h : IdleFrame c s t) (g : IdleFrame c t u) : IdleFrame c s u := by
  refine ⟨?_, fun d hd => (g.others d hd).trans (h.others d hd)⟩
  have hg := g.whole
  rw [h.whole] at hg
  exact hg

theorem of_nvm (h : IdleFrame c s t) (nvm : Nvm) : IdleFrame c s { t with nvm := nvm } :=
  h.trans ⟨rfl, fun _ _ => rfl⟩

theorem setChan (h : IdleFrame c s t) (x : Channel) : IdleFrame c s (t.setChan c x) :=
  h.trans ⟨rfl, fun _ hd => by rw [State.chan_setChan_ne _ _ _ _ hd]⟩

theorem modChan (h : IdleFrame c s t) (f : Channel → Channel) : IdleFrame c s (t.modChan c f) := h.setChan _

/-- A write of any channel's lanes and merge. -/
theorem modLanes (h : IdleFrame c s t) (d : Chan) {f : Channel → Channel} (hf : ∀ x, (f x).sansLanes = x.sansLanes) :
    IdleFrame c s (t.modChan d f) := by
  refine h.trans ⟨rfl, fun e _ => ?_⟩
  by_cases he : e = d
  · rw [he]
    exact (congrArg Channel.sansLanes (State.chan_setChan_self ..)).trans (hf _)
  · exact congrArg Channel.sansLanes (State.chan_setChan_ne _ _ _ _ he)

theorem raiseM (h : IdleFrame c s t) (n : Source) (b : Byte) : IdleFrame c s (t.raiseM n b) := by
  obtain ⟨l, hl⟩ := t.raiseM_eq n b
  rw [hl]
  exact h.trans ⟨rfl, fun _ _ => rfl⟩

theorem formeDone (h : IdleFrame c s t) : IdleFrame c s t.formeDone := by
  unfold State.formeDone
  split
  · exact (h.of_nvm _).raiseM _ _
  · exact h

/-- A change of the partner subscription touches lanes and merges alone. -/
theorem rePartner (h : IdleFrame c s t) (old : Option LaneIx) (at_ : Int) (idle : Bool) :
    IdleFrame c s (t.rePartner c old at_ idle) := by
  have hlane : ∀ {z : State} (i : LaneIx) (f : Channel → Lane), IdleFrame c s z →
      IdleFrame c s (z.modChan (laneChan i) fun x => x.setLane (laneIsL i) (f x)) :=
    fun i f hz => hz.modLanes _ fun x => x.sansLanes_setLane _ _
  unfold State.rePartner
  dsimp only
  split
  · exact h
  · split
    · split
      · exact hlane _ _ (hlane _ _ (h.modChan _))
      · exact hlane _ _ (h.modChan _)
    · split
      · exact hlane _ _ (h.modChan _)
      · exact h.modChan _

theorem applyForme (h : IdleFrame c s t) (at_ : Int) (idle : Bool) : IdleFrame c s (t.applyForme c at_ idle).1 := by
  unfold State.applyForme
  dsimp only
  split
  · exact h
  · split
    · exact h.setChan _
    · exact (h.setChan _).rePartner _ _ _

theorem applyPlaces (h : IdleFrame c s t) : IdleFrame c s (t.applyPlaces c) := by
  unfold State.applyPlaces
  dsimp only
  split
  · exact h
  · split
    · exact h
    · exact h.setChan _

theorem applyStaged (h : IdleFrame c s t) (at_ : Int) (idle : Bool) : IdleFrame c s (t.applyStaged c at_ idle).1 :=
  (h.applyForme at_ idle).applyPlaces.modChan fun x =>
    x.applyPost.applyTrim (((t.applyForme c at_ idle).1.applyPlaces c).bandOf c).toNat

theorem requestOff (h : IdleFrame c s t) : IdleFrame c s (t.requestOff c) := by
  unfold State.requestOff
  dsimp only
  split
  · exact (h.modChan _).trans ⟨rfl, fun _ _ => rfl⟩
  · exact h

theorem settleIdle (h : IdleFrame c s t) : IdleFrame c s (t.settleIdle c) := by
  have hstaged := h.applyStaged (lsbUp t.now) true
  unfold State.settleIdle
  dsimp only
  split
  · exact h
  · split
    · split
      · exact (hstaged.modChan _).formeDone.modChan _
      · exact (hstaged.modChan _).formeDone.requestOff
    · split
      · exact hstaged.formeDone.modChan _
      · exact hstaged.formeDone.requestOff

end IdleFrame

/-! ## The completion of a command -/

/-- What `finish` leaves of the state in which the command has acted. -/
theorem State.finish_answered {s t : State} {code : Byte} {resp : List Word} (hmode : t.pwr.mode ≠ .reset)
    (hbuf : t.msp.buf = s.msp.buf) : Answered s (t.finish (code, resp, [])) code resp := by
  have hmsp : (t.finish (code, resp, [])).msp = _ := State.raiseM_msp _ _ _
  refine ⟨by rw [hmsp]; rfl, by rw [hmsp]; rfl, by rw [hmsp]; rfl, by rw [hmsp]; rfl, fun i hi => ?_, ?_, ?_⟩
  · unfold respOf
    rw [hmsp]
    exact (getD_overlay _ _ i hi).trans (by rw [Vector.getElem_replicate])
  · rw [hmsp, ← hbuf]
    refine Vector.ext fun i hi => ?_
    exact Vector.getElem_mapFinIdx ..
  · refine State.reported_raiseM _ _ _ hmode ?_
    split <;> decide

theorem State.finish_eq (t : State) (a : Answer) : ∃ l, t.finish a = { t with
    msp := { t.msp with
      busy := false, done := true, code := a.1, resp := overlay (Vector.replicate 8 0) a.2.1, buf := overlay t.msp.buf a.2.2
      cmd := none }
    truss := { t.truss with incoming := t.truss.incoming ++ l } } := by
  obtain ⟨l, hl⟩ := State.raiseM_eq (t.modMsp fun m => { m with
    busy := false, done := true, code := a.1, resp := overlay (Vector.replicate 8 0) a.2.1, buf := overlay m.buf a.2.2
    cmd := none }) 232 (if 0x10 ≤ a.1.toNat then 0x18 else 0x08)
  exact ⟨l, hl⟩

/-- What an answer leaves of all but the mailbox and the truss. -/
theorem State.finish_onlyMailbox {s t : State} (h : OnlyMailbox s t) (a : Answer) : OnlyMailbox s (t.finish a) := by
  obtain ⟨l, hl⟩ := t.finish_eq a
  rw [hl]
  unfold OnlyMailbox at h ⊢
  rw [h]

theorem State.finish_chan (t : State) (a : Answer) (c : Chan) : (t.finish a).chan c = t.chan c := by
  obtain ⟨l, hl⟩ := t.finish_eq a
  rw [hl]
  rfl

/-- A command that is due, whose completion nothing holds up, is checked and run at its completion edge. -/
theorem State.commandComplete_run {s : State} {c : Cmd} {m : Nat} (h : CmdDue s c m)
    (hrel : ((((s.at_ (s.mcAt m)).run c).1).releasing c && ((s.at_ (s.mcAt m)).run c).2.1 == 0) = false) :
    s.commandComplete = ((s.at_ (s.mcAt m)).run c).1.finish ((s.at_ (s.mcAt m)).run c).2 := by
  obtain ⟨hcmd, hdue, hfresh, hfused, -⟩ := h
  have hfusing : s.fusing c = false := by
    unfold State.fusing
    rw [hfused]
    simp
  unfold State.commandComplete
  rw [hcmd]
  dsimp only
  rw [hdue]
  dsimp only
  rw [hfusing, if_neg Bool.false_ne_true]
  unfold State.completeAt
  dsimp only
  rw [hfresh]
  dsimp only
  rw [hrel, if_neg Bool.false_ne_true]

/-- Of the commands only RELEASE can be held up. -/
theorem State.releasing_other {s : State} {c : Cmd} (h : c.opc ≠ 0x14) : s.releasing c = false := by
  unfold State.releasing
  have hop : (Command.op c == opRelease) = false := beq_eq_false_iff_ne.2 fun he => h (BitVec.eq_of_toNat_eq he)
  rw [hop, Bool.false_and]

/-- A command that passes the checks acts. -/
theorem State.run_act {s : State} {c : Cmd} (hknown : Command.known c = true) (hbad : Command.badArg c = false)
    (hmode : Command.permitted c s.pwr.mode = true) : s.run c = s.act c := by
  unfold State.run
  rw [hknown, hbad, hmode]
  rfl

theorem Command.op_eq {c : Cmd} {n : Byte} (h : c.opc = n) : Command.op c = n.toNat := congrArg BitVec.toNat h

/-- The mask of ARG[0] to ARG[2], bit by bit. -/
theorem Command.mask_bit (c : Cmd) (n : Chan) :
    (Command.mask c).getLsbD n.val = (Command.word c (n.val / 32)).getLsbD (n.val % 32) := by
  have hn := n.isLt
  unfold Command.mask
  simp only [BitVec.getLsbD_append]
  split
  · split
    · rw [show n.val / 32 = 0 by omega, show n.val % 32 = n.val by omega]
    · rw [show n.val / 32 = 1 by omega, show n.val % 32 = n.val - 32 by omega]
  · rw [show n.val / 32 = 2 by omega, show n.val % 32 = n.val - (32 + 32) by omega]

theorem Command.chans_eq (c : Cmd) :
    Command.chans c = allChans.filter fun n => (Command.word c (n.val / 32)).getLsbD (n.val % 32) :=
  List.filter_congr fun n _ => Command.mask_bit c n

end Sys2Proof.Machine
end

section
/-! SUPPORT. ARM and DISARM over the channels of a mask, SET_POST and RELEASE (R28, R296, R304, R307, R556 to R559). -/

namespace Sys2Proof.Machine

open Sys2Proof.Safety

/-! ## ARM -/

/-- An arm reaches the channels, the folios and the vault's wake-up; of channels other than `c` lanes and merges alone. -/
structure ArmFrame (c : Chan) (s t : State) : Prop where
  whole : t = { s with chans := t.chans, folios := t.folios, vlt := t.vlt }
  others : ∀ d, d ≠ c → (t.chan d).sansLanes = (s.chan d).sansLanes

theorem State.firstRecord_frame (s : State) (c : Chan) (t : Instant) (scale : Int) :
    ArmFrame c s (s.firstRecord c t scale) ∧ Proofs.ownOf ((s.firstRecord c t scale).chan c) = Proofs.ownOf (s.chan c) := by
  cases hp : s.placeFor c (s.chan c).cfg none with
  | none =>
    have h : s.firstRecord c t scale = s := by
      unfold State.firstRecord
      dsimp only
      rw [hp]
    rw [h]
    exact ⟨⟨rfl, fun _ _ => rfl⟩, rfl⟩
  | some p =>
    obtain ⟨hframe, hchan⟩ := s.purge_lanesOnly c (lsbOf t)
    obtain ⟨w, pl, hw, hop, -⟩ := s.firstRecord_spec c t scale p hp
    refine ⟨⟨?_, fun d hd => ?_⟩, (Proofs.opened_own hop hw).trans rfl⟩
    · rw [s.firstRecord_eq c t scale p hp]
      dsimp only
      rw [State.openRecord_eq]
      unfold State.firstCleared
      rw [hframe]
      rfl
    · rw [s.firstRecord_eq c t scale p hp]
      dsimp only
      rw [State.chan_setChan_ne _ _ _ _ hd, State.openRecord_eq]
      refine (congrArg Channel.sansLanes ((State.chan_setChan_ne _ _ _ _ hd).trans (State.chan_setChan_ne _ _ _ _ hd))).trans ?_
      exact hchan d

theorem State.armAtInstant_frame (s : State) (c : Chan) (t : Instant) :
    ArmFrame c s (s.armAtInstant c t) ∧ ((s.armAtInstant c t).chan c).armed = true ∧
      ((s.armAtInstant c t).chan c).armAt = t := by
  have hwake : s.wakeVault t = { s with vlt := (s.wakeVault t).vlt } := by unfold State.wakeVault; split <;> rfl
  cases hopen : (s.chan c).rcd.isOpen with
  | true =>
    have h : s.armAtInstant c t = (s.wakeVault t).setChan c
        { (((s.wakeVault t).chan c).armUnits t) with armNext := some (t, (s.wakeVault t).tb.scale), disarmNext := none } := by
      unfold State.armAtInstant
      dsimp only
      have hopen' : ((s.wakeVault t).chan c).rcd.isOpen = true := by rw [hwake]; exact hopen
      exact if_pos hopen'
    rw [h]
    refine ⟨⟨?_, fun d hd => ?_⟩, ?_, ?_⟩
    · rw [hwake]; rfl
    · rw [State.chan_setChan_ne _ _ _ _ hd, hwake]; rfl
    · rw [State.chan_setChan_self]; rfl
    · rw [State.chan_setChan_self]; rfl
  | false =>
    rw [s.armAtInstant_first c t hopen]
    obtain ⟨⟨hwhole, hothers⟩, hown⟩ := State.firstRecord_frame
      ((s.wakeVault t).setChan c (((s.wakeVault t).chan c).armUnits t)) c t s.tb.scale
    rw [State.chan_setChan_self] at hown
    refine ⟨⟨?_, fun d hd => (hothers d hd).trans ?_⟩, (congrArg (fun q => q.1) hown :), (congrArg (fun q => q.2.1) hown :)⟩
    · rw [hwhole, hwake]; rfl
    · rw [State.chan_setChan_ne _ _ _ _ hd, hwake]; rfl

/-- The channels of a list that are not armed are armed at one instant. -/
def State.armAll (s : State) (l : List Chan) (t : Instant) : State :=
  l.foldl (fun z c => if (z.chan c).armed then z else z.armAtInstant c t) s

theorem State.armAll_spec (l : List Chan) (t : Instant) (s : State) :
    (s.armAll l t = { s with chans := (s.armAll l t).chans, folios := (s.armAll l t).folios, vlt := (s.armAll l t).vlt }) ∧
    ∀ d, (d ∉ l → ((s.armAll l t).chan d).sansLanes = (s.chan d).sansLanes) ∧
      ((s.chan d).armed = true → ((s.armAll l t).chan d).armed = true ∧ ((s.armAll l t).chan d).armAt = (s.chan d).armAt) ∧
      (d ∈ l → ((s.armAll l t).chan d).armed = true ∧ ((s.chan d).armed = false → ((s.armAll l t).chan d).armAt = t)) := by
  induction l generalizing s with
  | nil => exact ⟨rfl, fun d => ⟨fun _ => rfl, fun h => ⟨h, rfl⟩, fun h => (nomatch h)⟩⟩
  | cons c l ih =>
    have hstep : s.armAll (c :: l) t = State.armAll (if (s.chan c).armed then s else s.armAtInstant c t) l t := rfl
    rw [hstep]
    cases harm : (s.chan c).armed with
    | true =>
      rw [if_pos rfl]
      obtain ⟨hwhole, hd⟩ := ih s
      refine ⟨hwhole, fun d => ?_⟩
      obtain ⟨hout, hkeep, hin⟩ := hd d
      refine ⟨fun h => hout fun hm => h (List.mem_cons_of_mem _ hm), hkeep, fun h => ?_⟩
      rcases List.mem_cons.1 h with rfl | h
      · exact ⟨(hkeep harm).1, fun hf => absurd (harm.symm.trans hf) (by decide)⟩
      · exact hin h
    | false =>
      rw [if_neg Bool.false_ne_true]
      obtain ⟨⟨hw, hothers⟩, harmed, hat⟩ := s.armAtInstant_frame c t
      obtain ⟨hwhole, hd⟩ := ih (s.armAtInstant c t)
      refine ⟨?_, fun d => ?_⟩
      · rw [hw] at hwhole
        rw [hw]
        exact hwhole
      · obtain ⟨hout, hkeep, hin⟩ := hd d
        by_cases hdc : d = c
        · subst hdc
          refine ⟨fun h => absurd List.mem_cons_self h, fun h => absurd (harm.symm.trans h) (by decide), fun _ => ?_⟩
          exact ⟨(hkeep harmed).1, fun _ => (hkeep harmed).2.trans hat⟩
        · have hsame := hothers d hdc
          have harmd : ((s.armAtInstant c t).chan d).armed = (s.chan d).armed :=
            (congrArg (fun x : Channel => x.armed) hsame :)
          have hatd : ((s.armAtInstant c t).chan d).armAt = (s.chan d).armAt :=
            (congrArg (fun x : Channel => x.armAt) hsame :)
          rw [harmd, hatd] at hkeep
          rw [harmd] at hin
          refine ⟨fun h => (hout fun hm => h (List.mem_cons_of_mem _ hm)).trans hsame, hkeep, fun h => ?_⟩
          exact hin ((List.mem_cons.1 h).resolve_left hdc)

/-! ## DISARM -/

/-- The armed channels of a list are disarmed at one instant, the waits of the others are cancelled. -/
def State.disarmAll (s : State) (l : List Chan) (t : Instant) : State :=
  l.foldl (fun z c => if (z.chan c).armed then z.disarm c t flagDisarm else z.modChan c Channel.cancelHeld) s

/-- What a DISARM makes of a channel; `n` is the dc that the instant reaches. -/
def Channel.disarmCmd (x : Channel) (t : Instant) (n : Nat) : Channel :=
  if x.armed then x.disarmed t n flagDisarm else x.cancelHeld

theorem Channel.disarmed_heldRearm (x : Channel) (t : Instant) (n : Nat) (flags : Word) (h : x.armed = true) :
    (x.disarmed t n flags).heldRearm = none := by
  obtain ⟨_, hf⟩ := Channel.finalTrigger_eq { x with armed := false, heldRearm := none, wantRearm := false }
  unfold Channel.disarmed
  dsimp only
  rw [if_neg (by rw [h]; decide), hf]
  split
  · rfl
  · split <;> rfl

theorem Channel.disarmCmd_spec (x : Channel) (t : Instant) (n : Nat) :
    (x.disarmCmd t n).armed = false ∧ (x.disarmCmd t n).heldRearm = none ∧
    (x.armed = true → x.armNext = none → x.folder.closing = none →
      (x.disarmCmd t n).disarmAt = some t ∧ (x.disarmCmd t n).folder.byDisarm = true ∧
      (x.disarmCmd t n).folder.closing = some ((lsbOf t : Int) + x.folder.base)) := by
  unfold Channel.disarmCmd
  cases h : x.armed with
  | true =>
    rw [if_pos rfl]
    refine ⟨x.disarmed_armed t n _, x.disarmed_heldRearm t n _ h, fun _ hnext hclosing => ?_⟩
    obtain ⟨-, hfolder, hat⟩ := x.disarmed_closes t n flagDisarm h hnext hclosing
    rw [hfolder]
    exact ⟨hat, rfl, rfl⟩
  | false => exact ⟨h, rfl, fun h => (nomatch h)⟩

/-- DISARM makes of every channel of the mask what it makes of one, and leaves the others. -/
theorem State.disarmAll_spec (l : List Chan) (hl : l.Nodup) (t : Instant) (s : State) :
    (∃ chans folios tb synths vlt, s.disarmAll l t = { s with
      chans := chans, folios := folios, tb := tb, synths := synths, vlt := vlt }) ∧
    ∀ d, (s.disarmAll l t).chan d = if d ∈ l then (s.chan d).disarmCmd t (s.dcFrom t) else s.chan d := by
  induction l generalizing s with
  | nil => exact ⟨⟨s.chans, s.folios, s.tb, s.synths, s.vlt, rfl⟩, fun d => rfl⟩
  | cons c l ih =>
    obtain ⟨hc, hl⟩ := List.nodup_cons.1 hl
    let z : State := if (s.chan c).armed then s.disarm c t flagDisarm else s.modChan c Channel.cancelHeld
    have hz : (∃ chans folios tb synths vlt, z = { s with
        chans := chans, folios := folios, tb := tb, synths := synths, vlt := vlt }) ∧
        z.chan c = (s.chan c).disarmCmd t (s.dcFrom t) ∧ (∀ d, d ≠ c → z.chan d = s.chan d) := by
      simp only [z]
      unfold Channel.disarmCmd
      cases (s.chan c).armed with
      | true =>
        obtain ⟨folios, tb, synths, idle, h⟩ := s.disarm_eq c t flagDisarm
        refine ⟨⟨_, folios, tb, synths, _, h⟩, s.chan_disarm_self c t flagDisarm, fun d hd => s.chan_disarm_ne c t flagDisarm hd⟩
      | false =>
        exact ⟨⟨_, s.folios, s.tb, s.synths, s.vlt, rfl⟩, State.chan_setChan_self .., fun d hd => State.chan_setChan_ne _ _ _ _ hd⟩
    obtain ⟨⟨ch, fo, tb, sy, vl, hw⟩, hself, hothers⟩ := hz
    obtain ⟨⟨ch', fo', tb', sy', vl', hw'⟩, hd⟩ := ih hl z
    have hstep : s.disarmAll (c :: l) t = z.disarmAll l t := rfl
    have hdc : z.dcFrom t = s.dcFrom t := by rw [hw]; rfl
    rw [hstep]
    refine ⟨⟨ch', fo', tb', sy', vl', by rw [hw', hw]⟩, fun d => ?_⟩
    rw [hd d, hdc]
    by_cases hdc' : d = c
    · subst hdc'
      rw [if_neg hc, if_pos List.mem_cons_self, hself]
    · rw [hothers d hdc']
      simp only [List.mem_cons, hdc', false_or]

/-- An armed channel is at no idle point. -/
theorem State.settleIdle_armed {s : State} {c : Chan} (h : (s.chan c).armed = true) : s.settleIdle c = s := by
  unfold State.settleIdle
  dsimp only
  exact if_pos (by rw [h]; rfl)

/-! ## RELEASE -/

theorem pack_folio (ch : BitVec 7) (st : BitVec 2) :
    pack 32 [(2, ch.toNat), (0, st.toNat)] = BitVec.ofNat 32 (ch.toNat * 4 + st.toNat) := by
  revert ch st; decide

theorem RingSt.settle_delivery (q : RingSt) (t : Instant) : (q.settle t).delivery = q.delivery := by
  unfold RingSt.settle
  split
  · split <;> rfl
  · split
    · rfl
    · split <;> rfl

theorem State.modRing_deliveries (s : State) (r : Ring) {f : RingSt → RingSt} (hf : ∀ q, (f q).delivery = q.delivery) (k : Ring) :
    ((s.modRing r f).ring k).delivery = (s.ring k).delivery := by
  by_cases hk : k = r
  · rw [hk]
    exact (congrArg RingSt.delivery (State.ring_setRing_self ..)).trans (hf _)
  · exact congrArg RingSt.delivery (State.ring_setRing_ne _ _ _ _ hk)

theorem State.delivering_congr {s t : State} (h : ∀ k, (t.ring k).delivery = (s.ring k).delivery) (f : Nat) :
    t.delivering f = s.delivering f := by
  unfold State.delivering
  simp only [h]

theorem IdleFrame.askRearm {c : Chan} {s t : State} (h : IdleFrame c s t) (u : Instant) : IdleFrame c s (t.askRearm c u) := by
  unfold State.askRearm
  dsimp only
  split
  · exact h.setChan _
  · exact h

/-- The folio of a closed record is freed, the record forgotten; galley, clock and deliveries stand. -/
theorem State.freeRecord_spec (s : State) (f : Nat) (t : Instant) (r : Closed) (hr : s.closedRecOf f = some r) :
    (s.freeRecord f t).folios = sset Folio.free s.folios f Folio.free ∧
    (s.freeRecord f t).closed = s.closed.filter (fun x => x.folio != f) ∧
    (s.freeRecord f t).mem = s.mem ∧ (s.freeRecord f t).now = s.now ∧ (s.freeRecord f t).msp = s.msp ∧
    (s.freeRecord f t).pwr.mode = s.pwr.mode ∧
    ∀ k, ((s.freeRecord f t).ring k).delivery = (s.ring k).delivery := by
  let s1 : State := { s with closed := s.closed.filter fun x => x.folio != f }.setFolio f Folio.free
  let s2 := s1.modRing r.ring fun q => { q with queue := q.queue.filter (· != f) }.settle t
  have hfree : s.freeRecord f t = ((s2.askRearm r.ch t).settleIdle r.ch).idleRestart := by
    unfold State.freeRecord
    rw [hr]
  have hframe : IdleFrame r.ch s2 ((s2.askRearm r.ch t).settleIdle r.ch) := ((IdleFrame.refl s2).askRearm t).settleIdle
  rw [hfree]
  unfold State.idleRestart
  rw [hframe.whole]
  exact ⟨rfl, rfl, rfl, rfl, rfl, rfl, s1.modRing_deliveries _ (f := fun q => { q with queue := q.queue.filter (· != f) }.settle t) fun q => RingSt.settle_delivery _ _⟩

/-! ## Completion of a command that acts -/

/-- A command that is due and passes the checks acts at its completion edge and answers. -/
theorem State.commandComplete_act {s : State} {c : Cmd} {m : Nat} (h : CmdDue s c m) (hknown : Command.known c = true)
    (hbad : Command.badArg c = false) (hmode : Command.permitted c s.pwr.mode = true)
    (hrel : ((((s.at_ (s.mcAt m)).act c).1).releasing c && ((s.at_ (s.mcAt m)).act c).2.1 == 0) = false) :
    s.commandComplete = ((s.at_ (s.mcAt m)).act c).1.finish ((s.at_ (s.mcAt m)).act c).2 := by
  have hrun := State.run_act (s := s.at_ (s.mcAt m)) hknown hbad hmode
  rw [← hrun] at hrel ⊢
  exact State.commandComplete_run h hrel

/-- The same for all but RELEASE, which can be held up. -/
theorem State.commandComplete_other {s : State} {c : Cmd} {m : Nat} (h : CmdDue s c m) (hknown : Command.known c = true)
    (hbad : Command.badArg c = false) (hmode : Command.permitted c s.pwr.mode = true) (hop : c.opc ≠ 0x14) :
    s.commandComplete = ((s.at_ (s.mcAt m)).act c).1.finish ((s.at_ (s.mcAt m)).act c).2 :=
  State.commandComplete_act h hknown hbad hmode (by rw [State.releasing_other hop, Bool.false_and])

/-- The commands of the record mode are permitted in RUN and SHED. -/
theorem Command.permitted_run {c : Cmd} {m : Mode} (h : m = .run ∨ m = .shed) (hop : Command.op c ≠ opShedExit) :
    Command.permitted c m = true := by
  unfold Command.permitted
  dsimp only
  rw [if_neg hop]
  rcases h with rfl | rfl
  all_goals split
  · rfl
  · split <;> rfl
  · rfl
  · split <;> rfl

end Sys2Proof.Machine

namespace Sys2Proof.Proofs

open Sys2Proof.Machine Sys2Proof.Safety

/-! ## ARM, DISARM, SET_POST and RELEASE answer -/

theorem onlyMailbox_at (s : State) (t : Instant) : OnlyMailbox s (s.at_ t) := rfl
theorem onlyMailbox_drawn (s : State) (t : Instant) : OnlyMailbox s (s.at_ t).drawn := rfl

/-- The rows of `complete_run`: each has an opcode of Table 16.3, and is neither SHED_EXIT nor RELEASE. -/
theorem row_checks : ∀ n ∈ ([0x10, 0x11, 0x12, 0x13, 0x15, 0x20, 0x21, 0x30, 0x40] : List Byte),
    [opNop, opReadTime, opSelectForme, opArm, opDisarm, opSetPost, opRelease, opRemap, opCalibrate, opStoreCal, opThrottleAck,
      opShedExit, opLifecycle, opDiagRead, opDiagWrite].contains n.toNat = true ∧ n.toNat ≠ opShedExit ∧ n ≠ 0x14 := by
  decide

section
variable {s : State} {c : Cmd} {m : Nat}

/-- A command that is due, of a row of Table 16.3 that RUN and SHED permit, acts and answers. -/
theorem complete_run {n : Byte} (h : CmdDue s c m) (hbad : Command.badArg c = false) (hmode : s.pwr.mode = .run ∨ s.pwr.mode = .shed)
    (hop : c.opc = n) (hn : n ∈ [0x10, 0x11, 0x12, 0x13, 0x15, 0x20, 0x21, 0x30, 0x40]) :
    exec .commandComplete s = .next (((s.at_ (s.mcAt m)).act c).1.finish ((s.at_ (s.mcAt m)).act c).2) := by
  have hnum : Command.op c = n.toNat := Command.op_eq hop
  obtain ⟨hknown, hshed, hrel⟩ := row_checks n hn
  rw [← hnum] at hknown hshed
  rw [← hop] at hrel
  exact congrArg Host.Outcome.next (State.commandComplete_other h hknown hbad (Command.permitted_run hmode hshed) hrel)

end

/-- The lowest channel of a mask with an answer. -/
theorem findSome?_lowest {α : Type} {f : Chan → Option α} {l : List Chan} (hl : l.Pairwise (· < ·)) {n : Chan} {e : α}
    (hn : n ∈ l) (he : f n = some e) (hfirst : ∀ k ∈ l, k < n → f k = none) : l.findSome? f = some e := by
  induction l with
  | nil => cases hn
  | cons a l ih =>
    obtain ⟨ha, hl⟩ := List.pairwise_cons.1 hl
    rcases List.mem_cons.1 hn with rfl | hn
    · rw [List.findSome?_cons, he]
    · rw [List.findSome?_cons, hfirst a List.mem_cons_self (ha n hn)]
      exact ih hl hn fun k hk => hfirst k (List.mem_cons_of_mem _ hk)

theorem chans_sorted (p : Chan → Bool) : (allChans.filter p).Pairwise (· < ·) := by
  refine List.Pairwise.filter p ?_
  decide

/-- Settles O24: each command acts at its completion edge by its own fold over the mask, and the answer is put on top. -/
theorem captureCommands : Obligations.CaptureCommands := by
  intro s c m hdue hbad hmode z at_ stamp l
  have hl : Command.chans c = l := Command.chans_eq c
  have hmode' : z.pwr.mode ≠ .reset := hdue.mode
  have hsorted : l.Pairwise (· < ·) := chans_sorted _
  have hnodup : l.Nodup := hsorted.imp fun h => ne_of_lt h
  refine ⟨fun hop hok => ?_, fun n e hop hn he hfirst => ?_, fun hop => ?_, fun n hop hn => ?_, fun f hop hf hdel => ?_⟩
  · have hexec := complete_run hdue hbad hmode hop (by decide)
    have hact : z.act c = (z.armAll l at_, (0, stamp ++ [0x7F, BitVec.ofNat 32 (l.countP fun n => (s.chan n).armed)], [])) := by
      have h : z.act c = z.cmdArm l := by rw [← hl]; unfold State.act; rw [Command.op_eq hop]; rfl
      have hnone : (l.findSome? fun c => (z.armFails c).map fun e => (c, e)) = none :=
        List.findSome?_eq_none_iff.2 fun k hk => by rw [show z.armFails k = none from hok k hk]; rfl
      rw [h]
      unfold State.cmdArm
      dsimp only
      rw [hnone]
      rfl
    obtain ⟨hwhole, hd⟩ := State.armAll_spec l at_ z
    obtain ⟨i, hfin⟩ := (z.armAll l at_).finish_eq (0, stamp ++ [0x7F, BitVec.ofNat 32 (l.countP fun n => (s.chan n).armed)], [])
    refine ⟨_, hexec, ?_, ?_, fun n hn => ?_, fun n hn => ?_, ?_⟩
    all_goals rw [show (s.at_ (s.mcAt m)).act c = _ from hact]
    · rw [hfin, hwhole]
    · exact State.finish_answered (by rw [hwhole]; exact hmode') (by rw [hwhole]; rfl)
    · rw [State.finish_chan]
      exact (hd n).2.2 hn
    · rw [State.finish_chan]
      exact ⟨(congrArg (fun x : Channel => x.armed) ((hd n).1 hn) :), (congrArg (fun x : Channel => x.rcd) ((hd n).1 hn) :)⟩
    · rw [hfin, hwhole]
      exact ⟨rfl, rfl⟩
  · have hexec := complete_run hdue hbad hmode hop (by decide)
    have hact : ∃ r0 r1, z.act c = (z.drawn, (e, [r0, r1, BitVec.ofNat 32 n.val,
        BitVec.ofNat 32 (l.countP fun n => (s.chan n).armed)], [])) := by
      have h : z.act c = z.cmdArm l := by rw [← hl]; unfold State.act; rw [Command.op_eq hop]; rfl
      have hsome : (l.findSome? fun c => (z.armFails c).map fun e => (c, e)) = some (n, e) :=
        findSome?_lowest hsorted hn (by rw [show z.armFails n = some e from he]; rfl) fun k hk hlt => by
          rw [show z.armFails k = none from hfirst k hk hlt]; rfl
      rw [h]
      unfold State.cmdArm
      dsimp only
      rw [hsome]
      exact ⟨_, _, rfl⟩
    obtain ⟨r0, r1, hact⟩ := hact
    refine ⟨_, r0, r1, hexec, ?_, ?_⟩
    all_goals rw [show (s.at_ (s.mcAt m)).act c = _ from hact]
    · exact State.finish_onlyMailbox (onlyMailbox_drawn s _) _
    · exact State.finish_answered hmode' rfl
  · have hexec := complete_run hdue hbad hmode hop (by decide)
    have hact : z.act c = (z.disarmAll l at_, (0, stamp ++ [0x7F, BitVec.ofNat 32 (l.countP fun n => !(s.chan n).armed)], [])) := by
      rw [← hl]; unfold State.act; rw [Command.op_eq hop]; rfl
    obtain ⟨⟨ch, fo, tb, sy, vl, hwhole⟩, hd⟩ := State.disarmAll_spec l hnodup at_ z
    obtain ⟨i, hfin⟩ := (z.disarmAll l at_).finish_eq (0, stamp ++ [0x7F, BitVec.ofNat 32 (l.countP fun n => !(s.chan n).armed)], [])
    refine ⟨_, hexec, ?_, ?_, fun n hn => ?_, fun n hn => ?_, ?_⟩
    all_goals rw [show (s.at_ (s.mcAt m)).act c = _ from hact]
    · rw [hfin, hwhole]
    · exact State.finish_answered (by rw [hwhole]; exact hmode') (by rw [hwhole]; rfl)
    · rw [State.finish_chan, hd n, if_pos hn]
      exact Channel.disarmCmd_spec _ _ _
    · rw [State.finish_chan, hd n, if_neg hn]
      rfl
    · rw [hfin, hwhole]
      exact ⟨rfl, rfl⟩
  · intro k lim
    have hexec := complete_run hdue hbad hmode hop (by decide)
    have hact : z.act c = z.cmdSetPost n k := by
      have hfin : Fin.ofNat 96 (fld (Command.word c 0) 0 7) = n := by rw [hn]; exact Fin.ext (Nat.mod_eq_of_lt n.isLt)
      rw [← hfin]; unfold State.act; rw [Command.op_eq hop]; rfl
    refine ⟨fun hoff => ?_, fun hon harm => ?_⟩
    · have hpost : ∃ r, z.cmdSetPost n k = (z, (0x05, [r], [])) := by
        unfold State.cmdSetPost
        dsimp only
        rw [if_pos (show (!z.chOn n) = true by rw [show z.chOn n = false from hoff]; rfl)]
        exact ⟨_, rfl⟩
      obtain ⟨r, hpost⟩ := hpost
      refine ⟨_, r, hexec, ?_, ?_⟩
      all_goals rw [show (s.at_ (s.mcAt m)).act c = _ from hact.trans hpost]
      · exact State.finish_onlyMailbox (onlyMailbox_at s _) _
      · exact State.finish_answered hmode' rfl
    · let y : Channel := { s.chan n with stagedPost := some (BitVec.ofNat 30 k), postLate := (s.chan n).stagedForme.isSome }
      have hpost : z.cmdSetPost n k = (z.setChan n y, (if lim < k then 0x08 else 0, [BitVec.ofNat 32 (min k lim)], [])) := by
        have hidle : (z.setChan n y).settleIdle n = z.setChan n y :=
          State.settleIdle_armed ((congrArg Channel.armed (State.chan_setChan_self ..)).trans harm)
        unfold State.cmdSetPost
        dsimp only
        rw [if_neg (show ¬(!z.chOn n) = true by rw [show z.chOn n = true from hon]; decide)]
        exact congrArg (·, _) hidle
      obtain ⟨i, hfin⟩ := (z.setChan n y).finish_eq (if lim < k then 0x08 else 0, [BitVec.ofNat 32 (min k lim)], [])
      refine ⟨_, hexec, ?_, ?_, ?_, fun d hd => ?_⟩
      all_goals rw [show (s.at_ (s.mcAt m)).act c = _ from hact.trans hpost]
      · rw [hfin]; rfl
      · exact State.finish_answered hmode' rfl
      · rw [State.finish_chan, State.chan_setChan_self]
      · rw [State.finish_chan, State.chan_setChan_ne _ _ _ _ hd]; rfl
  · intro resp
    have hknown : Command.known c = true := by unfold Command.known; rw [Command.op_eq hop]; rfl
    have hperm : Command.permitted c s.pwr.mode = true :=
      Command.permitted_run hmode (by rw [Command.op_eq hop]; decide)
    have hact : z.act c = z.cmdRelease f := by rw [← hf]; unfold State.act; rw [Command.op_eq hop]; rfl
    have hresp : ([pack 32 [(2, (s.folio f).ch.toNat), (0, (s.folio f).st.toNat)]] : List Word) = [resp] :=
      congrArg (fun w => [w]) (pack_folio _ _)
    have complete : ∀ {a : State × Answer}, z.cmdRelease f = a → (a.1.delivering f = false ∨ a.2.1 ≠ 0) →
        exec .commandComplete s = .next (a.1.finish a.2) := by
      intro a ha hnot
      have ha' : (s.at_ (s.mcAt m)).act c = a := hact.trans ha
      have hcomp := State.commandComplete_act hdue hknown hbad hperm (by
        rw [ha']
        unfold State.releasing
        rw [hf]
        rcases hnot with h | h
        · rw [h, Bool.and_false, Bool.false_and]
        · rw [beq_eq_false_iff_ne.2 h, Bool.and_false])
      rw [ha'] at hcomp
      exact congrArg Host.Outcome.next hcomp
    refine ⟨fun hst ⟨r, hr, hrf⟩ hsparse => ?_, fun hst => ?_⟩
    · obtain ⟨r, hr⟩ : ∃ r, z.closedRecOf f = some r := by
        cases h : z.closedRecOf f with
        | some r => exact ⟨r, rfl⟩
        | none => exact absurd (List.find?_eq_none.1 h r hr) (by rw [hrf]; simp)
      obtain ⟨hfolios, hclosed, hmem, hnow, hmsp, hpwr, hring⟩ := z.freeRecord_spec f z.now r hr
      have hrel : z.cmdRelease f = (z.freeRecord f z.now, (0, [resp], [])) := by
        rw [← hresp]
        unfold State.cmdRelease
        dsimp only
        rw [hr]
        exact (if_pos hst).trans (if_neg (show ¬z.delivering f = true by rw [show z.delivering f = false from hdel]; decide))
      obtain ⟨i, hfin⟩ := (z.freeRecord f z.now).finish_eq (0, [resp], [])
      refine ⟨_, complete hrel (.inl ?_), ?_, ?_, ?_, ?_, fun g hg => ?_, ?_⟩
      · exact (State.delivering_congr hring f).trans hdel
      · rw [hfin]; exact hnow
      · exact State.finish_answered (by rw [hpwr]; exact hmode') (by rw [hmsp]; rfl)
      · rw [hfin]
        exact (congrArg (fun q => sget Folio.free q f) hfolios).trans (sget_sset_self _ _ _ hsparse)
      · rw [hfin]; exact hclosed
      · rw [hfin]
        exact (congrArg (fun q => sget Folio.free q g) hfolios).trans (sget_sset_ne _ _ _ _ hg)
      · rw [hfin]; exact hmem
    · have hrel : z.cmdRelease f = (z, (0x16, [resp], [])) := by
        have hno : ¬((s.folio f).st = 2 ∨ (s.folio f).st = 3) := by
          rcases hst with h | h <;> rw [h] <;> decide
        rw [← hresp]
        unfold State.cmdRelease
        dsimp only
        split
        · exact if_neg hno
        · rfl
      refine ⟨_, complete hrel (.inr (show (0x16 : Byte) ≠ 0 by decide)), ?_, ?_⟩
      · exact State.finish_onlyMailbox (onlyMailbox_at s _) _
      · exact State.finish_answered hmode' rfl

end Sys2Proof.Proofs
end

section
/-! SUPPORT. REMAP, CALIBRATE, STORE_CAL, SHED_EXIT, SELECT_FORME and LIFECYCLE at completion (R368, R369, R454, R500, R560 to R563,
R622, R637, R639). -/

namespace Sys2Proof.Machine

open Sys2Proof.Safety

/-! ## The row of an opcode -/

section Rows
variable {s : State} {c : Cmd} {n : Byte}

theorem State.act_remap (h : c.opc = 0x15) : s.act c = s.cmdRemap c := by unfold State.act; rw [Command.op_eq h]; rfl
theorem State.act_calibrate (h : c.opc = 0x20) : s.act c = s.cmdCalibrate c := by unfold State.act; rw [Command.op_eq h]; rfl
theorem State.act_storeCal (h : c.opc = 0x21) : s.act c = s.cmdStoreCal c := by unfold State.act; rw [Command.op_eq h]; rfl
theorem State.act_throttleAck (h : c.opc = 0x30) : s.act c = (s, (0, [BitVec.ofNat 32 (bit c.reqAtIssue)], [])) := by
  unfold State.act; rw [Command.op_eq h]; rfl
theorem State.act_shedExit (h : c.opc = 0x31) :
    s.act c = if c.coolAtIssue then (s.exitShed, (0, [], [])) else (s, (codeHot, [], [])) := by
  unfold State.act; rw [Command.op_eq h]; rfl
theorem State.act_selectForme (h : c.opc = 0x10) :
    s.act c = ((s.selectForme (fld (Command.word c 0) 0 6)).1, ((s.selectForme (fld (Command.word c 0) 0 6)).2.1,
      [(s.selectForme (fld (Command.word c 0) 0 6)).2.2], [])) := by
  unfold State.act; rw [Command.op_eq h]; rfl
theorem State.act_lifecycle (h : c.opc = 0x40) : s.act c = s.cmdLifecycle c := by unfold State.act; rw [Command.op_eq h]; rfl

end Rows

/-! ## CALIBRATE -/

/-- The bits of a list of channels in one word. -/
theorem getLsbD_packChans (l : List Chan) (n : Chan) :
    (pack 96 (l.map fun k => bitAt k.val true)).getLsbD n.val = l.contains n := by
  induction l with
  | nil => exact BitVec.getLsbD_zero
  | cons k l ih =>
    have hbit : (BitVec.ofNat 96 ((bitAt k.val true).2 * 2 ^ (bitAt k.val true).1)).getLsbD n.val = decide (n = k) := by
      rw [show (bitAt k.val true).2 * 2 ^ (bitAt k.val true).1 = 2 ^ k.val from Nat.one_mul _, BitVec.getLsbD_ofNat,
        Nat.testBit_two_pow, decide_eq_true n.isLt, Bool.true_and]
      exact decide_eq_decide.2 ⟨fun h => Fin.ext h.symm, fun h => congrArg Fin.val h.symm⟩
    have hcons : pack 96 ((k :: l).map fun k => bitAt k.val true) =
        BitVec.ofNat 96 ((bitAt k.val true).2 * 2 ^ (bitAt k.val true).1) ||| pack 96 (l.map fun k => bitAt k.val true) := rfl
    rw [hcons, BitVec.getLsbD_or, hbit, ih, List.contains_cons]
    rfl

theorem getLsbD_maskWords (m : BitVec 96) (n : Chan) :
    ((maskArg m).getD (n.val / 32) 0).getLsbD (n.val % 32) = m.getLsbD n.val := by
  have hn := n.isLt
  have hlt : n.val % 32 < 32 := Nat.mod_lt _ (by decide)
  obtain h | h | h : n.val / 32 = 0 ∨ n.val / 32 = 1 ∨ n.val / 32 = 2 := by omega
  all_goals
    rw [h]
    refine (BitVec.getLsbD_extractLsb' ..).trans ?_
    rw [decide_eq_true hlt, Bool.true_and]
    congr 1
    omega

/-- The channels that CALIBRATE names become pending; of other channels lanes and merges alone change. -/
def State.calibrateAll (s : State) (l : List Chan) (cells deskew : Bool) : State :=
  l.foldl (fun z n => z.calibrate n cells deskew) s

theorem State.calibrate_frame (s : State) (c : Chan) (cells deskew : Bool) : IdleFrame c s (s.calibrate c cells deskew) :=
  ((IdleFrame.refl s).modChan _).settleIdle

theorem State.calibrate_armed {s : State} {c : Chan} (cells deskew : Bool) (h : (s.chan c).armed = true) :
    s.calibrate c cells deskew = s.modChan c fun x =>
      { x with trim := { x.trim with pending := true, pendCells := cells, pendDeskew := deskew } } :=
  State.settleIdle_armed ((congrArg Channel.armed (State.chan_setChan_self ..)).trans h)

theorem State.calibrateAll_spec (cells deskew : Bool) (l : List Chan) (hl : l.Nodup) (s : State) :
    (s.calibrateAll l cells deskew).pwr.mode = s.pwr.mode ∧ (s.calibrateAll l cells deskew).msp = s.msp ∧
    ∀ d, (d ∉ l → ((s.calibrateAll l cells deskew).chan d).sansLanes = (s.chan d).sansLanes) ∧
      (d ∈ l → (s.chan d).armed = true → ((s.calibrateAll l cells deskew).chan d).trim =
        { (s.chan d).trim with pending := true, pendCells := cells, pendDeskew := deskew }) := by
  induction l generalizing s with
  | nil => exact ⟨rfl, rfl, fun d => ⟨fun _ => rfl, fun h => (nomatch h)⟩⟩
  | cons c l ih =>
    obtain ⟨hc, hl⟩ := List.nodup_cons.1 hl
    obtain ⟨hmode, hmsp, hd⟩ := ih hl (s.calibrate c cells deskew)
    obtain ⟨hwhole, hothers⟩ := s.calibrate_frame c cells deskew
    have hstep : s.calibrateAll (c :: l) cells deskew = (s.calibrate c cells deskew).calibrateAll l cells deskew := rfl
    rw [hstep]
    refine ⟨hmode.trans (by rw [hwhole]), hmsp.trans (by rw [hwhole]), fun d => ⟨fun h => ?_, fun h harm => ?_⟩⟩
    · rw [List.mem_cons, not_or] at h
      exact ((hd d).1 h.2).trans (hothers d h.1)
    · by_cases hdc : d = c
      · subst hdc
        have hself := (hd d).1 hc
        rw [State.calibrate_armed cells deskew harm] at hself ⊢
        exact (congrArg (fun x : Channel => x.trim) (hself.trans (congrArg Channel.sansLanes (State.chan_setChan_self ..))) :)
      · have hsame := hothers d hdc
        have harmd : ((s.calibrate c cells deskew).chan d).armed = (s.chan d).armed :=
          (congrArg (fun x : Channel => x.armed) hsame :)
        have htrim : ((s.calibrate c cells deskew).chan d).trim = (s.chan d).trim :=
          (congrArg (fun x : Channel => x.trim) hsame :)
        rw [(hd d).2 ((List.mem_cons.1 h).resolve_left hdc) (harmd.trans harm), htrim]

/-! ## SHED_EXIT -/

/-- No channel of the list waits to be shed. -/
def State.unshed (s : State) (l : List Chan) : State := s.forChans l fun c z => z.modChan c fun x => { x with shedPend := false }

theorem State.unshed_spec (l : List Chan) (s : State) :
    (∃ chans, s.unshed l = { s with chans := chans }) ∧
    ∀ n, ((s.unshed l).chan n).armed = (s.chan n).armed ∧
      ((s.chan n).shedPend = false ∨ n ∈ l → ((s.unshed l).chan n).shedPend = false) := by
  induction l generalizing s with
  | nil => exact ⟨⟨s.chans, rfl⟩, fun n => ⟨rfl, fun h => h.resolve_right fun h => (nomatch h)⟩⟩
  | cons c l ih =>
    obtain ⟨⟨chans, hw⟩, hn⟩ := ih (s.modChan c fun x => { x with shedPend := false })
    refine ⟨⟨chans, hw⟩, fun n => ?_⟩
    obtain ⟨harm, hshed⟩ := hn n
    by_cases hnc : n = c
    · subst hnc
      have hself : (s.modChan n fun x => { x with shedPend := false }).chan n = { s.chan n with shedPend := false } :=
        State.chan_setChan_self ..
      rw [hself] at harm hshed
      exact ⟨harm, fun _ => hshed (.inl rfl)⟩
    · have hne : (s.modChan c fun x => { x with shedPend := false }).chan n = s.chan n := State.chan_setChan_ne _ _ _ _ hnc
      rw [hne] at harm hshed
      exact ⟨harm, fun h => hshed (h.imp_right fun h => (List.mem_cons.1 h).resolve_left hnc)⟩

/-- The mode and the thermal unit at the end of SHED. -/
def State.shedEnded (s : State) : State :=
  { s.toMode .run with thm := { s.thm with expired := false, shDone := false, shedFrom := none } }

theorem State.exitShed_eq (s : State) : ∃ shed, s.exitShed = (s.shedEnded.unshed allChans).requestOn shed := ⟨_, rfl⟩

theorem State.exitShed_spec (s : State) :
    s.exitShed.pwr.mode = .run ∧ s.exitShed.thm.shedFrom = none ∧ s.exitShed.msp = s.msp ∧
    ∀ n, (s.exitShed.chan n).armed = (s.chan n).armed ∧ (s.exitShed.chan n).shedPend = false := by
  obtain ⟨⟨chans, hw⟩, hn⟩ := s.shedEnded.unshed_spec allChans
  obtain ⟨shed, hexit⟩ := s.exitShed_eq
  obtain ⟨doms, cycle, hreq⟩ := State.requestOn_eq (s.shedEnded.unshed allChans) shed
  have hchan : s.exitShed.chans = (s.shedEnded.unshed allChans).chans := by rw [hexit, hreq]
  have hmode : s.exitShed.pwr.mode = (s.shedEnded.unshed allChans).pwr.mode := by rw [hexit, hreq]
  have hthm : s.exitShed.thm = (s.shedEnded.unshed allChans).thm := by rw [hexit, hreq]
  have hmsp : s.exitShed.msp = (s.shedEnded.unshed allChans).msp := by rw [hexit, hreq]
  refine ⟨hmode.trans (by rw [hw]; rfl), ?_, hmsp.trans (by rw [hw]; rfl), fun n => ?_⟩
  · rw [hthm, hw]; rfl
  · rw [show s.exitShed.chan n = (s.shedEnded.unshed allChans).chan n from congrArg (·[n]) hchan]
    exact ⟨(hn n).1, (hn n).2 (.inr (List.mem_finRange n))⟩

/-! ## SELECT_FORME -/

theorem State.selectForme_refused {s : State} {n : Nat} (h : s.nvm.ok.getLsbD n = false) :
    ∃ r, s.selectForme n = (s, 0x14, r) := by
  unfold State.selectForme
  rw [h]
  exact ⟨_, rfl⟩

theorem State.selectForme_admitted {s : State} {n : Nat} (hok : s.nvm.ok.getLsbD n = true) (hrun : s.allRun n = false)
    (hadm : (admissionTest s.vlt.nrrTh (s.combined n)).result = 0) :
    s.selectForme n = ((s.showTest (admissionTest s.vlt.nrrTh (s.combined n))).modNvm fun v =>
      { v with runPhase := 1, target := BitVec.ofNat 6 n }, 0, 0) := by
  unfold State.selectForme
  dsimp only
  rw [hok, hrun, hadm]
  rfl

/-! ## LIFECYCLE -/

/-- The life-cycle block once a nonce has been drawn. -/
def State.challenged (s : State) : State :=
  { s with free := s.free + 1, lcy := { s.lcy with nonce := some (Config.nonce s.free), last := 1, why := 0 } }

end Sys2Proof.Machine
end

section
/-! SUPPORT. REMAP, CALIBRATE, STORE_CAL, THROTTLE_ACK, SHED_EXIT, SELECT_FORME and LIFECYCLE answer (Table 16.4). -/

namespace Sys2Proof.Proofs

open Sys2Proof.Machine Sys2Proof.Safety

section Rows
variable {s : State} {c : Cmd} {m : Nat} {a : State × Answer}

/-- A row of RUN and SHED that answers a code and RESP with nothing else touched. -/
theorem answers_only {n : Byte} {code : Byte} {resp : List Word} {t : State} (h : CmdDue s c m)
    (hbad : Command.badArg c = false) (hmode : s.pwr.mode = .run ∨ s.pwr.mode = .shed) (hop : c.opc = n)
    (hn : n ∈ [0x10, 0x11, 0x12, 0x13, 0x15, 0x20, 0x21, 0x30, 0x40])
    (hact : (s.at_ (s.mcAt m)).act c = (t, (code, resp, []))) (ht : OnlyMailbox s t) (hbuf : t.msp.buf = s.msp.buf) :
    ∃ u, exec .commandComplete s = .next u ∧ OnlyMailbox s u ∧ Answered s u code resp := by
  have hexec := complete_run h hbad hmode hop hn
  rw [hact] at hexec
  refine ⟨_, hexec, State.finish_onlyMailbox ht _, State.finish_answered ?_ hbuf⟩
  rw [ht]
  exact h.mode

/-- A row of RUN and SHED that acts: what it leaves outside the mailbox and the truss stands. -/
theorem answers {n : Byte} {code : Byte} {resp : List Word} {t : State} (h : CmdDue s c m)
    (hbad : Command.badArg c = false) (hmode : s.pwr.mode = .run ∨ s.pwr.mode = .shed) (hop : c.opc = n)
    (hn : n ∈ [0x10, 0x11, 0x12, 0x13, 0x15, 0x20, 0x21, 0x30, 0x40])
    (hact : (s.at_ (s.mcAt m)).act c = (t, (code, resp, []))) (hmode' : t.pwr.mode ≠ .reset) (hbuf : t.msp.buf = s.msp.buf) :
    ∃ u, exec .commandComplete s = .next u ∧ Answered s u code resp ∧
      ∃ k, u = { t with msp := u.msp, truss := { t.truss with incoming := t.truss.incoming ++ k } } := by
  have hexec := complete_run h hbad hmode hop hn
  rw [hact] at hexec
  obtain ⟨k, hfin⟩ := t.finish_eq (code, resp, [])
  exact ⟨_, hexec, State.finish_answered hmode' hbuf, k, by rw [hfin]⟩

/-- CALIBRATE: what a channel's trim or domain refuses, and what it makes pending. -/
theorem calibrate_answers (h : CmdDue s c m) (hbad : Command.badArg c = false)
    (hmode : s.pwr.mode = .run ∨ s.pwr.mode = .shed) (hop : c.opc = 0x20) :
    let named := fun (n : Chan) =>
      if (Command.word c 3).getLsbD 31 then s.chOn n else (Command.word c (n.val / 32)).getLsbD (n.val % 32)
    let refused := fun (n : Chan) => named n && ((s.chan n).trim.running || !s.chOn n)
    ∃ t code r0 r1 r2, exec .commandComplete s = .next t ∧ Answered s t code [r0, r1, r2] ∧
    (∀ n : Chan, ([r0, r1, r2].getD (n.val / 32) 0).getLsbD (n.val % 32) = refused n) ∧
    ((∀ n, refused n = false) → code = 0x00) ∧
    (∀ n, refused n = true → (∀ k, k < n → refused k = false) →
      code = if (s.chan n).trim.running then 0x1F else 0x05) ∧
    (∀ n, named n = true → refused n = false → (s.chan n).armed = true →
      (t.chan n).trim = { (s.chan n).trim with
        pending := true, pendCells := (Command.word c 3).getLsbD 0, pendDeskew := (Command.word c 3).getLsbD 1 }) ∧
    (∀ n, named n = false ∨ refused n = true → (t.chan n).trim = (s.chan n).trim) := by
  intro named refused
  let z := s.at_ (s.mcAt m)
  let l := allChans.filter named
  let bad := l.filter fun n => (z.calRefuses n).isSome
  let good := l.filter fun n => (z.calRefuses n).isNone
  let mask : BitVec 96 := pack 96 (bad.map fun n => bitAt n.val true)
  let code : Byte := (bad.findSome? z.calRefuses).getD 0
  let w := Command.word c 3
  have hl : (if (Command.word c 3).getLsbD 31 then allChans.filter z.chOn else Command.chans c) = l := by
    rw [Command.chans_eq]
    simp only [l, named]
    split <;> rfl
  have hact : z.act c = (z.calibrateAll good (w.getLsbD 0) (w.getLsbD 1), (code, maskArg mask, [])) := by
    rw [State.act_calibrate hop]
    unfold State.cmdCalibrate
    dsimp only
    rw [hl]
    rfl
  have hrefuses : ∀ n, z.calRefuses n = if (s.chan n).trim.running then some 0x1F else if !s.chOn n then some 0x05 else none :=
    fun n => rfl
  have hisSome : ∀ n, (z.calRefuses n).isSome = ((s.chan n).trim.running || !s.chOn n) := by
    intro n
    rw [hrefuses]
    cases (s.chan n).trim.running <;> cases s.chOn n <;> rfl
  have hmem : ∀ n, n ∈ l ↔ named n = true := fun n => by simp [l, allChans]
  have hbad' : ∀ n, n ∈ bad ↔ refused n = true := by
    intro n
    rw [List.mem_filter, hmem, hisSome]
    simp only [refused, Bool.and_eq_true]
  have hgood : ∀ n, n ∈ good ↔ named n = true ∧ refused n = false := by
    intro n
    rw [List.mem_filter, hmem, ← Option.not_isSome, hisSome]
    simp only [refused]
    cases named n <;> simp
  have hsorted : bad.Pairwise (· < ·) := (chans_sorted _).filter _
  have hnodup : good.Nodup := ((chans_sorted named).filter _).imp fun h => ne_of_lt h
  obtain ⟨hmode', hmsp, hd⟩ := State.calibrateAll_spec (w.getLsbD 0) (w.getLsbD 1) good hnodup z
  obtain ⟨t, hexec, hans, k, ht⟩ := answers h hbad hmode hop (by decide) hact
    (by rw [hmode']; exact h.mode) (by rw [hmsp]; rfl)
  have hchan : ∀ n, t.chan n = (z.calibrateAll good (w.getLsbD 0) (w.getLsbD 1)).chan n := fun n => by rw [ht]; rfl
  refine ⟨t, code, _, _, _, hexec, hans, fun n => ?_, fun hnone => ?_, fun n hn hfirst => ?_, fun n hn hok harm => ?_,
    fun n hn => ?_⟩
  · refine (getLsbD_maskWords mask n).trans ((getLsbD_packChans bad n).trans ?_)
    rw [Bool.eq_iff_iff, List.contains_iff_mem, hbad' n]
  · have : bad = [] := List.eq_nil_iff_forall_not_mem.2 fun n hn => by
      rw [hbad', hnone n] at hn; cases hn
    simp only [code, this]
    rfl
  · have hsome : z.calRefuses n = some (if (s.chan n).trim.running then 0x1F else 0x05) := by
      have hor : ((s.chan n).trim.running || !s.chOn n) = true := (Bool.and_eq_true _ _ ▸ hn).2
      rw [hrefuses]
      cases hrun : (s.chan n).trim.running with
      | true => rfl
      | false =>
        rw [hrun, Bool.false_or] at hor
        rw [hor]
        rfl
    have hlow : bad.findSome? z.calRefuses = some _ := findSome?_lowest hsorted ((hbad' n).2 hn) hsome fun k hk hlt => by
      have := hfirst k hlt
      rw [(hbad' k).1 hk] at this
      cases this
    simp only [code, hlow]
    rfl
  · rw [hchan]
    exact (hd n).2 ((hgood n).2 ⟨hn, hok⟩) harm
  · rw [hchan]
    have hnot : n ∉ good := fun h => by
      obtain ⟨h1, h2⟩ := (hgood n).1 h
      rcases hn with h | h
      · rw [h1] at h; cases h
      · rw [h2] at h; cases h
    exact (congrArg (fun x : Channel => x.trim) ((hd n).1 hnot) :)

/-- STORE_CAL while one runs, or during a dip; else it starts. -/
theorem storeCal_answers (h : CmdDue s c m) (hbad : Command.badArg c = false) (hmode : s.pwr.mode = .run ∨ s.pwr.mode = .shed)
    (hop : c.opc = 0x21) :
    (s.nvm.store.isSome = true → ∃ t r, exec .commandComplete s = .next t ∧ OnlyMailbox s t ∧ Answered s t 0x18 r) ∧
    (s.nvm.store = none → s.pwr.dipActive = true → ∃ t r, exec .commandComplete s = .next t ∧
      OnlyMailbox s t ∧ Answered s t 0x1C r) ∧
    (s.nvm.store = none → s.pwr.dipActive = false → ∃ t j, exec .commandComplete s = .next t ∧
      Answered s t 0x00 [(s.nvm.nextSlot.1).setWidth 32, s.nvm.nextSlot.2] ∧ t.nvm.store = some j ∧
      j.target = s.nvm.nextSlot.1 ∧ j.gen = s.nvm.nextSlot.2 ∧ t.nvm.calState = 1 ∧ t.chans = s.chans) := by
  let z := s.at_ (s.mcAt m)
  have hact : z.act c = if s.nvm.store.isSome then z.failed c codePending else if s.pwr.dipActive then z.failed c codeSupply
      else (z.storeStart, (0, [(s.nvm.nextSlot.1).setWidth 32, s.nvm.nextSlot.2], [])) := by
    rw [State.act_storeCal hop]
    rfl
  have hdrawn : OnlyMailbox s z.drawn := onlyMailbox_drawn s _
  refine ⟨fun hstore => ?_, fun hstore hdip => ?_, fun hstore hdip => ?_⟩
  · rw [if_pos hstore] at hact
    obtain ⟨t, h1, h2, h3⟩ := answers_only h hbad hmode hop (by decide) hact hdrawn rfl
    exact ⟨t, _, h1, h2, h3⟩
  · rw [hstore, if_neg (by decide), if_pos hdip] at hact
    obtain ⟨t, h1, h2, h3⟩ := answers_only h hbad hmode hop (by decide) hact hdrawn rfl
    exact ⟨t, _, h1, h2, h3⟩
  · rw [hstore, if_neg (by decide), hdip, if_neg Bool.false_ne_true] at hact
    obtain ⟨t, h1, h2, k, ht⟩ := answers h hbad hmode hop (by decide) hact h.mode rfl
    refine ⟨t, { copy := allChans.flatMap fun c => (List.range 4).map fun b => (s.chan c).trim.table b
                 target := s.nvm.nextSlot.1, gen := s.nvm.nextSlot.2, step := 3, pages := 0, retried := false, stopping := false },
      h1, h2, ?_, rfl, rfl, ?_, ?_⟩
    all_goals rw [ht]; rfl

/-- REMAP: a condition that fails leaves the pending fences; else one more waits. -/
theorem remap_answers (h : CmdDue s c m) (hbad : Command.badArg c = false) (hmode : s.pwr.mode = .run ∨ s.pwr.mode = .shed)
    (hop : c.opc = 0x15) :
    let z := s.at_ (s.mcAt m)
    let at_ := s.span.vis 25600 z.now
    let stamp : List Word := [lo32 (stamp64 (s.stamp at_)), hi32 (stamp64 (s.stamp at_))]
    (z.remapFails c ≠ 0 → ∃ t, exec .commandComplete s = .next t ∧ OnlyMailbox s t ∧ Answered s t (z.remapFails c) stamp) ∧
    (z.remapFails c = 0 → ∃ t f, exec .commandComplete s = .next t ∧ Answered s t 0x00 stamp ∧
      t.place = { s.place with pend := s.place.pend ++ [f] } ∧ f.isRemap = true ∧
      f.subst = (Command.word c 0).getLsbD 0 ∧ f.armB = (Command.word c 0).getLsbD 1 ∧
      f.step.toNat = fld (Command.word c 0) 8 8 ∧ f.a = fld (Command.word c 0) 16 7 ∧
      f.b = fld (Command.word c 0) 24 7 ∧ f.when_ = Command.word c 2 ++ Command.word c 1 ∧ t.chans = s.chans) := by
  intro z at_ stamp
  let w := Command.word c 0
  let f : FencePend :=
    { isRemap := true, subst := w.getLsbD 0, armB := w.getLsbD 1, step := w.extractLsb' 8 8, a := fld w 16 7, b := fld w 24 7
      when_ := Command.when_ c, from_ := z.gridFrom (lsbUp (at_ + remapLead)) }
  have hact : z.act c = (if z.remapFails c = 0 then { z with place := { z.place with pend := z.place.pend ++ [f] } } else z,
      (z.remapFails c, stamp, [])) := (State.act_remap hop).trans rfl
  refine ⟨fun hfail => ?_, fun hok => ?_⟩
  · rw [if_neg hfail] at hact
    exact answers_only h hbad hmode hop (by decide) hact (onlyMailbox_at s _) rfl
  · rw [hok, if_pos rfl] at hact
    obtain ⟨t, h1, h2, k, ht⟩ := answers h hbad hmode hop (by decide) hact h.mode rfl
    have hstep : (w.extractLsb' 8 8).toNat = fld w 8 8 := by
      rw [BitVec.extractLsb'_toNat, Nat.shiftRight_eq_div_pow]
      rfl
    refine ⟨t, f, h1, h2, ?_, rfl, rfl, rfl, hstep, rfl, rfl, rfl, ?_⟩
    all_goals rw [ht]; rfl

/-- SELECT_FORME of a forme that LOAD has refused, and of one that the admission test takes. -/
theorem selectForme_answers (h : CmdDue s c m) (hbad : Command.badArg c = false)
    (hmode : s.pwr.mode = .run ∨ s.pwr.mode = .shed) (hop : c.opc = 0x10) :
    (s.nvm.ok.getLsbD (fld (Command.word c 0) 0 6) = false → ∃ t r, exec .commandComplete s = .next t ∧
      OnlyMailbox s t ∧ Answered s t 0x14 [r]) ∧
    (s.nvm.ok.getLsbD (fld (Command.word c 0) 0 6) = true → s.allRun (fld (Command.word c 0) 0 6) = false →
      (admissionTest s.vlt.nrrTh (s.combined (fld (Command.word c 0) 0 6))).result = 0 →
      ∃ t, exec .commandComplete s = .next t ∧ Answered s t 0x00 [0] ∧ t.nvm.runPhase = 1 ∧
      t.nvm.target.toNat = fld (Command.word c 0) 0 6 ∧ t.chans = s.chans) := by
  let z := s.at_ (s.mcAt m)
  have hact := State.act_selectForme (s := z) hop
  refine ⟨fun hok => ?_, fun hok hrun hadm => ?_⟩
  · obtain ⟨r, hsel⟩ := State.selectForme_refused (s := z) hok
    rw [hsel] at hact
    obtain ⟨t, h1, h2, h3⟩ := answers_only h hbad hmode hop (by decide) hact (onlyMailbox_at s _) rfl
    exact ⟨t, r, h1, h2, h3⟩
  · obtain ⟨v, hv⟩ : ∃ v, z.showTest (admissionTest z.vlt.nrrTh (z.combined (fld (Command.word c 0) 0 6))) = { z with vlt := v } :=
      ⟨_, rfl⟩
    rw [State.selectForme_admitted (s := z) hok hrun hadm, hv] at hact
    obtain ⟨t, h1, h2, k, ht⟩ := answers h hbad hmode hop (by decide) hact h.mode rfl
    have hlt : fld (Command.word c 0) 0 6 < 2 ^ 6 := Nat.mod_lt _ (by decide)
    refine ⟨t, h1, h2, ?_, ?_, ?_⟩
    · rw [ht]; rfl
    · rw [ht]
      exact (BitVec.toNat_ofNat _ 6).trans (Nat.mod_eq_of_lt hlt)
    · rw [ht]; rfl

/-- SHED_EXIT in SHED. -/
theorem shedExit_answers (h : CmdDue s c m) (hbad : Command.badArg c = false) (hmode : s.pwr.mode = .shed)
    (hop : c.opc = 0x31) :
    (c.coolAtIssue = false → ∃ t, exec .commandComplete s = .next t ∧ OnlyMailbox s t ∧ Answered s t 0x22 []) ∧
    (c.coolAtIssue = true → ∃ t, exec .commandComplete s = .next t ∧
      Answered s t 0x00 [] ∧ t.pwr.mode = .run ∧ t.thm.shedFrom = none ∧
      ∀ n, (t.chan n).armed = (s.chan n).armed ∧ (t.chan n).shedPend = false) := by
  let z := s.at_ (s.mcAt m)
  have hknown : Command.known c = true := by unfold Command.known; rw [Command.op_eq hop]; rfl
  have hperm : Command.permitted c s.pwr.mode = true := by unfold Command.permitted; rw [Command.op_eq hop, hmode]; rfl
  have hexec : exec .commandComplete s = .next ((z.act c).1.finish (z.act c).2) := congrArg Host.Outcome.next
    (State.commandComplete_other h hknown hbad hperm (by rw [hop]; decide))
  have hact := State.act_shedExit (s := z) hop
  refine ⟨fun hcool => ?_, fun hcool => ?_⟩
  · rw [hact, hcool, if_neg Bool.false_ne_true] at hexec
    exact ⟨_, hexec, State.finish_onlyMailbox (onlyMailbox_at s _) _, State.finish_answered h.mode rfl⟩
  · rw [hact, hcool, if_pos rfl] at hexec
    dsimp only at hexec
    obtain ⟨hrun, hfrom, hmsp, hchan⟩ := z.exitShed_spec
    have hbuf : z.exitShed.msp.buf = s.msp.buf := congrArg Msp.buf hmsp
    generalize z.exitShed = u at hexec hrun hfrom hchan hbuf
    obtain ⟨k, hfin⟩ := u.finish_eq (0, [], [])
    refine ⟨_, hexec, State.finish_answered (by rw [hrun]; decide) hbuf, ?_, ?_, fun n => ?_⟩
    · rw [hfin]; exact hrun
    · rw [hfin]; exact hfrom
    · rw [State.finish_chan]; exact hchan n

/-- LIFECYCLE with SUBOP STATE and CHALLENGE. -/
theorem lifecycle_answers (h : CmdDue s c m) (hbad : Command.badArg c = false) (hmode : s.pwr.mode = .run ∨ s.pwr.mode = .shed)
    (hop : c.opc = 0x40) :
    (fld (Command.word c 0) 0 4 = 0 → ∃ t, exec .commandComplete s = .next t ∧
      Answered s t 0x00 [(if (sget 0 s.lcy.fuses 4).getLsbD 3 then 4 else s.lcy.state).setWidth 32] ∧
      t.lcy = { s.lcy with last := 0, why := 0 }) ∧
    (fld (Command.word c 0) 0 4 = 1 → ∃ t, exec .commandComplete s = .next t ∧ t.msp.code = 0x00 ∧
      t.msp.done = true ∧ t.lcy.nonce = some (Config.nonce s.free) ∧ t.lcy.fuses = s.lcy.fuses ∧
      t.msp.buf.toList.take 12 = wordsLE 12 (octets 32 (Config.nonce s.free) ++ s.lcy.deviceId)) := by
  let z := s.at_ (s.mcAt m)
  refine ⟨fun hsub => ?_, fun hsub => ?_⟩
  · have hact : z.act c = (z.modLcy fun l => { l with last := 0, why := 0 },
        (0, [(if (sget 0 s.lcy.fuses 4).getLsbD 3 then 4 else s.lcy.state).setWidth 32], [])) := by
      rw [State.act_lifecycle hop]
      unfold State.cmdLifecycle
      rw [show Command.subop c = 0 from hsub]
      rfl
    obtain ⟨t, h1, h2, k, ht⟩ := answers h hbad hmode hop (by decide) hact h.mode rfl
    exact ⟨t, h1, h2, by rw [ht]; rfl⟩
  · obtain ⟨resp, hact⟩ : ∃ resp, z.act c = (z.challenged,
        (0, resp, wordsLE 12 (octets 32 (Config.nonce s.free) ++ s.lcy.deviceId))) := by
      rw [State.act_lifecycle hop]
      unfold State.cmdLifecycle
      rw [show Command.subop c = 1 from hsub]
      exact ⟨_, rfl⟩
    have hexec := complete_run h hbad hmode hop (by decide)
    rw [hact] at hexec
    refine ⟨_, hexec, ?_⟩
    obtain ⟨k, hfin⟩ := z.challenged.finish_eq (0, resp, wordsLE 12 (octets 32 (Config.nonce s.free) ++ s.lcy.deviceId))
    dsimp only
    rw [hfin]
    refine ⟨rfl, rfl, rfl, rfl, ?_⟩
    have hlen : (wordsLE 12 (octets 32 (Config.nonce s.free) ++ s.lcy.deviceId)).length = 12 := by
      unfold wordsLE
      rw [List.length_map, List.length_range]
    refine List.ext_getElem ?_ fun j hj hj' => ?_
    · rw [List.length_take, Vector.length_toList, hlen]; rfl
    · rw [List.getElem_take, ← List.getD_eq_getElem _ 0]
      exact (getD_overlay s.msp.buf _ j (by omega)).trans (List.getD_eq_getElem _ _ hj')

end Rows

end Sys2Proof.Proofs
end

section
/-! SUPPORT. THROTTLE_ACK at its issue (R617), and DIAG_READ and DIAG_WRITE through port DG (R564). -/

namespace Sys2Proof.Machine

open Sys2Proof.Safety

/-! ## THROTTLE_ACK at its issue edge -/

/-- An argument list of zeros has no reserved bit set. -/
theorem Command.badArg_zero {c : Cmd} (hzero : ∀ j, j < 8 → Command.word c j = 0) (hop : c.opc = 0x30) :
    Command.badArg c = false := by
  have hany : (List.range 8).any (fun i => Command.word c i &&& ~~~ (Command.named c).getD i 0 != 0) = false := by
    rw [List.any_eq_false]
    intro i hi
    rw [hzero i (List.mem_range.1 hi), show (0 : Word) &&& ~~~ (Command.named c).getD i 0 = 0 from BitVec.zero_and]
    decide
  unfold Command.badArg Command.isDiag
  rw [hany, Command.op_eq hop]
  rfl

/-- What an acknowledgement of a standing request leaves. -/
theorem State.throttleAck_spec (s : State) (m : Nat) (hmode : s.pwr.mode ≠ .reset) :
    if s.thm.req.isSome ∧ m ≤ s.thm.deadline ∧ s.thm.acked = false ∧ s.thm.expired = false then
      (s.throttleAck m).thm = { s.thm with acked := true, deadline := s.thm.req.getD 0 + s.thm.reqExt * 250000 } ∧
        Reported (s.throttleAck m) 182 0x02
    else s.throttleAck m = s := by
  unfold State.throttleAck
  dsimp only
  cases hreq : s.thm.req with
  | none => exact (if_neg (fun h => Bool.false_ne_true h.1)).mpr rfl
  | some q =>
    dsimp only
    by_cases h : (decide (m ≤ s.thm.deadline) && !s.thm.acked && !s.thm.expired) = true
    · rw [if_pos h]
      rw [Bool.and_eq_true, Bool.and_eq_true, decide_eq_true_iff, Bool.not_eq_true', Bool.not_eq_true'] at h
      obtain ⟨⟨hle, hacked⟩, hexp⟩ := h
      rw [if_pos ⟨rfl, hle, hacked, hexp⟩]
      have hthm : ∀ z : State, (z.raise 182 0x02).thm = z.thm := fun z => by
        obtain ⟨l, hl⟩ := z.raise_eq 182 0x02
        rw [hl]
      exact ⟨hthm _, State.reported_raise _ _ _ hmode (by decide)⟩
    · rw [if_neg h, if_neg]
      rintro ⟨-, hle, hacked, hexp⟩
      rw [decide_eq_true hle, hacked, hexp] at h
      exact h rfl

/-! ## Words of galley data in MSP.BUF -/

/-- A galley word is the four words that DIAG transfers. -/
theorem Qword.of_parts (w : Qword) :
    (w.extractLsb' 96 32 ++ (w.extractLsb' 64 32 ++ (w.extractLsb' 32 32 ++ w.extractLsb' 0 32 : BitVec (32 + 32)) :
      BitVec (32 + (32 + 32))) : BitVec (32 + (32 + (32 + 32)))) = w := by
  refine BitVec.eq_of_getLsbD_eq fun i hi => ?_
  simp only [BitVec.getLsbD_append, BitVec.getLsbD_extractLsb']
  split
  · split
    · split
      · rw [decide_eq_true (by omega), Bool.true_and, Nat.zero_add]
      · rw [decide_eq_true (by omega), Bool.true_and]; congr 1; omega
    · rw [decide_eq_true (by omega), Bool.true_and]; congr 1; omega
  · rw [decide_eq_true (by omega), Bool.true_and]; congr 1; omega

theorem qwordsBuf_getD (l : List Qword) (j k : Nat) (hj : j < l.length) (hk : k < 4) (d : Word) :
    (qwordsBuf l).getD (4 * j + k) d = (l[j]).extractLsb' (32 * k) 32 := by
  have hcons : ∀ (w : Qword) (l : List Qword),
      qwordsBuf (w :: l) = ((List.range 4).map fun k => w.extractLsb' (32 * k) 32) ++ qwordsBuf l := fun w l => rfl
  have hlen : ∀ w : Qword, ((List.range 4).map fun k => w.extractLsb' (32 * k) 32).length = 4 := fun w => rfl
  induction l generalizing j with
  | nil => exact absurd hj (Nat.not_lt_zero _)
  | cons w l ih =>
    rw [hcons]
    cases j with
    | zero =>
      rw [Nat.mul_zero, Nat.zero_add, List.getD_append _ _ _ _ (by rw [hlen]; exact hk), List.getD_eq_getElem _ _ (by rw [hlen]; exact hk),
        List.getElem_map, List.getElem_range]
      rfl
    | succ j =>
      rw [List.getD_append_right _ _ _ _ (by rw [hlen]; omega), hlen, show 4 * (j + 1) + k - 4 = 4 * j + k by omega]
      exact ih j (Nat.lt_of_succ_lt_succ hj)

/-- The word that a DIAG_WRITE of `data` writes at a position. -/
theorem Command.data_eq {c : Cmd} {l : List Qword} {v : Vector Word 64} (hbuf : ∀ j : Nat, (h : j < 64) →
    c.buf.getD j 0 = (qwordsBuf l).getD j (v[j])) {j : Nat} (hj : j < l.length) (h16 : j < 16) :
    Command.data c j = l.getD j 0 := by
  have hword : ∀ k, k < 4 → Command.bufWord c (4 * j + k) = (l[j]).extractLsb' (32 * k) 32 := fun k hk =>
    (hbuf (4 * j + k) (by omega)).trans (qwordsBuf_getD l j k hj hk _)
  unfold Command.data
  rw [hword 3 (by decide), hword 2 (by decide), hword 1 (by decide), show 4 * j = 4 * j + 0 from rfl, hword 0 (by decide),
    List.getD_eq_getElem _ _ hj]
  exact Qword.of_parts _

/-! ## Requests of port DG -/

/-- What a request asks of the vault. -/
def Req.asks (r : Req) : Nat × Nat × ReqKind × List (Bool × Qword) := (r.port, r.burst, r.kind, r.data)

theorem State.asks_cores (s : State) : s.cores.map Req.asks = s.vlt.reqs.map Req.asks := by
  unfold State.cores
  rw [List.map_map]
  rfl

/-- The request of a DIAG command for its word `i`. -/
def Command.asks (c : Cmd) (i : Nat) : Nat × Nat × ReqKind × List (Bool × Qword) :=
  (13, (Command.first c + i) / 2, if Command.op c = opDiagWrite then .codewordWrite else .codewordRead,
    [((Command.first c + i) % 2 == 1, Command.data c i)])

/-- One request for one word: it stands at the end of the table, and the command waits for it. -/
theorem State.diagRequest_spec (s : State) (v : Nat) (c : Cmd) (i : Nat) :
    (∃ w id, s.diagRequest v c i = { s with
      vlt := w, msp := { s.msp with cmd := s.msp.cmd.map fun c => { c with left := c.left ++ [id] } } }) ∧
    (s.diagRequest v c i).vlt.reqs.map Req.asks = s.vlt.reqs.map Req.asks ++ [Command.asks c i] := by
  let kind : ReqKind := if Command.op c = opDiagWrite then .codewordWrite else .codewordRead
  let z := s.modCmd fun c => { c with left := c.left ++ [s.vlt.nextId] }
  obtain ⟨hv, hspec⟩ := z.submit_spec v 13 kind ((Command.first c + i) / 2)
    [((Command.first c + i) % 2 == 1, Command.data c i)] false
  refine ⟨⟨_, s.vlt.nextId, hv⟩, ?_⟩
  rcases hspec with ⟨-, hc, -⟩ | ⟨id, both, hm, -⟩
  · have h := congrArg (List.map Req.asks) hc
    rw [State.asks_cores, List.map_append, State.asks_cores] at h
    exact h
  · have hkind := (State.mergeable_some hm).1
    simp only [kind] at hkind
    split at hkind <;> cases hkind

/-- All requests of a DIAG command, in ascending order. -/
theorem State.diagRequests_spec (v : Nat) (c : Cmd) (l : List Nat) (s : State) :
    (∃ w ids, ids.length = l.length ∧ l.foldl (fun z i => z.diagRequest v c i) s = { s with
      vlt := w, msp := { s.msp with cmd := s.msp.cmd.map fun c => { c with left := c.left ++ ids } } }) ∧
    (l.foldl (fun z i => z.diagRequest v c i) s).vlt.reqs.map Req.asks = s.vlt.reqs.map Req.asks ++ l.map (Command.asks c) := by
  induction l generalizing s with
  | nil =>
    refine ⟨⟨s.vlt, [], rfl, ?_⟩, (List.append_nil _).symm⟩
    cases h : s.msp.cmd with
    | none => rw [Option.map_none, ← h]; rfl
    | some c => rw [Option.map_some, List.append_nil, ← h]; rfl
  | cons i l ih =>
    obtain ⟨⟨w, id, hone⟩, hasks⟩ := s.diagRequest_spec v c i
    obtain ⟨⟨w', ids, hlen, hall⟩, hasks'⟩ := ih (s.diagRequest v c i)
    rw [List.foldl_cons]
    refine ⟨⟨w', id :: ids, congrArg (· + 1) hlen, ?_⟩, ?_⟩
    · rw [hall, hone]
      simp only [Option.map_map, Function.comp_def, List.append_assoc, List.singleton_append]
    · rw [hasks', hasks, List.append_assoc]
      rfl

/-! ## The checks of DIAG -/

section Checks
variable {c : Cmd} {g : BitVec 30} {n : BitVec 4}

theorem diag_reserved (g : BitVec 30) (n : BitVec 4) :
    g.setWidth 32 &&& ~~~ (0x3FFFFFFF : Word) = 0 ∧ n.setWidth 32 &&& ~~~ (0xF : Word) = 0 := by
  have hconst : ∀ i, i < 30 → (~~~ (0x3FFFFFFF : Word)).getLsbD i = false := by decide
  refine ⟨BitVec.eq_of_getLsbD_eq fun i hi => ?_, by revert n; decide⟩
  rw [BitVec.getLsbD_and]
  by_cases h : i < 30
  · rw [hconst i h, Bool.and_false]; exact BitVec.getLsbD_zero.symm
  · rw [BitVec.getLsbD_setWidth, BitVec.getLsbD_of_ge g i (by omega), Bool.and_false, Bool.false_and]
    exact BitVec.getLsbD_zero.symm

variable (harg : ∀ j, j < 8 → Command.word c j = [g.setWidth 32, n.setWidth 32].getD j 0)
include harg

theorem Command.first_diag : Command.first c = g.toNat := by
  unfold Command.first
  rw [harg 0 (by decide)]
  have hg := g.isLt
  have h : (g.setWidth 32).toNat = g.toNat := by rw [BitVec.toNat_setWidth]; omega
  change (g.setWidth 32).toNat / 2 ^ 0 % 2 ^ 30 = g.toNat
  rw [h]
  omega

theorem Command.count_diag : Command.count c = n.toNat + 1 := by
  unfold Command.count
  rw [harg 1 (by decide)]
  have hfld : ∀ k : BitVec 4, fld (k.setWidth 32) 0 4 = k.toNat := by decide
  exact congrArg (· + 1) (hfld n)

theorem Command.badArg_diag (hdiag : Command.isDiag c = true) (hop : c.opc = 0x50 ∨ c.opc = 0x51) :
    Command.badArg c = decide (2 ^ 30 < g.toNat + (n.toNat + 1)) := by
  have hnamed : Command.named c = [0x3FFFFFFF, 0xF] := by
    unfold Command.named
    rcases hop with h | h <;> (rw [Command.op_eq h, hdiag]; rfl)
  have hany : (List.range 8).any (fun i => Command.word c i &&& ~~~ (Command.named c).getD i 0 != 0) = false := by
    rw [List.any_eq_false, hnamed]
    intro i hi
    rw [harg i (List.mem_range.1 hi)]
    obtain ⟨h0, h1⟩ := diag_reserved g n
    match i with
    | 0 =>
      change ¬((g.setWidth 32 &&& ~~~ (0x3FFFFFFF : Word)) != 0) = true
      rw [h0]
      decide
    | 1 =>
      change ¬((n.setWidth 32 &&& ~~~ (0xF : Word)) != 0) = true
      rw [h1]
      decide
    | k + 2 => simp
  unfold Command.badArg
  rw [hany, Command.first_diag harg, Command.count_diag harg, hdiag]
  rcases hop with h | h <;> (rw [Command.op_eq h]; rfl)

end Checks

end Sys2Proof.Machine
end

section
/-! SUPPORT. THROTTLE_ACK and DIAG at their issue, and the completion of a DIAG command (R564, R617). -/

namespace Sys2Proof.Proofs

open Sys2Proof.Machine Sys2Proof.Safety

/-- THROTTLE_ACK acknowledges a request that stands. -/
theorem throttleAck_issues (s : State) (at_ : Instant) (tag : Byte) (hs : Served s) (hbusy : s.msp.busy = false)
    (hfw : s.msp.fwup = true) :
    let m := s.mc (s.clocks.mgmt.next (max s.now at_))
    ∃ t, exec (.throttleAck at_ tag) s = .next t ∧
    (if s.thm.req.isSome ∧ m ≤ s.thm.deadline ∧ s.thm.acked = false ∧ s.thm.expired = false then
      t.thm.acked = true ∧ t.thm.deadline = s.thm.req.getD 0 + s.thm.reqExt * 250000 ∧ Reported t 182 0x02 ∧
        t.thm = { s.thm with acked := true, deadline := t.thm.deadline }
     else t.thm = s.thm ∧ t.truss = s.truss) := by
  intro m
  let h : HostCmd := ⟨at_, tag, 0x30, [], [], some 64⟩
  let c := s.latched at_ 0x30 [] []
  have hexec := exec_hostCmd (i := .throttleAck at_ tag) (h := h) rfl s
  have hzero : ∀ j, j < 8 → Command.word c j = 0 := fun j hj =>
    (getD_overlay _ _ j hj).trans (by rw [Vector.getElem_replicate]; rfl)
  have hissue := s.issue_timed at_ 0x30 tag [] [] hfw rfl
  dsimp only at hissue
  rw [show Command.badArg (s.latched at_ 0x30 [] []) = false from Command.badArg_zero (c := c) hzero rfl,
    if_neg Bool.false_ne_true] at hissue
  let z := (s.hostWrote at_ [] []).inProgress 0x30 tag { c with doneAt := some ((s.at_ at_).nowMc + Command.latency c) }
  have hact : z.issueActs c = z.throttleAck m := rfl
  rw [State.command_idle s _ _ _ _ _ hs hbusy, hissue, show State.issueActs _ (s.latched at_ 0x30 [] []) = z.throttleAck m from hact] at hexec
  refine ⟨_, hexec, ?_⟩
  have hspec := z.throttleAck_spec m hs.1
  by_cases hc : s.thm.req.isSome ∧ m ≤ s.thm.deadline ∧ s.thm.acked = false ∧ s.thm.expired = false
  · rw [if_pos hc]
    rw [if_pos (show z.thm.req.isSome ∧ m ≤ z.thm.deadline ∧ z.thm.acked = false ∧ z.thm.expired = false from hc)] at hspec
    obtain ⟨hthm, htold⟩ := hspec
    exact ⟨by rw [hthm], by rw [hthm]; rfl, htold, by rw [hthm]; rfl⟩
  · rw [if_neg hc]
    rw [if_neg (show ¬(z.thm.req.isSome ∧ m ≤ z.thm.deadline ∧ z.thm.acked = false ∧ z.thm.expired = false) from hc)] at hspec
    rw [hspec]
    exact ⟨rfl, rfl⟩

/-- A DIAG command at its issue edge: the first check that fails, or its requests. -/
theorem diag_issues (s : State) (write : Bool) (at_ : Instant) (tag : Byte) (g : BitVec 30) (n : BitVec 4) (data : List Qword)
    (hs : Served s) (hbusy : s.msp.busy = false) (hfw : s.msp.fwup = true) :
    let i : Instr := if write then .diagWrite at_ tag (g.setWidth 32) (n.setWidth 32) data
      else .diagRead at_ tag (g.setWidth 32) (n.setWidth 32)
    let code : Byte :=
      if 2 ^ 30 < g.toNat + n.toNat + 1 then 0x11
      else if s.pwr.mode ≠ .run ∧ s.pwr.mode ≠ .shed then 0x12
      else if write = true ∧ s.anyArmed then 0x17
      else if s.vlt.st = .frozen then 0x1D
      else if s.vlt.st = .off ∨ s.vlt.st = .train ∨ s.vlt.st = .init then 0x12 else 0
    (code ≠ 0 → ∃ t c, exec i s = .next t ∧ t.msp.cmd = some c ∧ c.outcome = some (code, [], none) ∧
      c.doneAt = some (c.issue + 256) ∧ t.vlt = s.vlt) ∧
    (code = 0 → ∃ t c, exec i s = .next t ∧ t.msp.cmd = some c ∧ c.doneAt = none ∧ c.left.length = n.toNat + 1 ∧
      t.vlt.reqs.length = s.vlt.reqs.length + n.toNat + 1 ∧ t.mem = s.mem ∧
      ∀ j, j ≤ n.toNat → ∃ r, t.vlt.reqs[s.vlt.reqs.length + j]? = some r ∧ r.port = 13 ∧
        r.burst = (g.toNat + j) / 2 ∧ r.kind = (if write then .codewordWrite else .codewordRead) ∧
        (write = true → j < data.length → r.data = [((g.toNat + j) % 2 == 1, data.getD j 0)])) := by
  intro i code
  let opc : Byte := if write then 0x51 else 0x50
  let buf : List Word := if write then qwordsBuf data else []
  let arg : List Word := [g.setWidth 32, n.setWidth 32]
  let c := s.latched at_ opc arg buf
  have hexec : exec i s = .next (s.command at_ opc.toNat tag arg buf) := by
    cases write with
    | true => exact exec_hostCmd (i := .diagWrite at_ tag (g.setWidth 32) (n.setWidth 32) data) rfl s
    | false => exact exec_hostCmd (i := .diagRead at_ tag (g.setWidth 32) (n.setWidth 32)) rfl s
  have hop : c.opc = 0x50 ∨ c.opc = 0x51 := by cases write with | true => exact .inr rfl | false => exact .inl rfl
  have hdiag : Command.isDiag c = true := by cases write <;> rfl
  have harg : ∀ j, j < 8 → Command.word c j = arg.getD j 0 := fun j hj =>
    (getD_overlay _ _ j hj).trans (by rw [Vector.getElem_replicate])
  let z := (s.hostWrote at_ arg buf).inProgress opc tag c
  have hissue : ((s.at_ at_).modMsp (·.written arg buf)).issueCmd opc tag =
      if z.diagFails c = 0 then z.diagStart c
      else z.modCmd fun x => { x with outcome := some (z.diagFails c, [], none), doneAt := some ((s.at_ at_).nowMc + 256) } := by
    unfold State.issueCmd
    dsimp only
    have h : ¬(!((s.at_ at_).modMsp (·.written arg buf)).msp.fwup) = true :=
      fun h => Bool.false_ne_true ((congrArg (!·) hfw).symm.trans h)
    exact (if_neg h).trans (if_pos hdiag)
  have hfails : z.diagFails c = code := by
    have hperm : Command.permitted c z.pwr.mode = (s.pwr.mode == .run || s.pwr.mode == .shed) := by cases write <;> rfl
    have hwrite : decide (Command.op c = opDiagWrite) = write := by cases write <;> rfl
    unfold State.diagFails
    rw [Command.badArg_diag harg hdiag hop, hperm, hwrite]
    refine if_congr ?_ rfl (if_congr ?_ rfl (if_congr ?_ rfl (if_congr ?_ rfl (if_congr ?_ rfl rfl))))
    · rw [decide_eq_true_iff, Nat.add_assoc]
    · rw [Bool.not_eq_true', Bool.or_eq_false_iff, beq_eq_false_iff_ne, beq_eq_false_iff_ne]
    · rw [Bool.and_eq_true]; rfl
    · exact beq_iff_eq
    · rw [Bool.or_eq_true, Bool.or_eq_true, beq_iff_eq, beq_iff_eq, beq_iff_eq, or_assoc]; rfl
  rw [hexec, State.command_idle s _ _ _ _ _ hs hbusy, hissue, hfails]
  refine ⟨fun hcode => ?_, fun hcode => ?_⟩
  · rw [if_neg hcode]
    exact ⟨_, _, rfl, rfl, rfl, rfl, rfl⟩
  · rw [if_pos hcode]
    obtain ⟨⟨w, ids, hlen, hall⟩, hasks⟩ := State.diagRequests_spec (z.vc (z.clocks.vault.next z.now)) c
      (List.range (Command.count c)) z
    rw [List.length_range, Command.count_diag harg] at hlen
    have hreqs : (z.diagStart c).vlt.reqs.map Req.asks =
        s.vlt.reqs.map Req.asks ++ (List.range (n.toNat + 1)).map (Command.asks c) := by
      rw [← Command.count_diag harg]
      exact hasks
    have hstart : z.diagStart c = { z with vlt := w, msp := { z.msp with
        cmd := z.msp.cmd.map fun c => { c with left := c.left ++ ids } } } := hall
    refine ⟨_, { c with left := ids }, rfl, ?_, rfl, hlen, ?_, ?_, fun j hj => ?_⟩
    · rw [hstart]; rfl
    · have h := congrArg List.length hreqs
      rw [List.length_map, List.length_append, List.length_map, List.length_map, List.length_range] at h
      exact h
    · rw [hstart]; rfl
    · have h : ((z.diagStart c).vlt.reqs.map Req.asks)[s.vlt.reqs.length + j]? = some (Command.asks c j) := by
        rw [hreqs, List.getElem?_append_right (by rw [List.length_map]; omega), List.length_map, Nat.add_sub_cancel_left,
          List.getElem?_map, List.getElem?_range (by omega)]
        rfl
      rw [List.getElem?_map, Option.map_eq_some_iff] at h
      obtain ⟨r, hr, hr'⟩ := h
      unfold Req.asks Command.asks at hr'
      rw [Command.first_diag harg] at hr'
      obtain ⟨hport, hr'⟩ := Prod.mk.inj hr'
      obtain ⟨hburst, hr'⟩ := Prod.mk.inj hr'
      obtain ⟨hkind, hdata⟩ := Prod.mk.inj hr'
      refine ⟨r, hr, hport, hburst, hkind.trans ?_, fun hw hlt => ?_⟩
      · cases write <;> rfl
      · have hn := n.isLt
        subst hw
        rw [hdata, Command.data_eq (v := s.msp.buf) (fun k hk => getD_overlay _ _ k hk) hlt (by omega)]

theorem find_of_lookup {l : List (Nat × Qword)} {a : Nat} {w : Qword} (h : l.lookup a = some w) :
    (l.find? fun p => p.1 == a).map (·.2) = some w := by
  induction l with
  | nil => cases h
  | cons p l ih =>
    obtain ⟨b, v⟩ := p
    rw [List.lookup_cons] at h
    by_cases hab : a = b
    · subst hab
      rw [beq_self_eq_true] at h
      rw [List.find?_cons_of_pos (p := fun p : Nat × Qword => p.1 == a) (beq_self_eq_true a)]
      exact h
    · rw [beq_eq_false_iff_ne.2 hab] at h
      rw [List.find?_cons_of_neg (p := fun p : Nat × Qword => p.1 == a) (fun h => hab (beq_iff_eq.1 h).symm)]
      exact ih h

/-- A DIAG command whose requests have all been served answers; DIAG_READ puts the words into MSP.BUF. -/
theorem diag_completes {s : State} {c : Cmd} (hcmd : s.msp.cmd = some c) (hdone : c.doneAt = none) (hleft : c.left = [])
    (hbad : c.bad = none) (hrun : s.vlt.st ≠ .frozen) :
    ∃ t, exec .commandComplete s = .next t ∧ t.msp.cmd = none ∧ t.msp.busy = false ∧ t.msp.done = true ∧
    t.msp.code = 0 ∧ t.mem = s.mem ∧
    (c.opc = 0x50 → ∀ j k, j < Command.count c → k < 4 → ∀ w, c.got.lookup (Command.first c + j) = some w →
      t.msp.buf.toList.getD (4 * j + k) 0 = w.extractLsb' (32 * k) 32) := by
  let z := s.at_ (s.mcAt s.nowMc)
  let words := (List.range (Command.count c)).map fun i =>
    ((c.got.find? fun p => p.1 == Command.first c + i).map (·.2)).getD (z.galley (Command.first c + i))
  let out : List Word := if Command.op c = opDiagRead then qwordsBuf words else []
  have hans : z.diagAnswer c = (0, [], out) := by
    unfold State.diagAnswer
    rw [hbad]
    exact if_neg (show ¬z.frozen = true from fun h => hrun (beq_iff_eq.1 h))
  have hcomp : s.commandComplete = z.finish (0, [], out) := by
    unfold State.commandComplete
    rw [hcmd]
    dsimp only
    rw [hdone, hleft]
    dsimp only
    rw [← hans]
    rfl
  obtain ⟨l, hfin⟩ := z.finish_eq (0, [], out)
  refine ⟨_, congrArg Host.Outcome.next hcomp, ?_⟩
  rw [hfin]
  refine ⟨rfl, rfl, rfl, rfl, rfl, fun hop j k hj hk w hw => ?_⟩
  have hcount : Command.count c ≤ 16 := Nat.succ_le_of_lt (Nat.mod_lt _ (by decide))
  have hlen : words.length = Command.count c := by rw [List.length_map, List.length_range]
  have hout : out = qwordsBuf words := if_pos (Command.op_eq hop)
  have hword : words[j]'(by omega) = w := by
    rw [List.getElem_map, List.getElem_range, find_of_lookup hw]
    rfl
  refine (getD_overlay s.msp.buf out (4 * j + k) (by omega)).trans ?_
  rw [hout, qwordsBuf_getD words j k (by omega) hk, hword]

/-- Settles O25: one lemma per command, by its row at the completion edge or at its issue. -/
theorem serviceAndDiagCommands : Obligations.ServiceAndDiagCommands := by
  refine ⟨fun s => ⟨fun c m hdue hbad hmode => ?_, fun at_ tag => throttleAck_issues s at_ tag⟩,
    fun s write at_ tag g n data => ⟨diag_issues s write at_ tag g n data,
      fun c hcmd hdone hleft hbad hrun _ => diag_completes hcmd hdone hleft hbad hrun⟩⟩
  intro z at_ stamp
  refine ⟨fun hop => (remap_answers hdue hbad hmode hop).1, fun hop => (remap_answers hdue hbad hmode hop).2,
    calibrate_answers hdue hbad hmode, fun hop => (storeCal_answers hdue hbad hmode hop).1,
    fun hop => (storeCal_answers hdue hbad hmode hop).2.1, fun hop => (storeCal_answers hdue hbad hmode hop).2.2,
    fun hop => ?_, fun hop hshed => (shedExit_answers hdue hbad hshed hop).1,
    fun hop hshed => (shedExit_answers hdue hbad hshed hop).2, fun hop => (selectForme_answers hdue hbad hmode hop).1,
    fun hop => (selectForme_answers hdue hbad hmode hop).2, fun hop => (lifecycle_answers hdue hbad hmode hop).1,
    fun hop => (lifecycle_answers hdue hbad hmode hop).2⟩
  have hbit : BitVec.ofNat 32 (bit c.reqAtIssue) = (if c.reqAtIssue then 1 else 0 : Word) := by
    cases c.reqAtIssue <;> rfl
  have hact := State.act_throttleAck (s := z) hop
  rw [hbit] at hact
  exact answers_only hdue hbad hmode hop (by decide) hact (onlyMailbox_at s _) rfl

end Sys2Proof.Proofs
end

section
/-! SUPPORT. An access start on an MGMT clock whose numbered edges lie ahead of the present instant: the count of R8 jumps to the
clock's own edge 3, while its period grid reaches back. -/

namespace Sys2Proof.Machine

open Sys2Proof.Safety

/-- MGMT's edge 0 lies 1,000,000,000 units ahead, as no reset leaves it. -/
def lateClock : State :=
  { State.reset with clocks := { State.reset.clocks with mgmt := { period := 256000, phase := 1000000000, base := 0, was := none } } }

/-- A refused word outside every block, at address 0x30000: the instant of its answer and the one that Table 20.12 counts to. -/
theorem lateClock_answers :
    (lateClock.frame 0 0x30000 1 fun z => z.readFrame 0x30000 1).now ≠ firstWord lateClock 0 0x30000 := by
  decide +kernel

theorem lateClock_refuses : Served lateClock ∧
    (lateClock.at_ (firstSample lateClock 0 0x30000)).accessStatus 0x30000 = 3 := by
  unfold Served
  decide +kernel

end Sys2Proof.Machine

namespace Sys2Proof.Proofs

open Sys2Proof.Machine Sys2Proof.Safety

/-- Refutes O26: the statement asks nothing of the MGMT clock; where its edge 0 lies ahead of the present instant, the third edge
through the crossing is not three periods after the edge that samples the frame. -/
theorem not_readFrames : ¬ Obligations.ReadFrames := by
  intro h
  obtain ⟨hserved, hstatus⟩ := lateClock_refuses
  obtain ⟨-, hrefused, -⟩ := h lateClock 0 0x30000 hserved rfl
  obtain ⟨t, hexec, hnow, -⟩ := hrefused 3 (by decide) hstatus
  obtain rfl := Host.Outcome.next.inj hexec
  exact lateClock_answers hnow

end Sys2Proof.Proofs
end

section
/-! SUPPORT. Writes of one register through the port and BAR0 (R547, R568): refused words, selectors, cleared fields, buffers. -/

namespace Sys2Proof.Machine

open Sys2Proof.Safety

section Words
variable {off : Nat}

theorem blockOf_msp (h : off < 0x10000) : blockOf (0xF00000 + off) = (.msp, off) := by
  unfold blockOf
  simp (disch := omega) only [if_neg, if_pos, Nat.add_sub_cancel_left]

/-- STATUS of a word that no block lists, or whose channel is off, or that the life cycle closes. -/
theorem State.accessStatus_codes (s : State) (a : Nat) :
    s.accessStatus a = 0 ∨ s.accessStatus a = 3 ∨ s.accessStatus a = 4 ∨ s.accessStatus a = 5 := by
  have htwo : ∀ (p : Bool) (q : Prop) [Decidable q] (x : Byte), (x = 0 ∨ x = 3) →
      (if p then 4 else if q then 5 else x : Byte) = 0 ∨ (if p then 4 else if q then 5 else x : Byte) = 3 ∨
        (if p then 4 else if q then 5 else x : Byte) = 4 ∨ (if p then 4 else if q then 5 else x : Byte) = 5 := by
    intro p q _ x hx
    split
    · exact .inr (.inr (.inl rfl))
    · split
      · exact .inr (.inr (.inr rfl))
      · exact hx.elim .inl fun h => .inr (.inl h)
  exact htwo _ _ _ (by split <;> simp)

/-- A report of a refused access reaches nothing but the truss. -/
theorem State.reportDenied_eq (s : State) (a : Nat) (st : Byte) : ∃ l, s.reportDenied a st =
    { s with truss := { s.truss with incoming := s.truss.incoming ++ l } } := by
  have hnone : ∃ l, s = { s with truss := { s.truss with incoming := s.truss.incoming ++ l } } := ⟨[], by rw [List.append_nil]⟩
  unfold State.reportDenied
  split
  · exact hnone
  · split
    · exact s.raiseM_eq 240 0x04
    · split
      · exact s.raiseM_eq 225 0x01
      · exact hnone

/-- The status of a frame that no CRC and no running command ends. -/
theorem State.frameStatus_eq (s : State) {st : Byte} (h6 : st ≠ 6) (h1 : st ≠ 1) : s.frameStatus st = s.modMsp (·.ended st) := by
  unfold State.frameStatus
  dsimp only
  rw [if_neg h6, if_neg h1]
  simp only [if_neg h6, if_neg h1]
  rfl

/-- A refused word changes nothing, and STATUS says why. -/
theorem State.access_refused {s : State} (t : Instant) (a : Nat) (w : Word) (hs : Served s)
    (hst : (s.at_ t).accessStatus a ≠ 0) :
    OnlyMailbox s (s.access t a w) ∧ EndedWith s (s.access t a w) ((s.at_ t).accessStatus a) := by
  have h : s.access t a w =
      ((s.at_ t).reportDenied a ((s.at_ t).accessStatus a)).modMsp (·.ended ((s.at_ t).accessStatus a)) := by
    have hcodes := (s.at_ t).accessStatus_codes a
    unfold State.access State.writeOne
    dsimp only
    rw [State.served_at t hs, if_neg (by decide), if_pos hst, State.frameStatus_eq]
    · exact fun h => by rw [show (s.at_ t).accessStatus a = 6 from h] at hcodes; revert hcodes; decide
    · exact fun h => by rw [show (s.at_ t).accessStatus a = 1 from h] at hcodes; revert hcodes; decide
  obtain ⟨l, hl⟩ := (s.at_ t).reportDenied_eq a ((s.at_ t).accessStatus a)
  rw [h, hl]
  exact ⟨rfl, endedWith_ended rfl⟩

/-- A word of MSP.BUF is defined and belongs to the mailbox. -/
theorem buf_entry {j : Nat} (hj : j < 64) : inArray (0x100 + 4 * j) 0x100 4 64 = some (j, 0) :=
  inArray_entry (o := 0) hj (by decide)

theorem blockOf_buf {j : Nat} (hj : j < 64) : blockOf (0xF00100 + 4 * j) = (.msp, 0x100 + 4 * j) := by
  rw [show 0xF00100 + 4 * j = 0xF00000 + (0x100 + 4 * j) by omega]
  exact blockOf_msp (by omega)

theorem isMailbox_buf {j : Nat} (hj : j < 64) : isMailbox (0xF00100 + 4 * j) = true := by
  unfold isMailbox
  rw [blockOf_buf hj]
  dsimp only
  rw [buf_entry hj]
  exact Bool.or_true _

theorem State.accessStatus_buf (s : State) {j : Nat} (hj : j < 64) : s.accessStatus (0xF00100 + 4 * j) = 0 := by
  refine s.accessStatus_open (blockOf_buf hj) (fun _ => nofun) rfl
    (by rw [isMakerWindow_outside (by omega), Bool.false_and]) (isCdata_outside (by omega)) ?_
  have haddr : (0xF00100 + 4 * j) % 4 = 0 := by omega
  unfold State.reg
  rw [haddr, blockOf_buf hj]
  dsimp only
  unfold State.mspReg
  simp [buf_entry hj]

theorem State.writeReg_buf (s : State) {j : Nat} (hj : j < 64) (w : Word) (issue : Bool) :
    s.writeReg (0xF00100 + 4 * j) w issue = s.modMsp fun m => { m with buf := m.buf.set j w } := by
  have harg : inArray (0x100 + 4 * j) 0x20 4 8 = none := by unfold inArray; exact if_neg (by omega)
  unfold State.writeReg
  rw [blockOf_buf hj]
  dsimp only
  unfold State.writeMsp
  rw [if_neg (by omega), harg, buf_entry hj]
  dsimp only
  simp only [Fin.val_ofNat, Nat.mod_eq_of_lt hj]

/-- A write of a word of MSP.BUF. -/
theorem State.writeOne_buf (s : State) {j : Nat} (hj : j < 64) (w : Word) (busy ok : Bool) :
    s.writeOne (0xF00100 + 4 * j) w busy ok =
      if busy then (s, 6) else (s.modMsp fun m => { m with buf := m.buf.set j w }, 0) := by
  unfold State.writeOne
  dsimp only
  rw [s.accessStatus_buf hj, if_neg (by decide), isMailbox_buf hj, Bool.and_true, s.writeReg_buf hj]

end Words

/-! ## Ring registers -/

theorem ring_entry (r : Ring) : inArray (0x1000 + 32 * r.val) 0x1000 0x20 32 = some (r.val, 0) :=
  inArray_entry (o := 0) r.isLt (by decide)

theorem State.writeBar0_base (s : State) (r : Ring) (w : Word) :
    s.writeBar0 (0x1000 + 32 * r.val) w =
      if (s.ring r).en then s else s.modRing r fun q => { q with base := hi32 q.base ++ (w &&& 0xFFFFF000) } := by
  have hr := r.isLt
  have hfin : (Fin.ofNat 32 r.val : Ring) = r := Fin.ext (Nat.mod_eq_of_lt hr)
  unfold State.writeBar0
  rw [if_neg (by omega), if_neg (by omega), ring_entry]
  dsimp only
  rw [hfin]
  exact if_pos (.inl rfl)

/-- TRS.SRC_STAT of a source is a word of the truss. -/
theorem State.access_srcStat {s : State} (hs : Served s) (t : Instant) (n : Source) (w : Word) :
    s.access t (0xB01004 + 16 * n.val) w = ((s.at_ t).writeSrcStat n w).modMsp (·.ended 0) := by
  have hn : n.val < 256 := n.isLt
  have hblock : blockOf (0xB01004 + 16 * n.val) = (.trs, 0x1000 + (16 * n.val + 4)) := by
    rw [show 0xB01004 + 16 * n.val = 0xB00000 + (0x1000 + (16 * n.val + 4)) by omega]
    exact blockOf_trs (by omega)
  have hentry : inArray (0x1000 + (16 * n.val + 4)) 0x1000 16 256 = some (n.val, 4) := inArray_entry n.isLt (by decide)
  have hsrc : (Fin.ofNat 256 n.val : Source) = n := Fin.ext (Nat.mod_eq_of_lt n.isLt)
  have hreg : ((s.at_ t).reg (0xB01004 + 16 * n.val)).isSome = true := by
    have haddr : (0xB01004 + 16 * n.val) % 4 = 0 := by omega
    simp only [State.reg, haddr, hblock, State.trsReg, hentry]
    simp [wordsAt]
  have hwrite : (s.at_ t).writeReg (0xB01004 + 16 * n.val) w true = (s.at_ t).writeSrcStat n w := by
    simp (disch := omega) only [State.writeReg, hblock, State.writeTrs, if_neg, hentry, hsrc]
  rw [← hwrite]
  exact State.access_granted t w hs (isMailbox_of_block hblock nofun) ((s.at_ t).accessStatus_open hblock (fun _ => nofun) rfl
    (by rw [isMakerWindow_outside (by omega), Bool.false_and]) (isCdata_outside (by omega)) hreg)

end Sys2Proof.Machine

namespace Sys2Proof.Proofs

open Sys2Proof.Machine Sys2Proof.Safety

/-- A defined word outside CMP, TST and LCY takes what its block writes. -/
theorem access_word {s : State} (hs : Served s) (t : Instant) (w : Word) {a off : Nat} {b : Block}
    (hblock : blockOf a = (b, off)) (hcmp : ∀ c, b ≠ .cmp c) (hmsp : b ≠ .msp) (htst : (b == .tst) = false) (ha : a < 0xD80000)
    (hreg : ((s.at_ t).reg a).isSome = true) :
    s.access t a w = ((s.at_ t).writeReg a w true).modMsp (·.ended 0) :=
  State.access_granted t w hs (isMailbox_of_block hblock hmsp) ((s.at_ t).accessStatus_open hblock hcmp
    (by rw [htst, Bool.false_and]) (by rw [isMakerWindow_outside (by omega), Bool.false_and]) (isCdata_outside (by omega)) hreg)

theorem toNat_ofNat_lt {n : Nat} (h : n < 2 ^ 32) : (BitVec.ofNat 32 n).toNat = n := by
  rw [BitVec.toNat_ofNat, Nat.mod_eq_of_lt h]

/-- A word of the buffer through the port. -/
theorem buffer_write {s : State} (hs : Served s) (t : Instant) (w : Word) (j : Nat) (hj : j < 64) :
    (s.msp.busy = true → s.access t (0xF00100 + 4 * j) w = (s.at_ t).frameStatus 6) ∧
    (s.msp.busy = false → s.access t (0xF00100 + 4 * j) w =
      (s.at_ t).modMsp fun m => { m with buf := m.buf.set j w, last := 0 }) := by
  have hone := (s.at_ t).writeOne_buf hj w s.msp.busy true
  have haccess : s.access t (0xF00100 + 4 * j) w =
      ((s.at_ t).writeOne (0xF00100 + 4 * j) w s.msp.busy true).1.frameStatus
        ((s.at_ t).writeOne (0xF00100 + 4 * j) w s.msp.busy true).2 := by
    unfold State.access
    dsimp only
    rw [State.served_at t hs]
    rfl
  rw [haccess, hone]
  refine ⟨fun h => ?_, fun h => ?_⟩
  · rw [h]; rfl
  · rw [h, if_neg Bool.false_ne_true]
    exact State.frameStatus_eq _ (st := 0) (by decide) (by decide)

/-- Settles O28: the checks first, then the word's own block. -/
theorem registerWrites : Obligations.RegisterWrites := by
  intro s at_ w hs
  refine ⟨fun addr hst => ⟨_, rfl, State.access_refused at_ addr.toNat w hs hst⟩, fun j hj => ?_, ?_, ?_, ?_, fun n => ?_, ?_,
    fun r => ?_⟩
  · have haddr : (BitVec.ofNat 32 (0xF00100 + 4 * j)).toNat = 0xF00100 + 4 * j := toNat_ofNat_lt (by omega)
    obtain ⟨hbusy, hidle⟩ := buffer_write hs at_ w j hj
    refine ⟨_, congrArg (fun a => Host.Outcome.next (s.access at_ a w)) haddr, fun h => ?_, fun h => ?_⟩
    · rw [hbusy h]
      rw [show (s.at_ at_).frameStatus 6 =
        ((s.at_ at_).modMsp fun m => { m with last := 6, errBusy := satAdd m.errBusy 1 }).raiseM 232 0x04 from rfl,
        State.raiseM_msp]
      exact ⟨rfl, rfl, rfl⟩
    · rw [hidle h]
      refine ⟨rfl, rfl, fun i hi => ?_⟩
      refine (Vector.getElem_set hj hi).trans ?_
      exact if_congr eq_comm rfl rfl
  · have h := access_word hs at_ w (a := 0x001004) (b := .top) rfl (fun _ => nofun) nofun rfl (by decide) rfl
    exact ⟨_, congrArg Host.Outcome.next h, endedWith_ended rfl, rfl⟩
  · have h := access_word hs at_ w (a := 0x800000) (b := .gal) rfl (fun _ => nofun) nofun rfl (by decide) rfl
    exact ⟨_, congrArg Host.Outcome.next h, endedWith_ended rfl, rfl⟩
  · have h := access_word hs at_ w (a := 0xB00008) (b := .trs) rfl (fun _ => nofun) nofun rfl (by decide) rfl
    exact ⟨_, congrArg Host.Outcome.next h, endedWith_ended rfl, rfl⟩
  · have haddr : (BitVec.ofNat 32 (0xB01004 + 16 * n.val)).toNat = 0xB01004 + 16 * n.val :=
      toNat_ofNat_lt (by have := n.isLt; omega)
    refine ⟨_, (congrArg (fun a => Host.Outcome.next (s.access at_ a w)) haddr).trans
      (congrArg Host.Outcome.next (State.access_srcStat hs at_ n w)), ?_⟩
    have hself : (((s.at_ at_).writeSrcStat n w).modMsp (·.ended 0)).src n = _ := State.src_setSrc_self _ _ _
    refine ⟨?_, ?_, ?_, fun m hm => State.src_setSrc_ne _ n m _ hm⟩
    all_goals rw [hself]; rfl
  · have h := access_word hs at_ w (a := 0x010010) (b := .tbs) rfl (fun _ => nofun) nofun rfl (by decide) rfl
    exact ⟨_, congrArg Host.Outcome.next h, rfl⟩
  · have haddr : (BitVec.ofNat 32 (0x1000 + 32 * r.val)).toNat = 0x1000 + 32 * r.val :=
      toNat_ofNat_lt (by have := r.isLt; omega)
    have hexec : exec (.registerWrite at_ .bar0 (BitVec.ofNat 32 (0x1000 + 32 * r.val)) w) s =
        .next (if (s.ring r).en then s.at_ at_ else
          (s.at_ at_).modRing r fun q => { q with base := hi32 q.base ++ (w &&& 0xFFFFF000) }) :=
      (congrArg (fun a => Host.Outcome.next ((s.at_ at_).writeBar0 a w)) haddr).trans
        (congrArg Host.Outcome.next ((s.at_ at_).writeBar0_base r w))
    refine ⟨_, hexec, fun hen => ?_, fun hen => ?_⟩
    · rw [if_pos hen]; rfl
    · rw [hen, if_neg Bool.false_ne_true]
      refine ⟨?_, fun q hq => (State.ring_setRing_ne _ _ _ _ hq).trans rfl⟩
      exact (congrArg RingSt.base (State.ring_setRing_self ..)).trans rfl

end Sys2Proof.Proofs
end

section
/-! SUPPORT. Reads of one register: what sampling captures, and which fields a read that ended with OK clears (R88, R546). -/

namespace Sys2Proof.Machine

open Sys2Proof.Safety

/-- The mailbox after a read that has ended with OK. -/
def Msp.sampled (m : Msp) (bytes : List Byte) : Msp := { m with last := 0, miso := bytes }

section Reads
variable {s : State}

/-- A read of a word that may be sampled. -/
theorem State.readAccess_granted (hs : Served s) (t : Instant) (a : Nat)
    (hst : (s.at_ (sampleAt a t)).accessStatus a = 0) :
    ∃ bytes, s.readAccess t a = ((((s.at_ (sampleAt a t)).capture a).at_ t).modMsp (·.sampled bytes)).clearRc a := by
  unfold State.readAccess State.readWord
  dsimp only
  rw [State.served_at t hs, hst]
  exact ⟨_, rfl⟩

theorem blockOf_cmp (c : Chan) {off : Nat} (h : off < 0x10000) : blockOf (0x100000 + 0x10000 * c.val + off) = (.cmp c, off) := by
  have hc := c.isLt
  have hfin : (Fin.ofNat 96 c.val : Chan) = c := Fin.ext (Nat.mod_eq_of_lt hc)
  unfold blockOf
  simp (disch := omega) only [if_neg, if_pos]
  rw [show (0x100000 + 0x10000 * c.val + off - 0x100000) / 0x10000 = c.val by omega, hfin,
    show (0x100000 + 0x10000 * c.val + off) % 0x10000 = off by omega]

theorem chanAddr_toNat (c : Chan) {off : Nat} (h : off < 0x10000) :
    (chanAddr c off).toNat = 0x100000 + 0x10000 * c.val + off := by
  have hc := c.isLt
  unfold chanAddr
  rw [BitVec.toNat_ofNat, Nat.mod_eq_of_lt (by omega)]

/-- A defined word of a channel whose domain is on. -/
theorem State.accessStatus_chan (s : State) (c : Chan) {off : Nat} (h : off < 0x10000) (h4 : off % 4 = 0) (hon : s.chOn c = true)
    (hreg : ∀ (x : Channel) n, (x.reg n off).isSome = true) : s.accessStatus (0x100000 + 0x10000 * c.val + off) = 0 := by
  have hc := c.isLt
  have haddr : (0x100000 + 0x10000 * c.val + off) % 4 = 0 := by omega
  have hdef : (s.reg (0x100000 + 0x10000 * c.val + off)).isNone = false := by
    rw [Option.isNone_eq_false_iff]
    unfold State.reg
    rw [haddr, blockOf_cmp c h]
    exact hreg (s.chan c) _
  unfold State.accessStatus
  rw [blockOf_cmp c h, isMakerWindow_outside (.inl (by omega)), isCdata_outside (.inl (by omega)), hdef]
  have hoff : ¬(!s.chOn c) = true := by rw [hon]; decide
  exact (if_neg fun h => Bool.false_ne_true h).trans ((if_neg hoff).trans rfl)

/-- A read of a channel's word: its captures, then its RC fields; no other channel is touched. -/
theorem State.readAccess_chan (hs : Served s) (t : Instant) (c : Chan) {off : Nat} (h : off < 0x10000) (h4 : off % 4 = 0)
    (hon : s.chOn c = true) (hreg : ∀ (x : Channel) n, (x.reg n off).isSome = true) :
    EndedWith s (s.readAccess t (chanAddr c off).toNat) 0 ∧
    (s.readAccess t (chanAddr c off).toNat).chan c = ((s.chan c).capture off).clearRc off ∧
    ∀ d, d ≠ c → (s.readAccess t (chanAddr c off).toNat).chan d = s.chan d := by
  rw [chanAddr_toNat c h]
  obtain ⟨bytes, hread⟩ := State.readAccess_granted hs t (0x100000 + 0x10000 * c.val + off)
    (State.accessStatus_chan _ c h h4 hon hreg)
  have hcap : ∀ z : State, z.capture (0x100000 + 0x10000 * c.val + off) = z.modChan c fun x => x.capture off := fun z => by
    unfold State.capture
    rw [blockOf_cmp c h]
  have hclear : ∀ z : State, z.clearRc (0x100000 + 0x10000 * c.val + off) = z.modChan c fun x => x.clearRc off := fun z => by
    unfold State.clearRc
    rw [blockOf_cmp c h]
  rw [hread, hclear, hcap]
  refine ⟨⟨rfl, rfl, rfl, rfl⟩, (State.chan_setChan_self ..).trans ?_, fun d hd => ?_⟩
  · exact congrArg (Channel.clearRc · off) (State.chan_setChan_self ..)
  · exact (State.chan_setChan_ne _ _ _ _ hd).trans (State.chan_setChan_ne _ _ _ _ hd)

/-- VLT.CE of a pseudo-channel. -/
theorem ce_entry (q : Pch) : inArray (0x400 + 8 * q.val) 0x400 8 32 = some (q.val, 0) :=
  inArray_entry (o := 0) q.isLt (by decide)

theorem blockOf_vlt {off : Nat} (h : off < 0x100000) : blockOf (0x900000 + off) = (.vlt, off) := by
  unfold blockOf
  simp (disch := omega) only [if_neg, if_pos, Nat.add_sub_cancel_left]

theorem blockOf_ce (q : Pch) : blockOf (0x900400 + 8 * q.val) = (.vlt, 0x400 + 8 * q.val) := by
  have hq := q.isLt
  rw [show 0x900400 + 8 * q.val = 0x900000 + (0x400 + 8 * q.val) by omega]
  exact blockOf_vlt (by omega)

theorem State.readAccess_ce (hs : Served s) (t : Instant) (q : Pch) : ∃ bytes,
    s.readAccess t (0x900400 + 8 * q.val) =
      (((s.at_ (sampleAt (0x900400 + 8 * q.val) t)).at_ t).modMsp (·.sampled bytes)).modPch q fun x => { x with ce := 0 } := by
  have hq := q.isLt
  have hfin : (Fin.ofNat 32 q.val : Pch) = q := Fin.ext (Nat.mod_eq_of_lt hq)
  have hst : (s.at_ (sampleAt (0x900400 + 8 * q.val) t)).accessStatus (0x900400 + 8 * q.val) = 0 := by
    refine State.accessStatus_open _ (blockOf_ce q) (fun _ => nofun) rfl
      (by rw [isMakerWindow_outside (by omega), Bool.false_and]) (isCdata_outside (by omega)) ?_
    have haddr : (0x900400 + 8 * q.val) % 4 = 0 := by omega
    unfold State.reg
    rw [haddr, blockOf_ce]
    dsimp only
    unfold State.vltReg
    simp [ce_entry q]
  obtain ⟨bytes, hread⟩ := State.readAccess_granted hs t _ hst
  have hcap : ∀ z : State, z.capture (0x900400 + 8 * q.val) = z := fun z => by
    unfold State.capture
    rw [blockOf_ce]
    exact if_neg (by omega)
  have hclear : ∀ z : State, z.clearRc (0x900400 + 8 * q.val) = z.modPch q fun x => { x with ce := 0 } := fun z => by
    have hport : inArray (0x400 + 8 * q.val) 0x100 16 14 = none := by unfold inArray; exact if_neg (by omega)
    have hmnt : inArray (0x400 + 8 * q.val) 0x1100 8 32 = none := by unfold inArray; exact if_neg (by omega)
    unfold State.clearRc
    rw [blockOf_ce]
    dsimp only
    rw [hport, ce_entry, hmnt]
    exact congrArg (z.modPch · fun x => { x with ce := 0 }) hfin
  refine ⟨bytes, ?_⟩
  rw [hread, hcap, hclear]

end Reads

end Sys2Proof.Machine

namespace Sys2Proof.Proofs

open Sys2Proof.Machine Sys2Proof.Safety

/-- Settles O29: one read captures and clears by its block and offset. -/
theorem capturesAndClears : Obligations.CapturesAndClears := by
  intro s at_ hs
  refine ⟨fun c hon => ?_, ?_, ?_, ?_, ?_, ?_, fun q => ?_⟩
  · have chan : ∀ (off : Nat), off < 0x10000 → off % 4 = 0 → (∀ (x : Channel) n, (x.reg n off).isSome = true) →
        ∃ t, exec (.rcRead at_ (chanAddr c off)) s = .next t ∧ exec (.captureRead at_ (chanAddr c off)) s = .next t ∧
        EndedWith s t 0 ∧ t.chan c = ((s.chan c).capture off).clearRc off ∧ ∀ d, d ≠ c → t.chan d = s.chan d :=
      fun off h h4 hreg => ⟨_, rfl, rfl, State.readAccess_chan hs at_ c h h4 hon hreg⟩
    refine ⟨?_, ?_, ?_, ?_, ?_, ?_, ?_⟩
    · obtain ⟨t, -, hexec, -, hc, -⟩ := chan 0x110 (by decide) rfl fun _ _ => rfl
      exact ⟨t, hexec, by rw [hc]; rfl, by rw [hc]; rfl, by rw [hc]; rfl⟩
    · obtain ⟨t, -, hexec, -, hc, -⟩ := chan 0x198 (by decide) rfl fun _ _ => rfl
      exact ⟨t, hexec, by rw [hc]; rfl⟩
    · obtain ⟨t, -, hexec, -, hc, -⟩ := chan 0x120 (by decide) rfl fun _ _ => rfl
      exact ⟨t, hexec, by rw [hc]; rfl⟩
    · obtain ⟨t, -, hexec, -, hc, -⟩ := chan 0xC1C (by decide) rfl fun _ _ => rfl
      exact ⟨t, hexec, by rw [hc]; rfl⟩
    · obtain ⟨t, hexec, -, hend, hc, hothers⟩ := chan 0x10C (by decide) rfl fun _ _ => rfl
      exact ⟨t, hexec, hend, by rw [hc]; rfl, hothers⟩
    · obtain ⟨t, hexec, -, -, hc, -⟩ := chan 0x1A8 (by decide) rfl fun _ _ => rfl
      exact ⟨t, hexec, by rw [hc]; rfl⟩
    · obtain ⟨t, hexec, -, -, hc, -⟩ := chan 0xC14 (by decide) rfl fun _ _ => rfl
      exact ⟨t, hexec, by rw [hc]; rfl⟩
  · obtain ⟨bytes, h⟩ := State.readAccess_granted hs at_ 0xB00020 rfl
    exact ⟨_, congrArg Host.Outcome.next h, ⟨rfl, rfl, rfl, rfl⟩, rfl⟩
  · obtain ⟨bytes, h⟩ := State.readAccess_granted hs at_ 0xC80034 rfl
    exact ⟨_, congrArg Host.Outcome.next h, rfl⟩
  · obtain ⟨bytes, h⟩ := State.readAccess_granted hs at_ 0xB00004 rfl
    exact ⟨_, congrArg Host.Outcome.next h, ⟨rfl, rfl, rfl, rfl⟩, rfl⟩
  · obtain ⟨bytes, h⟩ := State.readAccess_granted hs at_ 0xF00008 rfl
    exact ⟨_, congrArg Host.Outcome.next h, rfl, rfl, rfl, rfl, ⟨rfl, rfl, rfl, rfl⟩⟩
  · obtain ⟨bytes, h⟩ := State.readAccess_granted hs at_ 0x001304 rfl
    exact ⟨_, congrArg Host.Outcome.next h, rfl⟩
  · have haddr : (BitVec.ofNat 32 (0x900400 + 8 * q.val)).toNat = 0x900400 + 8 * q.val :=
      toNat_ofNat_lt (by have := q.isLt; omega)
    obtain ⟨bytes, h⟩ := State.readAccess_ce hs at_ q
    refine ⟨_, (congrArg (fun a => Host.Outcome.next (s.readAccess at_ a)) haddr).trans (congrArg Host.Outcome.next h), ?_, ?_,
      fun p hp => State.pch_setPch_ne _ _ _ _ hp⟩
    · exact congrArg PcSt.ce (State.pch_setPch_self ..)
    · exact (congrArg PcSt.ceLog (State.pch_setPch_self ..)).trans rfl

end Sys2Proof.Proofs
end

section
/-! SUPPORT. WRITE frames into MSP.BUF, frames that end early, and rejected headers (R542, R543, R545, R571, R573). -/

namespace Sys2Proof.Machine

open Sys2Proof.Safety

/-! ## Words of a WRITE into the buffer -/

/-- The words of a WRITE go into consecutive words of MSP.BUF, which keeps the others. -/
theorem State.writeWords_buf (ws : List Word) (k : Nat) (hk : k + ws.length ≤ 64) (s : State) :
    ∃ n buf, State.writeWords false ws true s (0xF00100 + 4 * k) = ({ s with now := n, msp := { s.msp with buf := buf } }, 0) ∧
      ∀ j, (h : j < 64) → buf[j] = if k ≤ j ∧ j < k + ws.length then ws.getD (j - k) 0 else s.msp.buf[j] := by
  induction ws generalizing k s with
  | nil =>
    refine ⟨s.now, s.msp.buf, rfl, fun j hj => ?_⟩
    rw [if_neg (by rw [List.length_nil]; omega)]
  | cons w ws ih =>
    rw [List.length_cons] at hk
    let z := s.at_ (s.now + wordTime (blockOf (0xF00100 + 4 * k)).1 * s.clocks.mgmt.period)
    let y := z.modMsp fun m => { m with buf := m.buf.set k w }
    have hone : z.writeOne (0xF00100 + 4 * k) w false true = (y, 0) := by
      rw [State.writeOne_buf z (by omega)]
      exact if_neg Bool.false_ne_true
    obtain ⟨n, buf, hrest, hbuf⟩ := ih (k + 1) (by omega) y
    let next := fun (r : State × Byte) =>
      let t := State.writeWords false ws (true && r.2 == 0) r.1 (0xF00100 + 4 * k + 4)
      (t.1, if r.2 = 0 then t.2 else r.2)
    have hstep : State.writeWords false (w :: ws) true s (0xF00100 + 4 * k) = next (y, 0) := congrArg next hone
    rw [show 0xF00100 + 4 * (k + 1) = 0xF00100 + 4 * k + 4 by omega] at hrest
    simp only [next] at hstep
    rw [show (true && (0 : Byte) == 0) = true from rfl, hrest] at hstep
    refine ⟨n, buf, hstep, fun j hj => ?_⟩
    rw [hbuf j hj, List.length_cons]
    have hy : y.msp.buf[j] = if k = j then w else s.msp.buf[j] := Vector.getElem_set (by omega) hj
    rw [hy]
    by_cases hkj : k = j
    · subst hkj
      rw [if_neg (by omega), if_pos rfl, if_pos (by omega), Nat.sub_self]
      rfl
    · rw [if_neg hkj]
      by_cases hin : k + 1 ≤ j ∧ j < k + 1 + ws.length
      · rw [if_pos hin, if_pos (by omega), show j - k = (j - (k + 1)) + 1 by omega]
        rfl
      · rw [if_neg hin, if_neg (by omega)]

/-! ## Words of a READ that only samples -/

/-- What sampling leaves outside the channels, and of each of them. -/
def State.unsampled (s : State) : Msp × List (Nat × Byte) × Byte × Byte := (s.msp, s.mem, s.sync.errCrc, s.truss.histLost)
def Channel.unsampled (x : Channel) : Engine × BitVec 16 × Nat × BitVec 16 :=
  (x.eng, x.trg.ignored, x.laneH.hwm, x.laneL.mismatch)

/-- Captures have been taken, nothing has been cleared. -/
structure SampledOnly (s t : State) : Prop where
  whole : t.unsampled = s.unsampled
  chans : ∀ c, (t.chan c).unsampled = (s.chan c).unsampled

namespace SampledOnly
variable {s t u : State}

theorem refl (s : State) : SampledOnly s s := ⟨rfl, fun _ => rfl⟩
theorem trans (h : SampledOnly s t) (g : SampledOnly t u) : SampledOnly s u :=
  ⟨g.whole.trans h.whole, fun c => (g.chans c).trans (h.chans c)⟩

end SampledOnly

theorem Lane.capture_hwm (ln : Lane) (off : Nat) : (ln.capture off).hwm = ln.hwm := by
  unfold Lane.capture
  split
  · rfl
  · split
    · rfl
    · split <;> rfl

theorem Lane.capture_mismatch (ln : Lane) (off : Nat) : (ln.capture off).mismatch = ln.mismatch := by
  unfold Lane.capture
  split
  · rfl
  · split
    · rfl
    · split <;> rfl

theorem Channel.capture_unsampled (x : Channel) (off : Nat) : (x.capture off).unsampled = x.unsampled := by
  unfold Channel.capture Channel.unsampled
  split
  · rw [show _ = x.laneH.hwm from Lane.capture_hwm x.laneH _]
  · split
    · rw [show _ = x.laneL.mismatch from Lane.capture_mismatch x.laneL _]
    · split <;> rfl

theorem State.capture_sampled (s : State) (a : Nat) : SampledOnly s (s.capture a) := by
  unfold State.capture
  split
  · split
    · exact ⟨rfl, fun _ => rfl⟩
    · split
      · exact ⟨rfl, fun _ => rfl⟩
      · split <;> exact ⟨rfl, fun _ => rfl⟩
  · next c off _ =>
    refine ⟨rfl, fun d => ?_⟩
    by_cases hd : d = c
    · subst hd
      exact (congrArg Channel.unsampled (State.chan_setChan_self ..)).trans (Channel.capture_unsampled _ _)
    · exact congrArg Channel.unsampled (State.chan_setChan_ne _ _ _ _ hd)
  · split <;> exact ⟨rfl, fun _ => rfl⟩
  · split
    · exact ⟨rfl, fun _ => rfl⟩
    · split <;> exact ⟨rfl, fun _ => rfl⟩
  · split <;> exact ⟨rfl, fun _ => rfl⟩
  · exact .refl s

theorem State.readWord_sampled (s : State) (a : Nat) : SampledOnly s (s.readWord a).1 := by
  unfold State.readWord
  dsimp only
  split
  · exact s.capture_sampled a
  · obtain ⟨l, hl⟩ := s.reportDenied_eq a (s.accessStatus a)
    dsimp only
    rw [hl]
    exact ⟨rfl, fun _ => rfl⟩

theorem State.readWords_sampled (m : Instant) (n : Nat) (s : State) (a : Nat) : SampledOnly s (State.readWords m n s a).1 := by
  induction n generalizing m s a with
  | zero => exact ⟨rfl, fun _ => rfl⟩
  | succ n ih => exact SampledOnly.trans (t := s.at_ _) ⟨rfl, fun _ => rfl⟩ ((State.readWord_sampled _ a).trans (ih _ _ _))

/-! ## Frames -/

/-- A frame that the port serves, with its header accepted. -/
theorem State.frame_eq {s : State} (hs : Served s) (t : Instant) (a : Word) {n : Nat} (f : State → State) (h4 : a.toNat % 4 = 0)
    (h1 : 1 ≤ n) (h64 : n ≤ 64) : s.frame t a n f = f ((s.at_ t).at_ ((s.at_ t).accessStart (s.at_ t).now)) := by
  have hn : (n == 0) = false := by rw [beq_eq_false_iff_ne]; omega
  unfold State.frame
  dsimp only
  rw [State.served_at t hs, hn, decide_eq_false (by omega : ¬64 < n)]
  exact (if_neg (by decide)).trans (if_neg (by rw [h4]; decide))

theorem State.rejectHeader_spec (s : State) (st : Byte) (hmode : s.pwr.mode ≠ .reset) :
    OnlyMailbox s (s.rejectHeader st) ∧ (s.rejectHeader st).msp = { s.msp with
      miso := misoBytes st [], errCrc := if st = 1 then satAdd s.msp.errCrc 1 else s.msp.errCrc
      errBadop := if st = 2 then satAdd s.msp.errBadop 1 else s.msp.errBadop } ∧
    Reported (s.rejectHeader st) 232 (if st = 1 then 0x01 else 0x02) := by
  let z := s.modMsp fun m => { m with
    miso := misoBytes st [], errCrc := if st = 1 then satAdd m.errCrc 1 else m.errCrc
    errBadop := if st = 2 then satAdd m.errBadop 1 else m.errBadop }
  refine ⟨?_, z.raiseM_msp _ _, State.reported_raiseM z _ _ hmode ?_⟩
  · obtain ⟨l, hl⟩ := z.raiseM_eq 232 (if st = 1 then 0x01 else 0x02)
    rw [show s.rejectHeader st = _ from hl]
    rfl
  · split <;> decide

end Sys2Proof.Machine

namespace Sys2Proof.Proofs

open Sys2Proof.Machine Sys2Proof.Safety

/-- Settles O27: a WRITE word by word, and the frames that end without one. -/
theorem writeFrames : Obligations.WriteFrames := by
  intro s at_ hs
  refine ⟨fun k data hlen hk hbusy => ?_, fun addr n h4 h1 h64 => ⟨?_, ?_⟩, fun bytes => ⟨fun hcrc => ?_, fun hcrc hop => ?_⟩⟩
  · intro addr crc
    have haddr : addr.toNat = 0xF00100 + 4 * k := toNat_ofNat_lt (by omega)
    have h4 : addr.toNat % 4 = 0 := by rw [haddr]; omega
    let z := (s.at_ at_).at_ ((s.at_ at_).accessStart (s.at_ at_).now)
    have hexec : ∀ d : Byte, exec (.write at_ addr data d) s = .next (if crc = d then z.writeFrame addr.toNat data
        else (z.frameStatus 1).modMsp fun m => { m with miso := misoBytes 1 [] }) := fun d =>
      congrArg Host.Outcome.next (State.frame_eq hs at_ addr _ h4 hlen (by omega))
    refine ⟨?_, fun bad hbad => ?_⟩
    · obtain ⟨n, buf, hwords, hbuf⟩ := State.writeWords_buf data k hk z
      have hwrite : z.writeFrame addr.toNat data =
          { z with now := n, msp := { z.msp with buf := buf, last := 0, miso := misoBytes 0 [] } } := by
        unfold State.writeFrame
        rw [show z.msp.busy = false from hbusy, haddr, hwords]
        rfl
      have h := hexec crc
      rw [if_pos rfl, hwrite] at h
      exact ⟨_, h, rfl, hbuf, rfl, rfl, rfl, rfl⟩
    · have h := hexec bad
      rw [if_neg (fun h => hbad h.symm)] at h
      let y := z.modMsp fun m => { m with last := 1, errCrc := satAdd m.errCrc 1 }
      have hstatus : z.frameStatus 1 = y.raiseM 232 0x01 := rfl
      obtain ⟨l, hl⟩ := y.raiseM_eq 232 0x01
      have htold : Reported (y.raiseM 232 0x01) 232 0x01 := State.reported_raiseM y 232 0x01 hs.1 (by decide)
      rw [hstatus] at h
      refine ⟨_, h, ?_, ?_, ?_, ?_, htold⟩
      all_goals rw [hl]
      · rfl
      · exact ⟨rfl, rfl, rfl, rfl⟩
      · rfl
      · rfl
  · exact ⟨_, congrArg Host.Outcome.next (State.frame_eq hs at_ addr _ h4 h1 h64), rfl⟩
  · let z := (s.at_ at_).at_ ((s.at_ at_).accessStart (s.at_ at_).now)
    obtain ⟨hwhole, hchans⟩ := z.readWords_sampled z.now n addr.toNat
    obtain ⟨hmsp, hwhole⟩ := Prod.mk.inj hwhole
    obtain ⟨hmem, hwhole⟩ := Prod.mk.inj hwhole
    obtain ⟨hsync, htruss⟩ := Prod.mk.inj hwhole
    refine ⟨_, congrArg Host.Outcome.next (State.frame_eq hs at_ addr _ h4 h1 h64),
      (congrArg (fun m : Msp => { m with errAbort := satAdd m.errAbort 1 }) hmsp :), hmem, fun c => ?_, hsync, htruss⟩
    obtain ⟨heng, hc⟩ := Prod.mk.inj (hchans c)
    obtain ⟨htrg, hc⟩ := Prod.mk.inj hc
    obtain ⟨hh, hl⟩ := Prod.mk.inj hc
    exact ⟨heng, htrg, hh, hl⟩
  · have hfault : headerFault bytes = some 1 := if_pos (bne_iff_ne.2 hcrc)
    have hexec : exec (.headerRejected at_ bytes) s = .next ((s.at_ at_).rejectHeader 1) := by
      refine (congrArg Host.Outcome.next (if_pos (State.served_at at_ hs))).trans ?_
      rw [hfault]
      rfl
    obtain ⟨honly, hmsp, htold⟩ := (s.at_ at_).rejectHeader_spec 1 hs.1
    exact ⟨_, hexec, honly.trans rfl, hmsp, htold⟩
  · have hfault : headerFault bytes = some 2 := by
      unfold headerFault
      rw [if_neg (by rw [bne_iff_ne]; exact fun h => h hcrc)]
      refine if_pos ?_
      simp only [Bool.or_eq_true, Bool.and_eq_true, bne_iff_ne, decide_eq_true_eq, ge_iff_le, or_assoc]
      exact hop
    have hexec : exec (.headerRejected at_ bytes) s = .next ((s.at_ at_).rejectHeader 2) := by
      refine (congrArg Host.Outcome.next (if_pos (State.served_at at_ hs))).trans ?_
      rw [hfault]
      rfl
    obtain ⟨honly, hmsp, htold⟩ := (s.at_ at_).rejectHeader_spec 2 hs.1
    exact ⟨_, hexec, honly.trans rfl, hmsp, htold⟩

end Sys2Proof.Proofs
end

section
/-! SUPPORT. Host rings (R337, R338, R342, R344, R346): a tail write, the enable bit, a stop, starvation and fetched descriptors. -/

namespace Sys2Proof.Machine

open Sys2Proof.Safety

/-! ## A spread of DECK or VAULT that takes effect -/

/-- Clocks, synthesizers and the vault may differ, and conditions have been put on their way to the truss. -/
def LoopsOnly (s t : State) : Prop := ∃ clocks synths vlt l, t = { s with
  clocks := clocks, synths := synths, vlt := vlt, truss := { s.truss with incoming := s.truss.incoming ++ l } }

namespace LoopsOnly
variable {s t u : State}

theorem quiet (clocks : Clocks) (synths : Vector SynthSt 10) (vlt : Vault) :
    LoopsOnly s { s with clocks := clocks, synths := synths, vlt := vlt } :=
  ⟨clocks, synths, vlt, [], by rw [List.append_nil]⟩

theorem refl (s : State) : LoopsOnly s s := quiet s.clocks s.synths s.vlt
theorem trans (h : LoopsOnly s t) (g : LoopsOnly t u) : LoopsOnly s u := by
  obtain ⟨_, _, _, l, rfl⟩ := h
  obtain ⟨c, y, v, k, rfl⟩ := g
  exact ⟨c, y, v, l ++ k, by rw [List.append_assoc]⟩

theorem relock (s : State) (k : Synth) (b : Byte) : LoopsOnly s (s.relock k b) := by
  have hclock : LoopsOnly s (if k.val = 9 then (s.onClock (k.val = 9) s.clocks.mgmt).vaultClock true
      else s.onClock (k.val = 9) s.clocks.mgmt) := by
    split
    · obtain ⟨w, hw⟩ := (s.onClock (k.val = 9) s.clocks.mgmt).vaultClockIf_eq true true
      rw [show State.vaultClock _ true = _ from hw]
      exact quiet _ _ _
    · exact quiet _ _ _
  have hraise : ∀ (z : State) (n : Source), LoopsOnly z (z.raise n b) := fun z n => by
    obtain ⟨l, hl⟩ := z.raise_eq n b
    rw [hl]
    exact ⟨_, _, _, l, rfl⟩
  exact (hclock.trans (u := State.modSynth _ k _) (quiet _ _ _)).trans (hraise _ _)

theorem sscLock (h : LoopsOnly s t) (k : Synth) : LoopsOnly s (t.sscLock k) := by
  unfold State.sscLock
  split
  · split
    · split
      · exact h
      · exact h.trans (quiet _ _ _)
    · exact h.trans (LoopsOnly.trans (t := t.modSynth k _) (quiet _ _ _) (relock _ _ _))
  · exact h

theorem sscApply (h : LoopsOnly s t) : LoopsOnly s t.sscApply := by
  unfold State.sscApply
  dsimp only
  split
  · exact h
  · exact (h.sscLock 8).sscLock 9

end LoopsOnly

/-! ## A ring that stops, and one that starts -/

/-- The rings' unit, the loops and the vault may differ, and conditions have been put on their way to the truss. -/
def ReadoutOnly (s t : State) : Prop := ∃ clocks synths vlt via l, t = { s with
  clocks := clocks, synths := synths, vlt := vlt, via := via, truss := { s.truss with incoming := s.truss.incoming ++ l } }

namespace ReadoutOnly
variable {s t u : State}

theorem refl (s : State) : ReadoutOnly s s := ⟨s.clocks, s.synths, s.vlt, s.via, [], by rw [List.append_nil]⟩
theorem trans (h : ReadoutOnly s t) (g : ReadoutOnly t u) : ReadoutOnly s u := by
  obtain ⟨_, _, _, _, l, rfl⟩ := h
  obtain ⟨c, y, v, w, k, rfl⟩ := g
  exact ⟨c, y, v, w, l ++ k, by rw [List.append_assoc]⟩

/-- What is not touched. -/
theorem kept (h : ReadoutOnly s t) : t.now = s.now ∧ t.mem = s.mem ∧ t.chans = s.chans ∧ t.closed = s.closed ∧
    t.folios = s.folios ∧ t.pwr = s.pwr := by
  obtain ⟨_, _, _, _, _, rfl⟩ := h
  exact ⟨rfl, rfl, rfl, rfl, rfl, rfl⟩

theorem told (h : ReadoutOnly s t) {n : Nat} {b : Byte} (hs : Reported s n b) : Reported t n b := by
  obtain ⟨_, _, _, _, l, rfl⟩ := h
  obtain ⟨r, hr, hb⟩ := hs
  exact ⟨r, List.mem_append_left _ hr, hb⟩

end ReadoutOnly

/-- A ring settles by its STATE and by when it starves alone. -/
theorem RingSt.settle_eq (q : RingSt) (t : Instant) :
    q.settle t = { q with st := (q.settle t).st, starvedFrom := (q.settle t).starvedFrom } := by
  unfold RingSt.settle
  split
  · split <;> rfl
  · split
    · rfl
    · split <;> rfl

theorem RingSt.settle_busy {q : RingSt} (t : Instant) (hen : q.en = true) (hq : q.queue ≠ []) (hp : q.posted ≠ 0) :
    (q.settle t).st = .busy := by
  unfold RingSt.settle
  rw [hen, if_neg (by decide), if_neg (by rw [List.isEmpty_iff]; exact hq), if_neg hp]

/-- A ring with no descriptor posted is idle, or starves. -/
theorem RingSt.settle_unposted {q : RingSt} (t : Instant) (hen : q.en = true) (hp : q.posted = 0) :
    (q.settle t).st = if q.queue = [] then .idle else .starved := by
  unfold RingSt.settle
  rw [hen, if_neg (by decide)]
  by_cases h : q.queue = []
  · rw [if_pos (List.isEmpty_iff.2 h), if_pos h]
  · rw [if_neg (by rw [List.isEmpty_iff]; exact h), if_pos hp, if_neg h]

/-- The ring once it has stopped. -/
def RingSt.stopped (q : RingSt) (st : RingState) : RingSt :=
  { q with en := false, st := st, delivery := none, descs := [], descVis := [], starvedFrom := none }

theorem RingSt.settle_stopped (q : RingSt) (st : RingState) (t : Instant) (h : st = .off ∨ st = .err) :
    ({ q with en := false, st := st, delivery := none, descs := [], descVis := [] } : RingSt).settle t = q.stopped st := by
  rcases h with rfl | rfl <;> rfl

/-- A transfer of a ring that has stopped goes nowhere. -/
def Xfer.dropped (r : Ring) (x : Xfer) : Xfer := if x.ring = r then { x with live := false } else x

theorem State.stopRing_spec (s : State) (r : Ring) (st : RingState) (h : st = .off ∨ st = .err) :
    ReadoutOnly s (s.stopRing r st) ∧ (s.stopRing r st).via = { s.via with
      rings := s.via.rings.set r ((s.ring r).stopped st), xfers := s.via.xfers.map (Option.map (Xfer.dropped r)) } := by
  let z : State := { s with via := { s.via with
    rings := s.via.rings.set r ((s.ring r).stopped st), xfers := s.via.xfers.map (Option.map (Xfer.dropped r)) } }
  have hz : s.stopRing r st = z.idleRestart.sscApply := by
    unfold State.stopRing State.modRing
    dsimp only
    rw [RingSt.settle_stopped _ _ _ h]
    rfl
  obtain ⟨clocks, synths, vlt, l, hloops⟩ : LoopsOnly z.idleRestart z.idleRestart.sscApply := LoopsOnly.sscApply (.refl _)
  rw [hz, hloops]
  exact ⟨⟨clocks, synths, vlt, z.via, l, rfl⟩, rfl⟩

theorem State.stopRing_ring (s : State) (r : Ring) (st : RingState) (h : st = .off ∨ st = .err) (p : Ring) :
    (s.stopRing r st).ring p = if p = r then (s.ring r).stopped st else s.ring p := by
  have hvia := (s.stopRing_spec r st h).2
  have hring : (s.stopRing r st).ring p = (s.setRing r ((s.ring r).stopped st)).ring p := by
    unfold State.ring
    rw [hvia]
    rfl
  rw [hring]
  split
  · next hp => rw [hp, State.ring_setRing_self]
  · next hp => rw [State.ring_setRing_ne _ _ _ _ hp]

/-- No transfer of a ring that has stopped is live. -/
theorem State.stopRing_dead (s : State) (r : Ring) (st : RingState) (h : st = .off ∨ st = .err) (x : Xfer)
    (hx : some x ∈ (s.stopRing r st).via.xfers) (hr : x.ring = r) : x.live = false := by
  rw [(s.stopRing_spec r st h).2] at hx
  obtain ⟨y, -, hy⟩ := List.mem_map.1 hx
  obtain ⟨w, -, hw⟩ := Option.map_eq_some_iff.1 hy
  rw [← hw] at hr ⊢
  unfold Xfer.dropped at hr ⊢
  split
  · rfl
  · next hne =>
    rw [if_neg hne] at hr
    exact absurd hr hne

/-! ## A fetched descriptor -/

/-- A descriptor that is fetched while nothing can be put into it waits. -/
theorem State.deliver_waits {s : State} {r : Ring}
    (h : ∀ d, (s.ring r).delivery = some d → d.here s.now = false) : s.deliver r = s := by
  unfold State.deliver
  cases hd : (s.ring r).delivery with
  | none => rfl
  | some d =>
    rw [Option.filter_some, h d hd]
    rfl

theorem State.descRead_waits {s : State} {r : Ring} (d : Desc) (hen : (s.ring r).en = true)
    (hroom : (s.ring r).descs.length < (s.ring r).posted) (h : ∀ y, (s.ring r).delivery = some y → y.here s.now = false) :
    s.descRead r d = s.setRing r { s.ring r with
      descs := (s.ring r).descs ++ [d], descVis := (s.ring r).descVis ++ [s.clocks.vault.next (s.now + 16000)] } := by
  unfold State.descRead
  dsimp only
  rw [hen, decide_eq_true hroom, if_pos (by rfl)]
  refine State.deliver_waits fun y hy => ?_
  rw [State.ring_setRing_self] at hy
  exact h y hy

end Sys2Proof.Machine

namespace Sys2Proof.Proofs

open Sys2Proof.Machine Sys2Proof.Safety

/-- Settles O31: each row touches its ring, and the loops where a stop lets a spread take effect. -/
theorem hostRings : Obligations.HostRings := by
  intro s r at_ q z others
  have hothers : ∀ x : RingSt, others (z.setRing r x) := fun x => ⟨fun p hp => State.ring_setRing_ne _ _ _ _ hp, rfl, rfl, rfl⟩
  refine ⟨fun v => ?_, fun hen => ?_, fun hen => ?_, fun hmode => ?_,
    fun t0 hfrom hst hstarve hmode => ?_, fun d hen hroom hdel => ?_, fun d y hen hroom hdel hne hlate => ?_⟩
  · intro tail posted
    refine ⟨fun hle => ?_, fun hlt hmode => ?_⟩
    · let y := s.at_ (s.tailEdge at_)
      let new : RingSt := { q with tail := BitVec.ofNat 16 tail }
      have htail : (BitVec.ofNat 16 tail).toNat = tail := by
        rw [BitVec.toNat_ofNat]
        exact Nat.mod_eq_of_lt (lt_of_le_of_lt (Nat.mod_le _ _) (fld_lt v 0 16))
      have hposted : new.posted = posted tail := congrArg posted htail
      have hwrite : y.tailWrite r v = y.setRing r (new.settle y.now) := by
        unfold State.tailWrite
        exact if_neg (show ¬new.posted < q.posted by rw [hposted]; exact Nat.not_lt.2 hle)
      have hring : (y.setRing r (new.settle y.now)).ring r = new.settle y.now := State.ring_setRing_self ..
      refine ⟨_, congrArg Host.Outcome.next hwrite, rfl, ⟨fun p hp => State.ring_setRing_ne _ _ _ _ hp, rfl, rfl, rfl⟩, ?_, ?_, fun hen hq hp => ?_⟩
      · rw [hring, RingSt.settle_eq]; exact htail
      · rw [hring]
        exact (RingSt.settle_eq new y.now).trans (by rw [RingSt.settle_eq])
      · rw [hring]
        exact RingSt.settle_busy _ hen hq (by rw [hposted]; exact hp)
    · let y := s.at_ (s.tailEdge at_)
      have htail : (BitVec.ofNat 16 tail).toNat = tail := by
        rw [BitVec.toNat_ofNat]
        exact Nat.mod_eq_of_lt (lt_of_le_of_lt (Nat.mod_le _ _) (fld_lt v 0 16))
      have hposted : RingSt.posted { q with tail := BitVec.ofNat 16 tail } = posted tail := congrArg posted htail
      have hwrite : y.tailWrite r v = y.raise 205 0x10 := by
        unfold State.tailWrite
        exact if_pos (show RingSt.posted { q with tail := BitVec.ofNat 16 tail } < q.posted by rw [hposted]; exact hlt)
      obtain ⟨l, hl⟩ := y.raise_eq 205 0x10
      refine ⟨_, congrArg Host.Outcome.next hwrite, ?_, State.reported_raise y 205 0x10 hmode (by decide)⟩
      rw [hl]
      rfl
  · let new : RingSt := { q with en := true, st := .idle, head := 0, tail := 0, seq := 0, done := 0, descs := [], descVis := []
                                 delivery := none }
    have hstart : z.startRing r = (z.setRing r (new.settle z.now)).idleRestart := by
      unfold State.startRing
      exact if_neg (show ¬(z.ring r).en = true by rw [show (z.ring r).en = false from hen]; decide)
    have hunposted : new.posted = 0 := by
      unfold RingSt.posted
      rw [show new.tail.toNat = 0 from rfl, Nat.zero_add]
      exact Nat.mod_self _
    have hring : (z.setRing r (new.settle z.now)).idleRestart.ring r = new.settle z.now := State.ring_setRing_self z r _
    refine ⟨_, congrArg Host.Outcome.next hstart, rfl, hothers _, ?_⟩
    rw [hring]
    have hst := RingSt.settle_unposted (q := new) z.now rfl hunposted
    rw [RingSt.settle_eq]
    exact ⟨rfl, rfl, rfl, rfl, rfl, rfl, rfl, rfl, hst⟩
  · obtain ⟨hnow, hmem, hchans, hclosed, -⟩ := (z.stopRing_spec r .off (.inl rfl)).1.kept
    have hring := z.stopRing_ring r .off (.inl rfl)
    refine ⟨_, congrArg Host.Outcome.next (if_pos hen), hnow, ⟨fun p hp => ?_, hmem, hchans, hclosed⟩, ?_, ?_, ?_, ?_, ?_, z.stopRing_dead r .off (.inl rfl)⟩
    · rw [hring, if_neg hp]; rfl
    all_goals rw [hring, if_pos rfl]; rfl
  · obtain ⟨-, hmem, hchans, hclosed, -, hpwr⟩ := (z.stopRing_spec r .err (.inr rfl)).1.kept
    have hring := z.stopRing_ring r .err (.inr rfl)
    obtain ⟨l, hl⟩ := (z.stopRing r .err).raise_eq 205 0x01
    have hsame : ∀ p, ((z.stopRing r .err).raise 205 0x01).ring p = (z.stopRing r .err).ring p := fun p => by rw [hl]; rfl
    refine ⟨_, rfl, ⟨fun p hp => ?_, ?_, ?_, ?_⟩, ?_, ?_, ?_, State.reported_raise _ 205 0x01 ?_ (by decide)⟩
    · exact (hsame p).trans ((hring p).trans (if_neg hp))
    · exact (congrArg State.mem hl).trans hmem
    · exact (congrArg State.chans hl).trans hchans
    · exact (congrArg State.closed hl).trans hclosed
    · exact congrArg RingSt.en ((hsame r).trans ((hring r).trans (if_pos rfl)))
    · exact congrArg RingSt.st ((hsame r).trans ((hring r).trans (if_pos rfl)))
    · exact (congrArg RingSt.queue ((hsame r).trans ((hring r).trans (if_pos rfl)))).trans rfl
    · rw [hpwr]; exact hmode
  · let y := s.at_ (s.clocks.link.next t0 + s.via.starve.toNat * 1000 * s.clocks.link.period)
    let n : Source := ⟨206 + r.val % 4, by omega⟩
    have hrow : s.starvedRow r = (y.setRing r { q with starvedFrom := none }).raise n 0x01 := by
      unfold State.starvedRow
      dsimp only
      rw [show (s.ring r).starvedFrom = some t0 from hfrom]
      dsimp only
      refine if_pos ?_
      rw [show (s.ring r).st = .starved from hst, decide_eq_true rfl, Bool.true_and, bne_iff_ne]
      exact hstarve
    obtain ⟨l, hl⟩ := (y.setRing r { q with starvedFrom := none }).raise_eq n 0x01
    refine ⟨_, congrArg Host.Outcome.next hrow, ⟨fun p hp => ?_, ?_, ?_, ?_⟩, ?_, ?_, State.reported_raise _ n 0x01 hmode (by decide)⟩
    all_goals rw [hl]
    · exact State.ring_setRing_ne y _ _ _ hp
    · rfl
    · rfl
    · rfl
    · rfl
    · exact State.ring_setRing_self y r _
  · have hread := State.descRead_waits (s := z) d hen hroom fun y hy => by
      rw [show (z.ring r).delivery = none from hdel] at hy; cases hy
    exact ⟨_, congrArg Host.Outcome.next hread, rfl, hothers _, State.ring_setRing_self ..⟩
  · have hread := State.descRead_waits (s := z) d hen hroom fun w hw => by
      rw [show (z.ring r).delivery = some y from hdel] at hw
      cases hw
      unfold Delivery.here
      rw [decide_eq_false (Nat.not_le.2 hlate), Bool.or_false]
      exact List.isEmpty_eq_false_iff.2 hne
    exact ⟨_, congrArg Host.Outcome.next hread, rfl, hothers _, State.ring_setRing_self ..⟩

end Sys2Proof.Proofs
end

section
/-! SUPPORT. A vault freeze (R435 to R437, R513), and the codewords that a read classifies (R387). -/

namespace Sys2Proof.Machine

open Sys2Proof.Safety

/-! ## Every channel is disarmed at the freeze -/

/-- What the freeze leaves of a channel once it has been disarmed. -/
def Channel.frozenOut (x : Channel) : Channel :=
  { x with
    heldRearm := none, formeRearm := none, wantRearm := false
    trim := if x.trim.running then { x.trim.fail 0xB with wasArmed := false } else { x.trim with wasArmed := false } }

/-- The channels of a list are disarmed for a freeze. -/
def State.frozenOut (s : State) (l : List Chan) (d : Instant) : State :=
  l.foldl (fun z c => (z.disarm c d flagDisarm).modChan c Channel.frozenOut) s

theorem State.frozenOut_spec (d : Instant) (l : List Chan) (s : State) :
    (∃ chans folios tb synths idle, s.frozenOut l d = { s with
      chans := chans, folios := folios, tb := tb, synths := synths, vlt := { s.vlt with idleFrom := idle } }) ∧
    ∀ c, ((s.chan c).armed = false ∨ c ∈ l → ((s.frozenOut l d).chan c).armed = false) := by
  induction l generalizing s with
  | nil => exact ⟨⟨_, _, _, _, s.vlt.idleFrom, rfl⟩, fun c h => h.resolve_right fun h => (nomatch h)⟩
  | cons c l ih =>
    let z := (s.disarm c d flagDisarm).modChan c Channel.frozenOut
    obtain ⟨fo, tb, sy, idle, hdis⟩ := s.disarm_eq c d flagDisarm
    obtain ⟨⟨ch', fo', tb', sy', idle', hw⟩, hc⟩ := ih z
    have hz : ∃ chans, z = { s with
        chans := chans, folios := fo, tb := tb, synths := sy, vlt := { s.vlt with idleFrom := idle } } := by
      refine ⟨z.chans, ?_⟩
      simp only [z]
      rw [hdis]
      rfl
    have hstep : s.frozenOut (c :: l) d = z.frozenOut l d := rfl
    rw [hstep]
    refine ⟨?_, fun e he => ?_⟩
    · obtain ⟨ch, hz⟩ := hz
      refine ⟨ch', fo', tb', sy', idle', ?_⟩
      rw [hw, hz]
    · by_cases hec : e = c
      · subst hec
        refine hc e (.inl ?_)
        refine (congrArg Channel.armed (State.chan_setChan_self ..)).trans ?_
        refine (congrArg Channel.armed (s.chan_disarm_self e d flagDisarm)).trans ?_
        exact Channel.disarmed_armed _ _ _ _
      · refine hc e (he.imp (fun h => ?_) fun h => (List.mem_cons.1 h).resolve_left hec)
        have hne : z.chan e = s.chan e := (State.chan_setChan_ne _ _ _ _ hec).trans (s.chan_disarm_ne c d flagDisarm hec)
        rw [hne]
        exact h

/-! ## The freeze -/

/-- What a freeze leaves as it was, and what it leaves for the host: the log, the mode, the requests that wait. -/
structure FreezeOf (s t : State) (log : Word) (addr : Option (Nat × BitVec 16)) : Prop where
  now : t.now = s.now
  froze : Froze s t
  msp : t.msp = s.msp
  reqs : t.vlt.reqs = s.vlt.reqs
  stat : t.vlt.frzStat = log
  faddr : t.vlt.frzAddr = match addr with | some (g, _) => BitVec.ofNat 30 g | none => 0
  syn : t.vlt.frzSyn = match addr with | some (_, x) => x | none => 0
  vc : t.vlt.frzVc.isSome = true
  out : t.via.out = s.via.out
  xfers : t.via.xfers = List.replicate 4 none
  told : ∃ l, t.truss.incoming = s.truss.incoming ++ l

/-- What was on its way to the truss still is. -/
theorem FreezeOf.reported {s t : State} {log : Word} {addr : Option (Nat × BitVec 16)} (h : FreezeOf s t log addr) {n : Nat}
    {b : Byte} (hs : Reported s n b) : Reported t n b := by
  obtain ⟨l, hl⟩ := h.told
  obtain ⟨r, hr, hb⟩ := hs
  exact ⟨r, by rw [hl]; exact List.mem_append_left _ hr, hb⟩

/-- The freeze after the channels have been disarmed: deliveries stop, a LOAD halts, the mode changes. -/
def State.stopForFreeze (s : State) : State :=
  let s2 := s.dropDeliveries
  let s3 := if s2.pwr.mode = .load ∨ s2.pwr.mode = .trim then s2.halt 0xA 0 else s2
  s3.toMode .freeze

theorem State.enterFreeze_eq (s : State) (t : Instant) :
    s.enterFreeze t = (s.frozenOut allChans (s.span.vis win250 t)).stopForFreeze := by
  unfold State.enterFreeze State.stopForFreeze State.frozenOut Channel.frozenOut
  dsimp only

theorem State.stopForFreeze_spec (s : State) : ∃ rings nvm l, s.stopForFreeze = { s with
    via := { s.via with xfers := List.replicate 4 none, rings := rings }, nvm := nvm
    truss := { s.truss with incoming := s.truss.incoming ++ l }, pwr := { s.pwr with prev := s.pwr.mode, mode := .freeze } } := by
  unfold State.stopForFreeze
  dsimp only
  split
  · obtain ⟨l, hl⟩ := ({ s.dropDeliveries with nvm := { s.nvm with phase := 0xF, result := 2, why := 0xA } } : State).raise_eq
      220 (0x40 ||| 0)
    refine ⟨_, _, l, (congrArg (State.toMode · .freeze) hl).trans rfl⟩
  · exact ⟨_, s.nvm, [], by rw [List.append_nil]; rfl⟩

theorem State.enterFreeze_spec (s : State) (t : Instant) :
    (∃ chans folios tb synths idle rings nvm prev l, s.enterFreeze t = { s with
      chans := chans, folios := folios, tb := tb, synths := synths, vlt := { s.vlt with idleFrom := idle }
      via := { s.via with xfers := List.replicate 4 none, rings := rings }, nvm := nvm
      truss := { s.truss with incoming := s.truss.incoming ++ l }, pwr := { s.pwr with prev := prev, mode := .freeze } }) ∧
    ∀ c, ((s.enterFreeze t).chan c).armed = false := by
  rw [s.enterFreeze_eq t]
  obtain ⟨⟨ch, fo, tb, sy, idle, hout⟩, harm⟩ := State.frozenOut_spec (s.span.vis win250 t) allChans s
  generalize s.frozenOut allChans (s.span.vis win250 t) = w at hout harm
  obtain ⟨rings, nvm, l, hstop⟩ := w.stopForFreeze_spec
  refine ⟨⟨ch, fo, tb, sy, idle, rings, nvm, w.pwr.mode, l, ?_⟩, fun c => ?_⟩
  · rw [hstop, hout]
  · rw [hstop]
    exact harm c (.inr (List.mem_finRange c))

/-- The vault's own part of a freeze. -/
def State.frozenVault (s : State) (v q : Nat) (log : Word) (addr : Option (Nat × BitVec 16)) : State :=
  Vault.mod ((s.rebaseDebt v).frzLog q log addr) fun w => { w with
    st := .frozen, frzVc := some v, srEntry := none, srExit := if s.vlt.st = .selfref then s.vlt.srExit else none
    srWake := if s.vlt.st = .safe then some v else none, idleFrom := none }

theorem State.frozenVault_eq (s : State) (v q : Nat) (log : Word) (addr : Option (Nat × BitVec 16)) :
    ∃ w : Vault, s.frozenVault v q log addr = { s with vlt := w } ∧ w.st = .frozen ∧ w.reqs = s.vlt.reqs ∧ w.frzStat = log ∧
      w.frzAddr = (match addr with | some (g, _) => BitVec.ofNat 30 g | none => 0) ∧
      w.frzSyn = (match addr with | some (_, x) => x | none => 0) ∧ w.frzVc = some v :=
  ⟨_, rfl, rfl, rfl, rfl, rfl, rfl, rfl⟩

/-- A vault that is not frozen yet freezes: the log is taken, source 137 is told, and the device enters FREEZE. -/
theorem State.freeze_spec (s : State) (v q : Nat) (log : Word) (addr : Option (Nat × BitVec 16)) (cause : Byte)
    (hst : s.vlt.st ≠ .frozen) (hmode : s.pwr.mode ≠ .reset) (hcause : cause ≠ 0) :
    FreezeOf s (s.freeze v q log addr cause) log addr ∧ Reported (s.freeze v q log addr cause) 137 cause := by
  have hfreeze : s.freeze v q log addr cause = ((s.frozenVault v q log addr).raise 137 cause).enterFreeze (s.vcAt v) := if_neg hst
  obtain ⟨w, hw, hwst, hwreqs, hwstat, hwaddr, hwsyn, hwvc⟩ := s.frozenVault_eq v q log addr
  rw [hfreeze, hw]
  have htold : Reported (({ s with vlt := w } : State).raise 137 cause) 137 cause := State.reported_raise _ 137 cause hmode hcause
  obtain ⟨k, hraise⟩ := ({ s with vlt := w } : State).raise_eq 137 cause
  rw [hraise] at htold ⊢
  generalize s.vcAt v = at_
  obtain ⟨⟨ch, fo, tb, sy, idle, rings, nvm, prev, l, henter⟩, harm⟩ := State.enterFreeze_spec
    { s with vlt := w, truss := { s.truss with incoming := s.truss.incoming ++ k } } at_
  generalize State.enterFreeze _ at_ = t at henter harm ⊢
  subst henter
  refine ⟨⟨rfl, ⟨?_, rfl, harm, rfl, rfl⟩, rfl, ?_, ?_, ?_, ?_, ?_, rfl, rfl, k ++ l, ?_⟩, ?_⟩
  · exact hwst
  · exact hwreqs
  · exact hwstat
  · exact hwaddr.trans (by cases addr <;> rfl)
  · exact hwsyn.trans (by cases addr <;> rfl)
  · exact congrArg Option.isSome hwvc
  · rw [List.append_assoc]
  · obtain ⟨r, hr, hb⟩ := htold
    exact ⟨r, List.mem_append_left _ hr, hb⟩

/-! ## A codeword that is read -/

/-- A condition of a pseudo-channel is put on its way outside RESET. -/
theorem State.raiseFrom_eq (s : State) (mgmt : Bool) (n : Source) (c : Byte) (inj : Bool) :
    ∃ l, s.raiseFrom mgmt n c inj = { s with truss := { s.truss with incoming := s.truss.incoming ++ l } } := by
  unfold State.raiseFrom State.recog
  split
  · exact ⟨[], by rw [List.append_nil]⟩
  · split
    · exact ⟨[], by rw [List.append_nil]⟩
    · exact ⟨_, rfl⟩

theorem State.reported_raiseFrom (s : State) (mgmt : Bool) (n : Source) (c : Byte) (inj : Bool) (hmode : s.pwr.mode ≠ .reset)
    (hc : c ≠ 0) : Reported (s.raiseFrom mgmt n c inj) n.val c := by
  have h : s.raiseFrom mgmt n c inj = _ := (if_neg hc).trans (s.recog_eq _ hmode)
  rw [h]
  exact ⟨_, List.mem_append_right _ List.mem_cons_self, rfl, BitVec.and_self⟩

@[simp] theorem State.setPch_pch (s : State) (q : Pch) : s.setPch q (s.pch q) = s := by
  simp [State.pch, State.setPch]

section Account
variable (s : State) (q : Pch) (g port kind v : Nat) (x : ReadResult)

/-- A codeword without an error changes nothing. -/
theorem State.account_clean (hbad : x.bad = false) (hc : x.corrected = false) : s.account q g port kind v x = s := by
  unfold State.account
  rw [hbad, hc]
  rfl

/-- A corrected codeword is counted, logged and reported. -/
theorem State.account_corrected (hbad : x.bad = false) (hc : x.corrected = true) :
    (∃ l, s.account q g port kind v x = { s.setPch q { s.pch q with ce := satAdd (s.pch q).ce 1, ceLog := BitVec.ofNat 30 g } with
      truss := { s.truss with incoming := s.truss.incoming ++ l } }) ∧
    (s.pwr.mode ≠ .reset → Reported (s.account q g port kind v x) (104 + q.val) 0x01) := by
  have h : s.account q g port kind v x = s.countCe q g := by
    unfold State.account
    rw [hbad, hc]
    rfl
  rw [h]
  exact ⟨State.raiseFrom_eq _ _ _ _ _, fun hmode => State.reported_raiseFrom _ _ (pcSrc q) _ _ hmode (by decide)⟩

/-- A codeword without an uncorrectable error touches the pseudo-channel's count and the truss. -/
theorem State.account_good (hbad : x.bad = false) :
    ∃ y l, s.account q g port kind v x = { s.setPch q y with truss := { s.truss with incoming := s.truss.incoming ++ l } } ∧
      y.ce = satAdd (s.pch q).ce (if x.corrected then 1 else 0) := by
  cases hc : x.corrected with
  | true =>
    obtain ⟨l, hl⟩ := (s.account_corrected q g port kind v x hbad hc).1
    exact ⟨_, l, hl, rfl⟩
  | false =>
    refine ⟨s.pch q, [], ?_, (satAdd_zero _).symm⟩
    rw [s.account_clean q g port kind v x hbad hc, State.setPch_pch, List.append_nil]

/-- The freeze log of an uncorrectable codeword. -/
def ueLog (q : Pch) (port kind g : Nat) : Word := pack 32 [bitAt 31 true, (24, port), (16, q.val), (12, kind), (8, gH g)]

/-- An uncorrectable codeword freezes the vault and is reported. -/
theorem State.account_bad (hbad : x.bad = true) (hst : s.vlt.st ≠ .frozen) (hmode : s.pwr.mode ≠ .reset) :
    FreezeOf s (s.account q g port kind v x) (ueLog q port kind g) (some (g, x.syn)) ∧
    Reported (s.account q g port kind v x) (104 + q.val) 0x02 ∧ Reported (s.account q g port kind v x) 137 0x01 := by
  let z := s.raiseFrom false (pcSrc q) 0x02 (s.tst.eccList.contains g)
  have h : s.account q g port kind v x = z.freeze v q.val (ueLog q port kind g) (some (g, x.syn)) 0x01 := by
    unfold State.account
    rw [hbad]
    rfl
  obtain ⟨l, hz⟩ : ∃ l, z = { s with truss := { s.truss with incoming := s.truss.incoming ++ l } } := State.raiseFrom_eq _ _ _ _ _
  have htold : Reported z (104 + q.val) 0x02 := State.reported_raiseFrom _ _ (pcSrc q) _ _ hmode (by decide)
  have hzst : z.vlt.st ≠ .frozen := by rw [hz]; exact hst
  have hzmode : z.pwr.mode ≠ .reset := by rw [hz]; exact hmode
  obtain ⟨hof, hwhole⟩ := z.freeze_spec v q.val (ueLog q port kind g) (some (g, x.syn)) 0x01 hzst hzmode (by decide)
  have htold' := hof.reported htold
  rw [h]
  refine ⟨?_, htold', hwhole⟩
  obtain ⟨hnow, ⟨hfst, hfmode, harm, hmem, hchk⟩, hmsp, hreqs, hstat, haddr, hsyn, hvc, hout, hxfers, k, hk⟩ := hof
  exact ⟨hnow.trans (by rw [hz]), ⟨hfst, hfmode, harm, hmem.trans (by rw [hz]), hchk.trans (by rw [hz])⟩,
    hmsp.trans (by rw [hz]), hreqs.trans (by rw [hz]), hstat, haddr, hsyn, hvc, hout.trans (by rw [hz]), hxfers, l ++ k,
    hk.trans (by rw [hz, List.append_assoc])⟩

end Account

end Sys2Proof.Machine
end

section
/-! SUPPORT. The PCIe endpoint (R341 to R349, R436, R517): a lost link, resets of the endpoint, and BAR2 reads. -/

namespace Sys2Proof.Machine

open Sys2Proof.Safety

/-! ## Every ring stops -/

/-- The rings of a list stop, one after another. -/
def State.stopThese (s : State) (l : List Ring) : State := l.foldl (fun z r => z.stopRing r .off) s

theorem State.stopThese_spec (s : State) (l : List Ring) :
    ReadoutOnly s (s.stopThese l) ∧ (s.stopThese l).via.linkUp = s.via.linkUp ∧ (s.stopThese l).via.out = s.via.out ∧
      ∀ p, (s.stopThese l).ring p = if p ∈ l then (s.ring p).stopped .off else s.ring p := by
  induction l generalizing s with
  | nil => exact ⟨.refl s, rfl, rfl, fun p => (if_neg List.not_mem_nil).symm⟩
  | cons r l ih =>
    obtain ⟨honly, hvia⟩ := s.stopRing_spec r .off (.inl rfl)
    obtain ⟨hrest, hlink, hout, hring⟩ := ih (s.stopRing r .off)
    refine ⟨honly.trans hrest, hlink.trans (congrArg Viaduct.linkUp hvia :), hout.trans (congrArg Viaduct.out hvia :), fun p => ?_⟩
    refine (hring p).trans ?_
    rw [s.stopRing_ring r .off (.inl rfl) p]
    by_cases hpr : p = r
    · subst hpr
      rw [if_pos rfl, if_pos List.mem_cons_self]
      split <;> rfl
    · rw [if_neg hpr]
      simp only [List.mem_cons, hpr, false_or]

/-- All rings stop; what they queue, and their addresses, stay. -/
theorem State.stopRings_all (s : State) : ReadoutOnly s s.stopRings ∧ s.stopRings.via.linkUp = s.via.linkUp ∧
    s.stopRings.via.out = s.via.out ∧ ∀ p, s.stopRings.ring p = (s.ring p).stopped .off := by
  have h : s.stopRings = s.stopThese allRings := by unfold State.stopRings State.stopThese; rfl
  rw [h]
  obtain ⟨honly, hlink, hout, hring⟩ := s.stopThese_spec allRings
  exact ⟨honly, hlink, hout, fun p => (hring p).trans (if_pos (List.mem_finRange p))⟩

theorem ReadoutOnly.raise (s : State) (n : Source) (c : Byte) : ReadoutOnly s (s.raise n c) := by
  obtain ⟨l, hl⟩ := s.raise_eq n c
  rw [hl]
  exact ⟨_, _, _, _, l, rfl⟩

/-- The link is down; its loss is reported where it was up. -/
theorem State.linkLost_spec (s : State) : ReadoutOnly s s.linkLost ∧
    s.linkLost.via = { s.via with linkUp := false, speed := 0, width := 0 } ∧
    (s.pwr.mode ≠ .reset → s.via.linkUp = true → Reported s.linkLost 204 0x01) := by
  let z : State := { s with via := { s.via with linkUp := false, speed := 0, width := 0 } }
  have hz : ReadoutOnly s z := ⟨s.clocks, s.synths, s.vlt, z.via, [], by rw [List.append_nil]⟩
  unfold State.linkLost
  split
  · obtain ⟨l, hl⟩ := z.raise_eq 204 0x01
    exact ⟨hz.trans (.raise z 204 0x01), congrArg State.via hl, fun hmode _ => State.reported_raise z 204 0x01 hmode (by decide)⟩
  · next h => exact ⟨hz, rfl, fun _ hup => absurd hup h⟩

theorem State.endpointReset_ring (s : State) (p : Ring) :
    s.endpointReset.ring p = { RingSt.reset with queue := (s.ring p).queue } := by
  have h : s.endpointReset.ring p = { RingSt.reset with queue := (s.stopRings.ring p).queue } := by
    unfold State.endpointReset
    dsimp only
    generalize s.stopRings = w
    unfold State.ring
    simp [Fin.ofNat, Nat.mod_eq_of_lt p.isLt]
  rw [h, s.stopRings_all.2.2.2 p]
  rfl

/-- The viaduct's registers after a reset of the endpoint. -/
theorem State.endpointReset_via (s : State) : ∃ via, s.endpointReset = { s.stopRings with via := via } ∧
    via.linkUp = false ∧ via.irqStat = 0 ∧ via.starve = 0 ∧ via.msix = Viaduct.reset.msix :=
  ⟨_, rfl, rfl, rfl, rfl, rfl⟩

/-! ## BAR2 reads -/

section Bar2
variable {s : State}

theorem State.bar2_frozen (g : Nat) (flips : Codeword) (h : s.vlt.st = .frozen) : s.bar2 g flips = s.send .completerAbort :=
  if_pos (by unfold State.frozen; rw [h]; rfl)

/-- The state in which a BAR2 read has been answered, before its codeword is accounted for. -/
def State.bar2Answered (s : State) (r : ReadResult) : State :=
  (s.wakeVault (s.vcAt (s.vc (s.clocks.vault.vis win250 s.now)))).idleRestart.send (.completion r.word r.bad)

theorem State.bar2_read (g : Nat) (flips : Codeword) (h : s.vlt.st = .run ∨ s.vlt.st = .selfref) (hw : s.pendingWord g = none) :
    let r := readCode g (s.stored g ^^^ flips)
    s.bar2 g flips = (s.bar2Answered r).account (pcOf (gPc g)) g 13 3 (s.vc (s.clocks.vault.vis win250 s.now)) r := by
  have hfrozen : s.frozen = false := by unfold State.frozen; rcases h with h | h <;> rw [h] <;> rfl
  have haccepts : s.accepts = true := by unfold State.accepts; rcases h with h | h <;> rw [h] <;> rfl
  unfold State.bar2 State.bar2Answered
  dsimp only
  rw [hfrozen, haccepts, hw]
  rfl

/-- The answer of a BAR2 read touches the vault's idle timer and what the endpoint sends alone. -/
theorem State.bar2Answered_eq (s : State) (r : ReadResult) : ∃ wake idle, s.bar2Answered r = { s with
    vlt := { s.vlt with srWake := wake, idleFrom := idle }
    via := { s.via with out := s.via.out ++ [.completion r.word r.bad] } } := by
  unfold State.bar2Answered State.wakeVault
  split <;> exact ⟨_, _, rfl⟩

end Bar2

end Sys2Proof.Machine

namespace Sys2Proof.Proofs

open Sys2Proof.Machine Sys2Proof.Safety

/-- Settles O33: the rings stop one after another, and a BAR2 read accounts for its codeword as every read does. -/
theorem endpointEvents : Obligations.EndpointEvents := by
  intro s at_ hmode z stopped kept
  have hkept : ∀ {t : State}, ReadoutOnly z t → kept t := fun h =>
    ⟨h.kept.1, h.kept.2.1, h.kept.2.2.1, h.kept.2.2.2.1, h.kept.2.2.2.2.1⟩
  have hstops : ∀ y : State, (∀ p, y.ring p = s.ring p) → stopped y.stopRings ∧ ∀ p, (y.stopRings.ring p).base = (s.ring p).base := by
    intro y hy
    obtain ⟨-, -, -, hring⟩ := y.stopRings_all
    refine ⟨fun p => ?_, fun p => ?_⟩
    all_goals rw [hring p, hy p]
    · exact ⟨rfl, rfl, rfl, rfl⟩
    · rfl
  obtain ⟨hlost, hlostVia, hlostTold⟩ := z.linkLost_spec
  have hlostRing : ∀ p, z.linkLost.ring p = s.ring p := fun p => (congrArg (fun v : Viaduct => v.rings[p]) hlostVia :)
  obtain ⟨hlostAll, hlostUp, -, hlostRings⟩ := z.linkLost.stopRings_all
  have hdown : z.linkLost.stopRings.via.linkUp = false := hlostUp.trans (congrArg Viaduct.linkUp hlostVia :)
  obtain ⟨hstopped, hbase⟩ := hstops z.linkLost hlostRing
  have hlinkDown : exec (.linkDown at_) s = .next z.linkLost.stopRings := rfl
  have hhotReset : exec (.hotReset at_) s = .next z.linkLost.stopRings := rfl
  have hkeptLost := hkept (hlost.trans hlostAll)
  have htoldLost : s.via.linkUp = true → Reported z.linkLost.stopRings 204 0x01 := fun hup => hlostAll.told (hlostTold hmode hup)
  refine ⟨⟨_, hlinkDown, hkeptLost, hstopped, hdown, htoldLost, hbase⟩, ⟨_, hhotReset, hkeptLost, hstopped, hdown⟩, ?_, ?_, fun speed width => ?_, fun unc => ?_, ?_, ?_, fun g flips => ?_⟩
  · let y := z.raise 204 0x02
    have hy : ReadoutOnly z y := .raise z 204 0x02
    obtain ⟨l, hl⟩ := z.raise_eq 204 0x02
    obtain ⟨hall, hup, -⟩ := y.stopRings_all
    have hexec : exec (.flr at_) s = .next y.stopRings := rfl
    have hyRing : ∀ p, y.ring p = s.ring p := fun p => (congrArg (fun t : State => t.ring p) hl :)
    have hyUp : y.via.linkUp = s.via.linkUp := (congrArg (fun t : State => t.via.linkUp) hl :)
    have htold : Reported y.stopRings 204 0x02 := hall.told (State.reported_raise z 204 0x02 hmode (by decide))
    exact ⟨_, hexec, hkept (hy.trans hall), (hstops y hyRing).1, hup.trans hyUp, htold⟩
  · have hring := z.linkLost.endpointReset_ring
    have hexec : exec (.perstN at_) s = .next z.linkLost.endpointReset := rfl
    obtain ⟨via, hreset, hlinkUp, hirq, hstarve, hmsix⟩ := z.linkLost.endpointReset_via
    have honly : ReadoutOnly z z.linkLost.endpointReset := by
      rw [hreset]
      exact (hlost.trans hlostAll).trans ⟨_, _, _, _, [], by rw [List.append_nil]⟩
    refine ⟨_, hexec, hkept honly, fun p => ?_, ?_, ?_, ?_, ?_, fun p => ?_⟩
    · rw [hring p]
      exact ⟨rfl, rfl, rfl, (congrArg RingSt.queue (hlostRing p) :)⟩
    · rw [hreset]; exact hlinkUp
    · rw [hreset]; exact hirq
    · rw [hreset]; exact hstarve
    · rw [hreset]; exact hmsix
    · rw [hring p]
      exact ⟨rfl, rfl, rfl⟩
  · let y : State := { z with via := { z.via with linkUp := true, speed := speed, width := width } }
    by_cases hslow : speed < 5 ∨ width < 16
    · obtain ⟨l, hl⟩ := y.raise_eq 204 0x10
      refine ⟨_, congrArg Host.Outcome.next (if_pos hslow), ?_, congrArg State.via hl,
        fun _ => State.reported_raise y 204 0x10 hmode (by decide), fun h => absurd hslow h⟩
      rw [hl]
      exact ⟨rfl, rfl, rfl, rfl, rfl⟩
    · exact ⟨_, congrArg Host.Outcome.next (if_neg hslow), ⟨rfl, rfl, rfl, rfl, rfl⟩, rfl, fun h => absurd h hslow, fun _ => rfl⟩
  · obtain ⟨l, hl⟩ := z.raise_eq 204 (if unc then 0x08 else 0x04)
    exact ⟨_, rfl, hkept (.raise z 204 _), (congrArg State.via hl :),
      State.reported_raise z 204 _ hmode (by cases unc <;> decide)⟩
  · exact ⟨_, rfl, ⟨rfl, rfl, rfl, rfl, rfl⟩, rfl, rfl⟩
  · obtain ⟨l, hl⟩ := z.raise_eq 205 0x04
    exact ⟨_, rfl, hkept (.raise z 205 _), (congrArg State.via hl :), (congrArg State.chk hl :),
      State.reported_raise z 205 _ hmode (by decide)⟩
  · intro res q
    refine ⟨fun hst => ⟨_, congrArg Host.Outcome.next (State.bar2_frozen (s := z) g.toNat flips hst), ⟨rfl, rfl, rfl, rfl, rfl⟩, rfl, rfl⟩,
      fun hst hw => ?_⟩
    let v := z.vc (z.clocks.vault.vis win250 z.now)
    have hread := State.bar2_read (s := z) g.toNat flips hst hw
    obtain ⟨wake, idle, hans⟩ := z.bar2Answered_eq res
    have hread : z.bar2 g.toNat flips = (z.bar2Answered res).account q g.toNat 13 3 v res := hread
    let w : State := { z with
      vlt := { z.vlt with srWake := wake, idleFrom := idle }
      via := { z.via with out := z.via.out ++ [.completion res.word res.bad] } }
    rw [show z.bar2Answered res = w from hans] at hread
    refine ⟨fun hbad => ?_, fun hbad => ?_⟩
    · obtain ⟨y, l, haccount, hce⟩ := w.account_good q g.toNat 13 3 v res hbad
      have htold : res.corrected = true → Reported (w.account q g.toNat 13 3 v res) (104 + q.val) 0x01 :=
        fun hc => (w.account_corrected q g.toNat 13 3 v res hbad hc).2 hmode
      rw [haccount] at hread htold
      refine ⟨_, congrArg Host.Outcome.next hread, ⟨rfl, rfl, rfl, rfl, rfl⟩, ?_, rfl, ?_, htold⟩
      · rw [← hbad]; rfl
      · have hself : (w.setPch q y).pch q = y := State.pch_setPch_self ..
        refine (congrArg (fun p : PcSt => p.ce.toNat) hself).trans ?_
        rw [hce, toNat_satAdd]
        split
        · rfl
        · exact Nat.min_eq_left (Nat.le_sub_one_of_lt (s.pch q).ce.isLt)
    · obtain ⟨hof, htold, -⟩ := w.account_bad q g.toNat 13 3 v res hbad
        (show z.vlt.st ≠ .frozen by rcases hst with h | h <;> (rw [show z.vlt.st = _ from h]; decide)) hmode
      obtain ⟨hfrozen, -, -, hmem, -⟩ := hof.froze
      refine ⟨_, congrArg Host.Outcome.next hread, hof.now, hmem, ?_, hfrozen, htold⟩
      rw [hof.out, ← hbad]
      exact List.mem_append_right _ List.mem_cons_self

end Sys2Proof.Proofs
end

section
/-! SUPPORT. The request table (R389, R392): what the end of a request, or its data, leaves as it was. -/

namespace Sys2Proof.Machine

open Sys2Proof.Safety

/-! ## A request that ends -/

/-- Requests may have left the table or been presented; writers, synthesizers and domains follow a switch-off. -/
def TableOnly (s t : State) : Prop := ∃ writers reqs pool wake idle synths doms,
  t = { s with writers := writers, synths := synths, pwr := { s.pwr with doms := doms }
               vlt := { s.vlt with reqs := reqs, poolMin := pool, srWake := wake, idleFrom := idle } } ∧
  ∀ x ∈ reqs, ∃ y ∈ s.vlt.reqs, y.core = x.core

namespace TableOnly
variable {s t u : State}

theorem refl (s : State) : TableOnly s s :=
  ⟨s.writers, s.vlt.reqs, s.vlt.poolMin, s.vlt.srWake, s.vlt.idleFrom, s.synths, s.pwr.doms, rfl, fun x hx => ⟨x, hx, rfl⟩⟩

theorem trans (h : TableOnly s t) (g : TableOnly t u) : TableOnly s u := by
  obtain ⟨_, _, _, _, _, _, _, rfl, hl⟩ := h
  obtain ⟨w, l, p, k, i, y, d, rfl, hm⟩ := g
  refine ⟨w, l, p, k, i, y, d, rfl, fun x hx => ?_⟩
  obtain ⟨z, hz, hzx⟩ := hm x hx
  obtain ⟨v, hv, hvz⟩ := hl z hz
  exact ⟨v, hv, hvz.trans hzx⟩

/-- The requests that are left are among those that were there. -/
theorem left (h : TableOnly s t) {x : Req} (hx : x ∈ t.vlt.reqs) : ∃ y ∈ s.vlt.reqs, y.core = x.core := by
  obtain ⟨_, _, _, _, _, _, _, rfl, hl⟩ := h
  exact hl x hx

/-- What the end of a request leaves of the vault. -/
theorem vlt (h : TableOnly s t) : t.vlt.st = s.vlt.st ∧ t.vlt.pcs = s.vlt.pcs ∧ t.vlt.frzAddr = s.vlt.frzAddr ∧
    t.vlt.frzSyn = s.vlt.frzSyn ∧ t.vlt.frzStat = s.vlt.frzStat := by
  obtain ⟨_, _, _, _, _, _, _, rfl, -⟩ := h
  exact ⟨rfl, rfl, rfl, rfl, rfl⟩

theorem told (h : TableOnly s t) {n : Nat} {b : Byte} (hs : Reported s n b) : Reported t n b := by
  obtain ⟨_, _, _, _, _, _, _, rfl, -⟩ := h
  exact hs

end TableOnly

theorem State.presentAll_table (s : State) (v : Nat) : TableOnly s (s.presentAll v) := by
  have hcores := (s.presentAll_spec v).2.1
  have heq : ∃ reqs pool wake idle,
      s.presentAll v = { s with vlt := { s.vlt with reqs := reqs, poolMin := pool, srWake := wake, idleFrom := idle } } := by
    unfold State.presentAll State.wakeVault
    split
    · exact ⟨_, _, _, _, rfl⟩
    · dsimp only
      split
      · split <;> exact ⟨_, _, _, _, rfl⟩
      · exact ⟨_, _, _, _, rfl⟩
  obtain ⟨reqs, pool, wake, idle, heq⟩ := heq
  refine ⟨s.writers, reqs, pool, wake, idle, s.synths, s.pwr.doms, heq, fun x hx => ?_⟩
  have hmem : x.core ∈ s.cores := by
    rw [← hcores, heq]
    exact List.mem_map_of_mem hx
  exact List.mem_map.1 hmem

theorem State.pierOffCheck_table (s : State) (k : Pier) : TableOnly s (s.pierOffCheck k) := by
  have hdrop : ∃ writers reqs, s.dropWriter k = { s with writers := writers, vlt := { s.vlt with reqs := reqs } } ∧
      ∀ x ∈ reqs, x ∈ s.vlt.reqs := by
    unfold State.dropWriter
    split
    · exact ⟨_, _, rfl, fun x hx => (List.mem_filter.1 hx).1⟩
    · exact ⟨_, _, rfl, fun x hx => hx⟩
  obtain ⟨writers, reqs, hdrop, hsub⟩ := hdrop
  unfold State.pierOffCheck
  split
  · rw [hdrop]
    exact ⟨_, _, _, _, _, _, _, rfl, fun x hx => ⟨x, hsub x hx, rfl⟩⟩
  · exact .refl s

theorem State.pierOffAll_table (s : State) : TableOnly s s.pierOffAll := by
  have h : ∀ (l : List Pier) (z : State), TableOnly z (l.foldl State.pierOffCheck z) := by
    intro l
    induction l with
    | nil => exact .refl
    | cons k l ih => exact fun z => (z.pierOffCheck_table k).trans (ih _)
  exact h allPiers s

/-- The state in which a request has left the table, and DIAG's count of it. -/
def State.without (s : State) (r : Req) : State :=
  { s with
    vlt := { s.vlt with reqs := s.vlt.reqs.filter fun x => x.id != r.id, idleFrom := some (s.mc s.now) }
    msp := { s.msp with cmd := s.msp.cmd.map fun (c : Cmd) => { c with left := c.left.filter fun i => i != r.id } } }

theorem State.finishReq_table (s : State) (r : Req) (v : Nat) : TableOnly (s.without r) (s.finishReq r v) :=
  ((s.without r).presentAll_table v).trans (State.pierOffAll_table _)

/-- A request that has ended is gone from the table. -/
theorem State.finishReq_gone (s : State) (r : Req) (v : Nat) : ∀ x ∈ (s.finishReq r v).vlt.reqs, x.id ≠ r.id := by
  intro x hx
  obtain ⟨y, hy, hyx⟩ := (s.finishReq_table r v).left hx
  have hid : y.id = x.id := (congrArg Req.id hyx :)
  rw [← hid]
  exact bne_iff_ne.1 (List.mem_filter.1 hy).2

/-! ## Transfers of the read ports -/

theorem State.xferDone_none {s : State} {j : Nat} (h : s.via.xfers.getD j none = none) : s.xferDone j = s := by
  unfold State.xferDone
  rw [h]

/-- No transfer is in progress: the return of data leaves the ports as they are. -/
theorem State.dataReturn_noXfer (s : State) (id : Nat) (f0 f1 : Codeword)
    (h : ∀ j, (s.readReturn id f0 f1).via.xfers.getD j none = none) : s.dataReturn id f0 f1 = s.readReturn id f0 f1 := by
  unfold State.dataReturn
  generalize s.readReturn id f0 f1 = w at h
  have hfold : ∀ l : List Nat, l.foldl State.xferDone w = w := by
    intro l
    induction l with
    | nil => rfl
    | cons j l ih => rw [List.foldl_cons, State.xferDone_none (h j), ih]
  exact hfold _

end Sys2Proof.Machine
end

section
/-! SUPPORT. The return of read data (R385, R387, R435): what each kind of request makes of it. -/

namespace Sys2Proof.Machine

open Sys2Proof.Safety

/-! ## The freeze log -/

/-- A bit of a packed word is set by its first field or by the rest. -/
theorem getLsbD_pack_cons {n i : Nat} (f : Nat × Nat) (fs : List (Nat × Nat)) (hi : i < n) :
    (pack n (f :: fs)).getLsbD i = ((decide (f.1 ≤ i) && f.2.testBit (i - f.1)) || (pack n fs).getLsbD i) := by
  unfold pack
  rw [List.foldr_cons, BitVec.getLsbD_or, BitVec.getLsbD_ofNat, Nat.testBit_mul_two_pow, decide_eq_true hi, Bool.true_and]

theorem getLsbD_pack_nil (n i : Nat) : (pack n []).getLsbD i = false := BitVec.getLsbD_zero

theorem testBit_high {x m i : Nat} (h : x < 2 ^ m) (hi : m ≤ i) : x.testBit i = false :=
  Nat.testBit_lt_two_pow (lt_of_lt_of_le h (Nat.pow_le_pow_right (by decide) hi))

theorem gH_lt (g : Nat) : gH g < 2 ^ 1 := Nat.mod_lt _ (by decide)

/-- VALID, the port and the pseudo-channel in the log of an uncorrectable read. -/
theorem ueLog_fields (q : Pch) (port kind g : Nat) (hkind : kind < 2 ^ 4) :
    (ueLog q port kind g).getLsbD 31 = true ∧ fld (ueLog q port kind g) 24 4 = port % 16 ∧ fld (ueLog q port kind g) 16 5 = q.val := by
  have hq : q.val < 2 ^ 5 := q.isLt
  unfold ueLog
  refine ⟨getLsbD_pack (f := bitAt 31 true) (by simp) (by decide), ?_, ?_⟩
  · refine Nat.eq_of_testBit_eq fun i => ?_
    rw [testBit_fld, show (port % 16).testBit i = _ from Nat.testBit_mod_two_pow port 4 i]
    by_cases hi : i < 4
    · simp only [getLsbD_pack_cons _ _ (show 24 + i < 32 by omega), getLsbD_pack_nil, bitAt,
        decide_eq_false (show ¬31 ≤ 24 + i by omega), decide_eq_true (show 24 ≤ 24 + i by omega), Nat.add_sub_cancel_left,
        testBit_high hq (show 5 ≤ 24 + i - 16 by omega), testBit_high hkind (show 4 ≤ 24 + i - 12 by omega),
        testBit_high (gH_lt g) (show 1 ≤ 24 + i - 8 by omega), Bool.false_and, Bool.true_and, Bool.and_false, Bool.or_false,
        Bool.false_or]
    · rw [decide_eq_false hi, Bool.false_and, Bool.false_and]
  · refine Nat.eq_of_testBit_eq fun i => ?_
    rw [testBit_fld]
    by_cases hi : i < 5
    · simp only [getLsbD_pack_cons _ _ (show 16 + i < 32 by omega), getLsbD_pack_nil, bitAt,
        decide_eq_false (show ¬31 ≤ 16 + i by omega), decide_eq_false (show ¬24 ≤ 16 + i by omega),
        decide_eq_true (show 16 ≤ 16 + i by omega), Nat.add_sub_cancel_left,
        testBit_high hkind (show 4 ≤ 16 + i - 12 by omega), testBit_high (gH_lt g) (show 1 ≤ 16 + i - 8 by omega),
        decide_eq_true hi, Bool.false_and, Bool.true_and, Bool.and_false, Bool.or_false, Bool.false_or]
    · rw [decide_eq_false hi, Bool.false_and, testBit_high hq (Nat.not_lt.1 hi)]

/-- The freeze log of a command or address parity error. -/
def caparLog (q : Pch) : Word := pack 32 [bitAt 31 true, bitAt 30 true, (24, 15), (16, q.val), (12, 4)]

theorem caparLog_pc (q : Pch) : fld (caparLog q) 16 5 = q.val := by
  have hq : q.val < 2 ^ 5 := q.isLt
  have hkind : 4 < 2 ^ 3 := by decide
  unfold caparLog
  refine Nat.eq_of_testBit_eq fun i => ?_
  rw [testBit_fld]
  by_cases hi : i < 5
  · simp only [getLsbD_pack_cons _ _ (show 16 + i < 32 by omega), getLsbD_pack_nil, bitAt,
      decide_eq_false (show ¬31 ≤ 16 + i by omega), decide_eq_false (show ¬30 ≤ 16 + i by omega),
      decide_eq_false (show ¬24 ≤ 16 + i by omega), decide_eq_true (show 16 ≤ 16 + i by omega), Nat.add_sub_cancel_left,
      testBit_high hkind (show 3 ≤ 16 + i - 12 by omega), decide_eq_true hi, Bool.false_and, Bool.true_and, Bool.and_false,
      Bool.or_false, Bool.false_or]
  · rw [decide_eq_false hi, Bool.false_and, testBit_high hq (Nat.not_lt.1 hi)]

/-- A further codeword of a read whose first one froze the vault: the log keeps what it names. -/
theorem State.account_frozen {s : State} {q : Pch} {v : Nat} (g port kind : Nat) (x : ReadResult)
    (hst : s.vlt.st = .frozen) (hq : fld s.vlt.frzStat 16 5 = q.val) :
    ∃ vlt l stat, s.account q g port kind v x = { s with
        vlt := vlt, truss := { s.truss with incoming := s.truss.incoming ++ l } } ∧
      vlt.st = .frozen ∧ vlt.reqs = s.vlt.reqs ∧ vlt.frzAddr = s.vlt.frzAddr ∧ vlt.frzSyn = s.vlt.frzSyn ∧
      (vlt.frzStat = s.vlt.frzStat ∨ vlt.frzStat = putFld s.vlt.frzStat 0 8 stat) := by
  cases hbad : x.bad with
  | false =>
    obtain ⟨y, l, haccount, -⟩ := s.account_good q g port kind v x hbad
    exact ⟨_, l, 0, haccount, hst, rfl, rfl, rfl, .inl rfl⟩
  | true =>
    obtain ⟨l, hz⟩ : ∃ l, s.raiseFrom false (pcSrc q) 0x02 (s.tst.eccList.contains g) =
        { s with truss := { s.truss with incoming := s.truss.incoming ++ l } } := State.raiseFrom_eq _ _ _ _ _
    have h : s.account q g port kind v x =
        (s.raiseFrom false (pcSrc q) 0x02 (s.tst.eccList.contains g)).freeze v q.val (ueLog q port kind g) (some (g, x.syn)) 0x01 := by
      unfold State.account
      rw [hbad]
      rfl
    rw [h, hz]
    unfold State.freeze
    rw [if_pos (show ({ s with truss := { s.truss with incoming := s.truss.incoming ++ l } } : State).vlt.st = .frozen from hst)]
    refine ⟨_, l, _, if_neg fun hlow => ?_, hst, rfl, rfl, rfl, .inr rfl⟩
    exact absurd (hlow.2.trans_eq hq) (Nat.lt_irrefl _)

/-! ## The return of the data of one request -/

section Return
variable {s : State} {id : Nat} {r : Req} {flips0 flips1 : Codeword}

/-- What is read of galley word `g`. -/
def State.returned (s : State) (flips0 flips1 : Codeword) (g : Nat) : ReadResult :=
  readCode g (s.stored g ^^^ (if g % 2 = 0 then flips0 else flips1))

/-- A codeword that the mailbox reads comes back good. -/
theorem State.readReturn_codeword {h : Bool × Qword} (hrun : s.vlt.st = .run)
    (hfind : s.vlt.reqs.find? (fun r => r.id == id && r.issued) = some r) (hkind : r.kind = .codewordRead) (hport : r.port = 13)
    (hdata : r.data = [h]) (hgood : (s.returned flips0 flips1 (2 * r.burst + bit h.1)).bad = false) :
    let g := 2 * r.burst + bit h.1
    let v := s.vc (s.clocks.vault.next s.now)
    let z := s.account (pcOf r.pc) g 13 3 v (s.returned flips0 flips1 g)
    s.readReturn id flips0 flips1 = (({ z with msp := { z.msp with cmd := z.msp.cmd.map fun (c : Cmd) =>
      { c with got := c.got ++ [(g, (s.returned flips0 flips1 g).word)] } } } : State)).finishReq r v := by
  intro g v z
  have hhalves : r.halves = [g] := by unfold Req.halves; rw [hkind, hdata]
  have hfrozen : s.frozen = false := by unfold State.frozen; rw [hrun]; rfl
  unfold State.readReturn
  rw [hfind]
  dsimp only
  rw [hhalves, hfrozen, hkind, hport]
  rw [show (List.map (fun g => (g, readCode g (s.stored g ^^^ (if g % 2 = 0 then flips0 else flips1)))) [g])
    = [(g, s.returned flips0 flips1 g)] from rfl]
  rw [show ([(g, s.returned flips0 flips1 g)].any fun x => x.2.bad) = false by rw [List.any_cons, hgood]; rfl]
  unfold State.giveData
  rw [hport, hkind]
  rfl

/-- Both codewords of a burst are classified, the lower one first. -/
def State.accountBoth (s : State) (r : Req) (flips0 flips1 : Codeword) : State :=
  let v := s.vc (s.clocks.vault.next s.now)
  let first := s.account (pcOf r.pc) (2 * r.burst) r.port (frzKind r.kind) v (s.returned flips0 flips1 (2 * r.burst))
  first.account (pcOf r.pc) (2 * r.burst + 1) r.port (frzKind r.kind) v (s.returned flips0 flips1 (2 * r.burst + 1))

/-- The read half of a write of one codeword. -/
theorem State.readReturn_rmw {h : Bool} {w : Qword} (hrun : s.vlt.st = .run)
    (hfind : s.vlt.reqs.find? (fun r => r.id == id && r.issued) = some r) (hkind : r.kind = .rmw) (hdata : r.data = [(h, w)])
    (h0 : (s.returned flips0 flips1 (2 * r.burst)).bad = false) (h1 : (s.returned flips0 flips1 (2 * r.burst + 1)).bad = false) :
    s.readReturn id flips0 flips1 = (s.accountBoth r flips0 flips1).modReq id fun x => { x with
      issued := false, gotRead := true, only := some h
      data := if h then [(false, (s.returned flips0 flips1 (2 * r.burst)).word), (true, w)]
              else [(false, w), (true, (s.returned flips0 flips1 (2 * r.burst + 1)).word)] } := by
  have hhalves : r.halves = [2 * r.burst, 2 * r.burst + 1] := by unfold Req.halves; rw [hkind]
  have hfrozen : s.frozen = false := by unfold State.frozen; rw [hrun]; rfl
  have heven : 2 * r.burst % 2 = 0 := Nat.mul_mod_right ..
  have hodd : (2 * r.burst + 1) % 2 = 1 := by omega
  unfold State.readReturn
  rw [hfind]
  dsimp only
  rw [hhalves, hfrozen, hkind, hdata]
  rw [show List.map (fun g => (g, readCode g (s.stored g ^^^ (if g % 2 = 0 then flips0 else flips1)))) [2 * r.burst, 2 * r.burst + 1]
    = [(2 * r.burst, s.returned flips0 flips1 (2 * r.burst)), (2 * r.burst + 1, s.returned flips0 flips1 (2 * r.burst + 1))] from rfl]
  rw [show ([(2 * r.burst, s.returned flips0 flips1 (2 * r.burst)), (2 * r.burst + 1, s.returned flips0 flips1 (2 * r.burst + 1))].any
    fun x => x.2.bad) = false by rw [List.any_cons, List.any_cons, h0, h1]; rfl]
  unfold State.accountBoth
  rw [hkind]
  cases h <;> simp [heven, hodd]

/-- A burst whose lower codeword is uncorrectable: its read ends, and the vault has frozen. -/
theorem State.readReturn_bad (hrun : s.vlt.st = .run) (hfind : s.vlt.reqs.find? (fun r => r.id == id && r.issued) = some r)
    (hkind : r.kind = .readBurst) (h0 : (s.returned flips0 flips1 (2 * r.burst)).bad = true) :
    ∃ msp, s.readReturn id flips0 flips1 =
      ({ s.accountBoth r flips0 flips1 with msp := msp } : State).finishReq r (s.vc (s.clocks.vault.next s.now)) := by
  have hhalves : r.halves = [2 * r.burst, 2 * r.burst + 1] := by unfold Req.halves; rw [hkind]
  have hfrozen : s.frozen = false := by unfold State.frozen; rw [hrun]; rfl
  unfold State.readReturn
  rw [hfind]
  dsimp only
  rw [hhalves, hfrozen]
  rw [show List.map (fun g => (g, readCode g (s.stored g ^^^ (if g % 2 = 0 then flips0 else flips1)))) [2 * r.burst, 2 * r.burst + 1]
    = [(2 * r.burst, s.returned flips0 flips1 (2 * r.burst)), (2 * r.burst + 1, s.returned flips0 flips1 (2 * r.burst + 1))] from rfl]
  rw [show ([(2 * r.burst, s.returned flips0 flips1 (2 * r.burst)), (2 * r.burst + 1, s.returned flips0 flips1 (2 * r.burst + 1))].any
    fun x => x.2.bad) = true by rw [List.any_cons, h0]; rfl]
  rw [if_neg Bool.false_ne_true, if_pos rfl]
  rw [show List.foldl (fun z x => z.account (pcOf r.pc) x.1 r.port (frzKind r.kind) (s.vc (s.clocks.vault.next s.now)) x.2) s
    [(2 * r.burst, s.returned flips0 flips1 (2 * r.burst)), (2 * r.burst + 1, s.returned flips0 flips1 (2 * r.burst + 1))]
    = s.accountBoth r flips0 flips1 from rfl]
  split
  · exact ⟨_, rfl⟩
  · exact ⟨(s.accountBoth r flips0 flips1).msp, rfl⟩

end Return

end Sys2Proof.Machine
end

section
/-! O35: the return of read data, and a parity error. -/

namespace Sys2Proof.Proofs

open Sys2Proof.Machine Sys2Proof.Safety

/-- The table and the vault once the data of a request without an error have been classified. -/
theorem accountBoth_good {s : State} {r : Req} {f0 f1 : Codeword} (h0 : (s.returned f0 f1 (2 * r.burst)).bad = false)
    (h1 : (s.returned f0 f1 (2 * r.burst + 1)).bad = false) : ∃ pcs l, s.accountBoth r f0 f1 = { s with
      vlt := { s.vlt with pcs := pcs }, truss := { s.truss with incoming := s.truss.incoming ++ l } } := by
  let v := s.vc (s.clocks.vault.next s.now)
  obtain ⟨y, l, hfirst, -⟩ := s.account_good (pcOf r.pc) (2 * r.burst) r.port (frzKind r.kind) v _ h0
  obtain ⟨y', l', hsecond, -⟩ := (s.account (pcOf r.pc) (2 * r.burst) r.port (frzKind r.kind) v
    (s.returned f0 f1 (2 * r.burst))).account_good (pcOf r.pc) (2 * r.burst + 1) r.port (frzKind r.kind) v _ h1
  refine ⟨(s.vlt.pcs.set (pcOf r.pc) y).set (pcOf r.pc) y', l ++ l', hsecond.trans ?_⟩
  rw [hfirst, ← List.append_assoc]
  rfl

/-- Settles O35: every read classifies its codewords, and ends by leaving the table. -/
theorem vaultReads : Obligations.VaultReads := by
  intro s flips0 flips1 hmode hrun
  refine ⟨fun id r hfind hxfers => ?_, fun at_ q => ?_⟩
  · intro q read
    refine ⟨fun h hkind hport hdata hgood c hc => ?_, fun h w hkind hdata h0 h1 => ?_, fun hkind hdata h0 => ?_⟩
    · let g := 2 * r.burst + bit h.1
      let v := s.vc (s.clocks.vault.next s.now)
      have hret := State.readReturn_codeword (flips0 := flips0) (flips1 := flips1) hrun hfind hkind hport hdata hgood
      obtain ⟨y, l, haccount, hce⟩ := s.account_good q g 13 3 v (s.returned flips0 flips1 g) hgood
      let z : State := { s.setPch q y with
        truss := { s.truss with incoming := s.truss.incoming ++ l }
        msp := { s.msp with cmd := s.msp.cmd.map fun (c : Cmd) => { c with got := c.got ++ [(g, (read g).word)] } } }
      have hret : s.readReturn id flips0 flips1 = z.finishReq r v := by
        refine hret.trans ?_
        rw [show s.account (pcOf r.pc) g 13 3 v (s.returned flips0 flips1 g) = _ from haccount]
        rfl
      obtain ⟨writers, reqs, pool, wake, idle, synths, doms, hfin, -⟩ := z.finishReq_table r v
      have hgone := z.finishReq_gone r v
      have hnone : ∀ j, (s.readReturn id flips0 flips1).via.xfers.getD j none = none := by
        rw [hret, hfin]
        exact hxfers
      have hexec : exec (.readDataReturn id flips0 flips1) s = .next (s.readReturn id flips0 flips1) :=
        congrArg Host.Outcome.next (s.dataReturn_noXfer id flips0 flips1 hnone)
      refine ⟨_, { c with got := c.got ++ [(g, (read g).word)], left := c.left.filter fun i => i != r.id }, hexec, ?_⟩
      rw [hret]
      refine ⟨?_, ?_, rfl, rfl, hgone, ?_, ?_, ?_⟩
      all_goals rw [hfin]
      · rfl
      · refine (congrArg (Option.map _) (congrArg (Option.map _) hc)).trans rfl
      · rfl
      · rfl
      · exact (congrArg PcSt.ce (State.pch_setPch_self s q y)).trans hce
    · have hgood0 : (s.returned flips0 flips1 (2 * r.burst)).bad = false := h0
      have hgood1 : (s.returned flips0 flips1 (2 * r.burst + 1)).bad = false := h1
      have hret := State.readReturn_rmw hrun hfind hkind hdata hgood0 hgood1
      obtain ⟨pcs, l, hboth⟩ := accountBoth_good hgood0 hgood1
      rw [hboth] at hret
      have hnone : ∀ j, (s.readReturn id flips0 flips1).via.xfers.getD j none = none := by
        rw [hret]
        exact hxfers
      have hexec : exec (.readDataReturn id flips0 flips1) s = .next (s.readReturn id flips0 flips1) :=
        congrArg Host.Outcome.next (s.dataReturn_noXfer id flips0 flips1 hnone)
      refine ⟨_, hexec, ?_⟩
      rw [hret]
      have hfound := List.find?_some hfind
      have hid : r.id = id := eq_of_beq (Bool.and_eq_true_iff.1 hfound).1
      refine ⟨rfl, rfl, List.mem_map.2 ⟨r, List.mem_of_find?_eq_some hfind, ?_⟩, List.length_map ..⟩
      rw [if_pos hid]
      rfl
    · have hbad0 : (s.returned flips0 flips1 (2 * r.burst)).bad = true := h0
      let v := s.vc (s.clocks.vault.next s.now)
      obtain ⟨msp, hret⟩ := State.readReturn_bad (flips0 := flips0) (flips1 := flips1) hrun hfind hkind hbad0
      let x := s.returned flips0 flips1 (2 * r.burst)
      let log := ueLog q r.port (frzKind r.kind) (2 * r.burst)
      obtain ⟨hvalid, hlogPort, hlogPc⟩ := ueLog_fields q r.port (frzKind r.kind) (2 * r.burst) (by rw [hkind]; decide)
      obtain ⟨hof, hue, hwhole⟩ := s.account_bad q (2 * r.burst) r.port (frzKind r.kind) v x hbad0
        (by rw [hrun]; decide) hmode
      obtain ⟨hnow, ⟨hfst, hfmode, harm, hmem⟩, -, hreqs, hstat, haddr, hsyn, -, hout, hxf, k, hk⟩ := hof
      obtain ⟨vlt, l, stat, hboth, hst, hleft, haddr', hsyn', hstat'⟩ := State.account_frozen (v := v) (2 * r.burst + 1) r.port
        (frzKind r.kind) (s.returned flips0 flips1 (2 * r.burst + 1)) hfst (by rw [hstat]; exact hlogPc)
      have hboth : s.accountBoth r flips0 flips1 = _ := hboth
      rw [hboth] at hret
      let z : State := { s.account q (2 * r.burst) r.port (frzKind r.kind) v x with
        vlt := vlt, msp := msp
        truss := { (s.account q (2 * r.burst) r.port (frzKind r.kind) v x).truss with
          incoming := (s.account q (2 * r.burst) r.port (frzKind r.kind) v x).truss.incoming ++ l } }
      have htold : ∀ {n b}, Reported (s.account q (2 * r.burst) r.port (frzKind r.kind) v x) n b → Reported z n b :=
        fun ⟨e, he, hb⟩ => ⟨e, List.mem_append_left _ he, hb⟩
      have hret : s.readReturn id flips0 flips1 = z.finishReq r v := hret
      have htable := z.finishReq_table r v
      have hgone := z.finishReq_gone r v
      obtain ⟨writers, reqs, pool, wake, idle, synths, doms, hfin, -⟩ := z.finishReq_table r v
      have hnone : ∀ j, (s.readReturn id flips0 flips1).via.xfers.getD j none = none := by
        intro j
        rw [hret, hfin]
        refine (congrArg (fun l : List (Option Xfer) => l.getD j none) hxf).trans ?_
        rw [List.getD_eq_getElem?_getD, List.getElem?_replicate]
        split <;> rfl
      have hexec : exec (.readDataReturn id flips0 flips1) s = .next (s.readReturn id flips0 flips1) :=
        congrArg Host.Outcome.next (s.dataReturn_noXfer id flips0 flips1 hnone)
      have hvalid' : z.vlt.frzStat.getLsbD 31 = true ∧ fld z.vlt.frzStat 24 4 = r.port % 16 ∧ fld z.vlt.frzStat 16 5 = q.val := by
        have hz : z.vlt.frzStat = log ∨ z.vlt.frzStat = putFld log 0 8 stat := hstat'.imp (·.trans hstat) (·.trans (by rw [hstat]))
        obtain h | h := hz
        · rw [h]
          exact ⟨hvalid, hlogPort, hlogPc⟩
        · rw [h, getLsbD_putFld _ _ _ _ (by decide), fld_putFld_above (by decide) (by decide),
            fld_putFld_above (by decide) (by decide)]
          exact ⟨hvalid, hlogPort, hlogPc⟩
      refine ⟨_, hexec, ?_⟩
      rw [hret]
      refine ⟨⟨?_, ?_, ?_, ?_⟩, ?_, ?_, ?_, ?_, ?_, htable.told (htold hue), htable.told (htold hwhole), hgone⟩
      all_goals rw [hfin]
      · exact hst
      · exact hfmode
      · exact harm
      · exact hmem
      · exact haddr'.trans haddr
      · exact hsyn'.trans hsyn
      · exact hvalid'.1
      · exact hvalid'.2.1
      · exact hvalid'.2.2
  · let z := s.at_ at_
    let v := z.vc (z.clocks.vault.next z.now)
    let log : Word := pack 32 [bitAt 31 true, bitAt 30 true, (24, 15), (16, q.val), (12, 4)]
    have hcapar : s.capar at_ q = (z.raise (pcSrc q) 0x04).freeze v q.val log none 0x02 := by
      refine if_neg (not_or.2 ⟨?_, hmode⟩)
      rw [show z.vlt.st = .run from hrun]
      decide
    obtain ⟨l, hl⟩ := z.raise_eq (pcSrc q) 0x04
    have htold : Reported (z.raise (pcSrc q) 0x04) (104 + q.val) 0x04 := State.reported_raise z (pcSrc q) 0x04 hmode (by decide)
    rw [hl] at hcapar htold
    obtain ⟨hof, hwhole⟩ := State.freeze_spec { z with truss := { z.truss with incoming := z.truss.incoming ++ l } } v q.val log none 0x02
      (show z.vlt.st ≠ .frozen by rw [show z.vlt.st = .run from hrun]; decide) hmode (by decide)
    have hall := hof.reported htold
    obtain ⟨hnow, ⟨hfst, hfmode, harm, hmem⟩, hmsp, hreqs, hstat, haddr, hsyn, hvc, hout, hxfers, k, hk⟩ := hof
    refine ⟨_, congrArg Host.Outcome.next hcapar, hnow, ⟨hfst, hfmode, harm, hmem⟩, hall, hwhole, haddr, ?_, ?_⟩
    · rw [hstat]
      exact getLsbD_pack (f := bitAt 30 true) (by simp) (by decide)
    · rw [hstat]
      exact caparLog_pc q

end Sys2Proof.Proofs
end

section
/-! O50: a fuse word is programmed (R634, R640, R642). -/

namespace Sys2Proof.Machine

open Sys2Proof.Safety

theorem LifeCycle.fuse_blow_self {l : LifeCycle} (h : Sparse 0 l.fuses) (i : Nat) (bits : Word) :
    (l.blow i bits).fuse i = l.fuse i ||| bits := sget_sset_self _ _ _ h

theorem LifeCycle.fuse_blow_ne (l : LifeCycle) (i : Nat) (bits : Word) {j : Nat} (hj : j ≠ i) :
    (l.blow i bits).fuse j = l.fuse j := sget_sset_ne _ _ _ _ hj

/-- The sequence ends at a word: WHY names the cause where ADVANCE runs it. -/
def State.fuseStop (s : State) (q : FuseSeq) (why : BitVec 4) (cause : Byte) : State :=
  (s.modLcy fun l => { l with seq := none, why := if q.byAdvance then why else l.why }).raise 224 cause

/-- A verified word: its bits are set, and it is counted and reported. -/
def State.fuseVerified (s : State) (q : FuseSeq) (i : Nat) (bits : Word) : State :=
  (s.modLcy fun l => { l.blow i bits with words := if q.byAdvance then satAdd l.words 1 else l.words }).raise 224
    (if q.byAdvance || q.target = 4 then fuseCause i bits else 0)

/-- A word that fails takes some of its bits. -/
def State.fuseFailed (s : State) (i : Nat) (bits : Word) : State :=
  (s.modLcy fun l => l.blow i (s.partly (l.fuse i) bits)).drawn

section Done
variable {s : State} {q : FuseSeq} {i : Nat} {bits : Word} {rest : List (Nat × Word)}

theorem State.fuseWordDone_failed (hq : s.lcy.seq = some q) (hw : q.words = (i, bits) :: rest) :
    s.fuseWordDone false = ((s.at_ (s.mcAt (q.start + 20000))).fuseFailed i bits).fuseStop q whyFuse 0x20 := by
  unfold State.fuseWordDone
  rw [hq]
  dsimp only
  rw [hw]
  rfl

theorem State.fuseWordDone_verified (hq : s.lcy.seq = some q) (hw : q.words = (i, bits) :: rest) :
    let z := (s.at_ (s.mcAt (q.start + 20000))).fuseVerified q i bits
    s.fuseWordDone true =
      if rest.isEmpty then z.modLcy fun l => { l with seq := none }
      else if z.pwr.dipActive then z.fuseStop q whySupply (if q.byAdvance then 0x40 else 0)
      else z.modLcy fun l => { l with seq := some { q with words := rest, start := q.start + 20000 } } := by
  unfold State.fuseWordDone
  rw [hq]
  dsimp only
  rw [hw]
  rfl

end Done

/-- What is taken of a word that fails is among the bits asked for. -/
theorem State.partly_le (s : State) (old bits : Word) (b : Nat) (h : (s.partly old bits).getLsbD b = true) :
    bits.getLsbD b = true := by
  unfold State.partly at h
  dsimp only at h
  split at h
  · exact absurd h (by simp)
  · rw [BitVec.getLsbD_and, Bool.and_eq_true] at h
    exact h.1

end Sys2Proof.Machine

namespace Sys2Proof.Proofs

open Sys2Proof.Machine Sys2Proof.Safety

/-- Settles O50: a word is blown in whole or in part, and the sequence goes on or ends. -/
theorem fuseWords : Obligations.FuseWords := by
  intro s q i bits rest hmode hq hw hsparse m others
  let z := s.at_ (s.mcAt m)
  refine ⟨?_, ?_⟩
  · have hdone := State.fuseWordDone_verified hq hw
    let cause : Byte := if q.byAdvance || q.target = 4 then fuseCause i bits else 0
    let blown : LifeCycle := { s.lcy.blow i bits with words := if q.byAdvance then satAdd s.lcy.words 1 else s.lcy.words }
    let z1 : State := { z with lcy := blown }
    obtain ⟨l, hl⟩ := z1.raise_eq 224 cause
    have hver : z.fuseVerified q i bits = { z1 with truss := { z1.truss with incoming := z1.truss.incoming ++ l } } := hl
    have htold : q.byAdvance = true → ∀ c, fuseCause i bits = c → c ≠ 0 →
        Reported { z1 with truss := { z1.truss with incoming := z1.truss.incoming ++ l } } 224 c := by
      intro hby c hc hne
      have hcause : cause = c := by simp only [cause]; rw [hby]; exact hc
      rw [← hl, hcause]
      exact State.reported_raise z1 224 c hmode hne
    have hcauses : q.byAdvance = true →
        (i = 4 → Reported { z1 with truss := { z1.truss with incoming := z1.truss.incoming ++ l } } 224 0x01) ∧
        (i = 16 → Reported { z1 with truss := { z1.truss with incoming := z1.truss.incoming ++ l } } 224 (if bits = 1 then 0x02 else 0x10)) := by
      refine fun hby => ⟨fun h4 => htold hby _ (if_pos h4) (by decide), fun h16 => htold hby _ ?_ (by split <;> decide)⟩
      rw [h16]; rfl
    obtain ⟨z2, hz2⟩ : ∃ z2 : State, z2 = { z1 with truss := { z1.truss with incoming := z1.truss.incoming ++ l } } := ⟨_, rfl⟩
    rw [← hz2] at hver hcauses
    have hself : z2.lcy.fuse i = s.lcy.fuse i ||| bits := by rw [hz2]; exact LifeCycle.fuse_blow_self hsparse i bits
    have hothers : others z2 := fun j hj => by rw [hz2]; exact LifeCycle.fuse_blow_ne s.lcy i bits hj
    have hnow : z2.now = max s.now (s.mcAt m) := by rw [hz2]; rfl
    have honly : OnlyLife s z2 := by rw [hz2]; rfl
    have hdip : z2.pwr.dipActive = s.pwr.dipActive := by rw [hz2]; rfl
    have hwords : q.byAdvance = true → z2.lcy.words = satAdd s.lcy.words 1 := fun hby => by rw [hz2]; exact if_pos hby
    have hz2mode : z2.pwr.mode ≠ .reset := by rw [hz2]; exact hmode
    have hdone : s.fuseWordDone true = _ := hdone
    rw [hver] at hdone
    have hlife : ∀ seq why, OnlyLife s (z2.modLcy fun l => { l with seq := seq, why := why }) := fun seq why => by
      rw [hz2]; rfl
    by_cases hrest : rest = []
    · rw [if_pos (List.isEmpty_iff.2 hrest)] at hdone
      exact ⟨_, congrArg Host.Outcome.next hdone, hlife none z2.lcy.why, hnow, hothers, hself,
        fun hby => ⟨hwords hby, (hcauses hby).1, (hcauses hby).2⟩, fun _ => rfl, fun h => absurd hrest h, fun h => absurd hrest h⟩
    · rw [if_neg (by rw [List.isEmpty_iff]; exact hrest)] at hdone
      cases hd : s.pwr.dipActive with
      | false =>
        rw [hdip, hd, if_neg Bool.false_ne_true] at hdone
        exact ⟨_, congrArg Host.Outcome.next hdone, hlife (some { q with words := rest, start := m }) z2.lcy.why, hnow, hothers, hself,
          fun hby => ⟨hwords hby, (hcauses hby).1, (hcauses hby).2⟩, fun h => absurd h hrest, fun _ _ => rfl, fun _ h => absurd h (by decide)⟩
      | true =>
        rw [hdip, hd, if_pos rfl] at hdone
        let z3 : State := z2.modLcy fun l => { l with seq := none, why := if q.byAdvance then 9 else l.why }
        let c : Byte := if q.byAdvance then 0x40 else 0
        have hdone : s.fuseWordDone true = z3.raise 224 c := hdone
        obtain ⟨k, hk⟩ := z3.raise_eq 224 c
        have hstop : q.byAdvance = true → Reported (z3.raise 224 c) 224 0x40 := fun hby => by
          simp only [c]
          rw [hby]
          exact State.reported_raise z3 224 0x40 hz2mode (by decide)
        have hkeep : ∀ {n b}, Reported z2 n b → Reported (z3.raise 224 c) n b := fun h =>
          Reported.raise (s := z3) h 224 c
        refine ⟨_, congrArg Host.Outcome.next hdone, ?_, ?_, ?_, ?_, fun hby => ⟨?_, fun h => hkeep ((hcauses hby).1 h),
          fun h => hkeep ((hcauses hby).2 h)⟩, fun h => absurd h hrest, fun _ h => absurd h (by decide), fun _ _ => ⟨?_, fun hby => ⟨?_, hstop hby⟩⟩⟩
        all_goals rw [hk]
        · simp only [z3, hz2]; rfl
        · exact hnow
        · exact hothers
        · exact hself
        · exact hwords hby
        · rfl
        · exact if_pos hby
  · let left := z.partly (s.lcy.fuse i) bits
    let z1 : State := { z with lcy := { s.lcy.blow i left with seq := none, why := if q.byAdvance then 8 else s.lcy.why }, free := s.free + 1 }
    have hdone : s.fuseWordDone false = z1.raise 224 0x20 := State.fuseWordDone_failed hq hw
    obtain ⟨l, hl⟩ := z1.raise_eq 224 0x20
    have htold : Reported (z1.raise 224 0x20) 224 0x20 := State.reported_raise z1 224 0x20 hmode (by decide)
    have hself : (s.lcy.blow i left).fuse i = s.lcy.fuse i ||| left := LifeCycle.fuse_blow_self hsparse i left
    refine ⟨_, congrArg Host.Outcome.next hdone, ?_⟩
    rw [hl] at htold ⊢
    refine ⟨rfl, rfl, fun j hj => LifeCycle.fuse_blow_ne _ i left hj, rfl, htold, fun hby => if_pos hby, fun b => ?_⟩
    have hbit : ((s.lcy.blow i left).fuse i).getLsbD b = ((s.lcy.fuse i).getLsbD b || left.getLsbD b) := by
      rw [hself, BitVec.getLsbD_or]
    refine ⟨fun h => hbit.trans (by rw [h]; rfl), fun h => ?_⟩
    exact (Bool.or_eq_true_iff.1 (hbit.symm.trans h)).imp_right (z.partly_le _ _ b)

end Sys2Proof.Proofs
end

section
/-! SUPPORT. What a reset source leaves (R515 to R518), and what a recognition edge leaves of the truss (R577 to R591). -/

namespace Sys2Proof.Machine

open Sys2Proof.Safety

/-! ## RESET -/

theorem State.toReset_inReset (s : State) (f : Power → Power) : InReset s (s.toReset f) := by
  refine ⟨rfl, fun c => ?_, fun v => ?_, ⟨rfl, rfl, rfl, rfl⟩, ⟨rfl, rfl, rfl, rfl, rfl, rfl, rfl⟩, fun k => rfl, ⟨rfl, rfl, rfl⟩,
    fun d => ?_, rfl, ⟨rfl, rfl, rfl, rfl⟩, rfl, rfl⟩
  · exact Vector.getElem_replicate ..
  · cases v with
    | false => exact Clock.retime_period _ _ _
    | true => exact Clock.retime_period _ _ _
  · exact Vector.getElem_replicate ..

/-- RESET depends on the fuses, the flash, the waiting commands and the MGMT clock alone. -/
theorem InReset.of_core {s u t : State} (h : InReset u t) (hclk : u.clocks.mgmt = s.clocks.mgmt) (hf : u.lcy.fuses = s.lcy.fuses)
    (hn : u.nvm.flash = s.nvm.flash) (hp : u.pending = s.pending) : InReset s t := by
  obtain ⟨hmode, hchans, hclocks, hgalley, hunits, hsynths, htb, hdoms, hfuses, hlife, hnvm, hqueue⟩ := h
  exact ⟨hmode, hchans, fun v => (hclocks v).trans (by rw [hclk]), hgalley, hunits, hsynths, htb, hdoms, hfuses.trans hf, hlife,
    hnvm.trans (by rw [hn]), hqueue.trans hp⟩

/-! ## Levels -/

@[simp] theorem State.setSrc_src (s : State) (n : Source) : s.setSrc n (s.src n) = s := by
  simp [State.src, State.setSrc]

section Level
variable {s : State} {n : Source} {old lvl mc : Nat}

theorem State.takeLevel_chip : s.takeLevel n old 5 mc = s.chipReset n mc := rfl

theorem State.takeLevel_zero : s.takeLevel n old 0 mc = s := rfl

/-- Below CHIP a level touches the truss alone: ALIVE, and when the source's actions fall due. -/
theorem State.takeLevel_eq (h : lvl ≠ 5) : ∃ trap block stopped src stop, s.takeLevel n old lvl mc =
    { s.setSrc n { s.src n with trapDue := trap, blockDue := block } with
      truss := { (s.setSrc n { s.src n with trapDue := trap, blockDue := block }).truss with
        aliveStopped := stopped, aliveSrc := src, aliveStopAt := stop } } ∧
    (lvl = 4 → stopped = true ∧ (s.truss.aliveStopped = false → src = BitVec.ofNat 8 n.val ∧ stop = some (mc + 8))) ∧
    (lvl = 2 → s.msp.fwup = true → trap = some (mc + 64) ∧ block = (s.src n).blockDue) ∧
    (lvl = 3 → s.msp.fwup = true → block = some (mc + 64)) ∧
    (s.msp.fwup = false → trap = (s.src n).trapDue ∧ block = (s.src n).blockDue) := by
  have hself : s.setSrc n { s.src n with trapDue := (s.src n).trapDue, blockDue := (s.src n).blockDue } = s := s.setSrc_src n
  unfold State.takeLevel
  rw [if_neg h]
  by_cases h4 : lvl = 4
  · subst h4
    rw [if_pos rfl]
    split
    · next hs =>
      refine ⟨_, _, s.truss.aliveStopped, s.truss.aliveSrc, s.truss.aliveStopAt, ?_, fun _ => ⟨hs, fun h => absurd hs (by rw [h]; decide)⟩,
        fun h => absurd h (by decide), fun h => absurd h (by decide), fun _ => ⟨rfl, rfl⟩⟩
      rw [hself]
    · refine ⟨_, _, true, BitVec.ofNat 8 n.val, some (mc + 8), ?_, fun _ => ⟨rfl, fun _ => ⟨rfl, rfl⟩⟩,
        fun h => absurd h (by decide), fun h => absurd h (by decide), fun _ => ⟨rfl, rfl⟩⟩
      rw [hself]
  · rw [if_neg h4]
    split
    · next hact =>
      obtain ⟨hl, hup⟩ := hact
      refine ⟨_, _, s.truss.aliveStopped, s.truss.aliveSrc, s.truss.aliveStopAt, rfl, fun h => absurd h h4, fun h2 _ => ?_,
        fun h3 _ => ?_, fun h => absurd hup (by rw [h]; decide)⟩
      · exact ⟨if_neg fun h => absurd (h2.symm.trans h.1) (by decide), if_neg (by rw [h2]; decide)⟩
      · exact if_pos h3
    · next hno =>
      refine ⟨_, _, s.truss.aliveStopped, s.truss.aliveSrc, s.truss.aliveStopAt, ?_, fun h => absurd h h4,
        fun h2 hup => absurd ⟨.inl h2, hup⟩ hno, fun h3 hup => absurd ⟨.inr h3, hup⟩ hno, fun _ => ⟨rfl, rfl⟩⟩
      rw [hself]

end Level

/-! ## One event -/

theorem State.nintFrom_eq (s : State) (was : Bool) (mc : Nat) : ∃ a p, s.nintFrom was mc =
    { s with truss := { s.truss with nintAt := a, nintPrev := p } } := by
  unfold State.nintFrom
  split <;> exact ⟨_, _, rfl⟩

/-- The source once its event has been taken, before the effects of its level. -/
def SrcSt.eventful (x : SrcSt) (mc : Nat) (causes : Byte) (inj : Bool) : SrcSt :=
  { x with latch := x.latch ||| causes, lreal := true, linj := x.linj || inj, pulseMc := mc, pulse := causes }

/-- The source of an event whose causes act, with the history entry that takes it. -/
def SrcSt.pended (x : SrcSt) (mc : Nat) (causes : Byte) (inj : Bool) (id : Nat) : SrcSt :=
  let starts := x.react != 0 && x.timer.isNone && x.esc != 0
  { x.eventful mc causes inj with
    pend := x.pend || x.react != 0, level := BitVec.ofNat 3 (max x.level.toNat x.react)
    timer := if starts then some (mc + min x.esc 1000000 * 250) else x.timer
    entReal := some id, entTimer := if starts then some id else x.entTimer }

/-- The history after an event of a real condition: a new entry in front, or the pending one with the event merged in. -/
def State.eventTruss (s : State) (n : Source) (mc : Nat) (causes : Byte) (inj : Bool) : Truss :=
  match s.mergeInto (s.src n) true with
  | some i => s.truss.modEntry i fun e =>
      { e with cause := e.cause ||| causes, merge := satAdd e.merge 1, inj := e.inj || inj
               react := BitVec.ofNat 3 (max e.react.toNat (s.src n).react) }
  | none => s.truss.open_
      { span := s.histSpan mc, mclk := BitVec.ofNat 32 (mc - s.pwr.mclk0), source := BitVec.ofNat 8 n.val
        cause := causes, merge := 0, inj := inj, real := true, react := BitVec.ofNat 3 (s.src n).react
        id := (s.mergeInto (s.src n) true).getD s.truss.nextEnt }

section Event
variable (s : State) (n : Source) (mc : Nat) (causes : Byte) (inj : Bool)

theorem State.event_masked (h : causes &&& (s.src n).cmask = 0) :
    s.event n mc causes true inj false = s.setSrc n ((s.src n).eventful mc causes inj) := by
  unfold State.event
  dsimp only
  rw [if_pos h, Bool.or_true]
  rfl

theorem State.event_acts (h : causes &&& (s.src n).cmask ≠ 0) : ∃ a p,
    let x := s.src n
    let z := { s with truss := s.eventTruss n mc causes inj }.setSrc n
      (x.pended mc causes inj ((s.mergeInto x true).getD s.truss.nextEnt))
    let z1 := { z with truss := { z.truss with nintAt := a, nintPrev := p } }
    s.event n mc causes true inj false =
      if max x.level.toNat x.react > x.level.toNat then z1.takeLevel n x.level.toNat (max x.level.toNat x.react) mc else z1 := by
  obtain ⟨a, p, hn⟩ := ({ s with truss := s.eventTruss n mc causes inj }.setSrc n
      ((s.src n).pended mc causes inj ((s.mergeInto (s.src n) true).getD s.truss.nextEnt))).nintFrom_eq s.truss.anyPend mc
  refine ⟨a, p, ?_⟩
  intro x z z1
  have hz1 : z.nintFrom s.truss.anyPend mc = z1 := hn
  rw [← hz1]
  unfold State.event
  dsimp only
  rw [if_neg h, Bool.or_true]
  simp only [Bool.false_eq_true, if_false, if_true, Bool.not_false, Bool.true_and]
  rfl

end Event

/-- The level that an event takes: the reaction where it is above the level before, none otherwise. -/
def SrcSt.takes (x : SrcSt) : Nat := if x.level.toNat < x.react then x.react else 0

/-- The state in which an event's source is pending, before its level takes effect. -/
def State.pendedAt (s : State) (n : Source) (mc : Nat) (causes : Byte) (inj : Bool) (a p : Nat) : State :=
  let x := s.src n
  let z := { s with truss := s.eventTruss n mc causes inj }.setSrc n
    (x.pended mc causes inj ((s.mergeInto x true).getD s.truss.nextEnt))
  { z with truss := { z.truss with nintAt := a, nintPrev := p } }

/-- An event's part of the truss is its history. -/
theorem State.eventTruss_eq (s : State) (n : Source) (mc : Nat) (causes : Byte) (inj : Bool) : ∃ hist next lost,
    s.eventTruss n mc causes inj = { s.truss with hist := hist, nextEnt := next, histLost := lost } := by
  unfold State.eventTruss
  split <;> exact ⟨_, _, _, rfl⟩

theorem State.pendedAt_spec (s : State) (n : Source) (mc : Nat) (causes : Byte) (inj : Bool) (a p : Nat) :
    let w := s.pendedAt n mc causes inj a p
    OnlyTruss s w ∧ OtherSources s w n ∧ w.now = s.now ∧ w.truss.incoming = s.truss.incoming ∧ w.msp = s.msp ∧
    w.truss.aliveStopped = s.truss.aliveStopped ∧ w.truss.hist = (s.eventTruss n mc causes inj).hist ∧
    w.truss.histLost = (s.eventTruss n mc causes inj).histLost ∧
    w.src n = (s.src n).pended mc causes inj ((s.mergeInto (s.src n) true).getD s.truss.nextEnt) := by
  unfold State.pendedAt
  obtain ⟨hist, next, lost, heq⟩ := s.eventTruss_eq n mc causes inj
  rw [heq]
  refine ⟨rfl, fun k hk => State.src_setSrc_ne { s with truss := { s.truss with hist := hist, nextEnt := next, histLost := lost } } n k _ hk,
    rfl, rfl, rfl, rfl, rfl, rfl, ?_⟩
  exact State.src_setSrc_self { s with truss := { s.truss with hist := hist, nextEnt := next, histLost := lost } } n _

theorem State.event_takes (s : State) (n : Source) (mc : Nat) (causes : Byte) (inj : Bool)
    (h : causes &&& (s.src n).cmask ≠ 0) : ∃ a p, s.event n mc causes true inj false =
      (s.pendedAt n mc causes inj a p).takeLevel n (s.src n).level.toNat (s.src n).takes mc := by
  obtain ⟨a, p, hev⟩ := s.event_acts n mc causes inj h
  refine ⟨a, p, hev.trans ?_⟩
  by_cases hrise : (s.src n).level.toNat < (s.src n).react
  · have hmax : max (s.src n).level.toNat (s.src n).react = (s.src n).react := max_eq_right (le_of_lt hrise)
    have htakes : (s.src n).takes = (s.src n).react := if_pos hrise
    rw [hmax, htakes, if_pos hrise]
    unfold State.pendedAt SrcSt.pended
    rfl
  · have hmax : max (s.src n).level.toNat (s.src n).react = (s.src n).level.toNat := max_eq_left (Nat.not_lt.1 hrise)
    have htakes : (s.src n).takes = 0 := if_neg hrise
    rw [htakes, State.takeLevel_zero, hmax]
    exact if_neg (Nat.lt_irrefl _)

/-! ## The earliest recognition edge -/

/-- A condition that comes before every other one is the next to be recognised. -/
theorem Truss.nextRecog_first {t : Truss} {r : Recog} {rest : List Recog} (ht : t.incoming = r :: rest)
    (h : ∀ o ∈ rest, r.mc < o.mc ∨ r.mc = o.mc ∧ r.src.val < o.src.val) : t.nextRecog = some (r.mc, r.src) := by
  unfold Truss.nextRecog
  rw [ht, List.foldl_cons]
  dsimp only
  induction rest generalizing t with
  | nil => rfl
  | cons o rest ih =>
    rw [List.foldl_cons]
    dsimp only
    have hlate : ¬(o.mc < r.mc ∨ o.mc = r.mc ∧ o.src.val < r.src.val) := by
      rcases h o List.mem_cons_self with h | h <;> omega
    rw [if_neg hlate]
    exact ih (t := { t with incoming := r :: rest }) rfl fun o ho => h o (List.mem_cons_of_mem _ ho)

theorem Recog.apart {r o : Recog} (h : r.mc < o.mc ∨ r.mc = o.mc ∧ r.src.val < o.src.val) :
    (o.mc == r.mc && o.src == r.src) = false := by
  refine Bool.eq_false_iff.2 fun he => ?_
  obtain ⟨hm, hs⟩ := Bool.and_eq_true_iff.1 he
  have hm := eq_of_beq hm
  have hs := congrArg Fin.val (eq_of_beq hs)
  omega

/-- The first condition alone, a real one that is no repetition of the edge before, is the event. -/
theorem State.recognise_first {s : State} {r : Recog} {rest : List Recog} (ht : s.truss.incoming = r :: rest)
    (h : ∀ o ∈ rest, r.mc < o.mc ∨ r.mc = o.mc ∧ r.src.val < o.src.val) (hreal : r.real = true) (hc : r.causes ≠ 0)
    (hnew : (s.src r.src).pulseMc + 1 ≠ r.mc) :
    s.recognise = ({ s.at_ (s.mcAt r.mc) with truss := { s.truss with incoming := rest } } : State).event r.src r.mc r.causes
      true r.inj false := by
  have hhere : (s.truss.incoming.filter fun o => o.mc == r.mc && o.src == r.src) = [r] := by
    rw [ht, List.filter_cons_of_pos (by rw [beq_self_eq_true, beq_self_eq_true]; rfl)]
    exact congrArg (r :: ·) (List.filter_eq_nil_iff.2 fun o ho => by rw [Recog.apart (h o ho)]; decide)
  have hrest : (s.truss.incoming.filter fun o => !(o.mc == r.mc && o.src == r.src)) = rest := by
    rw [ht, List.filter_cons_of_neg (by rw [beq_self_eq_true, beq_self_eq_true]; decide)]
    exact List.filter_eq_self.2 fun o ho => by rw [Recog.apart (h o ho)]; rfl
  have hpulse : ((s.src r.src).pulseMc + 1 == r.mc) = false := beq_eq_false_iff_ne.2 hnew
  have hzero : (0 : Byte) ||| r.causes = r.causes := BitVec.zero_or
  unfold State.recognise
  rw [Truss.nextRecog_first ht h]
  dsimp only
  rw [hhere, hrest, hpulse, Bool.and_false, if_neg Bool.false_ne_true]
  simp only [List.foldl_cons, List.foldl_nil, List.any_cons, List.any_nil, Bool.or_false, hreal, Bool.not_true, Bool.false_and,
    hzero]
  exact if_neg hc

/-! ## Escalation -/

/-- An expiry raises its source's level and restarts the timer; the history entry alone changes beside it. -/
theorem State.escalation_eq {s : State} {n : Source} {m : Nat} (h : (s.src n).timer = some m) : ∃ tr : Truss,
    tr.srcs = s.truss.srcs ∧
    let x := s.src n
    let y : SrcSt := { x with level := BitVec.ofNat 3 (escalate x.level.toNat)
                              timer := if x.esc = 0 then none else some (m + min x.esc 1000000 * 250) }
    s.escalation n = (({ s.at_ (s.mcAt m) with truss := tr } : State).setSrc n y).takeLevel n x.level.toNat
      (escalate x.level.toNat) m := by
  unfold State.escalation
  rw [h]
  dsimp only
  refine ⟨_, ?_, rfl⟩
  split <;> rfl

end Sys2Proof.Machine
end

section
/-! O51: recognition edges, reactions and escalation. -/

namespace Sys2Proof.Proofs

open Sys2Proof.Machine Sys2Proof.Safety

/-- The source of an event, and the truss with it, once its level has taken effect: what O51 says of them. -/
theorem takenLevel {z t : State} {n : Source} {old lvl mc : Nat} (hne : lvl ≠ 5) (ht : t = z.takeLevel n old lvl mc) :
    OnlyTruss z t ∧ OtherSources z t n ∧ t.now = z.now ∧ t.truss.incoming = z.truss.incoming ∧ t.truss.hist = z.truss.hist ∧
    t.truss.histLost = z.truss.histLost ∧
    (∃ trap block, t.src n = { z.src n with trapDue := trap, blockDue := block } ∧
      (lvl = 2 → z.msp.fwup = true → trap = some (mc + 64) ∧ block = (z.src n).blockDue) ∧
      (lvl = 3 → z.msp.fwup = true → block = some (mc + 64)) ∧
      (z.msp.fwup = false → trap = (z.src n).trapDue ∧ block = (z.src n).blockDue)) ∧
    (lvl = 4 → t.truss.aliveStopped = true ∧ (z.truss.aliveStopped = false →
      t.truss.aliveSrc = BitVec.ofNat 8 n.val ∧ t.truss.aliveStopAt = some (mc + 8))) := by
  obtain ⟨trap, block, stopped, src, stop, heq, h4, h2, h3, hup⟩ := State.takeLevel_eq (s := z) (n := n) (old := old) (mc := mc) hne
  rw [heq] at ht
  subst ht
  refine ⟨rfl, fun k hk => State.src_setSrc_ne _ _ _ _ hk, rfl, rfl, rfl, rfl, ⟨trap, block, State.src_setSrc_self z n _, h2, h3, hup⟩, h4⟩

/-- The history with an event of a pending source merged in. -/
theorem modEntry_spec (t : Truss) (id : Nat) (f : Hist → Hist) (k : Nat) (h : Hist) (hk : t.hist[k]? = some h) :
    (t.modEntry id f).hist[k]? = some (if h.id = id then f h else h) := by
  unfold Truss.modEntry
  rw [List.getElem?_map, hk]
  rfl

/-- A field of a word, as a number. -/
theorem fld_eq_extract {n : Nat} (w : BitVec n) (lo len : Nat) : fld w lo len = (w.extractLsb' lo len).toNat := by
  rw [BitVec.extractLsb'_toNat, Nat.shiftRight_eq_div_pow]
  rfl

theorem react_eq (x : SrcSt) : x.react = (x.cfg.extractLsb' 29 3).toNat := fld_eq_extract ..
theorem esc_eq (x : SrcSt) : x.esc = (x.cfg.extractLsb' 0 20).toNat := fld_eq_extract ..
theorem react_lt (x : SrcSt) : x.react < 8 := Nat.mod_lt _ (by decide)

/-- The level after an event. -/
theorem pended_level (x : SrcSt) (mc : Nat) (causes : Byte) (inj : Bool) (id : Nat) :
    (x.pended mc causes inj id).level.toNat = max x.level.toNat x.react := by
  have hx := x.level.isLt
  have hr := react_lt x
  exact (BitVec.toNat_ofNat ..).trans (Nat.mod_eq_of_lt (max_lt hx hr))

/-- The escalation timer after an event. -/
theorem pended_timer (x : SrcSt) (mc : Nat) (causes : Byte) (inj : Bool) (id : Nat) : (x.pended mc causes inj id).timer =
    if x.react ≠ 0 ∧ x.timer = none ∧ x.esc ≠ 0 then some (mc + min x.esc 1000000 * 250) else x.timer := by
  unfold SrcSt.pended
  dsimp only
  by_cases h : x.react ≠ 0 ∧ x.timer = none ∧ x.esc ≠ 0
  · obtain ⟨hr, ht, he⟩ := h
    refine Eq.trans ?_ (if_pos ⟨hr, ht, he⟩).symm
    rw [ht, bne_iff_ne.2 hr, bne_iff_ne.2 he]
    rfl
  · refine Eq.trans (if_neg fun hs => h ?_) (if_neg h).symm
    obtain ⟨hrt, he⟩ := Bool.and_eq_true_iff.1 hs
    obtain ⟨hr, ht⟩ := Bool.and_eq_true_iff.1 hrt
    exact ⟨bne_iff_ne.1 hr, Option.isNone_iff_eq_none.1 ht, bne_iff_ne.1 he⟩

/-- An event of a source that was not pending opens an entry. -/
theorem eventTruss_opens {s : State} {n : Source} (h : (s.src n).pend = false) (mc : Nat) (causes : Byte) (inj : Bool) :
    ∃ e, s.eventTruss n mc causes inj = s.truss.open_ e ∧ e.source = BitVec.ofNat 8 n.val ∧ e.cause = causes ∧ e.merge = 0 ∧
      e.real = true ∧ e.inj = inj ∧ e.react = BitVec.ofNat 3 (s.src n).react ∧ e.mclk = BitVec.ofNat 32 (mc - s.pwr.mclk0) := by
  have hno : s.mergeInto (s.src n) true = none := by unfold State.mergeInto; rw [h]; rfl
  unfold State.eventTruss
  rw [hno]
  exact ⟨_, rfl, rfl, rfl, rfl, rfl, rfl, rfl, rfl⟩

/-- An event of a pending source is merged into its entry where that is still in the queue. -/
theorem eventTruss_merges {s : State} {n : Source} {id : Nat} (hp : (s.src n).pend = true) (he : (s.src n).entReal = some id)
    (hin : ∃ h ∈ s.truss.hist, h.id = id) (mc : Nat) (causes : Byte) (inj : Bool) :
    s.eventTruss n mc causes inj = s.truss.modEntry id fun e =>
      { e with cause := e.cause ||| causes, merge := satAdd e.merge 1, inj := e.inj || inj
               react := BitVec.ofNat 3 (max e.react.toNat (s.src n).react) } := by
  have hsome : s.mergeInto (s.src n) true = some id := by
    obtain ⟨h, hm, hid⟩ := hin
    unfold State.mergeInto
    rw [hp, he]
    exact if_pos (List.any_eq_true.2 ⟨h, hm, show (h.id == id) = true from beq_iff_eq.2 hid⟩)
  unfold State.eventTruss
  rw [hsome]

/-- CHIP resets the device; what has changed in the truss alone does not matter to it. -/
theorem chipReset_spec {s u : State} (n : Source) (mc : Nat) (hu : OnlyTruss s u) (hmode : s.pwr.mode ≠ .reset) :
    InReset s (u.chipReset n mc) ∧ (u.chipReset n mc).pwr.rstTruss = true ∧
    (u.chipReset n mc).pwr.rstSrc = BitVec.ofNat 8 n.val ∧ (u.chipReset n mc).pwr.trussHold = some (mc + 25000) ∧
    (u.chipReset n mc).pwr.rstCount = satAdd s.pwr.rstCount 1 := by
  refine ⟨InReset.of_core (u.toReset_inReset _) ?_ ?_ ?_ ?_, rfl, rfl, rfl, ?_⟩
  all_goals rw [hu]
  exact if_neg hmode

/-- Settles O51: an event and an expiry touch their source and the history, and a level that rises takes its effect. -/
theorem trussEventsAndEscalation : Obligations.TrussEventsAndEscalation := by
  intro s hmode
  refine ⟨fun r rest hin hfirst hreal hcauses hnew => ?_, fun n m htimer => ?_⟩
  · intro n x react esc acts rises
    let z : State := { s.at_ (s.mcAt r.mc) with truss := { s.truss with incoming := rest } }
    have hrec : s.recognise = z.event n r.mc r.causes true r.inj false := State.recognise_first hin hfirst hreal hcauses hnew
    have hreact : x.react = react := react_eq x
    have hesc : x.esc = esc := esc_eq x
    have htakes : ∀ k, 0 < k → acts → (x.takes = k ↔ rises ∧ react = k) := by
      intro k hk hacts
      unfold SrcSt.takes
      rw [hreact]
      split
      · next hr => exact ⟨fun h => ⟨⟨hacts, hr⟩, h⟩, fun h => h.2⟩
      · next hr => exact ⟨fun h => absurd h (Nat.ne_of_lt hk), fun h => absurd h.1.2 hr⟩
    refine ⟨fun hno => ?_, fun hrises h5 => ?_⟩
    · by_cases hacts : acts
      · obtain ⟨a, p, hev⟩ := z.event_takes n r.mc r.causes r.inj hacts
        obtain ⟨hwonly, hwothers, hwnow, hwinc, hwmsp, hwalive, hwhist, hwlost, hwsrc⟩ := z.pendedAt_spec n r.mc r.causes r.inj a p
        have h5 : x.takes ≠ 5 := fun h => hno ((htakes 5 (by decide) hacts).1 h)
        obtain ⟨honly, hothers, hnow, hinc, hhist, hlost, ⟨trap, block, hsrc, h2, h3, hup⟩, h4⟩ :=
          takenLevel (z := z.pendedAt n r.mc r.causes r.inj a p) (n := n) (old := x.level.toNat) (mc := r.mc) h5 (hrec.trans hev)
        rw [hwsrc] at hsrc h2 hup
        have hexec : exec (.trussEvent none) s = .next s.recognise := rfl
        generalize z.pendedAt n r.mc r.causes r.inj a p = w at *
        generalize s.recognise = t at *
        refine ⟨t, hexec, ?_, fun k hk => (hothers k hk).trans (hwothers k hk), hnow.trans hwnow, hinc.trans hwinc, ?_, ?_, ?_,
          fun h => absurd hacts h, fun _ => ⟨?_, ?_, ?_⟩, fun _ hp => ?_, fun id _ hp hent hin => ?_, fun hr h => ?_, fun hr h hfw => ?_,
          fun hr h hfw => ?_, fun hfw => ?_⟩
        · rw [honly, hwonly]; rfl
        · rw [hsrc]; rfl
        · rw [hsrc]; rfl
        · rw [hsrc]; rfl
        · rw [hsrc, ← hreact]; rfl
        · rw [hsrc, ← hreact]; exact pended_level x r.mc r.causes r.inj ((z.mergeInto x true).getD z.truss.nextEnt)
        · rw [hsrc, ← hreact, ← hesc]; exact pended_timer x r.mc r.causes r.inj ((z.mergeInto x true).getD z.truss.nextEnt)
        · obtain ⟨e, hopen, hsource, hcause, hmerge, hre, hinj, hrea, hmclk⟩ := eventTruss_opens (s := z) hp r.mc r.causes r.inj
          rw [hopen] at hwhist hwlost
          exact ⟨e, hhist.trans hwhist, hsource, hcause, hmerge, hre, hinj, hrea.trans (by rw [← hreact]; rfl), hmclk, hlost.trans hwlost⟩
        · have hmerge := eventTruss_merges (s := z) hp hent hin r.mc r.causes r.inj
          rw [hmerge] at hwhist hwlost
          refine ⟨?_, hlost.trans hwlost, fun k h hk => ?_⟩
          · rw [hhist, hwhist]; exact List.length_map ..
          · have hg := modEntry_spec z.truss id (fun e => { e with
              cause := e.cause ||| r.causes, merge := satAdd e.merge 1, inj := e.inj || r.inj
              react := BitVec.ofNat 3 (max e.react.toNat (z.src n).react) }) k h hk
            refine ⟨_, (congrArg (·[k]?) (hhist.trans hwhist)).trans hg, fun hne => if_neg hne, fun heq => ?_⟩
            rw [if_pos heq]
            exact ⟨rfl, rfl, rfl⟩
        · obtain ⟨hstop, hnew⟩ := h4 ((htakes 4 (by decide) hacts).2 ⟨hr, h⟩)
          exact ⟨hstop, fun hs => hnew (hwalive.trans hs)⟩
        · rw [hsrc]
          exact h2 ((htakes 2 (by decide) hacts).2 ⟨hr, h⟩) (by rw [hwmsp]; exact hfw)
        · rw [hsrc]
          exact h3 ((htakes 3 (by decide) hacts).2 ⟨hr, h⟩) (by rw [hwmsp]; exact hfw)
        · rw [hsrc]
          exact hup (by rw [hwmsp]; exact hfw)
      · have hmask : r.causes &&& (z.src n).cmask = 0 := not_not.1 hacts
        have hev := hrec.trans (z.event_masked n r.mc r.causes r.inj hmask)
        have hsrc : (z.setSrc n ((z.src n).eventful r.mc r.causes r.inj)).src n = x.eventful r.mc r.causes r.inj :=
          State.src_setSrc_self z n _
        refine ⟨_, congrArg Host.Outcome.next hev, rfl, fun k hk => State.src_setSrc_ne z n k _ hk, rfl, rfl, ?_, ?_, ?_,
          fun _ => ⟨?_, ?_, rfl, ?_⟩, fun h => absurd h hacts, fun h => absurd h hacts, fun _ h => absurd h hacts,
          fun h => absurd h.1 hacts, fun h => absurd h.1 hacts, fun h => absurd h.1 hacts, fun _ => ?_⟩
        · rw [hsrc]; rfl
        · rw [hsrc]; rfl
        · rw [hsrc]; rfl
        · rw [hsrc]; rfl
        · rw [hsrc]; rfl
        · rw [hsrc]; rfl
        · rw [hsrc]; exact ⟨rfl, rfl⟩
    · obtain ⟨a, p, hev⟩ := z.event_takes n r.mc r.causes r.inj hrises.1
      have honly := (z.pendedAt_spec n r.mc r.causes r.inj a p).1
      rw [show (z.src n).takes = 5 from (htakes 5 (by decide) hrises.1).2 ⟨hrises, h5⟩, State.takeLevel_chip] at hev
      exact ⟨_, congrArg Host.Outcome.next (hrec.trans hev), chipReset_spec n r.mc (show OnlyTruss s _ by rw [honly]; rfl) hmode⟩
  · intro x esc
    have hesc : x.esc = esc := esc_eq x
    obtain ⟨tr, htr, hrow⟩ := State.escalation_eq htimer
    let z : State := { s.at_ (s.mcAt m) with truss := tr }
    let y : SrcSt := { x with level := BitVec.ofNat 3 (escalate x.level.toNat)
                              timer := if x.esc = 0 then none else some (m + min x.esc 1000000 * 250) }
    have hself : (z.setSrc n y).src n = y := State.src_setSrc_self z n y
    have hother : ∀ k, k ≠ n → (z.setSrc n y).src k = s.src k := fun k hk =>
      (State.src_setSrc_ne z n k y hk).trans (congrArg (·[k]) htr)
    refine ⟨fun hlevel => ?_, fun hlevel => ?_⟩
    · have hne : escalate x.level.toNat ≠ 5 := by rcases hlevel with h | h <;> rw [h] <;> decide
      obtain ⟨honly, hothers, hnow, -, -, -, ⟨trap, block, hsrc, h2, h3, -⟩, -⟩ :=
        takenLevel (z := z.setSrc n y) (n := n) (old := x.level.toNat) (mc := m) hne hrow
      rw [hself] at hsrc
      have hexec : exec (.escalation n) s = .next (s.escalation n) := rfl
      generalize s.escalation n = t at *
      refine ⟨t, hexec, by rw [honly]; rfl, fun k hk => (hothers k hk).trans (hother k hk), hnow, ?_, ?_, ?_, fun hfw => ?_⟩
      all_goals rw [hsrc]
      · rcases hlevel with h | h <;> (simp only [y]; rw [h]; rfl)
      · rw [← hesc]
      · rcases hlevel with h | h
        · rw [h]; exact (h2 (by rw [h]; rfl) hfw).1
        · rw [h]; exact h3 (by rw [h]; rfl) hfw
    · have h5 : escalate x.level.toNat = 5 := by rcases hlevel with h | h <;> rw [h] <;> rfl
      have hrow : s.escalation n = (z.setSrc n y).takeLevel n x.level.toNat (escalate x.level.toNat) m := hrow
      rw [h5, State.takeLevel_chip] at hrow
      obtain ⟨hreset, htruss, hsrc, hhold, -⟩ := chipReset_spec n m (s := s) (u := z.setSrc n y) rfl hmode
      exact ⟨_, congrArg Host.Outcome.next hrow, hreset, htruss, hsrc, hhold⟩

end Sys2Proof.Proofs
end

section
/-! SUPPORT. Trap and block actions (R580, Table 17.4): what they leave, and what becomes of the channels. -/

namespace Sys2Proof.Machine

open Sys2Proof.Safety

/-! ## What no action touches -/

/-- The time, the galley and the sources of the truss are as they were. -/
structure ActionFrame (s t : State) : Prop where
  now : t.now = s.now
  mem : t.mem = s.mem
  srcs : t.truss.srcs = s.truss.srcs

namespace ActionFrame
variable {s t u : State}

theorem refl (s : State) : ActionFrame s s := ⟨rfl, rfl, rfl⟩
theorem trans (h : ActionFrame s t) (g : ActionFrame t u) : ActionFrame s u :=
  ⟨g.now.trans h.now, g.mem.trans h.mem, g.srcs.trans h.srcs⟩

theorem foldl {α : Type} {f : State → α → State} (hf : ∀ z a, ActionFrame z (f z a)) (l : List α) (s : State) :
    ActionFrame s (l.foldl f s) := by
  induction l generalizing s with
  | nil => exact refl s
  | cons a l ih => exact (hf s a).trans (ih (f s a))

end ActionFrame

theorem State.disarm_action (s : State) (c : Chan) (t : Instant) (flags : Word) : ActionFrame s (s.disarm c t flags) := by
  obtain ⟨_, _, _, _, h⟩ := s.disarm_eq c t flags
  rw [h]
  exact ⟨rfl, rfl, rfl⟩

theorem State.requestOff_action (s : State) (c : Chan) : ActionFrame s (s.requestOff c) := by
  obtain ⟨_, h⟩ := s.requestOff_eq c
  rw [h]
  exact ⟨rfl, rfl, rfl⟩

theorem State.pierOffCheck_action (s : State) (k : Pier) : ActionFrame s (s.pierOffCheck k) := by
  rw [s.pierOffCheck_eq k]
  exact ⟨rfl, rfl, rfl⟩

theorem ReadoutOnly.action {s t : State} (h : ReadoutOnly s t) : ActionFrame s t := by
  obtain ⟨_, _, _, _, _, rfl⟩ := h
  exact ⟨rfl, rfl, rfl⟩

/-! ## The trap action -/

/-- A channel that is not armed stays as it is. -/
theorem Channel.disarmed_idle {x : Channel} (h : x.armed = false) (t : Instant) (n : Nat) (flags : Word) :
    x.disarmed t n flags = x := by
  unfold Channel.disarmed
  rw [h]
  rfl

/-- The channels of a list are disarmed one after another, each at the SPAN instant of its turn. -/
def State.trapAll (s : State) (l : List Chan) : State := l.foldl (fun z c => z.disarm c (z.span.vis win400 z.now) flagDisarm) s

theorem State.trapAll_spec (l : List Chan) (s : State) : ActionFrame s (s.trapAll l) ∧
    ∀ c, (c ∈ l → ∃ t n, (s.trapAll l).chan c = (s.chan c).disarmed t n flagDisarm) ∧
      (c ∉ l → (s.trapAll l).chan c = s.chan c) := by
  refine ⟨ActionFrame.foldl (fun z c => z.disarm_action c _ _) l s, ?_⟩
  induction l generalizing s with
  | nil => exact fun c => ⟨fun h => (nomatch h), fun _ => rfl⟩
  | cons d l ih =>
    intro c
    let z := s.disarm d (s.span.vis win400 s.now) flagDisarm
    have hstep : s.trapAll (d :: l) = z.trapAll l := rfl
    obtain ⟨hin, hout⟩ := ih z c
    rw [hstep]
    refine ⟨fun hc => ?_, fun hc => ?_⟩
    · by_cases hcd : c = d
      · subst hcd
        have hself : z.chan c = (s.chan c).disarmed _ _ flagDisarm := s.chan_disarm_self c _ _
        have hidle : (z.chan c).armed = false := by rw [hself]; exact Channel.disarmed_armed _ _ _ _
        by_cases hl : c ∈ l
        · obtain ⟨t, n, h⟩ := hin hl
          exact ⟨_, _, h.trans ((Channel.disarmed_idle hidle t n _).trans hself)⟩
        · exact ⟨_, _, (hout hl).trans hself⟩
      · have hne : z.chan c = s.chan c := s.chan_disarm_ne d _ _ hcd
        obtain ⟨t, n, h⟩ := hin ((List.mem_cons.1 hc).resolve_left hcd)
        exact ⟨t, n, h.trans (by rw [hne])⟩
    · have hne : z.chan c = s.chan c := s.chan_disarm_ne d _ _ (List.ne_of_not_mem_cons hc)
      exact (hout (List.not_mem_of_not_mem_cons hc)).trans hne

theorem State.trap_eq (s : State) (n : Source) : s.trap n = s.trapAll (ownedChans n) := rfl

theorem mem_chansOf {k : Pier} {c : Chan} : c ∈ chansOf k ↔ pierOf c = k := by
  unfold chansOf
  rw [List.mem_filter, beq_iff_eq]
  exact ⟨fun h => h.2, fun h => ⟨List.mem_finRange c, h⟩⟩

theorem mem_ownedChans {n : Source} {c : Chan} : c ∈ ownedChans n ↔ n.val = c.val ∨ n.val = 96 + (pierOf c).val := by
  have hc := c.isLt
  have hk := (pierOf c).isLt
  unfold ownedChans
  split
  · next h =>
    rw [List.mem_singleton]
    refine ⟨fun he => .inl (by rw [he]), fun he => Fin.ext ?_⟩
    rcases he with he | he
    · exact he.symm
    · omega
  · next h =>
    split
    · next h' =>
      rw [mem_chansOf]
      have hmod : (n.val - 96) % 8 = n.val - 96 := Nat.mod_eq_of_lt (by omega)
      refine ⟨fun he => .inr ?_, fun he => Fin.ext ?_⟩
      · rw [he]
        simp only [Fin.ofNat, hmod]
        omega
      · simp only [Fin.ofNat, hmod]
        omega
    · next h' => exact ⟨fun he => (nomatch he), fun he => by omega⟩

/-! ## The block action of a channel and of a pier -/

/-- The channel domain of a channel that is to be switched off and on, before its record closes. -/
def State.cycling (s : State) (c : Chan) : State :=
  { s.modChan c (fun x => { x with pdoffPend := true }) with
    pwr := { s.pwr with cycle := if s.pwr.cycle.contains c.val then s.pwr.cycle else s.pwr.cycle ++ [c.val] } }

theorem State.cycleChan_on {s : State} {c : Chan} (h : s.chOn c = true) : s.cycleChan c =
    ((s.cycling c).disarm c ((s.cycling c).span.vis win400 (s.cycling c).now) flagPdoff).requestOff c := if_pos h

theorem mem_cycleWith {l : List Nat} {a : Nat} : a ∈ (if l.contains a then l else l ++ [a]) := by
  split
  · next h => exact List.contains_iff_mem.1 h
  · exact List.mem_append_right _ List.mem_cons_self

theorem mem_cycle_of_mem {l : List Nat} {a b : Nat} (h : b ∈ l) : b ∈ (if l.contains a then l else l ++ [a]) := by
  split
  · exact h
  · exact List.mem_append_left _ h

theorem chDom_inj {c d : Chan} (h : chDom c = chDom d) : c = d := Fin.ext (Fin.mk.inj h)

/-- A switch-off that is asked for touches its channel, its domain and no more. -/
theorem State.requestOff_spec (s : State) (c : Chan) :
    (∀ d, d ≠ c → (s.requestOff c).chan d = s.chan d ∧ (s.requestOff c).dom (chDom d) = s.dom (chDom d)) ∧
    (s.requestOff c).pwr.cycle = s.pwr.cycle ∧ ((s.chan c).armed = false → ((s.requestOff c).chan c).armed = false) ∧
    ((s.chan c).pdoffPend = true → (s.chan c).armed = false → (s.chan c).rcd.isOpen = false → s.chOn c = true →
      ∃ k, (s.requestOff c).dom (chDom c) = .turningOff k) := by
  unfold State.requestOff
  dsimp only
  split
  · refine ⟨fun d hd => ⟨State.chan_setChan_ne _ _ _ _ hd, State.dom_setDom_ne _ _ _ _ fun h => hd (chDom_inj h)⟩, rfl, fun _ => ?_,
      fun _ _ _ _ => ⟨_, State.dom_setDom_self _ _ _⟩⟩
    exact congrArg Channel.armed (State.chan_setChan_self s c _)
  · next hno =>
    refine ⟨fun d _ => ⟨rfl, rfl⟩, rfl, fun h => h, fun hp ha ho hon => absurd ?_ hno⟩
    rw [hp, ha, ho, hon, Bool.or_true]
    rfl

theorem State.cycleChan_spec (s : State) (c : Chan) :
    ActionFrame s (s.cycleChan c) ∧ (∀ d, d ≠ c → (s.cycleChan c).chan d = s.chan d ∧ (s.cycleChan c).dom (chDom d) = s.dom (chDom d)) ∧
    (∀ d, d ∈ s.pwr.cycle → d ∈ (s.cycleChan c).pwr.cycle) ∧
    (s.chOn c = true → ((s.cycleChan c).chan c).armed = false ∧ c.val ∈ (s.cycleChan c).pwr.cycle ∧
      ((s.chan c).armed = false → (s.chan c).rcd.isOpen = false → ∃ k, (s.cycleChan c).dom (chDom c) = .turningOff k)) := by
  cases hon : s.chOn c with
  | false =>
    have hno : s.cycleChan c = s := if_neg (by rw [hon]; decide)
    rw [hno]
    exact ⟨.refl s, fun d _ => ⟨rfl, rfl⟩, fun d h => h, fun h => absurd h (by decide)⟩
  | true =>
    let z := s.cycling c
    let w := z.disarm c (z.span.vis win400 z.now) flagPdoff
    obtain ⟨hothers, hcycle, harmed, hdom⟩ := w.requestOff_spec c
    have hwpwr : w.pwr = z.pwr := z.disarm_pwr c _ _
    have hwself : w.chan c = { s.chan c with pdoffPend := true }.disarmed (z.span.vis win400 z.now) (z.dcFrom (z.span.vis win400 z.now)) flagPdoff := by
      refine (z.chan_disarm_self c _ _).trans ?_
      rw [show z.chan c = { s.chan c with pdoffPend := true } from State.chan_setChan_self s c _]
    have hwne : ∀ d, d ≠ c → w.chan d = s.chan d := fun d hd =>
      (z.chan_disarm_ne c _ _ hd).trans (State.chan_setChan_ne s c d _ hd)
    have hwdom : ∀ d, w.dom d = s.dom d := fun d => (congrArg (fun p : Power => p.doms[d]) hwpwr :)
    rw [State.cycleChan_on hon]
    refine ⟨?_, fun d hd => ⟨(hothers d hd).1.trans (hwne d hd), (hothers d hd).2.trans (hwdom _)⟩, fun d hd => ?_, fun _ => ⟨?_, ?_, fun ha ho => ?_⟩⟩
    · have hz : ActionFrame s z := ⟨rfl, rfl, rfl⟩
      exact (hz.trans (z.disarm_action c _ _)).trans (w.requestOff_action c)
    · rw [show (w.requestOff c).pwr.cycle = _ from hcycle, hwpwr]
      exact mem_cycle_of_mem hd
    · refine harmed ?_
      rw [hwself]
      exact Channel.disarmed_armed _ _ _ _
    · rw [show (w.requestOff c).pwr.cycle = _ from hcycle, hwpwr]
      exact mem_cycleWith
    · have hidle : w.chan c = { s.chan c with pdoffPend := true } := hwself.trans (Channel.disarmed_idle (x := { s.chan c with pdoffPend := true }) ha _ _ _)
      refine hdom ?_ ?_ ?_ ?_
      · rw [hidle]
      · rw [hidle]; exact ha
      · rw [hidle]; exact ho
      · unfold State.chOn at hon ⊢
        rw [hwdom]
        exact hon

/-- A channel that is not armed is not armed by a switch-off. -/
theorem State.cycleChan_armed {s : State} {c : Chan} (d : Chan) (h : (s.chan c).armed = false) :
    ((s.cycleChan d).chan c).armed = false := by
  obtain ⟨-, hne, -, hself⟩ := s.cycleChan_spec d
  by_cases hcd : c = d
  · subst hcd
    cases hon : s.chOn c with
    | true => exact (hself hon).1
    | false =>
      have hno : s.cycleChan c = s := if_neg (by rw [hon]; decide)
      rw [hno]
      exact h
  · rw [(hne c hcd).1]
    exact h

/-- Channels of a list are switched off one after another. -/
theorem State.cycleChans_spec (l : List Chan) (s : State) :
    let t := l.foldl State.cycleChan s
    ActionFrame s t ∧ (∀ d, d ∈ s.pwr.cycle → d ∈ t.pwr.cycle) ∧
      ∀ c, ((s.chan c).armed = false → (t.chan c).armed = false) ∧ (c ∈ l → s.chOn c = true → (t.chan c).armed = false) := by
  induction l generalizing s with
  | nil => exact ⟨.refl s, fun d h => h, fun c => ⟨fun h => h, fun h => (nomatch h)⟩⟩
  | cons d l ih =>
    intro t
    obtain ⟨hframe, hne, hcycle, hself⟩ := s.cycleChan_spec d
    obtain ⟨hframe', hcycle', hrest⟩ := ih (s.cycleChan d)
    refine ⟨hframe.trans hframe', fun e he => hcycle' e (hcycle e he),
      fun c => ⟨fun h => (hrest c).1 (State.cycleChan_armed d h), fun hc hon => ?_⟩⟩
    by_cases hcd : c = d
    · subst hcd
      exact (hrest c).1 (hself hon).1
    · refine (hrest c).2 ((List.mem_cons.1 hc).resolve_left hcd) ?_
      unfold State.chOn at hon ⊢
      rw [(hne c hcd).2]
      exact hon

theorem State.cyclePier_spec {s : State} {k : Pier} (hon : s.pierOn k = true) :
    96 + k.val ∈ (s.cyclePier k).pwr.cycle ∧
      ∀ c, pierOf c = k → s.chOn c = true → ((s.cyclePier k).chan c).armed = false := by
  let z : State := { s with pwr := { s.pwr with cycle := if s.pwr.cycle.contains (96 + k.val) then s.pwr.cycle else s.pwr.cycle ++ [96 + k.val] } }
  have heq : s.cyclePier k = ((chansOf k).foldl State.cycleChan z).pierOffCheck k := if_pos hon
  obtain ⟨-, hcycle, hrest⟩ := State.cycleChans_spec (chansOf k) z
  rw [heq, State.pierOffCheck_eq]
  exact ⟨hcycle _ mem_cycleWith, fun c hc hon => (hrest c).2 (mem_chansOf.2 hc) hon⟩

theorem State.cyclePier_action (s : State) (k : Pier) : ActionFrame s (s.cyclePier k) := by
  unfold State.cyclePier
  split
  · let z : State := { s with pwr := { s.pwr with cycle := if s.pwr.cycle.contains (96 + k.val) then s.pwr.cycle else s.pwr.cycle ++ [96 + k.val] } }
    have hz : ActionFrame s z := ⟨rfl, rfl, rfl⟩
    exact (hz.trans (State.cycleChans_spec (chansOf k) z).1).trans (State.pierOffCheck_action _ k)
  · exact .refl s

/-! ## The block action of every owner -/

theorem LoopsOnly.action {s t : State} (h : LoopsOnly s t) : ActionFrame s t := by
  obtain ⟨_, _, _, _, rfl⟩ := h
  exact ⟨rfl, rfl, rfl⟩

theorem State.endpointReset_action (s : State) : ActionFrame s s.linkLost.endpointReset := by
  obtain ⟨via, hreset, -⟩ := s.linkLost.endpointReset_via
  have hall := s.linkLost_spec.1.action.trans s.linkLost.stopRings_all.1.action
  generalize s.linkLost.stopRings = w at hreset hall
  rw [hreset]
  exact ⟨hall.now, hall.mem, hall.srcs⟩

theorem State.block_action (s : State) (n : Source) : ActionFrame s (s.block n) := by
  unfold State.block
  split
  · exact (s.cycleChan_spec _).1
  split
  · exact s.cyclePier_action _
  split
  · unfold State.hopFull
    split
    · exact ⟨rfl, rfl, rfl⟩
    · exact .refl s
  split
  · exact (LoopsOnly.relock s _ _).action
  split
  · exact s.endpointReset_action
  · exact .refl s

end Sys2Proof.Machine
end

section
/-! O52: trap and block actions, ALIVE, stall pulses and the firmware's watchdog. -/

namespace Sys2Proof.Proofs

open Sys2Proof.Machine Sys2Proof.Safety

/-- A trap action alone. -/
theorem trapAction_trap {s : State} {n : Source} {m : Nat} (ht : (s.src n).trapDue = some m) (hb : (s.src n).blockDue = none) :
    s.trapAction n = ((s.at_ (s.mcAt m)).setSrc n { s.src n with trapDue := none }).trap n := by
  have hat : (s.src n).actionAt = some m := by unfold SrcSt.actionAt; rw [ht, hb]
  unfold State.trapAction
  dsimp only
  rw [hat]
  simp only [ht, hb, beq_self_eq_true, if_true, Option.none_beq_some, Bool.false_eq_true, if_false]

/-- A block action alone. -/
theorem trapAction_block {s : State} {n : Source} {m : Nat} (hb : (s.src n).blockDue = some m) (ht : (s.src n).trapDue = none) :
    s.trapAction n = ((s.at_ (s.mcAt m)).setSrc n { s.src n with blockDue := none }).block n := by
  have hat : (s.src n).actionAt = some m := by unfold SrcSt.actionAt; rw [ht, hb]
  unfold State.trapAction
  dsimp only
  rw [hat]
  simp only [ht, hb, beq_self_eq_true, if_true, Option.none_beq_some, Bool.false_eq_true, if_false]

/-- Settles O52: the actions disarm or restart their owner; the timers touch the truss and the TST block. -/
theorem trapActionsAndTrussTimers : Obligations.TrapActionsAndTrussTimers := by
  intro s a hmode
  refine ⟨fun n m ht hb => ?_, fun n m hb ht => ?_, fun m hm => ?_, fun hon hen hlen => ?_, ?_⟩
  · let z : State := (s.at_ (s.mcAt m)).setSrc n { s.src n with trapDue := none }
    obtain ⟨hframe, hchans⟩ := State.trapAll_spec (ownedChans n) z
    have hrow : s.trapAction n = z.trapAll (ownedChans n) := trapAction_trap ht hb
    refine ⟨_, congrArg Host.Outcome.next hrow, hframe.now, ?_, hframe.mem, fun c hc => ?_, fun c hc hk => ?_, fun hn => ?_⟩
    · refine (congrArg (fun l : Vector SrcSt 256 => l[n].trapDue) hframe.srcs).trans ?_
      exact congrArg SrcSt.trapDue (State.src_setSrc_self (s.at_ (s.mcAt m)) n _)
    · obtain ⟨t, k, hd⟩ := (hchans c).1 (mem_ownedChans.2 hc)
      rw [hd]
      refine ⟨Channel.disarmed_armed _ _ _ _, fun ha hnext hclosing => ?_⟩
      exact congrArg (·.closeFlags) (Channel.disarmed_closes (s.chan c) t k flagDisarm ha hnext hclosing).1
    · exact (hchans c).2 fun h => (mem_ownedChans.1 h).elim hc hk
    · have hnone : ownedChans n = [] := by
        unfold ownedChans
        rw [dif_neg (by omega), if_neg (by omega)]
      rw [hnone]
      rfl
  · let z : State := (s.at_ (s.mcAt m)).setSrc n { s.src n with blockDue := none }
    have hframe := z.block_action n
    have hrow : s.trapAction n = z.block n := trapAction_block hb ht
    refine ⟨_, congrArg Host.Outcome.next hrow, hframe.now, ?_, hframe.mem, fun c hc hon => ?_, fun k c hn hk hpier hon => ?_,
      fun k hn hpier => ?_, fun k hk hn => ?_, fun hlo hhi => ?_, fun hn => ?_⟩
    · refine (congrArg (fun l : Vector SrcSt 256 => l[n].blockDue) hframe.srcs).trans ?_
      exact congrArg SrcSt.blockDue (State.src_setSrc_self (s.at_ (s.mcAt m)) n _)
    · have hblock : z.block n = z.cycleChan c := by
        unfold State.block
        rw [dif_pos (by rw [hc]; exact c.isLt)]
        exact congrArg z.cycleChan (Fin.ext hc)
      rw [hblock]
      exact (z.cycleChan_spec c).2.2.2 hon
    · have hblock : z.block n = z.cyclePier k := by
        unfold State.block
        rw [dif_neg (by omega), if_pos (by omega)]
        exact congrArg z.cyclePier (Fin.ext (by simp only [Fin.ofNat]; omega))
      obtain ⟨hcycle, harmed⟩ := State.cyclePier_spec (s := z) (k := k) hpier
      rw [hblock]
      exact ⟨harmed c hk hon, hcycle⟩
    · have hblock : z.block n = z.modSynth (swOf k) fun x => x.startHop z.now true x.odiv x.nint x.nfrac
          (x.findEntry x.odiv x.nint x.nfrac) := by
        unfold State.block
        rw [dif_neg (by omega), if_neg (by omega), if_pos (by omega), show (Fin.ofNat 8 (n.val - 154)) = k from
          Fin.ext (by simp only [Fin.ofNat]; omega)]
        exact if_pos hpier
      rw [hblock]
      have hself : (z.modSynth (swOf k) fun x => x.startHop z.now true x.odiv x.nint x.nfrac
          (x.findEntry x.odiv x.nint x.nfrac)).synth (swOf k) = _ := State.synth_setSynth_self z (swOf k) _
      refine ⟨{ start := z.now, full := true, fellBack := false, odiv := (s.synth (swOf k)).odiv, nint := (s.synth (swOf k)).nint
                nfrac := (s.synth (swOf k)).nfrac
                entry := (s.synth (swOf k)).findEntry (s.synth (swOf k)).odiv (s.synth (swOf k)).nint (s.synth (swOf k)).nfrac }, rfl, ?_, rfl⟩
      rw [hself]
      exact ⟨rfl, rfl, rfl, rfl, rfl, rfl, ⟨rfl, rfl⟩, rfl, rfl⟩
    · obtain ⟨v, rfl⟩ : ∃ v, k = dvOf v := by
        rcases (show k.val = 8 ∨ k.val = 9 by have := k.isLt; omega) with h | h
        · exact ⟨false, Fin.ext h⟩
        · exact ⟨true, Fin.ext h⟩
      have hblock : z.block n = z.relock (dvOf v) 0x40 := by
        unfold State.block
        rw [dif_neg (by omega), if_neg (by omega), if_neg (by omega), if_pos (by have := (dvOf v).isLt; omega)]
        exact congrArg (fun j : Synth => z.relock j 0x40) (Fin.ext (by have := (dvOf v).isLt; simp only [Fin.ofNat]; omega))
      let y := s.setSrc n { s.src n with blockDue := none }
      obtain ⟨-, hst, -, hlock, -, -, hchans, -⟩ := State.relock_onSafeClock y (s.mcAt m) v 0x40
      have htold := State.relock_reported y (s.mcAt m) v 0x40 hmode (by decide)
      rw [hblock, hn]
      exact ⟨hst, hlock, htold, hchans⟩
    · have hblock : z.block n = z.linkLost.endpointReset := by
        unfold State.block
        rw [dif_neg (by omega), if_neg (by omega), if_neg (by omega), if_neg (by omega), if_pos ⟨hlo, hhi⟩]
      obtain ⟨via, hreset, hup, -⟩ := z.linkLost.endpointReset_via
      obtain ⟨honly, hvia, -⟩ := z.linkLost_spec
      have hall := honly.trans z.linkLost.stopRings_all.1
      have hring := z.linkLost.endpointReset_ring
      have hlostRing : ∀ r, z.linkLost.ring r = s.ring r := fun r => (congrArg (fun v : Viaduct => v.rings[r]) hvia :)
      rw [hblock]
      obtain ⟨-, -, hchans, -⟩ := hall.kept
      generalize z.linkLost.stopRings = w at hreset hchans
      refine ⟨?_, ?_, fun r => ?_⟩
      · rw [hreset]; exact hup
      · rw [hreset]; exact hchans
      · rw [hring r]
        exact ⟨rfl, (congrArg RingSt.queue (hlostRing r) :)⟩
    · have hblock : z.block n = z := by
        unfold State.block
        rw [dif_neg (by omega), if_neg (by omega), if_neg (by omega), if_neg (by omega), if_neg (by omega)]
      rw [hblock]
      rfl
  · have hexec : exec .aliveToggle s = .next { s.at_ (s.mcAt m) with truss := s.truss.toggle } := by
      refine congrArg Host.Outcome.next ?_
      unfold State.aliveToggle
      rw [hm]
    refine ⟨_, hexec, rfl, rfl, ?_, ?_, ?_, ?_⟩
    · unfold Truss.toggle; rw [hm]; dsimp only; split <;> rfl
    · unfold Truss.toggle; rw [hm]; dsimp only; split <;> rfl
    · rintro ⟨e, he, hle⟩
      have hstop : s.truss.toggle = { s.truss with aliveNext := none } := by
        unfold Truss.toggle
        rw [hm]
        exact if_pos (by rw [he]; exact decide_eq_true hle)
      exact ⟨(congrArg Truss.alive hstop :), (congrArg Truss.aliveNext hstop :)⟩
    · intro hrun
      have hgo : s.truss.toggle = { s.truss with
          alive := !s.truss.alive, aliveNext := some (m + s.truss.alivePeriod.toNat * 1250) } := by
        unfold Truss.toggle
        rw [hm]
        refine if_neg fun h => ?_
        obtain ⟨e, he, hle⟩ := (Option.any_eq_true _ _).1 h
        exact absurd (hrun e he) (Nat.not_lt.2 (of_decide_eq_true hle))
      exact ⟨(congrArg Truss.alive hgo :), (congrArg Truss.aliveNext hgo :)⟩
  · intro k n len per
    let z := s.at_ (s.stallInstant k n)
    have hnow : z.now = max s.now (if k < 8 then s.dcAt n else s.vcAt n) := rfl
    have hrow : s.stallPulse = (if !s.tst.stalling then z.pulseBegin n
        else if s.tst.stallPer = 0 then z.modTst fun x => { x with stalling := false, stallEn := false }
        else if per ≤ len then z.modTst fun x => { x with stallNext := n + len }
        else z.modTst fun x => { x with stalling := false, stallNext := n + (per - len) }) := by
      unfold State.stallPulse
      dsimp only
      rw [hon, hen, bne_iff_ne.2 hlen]
      rfl
    cases hst : s.tst.stalling with
    | false =>
      rw [hst] at hrow
      let w : State := { z with tst := { s.tst with stalling := true, stallNext := n + len } }
      have hrow : s.stallPulse = if k < 8 then w.raise 136 0x01 else w := hrow
      by_cases hk : k < 8
      · rw [if_pos hk] at hrow
        obtain ⟨l, hl⟩ := w.raise_eq 136 0x01
        have htold : Reported (w.raise 136 0x01) 136 0x01 := State.reported_raise w 136 0x01 hmode (by decide)
        refine ⟨_, congrArg Host.Outcome.next hrow, ?_, ?_, fun _ => ⟨?_, fun _ => htold⟩, fun h => absurd h (by decide)⟩
        all_goals rw [hl]
        · rfl
        · exact hnow
      · rw [if_neg hk] at hrow
        exact ⟨_, congrArg Host.Outcome.next hrow, rfl, hnow, fun _ => ⟨rfl, fun h => absurd h hk⟩, fun h => absurd h (by decide)⟩
    | true =>
      rw [hst] at hrow
      let tst : Tst := if per = 0 then { s.tst with stalling := false, stallEn := false }
        else if per ≤ len then { s.tst with stallNext := n + len }
        else { s.tst with stalling := false, stallNext := n + (per - len) }
      have hrow : s.stallPulse = { z with tst := tst } := by
        refine hrow.trans ?_
        have hper : s.tst.stallPer = 0 ↔ per = 0 := by
          rw [← BitVec.toNat_inj]; rfl
        simp only [tst, Bool.not_true, Bool.false_eq_true, if_false, hper]
        split
        · rfl
        · split <;> rfl
      exact ⟨_, congrArg Host.Outcome.next hrow, rfl, hnow, fun h => absurd h (by decide), fun _ => ⟨rfl, rfl⟩⟩
  · obtain ⟨l, hl⟩ := (s.at_ a).raise_eq 233 0x01
    have htold : Reported ((s.at_ a).raise 233 0x01) 233 0x01 := State.reported_raise (s.at_ a) 233 0x01 hmode (by decide)
    refine ⟨_, rfl, ?_, ?_, htold, ?_⟩
    all_goals rw [hl]
    · rfl
    · rfl
    · rfl

end Sys2Proof.Proofs
end

section
/-! SUPPORT. Band evaluations (R464, R612, R613): what a change of band leaves, and the bands of all piers. -/

namespace Sys2Proof.Machine

open Sys2Proof.Safety

/-! ## Conditions on their way to the truss -/

/-- What was on its way to the truss still is. -/
def Told (s t : State) : Prop := ∀ n b, Reported s n b → Reported t n b

namespace Told
variable {s t u : State}

theorem refl (s : State) : Told s s := fun _ _ h => h
theorem trans (h : Told s t) (g : Told t u) : Told s u := fun n b hr => g n b (h n b hr)
theorem of_truss (h : t.truss = s.truss) : Told s t := fun _ _ hr => hr.of_truss_eq h
theorem raise (s : State) (n : Source) (c : Byte) : Told s (s.raise n c) := fun _ _ hr => hr.raise n c

theorem raiseM (s : State) (n : Source) (c : Byte) : Told s (s.raiseM n c) := by
  obtain ⟨l, hl⟩ := s.raiseM_eq n c
  rw [hl]
  rintro m b ⟨r, hr, hb⟩
  exact ⟨r, List.mem_append_left _ hr, hb⟩

theorem foldl {α : Type} {f : State → α → State} (hf : ∀ z a, Told z (f z a)) (l : List α) (s : State) : Told s (l.foldl f s) := by
  induction l generalizing s with
  | nil => exact refl s
  | cons a l ih => exact (hf s a).trans (ih (f s a))

end Told

/-! ## An idle point -/

theorem State.rePartner_truss (s : State) (c : Chan) (old : Option LaneIx) (at_ : Int) (idle : Bool) :
    (s.rePartner c old at_ idle).truss = s.truss := by
  unfold State.rePartner
  dsimp only
  split
  · rfl
  · split
    · split <;> rfl
    · split <;> rfl

theorem State.applyStaged_truss (s : State) (c : Chan) (at_ : Int) (idle : Bool) : (s.applyStaged c at_ idle).1.truss = s.truss := by
  have hforme : (s.applyForme c at_ idle).1.truss = s.truss := by
    unfold State.applyForme
    dsimp only
    split
    · rfl
    · split
      · rfl
      · exact State.rePartner_truss _ _ _ _ _
  have hplaces : ∀ z : State, (z.applyPlaces c).truss = z.truss := by
    intro z
    unfold State.applyPlaces
    dsimp only
    split
    · rfl
    · split <;> rfl
  exact (hplaces _).trans hforme

theorem State.requestOff_truss (s : State) (c : Chan) : (s.requestOff c).truss = s.truss := by
  obtain ⟨_, h⟩ := s.requestOff_eq c
  rw [h]

theorem State.settleIdle_told (s : State) (c : Chan) : Told s (s.settleIdle c) := by
  have hdone : ∀ z : State, Told z z.formeDone := by
    intro z
    unfold State.formeDone
    split
    · exact Told.raiseM { z with nvm := { z.nvm with runPhase := 0, stagedForme := none } } _ _
    · exact .refl z
  have hreload : ∀ z : State, Told z (z.startReload c z.now) := fun z => .of_truss rfl
  have hstaged := Told.of_truss (s.applyStaged_truss c (lsbUp s.now) true)
  unfold State.settleIdle
  dsimp only
  split
  · exact .refl s
  · split
    · have hload := hstaged.trans (hreload _)
      split
      · exact (hload.trans (hdone _)).trans (.of_truss rfl)
      · exact (hload.trans (hdone _)).trans (.of_truss (State.requestOff_truss _ _))
    · split
      · exact (hstaged.trans (hdone _)).trans (.of_truss rfl)
      · exact (hstaged.trans (hdone _)).trans (.of_truss (State.requestOff_truss _ _))

/-! ## A change of band -/

/-- Time, clocks, galley, mode, test facilities and the thermal unit stand, and what was on its way to the truss still is. -/
structure BandFrame (s t : State) : Prop where
  now : t.now = s.now
  mem : t.mem = s.mem
  mode : t.pwr.mode = s.pwr.mode
  thm : t.thm = s.thm
  told : Told s t
  clocks : t.clocks = s.clocks
  tst : t.tst = s.tst

namespace BandFrame
variable {s t u : State}

theorem refl (s : State) : BandFrame s s := ⟨rfl, rfl, rfl, rfl, .refl s, rfl, rfl⟩
theorem trans (h : BandFrame s t) (g : BandFrame t u) : BandFrame s u :=
  ⟨g.now.trans h.now, g.mem.trans h.mem, g.mode.trans h.mode, g.thm.trans h.thm, h.told.trans g.told, g.clocks.trans h.clocks,
    g.tst.trans h.tst⟩

theorem foldl {α : Type} {f : State → α → State} (hf : ∀ z a, BandFrame z (f z a)) (l : List α) (s : State) :
    BandFrame s (l.foldl f s) := by
  induction l generalizing s with
  | nil => exact refl s
  | cons a l ih => exact (hf s a).trans (ih (f s a))

end BandFrame

theorem BandFrame.raise (s : State) (n : Source) (c : Byte) : BandFrame s (s.raise n c) := by
  have htold := Told.raise s n c
  obtain ⟨l, hl⟩ := s.raise_eq n c
  rw [hl] at htold ⊢
  exact ⟨rfl, rfl, rfl, rfl, htold, rfl, rfl⟩

theorem State.bandChange_frame (s : State) (c : Chan) (b : Nat) : BandFrame s (s.bandChange c b) := by
  have hstale : ∀ (z : State) (f : Trim → Trim), BandFrame z (z.setStale c f) := by
    intro z f
    unfold State.setStale
    dsimp only
    split
    · exact ⟨rfl, rfl, rfl, rfl, .of_truss rfl, rfl, rfl⟩
    · exact BandFrame.trans (t := z.modChan c _) ⟨rfl, rfl, rfl, rfl, .of_truss rfl, rfl, rfl⟩ (.raise _ _ _)
  have hidle : ∀ z : State, BandFrame z (z.settleIdle c) := fun z =>
    ⟨(z.settleIdle_frame c).1, (z.settleIdle_keeps c).2.2.1, (z.settleIdle_frame c).2.2.1, (z.settleIdle_frame c).2.1, z.settleIdle_told c,
      (congrArg State.clocks ((IdleFrame.refl z).settleIdle (c := c)).whole :), (congrArg State.tst ((IdleFrame.refl z).settleIdle (c := c)).whole :)⟩
  have hmod : ∀ f, BandFrame s (s.modChan c f) := fun f => ⟨rfl, rfl, rfl, rfl, .of_truss rfl, rfl, rfl⟩
  unfold State.bandChange
  dsimp only
  split
  · exact (hmod _).trans (hidle _)
  · exact ((hmod _).trans (hstale _ _)).trans (hidle _)

/-- The thermal unit with a pier's band written. -/
def Thermal.setBand (t : Thermal) (k : Pier) (b : Nat) : Thermal :=
  { t with piers := t.piers.set k { t.piers[k] with band := BitVec.ofNat 2 b } }

theorem Thermal.setBand_self (t : Thermal) (k : Pier) (b : Nat) :
    (t.setBand k b).piers[k] = { t.piers[k] with band := BitVec.ofNat 2 b } := by
  simp [Thermal.setBand]

theorem Thermal.setBand_ne (t : Thermal) (j k : Pier) (b : Nat) (h : k ≠ j) : (t.setBand j b).piers[k] = t.piers[k] := by
  have hv : j.val ≠ k.val := fun hh => h (Fin.ext hh.symm)
  simp [Thermal.setBand, Vector.getElem_set_ne, hv]

theorem State.setBand_spec (s : State) (k : Pier) (b : Nat) (hmode : s.pwr.mode ≠ .reset) :
    BandFrame { s with thm := s.thm.setBand k b } (s.setBand k b) ∧
      (BitVec.ofNat 2 b ≠ s.thm.piers[k].band → Reported (s.setBand k b) 184 (BitVec.ofNat 8 (2 ^ k.val))) := by
  unfold State.setBand
  dsimp only
  split
  · next h =>
    have hband : BitVec.ofNat 2 b = s.thm.piers[k].band := by rw [← h, BitVec.ofNat_toNat, BitVec.setWidth_eq]
    have hself : s.thm.setBand k b = s.thm := by
      unfold Thermal.setBand
      rw [hband]
      exact congrArg (fun p => { s.thm with piers := p }) (Vector.set_getElem_self ..)
    rw [hself]
    exact ⟨.refl s, fun hne => absurd hband hne⟩
  · let z : State := { s with thm := s.thm.setBand k b }
    have hfold := BandFrame.foldl (fun z c => z.bandChange_frame c b) (chansOf k) (z.raise 184 (BitVec.ofNat 8 (2 ^ k.val)))
    have hbit : ∀ j : Pier, BitVec.ofNat 8 (2 ^ j.val) ≠ 0 := by decide
    refine ⟨(BandFrame.raise z 184 _).trans hfold, fun _ => hfold.told _ _ (State.reported_raise z 184 _ hmode (hbit k))⟩

/-! ## The bands of a list of piers -/

/-- Every pier of a list takes the band that its own temperatures ask for. -/
def State.setBands (s : State) (l : List Pier) (g : PierTemp → Nat) : State := l.foldl (fun z k => z.setBand k (g z.thm.piers[k])) s

theorem State.setBands_spec (g : PierTemp → Nat) (l : List Pier) (hl : l.Nodup) (s : State) (hmode : s.pwr.mode ≠ .reset) :
    BandFrame { s with thm := { s.thm with piers := (s.setBands l g).thm.piers } } (s.setBands l g) ∧
    ∀ k, (k ∉ l → (s.setBands l g).thm.piers[k] = s.thm.piers[k]) ∧
      (k ∈ l → (s.setBands l g).thm.piers[k] = { s.thm.piers[k] with band := BitVec.ofNat 2 (g s.thm.piers[k]) } ∧
        ((s.setBands l g).thm.piers[k].band ≠ s.thm.piers[k].band →
          Reported (s.setBands l g) 184 (BitVec.ofNat 8 (2 ^ k.val)))) := by
  induction l generalizing s with
  | nil => exact ⟨.refl s, fun k => ⟨fun _ => rfl, fun h => (nomatch h)⟩⟩
  | cons j l ih =>
    obtain ⟨hj, hl⟩ := List.nodup_cons.1 hl
    let z := s.setBand j (g s.thm.piers[j])
    have hstep : s.setBands (j :: l) g = z.setBands l g := rfl
    obtain ⟨hframe, htold⟩ := s.setBand_spec j (g s.thm.piers[j]) hmode
    obtain ⟨hrest, hpiers⟩ := ih hl z (by rw [hframe.mode]; exact hmode)
    have hthm : z.thm = s.thm.setBand j (g s.thm.piers[j]) := hframe.thm
    have hself : z.thm.piers[j] = { s.thm.piers[j] with band := BitVec.ofNat 2 (g s.thm.piers[j]) } := by
      rw [hthm]; exact Thermal.setBand_self ..
    have hne : ∀ k, k ≠ j → z.thm.piers[k] = s.thm.piers[k] := fun k hk => by
      rw [hthm]; exact Thermal.setBand_ne _ _ _ _ hk
    rw [hstep]
    refine ⟨⟨hrest.now.trans hframe.now, hrest.mem.trans hframe.mem, hrest.mode.trans hframe.mode, ?_, ?_, hrest.clocks.trans hframe.clocks,
      hrest.tst.trans hframe.tst⟩, fun k => ⟨fun hk => ?_, fun hk => ?_⟩⟩
    · rw [hrest.thm, hthm]
      rfl
    · exact fun n b h => hrest.told n b (hframe.told n b h)
    · rw [(hpiers k).1 (List.not_mem_of_not_mem_cons hk), hne k (List.ne_of_not_mem_cons hk)]
    · by_cases hkj : k = j
      · subst hkj
        have hfinal := ((hpiers k).1 hj).trans hself
        refine ⟨hfinal, fun h => hrest.told _ _ (htold ?_)⟩
        rw [hfinal] at h
        exact h
      · obtain ⟨hfinal, hrep⟩ := (hpiers k).2 ((List.mem_cons.1 hk).resolve_left hkj)
        rw [hne k hkj] at hfinal hrep
        exact ⟨hfinal, hrep⟩

end Sys2Proof.Machine
end

section
/-! SUPPORT. Rates, the start of shedding and its timeout (R615, R620, R621). -/

namespace Sys2Proof.Machine

open Sys2Proof.Safety

/-! ## Shedding -/

/-- Channels, what a disarm applies, and domains may differ. -/
def ShedOnly (s t : State) : Prop := ∃ chans folios tb synths idle doms, t = { s with
  chans := chans, folios := folios, tb := tb, synths := synths, vlt := { s.vlt with idleFrom := idle }
  pwr := { s.pwr with doms := doms } }

namespace ShedOnly
variable {s t u : State}

theorem refl (s : State) : ShedOnly s s := ⟨_, _, _, _, _, _, rfl⟩
theorem trans (h : ShedOnly s t) (g : ShedOnly t u) : ShedOnly s u := by
  obtain ⟨_, _, _, _, _, _, rfl⟩ := h
  obtain ⟨c, f, b, y, i, d, rfl⟩ := g
  exact ⟨c, f, b, y, i, d, rfl⟩

theorem disarm (s : State) (c : Chan) (t : Instant) (flags : Word) : ShedOnly s (s.disarm c t flags) := by
  obtain ⟨_, _, _, _, h⟩ := s.disarm_eq c t flags
  rw [h]
  exact ⟨_, _, _, _, _, _, rfl⟩

theorem requestOff (s : State) (c : Chan) : ShedOnly s (s.requestOff c) := by
  obtain ⟨_, h⟩ := s.requestOff_eq c
  rw [h]
  exact ⟨_, _, _, _, _, _, rfl⟩

end ShedOnly

/-- The channel that is to be shed, before its record closes. -/
def Channel.shedding (x : Channel) : Channel := { x with shedPend := true, trim := { x.trim with pending := false } }

/-- Another channel and its domain stand. -/
def OtherChan (s t : State) (c : Chan) : Prop := ∀ d, d ≠ c → t.chan d = s.chan d ∧ t.dom (chDom d) = s.dom (chDom d)

theorem State.requestOff_other (s : State) (c : Chan) : OtherChan s (s.requestOff c) c := (s.requestOff_spec c).1

theorem State.disarm_other (s : State) (c : Chan) (t : Instant) (flags : Word) : OtherChan s (s.disarm c t flags) c := fun d hd =>
  ⟨s.chan_disarm_ne c t flags hd, congrArg (fun p : Power => p.doms[chDom d]) (s.disarm_pwr c t flags)⟩

theorem OtherChan.trans {s t u : State} {c : Chan} (h : OtherChan s t c) (g : OtherChan t u c) : OtherChan s u c := fun d hd =>
  ⟨(g d hd).1.trans (h d hd).1, (g d hd).2.trans (h d hd).2⟩

theorem State.requestOff_busy {s : State} {c : Chan} (h : (s.chan c).armed = true ∨ (s.chan c).rcd.isOpen = true) :
    s.requestOff c = s := by
  refine if_neg fun hgo => ?_
  obtain ⟨hgo, -⟩ := Bool.and_eq_true_iff.1 hgo
  obtain ⟨hgo, hopen⟩ := Bool.and_eq_true_iff.1 hgo
  obtain ⟨-, harm⟩ := Bool.and_eq_true_iff.1 hgo
  rcases h with h | h
  · rw [h] at harm; cases harm
  · rw [h] at hopen; cases hopen

theorem State.requestOff_idle {s : State} {c : Chan} (hp : (s.chan c).shedPend = true ∨ (s.chan c).pdoffPend = true)
    (ha : (s.chan c).armed = false) (ho : (s.chan c).rcd.isOpen = false) (hon : s.chOn c = true) :
    ∃ k, (s.requestOff c).dom (chDom c) = .turningOff k := by
  have hgo : ((s.chan c).shedPend || (s.chan c).pdoffPend) = true := Bool.or_eq_true_iff.2 hp
  unfold State.requestOff
  rw [if_pos (by rw [hgo, ha, ho, hon]; rfl)]
  exact ⟨_, State.dom_setDom_self _ _ _⟩

theorem State.shedChan_spec (s : State) (c : Chan) : ShedOnly s (s.shedChan c) ∧ OtherChan s (s.shedChan c) c ∧
    (s.chOn c = true → (s.chan c).armed = false → (s.chan c).rcd.isOpen = false →
      ∃ n, (s.shedChan c).dom (chDom c) = .turningOff n) ∧
    (s.chOn c = true → (s.chan c).armed = true → (s.chan c).trim.pending = false →
      ((s.shedChan c).chan c).shedPend = true ∧ ((s.shedChan c).chan c).armed = true) := by
  unfold State.shedChan
  dsimp only
  split
  · next hoff =>
    have hoff : ¬s.chOn c = true := by simpa using hoff
    refine ⟨?_, ?_, fun h => absurd h hoff, fun h => absurd h hoff⟩
    · split
      · exact ⟨_, _, _, _, _, _, rfl⟩
      · exact .refl s
    · split
      · exact fun d hd => ⟨rfl, State.dom_setDom_ne _ _ _ _ fun h => hd (chDom_inj h)⟩
      · exact fun d _ => ⟨rfl, rfl⟩
  · next hon =>
    let z := s.setChan c (s.chan c).shedding
    have hz : z.chan c = (s.chan c).shedding := State.chan_setChan_self ..
    have hzonly : ShedOnly s z := ⟨_, _, _, _, _, _, rfl⟩
    have hzother : OtherChan s z c := fun d hd => ⟨State.chan_setChan_ne _ _ _ _ hd, rfl⟩
    split
    · next h =>
      obtain ⟨ha, hp⟩ := Bool.and_eq_true_iff.1 h
      refine ⟨(hzonly.trans (.disarm z c _ _)).trans (.requestOff _ c),
        (hzother.trans (z.disarm_other c _ _)).trans (State.requestOff_other _ c), fun _ h => ?_, fun _ _ h => ?_⟩
      · rw [ha] at h; cases h
      · rw [hp] at h; cases h
    · refine ⟨hzonly.trans (.requestOff z c), hzother.trans (z.requestOff_other c), fun hon ha ho => ?_, fun _ ha _ => ?_⟩
      · refine State.requestOff_idle (s := z) (.inl ?_) ?_ ?_ hon
        · rw [hz]; rfl
        · rw [hz]; exact ha
        · rw [hz]; exact ho
      · have hbusy : z.requestOff c = z := State.requestOff_busy (.inl (by rw [hz]; exact ha))
        have hend : ((z.requestOff c).chan c).shedPend = true ∧ ((z.requestOff c).chan c).armed = true := by
          rw [hbusy, hz]
          exact ⟨rfl, ha⟩
        exact hend

/-- Shedding starts for the channels of a list. -/
theorem State.shedList_spec (l : List Chan) (hl : l.Nodup) (s : State) :
    let t := l.foldl State.shedChan s
    ShedOnly s t ∧ ∀ c, (c ∉ l → t.chan c = s.chan c ∧ t.dom (chDom c) = s.dom (chDom c)) ∧ (c ∈ l →
      (s.chOn c = true → (s.chan c).armed = false → (s.chan c).rcd.isOpen = false → ∃ n, t.dom (chDom c) = .turningOff n) ∧
      (s.chOn c = true → (s.chan c).armed = true → (s.chan c).trim.pending = false →
        (t.chan c).shedPend = true ∧ (t.chan c).armed = true)) := by
  induction l generalizing s with
  | nil => exact ⟨.refl s, fun c => ⟨fun _ => ⟨rfl, rfl⟩, fun h => (nomatch h)⟩⟩
  | cons d l ih =>
    intro t
    obtain ⟨hd, hl⟩ := List.nodup_cons.1 hl
    obtain ⟨honly, hother, hidle, harmed⟩ := s.shedChan_spec d
    obtain ⟨hrest, hchans⟩ := ih hl (s.shedChan d)
    refine ⟨honly.trans hrest, fun c => ⟨fun hc => ?_, fun hc => ?_⟩⟩
    · obtain ⟨h1, h2⟩ := (hchans c).1 (List.not_mem_of_not_mem_cons hc)
      obtain ⟨h3, h4⟩ := hother c (List.ne_of_not_mem_cons hc)
      exact ⟨h1.trans h3, h2.trans h4⟩
    · by_cases hcd : c = d
      · subst hcd
        obtain ⟨h1, h2⟩ := (hchans c).1 hd
        refine ⟨fun hon ha ho => ?_, fun hon ha hp => ?_⟩
        · rw [show t.dom (chDom c) = _ from h2]; exact hidle hon ha ho
        · rw [show t.chan c = _ from h1]; exact harmed hon ha hp
      · obtain ⟨h3, h4⟩ := hother c hcd
        have hin := (hchans c).2 ((List.mem_cons.1 hc).resolve_left hcd)
        unfold State.chOn at hin ⊢
        rw [h3, h4] at hin
        exact hin

/-- What the start of shedding leaves of the machine, and of every channel. -/
structure ShedStarted (s t : State) : Prop where
  now : t.now = s.now
  mem : t.mem = s.mem
  mode : t.pwr.mode = s.pwr.mode ∧ t.pwr.prev = s.pwr.prev
  thm : ∃ done, t.thm = { s.thm with shedFrom := some s.nowMc, shDone := done }
  told : Told s t
  idle : ∀ c, s.thm.shed.getLsbD c.val = true → s.chOn c = true → (s.chan c).armed = false → (s.chan c).rcd.isOpen = false →
    ∃ n, t.dom (chDom c) = .turningOff n
  armed : ∀ c, s.thm.shed.getLsbD c.val = true → s.chOn c = true → (s.chan c).armed = true → (s.chan c).trim.pending = false →
    (t.chan c).shedPend = true ∧ (t.chan c).armed = true
  others : ∀ c, s.thm.shed.getLsbD c.val = false → t.chan c = s.chan c ∧ t.dom (chDom c) = s.dom (chDom c)

theorem State.startShed_spec (s : State) : ShedStarted s s.startShed := by
  let z : State := { s with thm := { s.thm with shedFrom := some s.nowMc, shDone := false } }
  let l := allChans.filter fun c => z.thm.shed.getLsbD c.val
  let y := l.foldl State.shedChan z
  have hl : l.Nodup := (List.nodup_finRange 96).filter _
  have hmem : ∀ c, c ∈ l ↔ s.thm.shed.getLsbD c.val = true := fun c => by
    rw [List.mem_filter]
    exact ⟨fun h => h.2, fun h => ⟨List.mem_finRange c, h⟩⟩
  have heq : s.startShed = y.pierOffAll.shedCheck := rfl
  obtain ⟨⟨chans, folios, tb, synths, idle, doms, honly⟩, hchans⟩ := State.shedList_spec l hl z
  obtain ⟨writers, reqs, pool, wake, idle', synths', doms', htable, -⟩ := y.pierOffAll_table
  obtain ⟨k, hshed⟩ := y.pierOffAll.shedCheck_eq
  obtain ⟨done, hdone⟩ : ∃ d, d = y.pierOffAll.shedCheck.thm.shDone := ⟨_, rfl⟩
  rw [← hdone] at hshed
  have hdom : ∀ c, s.startShed.dom (chDom c) = y.dom (chDom c) := by
    intro c
    rw [heq, State.dom_shedCheck]
    have hfold : ∀ (ks : List Pier) (w : State), (ks.foldl State.pierOffCheck w).dom (chDom c) = w.dom (chDom c) := by
      intro ks
      induction ks with
      | nil => exact fun _ => rfl
      | cons k ks ih => exact fun w => (ih _).trans (w.dom_pierOffCheck_ne k (chDom_ne_pierDom c k))
    exact hfold allPiers y
  have hchan : ∀ c, s.startShed.chan c = y.chan c := fun c => by rw [heq, hshed, htable]; rfl
  have hyonly : y = { z with
      chans := chans, folios := folios, tb := tb, synths := synths, vlt := { z.vlt with idleFrom := idle }
      pwr := { z.pwr with doms := doms } } := honly
  have htruss : s.startShed.truss = { s.truss with incoming := s.truss.incoming ++ k } := by
    rw [heq, hshed, htable, hyonly]
  refine ⟨?_, ?_, ⟨?_, ?_⟩, ⟨done, ?_⟩, ?_, fun c hc => ?_, fun c hc => ?_, fun c hc => ?_⟩
  · rw [heq, hshed, htable, hyonly]
  · rw [heq, hshed, htable, hyonly]
  · rw [heq, hshed, htable, hyonly]
  · rw [heq, hshed, htable, hyonly]
  · rw [heq, hshed, htable, hyonly]
  · rintro n b ⟨r, hr, hb⟩
    exact ⟨r, by rw [htruss]; exact List.mem_append_left _ hr, hb⟩
  · rw [hdom c]
    exact ((hchans c).2 ((hmem c).2 hc)).1
  · rw [hchan c]
    exact ((hchans c).2 ((hmem c).2 hc)).2
  · rw [hchan c, hdom c]
    exact (hchans c).1 fun h => absurd ((hmem c).1 h) (by rw [hc]; decide)

end Sys2Proof.Machine
end

section
/-! O54: bands, rates, the grace time and shedding. -/

namespace Sys2Proof.Proofs

open Sys2Proof.Machine Sys2Proof.Safety

/-- The band that a pier takes at an evaluation. -/
def evaluatedBand (first : Bool) (x : PierTemp) : Nat :=
  let l := if x.last.isEmpty then [x.t] else x.last
  nextBand first x.band.toNat l.length (l.foldl (· + ·) 0)

theorem noSensor_iff (s : State) : s.noSensor = true ↔ ∀ j : SensorIx, j.val ≤ 16 → s.valid j = false := by
  unfold State.noSensor State.validDie dieAndCentral
  rw [List.isEmpty_iff, List.filter_filter, List.filter_eq_nil_iff]
  refine ⟨fun h j hj => ?_, fun h j _ hc => ?_⟩
  · exact Bool.eq_false_iff.2 fun hv => h j (List.mem_finRange j) (by rw [hv, decide_eq_true hj]; rfl)
  · obtain ⟨hv, hj⟩ := Bool.and_eq_true_iff.1 hc
    rw [h j (of_decide_eq_true hj)] at hv
    cases hv

/-- A band after an evaluation is a band. -/
theorem nextBand_lt (first : Bool) (b : BitVec 2) (n : Nat) (sum : Int) : nextBand first b.toNat n sum < 4 := by
  have hb := b.isLt
  unfold nextBand
  split
  · exact Nat.lt_succ_of_le ((List.length_filter_le ..).trans (by decide))
  · split
    · next h => have := of_decide_eq_true (Bool.and_eq_true_iff.1 h).1; omega
    · split
      · omega
      · exact hb

/-- The boundary above band `b`. -/
theorem bandBound_above {b : Nat} (h : b < 3) : bandBound (b + 1) = 720 + 320 * (b : Int) := by
  interval_cases b <;> rfl

/-- The boundary below band `b`. -/
theorem bandBound_below {b : Nat} (hb : 0 < b) (h4 : b < 4) : bandBound b = 720 + 320 * ((b : Int) - 1) := by
  have h := bandBound_above (show b - 1 < 3 by omega)
  rw [Nat.sub_add_cancel hb] at h
  rw [h]
  push_cast [hb]
  rfl

section Band
variable {b n : Nat} {sum : Int}

theorem nextBand_up (hb : b < 3) (h : (720 + 320 * (b : Int)) * n ≤ sum) : nextBand false b n sum = b + 1 := by
  unfold nextBand
  rw [if_neg Bool.false_ne_true, if_pos]
  rw [bandBound_above hb, decide_eq_true hb, decide_eq_true h]
  rfl

theorem nextBand_down (hn : 0 < n) (h4 : b < 4) (hb : 0 < b) (h : sum < (720 + 320 * ((b : Int) - 1) - 32) * n) :
    nextBand false b n sum = b - 1 := by
  have hbelow := bandBound_below hb h4
  have hn' : (0 : Int) < n := by exact_mod_cast hn
  unfold nextBand
  rw [if_neg Bool.false_ne_true, if_neg, if_pos]
  · rw [decide_eq_true hb, hbelow, decide_eq_true h]
    rfl
  · intro hup
    obtain ⟨h3, hle⟩ := Bool.and_eq_true_iff.1 hup
    rw [bandBound_above (of_decide_eq_true h3)] at hle
    have hle := of_decide_eq_true hle
    nlinarith

theorem nextBand_same (h4 : b < 4) (hup : b < 3 → sum < (720 + 320 * (b : Int)) * n)
    (hdown : 0 < b → (720 + 320 * ((b : Int) - 1) - 32) * n ≤ sum) : nextBand false b n sum = b := by
  unfold nextBand
  rw [if_neg Bool.false_ne_true, if_neg, if_neg]
  · intro h
    obtain ⟨hb, hlt⟩ := Bool.and_eq_true_iff.1 h
    have hb := of_decide_eq_true hb
    have hbelow := bandBound_below hb h4
    rw [hbelow] at hlt
    exact absurd (hdown hb) (not_le.2 (of_decide_eq_true hlt))
  · intro h
    obtain ⟨hb, hle⟩ := Bool.and_eq_true_iff.1 h
    have hb := of_decide_eq_true hb
    rw [bandBound_above hb] at hle
    exact absurd (hup hb) (not_lt.2 (of_decide_eq_true hle))

/-- The first band counts the boundaries that the mean has reached. -/
theorem nextBand_first : nextBand true b n sum =
    if 1360 * (n : Int) ≤ sum then 3 else if 1040 * (n : Int) ≤ sum then 2 else if 720 * (n : Int) ≤ sum then 1 else 0 := by
  have hn : (0 : Int) ≤ n := Int.natCast_nonneg n
  unfold nextBand
  rw [if_pos rfl, show List.range 3 = [0, 1, 2] from rfl]
  simp only [List.filter_cons, List.filter_nil, bandBound, decide_eq_true_eq]
  by_cases h3 : 1360 * (n : Int) ≤ sum
  · simp only [h3, show 1040 * (n : Int) ≤ sum by omega, show 720 * (n : Int) ≤ sum by omega, if_true, List.length_cons, List.length_nil]
  · by_cases h2 : 1040 * (n : Int) ≤ sum
    · simp only [h3, h2, show 720 * (n : Int) ≤ sum by omega, if_true, if_false, List.length_cons, List.length_nil]
    · by_cases h1 : 720 * (n : Int) ≤ sum
      · simp only [h3, h2, h1, if_true, if_false, List.length_cons, List.length_nil]
      · simp only [h3, h2, h1, if_false, List.length_nil]

end Band

/-- The state of a band evaluation, before any band changes. -/
def evaluating (s : State) (a : Instant) : State := { s.at_ a with thm := { (s.at_ a).thm with evaluated := true } }

section Evaluation
variable {s : State} (a : Instant) (hmode : s.pwr.mode ≠ .reset)
include hmode

theorem bandEvaluation_none (h : (evaluating s a).noSensor = true) :
    s.bandEvaluation a = (evaluating s a).setBands allPiers fun _ => 3 := by
  unfold State.bandEvaluation State.setBands
  dsimp only
  exact (if_neg hmode).trans (if_pos h)

theorem bandEvaluation_some (h : ¬(evaluating s a).noSensor = true) :
    s.bandEvaluation a = (evaluating s a).setBands allPiers (evaluatedBand (!s.thm.evaluated)) := by
  unfold State.bandEvaluation State.setBands evaluatedBand
  dsimp only
  exact (if_neg hmode).trans (if_neg h)

theorem bandEvaluation_eq : s.bandEvaluation a = (evaluating s a).setBands allPiers
    (if (evaluating s a).noSensor then fun _ => 3 else evaluatedBand (!s.thm.evaluated)) := by
  by_cases h : (evaluating s a).noSensor = true
  · rw [if_pos h]
    exact bandEvaluation_none a hmode h
  · rw [if_neg h]
    exact bandEvaluation_some a hmode h

end Evaluation

theorem sens_setSens_self (s : State) (i : SensorIx) (x : Sensor) : (s.setSens i x).sens i = x := by
  simp [State.sens, State.setSens]

theorem sens_setSens_ne (s : State) (i j : SensorIx) (x : Sensor) (h : j ≠ i) : (s.setSens i x).sens j = s.sens j := by
  have hv : i.val ≠ j.val := fun hh => h (Fin.ext hh.symm)
  simp [State.sens, State.setSens, Vector.getElem_set_ne, hv]

/-- Settles O54: bands move by one, a fast rise is told once, and shedding starts at the deadline. -/
theorem bandsRatesAndShedding : Obligations.BandsRatesAndShedding := by
  intro s a hmode now
  let z := s.at_ a
  refine ⟨?_, fun i old => ?_, fun q hreq hexp hshed => ?_, fun c m hfrom hpend harm => ?_⟩
  · let s1 : State := evaluating s a
    let g : PierTemp → Nat := if s1.noSensor then fun _ => 3 else evaluatedBand (!s.thm.evaluated)
    have hrow : s.bandEvaluation a = s1.setBands allPiers g := bandEvaluation_eq a hmode
    obtain ⟨hframe, hpiers⟩ := State.setBands_spec g allPiers (List.nodup_finRange 8) s1 hmode
    have hexec : exec (.bandEvaluation a) s = .next (s.bandEvaluation a) := rfl
    rw [hrow] at hexec
    generalize s1.setBands allPiers g = t at *
    refine ⟨t, hexec, hframe.now, hframe.mem, ?_, hframe.mode, ?_, ?_, fun k => ?_⟩
    · rw [hframe.thm]; rfl
    · rw [hframe.thm]; rfl
    · rw [hframe.thm]; rfl
    obtain ⟨hpier, htold⟩ := (hpiers k).2 (List.mem_finRange k)
    intro b n sum
    have hband : t.thm.piers[k].band = BitVec.ofNat 2 (g s.thm.piers[k]) := by rw [hpier]; rfl
    have hlow : ∀ {m : Nat}, g s.thm.piers[k] = m → m < 4 → t.thm.piers[k].band.toNat = m := fun hm hlt => by
      rw [hband, hm, BitVec.toNat_ofNat]
      exact Nat.mod_eq_of_lt hlt
    refine ⟨by rw [hpier]; rfl, by rw [hpier]; rfl, htold, fun hnone => ?_, fun hsome hlast => ?_⟩
    · have hno : s1.noSensor = true := (noSensor_iff s1).2 hnone
      rw [hband]
      simp only [g]
      rw [if_pos hno]
      rfl
    · have hno : ¬s1.noSensor = true := fun h => by
        obtain ⟨j, hj, hv⟩ := hsome
        have hv' := (noSensor_iff s1).1 h j hj
        exact absurd (hv'.symm.trans hv) (by decide)
      have hg : g s.thm.piers[k] = nextBand (!s.thm.evaluated) b s.thm.piers[k].last.length sum := by
        simp only [g]
        rw [if_neg hno]
        unfold evaluatedBand
        dsimp only
        rw [if_neg (by rw [List.isEmpty_iff]; exact hlast), ← List.sum_eq_foldl]
      have hn : 0 < s.thm.piers[k].last.length := List.length_pos_iff.2 hlast
      have hb : b < 4 := s.thm.piers[k].band.isLt
      refine ⟨fun he h3 h => ?_, fun he h0 h => ?_, fun he hup hdown => ?_, fun he => ?_⟩
      all_goals rw [he] at hg
      · exact hlow (hg.trans (nextBand_up h3 h)) (by omega)
      · exact hlow (hg.trans (nextBand_down hn hb h0 h)) (by omega)
      · exact BitVec.eq_of_toNat_eq (hlow (hg.trans (nextBand_same hb hup hdown)) hb)
      · refine (hlow hg ?_).trans nextBand_first
        exact nextBand_lt true s.thm.piers[k].band _ _
  · intro ix x avg hvalid hlen hmean
    let y : Sensor := { x with means := (avg :: x.means).take 101 }
    have hold : ((avg :: x.means).take 101)[100]? = some old := by
      rw [List.getElem?_take_of_lt (by decide), List.getElem?_cons_succ]
      exact hmean
    have hrow : s.rateEvaluation a i = if 400 ≤ avg - old && x.rateArmed then
        (z.setSens ix { y with rateArmed := false }).raise (senSrc ix) 0x02
        else z.setSens ix { y with rateArmed := x.rateArmed || avg - old < 200 } := by
      have havg : (x.samples.take 100).foldl (· + ·) 0 = avg := by
        rw [List.take_of_length_le (by rw [hlen]), ← List.sum_eq_foldl]
      unfold State.rateEvaluation
      dsimp only
      rw [if_neg]
      · rw [show z.sens ix = x from rfl, havg, hold]
      · rw [show (s.at_ a).valid ix = true from hvalid, decide_eq_false (show ¬(s.at_ a).pwr.mode = .reset from hmode),
          show ((s.at_ a).sens ix).samples.length = 100 from hlen]
        decide
    have hself : ∀ w : Sensor, (z.setSens ix w).sens ix = w := fun w => sens_setSens_self z ix w
    have hother : ∀ (w : Sensor) j, j ≠ ix → (z.setSens ix w).sens j = s.sens j := fun w j hj => sens_setSens_ne z ix j w hj
    by_cases hfast : (400 ≤ avg - old && x.rateArmed) = true
    · rw [if_pos hfast] at hrow
      obtain ⟨hge, hon⟩ := Bool.and_eq_true_iff.1 hfast
      have hge := of_decide_eq_true hge
      obtain ⟨l, hl⟩ := (z.setSens ix { y with rateArmed := false }).raise_eq (senSrc ix) 0x02
      have htold : Reported ((z.setSens ix { y with rateArmed := false }).raise (senSrc ix) 0x02) (164 + i.val) 0x02 :=
        State.reported_raise _ (senSrc ix) 0x02 hmode (by decide)
      have hsens : ∀ j, ((z.setSens ix { y with rateArmed := false }).raise (senSrc ix) 0x02).sens j =
          (z.setSens ix { y with rateArmed := false }).sens j := fun j => by rw [hl]; rfl
      refine ⟨_, congrArg Host.Outcome.next hrow, by rw [hl]; rfl, fun j hj => (hsens j).trans (hother _ j hj), by rw [hl]; rfl,
        by rw [hl]; rfl, by rw [hl]; rfl, ?_, fun _ _ => ⟨?_, htold⟩, fun _ h => ?_, fun h => ?_⟩
      · rw [hsens, hself]
      · rw [hsens, hself]
      · rw [hon] at h; cases h
      · omega
    · rw [if_neg hfast] at hrow
      refine ⟨_, congrArg Host.Outcome.next hrow, rfl, hother _, rfl, rfl, rfl, ?_, fun hge hon => ?_, fun hge hoff => ⟨?_, rfl⟩,
        fun hlt => ⟨?_, rfl⟩⟩
      · rw [hself]
      · rw [hon, decide_eq_true hge] at hfast
        exact absurd rfl hfast
      · rw [hself]
        refine (congrArg (· || decide (avg - old < 200)) hoff).trans ?_
        rw [decide_eq_false (by omega)]
        rfl
      · rw [hself]
        exact Bool.or_eq_true_iff.2 (.inr (decide_eq_true hlt))
  · let s2 : State := { s.at_ (s.mcAt s.thm.deadline) with thm := { s.thm with expired := true } }
    have hrow : s.graceExpiry = match s.pwr.mode with
        | .run => s2.enterShed
        | .freeze => if s2.thm.shedFrom.isSome then s2 else s2.startShed
        | _ => s2 := by
      unfold State.graceExpiry
      refine if_pos ?_
      rw [hreq, hexp, bne_iff_ne.2 hshed, bne_iff_ne.2 hmode]
      rfl
    have hs2mode : s2.pwr.mode = s.pwr.mode := rfl
    have hthm : ∀ {t : State}, (∃ from_ done, t.thm = { s2.thm with shedFrom := from_, shDone := done }) →
        t.thm.expired = true ∧ t.thm.req = some q ∧ t.thm.shed = s.thm.shed := by
      rintro t ⟨_, _, h⟩
      rw [h]
      exact ⟨rfl, hreq, rfl⟩
    cases hm : s.pwr.mode with
    | reset => exact absurd hm hmode
    | shed => exact absurd hm hshed
    | run =>
      rw [hm] at hrow
      let w := (s2.toMode .shed).raise 182 0x04
      obtain ⟨l, hl⟩ := (s2.toMode .shed).raise_eq 182 0x04
      have hw : w = { s2.toMode .shed with truss := { s.truss with incoming := s.truss.incoming ++ l } } := hl
      have hshedTold : Reported w 182 0x04 := State.reported_raise _ 182 0x04 (by decide : Mode.shed ≠ .reset) (by decide)
      have hstart : ShedStarted w w.startShed := w.startShed_spec
      have hrow : s.graceExpiry = w.startShed := hrow
      generalize w.startShed = t at hstart hrow
      obtain ⟨hnow, hmem, ⟨htmode, htprev⟩, ⟨done, hth⟩, htold, hidle, harmed, hothers⟩ := hstart
      have hnow' : t.now = s2.now := hnow.trans (by rw [hw]; rfl)
      obtain ⟨hexp', hreq', hshed'⟩ := hthm (t := t) ⟨_, done, hth.trans (by rw [hw]; rfl)⟩
      rw [hw] at hidle harmed hothers
      refine ⟨t, congrArg Host.Outcome.next hrow, hnow', hmem.trans (by rw [hw]; rfl), hexp', hreq', hshed', fun _ => ⟨?_, ?_,
        htold _ _ hshedTold, ?_, hidle, harmed, hothers⟩, fun h => absurd h (by decide), fun h => absurd h (by decide)⟩
      · exact htmode.trans (by rw [hw]; rfl)
      · exact htprev.trans ((by rw [hw]; rfl : w.pwr.prev = s.pwr.mode).trans hm)
      · rw [hth, hnow', hw]
        rfl
    | freeze =>
      rw [hm] at hrow
      have hrow : s.graceExpiry = if s2.thm.shedFrom.isSome then s2 else s2.startShed := hrow
      by_cases hsome : s2.thm.shedFrom.isSome = true
      · rw [if_pos hsome] at hrow
        exact ⟨_, congrArg Host.Outcome.next hrow, rfl, rfl, rfl, hreq, rfl, fun h => absurd h (by decide), fun _ => ⟨hm, hsome⟩,
          fun h => absurd h (by decide)⟩
      · rw [if_neg hsome] at hrow
        have hstart : ShedStarted s2 s2.startShed := s2.startShed_spec
        generalize s2.startShed = t at hstart hrow
        obtain ⟨hnow, hmem, ⟨htmode, -⟩, ⟨done, hth⟩, -⟩ := hstart
        obtain ⟨hexp', hreq', hshed'⟩ := hthm (t := t) ⟨_, done, hth⟩
        exact ⟨t, congrArg Host.Outcome.next hrow, hnow, hmem, hexp', hreq', hshed', fun h => absurd h (by decide),
          fun _ => ⟨htmode.trans hm, by rw [hth]; rfl⟩, fun h => absurd h (by decide)⟩
    | load =>
      rw [hm] at hrow
      exact ⟨s2, congrArg Host.Outcome.next hrow, rfl, rfl, rfl, hreq, rfl, fun h => absurd h (by decide), fun h => absurd h (by decide),
        fun _ => ⟨hm, rfl, rfl, rfl⟩⟩
    | trim =>
      rw [hm] at hrow
      exact ⟨s2, congrArg Host.Outcome.next hrow, rfl, rfl, rfl, hreq, rfl, fun h => absurd h (by decide), fun h => absurd h (by decide),
        fun _ => ⟨hm, rfl, rfl, rfl⟩⟩
  · let z1 := s.at_ (s.mcAt (m + 25000000))
    let u := z1.span.vis win400 z1.now
    let w := (z1.disarm c u flagPdoff).requestOff c
    have hrow : s.shedTimeout c = w.raise 182 0x08 := by
      unfold State.shedTimeout
      rw [hfrom]
      dsimp only
      exact if_pos (by rw [hpend, harm]; rfl)
    have hself : (z1.disarm c u flagPdoff).chan c = (s.chan c).disarmed u (z1.dcFrom u) flagPdoff := z1.chan_disarm_self c u flagPdoff
    have hidle : ((z1.disarm c u flagPdoff).chan c).armed = false := by rw [hself]; exact Channel.disarmed_armed _ _ _ _
    obtain ⟨hothers, -, hoff, -⟩ := State.requestOff_spec (z1.disarm c u flagPdoff) c
    have hframe : ActionFrame z1 w := (z1.disarm_action c u flagPdoff).trans (State.requestOff_action _ c)
    have hwmode : w.pwr.mode = s.pwr.mode := by
      obtain ⟨_, _, _, _, _, _, h⟩ := (ShedOnly.disarm z1 c u flagPdoff).trans (.requestOff _ c)
      rw [show w = _ from h]
      rfl
    have htold : Reported (w.raise 182 0x08) 182 0x08 := State.reported_raise w 182 0x08 (by rw [hwmode]; exact hmode) (by decide)
    refine ⟨_, congrArg Host.Outcome.next hrow, ?_, ?_, ?_, htold, fun d hd => ?_, fun hnext hclosing hopen => ?_⟩
    · rw [State.raise_now]; exact hframe.now
    · exact (BandFrame.raise w 182 0x08).mem.trans hframe.mem
    · rw [State.chan_raise]; exact hoff hidle
    · rw [State.chan_raise]
      exact (hothers d hd).1.trans (z1.chan_disarm_ne c u flagPdoff hd)
    · have hbusy : w = z1.disarm c u flagPdoff := State.requestOff_busy (.inr (by rw [hself, Channel.disarmed_isOpen]; exact hopen))
      rw [State.chan_raise, hbusy, hself]
      exact congrArg (·.closeFlags) (Channel.disarmed_closes (s.chan c) u _ flagPdoff harm hnext hclosing).1

end Sys2Proof.Proofs
end

section
/-! SUPPORT. A temperature sample (R607 to R626): what each of its stages makes of the sensor, the piers and the request. -/

namespace Sys2Proof.Machine

open Sys2Proof.Safety

/-! ## The thermal unit alone -/

/-- The thermal unit with one sensor written. -/
def Thermal.withSens (t : Thermal) (i : SensorIx) (x : Sensor) : Thermal := { t with sens := t.sens.set i x }

@[simp] theorem Thermal.withSens_self (t : Thermal) (i : SensorIx) (x : Sensor) : (t.withSens i x).sens[i] = x := by
  simp [Thermal.withSens]

theorem Thermal.withSens_ne (t : Thermal) (i j : SensorIx) (x : Sensor) (h : j ≠ i) : (t.withSens i x).sens[j] = t.sens[j] := by
  have hv : i.val ≠ j.val := fun hh => h (Fin.ext hh.symm)
  simp [Thermal.withSens, Vector.getElem_set_ne, hv]

@[simp] theorem Thermal.withSens_withSens (t : Thermal) (i : SensorIx) (x y : Sensor) :
    (t.withSens i x).withSens i y = t.withSens i y := by
  simp [Thermal.withSens]

/-- The thermal unit has become `thm`, and conditions have been put on their way to the truss. -/
def ThermalOnly (s : State) (thm : Thermal) (t : State) : Prop :=
  ∃ l, t = { s with thm := thm, truss := { s.truss with incoming := s.truss.incoming ++ l } }

namespace ThermalOnly
variable {s t u : State} {a b : Thermal}

theorem quiet (s : State) (a : Thermal) : ThermalOnly s a { s with thm := a } := ⟨[], by rw [List.append_nil]⟩

theorem raise (s : State) (a : Thermal) (n : Source) (c : Byte) : ThermalOnly s a (({ s with thm := a } : State).raise n c) := by
  obtain ⟨l, hl⟩ := ({ s with thm := a } : State).raise_eq n c
  exact ⟨l, hl⟩

theorem trans (h : ThermalOnly s a t) (g : ThermalOnly t b u) : ThermalOnly s b u := by
  obtain ⟨l, rfl⟩ := h
  obtain ⟨k, rfl⟩ := g
  exact ⟨l ++ k, by rw [List.append_assoc]⟩

theorem thm (h : ThermalOnly s a t) : t.thm = a := by obtain ⟨_, rfl⟩ := h; rfl
theorem told (h : ThermalOnly s a t) : Told s t := by
  obtain ⟨l, rfl⟩ := h
  rintro n b ⟨r, hr, hb⟩
  exact ⟨r, List.mem_append_left _ hr, hb⟩

theorem frame (h : ThermalOnly s a t) : BandFrame { s with thm := a } t := by
  have htold := h.told
  obtain ⟨l, rfl⟩ := h
  exact ⟨rfl, rfl, rfl, rfl, htold, rfl, rfl⟩

end ThermalOnly

theorem BandFrame.thermal {s t u : State} {a b : Thermal} (h : BandFrame { s with thm := a } t) (g : BandFrame { t with thm := b } u) :
    BandFrame { s with thm := b } u :=
  ⟨g.now.trans h.now, g.mem.trans h.mem, g.mode.trans h.mode, g.thm, fun n c hr => g.told n c (h.told n c hr),
    g.clocks.trans h.clocks, g.tst.trans h.tst⟩

/-! ## Conversion -/

/-- A conversion within the sensor's range. -/
def inRange (r : Option Int) : Option Int := r.filter fun v => -320 ≤ v && v ≤ 1200

/-- The sensor after a conversion. -/
def Sensor.converted (x : Sensor) (r : Option Int) : Sensor :=
  match inRange r with
  | some v => { x with reading := v, fails := 0, invalid := false }
  | none => { x with fails := x.fails + 1, invalid := x.invalid || 3 ≤ x.fails + 1 }

theorem State.convert_spec (s : State) (i : SensorIx) (r : Option Int) :
    ThermalOnly s (s.thm.withSens i ((s.sens i).converted r)) (s.convert i r) ∧
    (s.pwr.mode ≠ .reset → inRange r = none → (s.sens i).broken = false → Reported (s.convert i r) (164 + i.val) 0x08) := by
  unfold State.convert Sensor.converted
  dsimp only
  cases h : inRange r with
  | some v =>
    have h' : (r.filter fun v => -320 ≤ v && v ≤ 1200) = some v := h
    rw [h']
    exact ⟨.quiet s _, fun _ h => nomatch h⟩
  | none =>
    have h' : (r.filter fun v => -320 ≤ v && v ≤ 1200) = none := h
    rw [h']
    dsimp only
    split
    · next hb => exact ⟨.quiet s _, fun _ _ h => absurd (hb.symm.trans h) (by decide)⟩
    · exact ⟨.raise s _ _ _, fun hmode _ _ => State.reported_raise _ (senSrc i) 0x08 hmode (by decide)⟩

theorem inRange_some {v : Int} (hlo : -320 ≤ v) (hhi : v ≤ 1200) : inRange (some v) = some v := by
  unfold inRange
  rw [Option.filter_some, decide_eq_true hlo, decide_eq_true hhi]
  rfl

theorem inRange_none {r : Option Int} (h : ∀ v, r = some v → v < -320 ∨ 1200 < v) : inRange r = none := by
  cases r with
  | none => rfl
  | some v =>
    have hv := h v rfl
    unfold inRange
    rw [Option.filter_some, if_neg]
    intro hin
    obtain ⟨h1, h2⟩ := Bool.and_eq_true_iff.1 hin
    have h1 := of_decide_eq_true h1
    have h2 := of_decide_eq_true h2
    omega

/-! ## What the piers take -/

/-- What pier `k` takes of the readings in force. -/
def State.pierTaken (s : State) (push : Option Pier) (k : Pier) : PierTemp :=
  match s.pierTemp k with
  | some (t, f) => { s.thm.piers[k] with
      t := t, fallback := f, last := if push = some k then (t :: s.thm.piers[k].last).take 10 else s.thm.piers[k].last }
  | none => { s.thm.piers[k] with fallback := false }

theorem State.pierTemp_congr {s t : State} (hs : t.thm.sens = s.thm.sens) (ht : t.tst = s.tst) (k : Pier) :
    t.pierTemp k = s.pierTemp k := by
  have hsens : ∀ i, t.sens i = s.sens i := fun i => congrArg (·[i]) hs
  have hvalid : t.valid = s.valid := funext fun i => by unfold State.valid; rw [hsens]
  have htemp : t.temp = s.temp := funext fun i => by unfold State.temp State.overridden; rw [hsens, ht]
  unfold State.pierTemp State.hottest
  rw [hvalid, htemp]

/-- One pier takes its temperature. -/
def State.takeTemp (s : State) (push : Option Pier) (k : Pier) : State :=
  { s with thm := { s.thm with piers := s.thm.piers.set k (s.pierTaken push k) } }

theorem State.pierTemps_spec (s : State) (push : Option Pier) : ∃ piers,
    s.pierTemps push = { s with thm := { s.thm with piers := piers } } ∧ ∀ k : Pier, piers[k] = s.pierTaken push k := by
  have hfold : ∀ (l : List Pier) (hl : l.Nodup) (z : State), z.thm.sens = s.thm.sens → z.tst = s.tst →
      (∀ k ∈ l, z.thm.piers[k] = s.thm.piers[k]) → ∃ piers,
      l.foldl (fun z k => z.takeTemp push k) z = { z with thm := { z.thm with piers := piers } } ∧
        ∀ k : Pier, (k ∈ l → piers[k] = s.pierTaken push k) ∧ (k ∉ l → piers[k] = z.thm.piers[k]) := by
    intro l hl
    induction l with
    | nil => exact fun z _ _ _ => ⟨z.thm.piers, rfl, fun k => ⟨fun h => (nomatch h), fun _ => rfl⟩⟩
    | cons j l ih =>
      intro z hsens htst hpiers
      obtain ⟨hj, hl⟩ := List.nodup_cons.1 hl
      have hne : ∀ k : Pier, k ≠ j → (z.takeTemp push j).thm.piers[k] = z.thm.piers[k] := fun k hk => by
        have hv : j.val ≠ k.val := fun hh => hk (Fin.ext hh.symm)
        simp [State.takeTemp, Vector.getElem_set_ne, hv]
      have hself : (z.takeTemp push j).thm.piers[j] = s.pierTaken push j := by
        have h : z.pierTaken push j = s.pierTaken push j := by
          unfold State.pierTaken
          rw [State.pierTemp_congr hsens htst, hpiers j List.mem_cons_self]
        simp [State.takeTemp, h]
      obtain ⟨piers, heq, hk⟩ := ih hl (z.takeTemp push j) hsens htst fun k hk => by
        rw [hne k (fun h => hj (h ▸ hk))]
        exact hpiers k (List.mem_cons_of_mem _ hk)
      refine ⟨piers, heq, fun k => ⟨fun hkl => ?_, fun hkl => ?_⟩⟩
      · by_cases hkj : k = j
        · subst hkj
          exact ((hk k).2 hj).trans hself
        · exact (hk k).1 ((List.mem_cons.1 hkl).resolve_left hkj)
      · exact ((hk k).2 (List.not_mem_of_not_mem_cons hkl)).trans (hne k (List.ne_of_not_mem_cons hkl))
  obtain ⟨piers, heq, hk⟩ := hfold allPiers (List.nodup_finRange 8) s rfl rfl fun _ _ => rfl
  exact ⟨piers, heq, fun k => (hk k).1 (List.mem_finRange k)⟩

theorem State.piersFollow_valid {s : State} {push : Option Pier} {was none_ : Bool} (h : s.noSensor = false) : ∃ piers,
    ThermalOnly s { s.thm with piers := piers } (s.piersFollow push was none_) ∧ ∀ k : Pier, piers[k] = s.pierTaken push k := by
  obtain ⟨piers, heq, hk⟩ := s.pierTemps_spec push
  refine ⟨piers, ?_, hk⟩
  have hone : ∀ w : State, w = { s with thm := { s.thm with piers := piers } } → ThermalOnly s { s.thm with piers := piers }
      (let s2 := if w.fallbackNow && !was then w.raise 182 0x20 else w
       if s2.noSensor then allPiers.foldl (fun z k => z.setBand k 3) (if none_ then s2 else s2.raise 182 0x40) else s2) := by
    intro w hw
    have hno : ∀ v : State, v.thm.sens = s.thm.sens → v.noSensor = false := fun v hv => by
      have hvalid : v.valid = s.valid := funext fun i => by
        unfold State.valid
        rw [show v.sens i = s.sens i from congrArg (·[i]) hv]
      unfold State.noSensor State.validDie at h ⊢
      rw [hvalid]
      exact h
    dsimp only
    split
    · obtain ⟨l, hl⟩ := w.raise_eq 182 0x20
      rw [if_neg (by rw [hno _ (by rw [hl, hw])]; decide), hw]
      exact .raise s _ _ _
    · rw [if_neg (by rw [hno _ (by rw [hw])]; decide), hw]
      exact .quiet s _
  exact hone _ heq

theorem State.piersFollow_frame (s : State) (push : Option Pier) (was none_ : Bool) (hmode : s.pwr.mode ≠ .reset) : ∃ piers,
    BandFrame { s with thm := { s.thm with piers := piers } } (s.piersFollow push was none_) := by
  cases h : s.noSensor with
  | false =>
    obtain ⟨piers, hf, -⟩ := State.piersFollow_valid (push := push) (was := was) (none_ := none_) h
    exact ⟨piers, hf.frame⟩
  | true =>
    obtain ⟨piers, heq, -⟩ := s.pierTemps_spec push
    let x : State := { s with thm := { s.thm with piers := piers } }
    have hset : ∀ v : State, BandFrame x v → ∃ piers',
        BandFrame { s with thm := { s.thm with piers := piers' } } (v.setBands allPiers fun _ => 3) := by
      intro v hv
      obtain ⟨hf, -⟩ := State.setBands_spec (fun _ => 3) allPiers (List.nodup_finRange 8) v (by rw [hv.mode]; exact hmode)
      refine ⟨(v.setBands allPiers fun _ => 3).thm.piers, ?_⟩
      rw [hv.thm] at hf
      exact hv.thermal hf
    have hcold : ∀ v : State, BandFrame x v → ∃ piers', BandFrame { s with thm := { s.thm with piers := piers' } }
        (if v.noSensor then (if none_ then v else v.raise 182 0x40).setBands allPiers fun _ => 3 else v) := by
      intro v hv
      split
      · split
        · exact hset v hv
        · exact hset _ (hv.trans (.raise v _ _))
      · exact ⟨piers, hv⟩
    have htwo : ∀ w : State, BandFrame x w → ∃ piers', BandFrame { s with thm := { s.thm with piers := piers' } }
        (let s2 := if w.fallbackNow && !was then w.raise 182 0x20 else w
         if s2.noSensor then (if none_ then s2 else s2.raise 182 0x40).setBands allPiers fun _ => 3 else s2) := by
      intro w hw
      dsimp only
      split
      · exact hcold _ (hw.trans (.raise w _ _))
      · exact hcold w hw
    exact htwo _ (by rw [heq]; exact .refl _)

end Sys2Proof.Machine
end

section
/-! SUPPORT. The decisions of a temperature sample: WARN, the throttle request, the shutdown and the broken mark. -/

namespace Sys2Proof.Machine

open Sys2Proof.Safety

@[simp] theorem Thermal.withSens_sens (t : Thermal) (i : SensorIx) : t.withSens i t.sens[i] = t := by
  simp [Thermal.withSens]

/-- Without an override the reading is the one in force. -/
theorem State.temp_plain {s : State} (h : s.tst.on = false) (i : SensorIx) : s.temp i = (s.sens i).reading := by
  have hno : s.overridden i = false := by
    unfold State.overridden
    split
    · rw [h]; rfl
    · rfl
  unfold State.temp
  rw [hno]
  rfl

/-! ## WARN -/

theorem State.warnAt_spec (s : State) (i : SensorIx) (hi : i.val ≤ 16) : ∃ w,
    ThermalOnly s (s.thm.withSens i { s.sens i with warn := w }) (s.warnAt i) ∧
    ((s.sens i).broken = true → w = (s.sens i).warn) ∧ ((s.sens i).broken = false →
      (840 ≤ s.temp i → w = true) ∧ (s.temp i ≤ 824 → w = false) ∧ (824 < s.temp i → s.temp i < 840 → w = (s.sens i).warn) ∧
      (840 ≤ s.temp i → (s.sens i).warn = false → s.pwr.mode ≠ .reset → Reported (s.warnAt i) (164 + i.val) 0x01)) := by
  have h17 : ¬i.val = 17 := by omega
  have hsame : ThermalOnly s (s.thm.withSens i { s.sens i with warn := (s.sens i).warn }) s := by
    have h : s.thm.withSens i { s.sens i with warn := (s.sens i).warn } = s.thm := Thermal.withSens_sens _ _
    rw [h]
    exact .quiet s s.thm
  unfold State.warnAt
  simp only [h17, if_false]
  by_cases hb : (s.sens i).broken = true
  · rw [if_pos hb]
    exact ⟨_, hsame, fun _ => rfl, fun h => absurd (hb.symm.trans h) (by decide)⟩
  · rw [if_neg hb]
    by_cases hhi : 840 ≤ s.temp i
    · cases hw : (s.sens i).warn with
      | false =>
        rw [if_pos (by rw [decide_eq_true hhi]; rfl)]
        refine ⟨true, .raise s _ _ _, fun h => absurd h hb, fun _ => ⟨fun _ => rfl, fun h => by omega, fun _ h => by omega, fun _ _ hmode =>
          State.reported_raise _ (senSrc i) 0x01 hmode (by decide)⟩⟩
      | true =>
        rw [if_neg (by rw [Bool.not_true, Bool.and_false]; decide), if_neg (by omega)]
        rw [hw] at hsame
        exact ⟨true, hsame, fun h => absurd h hb, fun _ => ⟨fun _ => rfl, fun h => by omega, fun _ _ => rfl, fun _ h => absurd h (by decide)⟩⟩
    · rw [if_neg (by rw [decide_eq_false hhi, Bool.false_and]; decide)]
      by_cases hlo : s.temp i ≤ 824
      · rw [if_pos hlo]
        exact ⟨false, .quiet s _, fun h => absurd h hb, fun _ => ⟨fun h => absurd h hhi, fun _ => rfl, fun h => by omega, fun h => absurd h hhi⟩⟩
      · rw [if_neg hlo]
        exact ⟨_, hsame, fun h => absurd h hb, fun _ => ⟨fun h => absurd h hhi, fun h => absurd h hlo, fun _ _ => rfl, fun h => absurd h hhi⟩⟩

/-! ## The throttle request -/

/-- The readings ask for a throttle. -/
def State.hotNow (s : State) : Bool :=
  s.noSensor || s.validDie.any (fun i => 880 ≤ s.temp i) || (s.valid 17 && 800 ≤ s.temp 17)

/-- The readings end a throttle request. -/
def State.coolNow (s : State) : Bool :=
  !s.noSensor && s.validDie.all (fun i => s.temp i ≤ 848) && (!s.valid 17 || s.temp 17 ≤ 768)

theorem State.throttleAt_spec (s : State) : ∃ r d e k m,
    ThermalOnly s { s.thm with req := r, deadline := d, reqExt := e, acked := k, throttleAt := m } s.throttleAt ∧
    (s.thm.req = none → s.hotNow = true → r = some s.nowMc ∧ d = s.nowMc + s.thm.grace * msMc ∧ e = s.thm.ackExt ∧ k = false ∧
      (s.pwr.mode ≠ .reset → Reported s.throttleAt 182 0x01)) ∧
    (∀ q, s.thm.req = some q → s.coolNow = true → r = none ∧ d = 0) ∧
    (∀ q, s.thm.req = some q → s.coolNow = false → r = some q ∧ d = s.thm.deadline) := by
  cases hreq : s.thm.req with
  | none =>
    by_cases hhot : s.hotNow = true
    · have heq : s.throttleAt = ({ s with thm := { s.thm with
          req := some s.nowMc, deadline := s.nowMc + s.thm.grace * msMc, reqExt := s.thm.ackExt, acked := false
          throttleAt := s.nowMc } } : State).raise 182 0x01 := by
        unfold State.throttleAt
        dsimp only
        rw [hreq]
        exact if_pos hhot
      rw [heq]
      exact ⟨_, _, _, _, _, .raise s _ _ _, fun _ _ => ⟨rfl, rfl, rfl, rfl, fun hmode => State.reported_raise _ 182 0x01 hmode (by decide)⟩,
        fun q h => (nomatch h), fun q h => (nomatch h)⟩
    · have heq : s.throttleAt = s := by
        unfold State.throttleAt
        dsimp only
        rw [hreq]
        exact if_neg hhot
      rw [heq]
      refine ⟨none, s.thm.deadline, s.thm.reqExt, s.thm.acked, s.thm.throttleAt, ?_, fun _ h => absurd h hhot, fun q h => (nomatch h),
        fun q h => (nomatch h)⟩
      rw [← hreq]
      exact .quiet s s.thm
  | some q =>
    by_cases hcool : s.coolNow = true
    · have heq : s.throttleAt = { s with thm := { s.thm with req := none, deadline := 0, acked := false, throttleAt := s.nowMc } } := by
        unfold State.throttleAt
        dsimp only
        rw [hreq]
        exact if_pos hcool
      rw [heq]
      exact ⟨none, 0, s.thm.reqExt, false, s.nowMc, .quiet s _, fun h => (nomatch h), fun _ _ _ => ⟨rfl, rfl⟩,
        fun _ _ h => absurd (hcool.symm.trans h) (by decide)⟩
    · have heq : s.throttleAt = s := by
        unfold State.throttleAt
        dsimp only
        rw [hreq]
        exact if_neg hcool
      rw [heq]
      refine ⟨some q, s.thm.deadline, s.thm.reqExt, s.thm.acked, s.thm.throttleAt, ?_, fun h => (nomatch h), fun _ _ h => absurd h hcool,
        fun _ h _ => ⟨h, rfl⟩⟩
      rw [← hreq]
      exact .quiet s s.thm

/-! ## The shutdown -/

theorem State.shutdownAt_invalid {s : State} {i : SensorIx} (h : s.valid i = false) : s.shutdownAt i = s := by
  unfold State.shutdownAt
  dsimp only
  exact if_pos (by rw [h]; simp)

section Shutdown
variable {s : State} {i : SensorIx} (hi : i.val ≤ 16)
include hi

/-- A valid reading that shuts nothing down. -/
theorem State.shutdownAt_stays (hv : s.valid i = true) (hno : s.thm.shutdown = none) (hlt : s.temp i < 1064)
    (hhot : s.temp i < 1000 ∨ (s.sens i).hot = 0) : s.shutdownAt i = { s with
      thm := s.thm.withSens i { s.sens i with hot := if 1000 ≤ s.temp i then 1 else 0 } } := by
  have hcount : (if 1000 ≤ s.temp i then (s.sens i).hot + 1 else 0) = if 1000 ≤ s.temp i then 1 else 0 := by
    split
    · next h => rw [hhot.resolve_left (by omega)]
    · rfl
  have hle : (if 1000 ≤ s.temp i then (1 : Nat) else 0) ≤ 1 := by split <;> decide
  unfold State.shutdownAt
  dsimp only
  rw [if_neg (by rw [hv]; simp; omega), hcount]
  rw [if_neg (by rw [show (State.setSens s i _).thm.shutdown = none from hno]; decide)]
  exact if_neg (by omega)

/-- A reading that shuts the device down. -/
theorem State.shutdownAt_acts (hv : s.valid i = true) (hno : s.thm.shutdown = none) (hge : 1000 ≤ s.temp i)
    (hhot : 1064 ≤ s.temp i ∨ 1 ≤ (s.sens i).hot) :
    let s2 := ({ s with thm := { s.thm.withSens i { s.sens i with hot := (s.sens i).hot + 1 } with
      shutdown := some (s.nowMc, i, s.temp i) } } : State).raise 183 0x01
    s.shutdownAt i = if s2.nvm.programming && s.temp i < 1064 then s2.stopAll.raise 183 0x02 else s2.cut (1064 ≤ s.temp i) false := by
  intro s2
  unfold State.shutdownAt
  dsimp only
  rw [if_neg (by rw [hv]; simp; omega), if_pos hge]
  rw [if_neg (by rw [show (State.setSens s i _).thm.shutdown = none from hno]; decide), if_pos (by omega)]
  rfl

end Shutdown

/-! ## The broken mark -/

theorem State.markBroken_spec (s : State) (i : SensorIx) (hi : i.val ≤ 16) : ∃ d b w,
    ThermalOnly s (s.thm.withSens i { s.sens i with differs := d, broken := b, warn := w }) (s.markBroken i) ∧
    (b = false → (s.sens i).broken = false ∧ w = (s.sens i).warn) ∧
    ((s.sens i).broken = false → (s.differs i = false → d = 0 ∧ b = false) ∧
      (s.differs i = true → (s.sens i).differs < 7 → d = (s.sens i).differs + 1 ∧ b = false) ∧
      (s.differs i = true → 7 ≤ (s.sens i).differs → b = true ∧ (s.pwr.mode ≠ .reset → Reported (s.markBroken i) (164 + i.val) 0x04))) := by
  unfold State.markBroken
  dsimp only
  split
  · next h =>
    have hb : (s.sens i).broken = true := by
      rcases Bool.or_eq_true_iff.1 h with h | h
      · have := of_decide_eq_true h; omega
      · exact h
    refine ⟨(s.sens i).differs, (s.sens i).broken, (s.sens i).warn, ?_, fun h => ⟨h, rfl⟩, fun h => absurd (hb.symm.trans h) (by decide)⟩
    have hsame : s.thm.withSens i { s.sens i with differs := (s.sens i).differs, broken := (s.sens i).broken, warn := (s.sens i).warn } = s.thm :=
      Thermal.withSens_sens _ _
    rw [hsame]
    exact .quiet s s.thm
  · next h =>
    have hb : (s.sens i).broken = false := (Bool.or_eq_false_iff.1 (Bool.eq_false_iff.2 h)).2
    split
    · next hd =>
      split
      · refine ⟨_, (s.sens i).broken, (s.sens i).warn, .quiet s _, fun h => ⟨h, rfl⟩, fun _ => ⟨fun h => absurd (hd.symm.trans h) (by decide),
          fun _ _ => ⟨rfl, hb⟩, fun _ h => by omega⟩⟩
      · refine ⟨8, true, false, .raise s _ _ _, fun h => absurd h (by decide), fun _ => ⟨fun h => absurd (hd.symm.trans h) (by decide),
          fun _ h => by omega, fun _ _ => ⟨rfl, fun hmode => State.reported_raise _ (senSrc i) 0x04 hmode (by decide)⟩⟩⟩
    · next hd =>
      exact ⟨0, (s.sens i).broken, (s.sens i).warn, .quiet s _, fun h => ⟨h, rfl⟩, fun _ => ⟨fun _ => ⟨rfl, hb⟩, fun h => absurd h hd, fun h => absurd h hd⟩⟩

end Sys2Proof.Machine
end

section
/-! SUPPORT. A temperature sample as a whole (R607 to R626): its stages one after another. -/

namespace Sys2Proof.Machine

open Sys2Proof.Safety

/-! ## One sensor has changed -/

/-- Sensor `i` has become `y`; the other sensors, time, clocks, galley, mode and test facilities are as they were. -/
structure SensorAt (s : State) (i : SensorIx) (y : Sensor) (t : State) : Prop where
  now : t.now = s.now
  mem : t.mem = s.mem
  mode : t.pwr.mode = s.pwr.mode
  clocks : t.clocks = s.clocks
  tst : t.tst = s.tst
  told : Told s t
  self : t.sens i = y
  others : ∀ j, j ≠ i → t.sens j = s.sens j
  shutdown : t.thm.shutdown = s.thm.shutdown
  cfg : t.thm.cfg = s.thm.cfg

/-- The throttle request is as it was. -/
def SameRequest (s t : State) : Prop := t.thm.req = s.thm.req ∧ t.thm.deadline = s.thm.deadline ∧ t.thm.reqExt = s.thm.reqExt ∧
  t.thm.acked = s.thm.acked

theorem SameRequest.trans {s t u : State} (h : SameRequest s t) (g : SameRequest t u) : SameRequest s u := by
  obtain ⟨h1, h2, h3, h4⟩ := h
  obtain ⟨g1, g2, g3, g4⟩ := g
  exact ⟨g1.trans h1, g2.trans h2, g3.trans h3, g4.trans h4⟩

section
variable {s t u : State} {i : SensorIx} {x y : Sensor}

theorem SensorAt.trans (h : SensorAt s i x t) (g : SensorAt t i y u) : SensorAt s i y u :=
  ⟨g.now.trans h.now, g.mem.trans h.mem, g.mode.trans h.mode, g.clocks.trans h.clocks, g.tst.trans h.tst, h.told.trans g.told, g.self,
    fun j hj => (g.others j hj).trans (h.others j hj), g.shutdown.trans h.shutdown, g.cfg.trans h.cfg⟩

theorem SensorAt.of_frame {thm : Thermal} (h : BandFrame { s with thm := thm } t) (hself : thm.sens[i] = y)
    (hothers : ∀ j : SensorIx, j ≠ i → thm.sens[j] = s.thm.sens[j]) (hsd : thm.shutdown = s.thm.shutdown) (hcfg : thm.cfg = s.thm.cfg) :
    SensorAt s i y t := by
  have hsens : ∀ j : SensorIx, t.sens j = thm.sens[j] := fun j => congrArg (fun t : Thermal => t.sens[j]) h.thm
  exact ⟨h.now, h.mem, h.mode, h.clocks, h.tst, h.told, (hsens i).trans hself, fun j hj => (hsens j).trans (hothers j hj),
    (congrArg Thermal.shutdown h.thm).trans hsd, (congrArg Thermal.cfg h.thm).trans hcfg⟩

theorem ThermalOnly.sensor (h : ThermalOnly s (s.thm.withSens i y) t) :
    SensorAt s i y t ∧ SameRequest s t ∧ t.thm.piers = s.thm.piers := by
  refine ⟨.of_frame h.frame (Thermal.withSens_self ..) (fun j hj => Thermal.withSens_ne _ _ _ _ hj) rfl rfl, ?_, ?_⟩
  · unfold SameRequest
    rw [h.thm]
    exact ⟨rfl, rfl, rfl, rfl⟩
  · rw [h.thm]
    rfl

end

/-! ## The stages of a sample -/

/-- The conversion has taken effect, and its result is among the samples. -/
def State.sensed (s : State) (i : SensorIx) (r : Option Int) : State :=
  let s1 := s.convert i r
  s1.setSens i { s1.sens i with samples := if i.val = 17 then [] else (s1.temp i :: (s1.sens i).samples).take 100 }

/-- The pier whose last ten temperatures a sample of this sensor adds to. -/
def pushed (i : SensorIx) : Option Pier := if i.val < 16 ∧ i.val % 2 = 1 then some (Fin.ofNat 8 (i.val / 2)) else none

/-- The piers have followed, and WARN is decided. -/
def State.warned (s : State) (i : SensorIx) (r : Option Int) : State :=
  ((s.sensed i r).piersFollow (pushed i) s.fallbackNow s.noSensor).warnAt i

theorem State.sample_eq {s : State} (a : Instant) (i : SensorIx) (r : Option Int) (hmode : s.pwr.mode ≠ .reset) :
    s.sample a i r = if (((s.at_ a).warned i r).throttleAt.shutdownAt i).pwr.mode = .reset
      then ((s.at_ a).warned i r).throttleAt.shutdownAt i else (((s.at_ a).warned i r).throttleAt.shutdownAt i).markBroken i :=
  if_neg hmode

/-- The sensor after its conversion, its result among the samples. -/
def Sensor.sampled (x : Sensor) (r : Option Int) : Sensor :=
  { x.converted r with samples := ((x.converted r).reading :: (x.converted r).samples).take 100 }

theorem Sensor.converted_broken (x : Sensor) (r : Option Int) : (x.converted r).broken = x.broken := by
  unfold Sensor.converted
  split <;> rfl

theorem Sensor.converted_kept (x : Sensor) (r : Option Int) : (x.converted r).warn = x.warn ∧ (x.converted r).hot = x.hot ∧
    (x.converted r).differs = x.differs ∧ (x.converted r).samples = x.samples := by
  unfold Sensor.converted
  split <;> exact ⟨rfl, rfl, rfl, rfl⟩

section Sensed
variable {s : State} {i : SensorIx} {r : Option Int} (hi : i.val ≤ 16) (hplain : s.tst.on = false)
include hi hplain

theorem State.sensed_spec : ThermalOnly s (s.thm.withSens i ((s.sens i).sampled r)) (s.sensed i r) ∧
    (s.pwr.mode ≠ .reset → inRange r = none → (s.sens i).broken = false → Reported (s.sensed i r) (164 + i.val) 0x08) := by
  obtain ⟨hconv, htold⟩ := s.convert_spec i r
  obtain ⟨hself, -, -⟩ := hconv.sensor
  have htemp : (s.convert i r).temp i = ((s.sens i).converted r).reading := by
    rw [State.temp_plain (by rw [hself.tst]; exact hplain), hself.self]
  have h17 : ¬i.val = 17 := by omega
  have heq : s.sensed i r = { s.convert i r with thm := s.thm.withSens i ((s.sens i).sampled r) } := by
    unfold State.sensed State.setSens Sensor.sampled
    dsimp only
    rw [if_neg h17, htemp, hself.self, hconv.thm]
    exact congrArg (fun t : Thermal => { s.convert i r with thm := t }) (Thermal.withSens_withSens ..)
  rw [heq]
  exact ⟨hconv.trans (.quiet _ _), fun h1 h2 h3 => htold h1 h2 h3⟩

/-- The sensor, the request and the piers once WARN is decided. -/
theorem State.warned_spec (hmode : s.pwr.mode ≠ .reset) : ∃ w, SensorAt s i { (s.sens i).sampled r with warn := w } (s.warned i r) ∧
    SameRequest s (s.warned i r) ∧ ((s.sens i).broken = true → w = (s.sens i).warn) ∧
    ((s.sens i).broken = false → (840 ≤ ((s.sens i).sampled r).reading → w = true) ∧
      (((s.sens i).sampled r).reading ≤ 824 → w = false) ∧
      (824 < ((s.sens i).sampled r).reading → ((s.sens i).sampled r).reading < 840 → w = (s.sens i).warn) ∧
      (840 ≤ ((s.sens i).sampled r).reading → (s.sens i).warn = false → Reported (s.warned i r) (164 + i.val) 0x01)) ∧
    (inRange r = none → (s.sens i).broken = false → Reported (s.warned i r) (164 + i.val) 0x08) := by
  obtain ⟨hsensed, hfail⟩ := State.sensed_spec (r := r) hi hplain
  obtain ⟨hat, hreq, -⟩ := hsensed.sensor
  let s2 := s.sensed i r
  obtain ⟨piers, hpiers⟩ := s2.piersFollow_frame (pushed i) s.fallbackNow s.noSensor (by rw [hat.mode]; exact hmode)
  let s3 := s2.piersFollow (pushed i) s.fallbackNow s.noSensor
  have hat3 : SensorAt s2 i ((s.sens i).sampled r) s3 := .of_frame hpiers hat.self (fun _ _ => rfl) rfl rfl
  have hreq3 : SameRequest s2 s3 := by
    unfold SameRequest
    rw [hpiers.thm]
    exact ⟨rfl, rfl, rfl, rfl⟩
  obtain ⟨w, hwarn, hbroken, hok⟩ := s3.warnAt_spec i hi
  have hsame := (hat.trans hat3).self
  have htemp : s3.temp i = ((s.sens i).sampled r).reading := by
    rw [State.temp_plain (by rw [hat3.tst, hat.tst]; exact hplain), hsame]
  have hmode3 : s3.pwr.mode ≠ .reset := by rw [hat3.mode, hat.mode]; exact hmode
  have hkept : ((s.sens i).sampled r).broken = (s.sens i).broken ∧ ((s.sens i).sampled r).warn = (s.sens i).warn :=
    ⟨(s.sens i).converted_broken r, ((s.sens i).converted_kept r).1⟩
  obtain ⟨hbr, hwr⟩ := hkept
  rw [htemp, hsame, hbr, hwr] at hok
  rw [hsame, hbr, hwr] at hbroken
  rw [hsame] at hwarn
  obtain ⟨hat4, hreq4, -⟩ := hwarn.sensor
  refine ⟨w, (hat.trans hat3).trans hat4, (hreq.trans hreq3).trans hreq4, hbroken, fun hb => ?_, fun hr hb => ?_⟩
  · obtain ⟨h1, h2, h3, h4⟩ := hok hb
    exact ⟨h1, h2, h3, fun h h' => h4 h h' hmode3⟩
  · exact hat4.told _ _ (hat3.told _ _ (hfail hmode hr hb))

end Sensed

/-! ## Readings of a valid sensor -/

section Valid
variable {s : State} {i : SensorIx} (hi : i.val ≤ 16) (hv : s.valid i = true)
include hi hv

theorem State.mem_validDie : i ∈ s.validDie := by
  unfold State.validDie dieAndCentral
  exact List.mem_filter.2 ⟨List.mem_filter.2 ⟨List.mem_finRange i, decide_eq_true hi⟩, hv⟩

theorem State.noSensor_of_valid : s.noSensor = false := by
  unfold State.noSensor
  exact List.isEmpty_eq_false_iff.2 (List.ne_nil_of_mem (State.mem_validDie hi hv))

theorem State.hotNow_of_valid (h : 880 ≤ s.temp i) : s.hotNow = true := by
  have hany : s.validDie.any (fun i => decide (880 ≤ s.temp i)) = true :=
    List.any_eq_true.2 ⟨i, State.mem_validDie hi hv, decide_eq_true h⟩
  unfold State.hotNow
  rw [hany, Bool.or_true, Bool.true_or]

theorem State.coolNow_of_valid (h : ∀ j : SensorIx, j.val ≤ 16 → s.valid j = true → s.temp j ≤ 848)
    (h17 : s.valid 17 = true → s.temp 17 ≤ 768) : s.coolNow = true := by
  have hall : s.validDie.all (fun i => decide (s.temp i ≤ 848)) = true := by
    refine List.all_eq_true.2 fun j hj => decide_eq_true ?_
    unfold State.validDie dieAndCentral at hj
    obtain ⟨hj, hvj⟩ := List.mem_filter.1 hj
    exact h j (of_decide_eq_true (List.mem_filter.1 hj).2) hvj
  have hstack : (!s.valid 17 || decide (s.temp 17 ≤ 768)) = true := by
    cases hv17 : s.valid 17 with
    | false => rfl
    | true => rw [decide_eq_true (h17 hv17)]; rfl
  unfold State.coolNow
  rw [State.noSensor_of_valid hi hv, hall, hstack]
  rfl

theorem State.coolNow_false (h : 848 < s.temp i) : s.coolNow = false := by
  have hall : s.validDie.all (fun i => decide (s.temp i ≤ 848)) = false := by
    refine Bool.eq_false_iff.2 fun hall => ?_
    have := of_decide_eq_true (List.all_eq_true.1 hall i (State.mem_validDie hi hv))
    omega
  unfold State.coolNow
  rw [hall, Bool.and_false, Bool.false_and]

end Valid

/-! ## The difference from the neighbours -/

theorem State.differs_of_neighbours {s : State} {i l u : SensorIx} (hi : i.val < 16) (hl : l.val = (i.val + 15) % 16)
    (hu : u.val = (i.val + 1) % 16) (hbl : (s.sens l).broken = false) (hbu : (s.sens u).broken = false) :
    s.differs i = (decide (48 < ((s.sens i).reading - (s.sens l).reading).natAbs) &&
      decide (48 < ((s.sens i).reading - (s.sens u).reading).natAbs)) := by
  have hfirst : ∀ (start : Nat) (up : Bool) (j : SensorIx), j.val = (if up then start else start + 16) % 16 → j ≠ i →
      (s.sens j).broken = false → s.neighbour i.val start up = some j := by
    intro start up j hj hne hb
    have h0 : (Fin.ofNat 18 ((if up then start + 0 else start + 16 - 0) % 16) : SensorIx) = j := by
      refine Fin.ext ?_
      simp only [Fin.ofNat, Nat.add_zero, Nat.sub_zero]
      rw [hj]
      exact Nat.mod_eq_of_lt (lt_trans (Nat.mod_lt _ (by decide)) (by decide))
    unfold State.neighbour
    rw [show List.range 16 = 0 :: (List.range 15).map (· + 1) from List.range_succ_eq_map, List.map_cons, h0, List.find?_cons_of_pos]
    rw [hb, bne_iff_ne.2 fun h => hne (Fin.ext h)]
    rfl
  have hln : l ≠ i := fun h => by rw [h] at hl; omega
  have hun : u ≠ i := fun h => by rw [h] at hu; omega
  have hlow : s.neighbour i.val (i.val + 15) false = some l :=
    hfirst _ _ l (by rw [hl, if_neg (by decide)]; omega) hln hbl
  have hup : s.neighbour i.val (i.val + 1) true = some u := hfirst _ _ u (by rw [hu, if_pos rfl]) hun hbu
  unfold State.differs State.neighbours
  rw [if_neg (by omega), hlow, hup]

end Sys2Proof.Machine
end

section
/-! SUPPORT. Temperature samples that shut nothing down, and the piers of a valid sensor (R611, R624). -/

namespace Sys2Proof.Machine

open Sys2Proof.Safety

theorem SensorAt.refl (s : State) (i : SensorIx) : SensorAt s i (s.sens i) s :=
  ⟨rfl, rfl, rfl, rfl, rfl, .refl s, rfl, fun _ _ => rfl, rfl, rfl⟩

/-- A decision on the throttle request changes no sensor and no pier. -/
theorem State.throttleAt_sensor (s : State) (i : SensorIx) :
    SensorAt s i (s.sens i) s.throttleAt ∧ s.throttleAt.thm.piers = s.thm.piers := by
  obtain ⟨r, d, e, k, m, honly, -⟩ := s.throttleAt_spec
  refine ⟨.of_frame honly.frame rfl (fun _ _ => rfl) rfl rfl, ?_⟩
  rw [honly.thm]

section Stays
variable {s : State} {i : SensorIx} (hi : i.val ≤ 16) (hplain : s.tst.on = false) (hno : s.thm.shutdown = none)
include hi hplain hno

/-- A sample that does not shut the device down: the request, the count of hot readings and the broken mark are decided. -/
theorem State.decided_stays (hcold : s.valid i = true → (s.sens i).reading < 1064 ∧ ((s.sens i).reading < 1000 ∨ (s.sens i).hot = 0)) :
    ∃ h, SensorAt s i { s.sens i with hot := h } (s.throttleAt.shutdownAt i) ∧
      SameRequest s.throttleAt (s.throttleAt.shutdownAt i) ∧ Told s.throttleAt (s.throttleAt.shutdownAt i) ∧ (s.throttleAt.shutdownAt i).thm.piers = s.thm.piers ∧
      (s.valid i = true → h = if 1000 ≤ (s.sens i).reading then 1 else 0) := by
  obtain ⟨hat, hpiers⟩ := s.throttleAt_sensor i
  have hvalid : s.throttleAt.valid i = s.valid i := by unfold State.valid; rw [hat.self]
  have htemp : s.throttleAt.temp i = (s.sens i).reading := by
    rw [State.temp_plain (by rw [hat.tst]; exact hplain), hat.self]
  cases hv : s.valid i with
  | false =>
    rw [State.shutdownAt_invalid (hvalid.trans hv)]
    exact ⟨(s.sens i).hot, hat, ⟨rfl, rfl, rfl, rfl⟩, .refl _, hpiers, fun h => absurd h (by decide)⟩
  | true =>
    obtain ⟨hlt, hhot⟩ := hcold hv
    have hstay := State.shutdownAt_stays hi (hvalid.trans hv) (hat.shutdown.trans hno) (by rw [htemp]; exact hlt)
      (by rw [htemp, hat.self]; exact hhot)
    rw [htemp, hat.self] at hstay
    obtain ⟨hat', hreq, hpiers'⟩ := ThermalOnly.sensor (s := s.throttleAt) (i := i)
      (y := { s.sens i with hot := if 1000 ≤ (s.sens i).reading then 1 else 0 }) (.quiet s.throttleAt _)
    rw [hstay]
    exact ⟨_, hat.trans hat', hreq, hat'.told, hpiers'.trans hpiers, fun _ => rfl⟩

end Stays

/-! ## The piers of a valid sensor -/

theorem median2_single (v : Int) : median2 [v] = 2 * v := by
  simp [median2, insertInt]

/-- The sensors around a pier. -/
def around (k : Pier) : List SensorIx := [15, 0, 1, 2].map fun d => Fin.ofNat 18 ((2 * k.val + d) % 16)

theorem mem_around {k : Pier} {j : SensorIx} : j ∈ around k ↔ j.val = (2 * k.val + 15) % 16 ∨ j.val = 2 * k.val ∨ j.val = 2 * k.val + 1 ∨
    j.val = (2 * k.val + 2) % 16 := by
  revert k j
  decide

theorem around_nodup (k : Pier) : (around k).Nodup := by
  revert k
  decide

/-- A pier next to a valid sensor takes the median of the valid sensors around it. -/
theorem State.pierTemp_near {s : State} {k : Pier} {i : SensorIx} (hv : s.valid i = true) (hi : i ∈ around k) :
    ∃ t, s.pierTemp k = some (t, false) ∧ ((∀ j ∈ around k, j ≠ i → s.valid j = false) → t = 2 * s.temp i) := by
  have hmem : i ∈ (around k).filter s.valid := List.mem_filter.2 ⟨hi, hv⟩
  have hsome : s.pierTemp k = some (median2 (((around k).filter s.valid).map s.temp), false) := by
    unfold State.pierTemp
    have hne : (!((around k).filter s.valid).isEmpty) = true := by
      rw [List.isEmpty_eq_false_iff.2 (List.ne_nil_of_mem hmem)]
      rfl
    exact if_pos hne
  refine ⟨_, hsome, fun hother => ?_⟩
  have hone : (around k).filter s.valid = [i] := by
    have hall : ∀ j ∈ (around k).filter s.valid, j = i := fun j hj => by
      obtain ⟨hja, hjv⟩ := List.mem_filter.1 hj
      by_contra hne
      exact absurd (hjv.symm.trans (hother j hja hne)) (by decide)
    have hnodup : ((around k).filter s.valid).Nodup := (around_nodup k).filter _
    generalize (around k).filter s.valid = l at hmem hall hnodup
    match l, hmem, hall, hnodup with
    | [j], _, hall, _ => rw [hall j List.mem_cons_self]
    | j :: j' :: _, _, hall, hnodup =>
      have h1 := hall j List.mem_cons_self
      have h2 := hall j' (List.mem_cons_of_mem _ List.mem_cons_self)
      exact absurd (by rw [h1, h2]; exact List.mem_cons_self) (List.nodup_cons.1 hnodup).1
  rw [hone]
  exact median2_single _

section Good
variable {s : State} {i : SensorIx} {r : Option Int} {v : Int} (hi : i.val ≤ 16) (hplain : s.tst.on = false)
  (hr : inRange r = some v) (hb : (s.sens i).broken = false)
include hi hplain hr hb

theorem State.sensed_valid : (s.sensed i r).valid i = true := by
  obtain ⟨hat, -, -⟩ := (State.sensed_spec (r := r) hi hplain).1.sensor
  unfold State.valid
  rw [hat.self]
  unfold Sensor.sampled Sensor.converted
  rw [hr]
  simp [hb]

/-- The good sample of a sensor that is not broken changes the thermal unit alone, and every pier follows. -/
theorem State.warned_good : ∃ thm, ThermalOnly s thm (s.warned i r) ∧ ∀ k : Pier, thm.piers[k] = (s.sensed i r).pierTaken (pushed i) k := by
  have hsensed := (State.sensed_spec (r := r) hi hplain).1
  obtain ⟨piers, hfollow, hk⟩ := State.piersFollow_valid (push := pushed i) (was := s.fallbackNow) (none_ := s.noSensor)
    (State.noSensor_of_valid hi (State.sensed_valid hi hplain hr hb))
  obtain ⟨w, hwarn, -⟩ := ((s.sensed i r).piersFollow (pushed i) s.fallbackNow s.noSensor).warnAt_spec i hi
  refine ⟨_, (hsensed.trans hfollow).trans hwarn, fun k => ?_⟩
  rw [hfollow.thm]
  exact hk k

end Good

end Sys2Proof.Machine
end

section
/-! SUPPORT. A temperature sample as a whole: what one that shuts nothing down decides, and what the shutdown leaves. -/

namespace Sys2Proof.Machine

open Sys2Proof.Safety

theorem Sensor.sampled_some {x : Sensor} {r : Option Int} {v : Int} (h : inRange r = some v) :
    x.sampled r = { x with reading := v, fails := 0, invalid := false, samples := (v :: x.samples).take 100 } := by
  unfold Sensor.sampled Sensor.converted
  rw [h]

theorem Sensor.sampled_none {x : Sensor} {r : Option Int} (h : inRange r = none) : x.sampled r =
    { x with fails := x.fails + 1, invalid := x.invalid || 3 ≤ x.fails + 1, samples := (x.reading :: x.samples).take 100 } := by
  unfold Sensor.sampled Sensor.converted
  rw [h]

/-- The difference of a new reading `v` of sensor `i` from both its neighbours. -/
def farFrom (s : State) (l u : SensorIx) (v : Int) : Prop :=
  48 < (v - (s.sens l).reading).natAbs ∧ 48 < (v - (s.sens u).reading).natAbs

/-- What WARN and the broken mark have become in state `t`, from what they were in `s`, at a reading of `v`. -/
structure MarksDecided (s : State) (i : SensorIx) (v : Int) (t : State) : Prop where
  warn : (t.sens i).broken = false → (840 ≤ v → (t.sens i).warn = true) ∧ (v ≤ 824 → (t.sens i).warn = false) ∧
    (824 < v → v < 840 → (t.sens i).warn = (s.sens i).warn)
  warned : (s.sens i).broken = false → 840 ≤ v → (s.sens i).warn = false → Reported t (164 + i.val) 0x01
  mark : ∀ l u : SensorIx, i.val < 16 → l.val = (i.val + 15) % 16 → u.val = (i.val + 1) % 16 → (s.sens i).broken = false →
    (s.sens l).broken = false → (s.sens u).broken = false →
    (¬farFrom s l u v → (t.sens i).differs = 0 ∧ (t.sens i).broken = false) ∧
    (farFrom s l u v → (s.sens i).differs < 7 → (t.sens i).differs = (s.sens i).differs + 1 ∧ (t.sens i).broken = false) ∧
    (farFrom s l u v → 7 ≤ (s.sens i).differs → (t.sens i).broken = true ∧ Reported t (164 + i.val) 0x04)

section Marks
variable {s u : State} {i : SensorIx} {y : Sensor} (hi : i.val ≤ 16) (hat : SensorAt s i y u) (hmode : s.pwr.mode ≠ .reset)
  (hbr : y.broken = (s.sens i).broken) (hdiff : y.differs = (s.sens i).differs)
include hi hat hmode hbr hdiff

/-- The broken mark, decided last, on a sensor whose WARN is decided. -/
theorem State.marks_decided (hwarn : (s.sens i).broken = false → (840 ≤ y.reading → y.warn = true) ∧ (y.reading ≤ 824 → y.warn = false) ∧
      (824 < y.reading → y.reading < 840 → y.warn = (s.sens i).warn) ∧
      (840 ≤ y.reading → (s.sens i).warn = false → Reported u (164 + i.val) 0x01)) :
    (∃ d b w, SensorAt s i { y with differs := d, broken := b, warn := w } (u.markBroken i)) ∧ Told u (u.markBroken i) ∧
      SameRequest u (u.markBroken i) ∧ (u.markBroken i).thm.piers = u.thm.piers ∧ MarksDecided s i y.reading (u.markBroken i) := by
  obtain ⟨d, b, w, honly, hkeep, hmark⟩ := u.markBroken_spec i hi
  obtain ⟨hat', hreq, hpiers⟩ := honly.sensor
  have hself := hat.self
  rw [hself] at hat' hkeep hmark
  rw [hbr] at hkeep hmark
  rw [hdiff] at hmark
  have hall := hat.trans hat'
  have hmode' : u.pwr.mode ≠ .reset := by rw [hat.mode]; exact hmode
  generalize u.markBroken i = t at *
  refine ⟨⟨d, b, w, hall⟩, hat'.told, hreq, hpiers, ⟨fun hbt => ?_, fun hb h1 h2 => ?_, fun l n hi16 hl hn hb hbl hbn => ?_⟩⟩
  · rw [hat'.self] at hbt ⊢
    obtain ⟨hb, hw⟩ := hkeep hbt
    obtain ⟨h1, h2, h3, -⟩ := hwarn hb
    rw [← hw] at h1 h2 h3
    exact ⟨h1, h2, h3⟩
  · exact hat'.told _ _ ((hwarn hb).2.2.2 h1 h2)
  · have hln : l ≠ i := fun h => by rw [h] at hl; omega
    have hnn : n ≠ i := fun h => by rw [h] at hn; omega
    have hd := State.differs_of_neighbours (s := u) hi16 hl hn (by rw [hat.others l hln]; exact hbl) (by rw [hat.others n hnn]; exact hbn)
    rw [hself, hat.others l hln, hat.others n hnn] at hd
    obtain ⟨hzero, hcount, hbreak⟩ := hmark hb
    rw [hat'.self]
    have hfar : farFrom s l n y.reading → u.differs i = true := fun h => by
      rw [hd, decide_eq_true h.1, decide_eq_true h.2]; rfl
    refine ⟨fun h => hzero ?_, fun h hlt => hcount (hfar h) hlt, fun h hge => ?_⟩
    · rw [hd]
      refine Bool.eq_false_iff.2 fun hh => h ?_
      obtain ⟨h1, h2⟩ := Bool.and_eq_true_iff.1 hh
      exact ⟨of_decide_eq_true h1, of_decide_eq_true h2⟩
    · obtain ⟨h1, h2⟩ := hbreak (hfar h) hge
      exact ⟨h1, h2 hmode'⟩

end Marks

section Stays
variable {s : State} {i : SensorIx} {r : Option Int} (hi : i.val ≤ 16) (hplain : s.tst.on = false)
  (hno : s.thm.shutdown = none) (hmode : s.pwr.mode ≠ .reset)
include hi hplain hno hmode

/-- A sample that shuts nothing down. -/
theorem State.sample_stays (hcold : ((s.sens i).sampled r).reading < 1064 ∧
      (((s.sens i).sampled r).reading < 1000 ∨ (s.sens i).hot = 0)) :
    (∃ w h d b, SensorAt s i { (s.sens i).sampled r with warn := w, hot := h, differs := d, broken := b }
        (((s.warned i r).throttleAt.shutdownAt i).markBroken i) ∧
      ((s.sens i).broken = false → ((s.sens i).sampled r).invalid = false →
        h = if 1000 ≤ ((s.sens i).sampled r).reading then 1 else 0)) ∧
    SameRequest (s.warned i r).throttleAt (((s.warned i r).throttleAt.shutdownAt i).markBroken i) ∧
    (((s.warned i r).throttleAt.shutdownAt i).markBroken i).thm.piers = (s.warned i r).thm.piers ∧
    MarksDecided s i ((s.sens i).sampled r).reading (((s.warned i r).throttleAt.shutdownAt i).markBroken i) ∧
    Told (s.warned i r).throttleAt (((s.warned i r).throttleAt.shutdownAt i).markBroken i) ∧
    (inRange r = none → (s.sens i).broken = false →
      Reported (((s.warned i r).throttleAt.shutdownAt i).markBroken i) (164 + i.val) 0x08) := by
  obtain ⟨w, hat, -, -, hwarn, hfail⟩ := State.warned_spec (r := r) hi hplain hmode
  have hbr : ((s.sens i).sampled r).broken = (s.sens i).broken := (s.sens i).converted_broken r
  obtain ⟨-, hhot, hdiff, -⟩ := (s.sens i).converted_kept r
  generalize s.warned i r = z at *
  obtain ⟨h, hat5, hreq, htold, hpiers, hhot5⟩ := State.decided_stays (s := z) hi (by rw [hat.tst]; exact hplain)
    (hat.shutdown.trans hno) (fun _ => by rw [hat.self]; exact ⟨hcold.1, hcold.2.imp_right fun h => hhot.trans h⟩)
  have hat6 := hat.trans hat5
  rw [hat.self] at hat6 hhot5
  generalize z.throttleAt.shutdownAt i = u at *
  obtain ⟨⟨d, b, w', hat7⟩, htold', hreq', hpiers', hmarks⟩ := State.marks_decided hi hat6 hmode hbr hdiff
    fun hb => ⟨(hwarn hb).1, (hwarn hb).2.1, (hwarn hb).2.2.1, fun h1 h2 => hat5.told _ _ ((hwarn hb).2.2.2 h1 h2)⟩
  refine ⟨⟨w', h, d, b, hat7, fun hb hinv => hhot5 ?_⟩, hreq.trans hreq', hpiers'.trans hpiers, hmarks, htold.trans htold', fun hr hb =>
    htold' _ _ (hat5.told _ _ (hfail hr hb))⟩
  unfold State.valid
  rw [hat.self]
  simp only [hbr, hb, hinv]
  rfl

end Stays

section Good
variable {s : State} {i : SensorIx} {r : Option Int} {v : Int} (hi : i.val ≤ 16) (hplain : s.tst.on = false)
  (hmode : s.pwr.mode ≠ .reset) (hr : inRange r = some v) (hb : (s.sens i).broken = false)
include hi hplain hmode hr hb

theorem State.warned_at : SensorAt s i ((s.warned i r).sens i) (s.warned i r) ∧ ((s.warned i r).sens i).reading = v ∧
    ((s.warned i r).sens i).hot = (s.sens i).hot ∧ (s.warned i r).valid i = true ∧ SameRequest s (s.warned i r) := by
  obtain ⟨w, hat, hreq, -⟩ := State.warned_spec (r := r) hi hplain hmode
  have hself := hat.self
  rw [← hself] at hat
  rw [Sensor.sampled_some hr] at hself
  refine ⟨hat, by rw [hself], by rw [hself], ?_, hreq⟩
  unfold State.valid
  rw [hself, hb]
  rfl

/-- What a good reading makes of the throttle request. -/
theorem State.request_decided {t : State} (h : SameRequest (s.warned i r).throttleAt t) :
    (s.thm.req = none → 880 ≤ v → t.thm.req = some s.nowMc ∧ t.thm.deadline = s.nowMc + s.thm.grace * msMc ∧
      t.thm.reqExt = s.thm.ackExt ∧ t.thm.acked = false ∧ Reported (s.warned i r).throttleAt 182 0x01) ∧
    (∀ q, s.thm.req = some q → v ≤ 848 → (∀ j, j ≠ i → j.val ≤ 16 → s.valid j = true → (s.sens j).reading ≤ 848) →
      (s.valid 17 = true → (s.sens 17).reading ≤ 768) → t.thm.req = none ∧ t.thm.deadline = 0) ∧
    (∀ q, s.thm.req = some q → 848 < v → t.thm.req = some q ∧ t.thm.deadline = s.thm.deadline) := by
  obtain ⟨hat, hval, -, hvalid, hr1, hr2, -, -⟩ := State.warned_at hi hplain hmode hr hb
  obtain ⟨a, d, e, k, m, honly, hask, hend, hstand⟩ := (s.warned i r).throttleAt_spec
  obtain ⟨h1, h2, h3, h4⟩ := h
  rw [honly.thm] at h1 h2 h3 h4
  have hplain' : (s.warned i r).tst.on = false := by rw [hat.tst]; exact hplain
  have htemp : ∀ j, (s.warned i r).temp j = ((s.warned i r).sens j).reading := State.temp_plain hplain'
  have hnow : (s.warned i r).nowMc = s.nowMc := by
    unfold State.nowMc State.mc
    rw [hat.now, hat.clocks]
  have hother : ∀ j, j ≠ i → (s.warned i r).valid j = s.valid j := fun j hj => by
    unfold State.valid
    rw [hat.others j hj]
  rw [h1, h2, h3, h4]
  refine ⟨fun hn hv => ?_, fun q hq hv hcool hstack => ?_, fun q hq hv => ?_⟩
  · obtain ⟨g1, g2, g3, g4, g5⟩ := hask (hr1.trans hn) (State.hotNow_of_valid hi hvalid (by rw [htemp, hval]; exact hv))
    have hg : (s.warned i r).thm.grace = s.thm.grace := by unfold Thermal.grace; rw [hat.cfg]
    have he : (s.warned i r).thm.ackExt = s.thm.ackExt := by unfold Thermal.ackExt; rw [hat.cfg]
    rw [hnow] at g1 g2
    rw [hg] at g2
    rw [he] at g3
    exact ⟨g1, g2, g3, g4, g5 (by rw [hat.mode]; exact hmode)⟩
  · refine hend q (hr1.trans hq) (State.coolNow_of_valid hi hvalid (fun j hj hvj => ?_) fun h17 => ?_)
    · rw [htemp]
      by_cases hji : j = i
      · rw [hji, hval]; exact hv
      · rw [hat.others j hji]
        exact hcool j hji hj ((hother j hji).symm.trans hvj)
    · have hne : (17 : SensorIx) ≠ i := fun h => by rw [← h] at hi; exact absurd hi (by decide)
      rw [htemp, hat.others 17 hne]
      exact hstack ((hother 17 hne).symm.trans h17)
  · obtain ⟨g1, g2⟩ := hstand q (hr1.trans hq) (State.coolNow_false hi hvalid (by rw [htemp, hval]; exact hv))
    exact ⟨g1, g2.trans hr2⟩

omit hmode in
/-- The piers beside a sensor follow its good reading. -/
theorem State.piers_near {k : Pier} (hk : 2 * k.val = i.val ∨ 2 * k.val + 1 = i.val) :
    (s.warned i r).thm.piers[k].fallback = false ∧ ((∀ j : SensorIx, j.val = (2 * k.val + 15) % 16 ∨ j.val = 2 * k.val ∨
      j.val = 2 * k.val + 1 ∨ j.val = (2 * k.val + 2) % 16 → j ≠ i → s.valid j = false) → (s.warned i r).thm.piers[k].t = 2 * v) := by
  obtain ⟨thm, honly, hp⟩ := State.warned_good hi hplain hr hb
  obtain ⟨hat, -, -⟩ := (State.sensed_spec (r := r) hi hplain).1.sensor
  obtain ⟨t, ht, hone⟩ := State.pierTemp_near (k := k) (State.sensed_valid hi hplain hr hb)
    (mem_around.2 (hk.elim (fun h => .inr (.inl h.symm)) fun h => .inr (.inr (.inl h.symm))))
  have hpier : (s.warned i r).thm.piers[k] = (s.sensed i r).pierTaken (pushed i) k := by rw [honly.thm]; exact hp k
  unfold State.pierTaken at hpier
  rw [ht] at hpier
  rw [hpier]
  refine ⟨rfl, fun hoth => ?_⟩
  have htemp : (s.sensed i r).temp i = v := by
    rw [State.temp_plain (by rw [hat.tst]; exact hplain), hat.self, Sensor.sampled_some hr]
  rw [← htemp]
  refine hone fun j hj hji => ?_
  unfold State.valid
  rw [hat.others j hji]
  exact hoth j (mem_around.1 hj) hji

/-- The state in which the shutdown is decided differs from the one before the sample in the thermal unit alone. -/
theorem State.throttled_good : ∃ thm, ThermalOnly s thm (s.warned i r).throttleAt ∧
    SensorAt s i ((s.warned i r).sens i) (s.warned i r).throttleAt := by
  obtain ⟨hat, -⟩ := State.warned_at hi hplain hmode hr hb
  obtain ⟨thm, honly, -⟩ := State.warned_good hi hplain hr hb
  obtain ⟨_, _, _, _, _, hthr, -⟩ := (s.warned i r).throttleAt_spec
  exact ⟨_, honly.trans hthr, hat.trans ((s.warned i r).throttleAt_sensor i).1⟩

end Good

end Sys2Proof.Machine
end

section
/-! The theorem that settles O53: a temperature sample, from conversion to shutdown. -/

namespace Sys2Proof.Machine

open Sys2Proof.Safety

/-- The device in RESET after the cut of a thermal shutdown. -/
structure CutTaken (s t : State) (i : SensorIx) (v : Int) (hard waited : Bool) : Prop where
  inReset : InReset s t
  now : t.now = s.resetEdge
  therm : t.pwr.rstTherm = true
  hold : t.pwr.thermHold = true
  wait : t.pwr.thermWait = true
  log : t.thm.sdLog = sdLogWord i v hard waited
  ended : t.thm.shutdown = none

/-- The thermal shutdown enters THM.SD_LOG. -/
def State.logged (s : State) (w : Word) : State := { s with thm := { s.thm with sdLog := w } }

/-- Reset source THERM is recognised. -/
def Power.thermReset (p : Power) : Power := { p with rstTherm := true, thermHold := true, thermWait := true }

theorem State.toReset_therm (s : State) : (s.toReset Power.thermReset).now = s.resetEdge ∧ (s.toReset Power.thermReset).pwr.rstTherm = true ∧
    (s.toReset Power.thermReset).pwr.thermHold = true ∧ (s.toReset Power.thermReset).pwr.thermWait = true ∧
    (s.toReset Power.thermReset).thm.sdLog = s.thm.sdLog ∧ (s.toReset Power.thermReset).thm.shutdown = none :=
  ⟨rfl, rfl, rfl, rfl, rfl, rfl⟩

theorem State.cut_eq {s : State} {e : Nat} {i : SensorIx} {v : Int} (hard waited : Bool) (h : s.thm.shutdown = some (e, i, v)) :
    s.cut hard waited = (s.logged (sdLogWord i v hard waited)).toReset Power.thermReset := by
  have hf : Power.thermReset = fun p => { p with rstTherm := true, thermHold := true, thermWait := true } := rfl
  unfold State.cut State.logged
  rw [h, hf]

theorem State.logged_reset (s : State) (w : Word) : InReset s ((s.logged w).toReset Power.thermReset) :=
  InReset.of_core (State.toReset_inReset _ _) rfl rfl rfl rfl

theorem CutTaken.of_reset {s t : State} {w : Word} {i : SensorIx} {v : Int} {hard waited : Bool} (hw : sdLogWord i v hard waited = w)
    (hreset : InReset s t) (hnow : t.now = (s.logged w).resetEdge) (htherm : t.pwr.rstTherm = true) (hhold : t.pwr.thermHold = true)
    (hwait : t.pwr.thermWait = true) (hlog : t.thm.sdLog = (s.logged w).thm.sdLog) (hended : t.thm.shutdown = none) :
    CutTaken s t i v hard waited :=
  ⟨hreset, hnow, htherm, hhold, hwait, hlog.trans hw.symm, hended⟩

theorem State.logged_cut (s : State) (i : SensorIx) (v : Int) (hard waited : Bool) :
    CutTaken s ((s.logged (sdLogWord i v hard waited)).toReset Power.thermReset) i v hard waited := by
  generalize hw : sdLogWord i v hard waited = w
  obtain ⟨hnow, htherm, hhold, hwait, hlog, hended⟩ := (s.logged w).toReset_therm
  exact .of_reset hw (s.logged_reset w) hnow htherm hhold hwait hlog hended

theorem State.cut_spec {s : State} {e : Nat} {i : SensorIx} {v : Int} (hard waited : Bool) (h : s.thm.shutdown = some (e, i, v)) :
    CutTaken s (s.cut hard waited) i v hard waited := by
  rw [State.cut_eq hard waited h]
  exact s.logged_cut i v hard waited

/-- A cut does not see the thermal unit or the conditions on their way. -/
theorem CutTaken.of_thermal {s z t : State} {thm : Thermal} {i : SensorIx} {v : Int} {hard waited : Bool} (h : CutTaken z t i v hard waited)
    (hz : ThermalOnly s thm z) : CutTaken s t i v hard waited := by
  obtain ⟨l, rfl⟩ := hz
  exact ⟨InReset.of_core h.inReset rfl rfl rfl rfl, h.now, h.therm, h.hold, h.wait, h.log, h.ended⟩

theorem State.cutRow_spec {s : State} {a : Instant} {e : Nat} {i : SensorIx} {v : Int} (h : s.thm.shutdown = some (e, i, v)) :
    CutTaken (s.at_ (min a (s.mcAt (e + 1000000)))) (s.cutRow a) i v false true := by
  unfold State.cutRow
  rw [h]
  exact State.cut_spec false true h

/-- The mark is left alone where the shutdown has put the device in RESET. -/
theorem State.sample_cut {s : State} {a : Instant} {i : SensorIx} {r : Option Int} (hmode : s.pwr.mode ≠ .reset)
    (h : (((s.at_ a).warned i r).throttleAt.shutdownAt i).pwr.mode = .reset) :
    s.sample a i r = ((s.at_ a).warned i r).throttleAt.shutdownAt i := by
  rw [State.sample_eq a i r hmode, if_pos h]

theorem State.sample_marked {s : State} {a : Instant} {i : SensorIx} {r : Option Int} (hmode : s.pwr.mode ≠ .reset)
    (h : (((s.at_ a).warned i r).throttleAt.shutdownAt i).pwr.mode ≠ .reset) :
    s.sample a i r = (((s.at_ a).warned i r).throttleAt.shutdownAt i).markBroken i := by
  rw [State.sample_eq a i r hmode, if_neg h]

section Shutdown
variable {s : State} {i : SensorIx} {r : Option Int} {v : Int} (hi : i.val ≤ 16) (hplain : s.tst.on = false)
  (hmode : s.pwr.mode ≠ .reset) (hno : s.thm.shutdown = none) (hr : inRange r = some v) (hb : (s.sens i).broken = false)
include hi hplain hmode hno hr hb

/-- A reading that shuts the device down, before the shutdown takes its course. -/
theorem State.shutdown_asked (hge : 1000 ≤ v) (hhot : 1064 ≤ v ∨ 1 ≤ (s.sens i).hot) : ∃ z thm, ThermalOnly s thm z ∧
    thm.shutdown = some (s.nowMc, i, v) ∧ Reported z 183 0x01 ∧
    (s.warned i r).throttleAt.shutdownAt i = if z.nvm.programming && v < 1064 then z.stopAll.raise 183 0x02 else z.cut (1064 ≤ v) false := by
  obtain ⟨hat, hval, hhot', hvalid, -⟩ := State.warned_at hi hplain hmode hr hb
  obtain ⟨thm, honly, hat'⟩ := State.throttled_good hi hplain hmode hr hb
  generalize s.warned i r = w at *
  generalize w.throttleAt = u at *
  have htemp : u.temp i = v := by
    rw [State.temp_plain (by rw [hat'.tst]; exact hplain), hat'.self, hval]
  have hnow : u.nowMc = s.nowMc := by
    unfold State.nowMc State.mc
    rw [hat'.now, hat'.clocks]
  have hvu : u.valid i = true := by
    unfold State.valid at hvalid ⊢
    rw [hat'.self]
    exact hvalid
  have hacts := State.shutdownAt_acts hi hvu (hat'.shutdown.trans hno) (by rw [htemp]; exact hge)
    (by rw [htemp, hat'.self, hhot']; exact hhot)
  dsimp only at hacts
  rw [htemp, hnow] at hacts
  exact ⟨_, _, honly.trans (.raise u _ _ _), rfl, State.reported_raise _ 183 0x01 (by rw [show State.pwr _ = u.pwr from rfl, hat'.mode]; exact hmode)
    (by decide), hacts⟩

end Shutdown

end Sys2Proof.Machine

namespace Sys2Proof.Proofs

open Sys2Proof.Machine Sys2Proof.Safety

theorem sampledReset (s : State) (a : Instant) (i : SensorIx) (r : Option Int) (hmode : s.pwr.mode = .reset) :
    s.sample a i r = { s with now := max s.now a, thm := (s.sample a i r).thm } ∧ (∀ j, j ≠ i → (s.sample a i r).sens j = s.sens j) ∧
    (i.val ≠ 16 → (s.sample a i r).sens i = s.sens i) ∧ (∀ v, i.val = 16 → r = some v → ((s.sample a i r).sens i).reading = v) := by
  by_cases h16 : i.val = 16
  · cases r with
    | none =>
      have heq : s.sample a i none = s.at_ a := (if_pos hmode).trans (if_pos h16)
      rw [heq]
      exact ⟨rfl, fun _ _ => rfl, fun _ => rfl, fun _ _ h => (nomatch h)⟩
    | some v =>
      have heq : s.sample a i (some v) = (s.at_ a).setSens i { s.sens i with reading := v } := (if_pos hmode).trans (if_pos h16)
      rw [heq]
      refine ⟨rfl, fun j hj => Thermal.withSens_ne s.thm i j _ hj, fun h => absurd h16 h, fun w _ hw => ?_⟩
      obtain rfl := Option.some.inj hw
      exact congrArg Sensor.reading (Thermal.withSens_self s.thm i _)
  · have heq : s.sample a i r = s.at_ a := (if_pos hmode).trans (if_neg h16)
    rw [heq]
    exact ⟨rfl, fun _ _ => rfl, fun _ => rfl, fun _ h => absurd h h16⟩

theorem sampledGood {s : State} (a : Instant) {i : SensorIx} (hi : i.val ≤ 16) {v : Int} (hmode : s.pwr.mode ≠ .reset)
    (hplain : s.tst.on = false) (hno : s.thm.shutdown = none) (hlo : -320 ≤ v) (hhi : v ≤ 1200)
    (hcold : v < 1064 ∧ (v < 1000 ∨ (s.sens i).hot = 0)) : ∃ w h d b,
    SensorAt (s.at_ a) i { s.sens i with
      reading := v, fails := 0, invalid := false, samples := (v :: (s.sens i).samples).take 100
      warn := w, hot := h, differs := d, broken := b } (s.sample a i (some v)) ∧
    ((s.sens i).broken = false → h = if 1000 ≤ v then 1 else 0) ∧
    SameRequest ((s.at_ a).warned i (some v)).throttleAt (s.sample a i (some v)) ∧
    (s.sample a i (some v)).thm.piers = ((s.at_ a).warned i (some v)).thm.piers ∧
    MarksDecided s i v (s.sample a i (some v)) ∧ Told ((s.at_ a).warned i (some v)).throttleAt (s.sample a i (some v)) := by
  have hr := inRange_some hlo hhi
  have hsampled : ((s.at_ a).sens i).sampled (some v) = _ := Sensor.sampled_some (x := s.sens i) hr
  have hstay := State.sample_stays (s := s.at_ a) (r := some v) hi hplain hno hmode (by rw [hsampled]; exact hcold)
  rw [hsampled] at hstay
  obtain ⟨⟨w, h, d, b, hat, hhot⟩, hreq, hpiers, ⟨m1, m2, m3⟩, htold, -⟩ := hstay
  have hrow := State.sample_marked (s := s) (a := a) (i := i) (r := some v) hmode (by
    intro hreset
    have hmk := State.markBroken_spec (((s.at_ a).warned i (some v)).throttleAt.shutdownAt i) i hi
    obtain ⟨_, _, _, honly, -⟩ := hmk
    exact hmode (hat.mode.symm.trans (honly.frame.mode.trans hreset)))
  rw [hrow]
  exact ⟨w, h, d, b, hat, fun hb => hhot hb rfl, hreq, hpiers, ⟨m1, m2, m3⟩, htold⟩

theorem sampledBad {s : State} (a : Instant) {i : SensorIx} (hi : i.val ≤ 16) {r : Option Int} (hmode : s.pwr.mode ≠ .reset)
    (hplain : s.tst.on = false) (hno : s.thm.shutdown = none) (hcold : (s.sens i).reading < 1000) (hr : inRange r = none) : ∃ w h d b,
    SensorAt (s.at_ a) i { s.sens i with
      fails := (s.sens i).fails + 1, invalid := (s.sens i).invalid || 3 ≤ (s.sens i).fails + 1
      samples := ((s.sens i).reading :: (s.sens i).samples).take 100
      warn := w, hot := h, differs := d, broken := b } (s.sample a i r) ∧
    ((s.sens i).broken = false → Reported (s.sample a i r) (164 + i.val) 0x08) := by
  have hsampled : ((s.at_ a).sens i).sampled r = _ := Sensor.sampled_none (x := s.sens i) hr
  have hstay := State.sample_stays (s := s.at_ a) (r := r) hi hplain hno hmode
    (by rw [hsampled]; exact ⟨lt_trans hcold (by decide), .inl hcold⟩)
  rw [hsampled] at hstay
  obtain ⟨⟨w, h, d, b, hat, -⟩, -, -, -, -, hfail⟩ := hstay
  have hrow := State.sample_marked (s := s) (a := a) (i := i) (r := r) hmode (by
    intro hreset
    obtain ⟨_, _, _, honly, -⟩ := State.markBroken_spec (((s.at_ a).warned i r).throttleAt.shutdownAt i) i hi
    exact hmode (hat.mode.symm.trans (honly.frame.mode.trans hreset)))
  rw [hrow]
  exact ⟨w, h, d, b, hat, fun hb => hfail hr hb⟩

/-- The state in which a page program in progress is waited for. -/
theorem State.stopAll_spec {s z : State} {thm : Thermal} (hz : ThermalOnly s thm z) (hmode : s.pwr.mode ≠ .reset) :
    ∃ t, t = z.stopAll.raise 183 0x02 ∧ t.now = s.now ∧ t.pwr.mode = s.pwr.mode ∧ t.thm.shutdown = thm.shutdown ∧ t.mem = [] ∧ (∀ d, t.dom d = .off) ∧
      t.lcy.fuses = s.lcy.fuses ∧ Told z t ∧ Reported t 183 0x02 := by
  obtain ⟨l, hl⟩ := z.stopAll.raise_eq 183 0x02
  have hzm : z.stopAll.pwr.mode = s.pwr.mode := hz.frame.mode
  have hrep := State.reported_raise z.stopAll 183 0x02 (by rw [hzm]; exact hmode) (by decide)
  have htold : Told z (z.stopAll.raise 183 0x02) := (Told.of_truss rfl).trans (.raise z.stopAll 183 0x02)
  have hdom : ∀ d, z.stopAll.dom d = .off := fun d => Vector.getElem_replicate ..
  obtain ⟨k, rfl⟩ := hz
  refine ⟨_, rfl, ?_, ?_, ?_, ?_, ?_, ?_, htold, hrep⟩
  · rw [hl]; rfl
  · rw [hl]; rfl
  · rw [hl]; rfl
  · rw [hl]; rfl
  · rw [hl]; exact hdom
  · rw [hl]; rfl

end Sys2Proof.Proofs
end

section
/-! The theorem that settles O53: a temperature sample, from conversion to shutdown. -/

namespace Sys2Proof.Proofs

open Sys2Proof.Machine Sys2Proof.Safety

section Hot
variable {s : State} (a : Instant) {i : SensorIx} (hi : i.val ≤ 16) {v : Int} (hmode : s.pwr.mode ≠ .reset) (hplain : s.tst.on = false)
  (hno : s.thm.shutdown = none) (hb : (s.sens i).broken = false) (hge : 1000 ≤ v) (hle : v ≤ 1200)
include hi hmode hplain hno hb hge hle

/-- A shutdown reading with nothing to wait for cuts at once. -/
theorem sampledCut (h : 1064 ≤ v ∨ 1 ≤ (s.sens i).hot ∧ s.nvm.programming = false) :
    CutTaken (s.at_ a) (s.sample a i (some v)) i v (decide (1064 ≤ v)) false := by
  obtain ⟨z, thm, honly, hsd, -, heq⟩ := State.shutdown_asked (s := s.at_ a) hi hplain hmode hno
    (inRange_some (by omega) hle) hb hge (h.imp_right And.left)
  have hcond : ¬(z.nvm.programming && decide (v < 1064)) = true := by
    have hnvm : z.nvm = s.nvm := by obtain ⟨l, rfl⟩ := honly; rfl
    rcases h with h | ⟨-, h⟩
    · rw [decide_eq_false (by omega), Bool.and_false]; decide
    · rw [hnvm, h, Bool.false_and]; decide
  rw [if_neg hcond] at heq
  have hcut := State.cut_spec (s := z) (decide (1064 ≤ v)) false (by rw [honly.thm]; exact hsd)
  rw [State.sample_cut hmode (by rw [heq]; exact hcut.inReset.mode), heq]
  exact hcut.of_thermal honly

/-- A second hot reading in a row while a page is programmed stops everything else, and the cut waits. -/
theorem sampledStop (hlt : v < 1064) (hhot : 1 ≤ (s.sens i).hot) (hprog : s.nvm.programming = true) :
    (s.sample a i (some v)).now = max s.now a ∧ (s.sample a i (some v)).pwr.mode = s.pwr.mode ∧
    (s.sample a i (some v)).thm.shutdown = some ((s.at_ a).nowMc, i, v) ∧ (s.sample a i (some v)).mem = [] ∧
    (∀ d, (s.sample a i (some v)).dom d = .off) ∧ (s.sample a i (some v)).lcy.fuses = s.lcy.fuses ∧
    Reported (s.sample a i (some v)) 183 0x01 ∧ Reported (s.sample a i (some v)) 183 0x02 := by
  obtain ⟨z, thm, honly, hsd, hasked, heq⟩ := State.shutdown_asked (s := s.at_ a) hi hplain hmode hno
    (inRange_some (by omega) hle) hb hge (.inr hhot)
  have hcond : (z.nvm.programming && decide (v < 1064)) = true := by
    obtain ⟨l, rfl⟩ := honly
    rw [decide_eq_true hlt, Bool.and_true]
    exact hprog
  rw [if_pos hcond] at heq
  obtain ⟨u, hu, hnow, humode, hushut, humem, hudom, hufuses, htold, hstop⟩ := State.stopAll_spec honly hmode
  rw [← hu] at heq
  rw [State.sample_marked hmode (by rw [heq, humode]; exact hmode), heq]
  obtain ⟨_, _, _, hmark, -⟩ := u.markBroken_spec i hi
  have htold' := hmark.told
  obtain ⟨l, hl⟩ := hmark
  rw [hl] at htold' ⊢
  exact ⟨hnow, humode, hushut.trans hsd, humem, hudom, hufuses, htold' _ _ (htold _ _ hasked), htold' _ _ hstop⟩

end Hot

/-- Settles O53: the stages of a sample one after another, each with its own rule; a shutdown reading ends in the cut or waits. -/
theorem sensorSamples : Obligations.SensorSamples := by
  intro s a i r
  let ix : SensorIx := ⟨i.val, by omega⟩
  have hi : ix.val ≤ 16 := Nat.le_of_lt_succ i.isLt
  have hrow : exec (.sensorSample a i r) s = .next (s.sample a ix r) := rfl
  intro ix' x now m
  refine ⟨fun hmode => ?_, fun v hmode hplain hno hr hlo hhi => ?_, fun hmode hplain hno hcold hr => ?_,
    fun v hmode hplain hno hb hr hge hle => ?_, fun e j v hsd => ?_⟩
  · obtain ⟨h1, h2, h3, h4⟩ := sampledReset s a ix r hmode
    exact ⟨_, hrow, h1, h2, h3, h4⟩
  · subst hr
    have hrange := inRange_some hlo (show v ≤ 1200 by omega)
    obtain ⟨w, h, d, b, hat, hhot, hreq, hpiers, ⟨m1, m2, m3⟩, htold⟩ := sampledGood a hi hmode hplain hno hlo (by omega)
      ⟨by omega, .inl hhi⟩
    have hthrottle : x.broken = false → _ := fun hb => State.request_decided (s := s.at_ a) hi hplain hmode hrange hb hreq
    have hnear : ∀ (k : Pier) (_ : 2 * k.val = i.val ∨ 2 * k.val + 1 = i.val), x.broken = false → _ := fun k hk hb =>
      State.piers_near (s := s.at_ a) hi hplain hrange hb hk
    have hself := hat.self
    refine ⟨_, hrow, hat.now, hat.mode, hat.mem, hat.shutdown.trans hno, hat.others, by rw [hself], by rw [hself], by rw [hself],
      fun hb => ?_, by rw [hself], m2, m1, m3, fun hn hb hv => ?_, fun q hq hb hv hcool hstack => (hthrottle hb).2.1 q hq hv hcool hstack,
      fun q hq hb hv => (hthrottle hb).2.2 q hq hv, fun k hk hb => ?_⟩
    · rw [hself]
      exact (hhot hb).trans (if_neg (by omega))
    · obtain ⟨h1, h2, h3, h4, h5⟩ := (hthrottle hb).1 hn hv
      refine ⟨h1, h2.trans ?_, h3.trans (fld_eq_extract _ _ _), h4, htold _ _ h5⟩
      rw [← fld_eq_extract]
      rfl
    · rw [hpiers]
      exact hnear k hk hb
  · obtain ⟨w, h, d, b, hat, hfail⟩ := sampledBad a hi hmode hplain hno hcold (inRange_none hr)
    have hself := hat.self
    refine ⟨_, hrow, hat.now, hat.mem, hat.mode, by rw [hself], by rw [hself], ?_, hfail, hat.others⟩
    rw [hself]
    have : decide (3 ≤ (s.sens ix).fails + 1) = decide (2 ≤ (s.sens ix).fails) := decide_eq_decide.2 (by omega)
    exact congrArg (x.invalid || ·) this
  · subst hr
    refine ⟨_, hrow, fun hlt hcool => ?_, fun hcut => ?_, fun hlt hhot hprog => sampledStop a hi hmode hplain hno hb hge hle hlt hhot hprog⟩
    · obtain ⟨w, h, d, b, hat, hhot, -⟩ := sampledGood a hi hmode hplain hno (by omega) hle ⟨hlt, .inr hcool⟩
      refine ⟨hat.now, hat.mode, ?_, hat.mem⟩
      rw [hat.self]
      exact (hhot hb).trans (if_pos hge)
    · obtain ⟨hreset, hnow, h1, h2, h3, h4, -⟩ := sampledCut a hi hmode hplain hno hb hge hle hcut
      exact ⟨InReset.of_core hreset rfl rfl rfl rfl, hnow.trans (if_neg hmode), h1, h2, h3, h4⟩
  · obtain ⟨hreset, hnow, h1, h2, -, h4, -⟩ := State.cutRow_spec (a := a) hsd
    exact ⟨_, rfl, InReset.of_core hreset rfl rfl rfl rfl, hnow, h1, h2, h4⟩

end Sys2Proof.Proofs
end

section
/-! The theorem that settles O40: acquisition, and the loss of the reference. -/

namespace Sys2Proof.Machine

open Sys2Proof.Safety

/-! ## The timebase alone -/

theorem OnlyTimebase.raise {s t : State} (h : OnlyTimebase s t) (n : Source) (c : Byte) : OnlyTimebase s (t.raise n c) := by
  obtain ⟨l, hl⟩ := t.raise_eq n c
  rw [hl]
  unfold OnlyTimebase at h ⊢
  rw [h]

@[simp] theorem State.raise_tb (s : State) (n : Source) (c : Byte) : (s.raise n c).tb = s.tb := by
  obtain ⟨l, hl⟩ := s.raise_eq n c
  rw [hl]

/-! ## A loss (R113, R114) -/

/-- A trim in its deskew phase fails with TIMEBASE (Table 13.7). -/
def Channel.failTimebase (x : Channel) : Channel := { x with trim := { x.trim with failReason := 8 } }

/-- A failure of the trims changes the trims of the channels alone. -/
theorem State.trimTimebase_eq (s : State) : ∃ cs : Vector Channel 96, s.trimTimebase = { s with chans := cs } ∧
    ∀ c : Chan, cs[c] = s.chan c ∨ cs[c] = (s.chan c).failTimebase := by
  have hfold : ∀ (l : List Chan) (z : State), ∃ cs, l.foldl (fun z c => z.modChan c Channel.failTimebase) z = { z with chans := cs } ∧
      ∀ c : Chan, cs[c] = z.chan c ∨ cs[c] = (z.chan c).failTimebase := by
    intro l
    induction l with
    | nil => exact fun z => ⟨z.chans, rfl, fun c => .inl rfl⟩
    | cons d l ih =>
      intro z
      obtain ⟨cs, heq, hcs⟩ := ih (z.modChan d Channel.failTimebase)
      refine ⟨cs, heq, fun c => ?_⟩
      by_cases hc : c = d
      · subst hc
        have hself : (z.modChan c Channel.failTimebase).chan c = (z.chan c).failTimebase := State.chan_setChan_self ..
        rcases hcs c with h | h
        · exact .inr (h.trans hself)
        · exact .inr (h.trans (by rw [hself]; rfl))
      · have hne : (z.modChan d Channel.failTimebase).chan c = z.chan c := State.chan_setChan_ne _ _ _ _ hc
        have h := hcs c
        rw [hne] at h
        exact h
  exact hfold _ s

/-- The timebase once a loss is declared. -/
def Timebase.lost (tb : Timebase) (last : Instant) (now : Instant) (offset : Int) : Timebase :=
  { tb with st := .coast, losses := satAdd tb.losses 1, slewRem := 0, offset := offset, glide := none
            measured := none, tdFrom := none, refok := false, lastRef := some last, jump := none
            frozen := some (now - 8 * tb.twoP) }

theorem State.declareLoss_eq (s : State) (last : Instant) : ∃ (cs : Vector Channel 96) (sy : Vector SynthSt 10),
    s.declareLoss last = { s with chans := cs, synths := sy, tb := s.tb.lost last s.now (s.offsetAt s.now) } ∧
    ∀ c : Chan, cs[c] = s.chan c ∨ cs[c] = (s.chan c).failTimebase := by
  obtain ⟨cs, heq, hcs⟩ := s.trimTimebase_eq
  refine ⟨cs, ({ s with chans := cs } : State).spreadDv false |>.synths, ?_, hcs⟩
  unfold State.declareLoss
  rw [heq]
  rfl

/-- A loss declared in state `s`, told under a source. -/
theorem State.declareLoss_spec {s : State} (last : Instant) (n : Source) (b : Byte) (hmode : s.pwr.mode ≠ .reset) (hb : b ≠ 0) :
    let t := (s.declareLoss last).raise n b
    t.now = s.now ∧ t.tb = s.tb.lost last s.now (s.offsetAt s.now) ∧ Reported t n.val b ∧ t.mem = s.mem ∧
      ∀ c, (t.chan c).merge = (s.chan c).merge ∧ (t.chan c).armed = (s.chan c).armed := by
  obtain ⟨cs, sy, heq, hcs⟩ := s.declareLoss_eq last
  dsimp only
  rw [heq]
  have hrep := State.reported_raise ({ s with chans := cs, synths := sy, tb := s.tb.lost last s.now (s.offsetAt s.now) } : State) n b hmode hb
  refine ⟨State.raise_now .., State.raise_tb .., hrep, ?_, fun c => ?_⟩
  · obtain ⟨l, hl⟩ := State.raise_eq ({ s with chans := cs, synths := sy, tb := s.tb.lost last s.now (s.offsetAt s.now) } : State) n b
    rw [hl]
  · rw [State.chan_raise]
    rcases hcs c with h | h
    · exact ⟨(congrArg Channel.merge h :), (congrArg Channel.armed h :)⟩
    · exact ⟨(congrArg Channel.merge h :), (congrArg Channel.armed h :)⟩

theorem Timebase.engaged_iff (tb : Timebase) : tb.engaged = true ↔ tb.st = .locked ∨ tb.st = .slew ∨ tb.st = .settle := by
  unfold Timebase.engaged
  cases tb.st <;> decide

/-! ## Phase errors (R113, R675) -/

theorem State.phaseBad_iff (s : State) (t : Instant) : s.phaseBad t = true ↔ 12800 < (s.gridErr s.tb.refP t).natAbs :=
  decide_eq_true_iff

/-- Four edges in a row lie off the grid. -/
def offGrid (s : State) (edges : List Instant) : Prop :=
  4 ≤ edges.length ∧ ∀ e ∈ edges.drop (edges.length - 4), 12800 < (s.gridErr s.tb.refP e).natAbs

theorem offGrid_iff (s : State) (edges : List Instant) :
    (decide (4 ≤ edges.length) && (edges.drop (edges.length - 4)).all s.phaseBad) = true ↔ offGrid s edges := by
  rw [Bool.and_eq_true, decide_eq_true_iff, List.all_eq_true]
  exact and_congr_right fun _ => forall₂_congr fun e _ => s.phaseBad_iff e

theorem State.follow_eq (s : State) (edges : List Instant) : ∃ j, s.follow edges = { s with tb := { s.tb with jump := j } } := by
  unfold State.follow
  split
  · exact ⟨_, rfl⟩
  · exact ⟨s.tb.jump, rfl⟩

end Sys2Proof.Machine

namespace Sys2Proof.Proofs

open Sys2Proof.Machine Sys2Proof.Safety

section
variable {s : State} (a : Instant) (hmode : s.pwr.mode ≠ .reset)
include hmode

theorem lockChecked (e : Int) (hst : s.tb.st = .acquire) (hsettling : s.tb.settling = true) :
    let now := max s.now (s.tb.since + 12500 * s.clocks.mgmt.period)
    (e.natAbs ≤ 192 → ∃ t, exec (.lockCheck e a) s = .next t ∧ t.now = now ∧ OnlyTimebase s t ∧ t.tb.st = .locked ∧
      t.stamp (max now a) = 0 ∧ t.truss = s.truss) ∧
    (192 < e.natAbs → ∃ t, exec (.lockCheck e a) s = .next t ∧ t.now = now ∧ OnlyTimebase s t ∧ t.tb.st = .acquire ∧
      t.tb.settling = false ∧ t.tb.since = now ∧ t.tb.scale = s.tb.scale ∧ Seeded s t ∧ Reported t 153 0x01) := by
  intro now
  have hcond : (decide (s.tb.st = .acquire) && s.tb.settling) = true := by rw [hst, hsettling]; rfl
  let z : State := s.at_ (s.tb.since + 12500 * s.clocks.mgmt.period)
  refine ⟨fun he => ?_, fun he => ?_⟩
  · let w : State := z.modTb fun tb => { tb with st := .locked, settling := false, scale := -(lsbOf (max z.now a) : Int) }
    have hrow : s.lockCheck e a = w.tbApply := (if_pos hcond).trans (if_pos (decide_eq_true he))
    obtain ⟨hst', hscale⟩ : w.tbApply.tb.st = w.tb.st ∧ w.tbApply.tb.scale = w.tb.scale := by
      unfold State.tbApply
      split
      · exact ⟨rfl, rfl⟩
      · split <;> exact ⟨rfl, rfl⟩
    obtain ⟨tb, htb⟩ := w.tbApply_eq
    rw [htb] at hst' hscale
    refine ⟨_, congrArg Host.Outcome.next (hrow.trans htb), rfl, rfl, hst', ?_, rfl⟩
    unfold State.stamp
    rw [hscale]
    exact Int.add_right_neg _
  · let w : State := z.restartAcquire
    have hrow : s.lockCheck e a = w.raise 153 0x01 :=
      (if_pos hcond).trans (if_neg (by unfold lockOk; rw [decide_eq_false (by omega)]; decide))
    have hw : OnlyTimebase s (w.raise 153 0x01) := OnlyTimebase.raise (t := w) rfl _ _
    refine ⟨_, congrArg Host.Outcome.next hrow, State.raise_now .., hw, ?_, ?_, ?_, ?_, ?_, State.reported_raise w 153 0x01 hmode (by decide)⟩
    · rw [State.raise_tb]; exact hst
    · rw [State.raise_tb]; rfl
    · rw [State.raise_tb]; rfl
    · rw [State.raise_tb]; rfl
    · unfold Seeded
      rw [State.raise_tb]
      exact ⟨rfl, rfl⟩

theorem lostInAcquire (absent : Bool) (hst : s.tb.st = .acquire) : ∃ t, exec (.refinLossInAcquire a absent) s = .next t ∧
    t.now = max s.now a ∧ t.tb.st = .acquire ∧ t.tb.settling = false ∧ t.tb.since = t.now ∧ t.tb.refok = !absent ∧ Seeded s t ∧
    Reported t 152 (if absent then 0x01 else 0x04) ∧ t.chans = s.chans ∧ t.mem = s.mem := by
  let z : State := s.at_ a
  let y : State := if absent then z.locksRestart else z
  let w : State := y.restartAcquire.modTb fun tb => { tb with refok := !absent }
  have hy : y = { z with synths := y.synths } := by cases absent <;> rfl
  have hrow : s.refinLossInAcquire a absent = w.raise 152 (if absent then 0x01 else 0x04) := if_pos hst
  have hw : w = { z with synths := y.synths, tb := w.tb } := by rw [show w = { y with tb := w.tb } from rfl, hy]
  have htb : w.tb = { z.tb.seedLfsr z.now with since := z.now, settling := false, refok := !absent } := by cases absent <;> rfl
  have hrep : Reported (w.raise 152 (if absent then 0x01 else 0x04)) 152 (if absent then 0x01 else 0x04) :=
    State.reported_raise w 152 _ (by rw [hw]; exact hmode) (by cases absent <;> decide)
  obtain ⟨l, hl⟩ := w.raise_eq 152 (if absent then 0x01 else 0x04)
  rw [hl] at hrow hrep
  refine ⟨_, congrArg Host.Outcome.next hrow, ?_, ?_, ?_, ?_, ?_, ?_, hrep, ?_, ?_⟩
  · rw [hw]; rfl
  · rw [show State.tb _ = w.tb from rfl, htb]; exact hst
  · rw [show State.tb _ = w.tb from rfl, htb]
  · rw [show State.tb _ = w.tb from rfl, htb, hw]
  · rw [show State.tb _ = w.tb from rfl, htb]
  · unfold Seeded
    rw [show State.tb _ = w.tb from rfl, htb]
    exact ⟨rfl, rfl⟩
  · rw [hw]; rfl
  · rw [hw]; rfl

theorem lossDeclared {edges : List Instant} {last : Instant} (byPhase : Bool) (hlast : edges.getLast? = some last)
    (hst : s.tb.st = .locked ∨ s.tb.st = .slew ∨ s.tb.st = .settle) (h : byPhase = false ∨ offGrid s edges) :
    ∃ t, exec (.lossOfReference byPhase edges) s = .next t ∧
      t.now = max s.now (s.span.next (if byPhase then last else last + 2 * s.tb.refP * 25)) ∧ t.tb.st = .coast ∧
      t.tb.refok = false ∧ t.tb.lastRef = some last ∧ t.tb.frozen = some (t.now - 16 * s.tb.refP * 25) ∧
      t.tb.losses = satAdd s.tb.losses 1 ∧ t.tb.slewRem = 0 ∧ t.tb.scale = s.tb.scale ∧
      Reported t 152 (if byPhase then 0x02 else 0x01) ∧ t.mem = s.mem ∧
      ∀ c, (t.chan c).merge = (s.chan c).merge ∧ (t.chan c).armed = (s.chan c).armed := by
  let z : State := s.at_ (s.span.next (if byPhase then last else last + 2 * s.tb.refP * 25))
  have hrow : s.lossOfReference byPhase edges = (z.declareLoss last).raise 152 (if byPhase then 0x02 else 0x01) := by
    unfold State.lossOfReference
    rw [hlast]
    dsimp only
    rw [if_neg (by rw [(Timebase.engaged_iff _).2 hst]; decide)]
    cases byPhase with
    | false => rfl
    | true => exact (if_neg (by decide)).trans (if_pos ((offGrid_iff s edges).2 (h.resolve_left (by decide))))
  obtain ⟨hnow, htb, hrep, hmem, hchan⟩ := State.declareLoss_spec (s := z) last 152 (if byPhase then 0x02 else 0x01) hmode
    (by cases byPhase <;> decide)
  refine ⟨_, congrArg Host.Outcome.next hrow, hnow, ?_, ?_, ?_, ?_, ?_, ?_, ?_, hrep, hmem, hchan⟩
  all_goals rw [htb]
  · rfl
  · rfl
  · rfl
  · rw [hnow]
    have htwo : 8 * s.tb.twoP = 16 * s.tb.refP * 25 := by unfold Timebase.twoP lsbUnits; omega
    exact congrArg (fun n => some (z.now - n)) htwo
  · rfl
  · rfl
  · rfl

end

/-- Settles O40: each row of the timebase in the state it acts in; a loss freezes both loops and leaves the scale. -/
theorem referenceLost : Obligations.ReferenceLost := by
  intro s a hmode
  refine ⟨fun hst hsettling href => ?_, fun hst href => ?_, fun e hst hsettling => lockChecked a hmode e hst hsettling,
    fun absent hst => lostInAcquire a hmode absent hst, fun byPhase edges last hlast hst => ⟨fun h => lossDeclared hmode byPhase hlast hst h,
      fun hphase hon => ?_⟩, fun hst => ?_, fun hst => ?_⟩
  · have hrow : s.acquireQualified = _ := if_pos (by rw [hst, hsettling, href]; rfl)
    exact ⟨_, congrArg Host.Outcome.next hrow, rfl, rfl, rfl⟩
  · have hrow : s.qualifyStart a = _ :=
      (if_neg (by rw [State.at_tb, hst]; decide)).trans (if_pos (show (decide ((s.at_ a).tb.st = .acquire) && !(s.at_ a).tb.refok) = true by
        rw [State.at_tb, hst, href]; rfl))
    exact ⟨_, congrArg Host.Outcome.next hrow, rfl, rfl, rfl, hst, rfl, rfl⟩
  · have hrow : s.lossOfReference byPhase edges = (s.at_ last).follow edges := by
      unfold State.lossOfReference
      rw [hlast]
      dsimp only
      rw [if_neg (by rw [(Timebase.engaged_iff _).2 hst]; decide), if_neg (by rw [hphase]; decide)]
      exact if_neg fun h => hon ((offGrid_iff s edges).1 h)
    obtain ⟨j, hj⟩ := (s.at_ last).follow_eq edges
    rw [hj] at hrow
    exact ⟨_, congrArg Host.Outcome.next hrow, rfl⟩
  · have hrow : s.qualifyStart a = _ := if_pos (show (s.at_ a).tb.st = .coast from hst)
    exact ⟨_, congrArg Host.Outcome.next hrow, rfl, rfl, rfl, rfl, rfl, rfl, rfl⟩
  · have hrow : s.missingEdge a = _ := if_pos hst
    exact ⟨_, congrArg Host.Outcome.next hrow, rfl, rfl, rfl, rfl, rfl, rfl, rfl, rfl⟩

end Sys2Proof.Proofs
end

section
/-! SUPPORT. A discontinuity record (R128 to R133): what it leaves as it was, and whose stream it enters. -/

namespace Sys2Proof.Machine

open Sys2Proof.Safety

/-! ## A record that opens again -/

/-- Whether the channel is armed, and its trim. -/
def Channel.armTrim (x : Channel) : Bool × Trim := (x.armed, x.trim)

/-- Only the channels, none of which has been armed or disarmed, and the folios have changed. -/
def ArmingKept (s t : State) : Prop :=
  t = { s with chans := t.chans, folios := t.folios } ∧ ∀ c, (t.chan c).armed = (s.chan c).armed

/-- Only the channels, none of which has been armed, disarmed or trimmed, and the folios have changed. -/
def RecordsOnly (s t : State) : Prop :=
  t = { s with chans := t.chans, folios := t.folios } ∧ ∀ c, (t.chan c).armTrim = (s.chan c).armTrim

theorem ArmingKept.trans {s t u : State} (h : ArmingKept s t) (g : ArmingKept t u) : ArmingKept s u := by
  obtain ⟨h1, h2⟩ := h
  obtain ⟨g1, g2⟩ := g
  refine ⟨?_, fun c => (g2 c).trans (h2 c)⟩
  rw [h1] at g1
  exact g1

theorem RecordsOnly.arming {s t : State} (h : RecordsOnly s t) : ArmingKept s t := ⟨h.1, fun c => congrArg Prod.fst (h.2 c)⟩

theorem RecordsOnly.refl (s : State) : RecordsOnly s s := ⟨rfl, fun _ => rfl⟩

theorem RecordsOnly.trans {s t u : State} (h : RecordsOnly s t) (g : RecordsOnly t u) : RecordsOnly s u := by
  obtain ⟨h1, h2⟩ := h
  obtain ⟨g1, g2⟩ := g
  refine ⟨?_, fun c => (g2 c).trans (h2 c)⟩
  rw [h1] at g1
  exact g1

theorem RecordsOnly.setChan (s : State) (c : Chan) {x : Channel} (hx : x.armTrim = (s.chan c).armTrim) : RecordsOnly s (s.setChan c x) := by
  refine ⟨rfl, fun d => ?_⟩
  by_cases hd : d = c
  · rw [hd, State.chan_setChan_self, hx]
  · rw [State.chan_setChan_ne _ _ _ _ hd]

theorem RecordsOnly.setFolio (s : State) (n : Nat) (x : Folio) : RecordsOnly s (s.setFolio n x) := ⟨rfl, fun _ => rfl⟩

theorem Channel.modF_armTrim (x : Channel) (f : Folder → Folder) : (x.modF f).armTrim = x.armTrim := rfl

theorem Channel.rawOpenStates_armTrim (x : Channel) : x.rawOpenStates.armTrim = x.armTrim := rfl

theorem Channel.ev_armTrim (x : Channel) (type : Byte) (head : Nat) (t : Int) (v : Dword) : (x.ev type head t v).armTrim = x.armTrim := by
  unfold Channel.ev
  split
  · exact x.modF_armTrim _
  · rfl

theorem Channel.unitsOpened_armTrim (x : Channel) (o base : Int) (recNo : BitVec 16) (forme : Nat) :
    (x.unitsOpened o base recNo forme).armTrim = x.armTrim := by
  unfold Channel.unitsOpened
  rw [Channel.modF_armTrim, Channel.ev_armTrim, Channel.rawOpenStates_armTrim, Channel.modF_armTrim]

theorem OnlyVerdicts.armTrim {x y : Channel} (h : OnlyVerdicts x y) : y.armTrim = x.armTrim :=
  (congrArg Channel.armTrim h.same :)

theorem Channel.openUnits_armTrim (x : Channel) (n : Nat) (o base : Int) (recNo : BitVec 16) (forme : Nat) :
    (x.openUnits n o base recNo forme).armTrim = x.armTrim :=
  (OnlyVerdicts.openUnits x n o base recNo forme).armTrim.trans (x.unitsOpened_armTrim o base recNo forme)

theorem State.openQueued_armTrim (s : State) (t : Instant) (y : Channel) : (s.openQueued t y).armTrim = y.armTrim := by
  unfold State.openQueued
  dsimp only
  split <;> rfl

theorem RecordsOnly.purge (s : State) (c : Chan) (t : Nat) : RecordsOnly s (s.purge c t) := by
  obtain ⟨hframe, hchan⟩ := s.purge_lanesOnly c t
  generalize s.purge c t = z at *
  refine ⟨?_, fun d => (congrArg Channel.armTrim (hchan d) :)⟩
  rw [hframe]

theorem RecordsOnly.openRecord (s : State) (c : Chan) (n : Nat) (o base a shift : Int) (pl : Placement) (p : RecPlace) :
    RecordsOnly s (s.openRecord c n o base a shift pl p) := by
  rw [State.openRecord_eq]
  have hx : ((s.chan c).recOpened (s.freeFolio (s.chan c).cfg) o base a shift pl p).armTrim = (s.chan c).armTrim := rfl
  exact (RecordsOnly.setChan s c ((Channel.openUnits_armTrim ..).trans hx)).trans (.setFolio ..)

theorem RecordsOnly.firstRecord (s : State) (c : Chan) (t : Instant) (scale : Int) : RecordsOnly s (s.firstRecord c t scale) := by
  cases hp : s.placeFor c (s.chan c).cfg none with
  | none =>
    have h : s.firstRecord c t scale = s := by
      unfold State.firstRecord
      dsimp only
      rw [hp]
    rw [h]
    exact .refl s
  | some p =>
    rw [State.firstRecord_eq s c t scale p hp]
    dsimp only
    have hclear : RecordsOnly s (s.firstCleared c t) := (RecordsOnly.purge s c (lsbOf t)).trans (.setChan _ c rfl)
    exact (hclear.trans (.openRecord ..)).trans (.setChan _ c (State.openQueued_armTrim ..))

/-- The record of the channel is given up, and its folio free. -/
def State.recordDropped (s : State) (c : Chan) : State :=
  (s.setChan c { s.chan c with recCount := 0, rcd := Rec.reset }).setFolio (s.chan c).rcd.folio Folio.free

theorem RecordsOnly.dropped (s : State) (c : Chan) : RecordsOnly s (s.recordDropped c) :=
  (RecordsOnly.setChan s c (x := { s.chan c with recCount := 0, rcd := Rec.reset }) rfl).trans (.setFolio ..)

theorem RecordsOnly.reopen (s : State) (c : Chan) (t : Instant) : RecordsOnly s (s.reopen c t) := by
  have hopen : ∀ b : Bool, RecordsOnly s (if b then (s.recordDropped c).firstRecord c (s.chan c).armAt s.tb.scale else s) := fun b => by
    cases b with
    | true => exact (RecordsOnly.dropped s c).trans (.firstRecord ..)
    | false => exact .refl s
  unfold State.reopen
  dsimp only
  split
  · split
    · exact .setChan s c rfl
    · exact hopen _
  · exact .refl s

/-- A channel that was armed earlier keeps its record. -/
theorem State.reopen_earlier {s : State} {c : Chan} {t : Instant} (h : (s.chan c).armAt < t) : s.reopen c t = s :=
  if_neg (by rw [decide_eq_false (Nat.not_le.2 h), Bool.and_false]; decide)

/-! ## The record -/

/-- A pending REMAP compares WHEN from `t` on. -/
def State.lifted (s : State) (t : Instant) : State := { s with place := s.place.lift (lsbUp t) }

/-- The records of channels armed at `t` or later have opened again. -/
def State.reopenAll (s0 : State) (t : Instant) : State :=
  (s0.lifted t).forChans (allChans.filter s0.chOn) fun c z => z.reopen c t

/-- The discontinuity record of state `s`. -/
def State.discRecord (s : State) (t : Instant) (cause : BitVec 2) (step : Int) : Insert :=
  { fence := false, inst := lsbOf t, sub := t % lsbUnits, time := s.stamp t, cause := cause.setWidth 3, loop := s.tb.active
    tstate := s.tb.st.code, step := step, newStep := 0, newEpoch := 0, newSite := 0, oldStep := 0, oldEpoch := 0
    oldSite := 0 }

/-- The record is issued: a mark's only where it concerns a channel. -/
def State.discIssued (s : State) (t : Instant) (cause : BitVec 2) : Bool :=
  cause != 2 || allChans.any fun c => s.chOn c && (s.chan c).armedThrough t

/-- A channel whose stream a record enters. -/
def Channel.streamed (r : Insert) (x : Channel) : Channel := { x with merge := { x.merge with ins := x.merge.ins ++ [r] } }

theorem State.discontinuity_eq (s0 : State) (t : Instant) (cause : BitVec 2) (step : Int) :
    s0.discontinuity t cause step =
      let s := s0.reopenAll t
      let u := (s.insertAll t (s.discRecord t cause step)).trimTimebase
      if s.discIssued t cause then u.raise 153 0x40 else u := by
  have hif : ∀ (b : Bool) (z : State), (if b then fun (z : State) => z.raise 153 0x40 else id) z = if b then z.raise 153 0x40 else z := by
    intro b z
    cases b <;> rfl
  exact hif _ _

theorem State.reopenAll_records (s0 : State) (t : Instant) :
    RecordsOnly (s0.lifted t) (s0.reopenAll t) :=
  List.foldlRecOn (motive := fun z => RecordsOnly (s0.lifted t) z) _ _ (.refl _) fun z h c _ => h.trans (.reopen z c t)

theorem State.reopenAll_quiet {s0 : State} {t : Instant} (h : ∀ c, (s0.chan c).armAt < t) : s0.reopenAll t = s0.lifted t := by
  have hfold : ∀ l : List Chan, l.foldl (fun z c => z.reopen c t) (s0.lifted t) = s0.lifted t := by
    intro l
    induction l with
    | nil => rfl
    | cons c l ih =>
      rw [List.foldl_cons, State.reopen_earlier (s := s0.lifted t) (h c)]
      exact ih
  exact hfold _

theorem State.insertAll_records (s : State) (t : Instant) (r : Insert) : RecordsOnly s (s.insertAll t r) :=
  List.foldlRecOn (motive := fun z => RecordsOnly s z) _ _ (.refl _) fun z h c _ => h.trans (.setChan z c rfl)

theorem State.chan_insertAll (s : State) (t : Instant) (r : Insert) (c : Chan) :
    (s.insertAll t r).chan c = if s.chOn c && (s.chan c).armedThrough t then (s.chan c).streamed r else s.chan c := by
  have h := State.chan_forChans_modChan (l := allChans.filter fun c => s.chOn c && (s.chan c).armedThrough t)
    (nodup_allChans.filter _) (Channel.streamed r) s c
  refine Eq.trans h ?_
  simp only [List.mem_filter, mem_allChans, true_and]

theorem State.trimTimebase_records (s : State) : ArmingKept s s.trimTimebase ∧
    ∀ c, (s.trimTimebase.chan c).merge = (s.chan c).merge := by
  obtain ⟨cs, heq, hcs⟩ := s.trimTimebase_eq
  rw [heq]
  refine ⟨⟨rfl, fun c => ?_⟩, fun c => ?_⟩
  · rcases hcs c with h | h
    · exact (congrArg Channel.armed h :)
    · exact (congrArg Channel.armed h :)
  · rcases hcs c with h | h
    · exact (congrArg Channel.merge h :)
    · exact (congrArg Channel.merge h :)

/-- What a discontinuity record leaves. -/
theorem State.discontinuity_frame (s0 : State) (t : Instant) (cause : BitVec 2) (step : Int) : ∃ u l,
    ArmingKept (s0.lifted t) u ∧
    s0.discontinuity t cause step = { u with truss := { u.truss with incoming := u.truss.incoming ++ l } } := by
  rw [State.discontinuity_eq]
  dsimp only
  obtain ⟨s, hs⟩ : ∃ s, s = s0.reopenAll t := ⟨_, rfl⟩
  have hrec := s0.reopenAll_records t
  rw [← hs] at hrec ⊢
  have hu := (hrec.trans (s.insertAll_records t (s.discRecord t cause step))).arming.trans (State.trimTimebase_records _).1
  split
  · obtain ⟨l, hl⟩ := ((s.insertAll t (s.discRecord t cause step)).trimTimebase).raise_eq 153 0x40
    exact ⟨_, l, hu, hl⟩
  · exact ⟨_, [], hu, by rw [List.append_nil]⟩

/-- Whose stream the record enters, where no channel is armed at its instant or later. -/
theorem State.discontinuity_quiet {s0 : State} {t : Instant} (cause : BitVec 2) (step : Int) (h : ∀ c, (s0.chan c).armAt < t)
    (hmode : s0.pwr.mode ≠ .reset) :
    ((cause ≠ 2 ∨ ∃ c, Covered s0 c t) → Reported (s0.discontinuity t cause step) 153 0x40) ∧
    ∀ c, ((s0.discontinuity t cause step).chan c).merge.ins =
      if s0.chOn c && (s0.chan c).armedThrough t then (s0.chan c).merge.ins ++ [s0.discRecord t cause step] else (s0.chan c).merge.ins := by
  have hz : ∃ z, z = s0.lifted t := ⟨_, rfl⟩
  obtain ⟨z, hz⟩ := hz
  rw [State.discontinuity_eq, State.reopenAll_quiet h, ← hz]
  dsimp only
  have hrecord : z.discRecord t cause step = s0.discRecord t cause step := by rw [hz]; rfl
  have hon : ∀ c, z.chOn c = s0.chOn c := fun c => by rw [hz]; rfl
  have hsame : ∀ c, z.chan c = s0.chan c := fun c => by rw [hz]; rfl
  have hframe := z.insertAll_records t (z.discRecord t cause step)
  obtain ⟨htrims, hmerge⟩ := State.trimTimebase_records (z.insertAll t (z.discRecord t cause step))
  have hins := z.chan_insertAll t (z.discRecord t cause step)
  obtain ⟨v, hv⟩ : ∃ v, v = z.insertAll t (z.discRecord t cause step) := ⟨_, rfl⟩
  rw [← hv] at htrims hmerge hins hframe ⊢
  obtain ⟨u, hu⟩ : ∃ u, u = v.trimTimebase := ⟨_, rfl⟩
  rw [← hu] at htrims hmerge ⊢
  have humode : u.pwr.mode ≠ .reset := by
    rw [htrims.1, hframe.1, hz]
    exact hmode
  have hchan : ∀ c, (u.chan c).merge.ins =
      if s0.chOn c && (s0.chan c).armedThrough t then (s0.chan c).merge.ins ++ [s0.discRecord t cause step] else (s0.chan c).merge.ins := by
    intro c
    rw [hmerge, hins, hrecord, hon, hsame]
    split <;> rfl
  refine ⟨fun hissued => ?_, fun c => ?_⟩
  · have hdone : z.discIssued t cause = true := by
      unfold State.discIssued
      rcases hissued with hc | ⟨c, hcon, harm⟩
      · rw [bne_iff_ne.2 hc, Bool.true_or]
      · have hany : (allChans.any fun c => z.chOn c && (z.chan c).armedThrough t) = true :=
          List.any_eq_true.2 ⟨c, mem_allChans c, by
            rw [hon, hsame, hcon, harm]; rfl⟩
        rw [hany, Bool.or_true]
    rw [if_pos hdone]
    exact State.reported_raise u 153 0x40 humode (by decide)
  · split
    · rw [State.chan_raise]
      exact hchan c
    · exact hchan c

end Sys2Proof.Machine
end

section
/-! The theorem that settles O42: faults and locks of the two loops, and the switch-over. -/

namespace Sys2Proof.Machine

open Sys2Proof.Safety

theorem abField_of_small {d : Int} (h : |d| ≤ 32767) : abField d = BitVec.ofInt 16 d := by
  obtain ⟨h1, h2⟩ := abs_le.1 h
  unfold abField
  rw [min_eq_left h2, max_eq_right h1]

/-- The discontinuity record of a change of scale by `step` at the present instant. -/
theorem DiscIssued.of_discontinuity {s z : State} (cause : BitVec 2) (step : Int) (hmode : z.pwr.mode ≠ .reset)
    (hins : ∀ c, (z.chan c).merge.ins = (s.chan c).merge.ins) (hquiet : ∀ c, (z.chan c).armAt < z.now)
    (hcov : ∀ c, Covered z c z.now ↔ Covered s c z.now) : DiscIssued s (z.discontinuity z.now cause step) (cause.setWidth 3) step := by
  obtain ⟨htold, hput⟩ := State.discontinuity_quiet (s0 := z) (t := z.now) cause step hquiet hmode
  obtain ⟨u, l, hrec, heq⟩ := z.discontinuity_frame z.now cause step
  have hnow : (z.discontinuity z.now cause step).now = z.now := by rw [heq, hrec.1]; rfl
  have hstamp : (z.discontinuity z.now cause step).stamp z.now = z.stamp z.now := by rw [heq, hrec.1]; rfl
  have hcov' : ∀ c, Covered s c z.now ↔ (z.chOn c && (z.chan c).armedThrough z.now) = true := fun c => by
    rw [← hcov]
    unfold Covered
    rw [Bool.and_eq_true]
  generalize z.discontinuity z.now cause step = t at *
  have hcause : cause.setWidth 3 ≠ 2 → cause ≠ 2 := fun h hh => h (by rw [hh]; rfl)
  refine ⟨fun h => htold ?_, fun c => ⟨fun hc => ?_, fun hc => ?_⟩⟩
  · rw [hnow] at h
    exact h.imp hcause fun ⟨c, hc⟩ => ⟨c, (hcov c).2 hc⟩
  · rw [hnow] at hc ⊢
    refine ⟨z.discRecord z.now cause step, ?_, rfl, rfl, rfl, rfl, hstamp.symm⟩
    rw [hput, if_pos ((hcov' c).1 hc), hins]
  · rw [hnow] at hc
    rw [hput, if_neg fun h => hc ((hcov' c).2 h), hins]

theorem armed_before_quiet {s : State} {t : Instant} (h : Quiet s t) (c : Chan) : (s.chan c).armAt < t := by
  have := (h c).1
  omega

/-- The timebase once the roles of its loops have changed. -/
def Timebase.switched (tb : Timebase) (m : Int) : Timebase :=
  { tb with active := !tb.active, sbyOk := false, switches := satAdd tb.switches 1, switchDue := none
            abDiff := abField (-m), step := BitVec.ofInt 32 m }

/-- The switch-over, told, before the scale moves or slews. -/
def State.switched (s : State) (failed : Bool) (m : Int) : State :=
  (s.modTb fun tb => tb.switched m).raise 153 (0x08 ||| loopFaultBit failed)

theorem State.switched_spec (s : State) (failed : Bool) (m : Int) (hmode : s.pwr.mode ≠ .reset) :
    ∃ l, s.switched failed m = { s with tb := s.tb.switched m, truss := { s.truss with incoming := s.truss.incoming ++ l } } ∧
      Reported (s.switched failed m) 153 (0x08 ||| loopFaultBit failed) := by
  obtain ⟨l, hl⟩ := (s.modTb fun tb => tb.switched m).raise_eq 153 (0x08 ||| loopFaultBit failed)
  exact ⟨l, hl, State.reported_raise _ 153 _ hmode (by cases failed <;> decide)⟩

theorem State.switchOver_eq {s : State} {a : Instant} {failed : Bool} {from_ : Instant} (m : Int) (hdue : s.tb.switchDue = some (failed, from_))
    (hedge : s.firstEdge s.tb.anchorP from_ (max s.now a) = true) :
    s.switchOver a m = if s.tb.slewPolicy && (s.tb.st == .locked || s.tb.st == .slew) then
      (((s.at_ a).switched failed m).trimTimebase.modTb fun tb =>
        { tb with st := if s.tb.slewLeft (max s.now a) + m = 0 then .locked else .slew, slewRem := s.tb.slewLeft (max s.now a) + m
                  slewStart := max s.now a }).tbApply
    else (((s.at_ a).switched failed m).modTb fun tb => { tb with scale := tb.scale + m }).discontinuity (max s.now a) 1 m := by
  unfold State.switchOver
  dsimp only
  rw [State.at_tb, hdue]
  exact if_neg (by rw [show (s.at_ a).firstEdge s.tb.anchorP from_ (s.at_ a).now = true from hedge]; decide)

end Sys2Proof.Machine

namespace Sys2Proof.Proofs

open Sys2Proof.Machine Sys2Proof.Safety

section Switch
variable {s : State} {a : Instant} {failed : Bool} {from_ : Instant} (m : Int) (hmode : s.pwr.mode ≠ .reset)
  (hdue : s.tb.switchDue = some (failed, from_)) (hedge : s.firstEdge s.tb.anchorP from_ (max s.now a) = true)
include hmode hdue hedge

/-- A switch-over that moves the scale. -/
theorem scaleSwitched (h : s.tb.cfg.getLsbD 8 = false ∨ s.tb.st ≠ .locked ∧ s.tb.st ≠ .slew) : ∃ t, exec (.switchOver a m) s = .next t ∧
    (t.now = max s.now a ∧ t.mem = s.mem ∧ t.tb = { s.tb.switched m with scale := s.tb.scale + m }) ∧
    Reported t 153 (0x08 ||| loopFaultBit failed) ∧ (Quiet s t.now → DiscIssued s t 1 m) := by
  let z : State := ((s.at_ a).switched failed m).modTb fun tb => { tb with scale := tb.scale + m }
  have hcond : ¬(s.tb.slewPolicy && (s.tb.st == .locked || s.tb.st == .slew)) = true := by
    unfold Timebase.slewPolicy
    rcases h with h | ⟨h1, h2⟩
    · rw [h]; exact Bool.false_ne_true
    · rw [beq_false_of_ne h1, beq_false_of_ne h2, Bool.or_self, Bool.and_false]; decide
  have hrow : s.switchOver a m = z.discontinuity (max s.now a) 1 m := (State.switchOver_eq m hdue hedge).trans (if_neg hcond)
  obtain ⟨l, hl, htold⟩ := (s.at_ a).switched_spec failed m hmode
  have hz : z = { s.at_ a with
      tb := { s.tb.switched m with scale := s.tb.scale + m }
      truss := { s.truss with incoming := s.truss.incoming ++ l } } :=
    congrArg (fun w : State => w.modTb fun tb => { tb with scale := tb.scale + m }) hl
  have htoldz : Reported z 153 (0x08 ||| loopFaultBit failed) := htold.of_truss_eq rfl
  generalize z = z at hz hrow htoldz
  have hznow : z.now = max s.now a := by rw [hz]; rfl
  have hchan : ∀ c, z.chan c = s.chan c := fun c => by rw [hz]; rfl
  have hdisc := fun hquiet : Quiet s z.now => DiscIssued.of_discontinuity (s := s) (z := z) 1 m (by rw [hz]; exact hmode)
    (fun c => by rw [hchan]) (fun c => by rw [hchan]; exact armed_before_quiet hquiet c)
    (fun c => by unfold Covered; rw [hchan, show z.chOn c = s.chOn c by rw [hz]; rfl])
  obtain ⟨u, k, hrec, heq⟩ := z.discontinuity_frame z.now 1 m
  rw [hznow] at hdisc heq hrec
  rw [heq] at hrow hdisc
  have htoldu : Reported u 153 (0x08 ||| loopFaultBit failed) := htoldz.of_truss_eq (by rw [hrec.1]; rfl)
  obtain ⟨r, hr, hb⟩ := htoldu
  refine ⟨_, congrArg Host.Outcome.next hrow, ⟨?_, ?_, ?_⟩, ⟨r, List.mem_append_left _ hr, hb⟩, fun hquiet => hdisc ?_⟩
  · rw [hrec.1]; exact hznow
  · rw [hrec.1, hz]; rfl
  · rw [hrec.1, hz]; rfl
  · rw [hrec.1] at hquiet
    rw [← hznow]
    exact hquiet

/-- A switch-over that is slewed away. -/
theorem slewSwitched (hpolicy : s.tb.cfg.getLsbD 8 = true) (hst : s.tb.st = .locked) (hm : m ≠ 0) : ∃ t, exec (.switchOver a m) s = .next t ∧
    (t.now = max s.now a ∧ t.mem = s.mem ∧ t.tb = { s.tb.switched m with st := .slew, slewRem := m, slewStart := max s.now a }) ∧
    Reported t 153 (0x08 ||| loopFaultBit failed) := by
  have hcond : (s.tb.slewPolicy && (s.tb.st == .locked || s.tb.st == .slew)) = true := by
    unfold Timebase.slewPolicy
    rw [hpolicy, hst]
    rfl
  have hleft : s.tb.slewLeft (max s.now a) + m = m := by
    unfold Timebase.slewLeft
    rw [hst, if_neg (by decide), Int.zero_add]
  have hrow := (State.switchOver_eq m hdue hedge).trans (if_pos hcond)
  rw [hleft, if_neg hm] at hrow
  obtain ⟨l, hl, htold⟩ := (s.at_ a).switched_spec failed m hmode
  obtain ⟨cs, hcs, -⟩ := ((s.at_ a).switched failed m).trimTimebase_eq
  rw [hcs] at hrow
  have hnone : ∀ w : State, w.tb.st = .slew → w.tbApply = w := fun w hw => by
    unfold State.tbApply
    split
    · rfl
    · exact if_neg (by rw [hw]; exact Bool.false_ne_true)
  rw [hnone _ rfl] at hrow
  refine ⟨_, congrArg Host.Outcome.next hrow, ⟨?_, ?_, ?_⟩, htold.of_truss_eq rfl⟩
  · rw [hl]; rfl
  · rw [hl]; rfl
  · rw [hl]; rfl

end Switch

/-- Settles O42: a fault of the active loop asks for the other one or is a loss; the switch-over moves the scale with a record. -/
theorem loopSwitches : Obligations.LoopSwitches := by
  intro s a hmode fault
  refine ⟨fun hst hok hdue => ?_, fun hst hok => ?_, fun hen => ?_, fun ab hen hoff hcoast hqual hab => ?_, fun failed from_ m hdue hedge => ?_⟩
  · have hrow : (s.at_ a).activeFault = _ := (if_neg hst).trans (if_pos hok)
    refine ⟨_, congrArg Host.Outcome.next hrow, ?_⟩
    have hnone : (s.tb.switchDue <|> some (s.tb.active, max s.now a)) = some (s.tb.active, max s.now a) := by rw [hdue]; rfl
    exact congrArg (fun d => ({ s with now := max s.now a, tb := { s.tb with switchDue := d } } : State)) hnone
  · have hoff : s.tb.st ≠ .off := by rcases hst with h | h | h <;> rw [h] <;> decide
    have hrow : (s.at_ a).activeFault = _ :=
      (if_neg hoff).trans ((if_neg (by rw [State.at_tb, hok]; decide)).trans (if_pos ((Timebase.engaged_iff s.tb).2 hst)))
    obtain ⟨-, htb, htold, hmem, -⟩ := State.declareLoss_spec (s := s.at_ a) (s.at_ a).lastEdge 153 (loopFaultBit s.tb.active) hmode
      (by cases s.tb.active <;> decide)
    refine ⟨_, congrArg Host.Outcome.next hrow, ?_, ?_, htold, ?_, ?_, hmem⟩
    all_goals exact (congrArg _ htb).trans rfl
  · have hrow : (s.at_ a).standbyFault = ((s.at_ a).modTb fun tb => { tb with sbyOk := false }).raise 153 (loopFaultBit !s.tb.active) :=
      if_pos hen
    have honly : OnlyTimebase s ((s.at_ a).modTb fun tb => { tb with sbyOk := false }) := rfl
    refine ⟨_, congrArg Host.Outcome.next hrow, OnlyTimebase.raise honly _ _, State.raise_tb .., State.reported_raise _ 153 _ hmode ?_⟩
    cases s.tb.active <;> decide
  · have hrow : s.standbyLock a ab = (s.at_ a).modTb fun tb => { tb with sbyOk := true, abDiff := abField ab } := by
      refine if_pos ?_
      rw [State.at_tb, show s.tb.sbyEn = true from hen, bne_iff_ne.2 hoff, bne_iff_ne.2 hcoast, bne_iff_ne.2 hqual]
      rfl
    refine ⟨_, congrArg Host.Outcome.next hrow, ?_⟩
    unfold State.modTb
    rw [abField_of_small hab]
    rfl
  · intro base
    refine ⟨fun h => ?_, fun hpolicy hst hm => ?_⟩
    · obtain ⟨t, hexec, ⟨hnow, hmem, htb⟩, htold, hdisc⟩ := scaleSwitched m hmode hdue hedge h
      refine ⟨t, hexec, ⟨hnow, ?_, ?_, ?_, ?_, ?_, htold, hmem⟩, ?_, ?_, hdisc⟩
      all_goals rw [htb]
      all_goals rfl
    · obtain ⟨t, hexec, ⟨hnow, hmem, htb⟩, htold⟩ := slewSwitched m hmode hdue hedge hpolicy hst hm
      refine ⟨t, hexec, ⟨hnow, ?_, ?_, ?_, ?_, ?_, htold, hmem⟩, ?_, ?_, ?_, by rw [htb, hnow]⟩
      all_goals rw [htb]
      all_goals rfl

end Sys2Proof.Proofs
end

section
/-! The theorem that settles O39: the epoch mark. -/

namespace Sys2Proof.Machine

open Sys2Proof.Safety

/-! ## The edge at which a mark takes effect (R102, R104) -/

theorem Timebase.refP_ge (tb : Timebase) : 10240 ≤ tb.refP := by
  have hn : 20 ≤ tb.fbN := by
    have hall : ∀ n < 4, 20 ≤ [500, 200, 50, 20].getD n 500 := by decide
    exact hall _ (Nat.mod_lt _ (by decide))
  unfold Timebase.refP vcoLsb
  omega

/-- The first edge, as R102 and R104 say it: near the grid, and the edge before it too early. -/
theorem State.firstEdge_locked {s : State} (from_ t : Instant) (hst : s.tb.st = .locked) (hjump : s.tb.jump = none) :
    s.firstEdge s.tb.refP from_ t = true ↔ from_ ≤ t ∧ ∃ k : Int,
      |(t : Int) + s.tb.scale * 25 - k * (s.tb.refP * 25 : Int)| ≤ 192 ∧
      (k - 1) * (s.tb.refP * 25 : Int) - s.tb.scale * 25 - 192 < from_ := by
  have htol : s.tb.refTol t = 192 := by
    unfold Timebase.refTol
    rw [hst, hjump]
    rfl
  have hleft : s.tb.slewLeft t = 0 := by
    unfold Timebase.slewLeft
    rw [hst]
    rfl
  have hengaged : s.tb.engaged = true := by
    unfold Timebase.engaged
    rw [hst]
    rfl
  have hp := s.tb.refP_ge
  obtain ⟨p, hpd⟩ : ∃ p : Int, p = (s.tb.refP * 25 : Int) := ⟨_, rfl⟩
  have hcast : ((s.tb.refP * lsbUnits : Nat) : Int) = p := by
    rw [hpd]
    unfold lsbUnits
    omega
  have hpos : 256000 ≤ p := by omega
  obtain ⟨x, hx⟩ : ∃ x : Int, x = (t : Int) + s.tb.scale * 25 := ⟨_, rfl⟩
  obtain ⟨k, e, hke, hlo, hhi, hgrid⟩ : ∃ k e : Int, x = k * p + e ∧ -p < 2 * e ∧ 2 * e ≤ p ∧ s.gridErr s.tb.refP t = e := by
    have hsplit : x % p = x - p * (x / p) := Int.emod_def x p
    have h0 := Int.emod_nonneg x (show p ≠ 0 by omega)
    have h1 := Int.emod_lt_of_pos x (show 0 < p by omega)
    have hgrid : s.gridErr s.tb.refP t = if 2 * (x % p) ≤ p then x % p else x % p - p := by
      unfold State.gridErr
      dsimp only
      rw [hcast, hleft, Int.add_zero, hx]
      rfl
    by_cases hr : 2 * (x % p) ≤ p
    · rw [if_pos hr] at hgrid
      exact ⟨x / p, x % p, by linarith [Int.mul_comm p (x / p)], by omega, hr, hgrid⟩
    · rw [if_neg hr] at hgrid
      exact ⟨x / p + 1, x % p - p, by linarith [Int.mul_comm p (x / p), Int.add_mul (x / p) 1 p], by omega, by omega, hgrid⟩
  have hedge : s.firstEdge s.tb.refP from_ t = true ↔ from_ ≤ t ∧ |e| ≤ 192 ∧ (t : Int) - e - p - 192 < from_ := by
    unfold State.firstEdge
    dsimp only
    rw [htol, hgrid, hcast, hengaged, Bool.and_eq_true, decide_eq_true_iff, Bool.not_true, Bool.false_or, Bool.and_eq_true,
      decide_eq_true_iff, decide_eq_true_iff]
    refine and_congr_right fun _ => and_congr_left fun _ => ?_
    rw [abs_le]
    omega
  rw [hedge, ← hpd, ← hx]
  refine and_congr_right fun _ => ⟨fun ⟨h1, h2⟩ => ⟨k, ?_, ?_⟩, fun ⟨j, h1, h2⟩ => ?_⟩
  · rw [show x - k * p = e by linarith]
    exact h1
  · linarith [Int.sub_mul k 1 p]
  · have hjk : j = k := by
      rw [abs_le] at h1
      by_contra hne
      rcases lt_or_gt_of_ne hne with h | h
      · have : p ≤ (k - j) * p := le_mul_of_one_le_left (by omega) (by omega)
        linarith [Int.sub_mul k j p]
      · have : p ≤ (j - k) * p := le_mul_of_one_le_left (by omega) (by omega)
        linarith [Int.sub_mul j k p]
    rw [hjk] at h1 h2
    rw [show x - k * p = e by linarith] at h1
    exact ⟨h1, by linarith [Int.sub_mul k 1 p]⟩

/-! ## The restart of SPAN (R105) -/

/-- One change of every channel of a list changes the channels alone. -/
theorem State.forChans_modChan_eq (s : State) (l : List Chan) (f : Channel → Channel) :
    ∃ cs, (s.forChans l fun c z => z.modChan c f) = { s with chans := cs } :=
  List.foldlRecOn (motive := fun z : State => ∃ cs, z = { s with chans := cs }) l (fun z c => z.modChan c f) ⟨s.chans, rfl⟩ fun z h c _ => by
    obtain ⟨cs, rfl⟩ := h
    exact ⟨_, rfl⟩

/-- Instants near the one at which SPAN restarts stay on their side of it. -/
def NearSame (s : State) (x y : Channel) : Prop :=
  y.armed = x.armed ∧ y.merge = x.merge ∧ (x.armAt + 51200 ≤ s.now → y.armAt = x.armAt) ∧
    (x.armAt + 51200 ≤ s.now → (∀ d ∈ x.disarmAt.toList ++ x.disarmNext.toList, d + 51200 ≤ s.now ∨ s.now ≤ d) →
      y.armedThrough s.now = x.armedThrough s.now)

theorem NearSame.refl (s : State) (x : Channel) : NearSame s x x := ⟨rfl, rfl, fun _ => rfl, fun _ _ => rfl⟩

/-- The instants that a stretch of `d` from `e` on moves. -/
def stretched (e d t : Nat) : Nat := if e ≤ t then t + d else t

/-- An instant that lies a span cycle before the restart, or not before it, stays on its side. -/
theorem stretched_side {e d n u : Nat} (hn : e + d = n) (hd : d + 192 < 51200) (hu : u + 51200 ≤ n ∨ n ≤ u) :
    n ≤ stretched e d u ↔ n ≤ u := by
  unfold stretched
  split <;> omega

theorem Channel.stretch_lastDisarm (x : Channel) (e d : Nat) : (x.stretch e d).lastDisarm = x.lastDisarm.map (stretched e d) := by
  unfold Channel.lastDisarm
  rw [show (x.stretch e d).armNext = x.armNext.map fun p => (stretched e d p.1, p.2) from rfl, Option.isSome_map]
  split <;> rfl

theorem Channel.lastDisarm_mem {x : Channel} {d : Nat} (h : x.lastDisarm = some d) : d ∈ x.disarmAt.toList ++ x.disarmNext.toList := by
  unfold Channel.lastDisarm at h
  split at h
  · exact List.mem_append_right _ (Option.mem_toList.2 h)
  · exact List.mem_append_left _ (Option.mem_toList.2 h)

theorem NearSame.stretch {s : State} {e d : Nat} (x : Channel) (hnow : e + d = s.now) (hd : d + 192 < 51200) :
    NearSame s x (x.stretch e d) := by
  have harm : x.armAt + 51200 ≤ s.now → (x.stretch e d).armAt = x.armAt := fun h => if_neg (by omega)
  refine ⟨rfl, rfl, harm, fun hearly hquiet => ?_⟩
  unfold Channel.armedThrough
  rw [harm hearly, Channel.stretch_lastDisarm, show (x.stretch e d).armed = x.armed from rfl]
  cases h : x.lastDisarm with
  | none => rfl
  | some u =>
    have hside := stretched_side hnow hd (hquiet u (Channel.lastDisarm_mem h))
    exact congrArg (fun b => decide (x.armAt < s.now) && (x.armed || b)) (decide_eq_decide.2 hside)

theorem State.restartSpan_spec (s : State) : ∃ cs : Vector Channel 96, s.restartSpan = { s with chans := cs } ∧
    ∀ c : Chan, NearSame s (s.chan c) cs[c] := by
  unfold State.restartSpan
  dsimp only
  obtain ⟨e, he⟩ : ∃ e, e = s.span.edge (s.span.no s.now) := ⟨_, rfl⟩
  rw [← he]
  split
  · exact ⟨s.chans, rfl, fun c => .refl s _⟩
  · next h =>
    obtain ⟨h1, h2⟩ := not_or.1 h
    obtain ⟨n, hn⟩ : ∃ n : Nat, n = s.now := ⟨_, rfl⟩
    rw [← hn] at h1 h2
    have hlong : ¬51200 ≤ n - e + 192 := h2
    have hshort : ¬n - e ≤ 192 := h1
    obtain ⟨cs, hcs⟩ := s.forChans_modChan_eq allChans fun x => x.stretch e (s.now - e)
    have hchan := fun c => (State.chan_forChans_modChan nodup_allChans (fun x => x.stretch e (s.now - e)) s c).trans (if_pos (mem_allChans c))
    rw [hcs] at hchan ⊢
    refine ⟨cs, rfl, fun c => ?_⟩
    rw [show cs[c] = (s.chan c).stretch e (s.now - e) from hchan c]
    exact .stretch _ (by rw [← hn]; omega) (by rw [← hn]; omega)

/-! ## Pending fences at a mark (Table 10.3) -/

/-- A pending REMAP that a mark cancels. -/
def cancelled (f : FencePend) : Bool := f.isRemap && f.when_ != 0

theorem Place.cancel_spec (p : Place) (l : Nat) : (p.cancel.lift l).pend = p.pend.filter (fun f => !cancelled f) ∧
    ((∃ f ∈ p.pend, cancelled f = true) → (p.cancel.lift l).rCancel = true) ∧ (p.cancel.lift l).epoch = p.epoch := by
  have hcancel : p.cancel = if p.pend.any cancelled then { p with pend := p.pend.filter (fun f => !cancelled f), rCancel := true } else p := rfl
  have hpend : p.cancel.pend = p.pend.filter (fun f => !cancelled f) := by
    rw [hcancel]
    split
    · rfl
    · next h =>
      refine (List.filter_eq_self.2 fun f hf => ?_).symm
      rw [Bool.not_eq_true']
      exact Bool.eq_false_iff.2 fun hc => h (List.any_eq_true.2 ⟨f, hf, hc⟩)
  have hlift : (p.cancel.lift l).pend = p.cancel.pend := by
    refine (List.map_congr_left fun f hf => ?_).trans (List.map_id _)
    rw [hpend] at hf
    have hno : cancelled f = false := by simpa using (List.mem_filter.1 hf).2
    exact if_neg (by rw [show (f.isRemap && f.when_ != 0) = false from hno]; decide)
  refine ⟨hlift.trans hpend, fun ⟨f, hf, hc⟩ => ?_, ?_⟩
  · change p.cancel.rCancel = true
    rw [hcancel, if_pos (List.any_eq_true.2 ⟨f, hf, hc⟩)]
  · change p.cancel.epoch = p.epoch
    rw [hcancel]
    split <;> rfl

/-! ## A staged change of the timebase (R139) -/

/-- What a staged change leaves of the timebase. -/
theorem State.tbApply_spec (s : State) : ∃ tb, s.tbApply = { s with tb := tb } ∧ tb.scale = s.tb.scale ∧ tb.st = s.tb.st ∧
    tb.marked = s.tb.marked ∧ tb.marks = s.tb.marks ∧ tb.slewRem = s.tb.slewRem ∧ tb.lfsrA = s.tb.lfsrA ∧ tb.lfsrB = s.tb.lfsrB := by
  unfold State.tbApply
  split
  · exact ⟨s.tb, rfl, rfl, rfl, rfl, rfl, rfl, rfl, rfl⟩
  · split
    · exact ⟨_, rfl, rfl, rfl, rfl, rfl, rfl, rfl, rfl⟩
    · exact ⟨s.tb, rfl, rfl, rfl, rfl, rfl, rfl, rfl, rfl⟩

theorem DiscIssued.of_tb {s t : State} {tb : Timebase} {cause : BitVec 3} {step : Int} (h : DiscIssued s t cause step)
    (htb : tb.scale = t.tb.scale) : DiscIssued s { t with tb := tb } cause step := by
  have hstamp : ({ t with tb := tb } : State).stamp t.now = t.stamp t.now := by
    unfold State.stamp
    rw [htb]
  obtain ⟨h1, h2⟩ := h
  refine ⟨fun hc => (h1 hc).of_truss_eq rfl, fun c => ⟨fun hc => ?_, (h2 c).2⟩⟩
  obtain ⟨r, g1, g2, g3, g4, g5, g6⟩ := (h2 c).1 hc
  exact ⟨r, g1, g2, g3, g4, g5, g6.trans hstamp.symm⟩

/-! ## The mark -/

/-- The timebase from a mark on. -/
def Timebase.markedAt (tb : Timebase) (now : Instant) : Timebase :=
  { tb.seedLfsr now with
    scale := -(lsbOf now : Int), marked := true, marks := satAdd tb.marks 1, st := .locked, slewRem := 0
    offset := 0, glide := none, divAt := now, jump := none }

/-- The state in which the record of a mark is issued. -/
def State.marked (s : State) : State :=
  let s1 := s.restartSpan.modTb fun tb => tb.markedAt s.now
  { s1 with place := s1.place.cancel }.markSynths s.now

theorem State.marked_spec (s : State) : ∃ (cs : Vector Channel 96) (sy : Vector SynthSt 10),
    s.marked = { s with chans := cs, tb := { s.tb.markedAt s.now with swref := s.now }, place := s.place.cancel, synths := sy } ∧
    ∀ c : Chan, NearSame s (s.chan c) cs[c] := by
  obtain ⟨cs, heq, hcs⟩ := s.restartSpan_spec
  refine ⟨cs, s.marked.synths, ?_, hcs⟩
  unfold State.marked
  rw [heq]
  rfl

theorem State.epochMark_row {s : State} {a : Instant} {v : Instant} (hmark : s.sync.mark = some v) : s.epochMark a =
    if s.firstEdge s.tb.refP (v + 32 * 64000) (max s.now a) = true then
      if s.tb.st = .locked ∨ s.tb.st = .slew then
        ((({ s.at_ a with sync := { s.sync with mark := none } } : State).marked.discontinuity (max s.now a) 2 (-(s.stamp (max s.now a))))).tbApply
      else ({ s.at_ a with sync := { s.sync with mark := none } } : State).raise 153 0x10
    else s.at_ a := by
  unfold State.epochMark
  rw [hmark]
  dsimp only
  have hedge : (s.at_ a).firstEdge (s.at_ a).tb.refP (v + 32 * 64000) (s.at_ a).now = s.firstEdge s.tb.refP (v + 32 * 64000) (max s.now a) := rfl
  rw [hedge]
  cases s.firstEdge s.tb.refP (v + 32 * 64000) (max s.now a) <;> rfl

end Sys2Proof.Machine

namespace Sys2Proof.Proofs

open Sys2Proof.Machine Sys2Proof.Safety

/-- A mark in LOCKED or SLEW. -/
theorem markTaken {s : State} {a v : Instant} (hmark : s.sync.mark = some v) (hmode : s.pwr.mode ≠ .reset)
    (hedge : s.firstEdge s.tb.refP (v + 32 * 64000) (max s.now a) = true) (hst : s.tb.st = .locked ∨ s.tb.st = .slew) :
    ∃ t, exec (.epochMark a) s = .next t ∧ t.now = max s.now a ∧
      t.stamp t.now = 0 ∧ t.tb.st = .locked ∧ t.tb.marked = true ∧ t.tb.marks = satAdd s.tb.marks 1 ∧ t.tb.slewRem = 0 ∧
      Seeded s t ∧ t.sync = { s.sync with mark := none } ∧ (Quiet s (max s.now a) → DiscIssued s t 2 (-(s.stamp (max s.now a)))) ∧
      t.place.pend = s.place.pend.filter (fun f => !(f.isRemap && f.when_ != 0)) ∧
      ((∃ f ∈ s.place.pend, f.isRemap = true ∧ f.when_ ≠ 0) → t.place.rCancel = true) ∧
      t.place.epoch = s.place.epoch ∧ t.mem = s.mem ∧ ∀ c, (t.chan c).armed = (s.chan c).armed := by
  let z : State := { s.at_ a with sync := { s.sync with mark := none } }
  have hrow := (State.epochMark_row (a := a) hmark).trans ((if_pos hedge).trans (if_pos hst))
  obtain ⟨cs, sy, heq, hcs⟩ := z.marked_spec
  obtain ⟨w, hw⟩ : ∃ w, w = z.marked := ⟨_, rfl⟩
  have hwnow : w.now = max s.now a := by rw [hw, heq]; rfl
  have hdisc : Quiet s (max s.now a) → _ := fun hquiet => DiscIssued.of_discontinuity (s := s) (z := w) 2 (-(s.stamp (max s.now a)))
    (by rw [hw, heq]; exact hmode) (fun c => by rw [hw, heq]; exact congrArg Merge.ins (hcs c).2.1)
    (fun c => by
      rw [hwnow, hw, heq]
      exact lt_of_eq_of_lt ((hcs c).2.2.1 (hquiet c).1) (armed_before_quiet hquiet c))
    (fun c => by
      unfold Covered
      rw [hwnow, hw, heq]
      exact and_congr Iff.rfl (by
        rw [← show z.now = max s.now a from rfl]
        exact iff_of_eq (congrArg (· = true) ((hcs c).2.2.2 (hquiet c).1 (hquiet c).2))))
  have harmed : ∀ c, (w.chan c).armed = (s.chan c).armed := fun c => by rw [hw, heq]; exact (hcs c).1
  obtain ⟨u, l, ⟨hu, huarm⟩, hframe⟩ := w.discontinuity_frame (max s.now a) 2 (-(s.stamp (max s.now a)))
  rw [hwnow] at hdisc
  rw [show z.marked = w from hw.symm, hframe] at hrow
  rw [hframe] at hdisc
  obtain ⟨tb, htb, h1, h2, h3, h4, h5, h6, h7⟩ :=
    State.tbApply_spec { u with truss := { u.truss with incoming := u.truss.incoming ++ l } }
  have hutb : u.tb = { s.tb.markedAt (max s.now a) with swref := max s.now a } := by rw [hu, hw, heq]; rfl
  have huplace : u.place = (s.place.cancel).lift (lsbUp (max s.now a)) := by rw [hu, hw, heq]; rfl
  have hunow : u.now = max s.now a := by rw [hu]; exact hwnow
  obtain ⟨hp1, hp2, hp3⟩ := s.place.cancel_spec (lsbUp (max s.now a))
  rw [show State.tb _ = u.tb from rfl, hutb] at h1 h2 h3 h4 h5 h6 h7
  refine ⟨_, congrArg Host.Outcome.next (hrow.trans htb), hunow, ?_, h2, h3, h4, h5, ⟨h6, h7⟩, ?_, fun hquiet => DiscIssued.of_tb (hdisc hquiet) ?_,
    ?_, ?_, ?_, ?_, fun c => (huarm c).trans (harmed c)⟩
  · change (lsbOf u.now : Int) + tb.scale = 0
    rw [hunow, h1]
    exact Int.add_right_neg _
  · change u.sync = _
    rw [hu, hw, heq]
    rfl
  · rw [h1, show State.tb _ = u.tb from rfl, hutb]
  · change u.place.pend = _
    rw [huplace]
    exact hp1
  · change _ → u.place.rCancel = true
    rw [huplace]
    exact fun ⟨f, hf, hr, hn⟩ => hp2 ⟨f, hf, by unfold cancelled; rw [hr, bne_iff_ne.2 hn]; rfl⟩
  · change u.place.epoch = _
    rw [huplace]
    exact hp3
  · change u.mem = _
    rw [hu, hw, heq]
    rfl

/-- Settles O39: the instants at which a mark can act, and the scale, the record and the pending fences where it does. -/
theorem epochMarks : Obligations.EpochMarks := by
  intro s a v hmark hmode now old edge p
  refine ⟨fun hst hjump => State.firstEdge_locked _ _ hst hjump, fun hno => ?_, fun hedge hst => markTaken hmark hmode hedge hst,
    fun hedge hlocked hslew => ?_⟩
  · exact congrArg Host.Outcome.next ((State.epochMark_row hmark).trans (if_neg hno))
  · have hrow := (State.epochMark_row (a := a) hmark).trans ((if_pos hedge).trans (if_neg fun h => h.elim hlocked hslew))
    have htold := State.reported_raise ({ s.at_ a with sync := { s.sync with mark := none } } : State) 153 0x10 hmode (by decide)
    obtain ⟨l, hl⟩ := ({ s.at_ a with sync := { s.sync with mark := none } } : State).raise_eq 153 0x10
    refine ⟨_, congrArg Host.Outcome.next hrow, htold, ?_⟩
    rw [hl]
    rfl

end Sys2Proof.Proofs
end

section
/-! SUPPORT. The selection of cells (R447, R448, R451) and the checks of Table 13.2. -/

namespace Sys2Proof.Machine

open Sys2Proof.Safety

/-! ## Cells in order of their distance -/

/-- A cell is no farther from the ideal width than another. -/
def NotFarther (ideal : Nat) (a b : Nat × Nat) : Prop := dist a.2 ideal ≤ dist b.2 ideal

theorem insertCell_perm (ideal : Nat) (c : Nat × Nat) (l : List (Nat × Nat)) : (insertCell ideal c l).Perm (c :: l) := by
  induction l with
  | nil => exact .refl _
  | cons d l ih =>
    unfold insertCell
    split
    · exact .refl _
    · exact (ih.cons d).trans (.swap c d l)

theorem insertCell_sorted (ideal : Nat) (c : Nat × Nat) {l : List (Nat × Nat)} (h : l.Pairwise (NotFarther ideal)) :
    (insertCell ideal c l).Pairwise (NotFarther ideal) := by
  induction l with
  | nil => exact List.pairwise_singleton ..
  | cons d l ih =>
    obtain ⟨hd, hl⟩ := List.pairwise_cons.1 h
    unfold insertCell
    split
    · next hlt =>
      refine List.pairwise_cons.2 ⟨fun e he => ?_, h⟩
      rcases List.mem_cons.1 he with rfl | he
      · exact Nat.le_of_lt hlt
      · exact Nat.le_trans (Nat.le_of_lt hlt) (hd e he)
    · next hge =>
      refine List.pairwise_cons.2 ⟨fun e he => ?_, ih hl⟩
      rcases List.mem_cons.1 ((insertCell_perm ideal c l).subset he) with rfl | he
      · exact Nat.le_of_not_lt hge
      · exact hd e he

/-- The cells with their indices, nearest first. -/
def cellsByDistance (ideal : Nat) (ws : List Nat) : List (Nat × Nat) :=
  (ws.mapIdx fun i w => (i, w)).foldl (fun l c => insertCell ideal c l) []

theorem cellsByDistance_spec (ideal : Nat) (ws : List Nat) : (cellsByDistance ideal ws).Perm (ws.mapIdx fun i w => (i, w)) ∧
    (cellsByDistance ideal ws).Pairwise (NotFarther ideal) := by
  have hfold : ∀ (cs l : List (Nat × Nat)), l.Pairwise (NotFarther ideal) →
      (cs.foldl (fun l c => insertCell ideal c l) l).Perm (cs ++ l) ∧
        (cs.foldl (fun l c => insertCell ideal c l) l).Pairwise (NotFarther ideal) := by
    intro cs
    induction cs with
    | nil => exact fun l h => ⟨.refl _, h⟩
    | cons c cs ih =>
      intro l h
      obtain ⟨hperm, hsorted⟩ := ih _ (insertCell_sorted ideal c h)
      exact ⟨hperm.trans (((insertCell_perm ideal c l).append_left cs).trans List.perm_middle), hsorted⟩
  obtain ⟨hperm, hsorted⟩ := hfold (ws.mapIdx fun i w => (i, w)) [] .nil
  rw [List.append_nil] at hperm
  exact ⟨hperm, hsorted⟩

theorem mem_cellsByDistance {ideal : Nat} {ws : List Nat} {c : Nat × Nat} : c ∈ cellsByDistance ideal ws ↔ ws[c.1]? = some c.2 := by
  rw [(cellsByDistance_spec ideal ws).1.mem_iff, List.mem_mapIdx]
  constructor
  · rintro ⟨i, hi, rfl⟩
    exact List.getElem?_eq_getElem hi
  · intro h
    obtain ⟨hi, hv⟩ := List.getElem?_eq_some_iff.1 h
    exact ⟨c.1, hi, by rw [hv]⟩

theorem cellsByDistance_indices (ideal : Nat) (ws : List Nat) :
    ((cellsByDistance ideal ws).map Prod.fst).Perm (List.range ws.length) := by
  refine ((cellsByDistance_spec ideal ws).1.map Prod.fst).trans (.of_eq ?_)
  exact List.ext_getElem (by simp) fun i _ _ => by simp

/-! ## A mask -/

theorem testBit_sum_two_pow {l : List Nat} (hl : l.Nodup) (i : Nat) : (l.foldl (fun a i => a + 2 ^ i) 0).testBit i = true ↔ i ∈ l := by
  have hfold : ∀ (l : List Nat) (a : Nat), l.foldl (fun a i => a + 2 ^ i) a = a + (l.map (2 ^ ·)).sum := by
    intro l
    induction l with
    | nil => exact fun a => rfl
    | cons b l ih =>
      intro a
      rw [List.foldl_cons, ih, List.map_cons, List.sum_cons, Nat.add_assoc]
  rw [hfold, Nat.zero_add, ← List.sum_toFinset _ hl, ← Nat.mem_bitIndices, ← List.mem_toFinset,
    Finset.toFinset_bitIndices_sum_two_pow, List.mem_toFinset]

theorem getLsbD_cellMask {n : Nat} {sel : List Nat} (hsel : sel.Nodup) {i : Nat} (hi : i < n) :
    (cellMask n sel).getLsbD i = true ↔ i ∈ sel := by
  unfold cellMask
  rw [BitVec.getLsbD_ofNat, decide_eq_true hi, Bool.true_and]
  exact testBit_sum_two_pow hsel i

theorem dist_natAbs (a b : Nat) : dist a b = ((a : Int) - b).natAbs := by
  unfold dist
  omega

/-- The mask of the nearest cells selects as many of them, and none that it leaves out is nearer. -/
theorem selects_nearest {n k : Nat} (ideal : Nat) {ws : List Nat} (hlen : ws.length = n) (hk : k ≤ n) :
    Selects (cellMask n (nearestCells ideal k ws)) k ideal ws := by
  have hsel : nearestCells ideal k ws = ((cellsByDistance ideal ws).take k).map Prod.fst := rfl
  have hperm := cellsByDistance_indices ideal ws
  have hsorted := (cellsByDistance_spec ideal ws).2
  have hmem := fun c => mem_cellsByDistance (ideal := ideal) (ws := ws) (c := c)
  rw [hlen] at hperm
  generalize cellsByDistance ideal ws = l at *
  have hll : l.length = n := by simpa using hperm.length_eq
  have hnodup : (l.map Prod.fst).Nodup := hperm.nodup_iff.2 List.nodup_range
  have hsplit : l.map Prod.fst = nearestCells ideal k ws ++ (l.drop k).map Prod.fst := by
    rw [hsel, ← List.map_append, List.take_append_drop]
  have hparts := hnodup
  rw [hsplit] at hparts
  obtain ⟨hnear, -, hdisj⟩ := List.nodup_append.1 hparts
  have hbit : ∀ i, i < n → ((cellMask n (nearestCells ideal k ws)).getLsbD i = true ↔ i ∈ nearestCells ideal k ws) :=
    fun i hi => getLsbD_cellMask hnear hi
  refine ⟨?_, fun i j hi hj hin hout => ?_⟩
  · have hcount : (List.range n).countP (fun i => (cellMask n (nearestCells ideal k ws)).getLsbD i) =
        (List.range n).countP (fun i => decide (i ∈ nearestCells ideal k ws)) :=
      List.countP_congr fun i hi => by rw [hbit i (List.mem_range.1 hi), decide_eq_true_iff]
    have hall : (nearestCells ideal k ws).countP (fun i => decide (i ∈ nearestCells ideal k ws)) = (nearestCells ideal k ws).length :=
      List.countP_eq_length.2 fun i hi => decide_eq_true hi
    have hnone : ((l.drop k).map Prod.fst).countP (fun i => decide (i ∈ nearestCells ideal k ws)) = 0 :=
      List.countP_eq_zero.2 fun i hi h => hdisj i (of_decide_eq_true h) i hi rfl
    rw [hcount, ← hperm.countP_eq, hsplit, List.countP_append, hall, hnone, hsel, List.length_map, List.length_take, hll]
    omega
  · rw [hbit i hi, hsel] at hin
    obtain ⟨⟨i', wi⟩, hci, rfl⟩ := List.mem_map.1 hin
    have hjl : j ∈ l.map Prod.fst := hperm.mem_iff.2 (List.mem_range.2 hj)
    have hjn : j ∉ nearestCells ideal k ws := fun h => absurd (((hbit j hj).2 h).symm.trans hout) (by decide)
    rw [hsplit] at hjl
    obtain ⟨⟨j', wj⟩, hcj, rfl⟩ := List.mem_map.1 ((List.mem_append.1 hjl).resolve_left hjn)
    have hwi := (hmem _).1 (List.mem_of_mem_take hci)
    have hwj := (hmem _).1 (List.mem_of_mem_drop hcj)
    have hle : NotFarther ideal (i', wi) (j', wj) := by
      rw [← List.take_append_drop k l] at hsorted
      exact (List.pairwise_append.1 hsorted).2.2 _ hci _ hcj
    rw [List.getD_eq_getElem?_getD, List.getD_eq_getElem?_getD, hwi, hwj]
    unfold NotFarther at hle
    rw [dist_natAbs, dist_natAbs] at hle
    exact hle

/-! ## The checks -/

theorem foldl_add_eq_sum (l : List Int) : l.foldl (· + ·) 0 = l.sum := List.sum_eq_foldl.symm

theorem foldl_squares_eq_sum (l : List Int) : l.foldl (fun a d => a + d.natAbs * d.natAbs) 0 = (l.map fun d => d.natAbs * d.natAbs).sum := by
  rw [List.sum_eq_foldl, List.foldl_map]

/-- The means and the rms of one agreement list pass. -/
def agreeOk (l : List Int) : Bool :=
  (agreeSums l).1.natAbs ≤ l.length && (agreeSums l).2 * stepIdeal * stepIdeal ≤ l.length * 1000000000000

theorem agreeOk_iff (l : List Int) : agreeOk l = true ↔ Agree l := by
  unfold agreeOk agreeSums Agree stepIdeal
  rw [Bool.and_eq_true, decide_eq_true_iff, decide_eq_true_iff, foldl_add_eq_sum, foldl_squares_eq_sum]

theorem any_false_iff {α : Type} {l : List α} {p : α → Bool} : l.any p = false ↔ ∀ a ∈ l, p a = false := by
  rw [List.any_eq_false]
  exact forall₂_congr fun a _ => iff_of_eq (Bool.not_eq_true _)

/-- The reason code is that of the check of Table 13.2 that fails first. -/
theorem cellsReason_eq {fs : List Figures} {agH agL : List Int} {code : BitVec 4} (h : FirstFailure fs agH agL code) :
    cellsReason fs agH agL = code := by
  have hits : ∀ g : ∀ f ∈ fs, 200000 ≤ f.hits, fs.any (fun f => decide (f.hits < 200000)) = false := fun g =>
    any_false_iff.2 fun f hf => decide_eq_false (by have := g f hf; omega)
  have span : ∀ g : ∀ f ∈ fs, 784000000 ≤ f.span ∧ f.span ≤ 816000000,
      fs.any (fun f => decide (f.span < 784000000) || decide (816000000 < f.span)) = false := fun g =>
    any_false_iff.2 fun f hf => by rw [decide_eq_false (by have := g f hf; omega), decide_eq_false (by have := g f hf; omega)]; rfl
  have mono : ∀ g : ∀ f ∈ fs, f.mono = false, fs.any (fun f => f.mono) = false := fun g => any_false_iff.2 g
  have dnl : ∀ g : ∀ f ∈ fs, 5 * f.dnl < 3 * 390625, fs.any (fun f => decide (3 * stepIdeal ≤ 5 * f.dnl)) = false := fun g =>
    any_false_iff.2 fun f hf => decide_eq_false (by have := g f hf; unfold stepIdeal; omega)
  have hdef : cellsReason fs agH agL =
      if fs.any (fun f => decide (f.hits < 200000)) then 1
      else if fs.any (fun f => decide (f.span < 784000000) || decide (816000000 < f.span)) then 2
      else if fs.any (fun f => f.mono) then 4
      else if fs.any (fun f => decide (3 * stepIdeal ≤ 5 * f.dnl)) then 3
      else if !(agreeOk agH && agreeOk agL) then 5 else 0 := rfl
  rw [hdef]
  cases h with
  | hits h =>
    obtain ⟨f, hf, h⟩ := h
    rw [if_pos (List.any_eq_true.2 ⟨f, hf, decide_eq_true h⟩)]
  | span g h =>
    obtain ⟨f, hf, h⟩ := h
    rw [hits g, if_neg Bool.false_ne_true, if_pos (List.any_eq_true.2 ⟨f, hf, by rw [Bool.or_eq_true, decide_eq_true_iff, decide_eq_true_iff]; exact h⟩)]
  | mono g h =>
    obtain ⟨f, hf, h⟩ := h
    rw [hits fun f hf => (g f hf).1, span fun f hf => (g f hf).2, if_neg Bool.false_ne_true, if_neg Bool.false_ne_true,
      if_pos (List.any_eq_true.2 ⟨f, hf, h⟩)]
  | dnl g h =>
    obtain ⟨f, hf, h⟩ := h
    rw [hits fun f hf => (g f hf).1, span fun f hf => ⟨(g f hf).2.1, (g f hf).2.2.1⟩, mono fun f hf => (g f hf).2.2.2,
      if_neg Bool.false_ne_true, if_neg Bool.false_ne_true, if_neg Bool.false_ne_true,
      if_pos (List.any_eq_true.2 ⟨f, hf, decide_eq_true h⟩)]
  | agree g h =>
    have hno : ¬(agreeOk agH && agreeOk agL) = true := by
      rw [Bool.and_eq_true, agreeOk_iff, agreeOk_iff]
      exact h
    rw [hits fun f hf => (g f hf).1, span fun f hf => ⟨(g f hf).2.1, (g f hf).2.2.1⟩, mono fun f hf => (g f hf).2.2.2.1,
      dnl fun f hf => (g f hf).2.2.2.2, Bool.eq_false_iff.2 hno]
    rfl
  | none g h =>
    have hyes : (agreeOk agH && agreeOk agL) = true := by
      rw [Bool.and_eq_true, agreeOk_iff, agreeOk_iff]
      exact h
    rw [hits fun f hf => (g f hf).1, span fun f hf => ⟨(g f hf).2.1, (g f hf).2.2.1⟩, mono fun f hf => (g f hf).2.2.2.1,
      dnl fun f hf => (g f hf).2.2.2.2, hyes]
    rfl

end Sys2Proof.Machine
end

section
/-! SUPPORT. What an idle point leaves of the trims, and a trim window's rows (R455, R458 to R463). -/

namespace Sys2Proof.Machine

open Sys2Proof.Safety

/-! ## An idle point -/

/-- The store and the outcome of a channel's trims are as they were. -/
structure TrimStands (x y : Channel) : Prop where
  armed : y.armed = x.armed
  store : y.trim.store = x.trim.store
  running : y.trim.running = x.trim.running
  pending : x.trim.pending = false → y.trim.pending = false
  result : y.trim.result = x.trim.result
  reason : y.trim.reason = x.trim.reason
  lastGen : y.trim.lastGen = x.trim.lastGen

namespace TrimStands
variable {x y z : Channel}

theorem refl (x : Channel) : TrimStands x x := ⟨rfl, rfl, rfl, id, rfl, rfl, rfl⟩

theorem trans (h : TrimStands x y) (g : TrimStands y z) : TrimStands x z :=
  ⟨g.armed.trans h.armed, g.store.trans h.store, g.running.trans h.running, g.pending ∘ h.pending, g.result.trans h.result,
    g.reason.trans h.reason, g.lastGen.trans h.lastGen⟩

theorem of_armTrim (h : y.armTrim = x.armTrim) : TrimStands x y := by
  have ha : y.armed = x.armed := congrArg Prod.fst h
  have ht : y.trim = x.trim := congrArg Prod.snd h
  refine ⟨ha, ?_, ?_, fun hp => ?_, ?_, ?_, ?_⟩
  all_goals rw [ht]
  exact hp

theorem applyTrim (x : Channel) (band : Nat) : TrimStands x (x.applyTrim band) := by
  unfold Channel.applyTrim
  dsimp only
  split
  · split <;> exact ⟨rfl, rfl, rfl, id, rfl, rfl, rfl⟩
  · exact ⟨rfl, rfl, rfl, id, rfl, rfl, rfl⟩

end TrimStands

theorem Channel.armTrim_setLane (x : Channel) (l : Bool) (ln : Lane) : (x.setLane l ln).armTrim = x.armTrim := by
  cases l <;> rfl

theorem Channel.armTrim_applyPost (x : Channel) : x.applyPost.armTrim = x.armTrim := by
  unfold Channel.applyPost
  split <;> rfl

theorem Channel.armTrim_remerge (x : Channel) (old : ChanCfg) : (x.remerge old).armTrim = x.armTrim := by
  unfold Channel.remerge
  split <;> rfl

theorem Channel.armTrim_redecimate (x : Channel) (old : ChanCfg) : (x.redecimate old).armTrim = x.armTrim := rfl

/-- What an idle point of channel `c` leaves of time, galley, life cycle, generations and trims. -/
structure TrimsAtIdle (s : State) (c : Chan) (t : State) : Prop where
  now : t.now = s.now
  mem : t.mem = s.mem
  lcy : t.lcy = s.lcy
  tgen : t.nvm.tgen = s.nvm.tgen
  others : ∀ e, e ≠ c → (t.chan e).armTrim = (s.chan e).armTrim
  self : TrimStands (s.chan c) (t.chan c)

namespace TrimsAtIdle
variable {s t u : State} {c : Chan}

theorem refl (s : State) (c : Chan) : TrimsAtIdle s c s := ⟨rfl, rfl, rfl, rfl, fun _ _ => rfl, .refl _⟩

theorem trans (h : TrimsAtIdle s c t) (g : TrimsAtIdle t c u) : TrimsAtIdle s c u :=
  ⟨g.now.trans h.now, g.mem.trans h.mem, g.lcy.trans h.lcy, g.tgen.trans h.tgen, fun e he => (g.others e he).trans (h.others e he),
    h.self.trans g.self⟩

theorem setChan (h : TrimsAtIdle s c t) {x : Channel} (hx : TrimStands (t.chan c) x) : TrimsAtIdle s c (t.setChan c x) :=
  h.trans ⟨rfl, rfl, rfl, rfl, fun e he => by rw [State.chan_setChan_ne _ _ _ _ he], by rw [State.chan_setChan_self]; exact hx⟩

theorem modAny (h : TrimsAtIdle s c t) (d : Chan) {f : Channel → Channel} (hf : ∀ x, (f x).armTrim = x.armTrim) :
    TrimsAtIdle s c (t.modChan d f) := by
  have hall : ∀ e, ((t.modChan d f).chan e).armTrim = (t.chan e).armTrim := fun e => by
    unfold State.modChan
    by_cases he : e = d
    · rw [he, State.chan_setChan_self, hf]
    · rw [State.chan_setChan_ne _ _ _ _ he]
  exact h.trans ⟨rfl, rfl, rfl, rfl, fun e _ => hall e, .of_armTrim (hall c)⟩

theorem raiseM (h : TrimsAtIdle s c t) (n : Source) (b : Byte) : TrimsAtIdle s c (t.raiseM n b) := by
  obtain ⟨l, hl⟩ := t.raiseM_eq n b
  rw [hl]
  exact h.trans ⟨rfl, rfl, rfl, rfl, fun _ _ => rfl, .refl _⟩

theorem formeDone (h : TrimsAtIdle s c t) : TrimsAtIdle s c t.formeDone := by
  unfold State.formeDone
  split
  · refine raiseM ?_ _ _
    exact h.trans ⟨rfl, rfl, rfl, rfl, fun _ _ => rfl, .refl _⟩
  · exact h

theorem startReload (h : TrimsAtIdle s c t) : TrimsAtIdle s c (t.startReload c t.now) := h.modAny c fun _ => rfl

theorem rePartner (h : TrimsAtIdle s c t) (old : Option LaneIx) (at_ : Int) (idle : Bool) :
    TrimsAtIdle s c (t.rePartner c old at_ idle) := by
  have hlane : ∀ {z : State} (i : LaneIx) (f : Channel → Lane), TrimsAtIdle s c z →
      TrimsAtIdle s c (z.modChan (laneChan i) fun x => x.setLane (laneIsL i) (f x)) :=
    fun i f hz => hz.modAny _ fun x => x.armTrim_setLane _ _
  have hmerge : ∀ {z : State} (f : Channel → Merge), TrimsAtIdle s c z →
      TrimsAtIdle s c (z.modChan c fun x => { x with merge := f x }) := fun f hz => hz.modAny _ fun _ => rfl
  unfold State.rePartner
  dsimp only
  split
  · exact h
  · split
    · split
      · exact hlane _ _ (hlane _ _ (hmerge _ h))
      · exact hlane _ _ (hmerge _ h)
    · split
      · exact hlane _ _ (hmerge _ h)
      · exact hmerge _ h

theorem applyForme (h : TrimsAtIdle s c t) (at_ : Int) (idle : Bool) : TrimsAtIdle s c (t.applyForme c at_ idle).1 := by
  unfold State.applyForme
  dsimp only
  split
  · exact h
  · split
    · exact h.setChan (.of_armTrim rfl)
    · refine (h.setChan (.of_armTrim ?_)).rePartner _ _ _
      rw [Channel.armTrim_redecimate, Channel.armTrim_remerge]
      rfl

theorem applyPlaces (h : TrimsAtIdle s c t) : TrimsAtIdle s c (t.applyPlaces c) := by
  unfold State.applyPlaces
  dsimp only
  split
  · exact h
  · split
    · exact h
    · exact h.setChan (.of_armTrim rfl)

theorem applyStaged (h : TrimsAtIdle s c t) (at_ : Int) (idle : Bool) : TrimsAtIdle s c (t.applyStaged c at_ idle).1 :=
  ((h.applyForme at_ idle).applyPlaces).setChan ((TrimStands.of_armTrim (Channel.armTrim_applyPost _)).trans (.applyTrim _ _))

/-- A switch-off that the channel waits for leaves the trims; an armed channel waits on. -/
theorem requestOff (h : TrimsAtIdle s c t) : TrimsAtIdle s c (t.requestOff c) := by
  unfold State.requestOff
  dsimp only
  split
  · next hcond =>
    have harm : (t.chan c).armed = false := by
      cases ha : (t.chan c).armed with
      | false => rfl
      | true => rw [ha] at hcond; simp at hcond
    refine (h.setChan (x := { (t.chan c).powerOff with shedPend := false, pdoffPend := false }) ?_).trans
      ⟨rfl, rfl, rfl, rfl, fun _ _ => rfl, .refl _⟩
    exact ⟨harm.symm, rfl, rfl, fun _ => rfl, rfl, rfl, rfl⟩
  · exact h

end TrimsAtIdle

/-- No pending trim begins: an idle point leaves the trims as they are. -/
theorem State.settleIdle_trims (s : State) (c : Chan) (h : (s.chan c).trim.pending = false) : TrimsAtIdle s c (s.settleIdle c) := by
  have hend : ∀ z : State, TrimsAtIdle s c z → TrimsAtIdle s c (z.idleEnd c) := fun z hz => by
    unfold State.idleEnd
    rw [if_neg (by rw [hz.self.pending h, Bool.false_and, Bool.false_and]; exact Bool.false_ne_true)]
    exact hz.requestOff
  have hstaged := (TrimsAtIdle.refl s c).applyStaged (lsbUp s.now) true
  unfold State.settleIdle
  dsimp only
  split
  · exact .refl s c
  · split
    · exact hend _ hstaged.startReload.formeDone
    · exact hend _ hstaged.formeDone

end Sys2Proof.Machine
end

section
/-! The theorem that settles O45: the trim window from selection to the store. -/

namespace Sys2Proof.Machine

open Sys2Proof.Safety

/-! ## The first reason (R452) -/

/-- The earlier of two reasons, where there is one. -/
def firstOf (a b : BitVec 4) : BitVec 4 := if a = 0 then b else a

theorem firstOf_zero (a : BitVec 4) : firstOf a 0 = a := by
  unfold firstOf
  split
  · next h => exact h.symm
  · rfl

theorem firstOf_ne_zero {a b : BitVec 4} (h : a ≠ 0) : firstOf a b = a := if_neg h

theorem firstOf_assoc (a b c : BitVec 4) : firstOf (firstOf a b) c = firstOf a (firstOf b c) := by
  by_cases h : a = 0
  · subst h
    rfl
  · rw [firstOf_ne_zero h, firstOf_ne_zero h, firstOf_ne_zero h]

theorem Trim.fail_eq (t : Trim) (code : BitVec 4) : t.fail code = { t with failReason := firstOf t.failReason code } := by
  unfold Trim.fail firstOf
  split <;> rfl

theorem Trim.fail_fail (t : Trim) (a b : BitVec 4) : (t.fail a).fail b = t.fail (firstOf a b) := by
  rw [Trim.fail_eq, Trim.fail_eq, Trim.fail_eq]
  dsimp only
  rw [firstOf_assoc]

theorem Trim.fail_zero (t : Trim) : t.fail 0 = t := by
  rw [Trim.fail_eq, firstOf_zero]

theorem Trim.fail_if (t : Trim) (p : Prop) [Decidable p] (code : BitVec 4) :
    (if p then t.fail code else t) = t.fail (if p then code else 0) := by
  split
  · rfl
  · rw [Trim.fail_zero]

/-! ## The end of a window (R458 to R463) -/

/-- The measured deskew is noted. -/
def Trim.measured (t : Trim) (mh ml : Int × Nat × Nat) : Trim := { t with dskmH := dskmWord mh, dskmL := dskmWord ml }

/-- The reason of the deskew phase of a window that ends: too few edges, too wide a spread, a timebase not in lock. -/
def deskewCode (st : TbState) (mh ml : Int × Nat × Nat) : BitVec 4 :=
  firstOf (if mh.2.2 < 1024 ∨ ml.2.2 < 1024 then 6 else if spreadWide mh ∨ spreadWide ml then 7 else 0) (if st = .locked then 0 else 8)

/-- The trim with the checks of its window's end made. -/
def Trim.windowChecked (t : Trim) (st : TbState) (mh ml : Int × Nat × Nat) : Trim :=
  let t1 := if t.pendDeskew then (t.fail (deskewCode st mh ml)).measured mh ml else t
  if t1.pendCells && !t1.cellsOk then t1.fail 1 else t1

/-- The reason with which a window ends, 0 where its trim has passed. -/
def Trim.windowCode (t : Trim) (st : TbState) (mh ml : Int × Nat × Nat) : BitVec 4 :=
  firstOf t.failReason (firstOf (if t.pendDeskew = false then 0 else deskewCode st mh ml)
    (if t.pendCells = true ∧ t.cellsOk = false then 1 else 0))

theorem Trim.windowChecked_eq (t : Trim) (st : TbState) (mh ml : Int × Nat × Nat) : ∃ dh dl,
    t.windowChecked st mh ml = { t with failReason := t.windowCode st mh ml, dskmH := dh, dskmL := dl } := by
  have hcells : ∀ u : Trim, (u.pendCells && !u.cellsOk) = true ↔ u.pendCells = true ∧ u.cellsOk = false := fun u => by simp
  unfold Trim.windowChecked Trim.windowCode
  dsimp only
  rcases Bool.eq_false_or_eq_true t.pendDeskew with hd | hd
  · refine ⟨dskmWord mh, dskmWord ml, ?_⟩
    have hno : ¬t.pendDeskew = false := by rw [hd]; decide
    rw [if_pos hd, if_neg hno, Trim.fail_if, if_congr (hcells _) rfl rfl, Trim.fail_eq, Trim.fail_eq t]
    exact congrArg (fun r => ({ t with failReason := r, dskmH := dskmWord mh, dskmL := dskmWord ml } : Trim)) (firstOf_assoc ..)
  · refine ⟨t.dskmH, t.dskmL, ?_⟩
    have hno : ¬t.pendDeskew = true := by rw [hd]; decide
    rw [if_neg hno, if_pos hd, Trim.fail_if, if_congr (hcells t) rfl rfl, Trim.fail_eq]
    rfl

/-- The table that a trim which has passed writes, without its generation. -/
def Trim.written (t : Trim) (mh ml : Int × Nat × Nat) : TrimTable :=
  let old := t.table t.b0.toNat
  let base := if t.pendCells then { t.trial with dv := old.dv, deskewH := old.deskewH, deskewL := old.deskewL } else old
  if t.pendDeskew then { base with dv := true, deskewH := deskewStore mh.1, deskewL := deskewStore ml.1 } else base

/-- The trim of a window that has ended. -/
def Trim.windowEnded (t : Trim) (gen : BitVec 16) (mh ml : Int × Nat × Nat) : Trim :=
  let ok := t.failReason == 0
  { t with
    running := false, staged := true, result := if ok then 1 else 2, reason := t.failReason
    store := if ok then setAt t.store t.b0.toNat { t.written mh ml with gen := gen } else t.store
    lastGen := if ok then gen else t.lastGen, supply := t.supply && !(ok && t.pendCells) }

/-- The state in which a window has ended, before the idle point. -/
def State.windowClosed (s : State) (c : Chan) (mh ml : Int × Nat × Nat) (t : Trim) : State :=
  let x := s.chan c
  let z := (s.at_ (x.trim.w0 + 2500000 * scUnits)).setChan c { x with trim := t.windowEnded s.nvm.tgen mh ml }
  if t.failReason == 0 then { z with nvm := { z.nvm with tgen := nextGen s.nvm.tgen } } else z.raise (chSrc c) 0x40

/-- The channel is armed again at the end of its window. -/
def State.rearmsAfterTrim (s : State) (c : Chan) (t : Trim) : Bool :=
  t.wasArmed && !t.wasHeld && !(s.chan c).armed && s.chOn c && s.bound c && (s.placeFor c (s.chan c).cfg none).isSome

/-- The idle point of a window's end, and the arm that may follow. -/
def State.windowIdle (s : State) (c : Chan) (mh ml : Int × Nat × Nat) (t : Trim) : State :=
  let z := (s.windowClosed c mh ml t).settleIdle c
  if z.rearmsAfterTrim c (s.chan c).trim then z.armAtInstant c ((s.chan c).trim.w0 + 2500000 * scUnits) else z

/-- The checks of the deskew phase, as the row makes them. -/
def Trim.deskewChecked (t : Trim) (st : TbState) (mh ml : Int × Nat × Nat) : Trim :=
  let t2 := if mh.2.2 < 1024 ∨ ml.2.2 < 1024 then t.fail 6 else if spreadWide mh ∨ spreadWide ml then t.fail 7 else t
  if st = .locked then t2 else t2.fail 8

theorem Trim.deskewChecked_eq (t : Trim) (st : TbState) (mh ml : Int × Nat × Nat) :
    t.deskewChecked st mh ml = t.fail (deskewCode st mh ml) := by
  have hfirst : (if mh.2.2 < 1024 ∨ ml.2.2 < 1024 then t.fail 6 else if spreadWide mh ∨ spreadWide ml then t.fail 7 else t) =
      t.fail (if mh.2.2 < 1024 ∨ ml.2.2 < 1024 then 6 else if spreadWide mh ∨ spreadWide ml then 7 else 0) := by
    split
    · rfl
    · exact t.fail_if _ 7
  unfold Trim.deskewChecked deskewCode
  dsimp only
  rw [hfirst]
  split
  · rw [firstOf_zero]
  · exact t.fail_fail _ 8

theorem State.trimWindowEnd_eq {s : State} {c : Chan} (edgesH edgesL : List Int) (h : (s.chan c).trim.running = true) :
    let mh := measureDeskew s.tb.refP edgesH
    let ml := measureDeskew s.tb.refP edgesL
    s.trimWindowEnd c edgesH edgesL = s.windowIdle c mh ml ((s.chan c).trim.windowChecked s.tb.st mh ml) := by
  intro mh ml
  let m := (s.chan c).trim
  have hrow : s.trimWindowEnd c edgesH edgesL = s.windowIdle c mh ml
      (let t1 := if m.pendDeskew then (m.deskewChecked s.tb.st mh ml).measured mh ml else m
       if t1.pendCells && !t1.cellsOk then t1.fail 1 else t1) :=
    if_neg (by rw [h]; decide)
  rw [hrow, Trim.deskewChecked_eq]
  rfl

end Sys2Proof.Machine
end

section
/-! The theorem that settles O45: the trim window from selection to the store. -/

namespace Sys2Proof.Machine

open Sys2Proof.Safety

/-- The spread of a lane is too wide, as Table 13.3 says it. -/
theorem spreadWide_iff (p : Nat) (stamps : List Int) : spreadWide (measureDeskew p stamps) = true ↔
    26 ^ 2 * (stamps.map (stepOf p)).length ^ 2 + (stamps.map (stepOf p)).sum.natAbs ^ 2 <
      (stamps.map (stepOf p)).length * ((stamps.map (stepOf p)).map fun e => e.natAbs * e.natAbs).sum := by
  unfold spreadWide measureDeskew variance
  dsimp only
  rw [decide_eq_true_iff, foldl_add_eq_sum, foldl_squares_eq_sum]
  generalize (stamps.map (stepOf p)).length ^ 2 = n2
  generalize (stamps.map (stepOf p)).sum.natAbs ^ 2 = s2
  generalize (stamps.map (stepOf p)).length * ((stamps.map (stepOf p)).map fun e => e.natAbs * e.natAbs).sum = q
  omega

/-- The outcome of a window in the state it leaves. -/
structure WindowClosed (s : State) (c : Chan) (t : Trim) (mh ml : Int × Nat × Nat) (u : State) : Prop where
  now : u.now = max s.now ((s.chan c).trim.w0 + 2500000 * 51200)
  mem : u.mem = s.mem
  lcy : u.lcy = s.lcy
  tgen : u.nvm.tgen = if t.failReason = 0 then nextGen s.nvm.tgen else s.nvm.tgen
  others : ∀ e, e ≠ c → (u.chan e).armTrim = (s.chan e).armTrim
  self : TrimStands { s.chan c with trim := t.windowEnded s.nvm.tgen mh ml } (u.chan c)
  told : t.failReason ≠ 0 → Reported u c.val 0x40

theorem State.windowClosed_spec {s : State} {c : Chan} (mh ml : Int × Nat × Nat) (t : Trim) (hmode : s.pwr.mode ≠ .reset) :
    WindowClosed s c t mh ml (s.windowClosed c mh ml t) := by
  let x : Channel := { s.chan c with trim := t.windowEnded s.nvm.tgen mh ml }
  let z : State := (s.at_ ((s.chan c).trim.w0 + 2500000 * scUnits)).setChan c x
  have hself : z.chan c = x := State.chan_setChan_self ..
  have hother : ∀ e, e ≠ c → z.chan e = s.chan e := fun e he => State.chan_setChan_ne _ _ _ _ he
  by_cases hok : t.failReason = 0
  · have heq : s.windowClosed c mh ml t = { z with nvm := { z.nvm with tgen := nextGen s.nvm.tgen } } := if_pos (beq_iff_eq.2 hok)
    rw [heq]
    refine ⟨rfl, rfl, rfl, (if_pos hok).symm, fun e he => congrArg Channel.armTrim (hother e he), ?_, fun h => absurd hok h⟩
    exact (TrimStands.refl x).trans (.of_armTrim (congrArg Channel.armTrim hself))
  · have heq : s.windowClosed c mh ml t = z.raise (chSrc c) 0x40 := if_neg fun h => hok (beq_iff_eq.1 h)
    have htold := State.reported_raise z (chSrc c) 0x40 hmode (by decide)
    obtain ⟨l, hl⟩ := z.raise_eq (chSrc c) 0x40
    rw [heq]
    rw [hl] at htold ⊢
    refine ⟨rfl, rfl, rfl, (if_neg hok).symm, fun e he => congrArg Channel.armTrim (hother e he), ?_, fun _ => htold⟩
    exact (TrimStands.refl x).trans (.of_armTrim (congrArg Channel.armTrim hself))

section Ended
variable {t : Trim} {gen : BitVec 16} {mh ml : Int × Nat × Nat}

theorem Trim.windowEnded_failed (h : t.failReason ≠ 0) : (t.windowEnded gen mh ml).store = t.store :=
  if_neg fun hb => h (beq_iff_eq.1 hb)

theorem Trim.windowEnded_passed (h : t.failReason = 0) :
    (t.windowEnded gen mh ml).store = t.store.set t.b0.toNat { t.written mh ml with gen := gen } :=
  if_pos (beq_iff_eq.2 h)

theorem Trim.windowEnded_table_ne {i : Nat} (hi : i ≠ t.b0.toNat) : (t.windowEnded gen mh ml).store.getD i TrimTable.blank = t.table i := by
  unfold Trim.table
  by_cases h : t.failReason = 0
  · rw [Trim.windowEnded_passed h, List.getD_eq_getElem?_getD, List.getElem?_set_ne hi.symm, List.getD_eq_getElem?_getD]
  · rw [Trim.windowEnded_failed h]

theorem Trim.windowEnded_table {b : Nat} (hb : b = t.b0.toNat) (h : t.failReason = 0) (hlen : b < t.store.length) :
    (t.windowEnded gen mh ml).store.getD b TrimTable.blank = { t.written mh ml with gen := gen } := by
  subst hb
  rw [Trim.windowEnded_passed h, List.getD_eq_getElem?_getD, List.getElem?_set_self hlen, Option.getD_some]

theorem Trim.windowEnded_result : (t.windowEnded gen mh ml).result = if t.failReason = 0 then 1 else 2 :=
  if_congr beq_iff_eq rfl rfl

theorem Trim.windowEnded_lastGen (h : t.failReason = 0) : (t.windowEnded gen mh ml).lastGen = gen := if_pos (beq_iff_eq.2 h)

theorem Trim.written_masks : (t.written mh ml).masks = if t.pendCells then t.trial.masks else (t.table t.b0.toNat).masks := by
  unfold Trim.written
  cases t.pendCells <;> cases t.pendDeskew <;> rfl

theorem Trim.written_cv (h : t.pendCells = true) : (t.written mh ml).cv = t.trial.cv := by
  unfold Trim.written
  rw [h]
  cases t.pendDeskew <;> rfl

theorem Trim.written_deskew (h : t.pendDeskew = true) : (t.written mh ml).dv = true ∧ (t.written mh ml).deskewH = deskewStore mh.1 ∧
    (t.written mh ml).deskewL = deskewStore ml.1 := by
  unfold Trim.written
  rw [h]
  exact ⟨rfl, rfl, rfl⟩

theorem Trim.written_noDeskew (h : t.pendDeskew = false) : (t.written mh ml).deskewH = (t.table t.b0.toNat).deskewH := by
  unfold Trim.written
  rw [h]
  cases t.pendCells <;> rfl

end Ended

/-- The figures of a selection (R449, R450). -/
def acquiredFigs (cells : List CellMeas) (agH agL : List Int) : List Word :=
  ((List.range 4).flatMap fun i =>
    [((cells.map figuresOf).getD i ⟨0, 0, false, 0, 0⟩).figA, ((cells.map figuresOf).getD i ⟨0, 0, false, 0, 0⟩).figB]) ++
    [agreeWord agH, agreeWord agL]

/-- The table of a selection under trial. -/
def trialTable (cells : List CellMeas) (agH agL : List Int) : TrimTable :=
  let f := fun i => (cells.map figuresOf).getD i ⟨0, 0, false, 0, 0⟩
  { cv := true, dv := false, leadH := (f 1).inl2 < (f 0).inl2, leadL := (f 3).inl2 < (f 2).inl2, gen := 0
    masks := cells.map fun m => (cellMask 80 (nearestCells tapIdeal 64 m.delay), cellMask 40 (nearestCells stepIdeal 32 m.vernier))
    deskewH := 0, deskewL := 0, figs := acquiredFigs cells agH agL }

/-- The trim at the end of its acquisition. -/
def Trim.acquired (t : Trim) (cells : List CellMeas) (agH agL : List Int) : Trim :=
  { t with
    figs := acquiredFigs cells agH agL, trial := trialTable cells agH agL
    cellsOk := cellsReason (cells.map figuresOf) agH agL == 0
    failReason := firstOf t.failReason (cellsReason (cells.map figuresOf) agH agL) }

theorem WindowClosed.idle {s u : State} {c : Chan} {t : Trim} {mh ml : Int × Nat × Nat} (h : WindowClosed s c t mh ml u)
    (hpend : t.pending = false) : WindowClosed s c t mh ml (u.settleIdle c) := by
  obtain ⟨hnow, hmem, hlcy, htgen, hothers, hself, htold⟩ := h
  have hidle := u.settleIdle_trims c (hself.pending hpend)
  exact ⟨hidle.now.trans hnow, hidle.mem.trans hmem, hidle.lcy.trans hlcy, hidle.tgen.trans htgen,
    fun e he => (hidle.others e he).trans (hothers e he), hself.trans hidle.self, fun hf => u.settleIdle_told c _ _ (htold hf)⟩

end Sys2Proof.Machine

namespace Sys2Proof.Proofs

open Sys2Proof.Machine Sys2Proof.Safety

section Rows
variable {s : State} {c : Chan} (hrun : (s.chan c).trim.running = true)
include hrun

theorem acquisitionEnded {cells : List CellMeas} {agH agL : List Int} (hpend : (s.chan c).trim.pendCells = true)
    (hok : (s.chan c).trim.cellsOk = false) : s.acquisitionEnd c cells agH agL =
    (s.at_ ((s.chan c).trim.w0 + 1562500 * scUnits)).setChan c { s.chan c with trim := (s.chan c).trim.acquired cells agH agL } := by
  have hcode : ∀ (t : Trim) (code : BitVec 4), (if code = 0 then t else t.fail code) = t.fail code := fun t code => by
    split
    · next h => rw [h, Trim.fail_zero]
    · rfl
  unfold State.acquisitionEnd
  dsimp only
  rw [if_neg (by rw [hrun]; decide), if_neg (by rw [hpend, hok]; decide), hcode, Trim.fail_eq]
  rfl

theorem deskewDone : s.deskewPhase c = if (s.chan c).trim.pendDeskew then
    (s.at_ ((s.chan c).trim.w0 + 1875000 * scUnits)).setChan c { s.chan c with trim := { (s.chan c).trim with
      failReason := firstOf (s.chan c).trim.failReason
        (firstOf (if (s.chan c).trim.pendCells = false ∧ ((s.chan c).trim.table (s.chan c).trim.b0.toNat).cv = false then 0xC else 0)
          (if s.tb.st = .locked then 0 else 8)) } }
    else s.at_ ((s.chan c).trim.w0 + 1875000 * scUnits) := by
  obtain ⟨m, hm⟩ : ∃ m, m = (s.chan c).trim := ⟨_, rfl⟩
  have hcells : (!m.pendCells && !(m.table m.b0.toNat).cv) = true ↔ m.pendCells = false ∧ (m.table m.b0.toNat).cv = false := by simp
  have hchecked : (if s.tb.st = .locked then (if !m.pendCells && !(m.table m.b0.toNat).cv then m.fail 0xC else m)
      else (if !m.pendCells && !(m.table m.b0.toNat).cv then m.fail 0xC else m).fail 8) = m.fail (firstOf
        (if m.pendCells = false ∧ (m.table m.b0.toNat).cv = false then 0xC else 0) (if s.tb.st = .locked then 0 else 8)) := by
    rw [Trim.fail_if, if_congr hcells rfl rfl]
    split
    · rw [firstOf_zero]
    · exact m.fail_fail _ 8
  unfold State.deskewPhase
  dsimp only
  rw [if_neg (by rw [hrun]; decide), ← hm, hchecked, Trim.fail_eq]
  cases m.pendDeskew <;> rfl

end Rows

/-- Settles O45: the cells nearest to the ideal are selected; the first check that fails gives the reason; a trim that passed is written. -/
theorem trimWindows : Obligations.TrimWindows := by
  intro s c hmode hrun x m first
  refine ⟨fun cells agH agL code hpend hok hcode => ?_, fun hpend => ?_, fun edgesH edgesL hpending hno => ?_⟩
  · have hrow := acquisitionEnded (agH := agH) (agL := agL) hrun hpend hok (cells := cells)
    have hself := State.chan_setChan_self (s.at_ (m.w0 + 1562500 * scUnits)) c { x with trim := m.acquired cells agH agL }
    have hfailed : ∀ y : Channel, y = { x with trim := m.acquired cells agH agL } → y = { x with trim := { m with
        figs := y.trim.figs, trial := y.trim.trial, cellsOk := decide (code = 0), failReason := first code } } := by
      rintro _ rfl
      unfold Trim.acquired
      rw [cellsReason_eq hcode]
      rfl
    refine ⟨_, congrArg Host.Outcome.next hrow, rfl, State.onlyChan_setChan_at .., hfailed _ hself, fun i w hw hd hv => ?_⟩
    refine ⟨cellMask 80 (nearestCells tapIdeal 64 w.delay), cellMask 40 (nearestCells stepIdeal 32 w.vernier), ?_,
      selects_nearest _ hd (by decide), selects_nearest _ hv (by decide)⟩
    refine (congrArg (fun y : Channel => y.trim.trial.masks[i]?) hself).trans ?_
    refine List.getElem?_map.trans ?_
    rw [hw]
    rfl
  · have hrow := (deskewDone hrun).trans (if_pos hpend)
    refine ⟨_, congrArg Host.Outcome.next hrow, State.onlyChan_setChan_at .., rfl, ?_⟩
    refine (State.chan_setChan_self ..).trans ?_
    refine congrArg (fun r => ({ x with trim := { m with failReason := first r } } : Channel)) ?_
    by_cases hcells : m.pendCells = false ∧ (m.table m.b0.toNat).cv = false
    · rw [if_pos hcells, if_pos hcells]
      rfl
    · rw [if_neg hcells, if_neg hcells]
      rfl
  · intro p d few far wide deskew cells code b
    let mh := measureDeskew s.tb.refP edgesH
    let ml := measureDeskew s.tb.refP edgesL
    have hdeskew : (if m.pendDeskew = false then 0 else deskewCode s.tb.st mh ml) = deskew := by
      by_cases hd : m.pendDeskew = false
      · rw [if_pos hd]
        exact (if_pos hd).symm
      · rw [if_neg hd]
        refine Eq.trans ?_ (if_neg hd).symm
        have hlenH : mh.2.2 = edgesH.length := List.length_map ..
        have hlenL : ml.2.2 = edgesL.length := List.length_map ..
        have hwide : (spreadWide mh = true ∨ spreadWide ml = true) ↔ wide := or_congr (spreadWide_iff _ _) (spreadWide_iff _ _)
        unfold deskewCode
        rw [hlenH, hlenL]
        by_cases hfew : edgesH.length < 1024 ∨ edgesL.length < 1024
        · rw [if_pos hfew]
          exact (if_pos hfew).symm
        · rw [if_neg hfew]
          refine Eq.trans ?_ (if_neg hfew).symm
          by_cases hw : wide
          · rw [if_pos (hwide.2 hw)]
            exact (if_pos hw).symm
          · rw [if_neg fun h => hw (hwide.1 h)]
            exact (if_neg hw).symm
    have hcode : m.windowCode s.tb.st mh ml = code := congrArg (fun r => firstOf m.failReason (firstOf r cells)) hdeskew
    obtain ⟨w, hw, hexec, hpend⟩ : ∃ w, w = m.windowChecked s.tb.st mh ml ∧
        exec (.trimWindowEnd c edgesH edgesL) s = .next ((s.windowClosed c mh ml w).settleIdle c) ∧ w.pending = false := by
      have hidle : s.windowIdle c mh ml (m.windowChecked s.tb.st mh ml) =
          (s.windowClosed c mh ml (m.windowChecked s.tb.st mh ml)).settleIdle c := by
        refine if_neg ?_
        unfold State.rearmsAfterTrim
        rcases hno with h | h
        · rw [show (s.chan c).trim.wasArmed = false from h]; simp
        · rw [show (s.chan c).trim.wasHeld = true from h]; simp
      obtain ⟨dh, dl, hchecked⟩ := m.windowChecked_eq s.tb.st mh ml
      exact ⟨_, rfl, congrArg Host.Outcome.next ((State.trimWindowEnd_eq edgesH edgesL hrun).trans hidle), by rw [hchecked]; exact hpending⟩
    obtain ⟨dh, dl, hchecked⟩ := m.windowChecked_eq s.tb.st mh ml
    rw [← hw, hcode] at hchecked
    have hclosed := (State.windowClosed_spec mh ml w hmode (c := c)).idle hpend
    generalize (s.windowClosed c mh ml w).settleIdle c = t at hclosed hexec
    obtain ⟨hnow, hmem, hlcy, htgen, hothers, ⟨harmed, hstore, hrunning, -, hresult, hreason, hgen⟩, htold⟩ := hclosed
    have htable : ∀ i, (t.chan c).trim.table i = (w.windowEnded s.nvm.tgen mh ml).store.getD i TrimTable.blank := fun i =>
      congrArg (fun l : List TrimTable => l.getD i TrimTable.blank) hstore
    have hfail : w.failReason = code := by rw [hchecked]
    have hband : b = w.b0.toNat := by rw [hchecked]
    have hold : w.table = m.table := by rw [hchecked]; rfl
    have hcells : w.pendCells = m.pendCells := by rw [hchecked]
    have hdesk : w.pendDeskew = m.pendDeskew := by rw [hchecked]
    have htrial : w.trial = m.trial := by rw [hchecked]
    have hlength : w.store.length = m.store.length := by rw [hchecked]
    rw [hfail] at htgen htold
    refine ⟨t, hexec, hnow, hmem, hlcy, harmed, hrunning, hreason.trans hfail, hresult.trans ?_,
      fun e he => ⟨congrArg Prod.snd (hothers e he), congrArg Prod.fst (hothers e he)⟩, fun i hi => ?_, fun hc => ⟨?_, ?_, htold hc⟩,
      fun hc hlen => ?_⟩
    · rw [Trim.windowEnded_result, hfail]
    · rw [htable, Trim.windowEnded_table_ne (hband ▸ hi), hold]
    · rw [htable, Trim.windowEnded_failed (by rw [hfail]; exact hc), ← hold]
      rfl
    · exact htgen.trans (if_neg hc)
    · have hpassed := hfail.trans hc
      have htab := (htable b).trans (Trim.windowEnded_table hband hpassed (hlength.symm ▸ hlen))
      refine ⟨hgen.trans (Trim.windowEnded_lastGen hpassed), htgen.trans (if_pos hc), by rw [htab], fun hp => ⟨?_, ?_⟩, fun hp => ?_,
        fun hp => ?_, fun hp => ?_⟩
      · rw [htab, ← htrial]
        exact Trim.written_masks.trans (if_pos (hcells.trans hp))
      · rw [htab, ← htrial]
        exact Trim.written_cv (hcells.trans hp)
      · rw [htab, ← hold, hband]
        exact Trim.written_masks.trans (if_neg (by rw [hcells, hp]; decide))
      · obtain ⟨h1, h2, h3⟩ := Trim.written_deskew (mh := mh) (ml := ml) (hdesk.trans hp)
        rw [htab]
        exact ⟨h1, h2, h3⟩
      · rw [htab, ← hold, hband]
        exact Trim.written_noDeskew (hdesk.trans hp)

end Sys2Proof.Proofs
end

section
/-! SUPPORT. The galley after a codeword has been stored (R380, R381, R392). -/

namespace Sys2Proof.Machine

open Sys2Proof.Safety

/-! ## A word and its bytes -/

theorem getLsbD_wordOf (f : Nat → Byte) {i : Nat} (hi : i < 128) : (wordOf f).getLsbD i = (f (i / 8)).getLsbD (i % 8) := by
  have hfold : ∀ l : List Nat, (l.foldr (fun b acc => (f b).setWidth 128 <<< (8 * b) ||| acc) (0 : Qword)).getLsbD i =
      l.any fun b => decide (8 * b ≤ i) && (f b).getLsbD (i - 8 * b) := by
    intro l
    induction l with
    | nil => exact BitVec.getLsbD_zero
    | cons b l ih =>
      rw [List.foldr_cons, BitVec.getLsbD_or, ih, List.any_cons, BitVec.getLsbD_shiftLeft, BitVec.getLsbD_setWidth, decide_eq_true hi,
        decide_eq_true (by omega : i - 8 * b < 128), Bool.true_and, Bool.true_and]
      by_cases h : 8 * b ≤ i
      · rw [decide_eq_false (by omega), decide_eq_true h]; rfl
      · rw [decide_eq_true (by omega), decide_eq_false h]; rfl
  unfold wordOf
  rw [hfold, Bool.eq_iff_iff, List.any_eq_true]
  constructor
  · rintro ⟨b, -, hb⟩
    obtain ⟨hle, hbit⟩ := Bool.and_eq_true_iff.1 hb
    have hle := of_decide_eq_true hle
    have hlt : i - 8 * b < 8 := BitVec.lt_of_getLsbD hbit
    rw [show i / 8 = b by omega, show i % 8 = i - 8 * b by omega]
    exact hbit
  · intro h
    refine ⟨i / 8, List.mem_range.2 (by omega), ?_⟩
    rw [decide_eq_true (by omega), show i - 8 * (i / 8) = i % 8 by omega, h]
    rfl

theorem wordOf_bytes {f : Nat → Byte} {w : Qword} (h : ∀ b < 16, f b = w.extractLsb' (8 * b) 8) : wordOf f = w := by
  refine BitVec.eq_of_getLsbD_eq fun i hi => ?_
  rw [getLsbD_wordOf f hi, h _ (by omega), BitVec.getLsbD_extractLsb', decide_eq_true (by omega : i % 8 < 8), Bool.true_and,
    show 8 * (i / 8) + i % 8 = i by omega]

/-! ## A stored word -/

section Store
variable {s : State} {g : Nat} {w : Qword} (hmem : Memory.wf s.mem)
include hmem

theorem State.byte_setGalley (a : Nat) : (s.setGalley g w).byte a =
    if 16 * g ≤ a ∧ a < 16 * g + 16 then w.extractLsb' (8 * (a - 16 * g)) 8 else s.byte a := by
  have hlen : (bytesOf w).length = 16 := rfl
  unfold State.byte State.setGalley
  dsimp only
  rw [sget_ssets s.mem (16 * g) (bytesOf w) a hmem, hlen]
  split
  · unfold bytesOf
    rw [List.getD_eq_getElem?_getD, List.getElem?_map, List.getElem?_range (by omega)]
    rfl
  · rfl

theorem State.galley_setGalley_self : (s.setGalley g w).galley g = w := by
  refine wordOf_bytes fun b hb => ?_
  rw [State.byte_setGalley hmem, if_pos (by omega), Nat.add_sub_cancel_left]

theorem State.galley_setGalley_ne {h : Nat} (hne : h ≠ g) : (s.setGalley g w).galley h = s.galley h := by
  unfold State.galley
  refine wordOf_bytes fun b hb => ?_
  rw [State.byte_setGalley hmem, if_neg (by omega)]
  refine BitVec.eq_of_getLsbD_eq fun i hi => ?_
  rw [BitVec.getLsbD_extractLsb', decide_eq_true hi, Bool.true_and, getLsbD_wordOf _ (by omega), show (8 * b + i) / 8 = b by omega,
    show (8 * b + i) % 8 = i by omega]

end Store

/-! ## A stored codeword without test facilities -/

/-- What a codeword written without an injection leaves. -/
structure Stored (s : State) (g : Nat) (w : Qword) (t : State) : Prop where
  frame : ∃ l, t = { s with mem := t.mem, chk := t.chk, tst := { s.tst with eccList := l } }
  wf : Memory.wf t.mem ∧ Sparse 0 t.chk
  self : t.galley g = w ∧ sget 0 t.chk g = 0
  others : ∀ h, h ≠ g → t.galley h = s.galley h ∧ sget 0 t.chk h = sget 0 s.chk h

theorem dataCheck_zero : dataCheck ((0 : Codeword).extractLsb' 0 128) ^^^ (0 : Codeword).extractLsb' 128 16 = 0 := by decide +kernel

theorem State.storeCode_plain {s : State} (port g : Nat) (w : Qword) (own : Bool) (hplain : s.tst.on = false) (hmem : Memory.wf s.mem)
    (hchk : Sparse 0 s.chk) : Stored s g w (s.storeCode port g w own) := by
  have heq : s.storeCode port g w own =
      { s.storeFlipped g w 0 with tst := { s.tst with eccList := s.tst.eccList.filter (· != g) } } := by
    unfold State.storeCode
    dsimp only
    rw [if_neg (by rw [hplain]; simp)]
  obtain ⟨f, hf⟩ : ∃ f : Codeword, f = 0 := ⟨_, rfl⟩
  have hframe : s.storeFlipped g w f = { s with mem := (s.storeFlipped g w f).mem, chk := (s.storeFlipped g w f).chk } := rfl
  have hw : w ^^^ f.extractLsb' 0 128 = w := by rw [hf]; simp
  have hmemory := s.storeFlipped_mem g w f
  have hsum := s.storeFlipped_chk g w f
  rw [hw] at hmemory
  rw [hf] at hframe hmemory
  rw [hf, dataCheck_zero] at hsum
  have hwf := s.storeCode_wf port g w own hmem hchk
  rw [heq] at hwf ⊢
  generalize s.storeFlipped g w 0 = u at *
  have hgalley : ∀ h, ({ u with tst := { s.tst with eccList := s.tst.eccList.filter (· != g) } } : State).galley h = (s.setGalley g w).galley h :=
    fun h => congrArg (fun m => ({ s with mem := m } : State).galley h) hmemory
  refine ⟨⟨_, by rw [hframe]⟩, hwf, ⟨?_, ?_⟩, fun h hne => ⟨?_, ?_⟩⟩
  · rw [hgalley]
    exact State.galley_setGalley_self hmem
  · exact (congrArg (fun m => sget 0 m g) hsum).trans (sget_sset_self s.chk g 0 hchk)
  · rw [hgalley]
    exact State.galley_setGalley_ne hmem hne
  · exact (congrArg (fun m => sget 0 m h) hsum).trans (sget_sset_ne s.chk g h 0 hne)

end Sys2Proof.Machine
end

section
/-! SUPPORT. The turn of a single request (R390, R394, R396): what the pseudo-channel chooses, and what its command does. -/

namespace Sys2Proof.Machine

open Sys2Proof.Safety

/-- A REFpb is due by vc `v`. -/
def dueBy (due : Option Nat) (v : Nat) : Bool := match due with | some d => d ≤ v | none => false

/-- The choice among candidates at the first of the times at which one can be made. -/
def State.chosenFrom (s : State) (q : Pch) (cands : List (Req × Nat)) (due : Option Nat) (v0 : Nat) (times : List Nat) : State :=
  match times.min? with
  | none => s
  | some t =>
    let v := max (max v0 t) (s.pch q).busyTo
    let s1 := (s.ceilAt q v).insertAt q v
    if (s1.pch q).forcing then s1.forceNow q v else s1.chooseAt q cands (dueBy due v) v

theorem State.chosenFrom_min {s : State} {q : Pch} {cands : List (Req × Nat)} {due : Option Nat} {v0 t : Nat} {times : List Nat}
    (h : times.min? = some t) : s.chosenFrom q cands due v0 times =
      let v := max (max v0 t) (s.pch q).busyTo
      let s1 := (s.ceilAt q v).insertAt q v
      if (s1.pch q).forcing then s1.forceNow q v else s1.chooseAt q cands (dueBy due v) v := by
  unfold State.chosenFrom
  rw [h]

section Turn
variable {s : State} {q : Pch} {r : Req} {v : Nat} (h : VaultTurn s q r v)
include h

theorem VaultTurn.noCeiling {u : Nat} (hu : u = s.vc (s.clocks.vault.next s.now) ∨ u = v) : (s.ceilAt q u).insertAt q u = s := by
  have hcalm := h.calm u hu
  have hceil : s.ceilAt q u = s := if_neg (by omega)
  rw [hceil]
  exact if_neg (by rw [decide_eq_false (by omega)]; simp)

theorem VaultTurn.candidates : s.candidates q [] = [(r, max r.accepted ((s.pch q).bankTo.getD r.bank 0))] := by
  obtain ⟨hpc, hpres, hiss, -, -⟩ := h.mine
  have helig : r.eligible s.vlt.reqs = true := by
    unfold Req.eligible
    rw [h.only, hpres, hiss]
    simp
  unfold State.candidates
  dsimp only
  rw [h.only]
  rw [h.only] at helig
  rw [List.filter_cons_of_pos (by rw [helig, hpc]; simp)]
  rfl

theorem VaultTurn.notHeld : s.scrubHeld q r v = false := by
  unfold State.scrubHeld
  rw [h.only]
  by_cases hk : r.kind = .scrub
  · rw [List.any_cons, List.any_nil, h.scrub hk]
    simp [portClass]
  · rw [beq_false_of_ne hk, Bool.false_and]

/-- The one request is served in the first vc that can. -/
theorem State.vaultCommand_turn : s.vaultCommand q [] = (s.at_ (s.vcAt v)).issue q r v := by
  obtain ⟨howed, hinsert⟩ := h.unforced
  obtain ⟨hentry, hexit⟩ := h.awake
  have hforce : (s.pch q).forcing = false := by unfold PcSt.forcing; rw [howed, hinsert]; rfl
  let v0 := s.vc (s.clocks.vault.next s.now)
  let t0 := max r.accepted ((s.pch q).bankTo.getD r.bank 0)
  have hv : v = max (max v0 t0) (s.pch q).busyTo := h.at_
  have hready : t0 ≤ v := by rw [hv]; exact le_trans (le_max_right _ _) (le_max_left _ _)
  have hmin : (([t0] : List Nat) ++ (s.dueAt q v0).toList).min? = some t0 := by
    cases hd : s.dueAt q v0 with
    | none => rfl
    | some f =>
      have := h.later f hd
      exact congrArg some (min_eq_left (by omega))
  have hdue : dueBy (s.dueAt q v0) v = false := by
    cases hd : s.dueAt q v0 with
    | none => rfl
    | some f => exact decide_eq_false (by have := h.later f hd; omega)
  have hchoose : s.chooseAt q [(r, t0)] false v = (s.at_ (s.vcAt v)).issue q r v := by
    unfold State.chooseAt
    dsimp only
    rw [List.filter_cons_of_pos (by rw [decide_eq_true hready, VaultTurn.notHeld h]; rfl)]
    rfl
  have hrun : s.chooseRun q [] v0 = s.chosenFrom q [(r, t0)] (s.dueAt q v0) v0 ([t0] ++ (s.dueAt q v0).toList) := by
    unfold State.chooseRun
    rw [VaultTurn.noCeiling h (.inl rfl)]
    dsimp only
    rw [if_neg (by rw [hforce]; decide), VaultTurn.candidates h]
    rfl
  rw [State.chosenFrom_min hmin] at hrun
  dsimp only at hrun
  rw [← hv, VaultTurn.noCeiling h (.inr rfl), if_neg (by rw [hforce]; decide), hdue, hchoose] at hrun
  unfold State.vaultCommand
  dsimp only
  rw [h.run, h.plain]
  dsimp only
  rw [if_neg (by rw [hentry, hexit]; decide)]
  exact hrun

end Turn

/-! ## Commands -/

theorem PcSt.logged (p : PcSt) (v : Nat) (cmd : BitVec 4) (port bank row col req : Nat) :
    ∃ h, (p.log v cmd port bank row col req).hist.head? = some h ∧ h.cmd = cmd ∧ h.vct = BitVec.ofNat 16 v := ⟨_, rfl, rfl, rfl⟩

theorem Logged.of_hist {s t : State} {q : Pch} {v : Nat} {cmd : BitVec 4} (h : Logged s q v cmd) (ht : (t.pch q).hist = (s.pch q).hist) :
    Logged t q v cmd := by
  obtain ⟨x, hx, hc⟩ := h
  exact ⟨x, by rw [ht]; exact hx, hc⟩

end Sys2Proof.Machine
end

section
/-! SUPPORT. What each command of the vault leaves (R389, R390, R392, R396, R428). -/

namespace Sys2Proof.Machine

open Sys2Proof.Safety

/-! ## Requests that have been presented -/

/-- A request that has been presented stands in the table while others are presented. -/
theorem State.presentAll_presented {s : State} {r : Req} (v : Nat) (hr : r ∈ s.vlt.reqs) (hp : r.presented = true) :
    r ∈ (s.presentAll v).vlt.reqs := by
  have hfold : ∀ (f : List Req × List Nat × Bool → Req → List Req × List Nat × Bool),
      (∀ acc x, acc.1 ⊆ (f acc x).1) → (∀ acc, r ∈ (f acc r).1) → ∀ (l : List Req) acc, r ∈ acc.1 ∨ r ∈ l → r ∈ (l.foldl f acc).1 := by
    intro f hkeep hnew l
    induction l with
    | nil => exact fun acc h => h.resolve_right List.not_mem_nil
    | cons x l ih =>
      refine fun acc h => ih (f acc x) ?_
      rcases h with h | h
      · exact .inl (hkeep acc x h)
      · rcases List.mem_cons.1 h with rfl | h
        · exact .inl (hnew acc)
        · exact .inr h
  unfold State.presentAll
  split
  · exact hr
  · split
    next l shut woke hl =>
      have hmem : r ∈ l := by
        refine (congrArg (fun a => r ∈ a.1) hl).mp (hfold _ (fun acc x => ?_) (fun acc => ?_) _ _ (.inr hr))
        · obtain ⟨out, shut, woke⟩ := acc
          dsimp only
          split
          · exact List.subset_append_left _ _
          · split <;> exact List.subset_append_left _ _
        · obtain ⟨out, shut, woke⟩ := acc
          dsimp only
          rw [if_pos hp]
          exact List.mem_append_right _ (List.mem_singleton.2 rfl)
      dsimp only
      split
      · unfold State.wakeVault State.idleRestart
        split <;> exact hmem
      · exact hmem

/-- A command leaves request `r` in the table, the galley and the channels, and the open rows and the history of pseudo-channel `q`. -/
structure Waits (q : Pch) (r : Req) (s t : State) : Prop where
  now : t.now = s.now
  here : r ∈ s.vlt.reqs → r ∈ t.vlt.reqs
  rows : (t.pch q).rows = (s.pch q).rows
  hist : (t.pch q).hist = (s.pch q).hist
  mem : t.mem = s.mem
  chk : t.chk = s.chk
  chans : t.chans = s.chans

namespace Waits
variable {q : Pch} {r : Req} {s t u : State}

theorem refl : Waits q r s s := ⟨rfl, id, rfl, rfl, rfl, rfl, rfl⟩

theorem trans (h : Waits q r s t) (g : Waits q r t u) : Waits q r s u :=
  ⟨g.now.trans h.now, g.here ∘ h.here, g.rows.trans h.rows, g.hist.trans h.hist, g.mem.trans h.mem, g.chk.trans h.chk, g.chans.trans h.chans⟩

theorem setPch {p : PcSt} (hrows : p.rows = (s.pch q).rows) (hhist : p.hist = (s.pch q).hist) : Waits q r s (s.setPch q p) :=
  ⟨rfl, id, by rw [State.pch_setPch_self]; exact hrows, by rw [State.pch_setPch_self]; exact hhist, rfl, rfl, rfl⟩

theorem raise (n : Source) (b : Byte) : Waits q r s (s.raise n b) := by
  obtain ⟨l, h⟩ := s.raise_eq n b
  rw [h]
  exact ⟨rfl, id, rfl, rfl, rfl, rfl, rfl⟩

theorem submitNrr (hp : r.presented = true) (v p bank row : Nat) : Waits q r s (s.submitNrr v p bank row) := by
  unfold State.submitNrr State.addReq
  dsimp only
  generalize hz : (Vault.mod s fun w => _) = z
  have hframe := z.presentAll_table v
  have hstand : r ∈ z.vlt.reqs → r ∈ (z.presentAll v).vlt.reqs := fun hr => State.presentAll_presented v hr hp
  obtain ⟨_, l, _, _, _, _, _, heq, -⟩ := hframe
  rw [heq] at hstand ⊢
  subst hz
  exact ⟨rfl, fun hr => hstand (List.mem_append_left _ hr), rfl, rfl, rfl, rfl, rfl⟩

/-- An activate that counts for neighbour refresh. -/
theorem activated (hp : r.presented = true) (v bank row : Nat) : Waits q r s (s.activated q v bank row) := by
  have hall : ∀ (l : List Nat) (z : State), Waits q r z (l.foldl (fun z x => z.submitNrr v q.val bank x) z) := by
    intro l
    induction l with
    | nil => exact fun _ => refl
    | cons x l ih => exact fun z => (submitNrr hp v q.val bank x).trans (ih _)
  unfold State.activated
  dsimp only
  split
  · refine .trans (setPch ?_ ?_) (.trans (setPch ?_ ?_) (.trans (raise _ _) (hall _ _))) <;> rfl
  · exact setPch rfl rfl

end Waits

/-! ## Activate, precharge and read -/

/-- A closed row is activated. -/
def State.rowOpened (s : State) (q : Pch) (r : Req) (v : Nat) : State :=
  s.setPch q ({ s.pch q with rows := setAt (s.pch q).rows r.bank (some (r.row, v)), busyTo := max (s.pch q).busyTo (v + 1) }.log v cmdAct
    r.port r.bank r.row 0 r.id)

/-- An open row is precharged. -/
def State.rowClosed (s : State) (q : Pch) (r : Req) (v row : Nat) : State :=
  s.setPch q ({ s.pch q with rows := setAt (s.pch q).rows r.bank none, busyTo := max (s.pch q).busyTo (v + 1) }.log v cmdPre
    r.port r.bank row 0 r.id)

/-- The column command that opens or closes the row behind it. -/
def State.columnSent (s : State) (q : Pch) (r : Req) (v : Nat) (cmd : BitVec 4) : State :=
  s.setPch q ({ s.pch q with
    rows := if r.hint then setAt (s.pch q).rows r.bank (some (r.row, v)) else setAt (s.pch q).rows r.bank none
    busyTo := max (s.pch q).busyTo (v + 1) }.log v cmd r.port r.bank r.row (gCol (2 * r.burst)) r.id)

section Sent
variable (s : State) (q : Pch) (r : Req) (v : Nat)

theorem logged_setPch (p : PcSt) (cmd : BitVec 4) (port bank row col req : Nat) : Logged (s.setPch q (p.log v cmd port bank row col req)) q v cmd := by
  unfold Logged
  rw [State.pch_setPch_self]
  exact PcSt.logged _ _ _ _ _ _ _ _

theorem State.rowOpened_rows (hlen : r.bank < (s.pch q).rows.length) :
    ((s.rowOpened q r v).pch q).rows.getD r.bank none = some (r.row, v) := by
  unfold State.rowOpened
  rw [State.pch_setPch_self]
  refine (List.getD_eq_getElem?_getD ..).trans ?_
  exact congrArg (Option.getD · none) (List.getElem?_set_self hlen)

theorem State.rowClosed_rows (row : Nat) : ((s.rowClosed q r v row).pch q).rows = setAt (s.pch q).rows r.bank none := by
  unfold State.rowClosed
  rw [State.pch_setPch_self]
  rfl

end Sent

section Issue
variable {s : State} {q : Pch} {r : Req} {v : Nat} (hkind : r.kind ≠ .nrr)
include hkind

theorem State.issue_closed (hrow : (s.pch q).rows.getD r.bank none = none) :
    s.issue q r v = (s.rowOpened q r v).activated q v r.bank r.row := by
  unfold State.issue
  dsimp only
  rw [decide_eq_false hkind, Bool.false_and, if_neg Bool.false_ne_true, hrow]
  dsimp only
  rw [if_neg hkind]
  rfl

theorem State.issue_other {row l : Nat} (hrow : (s.pch q).rows.getD r.bank none = some (row, l)) (hne : row ≠ r.row) :
    s.issue q r v = s.rowClosed q r v row := by
  unfold State.issue
  dsimp only
  rw [decide_eq_false hkind, Bool.false_and, if_neg Bool.false_ne_true, hrow]
  dsimp only
  rw [decide_eq_false hne, Bool.false_and, if_neg Bool.false_ne_true]
  rfl

theorem State.issue_open {l : Nat} (hrow : (s.pch q).rows.getD r.bank none = some (r.row, l)) : s.issue q r v = s.column q r v := by
  unfold State.issue
  dsimp only
  rw [decide_eq_false hkind, Bool.false_and, if_neg Bool.false_ne_true, hrow]
  dsimp only
  rw [decide_eq_true rfl, bne_iff_ne.2 hkind]
  rfl

end Issue

theorem State.modReq_single {s : State} {r : Req} (h : s.vlt.reqs = [r]) (f : Req → Req) :
    s.modReq r.id f = { s with vlt := { s.vlt with reqs := [f r] } } := by
  unfold State.modReq Vault.mod
  dsimp only
  rw [h, List.map_cons, if_pos rfl, List.map_nil]

theorem State.column_read {s : State} {q : Pch} {r : Req} {v : Nat} (hread : (r.kind == .writeBurst || r.kind == .writeBack || r.gotRead) = false) :
    s.column q r v = ((s.columnSent q r v cmdRd).modReq r.id fun x => { x with issued := true }).chunkStep q r false := by
  unfold State.column
  dsimp only
  rw [hread]
  rfl

/-- What a write stores, and with what conditions it is told. -/
def State.burstStored (s : State) (r : Req) : State :=
  r.data.foldl (fun z d => z.storeCode r.port (2 * r.burst + bit d.1) d.2 (r.only.all (· == d.1))) s

def State.writtenBack (s : State) (q : Pch) (r : Req) : State :=
  if r.kind = .writeBack then s.raiseFrom false (pcSrc q) 0x40 false else s

theorem State.column_write {s : State} {q : Pch} {r : Req} {v : Nat} (hwrite : (r.kind == .writeBurst || r.kind == .writeBack || r.gotRead) = true) :
    s.column q r v = (((((s.columnSent q r v cmdWr).burstStored r).writtenBack q r).lateCheck q r v).chunkStep q r true).finishReq r v := by
  unfold State.column
  dsimp only
  rw [hwrite]
  rfl

/-- The account of chunks is the pseudo-channel's. -/
theorem State.chunkStep_eq (s : State) (q : Pch) (r : Req) (write : Bool) :
    ∃ l, s.chunkStep q r write = s.setPch q { s.pch q with chunks := l } := by
  unfold State.chunkStep
  split
  · exact ⟨_, rfl⟩
  · refine ⟨(s.pch q).chunks, ?_⟩
    have hset : s.vlt.pcs.set q (s.pch q) q.isLt = s.vlt.pcs := Vector.set_getElem_self q.isLt
    exact (congrArg (fun l => ({ s with vlt := { s.vlt with pcs := l } } : State)) hset).symm

/-! ## A write to the open row -/

/-- Nothing of what a write has stored changes, and no condition on its way is lost. -/
structure Counted (q : Pch) (s t : State) : Prop where
  now : t.now = s.now
  reqs : t.vlt.reqs = s.vlt.reqs
  cfg : t.vlt.portCfg = s.vlt.portCfg
  hist : (t.pch q).hist = (s.pch q).hist
  mem : t.mem = s.mem
  chk : t.chk = s.chk
  mode : t.pwr.mode = s.pwr.mode
  told : Told s t

theorem Counted.trans {q : Pch} {s t u : State} (h : Counted q s t) (g : Counted q t u) : Counted q s u :=
  ⟨g.now.trans h.now, g.reqs.trans h.reqs, g.cfg.trans h.cfg, g.hist.trans h.hist, g.mem.trans h.mem, g.chk.trans h.chk,
    g.mode.trans h.mode, h.told.trans g.told⟩

theorem State.writtenBack_counted (s : State) (q : Pch) (r : Req) : Counted q s (s.writtenBack q r) := by
  unfold State.writtenBack
  split
  · obtain ⟨l, h⟩ := s.raiseFrom_eq false (pcSrc q) 0x40 false
    rw [h]
    exact ⟨rfl, rfl, rfl, rfl, rfl, rfl, rfl, fun n b ⟨x, hx, hb⟩ => ⟨x, List.mem_append_left _ hx, hb⟩⟩
  · exact ⟨rfl, rfl, rfl, rfl, rfl, rfl, rfl, .refl s⟩

/-- A write is late where its age exceeds the TARGET of its port (R396). -/
theorem State.lateCheck_spec (s : State) (q : Pch) (r : Req) (v : Nat) : Counted q s (s.lateCheck q r v) ∧
    (r.port < 8 → portTarget s.vlt r.port < v - r.accepted → s.pwr.mode ≠ .reset → Reported (s.lateCheck q r v) (104 + q.val) 0x08) := by
  unfold State.lateCheck
  split
  · generalize hz : (Vault.mod s fun w => _) = z
    obtain ⟨l, h⟩ := z.raise_eq (pcSrc q) 0x08
    have hmode : z.pwr.mode = s.pwr.mode := by rw [← hz]; rfl
    refine ⟨?_, fun _ _ hr => z.reported_raise (pcSrc q) 0x08 (hmode ▸ hr) (by decide)⟩
    rw [h]
    subst hz
    exact ⟨rfl, rfl, rfl, rfl, rfl, rfl, rfl, fun n b ⟨x, hx, hb⟩ => ⟨x, List.mem_append_left _ hx, hb⟩⟩
  next hnot =>
    exact ⟨⟨rfl, rfl, rfl, rfl, rfl, rfl, rfl, .refl s⟩, fun hp hl => absurd (Bool.and_eq_true_iff.2 ⟨decide_eq_true hp, decide_eq_true hl⟩) hnot⟩

theorem State.chunkStep_counted (s : State) (q : Pch) (r : Req) (write : Bool) : Counted q s (s.chunkStep q r write) := by
  obtain ⟨l, h⟩ := s.chunkStep_eq q r write
  rw [h]
  exact ⟨rfl, rfl, rfl, by rw [State.pch_setPch_self], rfl, rfl, rfl, .of_truss rfl⟩

/-- The two codewords of a burst are stored, and no other. -/
theorem State.burstStored_spec {s : State} {r : Req} {b : Bool} {w0 w1 : Qword} (hdata : r.data = [(b, w0), (!b, w1)])
    (hplain : s.tst.on = false) (hmem : Memory.wf s.mem) (hchk : Sparse 0 s.chk) :
    (∃ l, s.burstStored r = { s with mem := (s.burstStored r).mem, chk := (s.burstStored r).chk, tst := { s.tst with eccList := l } }) ∧
    (∀ h w, (h, w) ∈ r.data → (s.burstStored r).galley (2 * r.burst + bit h) = w ∧ sget 0 (s.burstStored r).chk (2 * r.burst + bit h) = 0) ∧
    ∀ g, g / 2 ≠ r.burst → (s.burstStored r).galley g = s.galley g ∧ sget 0 (s.burstStored r).chk g = sget 0 s.chk g := by
  have heq : s.burstStored r = (s.storeCode r.port (2 * r.burst + bit b) w0 (r.only.all (· == b))).storeCode r.port
      (2 * r.burst + bit !b) w1 (r.only.all (· == !b)) := by
    unfold State.burstStored
    rw [hdata]
    rfl
  rw [heq]
  have hfirst := State.storeCode_plain r.port (2 * r.burst + bit b) w0 (r.only.all (· == b)) hplain hmem hchk
  generalize s.storeCode r.port (2 * r.burst + bit b) w0 (r.only.all (· == b)) = u at hfirst ⊢
  obtain ⟨⟨l, hu⟩, ⟨hm, hc⟩, hself, hothers⟩ := hfirst
  have hon : u.tst.on = false := by rw [hu]; exact hplain
  obtain ⟨⟨l', ht⟩, -, hself', hothers'⟩ :=
    State.storeCode_plain r.port (2 * r.burst + bit !b) w1 (r.only.all (· == !b)) hon hm hc
  generalize u.storeCode r.port (2 * r.burst + bit !b) w1 (r.only.all (· == !b)) = t at ht hself' hothers' ⊢
  have hbit : ∀ x : Bool, bit x < 2 := fun x => by cases x <;> decide
  have hapart : 2 * r.burst + bit b ≠ 2 * r.burst + bit !b := by cases b <;> simp [bit]
  refine ⟨⟨l', by rw [ht, hu]⟩, fun h w hin => ?_, fun g hg => ?_⟩
  · rw [hdata] at hin
    rcases List.mem_cons.1 hin with heq | hin
    · obtain ⟨rfl, rfl⟩ := Prod.mk.inj heq
      obtain ⟨hword, hsum⟩ := hothers' _ hapart
      exact ⟨hword.trans hself.1, hsum.trans hself.2⟩
    · obtain ⟨rfl, rfl⟩ := Prod.mk.inj (List.mem_singleton.1 hin)
      exact hself'
  · obtain ⟨hword, hsum⟩ := hothers g (fun h => hg (by have := hbit b; omega))
    obtain ⟨hword', hsum'⟩ := hothers' g (fun h => hg (by have := hbit !b; omega))
    exact ⟨hword'.trans hword, hsum'.trans hsum⟩

end Sys2Proof.Machine

namespace Sys2Proof.Proofs

open Sys2Proof.Machine Sys2Proof.Safety

/-- A burst write to the open row (R392, R396). -/
theorem columnWrite {z : State} {q : Pch} {r : Req} {v : Nat} {b : Bool} {w0 w1 : Qword} (honly : z.vlt.reqs = [r])
    (hplain : z.tst.on = false) (hwrite : (r.kind == .writeBurst || r.kind == .writeBack || r.gotRead) = true)
    (hmem : Memory.wf z.mem) (hchk : Sparse 0 z.chk) (hdata : r.data = [(b, w0), (!b, w1)]) :
    (z.column q r v).now = z.now ∧ (z.column q r v).vlt.reqs = [] ∧ Logged (z.column q r v) q v 2 ∧
    (∀ h w, (h, w) ∈ r.data → (z.column q r v).galley (2 * r.burst + bit h) = w ∧ sget 0 (z.column q r v).chk (2 * r.burst + bit h) = 0) ∧
    (∀ g, g / 2 ≠ r.burst → (z.column q r v).galley g = z.galley g ∧ sget 0 (z.column q r v).chk g = sget 0 z.chk g) ∧
    (r.port < 8 → fld (z.vlt.portCfg.getD r.port 0) 16 16 < v - r.accepted → z.pwr.mode ≠ .reset →
      Reported (z.column q r v) (104 + q.val) 0x08) := by
  have hlogged : Logged (z.columnSent q r v cmdWr) q v 2 := by
    unfold Logged State.columnSent
    rw [State.pch_setPch_self]
    exact PcSt.logged _ _ _ _ _ _ _ _
  obtain ⟨⟨l, hframe⟩, hwords, hothers⟩ := State.burstStored_spec (s := z.columnSent q r v cmdWr) hdata hplain hmem hchk
  have hback := State.writtenBack_counted ((z.columnSent q r v cmdWr).burstStored r) q r
  obtain ⟨hlate, htold⟩ := State.lateCheck_spec (((z.columnSent q r v cmdWr).burstStored r).writtenBack q r) q r v
  have hchunk := State.chunkStep_counted ((((z.columnSent q r v cmdWr).burstStored r).writtenBack q r).lateCheck q r v) q r true
  have hall := hback.trans (hlate.trans hchunk)
  have htable := State.finishReq_table (((((z.columnSent q r v cmdWr).burstStored r).writtenBack q r).lateCheck q r v).chunkStep q r true) r v
  rw [State.column_write hwrite]
  generalize hs : (z.columnSent q r v cmdWr).burstStored r = s1 at hframe hwords hothers hback hlate htold hchunk hall htable ⊢
  generalize hu : ((s1.writtenBack q r).lateCheck q r v).chunkStep q r true = u at hchunk hall htable ⊢
  generalize u.finishReq r v = t at htable ⊢
  have hstored : s1.now = z.now ∧ s1.vlt = (z.columnSent q r v cmdWr).vlt ∧ s1.pwr = z.pwr := by rw [hframe]; exact ⟨rfl, rfl, rfl⟩
  obtain ⟨hnow, hvlt, hpwr⟩ := hstored
  obtain ⟨_, reqs, _, _, _, _, _, ht, hleft⟩ := htable
  have hmem' : t.mem = s1.mem := by rw [ht]; exact hall.mem
  have hchk' : t.chk = s1.chk := by rw [ht]; exact hall.chk
  have hgalley : ∀ g, t.galley g = s1.galley g := fun g => congrArg (fun m => ({ s1 with mem := m } : State).galley g) hmem'
  refine ⟨?_, ?_, ?_, fun h w hin => ?_, fun g hg => ?_, fun hp hl hm => ?_⟩
  · rw [ht]
    exact hall.now.trans hnow
  · have hnone : reqs = [] := List.eq_nil_iff_forall_not_mem.2 fun x hx => by
      obtain ⟨y, hy, -⟩ := hleft x hx
      have hy : y ∈ u.vlt.reqs.filter fun x => x.id != r.id := hy
      rw [hall.reqs, hvlt] at hy
      obtain ⟨hin, hne⟩ := List.mem_filter.1 hy
      have hin : y ∈ z.vlt.reqs := hin
      rw [honly, List.mem_singleton] at hin
      rw [hin] at hne
      exact absurd hne (by simp)
    rw [ht]
    exact hnone
  · have hq : (t.pch q).hist = (u.pch q).hist := by rw [ht]; rfl
    have h1 : (s1.pch q).hist = ((z.columnSent q r v cmdWr).pch q).hist := congrArg (fun w : Vault => w.pcs[q].hist) hvlt
    exact Logged.of_hist hlogged (hq.trans (hall.hist.trans h1))
  · rw [hgalley, hchk']
    exact hwords h w hin
  · rw [hgalley, hchk']
    exact hothers g hg
  · have htell : Reported u (104 + q.val) 0x08 := by
      have h8 := htold hp (by
        unfold portTarget
        rw [hback.cfg, hvlt]
        exact hl) (by rw [hback.mode, hpwr]; exact hm)
      rw [← hu]
      exact (State.chunkStep_counted _ q r true).told _ _ h8
    rw [ht]
    exact htell

/-- Settles O34: the one request that can be served is chosen in its vc, and each of its four commands leaves what its row of Table 12.1
says. -/
theorem vaultCommands : Obligations.VaultCommands := by
  unfold Obligations.VaultCommands
  intro s q r v h row now
  have hexec : exec (.vaultCommand q []) s = .next ((s.at_ (s.vcAt v)).issue q r v) :=
    congrArg Host.Outcome.next (State.vaultCommand_turn h)
  obtain ⟨hpc, hpres, hiss, hbank, hkind⟩ := h.mine
  have hlen : ((s.at_ (s.vcAt v)).pch q).rows.length = 16 := h.rows
  have honly : (s.at_ (s.vcAt v)).vlt.reqs = [r] := h.only
  rw [hexec]
  refine ⟨fun l b hrow hwrite hok hdata => ?_, fun l hrow hread hgot => ?_, fun hrow => ?_, fun other l hrow hne => ?_⟩
  · obtain ⟨w0, w1, hdata⟩ := hdata
    obtain ⟨hmem, hchk, -⟩ := hok
    rw [State.issue_open (s := s.at_ (s.vcAt v)) hkind hrow]
    obtain ⟨hnow, hreqs, hlogged, hwords, hothers, htold⟩ := columnWrite (z := s.at_ (s.vcAt v)) (q := q) (r := r) (v := v) honly h.plain
      (by rcases hwrite with hk | hk <;> rw [hk] <;> rfl) hmem hchk hdata
    exact ⟨_, rfl, hnow, hreqs, hlogged, hwords, hothers, htold⟩
  · have hplain : (r.kind == .writeBurst || r.kind == .writeBack || r.gotRead) = false := by
      simp only [List.mem_cons, List.not_mem_nil, or_false] at hread
      rw [hgot]
      rcases hread with hk | hk | hk | hk | hk <;> rw [hk] <;> rfl
    rw [State.issue_open (s := s.at_ (s.vcAt v)) hkind hrow, State.column_read hplain]
    have hcount := State.chunkStep_counted
      (((s.at_ (s.vcAt v)).columnSent q r v cmdRd).modReq r.id fun x => { x with issued := true }) q r false
    have hchans := State.chunkStep_eq
      (((s.at_ (s.vcAt v)).columnSent q r v cmdRd).modReq r.id fun x => { x with issued := true }) q r false
    rw [State.modReq_single (s := (s.at_ (s.vcAt v)).columnSent q r v cmdRd) honly] at hcount hchans ⊢
    obtain ⟨m, hm⟩ := hchans
    exact ⟨_, rfl, hcount.now, hcount.reqs, Logged.of_hist (logged_setPch ..) hcount.hist, hcount.mem, hcount.chk,
      (congrArg State.chans hm :)⟩
  · rw [State.issue_closed (s := s.at_ (s.vcAt v)) hkind hrow]
    have hwait : Waits q r ((s.at_ (s.vcAt v)).rowOpened q r v) _ := .activated hpres v r.bank r.row
    refine ⟨_, rfl, hwait.now, hwait.here (honly ▸ List.mem_singleton.2 rfl), Logged.of_hist (logged_setPch ..) hwait.hist, ?_, hwait.mem,
      hwait.chk, hwait.chans⟩
    rw [hwait.rows]
    exact State.rowOpened_rows _ _ _ _ (hlen ▸ hbank)
  · rw [State.issue_other (s := s.at_ (s.vcAt v)) hkind hrow hne]
    have hrows := State.rowClosed_rows (s.at_ (s.vcAt v)) q r v other
    refine ⟨_, rfl, rfl, honly, logged_setPch .., ?_, fun b hb => ?_, rfl, rfl, rfl⟩
    · rw [hrows]
      unfold setAt
      rw [List.getD_eq_getElem?_getD, List.getElem?_set_self (hlen ▸ hbank)]
      rfl
    · rw [hrows]
      unfold setAt
      rw [List.getD_eq_getElem?_getD, List.getElem?_set_ne (Ne.symm hb), ← List.getD_eq_getElem?_getD]
      rfl

end Sys2Proof.Proofs
end

section
/-! The theorem that settles O60: rows whose instants the spec fixes complete. -/

namespace Sys2Proof.Machine

open Sys2Proof.Safety

/-- An arm leaves the trim of its channel. -/
theorem State.armAtInstant_trim (s : State) (c : Chan) (t : Instant) : ((s.armAtInstant c t).chan c).trim = (s.chan c).trim := by
  have hwake : (s.wakeVault t).chan c = s.chan c := congrArg (fun l : Vector Channel 96 => l[c]) (s.wakeVault_frame t).1
  have hunits : (((s.wakeVault t).chan c).armUnits t).trim = (s.chan c).trim := by
    rw [hwake]
    rfl
  unfold State.armAtInstant
  dsimp only
  split
  · exact (congrArg Channel.trim (State.chan_setChan_self ..)).trans hunits
  · obtain ⟨-, hfirst⟩ := RecordsOnly.firstRecord ((s.wakeVault t).setChan c (((s.wakeVault t).chan c).armUnits t)) c t (s.wakeVault t).tb.scale
    have hchan := (congrArg Prod.snd (hfirst c) : ((State.firstRecord _ c t _).chan c).trim = Channel.trim _)
    rw [State.chan_setChan_self] at hchan
    exact hchan.trans hunits

end Sys2Proof.Machine

namespace Sys2Proof.Proofs

open Sys2Proof.Machine Sys2Proof.Safety

/-- A whole multiple of P, 32 ns or more after the word and less than P later, is the first edge for a mark (R102, R104). -/
theorem firstEdge_whole {s : State} {v t : Instant} {k : Int} (hst : s.tb.st = .locked) (hjump : s.tb.jump = none)
    (hwhole : (t : Int) + s.tb.scale * 25 = k * (s.tb.refP * 25 : Int)) (hlate : v + 32 * 64000 ≤ t)
    (hfirst : (t : Int) < v + 32 * 64000 + (s.tb.refP * 25 : Int)) : s.firstEdge s.tb.refP (v + 32 * 64000) t = true := by
  refine (State.firstEdge_locked _ _ hst hjump).2 ⟨hlate, k, ?_, ?_⟩
  · rw [hwhole, sub_self]
    decide
  · rw [Int.sub_mul, Int.one_mul, ← hwhole]
    omega

section Trims
variable {s : State} {c : Chan} (hrun : (s.chan c).trim.running = true)
include hrun

/-- The end of an acquisition gives the trim its figures, its trial table and its verdict. -/
theorem acquisitionCompletes {cells : List CellMeas} (agH agL : List Int) (hlen : cells.length = 4) (hpend : (s.chan c).trim.pendCells = true)
    (hok : (s.chan c).trim.cellsOk = false) : ∃ t, exec (.acquisitionEnd c cells agH agL) s = .next t ∧
      t.now = max s.now ((s.chan c).trim.w0 + 1562500 * 51200) ∧ OnlyChan s t c ∧ (t.chan c).trim.running = true ∧
      (t.chan c).trim.figs.length = 10 ∧ (t.chan c).trim.trial.cv = true ∧ (t.chan c).trim.trial.masks.length = 4 ∧
      ((s.chan c).trim.failReason = 0 → ((t.chan c).trim.failReason = 0 ↔ (t.chan c).trim.cellsOk = true)) := by
  have hrow := acquisitionEnded (agH := agH) (agL := agL) hrun hpend hok (cells := cells)
  refine ⟨_, congrArg Host.Outcome.next hrow, rfl, State.onlyChan_setChan_at .., ?_⟩
  rw [State.chan_setChan_self]
  refine ⟨hrun, rfl, rfl, (List.length_map ..).trans hlen, fun h => ?_⟩
  have hreason : ((s.chan c).trim.acquired cells agH agL).failReason = cellsReason (cells.map figuresOf) agH agL := if_pos h
  exact (iff_of_eq (congrArg (· = 0) hreason)).trans beq_iff_eq.symm

/-- Nothing is selected again. -/
theorem acquisitionSkipped (cells : List CellMeas) (agH agL : List Int) (h : (s.chan c).trim.pendCells = false ∨ (s.chan c).trim.cellsOk = true) :
    exec (.acquisitionEnd c cells agH agL) s = .next { s with now := max s.now ((s.chan c).trim.w0 + 1562500 * 51200) } := by
  have hrow : s.acquisitionEnd c cells agH agL = s.at_ ((s.chan c).trim.w0 + 1562500 * scUnits) := by
    unfold State.acquisitionEnd
    dsimp only
    rw [if_neg (by rw [hrun]; decide), if_pos (by rcases h with h | h <;> rw [h] <;> simp)]
  exact congrArg Host.Outcome.next hrow

/-- The deskew phase makes its check, and changes the trim no further. -/
theorem deskewCompletes : ∃ t, exec (.deskewPhase c) s = .next t ∧ t.now = max s.now ((s.chan c).trim.w0 + 1875000 * 51200) ∧ OnlyChan s t c ∧
    (t.chan c).trim = { (s.chan c).trim with failReason := (t.chan c).trim.failReason } ∧
    ((s.chan c).trim.pendDeskew = false ∨ (s.chan c).trim.failReason ≠ 0 ∨ s.tb.st = .locked ∧ ((s.chan c).trim.pendCells = true ∨
      ((s.chan c).trim.table (s.chan c).trim.b0.toNat).cv = true) → (t.chan c).trim.failReason = (s.chan c).trim.failReason) := by
  by_cases hdesk : (s.chan c).trim.pendDeskew = true
  · have hrow := (deskewDone hrun).trans (if_pos hdesk)
    refine ⟨_, congrArg Host.Outcome.next hrow, rfl, State.onlyChan_setChan_at .., ?_⟩
    rw [State.chan_setChan_self]
    refine ⟨rfl, fun h => ?_⟩
    rcases h with h | h | ⟨hst, hcells⟩
    · rw [hdesk] at h
      exact nomatch h
    · exact firstOf_ne_zero h
    · have hno : ¬((s.chan c).trim.pendCells = false ∧ ((s.chan c).trim.table (s.chan c).trim.b0.toNat).cv = false) := by
        rintro ⟨h1, h2⟩
        rw [h1, h2] at hcells
        exact hcells.elim Bool.false_ne_true Bool.false_ne_true
      rw [if_neg hno, if_pos hst, firstOf_zero, firstOf_zero]
  · have hrow := (deskewDone hrun).trans (if_neg hdesk)
    exact ⟨_, congrArg Host.Outcome.next hrow, rfl, ⟨rfl, fun _ _ => rfl⟩, rfl, fun _ => rfl⟩

/-- A window ends with the first reason of its trim, whether or not the channel is armed again. -/
theorem windowCompletes (edgesH edgesL : List Int) (hmode : s.pwr.mode ≠ .reset) (hpending : (s.chan c).trim.pending = false) :
    ∃ t code, exec (.trimWindowEnd c edgesH edgesL) s = .next t ∧
      code = (s.chan c).trim.windowCode s.tb.st (measureDeskew s.tb.refP edgesH) (measureDeskew s.tb.refP edgesL) ∧
      (t.chan c).trim.running = false ∧ (t.chan c).trim.reason = code ∧ (t.chan c).trim.result = if code = 0 then 1 else 2 := by
  let m := (s.chan c).trim
  let mh := measureDeskew s.tb.refP edgesH
  let ml := measureDeskew s.tb.refP edgesL
  obtain ⟨dh, dl, hchecked⟩ := m.windowChecked_eq s.tb.st mh ml
  obtain ⟨w, hw⟩ : ∃ w, w = m.windowChecked s.tb.st mh ml := ⟨_, rfl⟩
  have hrow := State.trimWindowEnd_eq edgesH edgesL hrun
  rw [← hw] at hchecked
  have hrow : s.trimWindowEnd c edgesH edgesL = s.windowIdle c mh ml w := by rw [hw]; exact hrow
  have hclosed := (State.windowClosed_spec mh ml w hmode (c := c)).idle (by rw [hchecked]; exact hpending)
  have hself := hclosed.self
  have hfail : w.failReason = m.windowCode s.tb.st mh ml := by rw [hchecked]
  have htrim : ((s.windowIdle c mh ml w).chan c).trim = (((s.windowClosed c mh ml w).settleIdle c).chan c).trim := by
    unfold State.windowIdle
    dsimp only
    split
    · exact State.armAtInstant_trim ..
    · rfl
  refine ⟨_, _, congrArg Host.Outcome.next hrow, rfl, ?_⟩
  rw [htrim, ← show w.failReason = m.windowCode s.tb.st mh ml from hfail]
  exact ⟨hself.running, hself.reason, hself.result.trans Trim.windowEnded_result⟩

end Trims

/-- Settles O60: each row from the lemmas of its unit. -/
theorem rowsComplete : Obligations.RowsComplete := by
  refine ⟨?_, ?_, ?_⟩
  · intro s a v k hmode hst hjump hmark now p hwhole hlate hfirst
    obtain ⟨t, hexec, hnow, hstamp, htb, hmarked, hmarks, -, -, hsync, -, -, -, -, hmem, -⟩ :=
      markTaken hmark hmode (firstEdge_whole hst hjump hwhole hlate hfirst) (.inl hst)
    refine ⟨t, hexec, hnow, ?_, htb, hmarked, hmarks, by rw [hsync], hmem⟩
    exact (congrArg t.stamp hnow.symm).trans hstamp
  · intro s c hmode hrun m
    refine ⟨fun cells agH agL hlen hpend hok => acquisitionCompletes hrun agH agL hlen hpend hok, fun cells agH agL h =>
      acquisitionSkipped hrun cells agH agL h, deskewCompletes hrun, fun edgesH edgesL hpending => ?_⟩
    obtain ⟨t, code, hexec, hcode, hrunning, hreason, hresult⟩ := windowCompletes hrun edgesH edgesL hmode hpending
    refine ⟨t, hexec, hrunning, ?_, ?_, fun h => ?_, fun h hdesk => ?_⟩
    · rw [hreason, hresult]
      split
      next h => exact iff_of_true rfl h
      next h => exact iff_of_false (by decide) h
    · rw [hresult]
      split
      · exact .inl rfl
      · exact .inr rfl
    · rw [hreason, hcode]
      exact firstOf_ne_zero h
    · rw [hreason, hcode]
      exact (if_pos h).trans ((if_pos (if_pos hdesk)).trans rfl)
  · intro s a i ix
    have hi : ix.val ≤ 16 := Nat.le_of_lt_succ i.isLt
    have hrow : ∀ r, exec (.sensorSample a i r) s = .next (s.sample a ix r) := fun _ => rfl
    refine ⟨fun v hmode h16 => ?_, fun v hmode hplain hno hlo hhi => ?_, fun hmode hplain hno hcold => ?_, fun e j v hsd => ?_⟩
    · obtain ⟨hframe, -, -, hreading⟩ := sampledReset s a ix (some v) hmode
      exact ⟨_, hrow _, by rw [hframe], hreading v h16 rfl, by rw [hframe]⟩
    · obtain ⟨w, h, d, b, hat, -⟩ := sampledGood a hi hmode hplain hno hlo (show v ≤ 1200 by omega) ⟨by omega, .inl hhi⟩
      have hself := hat.self
      exact ⟨_, hrow _, hat.now, hat.mode, by rw [hself], by rw [hself], by rw [hself]⟩
    · obtain ⟨w, h, d, b, hat, -⟩ := sampledBad a hi (r := none) hmode hplain hno hcold rfl
      have hself := hat.self
      refine ⟨_, hrow _, hat.now, hat.mode, by rw [hself], by rw [hself], ?_⟩
      rw [hself]
      have : decide (3 ≤ (s.sens ix).fails + 1) = decide (2 ≤ (s.sens ix).fails) := decide_eq_decide.2 (by omega)
      exact congrArg ((s.sens ix).invalid || ·) this
    · have hcut := State.cutRow_spec (a := a) hsd
      exact ⟨_, rfl, hcut.inReset.mode, hcut.therm, hcut.hold, hcut.ended, hcut.log, hcut.inReset.galley.1, hcut.inReset.domains⟩

end Sys2Proof.Proofs
end

section
/-! The theorem that refutes O37: the twelfth SPAN edge after a visibility edge. -/

namespace Sys2Proof.Machine

open Sys2Proof.Safety

/-- RUN while the timebase settles: SPAN still has to move by 1,000 LSB in 62,000 cycles, from its edge 500 on (R121). -/
def glidingRun : State :=
  { State.reset with
    tb := { State.reset.tb with st := .settle, offset := -1000, glide := some 26200 }
    nvm := { State.reset.nvm with phase := 10 }
    pwr := { State.reset.pwr with mode := .run } }

/-- A SYNC word whose visibility edge is SPAN edge 601. -/
def glidingWord : Instant := 30746340

/-- E_D, SPAN edge 613, is not 12 times 51,200 units after SPAN edge 601. -/
theorem glidingRun_effect : (glidingRun.syncWord glidingWord 0 0 false).now = 31411845 ∧
    max glidingRun.now (max glidingWord (glidingRun.span.next (glidingWord + 19200) + 12 * 51200)) ≠ 31411845 := by
  decide +kernel

theorem glidingRun_ready : glidingRun.pwr.mode = .run ∧ glidingRun.nvm.phase = 10 ∧ glidingRun.tst.on = false ∧
    glidingRun.thm.shutdown = none ∧ SyncCrc 0 0 := by
  unfold SyncCrc
  decide +kernel

end Sys2Proof.Machine

namespace Sys2Proof.Proofs

open Sys2Proof.Machine Sys2Proof.Safety

/-- Refutes O37: while SPAN's phase glides after a REANCHOR, E_D of a NOP word, twelve span cycles after its visibility edge, is not 12
times 51,200 units after it. -/
theorem not_syncWords : ¬ Obligations.SyncWords := by
  rintro ⟨-, h⟩
  obtain ⟨hmode, hphase, hon, hshut, hcrc⟩ := glidingRun_ready
  obtain ⟨hnop, -⟩ := h glidingRun glidingWord 0 hmode hphase hon hshut
  obtain ⟨t, hexec, ⟨-, -, -, -, -, hnow, -⟩, -⟩ := hnop hcrc (.inl ⟨.inl rfl, by decide⟩)
  obtain ⟨hreal, hstated⟩ := glidingRun_effect
  obtain rfl : glidingRun.syncWord glidingWord 0 0 false = t := Host.Outcome.next.inj hexec
  exact hstated (hnow.symm.trans hreal)

end Sys2Proof.Proofs
end

section
/-! The theorem that settles O38: a fence and its placement. -/

namespace Sys2Proof.Machine

open Sys2Proof.Safety

/-! ## The channels at a fence (R355, R358, R361) -/

/-- The state at a fence but for channels, folios, timebase, synthesizers and vault. -/
def FenceFrame (s t : State) : Prop := ∃ chans folios tb synths vlt,
  t = { s with chans := chans, folios := folios, tb := tb, synths := synths, vlt := vlt }

theorem FenceFrame.refl (s : State) : FenceFrame s s := ⟨_, _, _, _, _, rfl⟩

theorem FenceFrame.trans {s t u : State} (h : FenceFrame s t) (g : FenceFrame t u) : FenceFrame s u := by
  obtain ⟨_, _, _, _, _, rfl⟩ := h
  obtain ⟨_, _, _, _, _, rfl⟩ := g
  exact ⟨_, _, _, _, _, rfl⟩

/-- What a fence makes of channel `c`, whose record would bear the time `time`. -/
def State.fenced (s : State) (f : FencePend) (tf : Nat) (old : Placement) (c : Chan) (time : Int) : Channel :=
  let x := s.chan c
  if !s.chOn c || !x.armedThrough (tf * lsbUnits) then x
  else if !s.bound c && x.armed then x.disarmed (tf * lsbUnits) (s.dcFrom (tf * lsbUnits)) flagDisarm
  else { x with merge := { x.merge with ins := x.merge.ins ++ [{ s.fenceRecord f tf old (s.placement c) with time := time }] } }

theorem State.fenceChan_spec (s : State) (f : FencePend) (tf : Nat) (old : Placement) (c : Chan) :
    FenceFrame s (s.fenceChan f tf old c) ∧ (s.fenceChan f tf old c).chan c = s.fenced f tf old c (s.stamp (tf * lsbUnits)) ∧
    ∀ d, d ≠ c → (s.fenceChan f tf old c).chan d = s.chan d := by
  unfold State.fenceChan State.fenced
  dsimp only
  split
  · exact ⟨.refl s, rfl, fun _ _ => rfl⟩
  · split
    · obtain ⟨_, _, _, _, h⟩ := s.disarm_eq c (tf * lsbUnits) flagDisarm
      exact ⟨⟨_, _, _, _, _, h⟩, s.chan_disarm_self c _ _, fun d hd => s.chan_disarm_ne c _ _ hd⟩
    · exact ⟨⟨_, _, _, _, _, rfl⟩, State.chan_setChan_self .., fun d hd => State.chan_setChan_ne _ _ _ _ hd⟩

/-- Every channel of a list meets the fence. -/
def State.fenceAll (s : State) (f : FencePend) (tf : Nat) (old : Chan → Placement) (l : List Chan) : State :=
  (l.map fun c => (c, old c)).foldl (fun z p => z.fenceChan f tf p.2 p.1) s

theorem State.fenced_congr {s t : State} (h : FenceFrame s t) (f : FencePend) (tf : Nat) (old : Placement) {c : Chan}
    (hc : t.chan c = s.chan c) (time : Int) : t.fenced f tf old c time = s.fenced f tf old c time := by
  obtain ⟨_, _, _, _, _, rfl⟩ := h
  unfold State.fenced
  rw [hc]
  rfl

theorem State.fenceAll_spec (f : FencePend) (tf : Nat) (old : Chan → Placement) (l : List Chan) (hl : l.Nodup) (s : State) :
    FenceFrame s (s.fenceAll f tf old l) ∧ (∀ d ∈ l, ∃ time, (s.fenceAll f tf old l).chan d = s.fenced f tf (old d) d time) ∧
    ∀ d, d ∉ l → (s.fenceAll f tf old l).chan d = s.chan d := by
  induction l generalizing s with
  | nil => exact ⟨.refl s, fun d hd => (nomatch hd), fun d _ => rfl⟩
  | cons c l ih =>
    obtain ⟨hc, hl⟩ := List.nodup_cons.1 hl
    obtain ⟨hframe, hself, hothers⟩ := s.fenceChan_spec f tf (old c) c
    obtain ⟨hframe', hin, hout⟩ := ih hl (s.fenceChan f tf (old c) c)
    refine ⟨hframe.trans hframe', fun d hd => ?_, fun d hd => ?_⟩
    · by_cases hdc : d = c
      · subst hdc
        exact ⟨_, (hout d hc).trans hself⟩
      · obtain ⟨time, h⟩ := hin d ((List.mem_cons.1 hd).resolve_left hdc)
        exact ⟨time, h.trans (State.fenced_congr hframe f tf (old d) (hothers d hdc) time)⟩
    · have hdc : d ≠ c := fun h => hd (h ▸ List.mem_cons_self)
      exact (hout d fun h => hd (List.mem_cons_of_mem _ h)).trans (hothers d hdc)

/-- A disarm leaves the stream and the marks of a SUBST. -/
theorem Channel.disarmed_stream (x : Channel) (t : Instant) (n : Nat) (flags : Word) : (x.disarmed t n flags).merge = x.merge ∧
    (x.disarmed t n flags).subOut = x.subOut ∧ (x.disarmed t n flags).subIn = x.subIn := by
  obtain ⟨_, h⟩ := Channel.finalTrigger_eq { x with armed := false, heldRearm := none, wantRearm := false }
  unfold Channel.disarmed
  simp only [h, Channel.closeAt]
  split
  · exact ⟨rfl, rfl, rfl⟩
  · split
    · exact ⟨rfl, rfl, rfl⟩
    · split <;> exact ⟨rfl, rfl, rfl⟩

section Fenced
variable {s : State} {f : FencePend} {tf : Nat} {old : Placement} {c : Chan} {time : Int}

theorem State.fenced_uncovered (h : ¬Covered s c (tf * lsbUnits)) : s.fenced f tf old c time = s.chan c := by
  have hb : ¬(s.chOn c = true ∧ (s.chan c).armedThrough (tf * lsbUnits) = true) := h
  exact if_pos (by rw [← Bool.not_and, Bool.not_eq_true', Bool.eq_false_iff]; exact fun hc => hb (Bool.and_eq_true_iff.1 hc))

theorem State.fenced_covered (h : Covered s c (tf * lsbUnits)) : s.fenced f tf old c time =
    if !s.bound c && (s.chan c).armed then (s.chan c).disarmed (tf * lsbUnits) (s.dcFrom (tf * lsbUnits)) flagDisarm
    else { s.chan c with merge := { (s.chan c).merge with
      ins := (s.chan c).merge.ins ++ [{ s.fenceRecord f tf old (s.placement c) with time := time }] } } := by
  obtain ⟨hon, harm⟩ := h
  exact if_neg (by rw [hon, harm]; decide)

theorem State.fenced_subs : (s.fenced f tf old c time).subOut = (s.chan c).subOut ∧ (s.fenced f tf old c time).subIn = (s.chan c).subIn := by
  unfold State.fenced
  dsimp only
  split
  · exact ⟨rfl, rfl⟩
  · split
    · exact (Channel.disarmed_stream ..).2
    · exact ⟨rfl, rfl⟩

end Fenced

/-! ## The placement at a fence -/

/-- The new table and step are in force. -/
def State.fenceTaken (s : State) (f : FencePend) : State :=
  let s1 := { s with place := { s.place with pend := s.place.pend.erase f } }
  let s2 := s1.tableForce
  if f.isRemap && f.subst then s2 else { s2 with place := { s2.place with step := f.step } }

/-- A SUBST moves the entries of its channel, where R370 allows it. -/
def State.substTaken (s : State) (f : FencePend) : State :=
  if !(f.isRemap && f.subst) then s
  else if !s.substOk f.a f.b then { s with place := { s.place with subFail := true } }
  else
    (({ s with place := { s.place with table := substTable s.place.table f.a f.b } } : State).modChan (Fin.ofNat 96 f.a) fun x =>
      { x with subOut := true }).modChan (Fin.ofNat 96 f.b) fun x => { x with subIn := true }

/-- The epoch of the fence begins. -/
def State.epochTaken (s : State) (stamp : Int) : State :=
  { s with place := { s.place with epoch := s.place.epoch + 1, ftime := stamp64 stamp } }

theorem State.fence_eq {s : State} {f : FencePend} (h : s.nextFence = some f) (harm : (f.isRemap && f.subst && f.armB) = false) :
    s.fence = ((((s.at_ (s.fenceAt f * lsbUnits)).fenceTaken f).substTaken f).epochTaken (s.stamp (s.fenceAt f * lsbUnits))).fenceAll f (s.fenceAt f)
      s.placement allChans := by
  unfold State.fence
  rw [h]
  dsimp only
  rw [if_neg]
  · rfl
  · intro hcond
    simp only [Bool.and_eq_true] at hcond harm
    grind

/-- One step of a SUBST. -/
def substStep (a b : Nat) (t : List (Nat × Word)) (k : Nat) : List (Nat × Word) :=
  sset 0 (sset 0 t (plcIndex k b) (sget 0 t (plcIndex k a))) (plcIndex k a) 0

section Subst
variable {a b : Nat} (ha : a < 96) (hb : b < 96) (hab : a ≠ b)
include ha hb hab

theorem sget_substStep {t : List (Nat × Word)} (ht : Sparse 0 t) (k : Nat) {j c : Nat} (hc : c < 96) :
    sget 0 (substStep a b t k) (plcIndex j c) =
      if j = k then if c = b then sget 0 t (plcIndex k a) else if c = a then 0 else sget 0 t (plcIndex j c)
      else sget 0 t (plcIndex j c) := by
  have happly : ∀ {i d e : Nat}, d < 96 → e < 96 → (plcIndex i d = plcIndex k e ↔ i = k ∧ d = e) := fun hd he => by unfold plcIndex; omega
  have hother : ∀ {i d e : Nat}, d < 96 → e < 96 → ¬(i = k ∧ d = e) → plcIndex i d ≠ plcIndex k e := fun hd he h heq => h ((happly hd he).1 heq)
  unfold substStep
  by_cases hj : j = k
  · subst hj
    rw [if_pos rfl]
    by_cases hcb : c = b
    · subst hcb
      rw [if_pos rfl, sget_sset_ne _ _ _ _ (hother hc ha fun h => hab h.2.symm), sget_sset_self _ _ _ ht]
    · rw [if_neg hcb]
      by_cases hca : c = a
      · subst hca
        rw [if_pos rfl, sget_sset_self _ _ _ (sparse_sset _ _ _ ht)]
      · rw [if_neg hca, sget_sset_ne _ _ _ _ (hother hc ha fun h => hca h.2), sget_sset_ne _ _ _ _ (hother hc hb fun h => hcb h.2)]
  · rw [if_neg hj, sget_sset_ne _ _ _ _ (hother hc ha fun h => hj h.1), sget_sset_ne _ _ _ _ (hother hc hb fun h => hj h.1)]

theorem sget_substSteps (l : List Nat) (hl : l.Nodup) (t : List (Nat × Word)) (ht : Sparse 0 t) (j : Nat) {c : Nat} (hc : c < 96) :
    sget 0 (l.foldl (substStep a b) t) (plcIndex j c) =
      if j ∈ l then if c = b then sget 0 t (plcIndex j a) else if c = a then 0 else sget 0 t (plcIndex j c)
      else sget 0 t (plcIndex j c) := by
  induction l generalizing t with
  | nil => rfl
  | cons k l ih =>
    obtain ⟨hk, hl⟩ := List.nodup_cons.1 hl
    rw [List.foldl_cons, ih hl (substStep a b t k) (sparse_sset _ _ _ (sparse_sset _ _ _ ht)), sget_substStep ha hb hab ht k hc, sget_substStep ha hb hab ht k ha]
    by_cases hj : j = k
    · subst hj
      rw [if_neg hk, if_pos rfl, if_pos List.mem_cons_self]
    · rw [if_neg hj, if_neg hj]
      exact if_congr (by rw [List.mem_cons, or_iff_right hj]) rfl rfl

/-- A SUBST moves the entries of `a` to `b` at every step (R371). -/
theorem sget_substTable {t : List (Nat × Word)} (ht : Sparse 0 t) {j c : Nat} (hj : j < 256) (hc : c < 96) :
    sget 0 (substTable t a b) (plcIndex j c) =
      if c = b then sget 0 t (plcIndex j a) else if c = a then 0 else sget 0 t (plcIndex j c) :=
  (sget_substSteps ha hb hab allSteps List.nodup_range t ht j hc).trans (if_pos (List.mem_range.2 hj))

end Subst

/-- A SUBST that R370 allows: the table, and the marks of its two channels. -/
theorem State.substTaken_done {s : State} {f : FencePend} (hsub : (f.isRemap && f.subst) = true) (hok : s.substOk f.a f.b = true)
    (ha : f.a < 96) (hb : f.b < 96) (hab : f.a ≠ f.b) : ∃ t, s.substTaken f = t ∧
      t.place = { s.place with table := substTable s.place.table f.a f.b } ∧
      (∀ c : Chan, c.val = f.a → (t.chan c).subOut = true) ∧ ∀ c : Chan, c.val = f.b → (t.chan c).subIn = true := by
  have hdone : s.substTaken f =
      (({ s with place := { s.place with table := substTable s.place.table f.a f.b } } : State).modChan (Fin.ofNat 96 f.a) fun x =>
        { x with subOut := true }).modChan (Fin.ofNat 96 f.b) fun x => { x with subIn := true } := by
    unfold State.substTaken
    rw [if_neg (by rw [hsub]; decide), if_neg (by rw [hok]; decide)]
  have hval : ∀ n, n < 96 → (Fin.ofNat 96 n : Chan).val = n := fun n hn => Nat.mod_eq_of_lt hn
  refine ⟨_, hdone, rfl, fun c hc => ?_, fun c hc => ?_⟩
  · have hca : c = Fin.ofNat 96 f.a := Fin.ext (hc.trans (hval _ ha).symm)
    have hcb : c ≠ Fin.ofNat 96 f.b := fun h => hab (by rw [← hc, h, hval _ hb])
    refine (congrArg Channel.subOut (State.chan_setChan_ne _ _ _ _ hcb)).trans ?_
    rw [hca]
    exact congrArg Channel.subOut (State.chan_setChan_self ..)
  · rw [show c = Fin.ofNat 96 f.b from Fin.ext (hc.trans (hval _ hb).symm)]
    exact congrArg Channel.subIn (State.chan_setChan_self ..)

/-- The table that a fence leaves in force. -/
def State.tableAt (s : State) : List (Nat × Word) := match s.place.staged with | some (l, _) => l | none => s.place.table

/-- A staged table comes into force; of the channels only the marks of a SUBST change. -/
theorem State.tableForce_spec (s : State) : ∃ cs no,
    s.tableForce = { s with chans := cs, place := { s.place with table := s.tableAt, tableNo := no, staged := none } } ∧
    ∀ c : Chan, ∃ a b, cs[c] = { s.chan c with subOut := a, subIn := b } := by
  unfold State.tableForce State.tableAt
  cases hst : s.place.staged with
  | none =>
    have hplace : ({ s.place with staged := none } : Place) = s.place := by rw [← hst]
    exact ⟨s.chans, s.place.tableNo, congrArg (fun p => ({ s with place := p } : State)) hplace.symm, fun c => ⟨_, _, rfl⟩⟩
  | some p =>
    obtain ⟨l, n⟩ := p
    dsimp only
    have hchan := State.chan_forChans_modChan nodup_allChans (fun x => { x with subOut := false, subIn := false })
      { s with place := { s.place with table := l, tableNo := some n, staged := none } }
    obtain ⟨cs, hcs⟩ := State.forChans_modChan_eq { s with place := { s.place with table := l, tableNo := some n, staged := none } }
      allChans fun x => { x with subOut := false, subIn := false }
    rw [hcs] at hchan ⊢
    exact ⟨cs, _, rfl, fun c => ⟨false, false, (hchan c).trans (if_pos (mem_allChans c))⟩⟩

end Sys2Proof.Machine

namespace Sys2Proof.Proofs

open Sys2Proof.Machine Sys2Proof.Safety

/-- Two channels that differ in the marks of a SUBST alone meet a fence alike. -/
theorem covered_of_marks {s t : State} {c : Chan} {u : Instant} {a b : Bool} (hpwr : t.pwr = s.pwr) (hc : t.chan c = { s.chan c with subOut := a, subIn := b }) :
    Covered t c u ↔ Covered s c u := by
  unfold Covered State.chOn State.dom Channel.armedThrough Channel.lastDisarm
  rw [hpwr, hc]

/-- A STEP, or a REMAP that is no SUBST. -/
theorem fenceTakesStep {s : State} {f : FencePend} (hnext : s.nextFence = some f) (hsub : f.isRemap = false ∨ f.subst = false) :
    ∃ z chans folios tb synths vlt no, exec .fence s = .next { s with
        now := max s.now (s.fenceAt f * lsbUnits)
        chans := chans, folios := folios, tb := tb, synths := synths, vlt := vlt
        place := { s.place with
          pend := s.place.pend.erase f, table := s.tableAt, tableNo := no, staged := none, step := f.step
          epoch := s.place.epoch + 1, ftime := stamp64 (s.stamp (s.fenceAt f * lsbUnits)) } } ∧
      z.place.table = s.tableAt ∧ z.place.step = f.step ∧ z.place.epoch = s.place.epoch + 1 ∧
      ∀ c, (∃ a b, z.chan c = { s.chan c with subOut := a, subIn := b }) ∧ (∀ u, Covered z c u ↔ Covered s c u) ∧
        ∃ time, chans[c] = z.fenced f (s.fenceAt f) (s.placement c) c time := by
  have hno : (f.isRemap && f.subst) = false := by rcases hsub with h | h <;> rw [h] <;> simp
  have hrow := State.fence_eq hnext (by rw [hno]; rfl)
  let y : State := { s.at_ (s.fenceAt f * lsbUnits) with place := { s.place with pend := s.place.pend.erase f } }
  obtain ⟨cs, no, hforce, hcs⟩ := y.tableForce_spec
  have htaken : (s.at_ (s.fenceAt f * lsbUnits)).fenceTaken f = { y.tableForce with place := { y.tableForce.place with step := f.step } } :=
    if_neg (by rw [hno]; decide)
  have hkept : ∀ w : State, w.substTaken f = w := fun w => if_pos (by rw [hno]; rfl)
  rw [hkept, htaken, hforce] at hrow
  generalize hz : State.epochTaken _ (s.stamp (s.fenceAt f * lsbUnits)) = z at hrow
  have hplace : z.place = { s.place with
      pend := s.place.pend.erase f, table := s.tableAt, tableNo := no, staged := none, step := f.step
      epoch := s.place.epoch + 1, ftime := stamp64 (s.stamp (s.fenceAt f * lsbUnits)) } := by rw [← hz]; rfl
  have hchan : ∀ c, z.chan c = cs[c] := fun c => by rw [← hz]; rfl
  obtain ⟨⟨chans, folios, tb, synths, vlt, hframe⟩, hin, -⟩ := State.fenceAll_spec f (s.fenceAt f) s.placement allChans nodup_allChans z
  rw [hframe] at hrow hin
  refine ⟨z, chans, folios, tb, synths, vlt, no, (congrArg Host.Outcome.next hrow).trans ?_, by rw [hplace], by rw [hplace], by rw [hplace],
    fun c => ?_⟩
  · rw [hplace, ← hz]
    rfl
  · obtain ⟨a, b, hab⟩ := hcs c
    exact ⟨⟨a, b, (hchan c).trans hab⟩, fun u => covered_of_marks (by rw [← hz]; rfl) ((hchan c).trans hab), hin c (mem_allChans c)⟩

/-- The outcome of a fence that is no SUBST for the channels. -/
theorem fenceMet {z : State} {f : FencePend} {tf : Nat} {old : Placement} {c : Chan} {time : Int} :
    (Covered z c (tf * lsbUnits) → z.bound c = true → ∃ r, (z.fenced f tf old c time).merge.ins = (z.chan c).merge.ins ++ [r] ∧
      r.fence = true ∧ r.inst = tf ∧ r.newStep = z.place.step ∧ r.newEpoch = z.place.epoch ∧ r.newSite = (z.placement c).site ∧
      r.oldStep = old.step ∧ r.oldEpoch = old.epoch ∧ r.oldSite = old.site ∧ (z.fenced f tf old c time).armed = (z.chan c).armed) ∧
    (Covered z c (tf * lsbUnits) → (z.chan c).armed = true → z.bound c = false →
      (z.fenced f tf old c time).armed = false ∧ (z.fenced f tf old c time).merge.ins = (z.chan c).merge.ins) ∧
    (¬Covered z c (tf * lsbUnits) → z.fenced f tf old c time = z.chan c) := by
  refine ⟨fun hcov hb => ?_, fun hcov harm hb => ?_, State.fenced_uncovered⟩
  · rw [State.fenced_covered hcov, if_neg (by simp [hb])]
    exact ⟨_, rfl, rfl, rfl, rfl, rfl, rfl, rfl, rfl, rfl, rfl⟩
  · rw [State.fenced_covered hcov, if_pos (by rw [hb, harm]; rfl), Channel.disarmed_armed, (Channel.disarmed_stream ..).1]
    exact ⟨rfl, rfl⟩

/-- A SUBST at its fence, refused or done (R370, R371). -/
theorem fenceSubst {s : State} {f : FencePend} (hnext : s.nextFence = some f) (hremap : f.isRemap = true) (hsub : f.subst = true)
    (harmB : f.armB = false) (hstaged : s.place.staged = none) (ha : f.a < 96) (hb : f.b < 96) :
    (s.substOk f.a f.b = false → ∃ t, exec .fence s = .next t ∧ t.place.table = s.place.table ∧ t.place.subFail = true ∧
      t.place.step = s.place.step ∧ t.place.epoch = s.place.epoch + 1) ∧
    (s.substOk f.a f.b = true → Sparse 0 s.place.table → ∃ t, exec .fence s = .next t ∧ t.place.step = s.place.step ∧
      t.place.epoch = s.place.epoch + 1 ∧ t.place.subFail = s.place.subFail ∧
      (∀ k, k < 256 → sget 0 t.place.table (k * 96 + f.b) = sget 0 s.place.table (k * 96 + f.a) ∧
        sget 0 t.place.table (k * 96 + f.a) = 0 ∧
        ∀ c, c < 96 → c ≠ f.a → c ≠ f.b → sget 0 t.place.table (k * 96 + c) = sget 0 s.place.table (k * 96 + c)) ∧
      (∀ c : Chan, c.val = f.a → (t.chan c).subOut = true) ∧ (∀ c : Chan, c.val = f.b → (t.chan c).subIn = true)) := by
  have hrow := State.fence_eq hnext (by rw [harmB, Bool.and_false])
  let y : State := { s.at_ (s.fenceAt f * lsbUnits) with place := { s.place with pend := s.place.pend.erase f } }
  have htaken : (s.at_ (s.fenceAt f * lsbUnits)).fenceTaken f = y := by
    have hforce : y.tableForce = y := by
      unfold State.tableForce
      rw [show y.place.staged = none from hstaged]
    unfold State.fenceTaken
    dsimp only
    rw [if_pos (by rw [hremap, hsub]; rfl)]
    exact hforce
  have hyes : (f.isRemap && f.subst) = true := by rw [hremap, hsub]; rfl
  have hokY : y.substOk f.a f.b = s.substOk f.a f.b := rfl
  rw [htaken] at hrow
  refine ⟨fun hok => ?_, fun hok hsparse => ?_⟩
  · have hdone : y.substTaken f = { y with place := { y.place with subFail := true } } := by
      unfold State.substTaken
      rw [if_neg (by rw [hyes]; decide), if_pos (by rw [hokY, hok]; rfl)]
    rw [hdone] at hrow
    obtain ⟨⟨_, _, _, _, _, hframe⟩, -, -⟩ := State.fenceAll_spec f (s.fenceAt f) s.placement allChans nodup_allChans
      (({ y with place := { y.place with subFail := true } } : State).epochTaken (s.stamp (s.fenceAt f * lsbUnits)))
    rw [hframe] at hrow
    exact ⟨_, congrArg Host.Outcome.next hrow, rfl, rfl, rfl, rfl⟩
  · have hab : f.a ≠ f.b := by
      unfold State.substOk at hok
      simp only [Bool.and_eq_true, bne_iff_ne] at hok
      exact hok.1.1.1.1
    obtain ⟨w2, hdone, hw, hout, hin⟩ := State.substTaken_done (s := y) hyes hok ha hb hab
    rw [hdone] at hrow
    have hz : ∃ z, z = w2.epochTaken (s.stamp (s.fenceAt f * lsbUnits)) ∧ z.chans = w2.chans ∧
        z.place.table = substTable s.place.table f.a f.b ∧ z.place.step = s.place.step ∧ z.place.epoch = s.place.epoch + 1 ∧
        z.place.subFail = s.place.subFail := by
      refine ⟨_, rfl, rfl, ?_, ?_, ?_, ?_⟩
      all_goals
        unfold State.epochTaken
        rw [hw]
    obtain ⟨z, hz, hzchans, htable, hstep, hepoch, hfail⟩ := hz
    rw [← hz] at hrow
    obtain ⟨⟨chans, folios, tb, synths, vlt, hframe⟩, hchan, -⟩ := State.fenceAll_spec f (s.fenceAt f) s.placement allChans nodup_allChans z
    rw [hframe] at hrow hchan
    have hmarks : ∀ c : Chan, chans[c].subOut = (w2.chan c).subOut ∧ chans[c].subIn = (w2.chan c).subIn := fun c => by
      obtain ⟨time, hc⟩ := hchan c (mem_allChans c)
      have hzc : z.chan c = w2.chan c := congrArg (fun l : Vector Channel 96 => l[c]) hzchans
      rw [← hzc, show chans[c] = _ from hc]
      exact State.fenced_subs
    refine ⟨_, congrArg Host.Outcome.next hrow, hstep, hepoch, hfail, fun k hk => ?_,
      fun c hc => (hmarks c).1.trans (hout c hc), fun c hc => (hmarks c).2.trans (hin c hc)⟩
    rw [htable]
    refine ⟨(sget_substTable ha hb hab hsparse hk hb).trans (if_pos rfl),
      (sget_substTable ha hb hab hsparse hk ha).trans ((if_neg hab).trans (if_pos rfl)), fun c hc hca hcb =>
      (sget_substTable ha hb hab hsparse hk hc).trans ((if_neg hcb).trans (if_neg hca))⟩

/-- Settles O38: each channel meets the fence in the placement that the fence brings into force; a SUBST moves the entries step by step. -/
theorem fences : Obligations.Fences := by
  unfold Obligations.Fences
  intro s f hnext tf at_ tab entry site
  refine ⟨fun hsub => ?_, fun hremap hsub harmB hstaged ha hb => ?_⟩
  · obtain ⟨z, chans, folios, tb, synths, vlt, no, hexec, htable, hstep, hepoch, hchan⟩ := fenceTakesStep hnext hsub
    have hbound : ∀ c : Chan, z.bound c = (entry tab f.step.toNat c.val).getLsbD 31 := fun c => by
      unfold State.bound State.plcEntry
      rw [htable, hstep]
      rfl
    have hsite : ∀ c : Chan, (z.placement c).site = site (entry tab f.step.toNat c.val) := fun c => by
      unfold State.placement State.plcEntry
      rw [htable, hstep]
      rfl
    refine ⟨_, hexec, rfl, rfl, rfl, rfl, rfl, rfl, rfl, rfl, rfl, fun c hcov hb => ?_, fun c hcov harm hb => ?_, fun c hcov => ?_⟩
    all_goals
      obtain ⟨⟨a, b, hz⟩, hsame, time, hc⟩ := hchan c
      have hmerge : (z.chan c).merge = (s.chan c).merge := by rw [hz]
      have harmed : (z.chan c).armed = (s.chan c).armed := by rw [hz]
      obtain ⟨h1, h2, h3⟩ := fenceMet (z := z) (f := f) (tf := s.fenceAt f) (old := s.placement c) (c := c) (time := time)
      rw [← hc] at h1 h2 h3
    · obtain ⟨r, hins, hfence, hinst, hns, hne, hnsite, hos, hoe, hosite, harm⟩ := h1 ((hsame _).2 hcov) ((hbound c).trans hb)
      exact ⟨r, by rw [← hmerge]; exact hins, hfence, hinst, hns.trans hstep, hne.trans hepoch, hnsite.trans (hsite c), hos, hoe, hosite,
        harm.trans harmed⟩
    · obtain ⟨h, hins⟩ := h2 ((hsame _).2 hcov) (harmed.trans harm) ((hbound c).trans hb)
      exact ⟨h, hins.trans (congrArg Merge.ins hmerge)⟩
    · have h := h3 fun hz => hcov ((hsame _).1 hz)
      have h' := h.trans hz
      exact ⟨(congrArg (fun x : Channel => x.merge.ins) h' :), (congrArg Channel.armed h' :)⟩
  · exact fenceSubst hnext hremap hsub harmB hstaged ha hb

end Sys2Proof.Proofs
end

section
/-! The theorem that settles O32: read-port transfers and record delivery. -/

namespace Sys2Proof.Machine

open Sys2Proof.Safety

/-! ## The next transfer of a read port (R335) -/

/-- Nothing has come for a ring, and nothing is given up: its descriptors wait. -/
theorem State.arrive_waits {s : State} {r : Ring}
    (h : ∀ d, (s.ring r).delivery = some d → d.fetched = [] ∧ d.abandon = false) : s.arrive r = s := by
  unfold State.arrive
  cases hd : (s.ring r).delivery with
  | none => rfl
  | some d =>
    obtain ⟨hnone, hstays⟩ := h d hd
    dsimp only
    rw [if_pos (by rw [hnone]; rfl)]
    unfold State.deliver
    rw [hd, Option.filter_some, if_pos (by unfold Delivery.here; rw [hnone]; rfl)]
    cases hx : s.closedRecOf d.folio with
    | none =>
      have hbind : ((some d).bind fun d => s.closedRecOf d.folio) = none := hx
      rw [hbind]
    | some x =>
      have hbind : ((some d).bind fun d => s.closedRecOf d.folio) = some x := hx
      have hfill : s.fillDescs ((s.ring r).descs.length + 1) r x = s := by
        unfold State.fillDescs
        dsimp only
        rw [hd]
        cases (s.ring r).descs with
        | nil => rfl
        | cons h l =>
          dsimp only
          rw [if_pos (by rw [hnone]; rfl)]
      rw [hbind]
      dsimp only
      rw [hfill, hd]
      dsimp only
      rw [if_neg (by rw [hstays]; simp)]

/-- A port serves the rings of its number. -/
theorem State.mem_portOrder (s : State) (j : Fin 4) (r : Ring) : r ∈ s.portOrder j ↔ r.val % 4 = j.val := by
  have hval : ∀ i, (Fin.ofNat 32 (4 * ((s.via.rr.getD j.val 0 + i) % 8) + j.val) : Ring).val = 4 * ((s.via.rr.getD j.val 0 + i) % 8) + j.val :=
    fun i => Nat.mod_eq_of_lt (by omega)
  unfold State.portOrder
  rw [List.mem_map]
  constructor
  · rintro ⟨i, -, rfl⟩
    rw [hval]
    omega
  · intro h
    refine ⟨(r.val / 4 + 8 - s.via.rr.getD j.val 0 % 8) % 8, List.mem_range.2 (by omega), Fin.ext ?_⟩
    rw [hval]
    omega

/-- What the ring has of its record, or starts with. -/
def RingSt.deliveryAt (q : RingSt) : Delivery :=
  q.delivery.getD { folio := q.queue.headD 0, asked := 0, sent := 0, inDesc := 0, first := true, abandon := false, fetched := [], arrived := 0 }

theorem State.wantsXfer_record {s : State} {r : Ring} (h : s.wantsXfer r = true) : ∃ x, s.closedRecOf (s.ring r).deliveryAt.folio = some x := by
  unfold State.wantsXfer at h
  dsimp only at h
  obtain ⟨-, h⟩ := Bool.and_eq_true_iff.1 h
  unfold RingSt.deliveryAt
  cases hd : (s.ring r).delivery with
  | some d =>
    rw [hd] at h
    cases hx : s.closedRecOf d.folio with
    | none =>
      dsimp only at h
      rw [hx, Bool.and_false] at h
      exact nomatch h
    | some x => exact ⟨x, hx⟩
  | none =>
    rw [hd] at h
    cases hq : (s.ring r).queue with
    | nil =>
      rw [hq] at h
      exact nomatch h
    | cons f l =>
      rw [hq] at h
      exact Option.isSome_iff_exists.1 h

/-- The words of a port's next transfer. -/
def Closed.nextWords (x : Closed) (asked : Nat) : List Nat :=
  (List.range (min 256 (x.total - asked))).map fun i => x.streamWord (asked + i)

/-- A port asks the vault for the bursts of a transfer. -/
def State.askBursts (s : State) (v port : Nat) (l : List (BurstData × Bool)) : State :=
  l.foldl (fun z b => z.submit v port .readBurst b.1.1 [] b.2) s

/-- The ring and the port take note of a transfer. -/
def State.xferAsked (s : State) (j : Fin 4) (r : Ring) (gs : List Nat) : State :=
  let s1 := s.modRing r fun q => { q with delivery := some { q.deliveryAt with asked := q.deliveryAt.asked + gs.length } }
  { s1 with via := { s1.via with
    rr := setAt s1.via.rr j.val ((r.val / 4 + 1) % 8), xfers := setAt s1.via.xfers j.val (some { ring := r, gs := gs, got := [], live := true }) } }

theorem State.readPort_asks {s : State} {j : Fin 4} (hfree : s.via.xfers.getD j.val none = none) (hrun : s.vlt.st ≠ .frozen)
    (hany : ∃ r : Ring, r.val % 4 = j.val ∧ s.wantsXfer r = true) : ∃ r x v, r.val % 4 = j.val ∧ s.wantsXfer r = true ∧
      s.closedRecOf (s.ring r).deliveryAt.folio = some x ∧
      s.readPort j = (s.xferAsked j r (x.nextWords (s.ring r).deliveryAt.asked)).askBursts v (8 + j.val)
        (withHints ((((x.nextWords (s.ring r).deliveryAt.asked).map (· / 2)).eraseDups).map fun b => (b, []))) := by
  obtain ⟨p, hp, hwant⟩ := hany
  cases hfind : (((s.portOrder j).filter s.descSeen ++ s.portOrder j).find? s.wantsXfer) with
  | none => exact absurd hwant (List.find?_eq_none.1 hfind p (List.mem_append_right _ ((s.mem_portOrder j p).2 hp)))
  | some r =>
    have hr : r ∈ s.portOrder j := by
      rcases List.mem_append.1 (List.mem_of_find?_eq_some hfind) with h | h
      · exact (List.mem_filter.1 h).1
      · exact h
    have hwant := List.find?_some hfind
    obtain ⟨x, hx⟩ := State.wantsXfer_record hwant
    have hlen : (x.nextWords (s.ring r).deliveryAt.asked).length = min 256 (x.total - (s.ring r).deliveryAt.asked) := by
      unfold Closed.nextWords
      rw [List.length_map, List.length_range]
    refine ⟨r, x, s.vc (s.clocks.vault.next (max s.now ((s.ring r).descVis.headD 0))), (s.mem_portOrder j r).1 hr, hwant, hx, ?_⟩
    unfold State.readPort
    dsimp only
    rw [hfree, if_neg (by unfold State.frozen; simpa using hrun), hfind]
    dsimp only
    rw [show s.closedRecOf ((s.ring r).delivery.getD _).folio = some x from hx]
    dsimp only
    unfold State.xferAsked
    rw [hlen]
    rfl

/-- Every burst asked for is a read request of its own. -/
theorem State.askBursts_spec (v port : Nat) (l : List (BurstData × Bool)) (s : State) : VaultOnly s (s.askBursts v port l) ∧
    (∀ r ∈ s.cores, r ∈ (s.askBursts v port l).cores) ∧
    ∀ b ∈ l, ∃ r ∈ (s.askBursts v port l).cores, r.port = port ∧ r.kind = .readBurst ∧ r.burst = b.1.1 := by
  induction l generalizing s with
  | nil => exact ⟨.refl s, fun _ h => h, fun b hb => absurd hb List.not_mem_nil⟩
  | cons b l ih =>
    obtain ⟨honly, hspec⟩ := s.submit_spec v port .readBurst b.1.1 [] b.2
    obtain ⟨honly', hold, hnew⟩ := ih (s.submit v port .readBurst b.1.1 [] b.2)
    have hcores : (s.submit v port .readBurst b.1.1 [] b.2).cores = s.cores ++ [newReq s.vlt.nextId port .readBurst b.1.1 [] b.2] := by
      rcases hspec with ⟨-, hc, -⟩ | ⟨id, both, hm, -⟩
      · exact hc
      · exact absurd (State.mergeable_some hm).1 (by decide)
    refine ⟨honly.trans honly', fun r hr => hold r (hcores ▸ List.mem_append_left _ hr), fun c hc => ?_⟩
    rcases List.mem_cons.1 hc with rfl | hc
    · exact ⟨_, hold _ (hcores ▸ List.mem_append_right _ List.mem_cons_self), rfl, rfl, rfl⟩
    · exact hnew c hc

theorem mem_withHints {l : List BurstData} {b : BurstData} (h : b ∈ l) : ∃ x, (b, x) ∈ withHints l := by
  rw [← withHints_fst l] at h
  obtain ⟨⟨c, x⟩, hc, rfl⟩ := List.mem_map.1 h
  exact ⟨x, hc⟩

/-! ## A delivery that ends (R338 to R340) -/

/-- The last words of a record are written to the descriptor in use. -/
def State.lastData (s : State) (r : Ring) (h : Desc) (d : Delivery) : State :=
  (s.send (.data h.addr d.fetched s.now)).modRing r fun q => { q with
    delivery := some { d with sent := d.sent + d.fetched.length, inDesc := 16 * d.fetched.length, fetched := [] } }

theorem State.fillDescs_last {s : State} {r : Ring} {x : Closed} {d : Delivery} {h : Desc} (n : Nat) (hd : (s.ring r).delivery = some d)
    (hdesc : (s.ring r).descs = [h]) (hsome : d.fetched ≠ []) (hin : d.inDesc = 0) (hsent : d.sent + d.fetched.length = x.total)
    (hok : descOk h = true) (hroom : 16 * d.fetched.length ≤ h.len.toNat) : s.fillDescs (n + 1) r x =
      ((s.lastData r h d).writeBack r h x (16 * d.fetched.length) (flgEop + if d.first then flgSop else 0)).delivered r x := by
  have hk : min ((h.len.toNat - d.inDesc) / 16) d.fetched.length = d.fetched.length := by rw [hin]; omega
  have haddr : h.addr + BitVec.ofNat 64 d.inDesc = h.addr := by rw [hin]; exact BitVec.add_zero _
  have hfill : d.inDesc + 16 * d.fetched.length = 16 * d.fetched.length := by rw [hin, Nat.zero_add]
  unfold State.fillDescs
  dsimp only
  rw [hd, hdesc]
  dsimp only
  rw [if_neg (by rw [List.isEmpty_iff]; exact hsome), hok, if_neg (by decide), hk, List.take_length, List.drop_length, haddr, hfill,
    if_pos hsent]
  rfl

/-- The write-back of the descriptor at RING_HEAD. -/
def State.backWord (s : State) (r : Ring) (x : Closed) (wlen flg : Nat) : PcieOut :=
  .writeBack r (s.ring r).head (BitVec.ofNat 32 wlen) (BitVec.ofNat 16 x.folio) (BitVec.ofNat 8 x.ch.val)
    (BitVec.ofNat 8 (flg + if x.isSeg then flgSeg else 0)) x.recNo (s.ring r).seq

/-- The ring has gone on to its next descriptor. -/
def RingSt.nextDesc (q : RingSt) : RingSt :=
  { q with head := BitVec.ofNat 16 ((q.head.toNat + 1) % 2 ^ q.log2n.toNat), descs := q.descs.drop 1, descVis := q.descVis.drop 1 }

/-- A write-back, and the vector it may raise. -/
theorem State.writeBack_spec (s : State) (r : Ring) (h : Desc) (x : Closed) (wlen flg : Nat) : ∃ rest irq pend,
    s.writeBack r h x wlen flg = { s with via := { s.via with
      out := s.via.out ++ [s.backWord r x wlen flg] ++ rest, rings := s.via.rings.set r (s.ring r).nextDesc, irqStat := irq, msixPend := pend } } ∧
    (rest = [] ∨ rest = [.msix r]) ∧ (h.ctrl.getLsbD 0 = false → (s.ring r).irqen = false → rest = []) := by
  have hvector : ∀ z : State, ∃ rest irq pend, z.vector r = { z with via := { z.via with
      out := z.via.out ++ rest, irqStat := irq, msixPend := pend } } ∧ (rest = [] ∨ rest = [.msix r]) := fun z => by
    unfold State.vector
    dsimp only
    split
    · exact ⟨[], _, _, by rw [List.append_nil], .inl rfl⟩
    · exact ⟨[.msix r], _, _, rfl, .inr rfl⟩
  let z : State := (s.send (s.backWord r x wlen flg)).modRing r RingSt.nextDesc
  have heq : s.writeBack r h x wlen flg = if h.ctrl.getLsbD 0 || (flg / 2 % 2 == 1 && (s.ring r).irqen) then z.vector r else z := rfl
  rw [heq]
  split
  next hv =>
    obtain ⟨rest, irq, pend, hz, hrest⟩ := hvector z
    exact ⟨rest, irq, pend, hz, hrest, fun hc hi => by rw [hc, hi] at hv; simp at hv⟩
  · exact ⟨[], s.via.irqStat, s.via.msixPend, by rw [List.append_nil]; rfl, .inl rfl, fun _ _ => rfl⟩

/-- The ring once a delivery has ended. -/
def RingSt.ended (q : RingSt) : RingSt := { q with delivery := none, seq := q.seq + 1, done := q.done + 1, queue := q.queue.drop 1 }

/-- The record has been delivered: its folio waits for its release, and the ring goes on to the next record. -/
theorem State.delivered_spec {s : State} {r : Ring} {x : Closed} (hkeep : (s.ring r).autorel = false) : ∃ clocks synths vlt truss via,
    s.delivered r x = { (s.modFolio x.folio fun f => { f with st := 3 }) with
      clocks := clocks, synths := synths, vlt := vlt, truss := truss, via := via } ∧ via.out = s.via.out ∧
    ∃ st from_, via.rings[r] = { (s.ring r).ended with st := st, starvedFrom := from_ } := by
  let q : RingSt := (s.ring r).ended.settle s.now
  have hq : q = { (s.ring r).ended with st := q.st, starvedFrom := q.starvedFrom } := RingSt.settle_eq _ _
  let z : State := (s.modFolio x.folio fun f => { f with st := 3 }).setRing r q
  have hz : (s.modFolio x.folio fun f => { f with st := 3 }).endDelivery r true = z := rfl
  have hself : z.ring r = q := State.ring_setRing_self ..
  have hauto : (z.ring r).autorel = false := by
    rw [hself, hq]
    exact hkeep
  have heq : s.delivered r x = z.idleRestart.sscApply := by
    unfold State.delivered
    dsimp only
    rw [hz, hauto, if_neg Bool.false_ne_true]
  obtain ⟨clocks, synths, vlt, l, hloops⟩ : LoopsOnly z.idleRestart z.idleRestart.sscApply := LoopsOnly.sscApply (.refl _)
  refine ⟨clocks, synths, vlt, _, z.via, heq.trans hloops, rfl, q.st, q.starvedFrom, hself.trans hq⟩

end Sys2Proof.Machine

namespace Sys2Proof.Proofs

open Sys2Proof.Machine Sys2Proof.Safety

/-- A read port with a ring that wants a transfer asks for its words, a read request for every burst of them. -/
theorem transferAsked {s : State} {j : Fin 4} (hlen : s.via.xfers.length = 4) (hfree : s.via.xfers.getD j.val none = none)
    (hrun : s.vlt.st ≠ .frozen) (hany : ∃ r : Ring, r.val % 4 = j.val ∧ s.wantsXfer r = true)
    (hwait : ∀ r d, r.val % 4 = j.val → (s.ring r).delivery = some d → d.fetched = [] ∧ d.abandon = false) :
    ∃ t r x d y, exec (.readPortTransfer j) s = .next t ∧ r.val % 4 = j.val ∧ s.wantsXfer r = true ∧
      (t.ring r).delivery = some d ∧ s.closedRecOf d.folio = some x ∧ t.via.xfers.getD j.val none = some y ∧
      y.ring = r ∧ y.live = true ∧ y.got = [] ∧ y.gs.length = min 256 (x.total - (d.asked - y.gs.length)) ∧
      (∀ i, i < y.gs.length → y.gs.getD i 0 = x.streamWord (d.asked - y.gs.length + i)) ∧
      (∀ g ∈ y.gs, ∃ q ∈ t.vlt.reqs, q.port = 8 + j.val ∧ q.kind = .readBurst ∧ q.burst = g / 2) ∧
      t.mem = s.mem ∧ t.chans = s.chans ∧ t.closed = s.closed := by
  have hidle : (s.portOrder j).foldl State.arrive s = s := by
    have hfold : ∀ l : List Ring, (∀ r ∈ l, r.val % 4 = j.val) → l.foldl State.arrive s = s := by
      intro l
      induction l with
      | nil => exact fun _ => rfl
      | cons r l ih =>
        intro hl
        rw [List.foldl_cons, State.arrive_waits fun d hd => hwait r d (hl r List.mem_cons_self) hd]
        exact ih fun p hp => hl p (List.mem_cons_of_mem _ hp)
    exact hfold _ fun r hr => (s.mem_portOrder j r).1 hr
  obtain ⟨r, x, v, hr, hwant, hx, heq⟩ := State.readPort_asks hfree hrun hany
  let gs := x.nextWords (s.ring r).deliveryAt.asked
  let l : List BurstData := ((gs.map (· / 2)).eraseDups).map fun b => (b, [])
  obtain ⟨honly, -, hasked⟩ := State.askBursts_spec v (8 + j.val) (withHints l) (s.xferAsked j r gs)
  have hgs : gs.length = min 256 (x.total - (s.ring r).deliveryAt.asked) := by
    unfold gs Closed.nextWords
    rw [List.length_map, List.length_range]
  have hrow : s.portTransfer j = (s.xferAsked j r gs).askBursts v (8 + j.val) (withHints l) := by
    unfold State.portTransfer
    rw [hidle]
    exact heq
  refine ⟨_, r, x, { (s.ring r).deliveryAt with asked := (s.ring r).deliveryAt.asked + gs.length },
    { ring := r, gs := gs, got := [], live := true }, congrArg Host.Outcome.next hrow, hr, hwant, ?_, hx, ?_, rfl, rfl, rfl, ?_,
    fun i hi => ?_, fun g hg => ?_, ?_⟩
  · rw [honly]
    exact congrArg RingSt.delivery (State.ring_setRing_self ..)
  · rw [honly]
    change (s.via.xfers.set j.val _).getD j.val none = _
    rw [List.getD_eq_getElem?_getD, List.getElem?_set_self (by rw [hlen]; exact j.isLt)]
    rfl
  · rw [Nat.add_sub_cancel]
    exact hgs
  · rw [Nat.add_sub_cancel]
    change gs.getD i 0 = _
    rw [List.getD_eq_getElem?_getD]
    unfold gs Closed.nextWords
    rw [List.getElem?_map, List.getElem?_range (by rw [← hgs]; exact hi)]
    rfl
  · obtain ⟨b, hb⟩ := mem_withHints (l := l) (b := (g / 2, [])) (List.mem_map.2
      ⟨g / 2, List.mem_eraseDups.2 (List.mem_map.2 ⟨g, hg, rfl⟩), rfl⟩)
    obtain ⟨q, hq, hport, hkind, hburst⟩ := hasked _ hb
    obtain ⟨p, hp, rfl⟩ := State.mem_reqs_of_core hq
    exact ⟨p, hp, hport, hkind, hburst⟩
  · rw [honly]
    exact ⟨rfl, rfl, rfl⟩

/-- A fetched descriptor that takes the last words of a record. -/
theorem recordDelivered {s : State} {r : Ring} (at_ : Instant) {h : Desc} {d : Delivery} {x : Closed} (hen : (s.ring r).en = true)
    (hkeep : (s.ring r).autorel = false) (hd : (s.ring r).delivery = some d) (hx : s.closedRecOf d.folio = some x)
    (hdescs : (s.ring r).descs = []) (hposted : 0 < (s.ring r).posted) (hsome : d.fetched ≠ [])
    (hcome : d.arrived ≤ max s.now at_) (hin : d.inDesc = 0) (hsent : d.sent + d.fetched.length = 8 + x.words)
    (hok : descOk h = true) (hroom : 16 * d.fetched.length ≤ h.len.toNat) :
    ∃ t rest clocks synths vlt truss via st from_, exec (.descriptorRead at_ r h) s = .next t ∧
      t = { (s.modFolio x.folio fun f => { f with st := 3 }) with
        now := max s.now at_, clocks := clocks, synths := synths, vlt := vlt, truss := truss, via := via } ∧
      via.out = s.via.out ++ [.data h.addr d.fetched (max s.now at_), s.backWord r x (16 * d.fetched.length) (2 + if d.first then 1 else 0)] ++ rest ∧
      (rest = [] ∨ rest = [.msix r]) ∧ (h.ctrl.getLsbD 0 = false → (s.ring r).irqen = false → rest = []) ∧
      via.rings[r] = { s.ring r with
        head := BitVec.ofNat 16 (((s.ring r).head.toNat + 1) % 2 ^ (s.ring r).log2n.toNat), descs := [], descVis := via.rings[r].descVis
        delivery := none, seq := (s.ring r).seq + 1, done := (s.ring r).done + 1, queue := (s.ring r).queue.drop 1, st := st, starvedFrom := from_ } := by
  let q : RingSt := { s.ring r with descs := [h], descVis := (s.ring r).descVis ++ [s.clocks.vault.vis win250 (max s.now at_)] }
  let z : State := (s.at_ at_).setRing r q
  have hzr : z.ring r = q := State.ring_setRing_self ..
  have hread : (s.at_ at_).descRead r h = z.deliver r := by
    have hroom : ((s.at_ at_).ring r).descs.length < ((s.at_ at_).ring r).posted := by
      rw [show (s.at_ at_).ring r = s.ring r from rfl, hdescs]
      exact hposted
    have hdesc : ({ (s.at_ at_).ring r with
        descs := ((s.at_ at_).ring r).descs ++ [h]
        descVis := ((s.at_ at_).ring r).descVis ++ [(s.at_ at_).clocks.vault.vis win250 (s.at_ at_).now] } : RingSt) = q := by
      rw [show (s.at_ at_).ring r = s.ring r from rfl, hdescs]
      rfl
    unfold State.descRead
    dsimp only
    rw [if_pos (by rw [decide_eq_true hroom, Bool.and_true]; exact hen), hdesc]
  let w : State := z.lastData r h d
  have hwr : w.ring r = { q with delivery := some { d with sent := d.sent + d.fetched.length, inDesc := 16 * d.fetched.length, fetched := [] } } := by
    refine (State.ring_setRing_self ..).trans ?_
    rw [← hzr]
    rfl
  obtain ⟨rest, irq, pend, hback, hrest, hnone⟩ := w.writeBack_spec r h x (16 * d.fetched.length) (flgEop + if d.first then flgSop else 0)
  let u : State := w.writeBack r h x (16 * d.fetched.length) (flgEop + if d.first then flgSop else 0)
  have hur : u.ring r = (w.ring r).nextDesc := by
    unfold u
    rw [hback]
    exact Vector.getElem_set_self ..
  have hfill : z.fillDescs ((z.ring r).descs.length + 1) r x = u.delivered r x := by
    refine State.fillDescs_last _ (by rw [hzr]; exact hd) (by rw [hzr]) hsome hin hsent hok hroom
  obtain ⟨clocks, synths, vlt, truss, via, hdone, hout, st, from_, hring⟩ := State.delivered_spec (s := u) (r := r) (x := x) (by
    rw [hur, hwr]
    exact hkeep)
  have hdeliver : z.deliver r = u.delivered r x := by
    have hgone : ((u.delivered r x).ring r).delivery = none := by
      rw [hdone]
      exact (congrArg RingSt.delivery hring :)
    have hhere : d.here z.now = true := Bool.or_eq_true_iff.2 (.inr (decide_eq_true hcome))
    unfold State.deliver
    rw [hzr, show q.delivery = some d from hd, Option.filter_some, if_pos hhere,
      show ((some d).bind fun d => z.closedRecOf d.folio) = some x from hx, ← hzr]
    dsimp only
    rw [hfill, hgone]
  refine ⟨_, rest, clocks, synths, vlt, truss, via, st, from_, congrArg Host.Outcome.next (hread.trans (hdeliver.trans hdone)), ?_, ?_, hrest,
    fun hc hi => hnone hc ((congrArg RingSt.irqen hwr).trans hi), ?_⟩
  · unfold u
    rw [hback]
    rfl
  · have hword : w.backWord r x (16 * d.fetched.length) (flgEop + if d.first then flgSop else 0) =
        s.backWord r x (16 * d.fetched.length) (2 + if d.first then 1 else 0) := by
      unfold State.backWord
      rw [hwr]
      rfl
    have hu : u.via.out = s.via.out ++ [.data h.addr d.fetched (max s.now at_)] ++
        [w.backWord r x (16 * d.fetched.length) (flgEop + if d.first then flgSop else 0)] ++ rest := congrArg (fun z : State => z.via.out) hback
    rw [hout, hu, hword]
    simp only [List.append_assoc, List.cons_append, List.nil_append]
  · rw [hur, hwr] at hring
    rw [hring]
    rfl

/-- Settles O32: the port's next ring has a record and words to ask for; the last words of a record end its delivery. -/
theorem readoutDelivers : Obligations.ReadoutDelivers := by
  refine fun s => ⟨fun j hlen hfree hrun _ hany hwait => transferAsked hlen hfree hrun hany hwait, ?_⟩
  intro r at_ h d x q hen hkeep hd hx hdescs hposted hab hsome hcome hin hsent haddr hlen hmin hroom
  have hok : descOk h = true := by
    unfold descOk
    rw [haddr, hlen, decide_eq_true hmin]
    rfl
  obtain ⟨t, rest, clocks, synths, vlt, truss, via, st, from_, hexec, rfl, hout, hrest, hnone, hring⟩ :=
    recordDelivered at_ hen hkeep hd hx hdescs hposted hsome hcome hin hsent hok hroom
  refine ⟨_, rest, hexec, rfl, hout, hrest, hnone, (congrArg RingSt.delivery hring :), (congrArg RingSt.descs hring :),
    (congrArg RingSt.queue hring :), (congrArg RingSt.seq hring :), (congrArg RingSt.done hring :), ?_, ?_, rfl, rfl, rfl⟩
  · exact (congrArg (fun p : RingSt => p.head.toNat) hring).trans (BitVec.toNat_ofNat ..)
  · refine congrArg Folio.st (sget_sset_of_ne s.folios x.folio (d := Folio.free) fun h => ?_)
    have hst : (3 : BitVec 2) = 0 := congrArg Folio.st h
    exact absurd hst (by decide)

end Sys2Proof.Proofs
end

section
/-! The theorem that refutes O36: the REFab with which the vault leaves self-refresh. -/

namespace Sys2Proof.Machine

open Sys2Proof.Safety

/-- A vault whose exit from self-refresh began in vc 0. -/
def leavingSelfRefresh : State :=
  { State.reset with
    pwr := { State.reset.pwr with mode := .run }
    vlt := { State.reset.vlt with st := .selfref, srExit := some 0 } }

/-- The REFab of the exit enters the history with the vc in which the exit began. -/
theorem leavingSelfRefresh_hist : ((leavingSelfRefresh.srExitDone.pch 0).hist.head?.map fun h => (h.cmd, h.vct)) = some (5, 0) := by
  decide +kernel

end Sys2Proof.Machine

namespace Sys2Proof.Proofs

open Sys2Proof.Machine Sys2Proof.Safety

/-- Refutes O36: the newest command of the history after an exit from self-refresh that began in vc 0 is a REFab of vc 0, not of vc
1,024. -/
theorem not_vaultMaintenance : ¬ Obligations.VaultMaintenance := by
  rintro ⟨-, h⟩
  have hmode : leavingSelfRefresh.pwr.mode ≠ .reset := by decide
  obtain ⟨-, -, -, hdone, -⟩ := h leavingSelfRefresh hmode
  obtain ⟨t, hexec, -, -, -, -, hall, -⟩ := hdone 0 rfl
  obtain ⟨-, -, x, hx, -, hvct⟩ := hall 0
  obtain rfl : leavingSelfRefresh.srExitDone = t := Host.Outcome.next.inj hexec
  have hhist := leavingSelfRefresh_hist
  rw [hx] at hhist
  have hzero : x.vct = 0 := congrArg Prod.snd (Option.some.inj hhist)
  rw [hzero] at hvct
  exact absurd hvct (by decide)

end Sys2Proof.Proofs
end

section
/-! The theorem that settles O46: STORE_CAL page by page, and the CRC-32 of a slot. -/

namespace Sys2Proof.Machine

open Sys2Proof.Safety

/-! ## What a row of STORE_CAL leaves -/

namespace OnlyNvm
variable {s t : State}

theorem refl (s : State) : OnlyNvm s s := rfl

theorem modNvm (h : OnlyNvm s t) (f : Nvm → Nvm) : OnlyNvm s (t.modNvm f) := by
  unfold OnlyNvm at h ⊢
  rw [h]
  rfl

theorem raise (h : OnlyNvm s t) (n : Source) (c : Byte) : OnlyNvm s (t.raise n c) := by
  obtain ⟨l, hl⟩ := t.raise_eq n c
  unfold OnlyNvm at h ⊢
  rw [hl, h]

theorem storeEnd (h : OnlyNvm s t) (result : BitVec 4) (cause : Byte) : OnlyNvm s (t.storeEnd result cause) :=
  raise (modNvm h _) 222 cause

end OnlyNvm

/-- STORE_CAL has ended with this result and this cause. -/
def StoreEnds (s t : State) (result : BitVec 4) (cause : Byte) : Prop :=
  t.nvm.store = none ∧ t.nvm.calState = 0 ∧ t.nvm.calResult = result ∧ t.nvm.programming = false ∧ t.nvm.flash = s.nvm.flash ∧
    Reported t 222 cause

theorem State.storeEnd_ends {s t : State} (result : BitVec 4) {cause : Byte} (hmode : t.pwr.mode ≠ .reset) (hc : cause ≠ 0)
    (hflash : t.nvm.flash = s.nvm.flash) : StoreEnds s (t.storeEnd result cause) result cause := by
  let z : State := t.modNvm fun n => { n with store := none, calState := 0, calResult := result, programming := false }
  have heq : t.storeEnd result cause = z.raise 222 cause := rfl
  have htold := z.reported_raise 222 cause hmode hc
  obtain ⟨l, hl⟩ := z.raise_eq 222 cause
  rw [heq]
  rw [hl] at htold ⊢
  exact ⟨rfl, rfl, rfl, rfl, hflash, htold⟩

/-- The next page is being programmed. -/
def StoreGoes (s : State) (q : StoreSt) (t : State) (step pages : Nat) (state : BitVec 4) : Prop :=
  t.truss = s.truss ∧ t.nvm.programming = true ∧ t.nvm.store = some { q with step := step, pages := pages, retried := false } ∧
    t.nvm.calState = state ∧ t.nvm.flash = s.nvm.flash

/-! ## ERASE_DONE (R469) -/

section Erase
variable {s : State} {q : StoreSt} (hq : s.nvm.store = some q) (blank : Bool)
include hq

theorem State.eraseDone_slot (h : q.step = 3) : s.eraseDone blank =
    if q.stopping then s.storeEnd 2 0x02 else if !blank then s.storeEnd 3 0x04 else s.program q 4 0 2 := by
  unfold State.eraseDone
  rw [hq]
  exact if_pos h

theorem State.eraseDone_train (h : q.step = 7) : s.eraseDone blank = if q.stopping || !blank then s.trainEnd else s.program q 8 0 4 := by
  unfold State.eraseDone
  rw [hq]
  exact (if_neg (by rw [h]; decide)).trans (if_pos h)

end Erase

/-! ## PAGE_PROGRAM_DONE (R469, R470) -/

/-- A page that has been programmed is counted. -/
def State.pageCounted (s : State) (q : StoreSt) (verified : Bool) : State :=
  s.modNvm fun n => { n with pages := if verified && q.step ≤ 5 then satAdd n.pages 1 else n.pages }

/-- A page that failed is programmed once more. -/
def State.pageRetried (s : State) (q : StoreSt) : State := s.modNvm fun n => { n with store := some { q with retried := true } }

section Page
variable {s : State} {q : StoreSt} (hq : s.nvm.store = some q) (hprog : s.nvm.programming = true) (hshut : s.thm.shutdown = none) (verified : Bool)
include hq hprog hshut

theorem State.pageDone_slot (h : q.step = 4 ∨ q.step = 5) : s.pageDone verified =
    if q.stopping then (if q.step = 4 then s.pageCounted q verified else s).storeEnd 2 0x02
    else if !verified then if q.retried then s.storeEnd 3 0x04 else s.pageRetried q
    else if q.step = 5 then s.commitSlot q
    else if q.pages + 1 = 193 then (s.pageCounted q verified).program q 5 193 3
    else (s.pageCounted q verified).program q 4 (q.pages + 1) 2 := by
  unfold State.pageDone
  rw [hq]
  dsimp only
  rw [if_neg (by rw [hprog]; decide), if_neg (by rw [hshut]; decide), if_pos h]
  rfl

theorem State.pageDone_train (h : q.step = 8) : s.pageDone verified =
    if q.stopping then s.trainEnd
    else if !verified then if q.retried then s.trainEnd else s.pageRetried q
    else if q.pages + 1 = 22 then { (s.trainEnd.modFlash fun f => { f with train := s.newTrain }) with free := s.free + 1 }
    else s.program q 8 (q.pages + 1) 4 := by
  unfold State.pageDone
  rw [hq]
  dsimp only
  rw [if_neg (by rw [hprog]; decide), if_neg (by rw [hshut]; decide), if_neg (by rw [h]; decide), if_pos h]
  rfl

end Page

/-- The slot that the commit page completes. -/
def StoreSt.slot (q : StoreSt) : TrimSlot :=
  let slot : TrimSlot := { magic := 0x7C1B0A5E, gen := q.gen, bodyLen := 0xC000, crc := 0, commit := ~~~ q.gen, tables := q.copy }
  { slot with crc := crc32 (trimCovered slot) }

/-- The flash with a slot in its place. -/
def flashWithSlot (f : Flash) (target : BitVec 2) (t : TrimSlot) : Flash :=
  if target = 1 then { f with slotA := some t } else { f with slotB := some t }

/-- The NVM unit with a slot in force. -/
def Nvm.committed (n : Nvm) (q : StoreSt) : Nvm :=
  { n with
    flash := n.flash.map fun f => flashWithSlot f q.target q.slot, inForce := q.target, pages := 194, calResult := 1, programming := false
    genA := if q.target = 1 then q.gen else n.genA, genB := if q.target = 2 then q.gen else n.genB }

theorem State.commitSlot_eq (s : State) (q : StoreSt) : s.commitSlot q =
    let z := (s.modNvm fun n => n.committed q).raise 222 0x01
    if z.trainDiffers then
      (z.modNvm fun n => { n with store := some { q with step := 7, pages := 0, retried := false }, calState := 4 }).modFlash
        fun f => { f with train := none }
    else z.modNvm fun n => { n with store := none, calState := 0 } := rfl

theorem State.commitSlot_only (s : State) (q : StoreSt) : OnlyNvm s (s.commitSlot q) := by
  have honly : OnlyNvm s ((s.modNvm fun n => n.committed q).raise 222 0x01) :=
    OnlyNvm.raise (OnlyNvm.modNvm (OnlyNvm.refl s) _) 222 0x01
  rw [State.commitSlot_eq]
  dsimp only
  split
  · exact OnlyNvm.modNvm (OnlyNvm.modNvm honly _) _
  · exact OnlyNvm.modNvm honly _

theorem flashWithSlot_spec (f : Flash) (target : BitVec 2) (t : TrimSlot) :
    (if target = 1 then (flashWithSlot f target t).slotA else (flashWithSlot f target t).slotB) = some t ∧
    (if target = 1 then (flashWithSlot f target t).slotB = f.slotB else (flashWithSlot f target t).slotA = f.slotA) ∧
    (flashWithSlot f target t).train = f.train := by
  unfold flashWithSlot
  by_cases h : target = 1
  · rw [if_pos h, if_pos h, if_pos h]
    exact ⟨rfl, rfl, rfl⟩
  · rw [if_neg h, if_neg h, if_neg h]
    exact ⟨rfl, rfl, rfl⟩

end Sys2Proof.Machine

namespace Sys2Proof.Proofs

open Sys2Proof.Machine Sys2Proof.Safety

/-- The commit page makes the slot the one in force; the training slot follows where its values differ. -/
theorem slotCommitted {s : State} (q : StoreSt) {f : Flash} (hmode : s.pwr.mode ≠ .reset) (hf : s.nvm.flash = some f) :
    let t := s.commitSlot q
    t.nvm.inForce = q.target ∧ t.nvm.pages = 194 ∧ t.nvm.calResult = 1 ∧ Reported t 222 0x01 ∧
    (q.target = 1 → t.nvm.genA = q.gen) ∧ (q.target = 2 → t.nvm.genB = q.gen) ∧
    ∃ g slot, t.nvm.flash = some g ∧ (if q.target = 1 then g.slotA else g.slotB) = some slot ∧
      slot.tables = q.copy ∧ slot.gen = q.gen ∧ slot.commit = ~~~ q.gen ∧ slot.crc = crc32 (trimCovered slot) ∧
      (if q.target = 1 then g.slotB = f.slotB else g.slotA = f.slotA) ∧
      ((t.nvm.store = none ∧ g.train = f.train ∧ t.nvm.calState = 0) ∨
       (t.nvm.store = some { q with step := 7, pages := 0, retried := false } ∧ g.train = none ∧ t.nvm.calState = 4)) := by
  let y : State := s.modNvm fun n => n.committed q
  let z : State := y.raise 222 0x01
  have htold : Reported z 222 0x01 := y.reported_raise 222 0x01 hmode (by decide)
  have hz : z.nvm = s.nvm.committed q := by
    obtain ⟨l, hl⟩ := y.raise_eq 222 0x01
    exact congrArg State.nvm hl
  have hflash : z.nvm.flash = some (flashWithSlot f q.target q.slot) := by
    rw [hz]
    unfold Nvm.committed
    rw [hf]
    rfl
  obtain ⟨hslot, hother, htrain⟩ := flashWithSlot_spec f q.target q.slot
  have hgen : (q.target = 1 → z.nvm.genA = q.gen) ∧ (q.target = 2 → z.nvm.genB = q.gen) := by
    rw [hz]
    exact ⟨fun h => if_pos h, fun h => if_pos h⟩
  have hforce : z.nvm.inForce = q.target ∧ z.nvm.pages = 194 ∧ z.nvm.calResult = 1 := by
    rw [hz]
    exact ⟨rfl, rfl, rfl⟩
  obtain ⟨h1, h2, h3⟩ := hforce
  rw [State.commitSlot_eq]
  dsimp only
  split
  · refine ⟨h1, h2, h3, htold.of_truss_eq rfl, hgen.1, hgen.2, ?_⟩
    refine ⟨{ flashWithSlot f q.target q.slot with train := none }, q.slot, ?_, hslot, rfl, rfl, rfl, rfl, hother, .inr ⟨rfl, rfl, rfl⟩⟩
    exact congrArg (Option.map fun f : Flash => { f with train := none }) hflash
  · exact ⟨h1, h2, h3, htold.of_truss_eq rfl, hgen.1, hgen.2, _, q.slot, hflash, hslot, rfl, rfl, rfl, rfl, hother,
      .inl ⟨rfl, htrain, rfl⟩⟩

/-- Two octet strings that differ in one octet have different codes (R468). -/
theorem crc32_ne_of_octet (p q : List Byte) {a b : Byte} (h : a ≠ b) : crc32 (p ++ a :: q) ≠ crc32 (p ++ b :: q) := by
  unfold crc32
  intro heq
  have hfold := BitVec.not_inj.1 heq
  rw [List.foldl_append, List.foldl_append, List.foldl_cons, List.foldl_cons] at hfold
  exact crc32Octet_ne h (crc32_fold_injective q hfold)

/-- The end of an erase. -/
theorem eraseOutcome {s : State} {q : StoreSt} (hmode : s.pwr.mode ≠ .reset) (hq : s.nvm.store = some q) (blank : Bool) :
    (q.step = 3 → ∃ t, exec (.eraseDone blank) s = .next t ∧ OnlyNvm s t ∧
      (q.stopping = true → StoreEnds s t 2 0x02) ∧ (q.stopping = false → blank = false → StoreEnds s t 3 0x04) ∧
      (q.stopping = false → blank = true → StoreGoes s q t 4 0 2)) ∧
    (q.step = 7 → ∃ t, exec (.eraseDone blank) s = .next t ∧ OnlyNvm s t ∧ t.nvm.flash = s.nvm.flash ∧
      t.nvm.calResult = s.nvm.calResult ∧
      (q.stopping = true ∨ blank = false → t.nvm.store = none ∧ t.nvm.calState = 0) ∧
      (q.stopping = false → blank = true → StoreGoes s q t 8 0 4)) := by
  refine ⟨fun hstep => ⟨_, rfl, ?_⟩, fun hstep => ⟨_, rfl, ?_⟩⟩
  · rw [State.eraseDone_slot hq blank hstep]
    cases hstop : q.stopping with
    | true =>
      refine ⟨OnlyNvm.storeEnd (OnlyNvm.refl s) _ _, fun _ => State.storeEnd_ends _ hmode (by decide) rfl, fun h => (nomatch h), fun h => (nomatch h)⟩
    | false =>
      rw [if_neg Bool.false_ne_true]
      cases blank with
      | true => exact ⟨rfl, fun h => (nomatch h), fun _ h => (nomatch h), fun _ _ => ⟨rfl, rfl, rfl, rfl, rfl⟩⟩
      | false =>
        rw [if_pos (by rfl)]
        exact ⟨OnlyNvm.storeEnd (OnlyNvm.refl s) _ _, fun h => (nomatch h), fun _ _ => State.storeEnd_ends _ hmode (by decide) rfl,
          fun _ h => (nomatch h)⟩
  · rw [State.eraseDone_train hq blank hstep]
    by_cases h : (q.stopping || !blank) = true
    · rw [if_pos h]
      refine ⟨rfl, rfl, rfl, fun _ => ⟨rfl, rfl⟩, fun hs hb => ?_⟩
      rw [hs, hb] at h
      exact nomatch h
    · rw [if_neg h]
      refine ⟨rfl, rfl, rfl, fun hc => absurd ?_ h, fun _ _ => ⟨rfl, rfl, rfl, rfl, rfl⟩⟩
      rcases hc with hc | hc <;> rw [hc] <;> simp

/-- The end of a page of the trim slot. -/
theorem slotPageOutcome {s : State} {q : StoreSt} (hmode : s.pwr.mode ≠ .reset) (hq : s.nvm.store = some q)
    (hprog : s.nvm.programming = true) (hshut : s.thm.shutdown = none) (verified : Bool) (hstep : q.step = 4 ∨ q.step = 5) :
    ∃ t, exec (.pageProgramDone verified) s = .next t ∧ OnlyNvm s t ∧
      (q.stopping = true → StoreEnds s t 2 0x02) ∧
      (q.stopping = false → verified = false → q.retried = false →
        t.nvm = { s.nvm with store := some { q with retried := true } } ∧ t.truss = s.truss) ∧
      (q.stopping = false → verified = false → q.retried = true → StoreEnds s t 3 0x04) ∧
      (q.stopping = false → verified = true → q.step = 4 → t.nvm.pages = satAdd s.nvm.pages 1 ∧
        (if q.pages + 1 = 193 then StoreGoes s q t 5 193 3 else StoreGoes s q t 4 (q.pages + 1) 2)) ∧
      (q.stopping = false → verified = true → q.step = 5 → t = s.commitSlot q) := by
  refine ⟨_, rfl, ?_⟩
  rw [State.pageDone_slot hq hprog hshut verified hstep]
  cases hstop : q.stopping with
  | true =>
    have hcount : ∀ z, z = (if q.step = 4 then s.pageCounted q verified else s) → OnlyNvm s z ∧ z.pwr.mode ≠ .reset ∧ z.nvm.flash = s.nvm.flash := by
      rintro _ rfl
      split <;> exact ⟨rfl, hmode, rfl⟩
    obtain ⟨honly, hm, hflash⟩ := hcount _ rfl
    exact ⟨OnlyNvm.storeEnd honly _ _, fun _ => State.storeEnd_ends _ hm (by decide) hflash, fun h => (nomatch h), fun h => (nomatch h),
      fun h => (nomatch h), fun h => (nomatch h)⟩
  | false =>
    rw [if_neg Bool.false_ne_true]
    cases verified with
    | false =>
      rw [if_pos (by rfl)]
      cases hretry : q.retried with
      | true =>
        exact ⟨OnlyNvm.storeEnd (OnlyNvm.refl s) _ _, fun h => (nomatch h), fun _ _ h => (nomatch h),
          fun _ _ _ => State.storeEnd_ends _ hmode (by decide) rfl, fun _ h => (nomatch h), fun _ h => (nomatch h)⟩
      | false =>
        rw [if_neg Bool.false_ne_true]
        exact ⟨rfl, fun h => (nomatch h), fun _ _ _ => ⟨by rw [← hstop]; rfl, rfl⟩, fun _ _ h => (nomatch h),
          fun _ h => (nomatch h), fun _ h => (nomatch h)⟩
    | true =>
      rw [if_neg (by decide)]
      by_cases h5 : q.step = 5
      · have h4 : q.step ≠ 4 := by rw [h5]; decide
        rw [if_pos h5]
        exact ⟨s.commitSlot_only q, fun h => (nomatch h), fun _ h => (nomatch h), fun _ h => (nomatch h), fun _ _ h => absurd h h4,
          fun _ _ _ => rfl⟩
      · have h4 : q.step = 4 := hstep.resolve_right h5
        have hpages : (s.pageCounted q true).nvm.pages = satAdd s.nvm.pages 1 := by
          unfold State.pageCounted
          rw [h4]
          rfl
        rw [if_neg h5]
        by_cases hlast : q.pages + 1 = 193
        · rw [if_pos hlast, if_pos hlast]
          exact ⟨rfl, fun h => (nomatch h), fun _ h => (nomatch h), fun _ h => (nomatch h), fun _ _ _ => ⟨hpages, rfl, rfl, rfl, rfl, rfl⟩,
            fun _ _ h => absurd h h5⟩
        · rw [if_neg hlast, if_neg hlast]
          exact ⟨rfl, fun h => (nomatch h), fun _ h => (nomatch h), fun _ h => (nomatch h), fun _ _ _ => ⟨hpages, rfl, rfl, rfl, rfl, rfl⟩,
            fun _ _ h => absurd h h5⟩

/-- The end of a page of the training slot. -/
theorem trainPageOutcome {s : State} {q : StoreSt} (hq : s.nvm.store = some q) (hprog : s.nvm.programming = true)
    (hshut : s.thm.shutdown = none) (verified : Bool) (hstep : q.step = 8) :
    ∃ t, exec (.pageProgramDone verified) s = .next t ∧ OnlyNvm s t ∧ t.nvm.calResult = s.nvm.calResult ∧
      (q.stopping = true → t.nvm.store = none ∧ t.nvm.flash = s.nvm.flash) ∧
      (q.stopping = false → verified = false → q.retried = false → t.nvm = { s.nvm with store := some { q with retried := true } }) ∧
      (q.stopping = false → verified = false → q.retried = true → t.nvm.store = none ∧ t.nvm.flash = s.nvm.flash) ∧
      (q.stopping = false → verified = true → q.pages + 1 ≠ 22 → StoreGoes s q t 8 (q.pages + 1) 4) ∧
      (∀ f, q.stopping = false → verified = true → q.pages + 1 = 22 → s.nvm.flash = some f → t.nvm.store = none ∧
        ∃ g slot, t.nvm.flash = some g ∧ g.train = some slot ∧ slot.lanes = s.vlt.trnLanes ∧ slot.crc = crc32 (trainCovered slot) ∧
          slot.commit = ~~~ slot.crc ∧ g.slotA = f.slotA ∧ g.slotB = f.slotB) := by
  refine ⟨_, rfl, ?_⟩
  rw [State.pageDone_train hq hprog hshut verified hstep]
  cases hstop : q.stopping with
  | true =>
    exact ⟨rfl, rfl, fun _ => ⟨rfl, rfl⟩, fun h => (nomatch h), fun h => (nomatch h), fun h => (nomatch h), fun _ h => (nomatch h)⟩
  | false =>
    rw [if_neg Bool.false_ne_true]
    cases verified with
    | false =>
      rw [if_pos (by rfl)]
      cases hretry : q.retried with
      | true =>
        exact ⟨rfl, rfl, fun h => (nomatch h), fun _ _ h => (nomatch h), fun _ _ _ => ⟨rfl, rfl⟩, fun _ h => (nomatch h),
          fun _ _ h => (nomatch h)⟩
      | false =>
        rw [if_neg Bool.false_ne_true]
        exact ⟨rfl, rfl, fun h => (nomatch h), fun _ _ _ => by rw [← hstop]; rfl, fun _ _ h => (nomatch h), fun _ h => (nomatch h), fun _ _ h => (nomatch h)⟩
    | true =>
      rw [if_neg (by decide)]
      by_cases hlast : q.pages + 1 = 22
      · rw [if_pos hlast]
        refine ⟨rfl, rfl, fun h => (nomatch h), fun _ h => (nomatch h), fun _ h => (nomatch h), fun _ _ h => absurd hlast h,
          fun f _ _ _ hf => ⟨rfl, ?_⟩⟩
        obtain ⟨slot, hslot, hlanes, hcrc, hcommit⟩ : ∃ slot, s.newTrain = some slot ∧ slot.lanes = s.vlt.trnLanes ∧
            slot.crc = crc32 (trainCovered slot) ∧ slot.commit = ~~~ slot.crc := by
          unfold State.newTrain
          rw [hf]
          exact ⟨_, rfl, rfl, rfl, rfl⟩
        refine ⟨{ f with train := s.newTrain }, slot, ?_, hslot, hlanes, hcrc, hcommit, rfl, rfl⟩
        exact congrArg (Option.map fun f : Flash => { f with train := s.newTrain }) hf
      · rw [if_neg hlast]
        exact ⟨rfl, rfl, fun h => (nomatch h), fun _ h => (nomatch h), fun _ h => (nomatch h), fun _ _ _ => ⟨rfl, rfl, rfl, rfl, rfl⟩,
          fun _ _ _ h => absurd h hlast⟩

/-- A trim slot whose code does not match is not valid. -/
theorem slotValid_crc {t : TrimSlot} (h : slotValid t = true) : t.crc = crc32 (trimCovered t) := by
  unfold slotValid at h
  simp only [Bool.and_eq_true, beq_iff_eq] at h
  exact h.1.1.2

theorem trainValid_crc {f : Flash} {t : TrainSlot} (h : trainValid f t = true) : t.crc = crc32 (trainCovered t) := by
  unfold trainValid at h
  simp only [Bool.and_eq_true, beq_iff_eq] at h
  exact h.1.1.1.1.2

/-- Settles O46: each row by the step of STORE_CAL; the code tells any two strings apart that differ in one octet. -/
theorem trimStoreProgramming : Obligations.TrimStoreProgramming := by
  refine ⟨fun s q hmode hq => ?_, fun p q a b => crc32_ne_of_octet p q, fun t u p q a b ht hpt hpu hab hcrc => ?_,
    fun f t u p q a b ht hpt hpu hab hcrc => ?_⟩
  · intro ends goes
    refine ⟨fun blank => (eraseOutcome hmode hq blank).1, fun blank => (eraseOutcome hmode hq blank).2, fun hprog hshut verified =>
      ⟨fun hstep => ?_, trainPageOutcome hq hprog hshut verified⟩⟩
    obtain ⟨t, hexec, honly, h1, h2, h3, h4, h5⟩ := slotPageOutcome hmode hq hprog hshut verified hstep
    refine ⟨t, hexec, honly, h1, h2, h3, h4, fun f hs hv hstep hf => ?_⟩
    rw [h5 hs hv hstep]
    exact slotCommitted q hmode hf
  · refine Bool.eq_false_iff.2 fun hu => crc32_ne_of_octet p q hab ?_
    rw [← hpt, ← hpu, ← slotValid_crc ht, ← slotValid_crc hu, hcrc]
  · refine Bool.eq_false_iff.2 fun hu => crc32_ne_of_octet p q hab ?_
    rw [← hpt, ← hpu, ← trainValid_crc ht, ← trainValid_crc hu, hcrc]

end Sys2Proof.Proofs
end

section
/-! The theorem that settles O48: reset sources and reset release. -/

namespace Sys2Proof.Machine

open Sys2Proof.Safety

/-! ## Reset release (R516, R520, R521, R633) -/

/-- The device has left RESET in mc `m`, and LOAD is about to begin. -/
def State.left (s : State) (m : Nat) (flash : Option Flash) (nvmv : Bool) : State :=
  let s1 := (s.at_ (s.mcAt m)).modPwr fun p =>
    { p with mode := .load, prev := .reset, nvmv := nvmv, mclk0 := m, trussHold := none, thermWait := false }
  { s1 with nvm := Nvm.reset flash, lcy := { s1.lcy with state := fuseState s1.lcy.fuses } }

/-- The rails out of order are reported (R521). -/
def State.orderTold (s : State) (order : BitVec 6) : State :=
  allRails.foldl (fun (z : State) i => if order.getLsbD i.val then z.raise (railSrc i) 0x08 else z) s

theorem State.release_eq {s : State} {a : Instant} (flash : Option Flash) (nvmv : Bool) (order : BitVec 6)
    (hmode : s.pwr.mode = .reset) (hpassed : (s.at_ a).holdsPassed = true) :
    s.release a flash nvmv order = ((((s.at_ a).left (s.at_ a).nowMc flash nvmv).orderTold order).boot).eraseRest :=
  if_neg (by rw [show (s.at_ a).pwr.mode = .reset from hmode, hpassed]; decide)

theorem State.holdsPassed_iff (s : State) : s.holdsPassed = true ↔ ¬((∃ h, s.pwr.trussHold = some h ∧ s.nowMc < h) ∨
    s.pwr.thermHold = true ∨ (s.pwr.thermWait = true ∧ 840 ≤ (s.sens 16).reading)) := by
  unfold State.holdsPassed
  cases s.pwr.trussHold with
  | none => cases s.pwr.thermWait <;> simp
  | some h => cases s.pwr.thermWait <;> simp [and_assoc]

/-- Conditions have been put on their way to the truss. -/
def Raised (s t : State) : Prop := ∃ l, t = { s with truss := { s.truss with incoming := s.truss.incoming ++ l } }

theorem Raised.refl (s : State) : Raised s s := ⟨[], by rw [List.append_nil]⟩

theorem Raised.trans {s t u : State} (h : Raised s t) (g : Raised t u) : Raised s u := by
  obtain ⟨l, rfl⟩ := h
  obtain ⟨k, rfl⟩ := g
  exact ⟨l ++ k, by rw [List.append_assoc]⟩

theorem Raised.told {s t : State} (h : Raised s t) : Told s t := by
  obtain ⟨l, rfl⟩ := h
  exact fun n b ⟨x, hx, hb⟩ => ⟨x, List.mem_append_left _ hx, hb⟩

theorem State.orderTold_spec (s : State) (order : BitVec 6) (hmode : s.pwr.mode ≠ .reset) : Raised s (s.orderTold order) ∧
    ∀ i : RailIx, order.getLsbD i.val = true → Reported (s.orderTold order) (188 + i.val) 0x08 := by
  have hall : ∀ (l : List RailIx) (z : State), z.pwr.mode ≠ .reset →
      let t := l.foldl (fun (z : State) i => if order.getLsbD i.val then z.raise (railSrc i) 0x08 else z) z
      Raised z t ∧ ∀ i ∈ l, order.getLsbD i.val = true → Reported t (188 + i.val) 0x08 := by
    intro l
    induction l with
    | nil => exact fun z _ => ⟨.refl z, fun i hi => (nomatch hi)⟩
    | cons j l ih =>
      intro z hz
      obtain ⟨y, hy, hraised⟩ : ∃ y, y = (if order.getLsbD j.val then z.raise (railSrc j) 0x08 else z) ∧ Raised z y := by
        refine ⟨_, rfl, ?_⟩
        split
        · exact z.raise_eq _ _
        · exact .refl z
      have hym : y.pwr.mode ≠ .reset := by obtain ⟨_, h⟩ := hraised; rw [h]; exact hz
      obtain ⟨hrest, htold⟩ := ih y hym
      rw [List.foldl_cons, ← hy]
      refine ⟨hraised.trans hrest, fun i hi hbit => ?_⟩
      rcases List.mem_cons.1 hi with rfl | hi
      · refine hrest.told _ _ ?_
        rw [hy, if_pos hbit]
        exact z.reported_raise (railSrc i) 0x08 hz (by decide)
      · exact htold i hi hbit
  obtain ⟨hraised, htold⟩ := hall allRails s hmode
  exact ⟨hraised, fun i => htold i (List.mem_finRange i)⟩

/-- What BOOT makes of the flash: only the NVM unit changes, and a halt is reported. -/
structure Booted (s t : State) : Prop where
  frame : ∃ nvm, Raised { s with nvm := nvm } t
  flash : t.nvm.flash = s.nvm.flash
  good : ∀ f, s.nvm.flash = some f → f.sfdpOk = true → headerBad f.header = false → t.nvm.phase = s.nvm.phase ∧ t.nvm.result = s.nvm.result ∧
    t.nvm.bootf = BitVec.ofNat 6 f.header.bootf ∧ t.nvm.imgVer = f.header.imgver
  bad : ∀ f, s.nvm.flash = some f → f.sfdpOk = true → headerBad f.header = true → t.nvm.phase = 0xF ∧ t.nvm.result = 2 ∧
    t.nvm.why = 2 ∧ Reported t 220 0x42
  missing : (s.nvm.flash = none ∨ ∃ f, s.nvm.flash = some f ∧ f.sfdpOk = false) → t.nvm.phase = 0xF ∧ t.nvm.result = 2 ∧ t.nvm.why = 1 ∧
    Reported t 220 0x41

theorem State.halt_spec (s : State) (why : BitVec 4) (cause : Byte) (hmode : s.pwr.mode ≠ .reset) :
    Raised { s with nvm := { s.nvm with phase := 0xF, result := 2, why := why } } (s.halt why cause) ∧ Reported (s.halt why cause) 220 (0x40 ||| cause) := by
  have hc : 0x40 ||| cause ≠ 0 := fun h => by
    have hb := congrArg (fun w : Byte => w.getLsbD 6) h
    rw [BitVec.getLsbD_or] at hb
    exact absurd hb (by simp)
  exact ⟨State.raise_eq _ _ _, State.reported_raise _ 220 _ hmode hc⟩

theorem State.boot_spec (s : State) (hmode : s.pwr.mode ≠ .reset) : Booted s s.boot := by
  have hmissing : s.boot = s.halt 1 0x01 → (∀ f, s.nvm.flash = some f → f.sfdpOk = false) → Booted s s.boot := by
    intro heq hno
    obtain ⟨⟨l, hl⟩, htold⟩ := s.halt_spec 1 0x01 hmode
    rw [heq]
    rw [hl] at htold ⊢
    exact ⟨⟨_, l, rfl⟩, rfl, fun f hf hok => absurd hok (by rw [hno f hf]; decide), fun f hf hok => absurd hok (by rw [hno f hf]; decide),
      fun _ => ⟨rfl, rfl, rfl, htold⟩⟩
  cases hf : s.nvm.flash with
  | none => exact hmissing (by unfold State.boot; rw [hf]) fun f h => by rw [hf] at h; exact nomatch h
  | some f =>
    have hsome : ∀ g, s.nvm.flash = some g → g = f := fun g hg => Option.some.inj (hg.symm.trans hf)
    by_cases hok : f.sfdpOk = true
    · have hno : ¬(s.nvm.flash = none ∨ ∃ g, s.nvm.flash = some g ∧ g.sfdpOk = false) := by
        rintro (h | ⟨g, hg, hbad⟩)
        · rw [hf] at h
          exact nomatch h
        · rw [hsome g hg, hok] at hbad
          exact nomatch hbad
      let z : State := s.modNvm fun n => { n with dev := pack 32 [(8, f.jedec.toNat), (4, f.density.toNat), bitAt 0 true] }
      by_cases hbad : headerBad f.header = true
      · have heq : s.boot = z.halt 2 0x02 := by
          unfold State.boot
          rw [hf]
          dsimp only
          rw [if_neg (by rw [hok]; decide), if_pos hbad]
        obtain ⟨⟨l, hl⟩, htold⟩ := z.halt_spec 2 0x02 hmode
        rw [heq]
        rw [hl] at htold ⊢
        refine ⟨⟨_, l, rfl⟩, rfl, fun g hg _ h => ?_, fun g hg _ _ => ⟨rfl, rfl, rfl, htold⟩, fun h => absurd h hno⟩
        rw [hsome g hg, hbad] at h
        exact nomatch h
      · have heq : s.boot = z.modNvm fun n =>
            { n with imgVer := f.header.imgver, bootf := BitVec.ofNat 6 f.header.bootf, target := BitVec.ofNat 6 f.header.bootf
                     nforme := BitVec.ofNat 8 ((f.header.dir.take f.header.nsect).countP fun e => e.type == 3) } := by
          unfold State.boot
          rw [hf]
          dsimp only
          rw [if_neg (by rw [hok]; decide), if_neg hbad]
        rw [heq]
        refine ⟨⟨_, .refl _⟩, rfl, fun g hg _ _ => ?_, fun g hg _ h => absurd (hsome g hg ▸ h) hbad, fun h => absurd h hno⟩
        rw [hsome g hg]
        exact ⟨rfl, rfl, rfl, rfl⟩
    · refine hmissing ?_ fun g hg => by rw [hsome g hg]; exact Bool.eq_false_iff.2 hok
      unfold State.boot
      rw [hf]
      dsimp only
      rw [if_pos (by rw [Bool.eq_false_iff.2 hok]; rfl)]

/-- The rest of a RETURN erasure is the only thing that goes on in BOOT. -/
theorem State.eraseRest_spec (s : State) : (∃ q, s.eraseRest = { s with lcy := { s.lcy with seq := q } }) ∧
    ((s.lcy.fuse 4).getLsbD 3 = true → (s.lcy.fuse 16).getLsbD 1 = false → s.pwr.dipActive = false →
      ∃ q, s.eraseRest.lcy.seq = some q ∧ q.target = 4 ∧ q.start = s.pwr.mclk0 ∧ q.byAdvance = false ∧
        ∀ w ∈ q.words, w ∈ eraseWords ∧ s.lcy.fuse w.1 &&& w.2 ≠ w.2) := by
  unfold State.eraseRest
  split
  · dsimp only
    split
    next hdip => exact ⟨⟨_, rfl⟩, fun _ _ h => absurd hdip (by rw [h]; decide)⟩
    · refine ⟨⟨_, rfl⟩, fun _ _ _ => ⟨_, rfl, rfl, rfl, rfl, fun w hw => ?_⟩⟩
      obtain ⟨hin, hne⟩ := List.mem_filter.1 hw
      exact ⟨hin, bne_iff_ne.1 hne⟩
  next hno =>
    refine ⟨⟨_, rfl⟩, fun h4 h16 _ => absurd ?_ hno⟩
    unfold LifeCycle.epend LifeCycle.shown LifeCycle.erased
    rw [if_pos h4, h16]
    rfl

end Sys2Proof.Machine

namespace Sys2Proof.Proofs

open Sys2Proof.Machine Sys2Proof.Safety

/-- A reset source acts from the edge on. -/
theorem resetTaken (s : State) (a : Instant) (f : Power → Power) : InReset s ((s.at_ a).toReset f) ∧
    ((s.at_ a).toReset f).now = (if s.pwr.mode = .reset then max s.now a
      else max (max s.now a) (s.mcAt (s.mc (s.clocks.mgmt.next (max s.now a)) + 8))) :=
  ⟨InReset.of_core (State.toReset_inReset _ f) rfl rfl rfl rfl, rfl⟩

/-- The device leaves RESET. -/
theorem resetReleased {s : State} {a : Instant} (flash : Option Flash) (nvmv : Bool) (order : BitVec 6) (hmode : s.pwr.mode = .reset)
    (hpassed : (s.at_ a).holdsPassed = true) :
    let z := s.at_ a
    let m := s.mc (s.clocks.mgmt.next z.now)
    ∃ t, exec (.resetRelease a flash nvmv order) s = .next t ∧
        t.now = max z.now (s.mcAt m) ∧ t.pwr.mode = .load ∧ t.pwr.prev = .reset ∧ t.pwr.mclk0 = m ∧ t.pwr.nvmv = nvmv ∧
        t.nvm.flash = flash ∧ t.mem = s.mem ∧ t.chans = s.chans ∧ t.lcy.fuses = s.lcy.fuses ∧
        t.lcy.state = fuseState s.lcy.fuses ∧ (∀ i : RailIx, order.getLsbD i.val = true → Reported t (188 + i.val) 0x08) ∧
        (∀ f, flash = some f → f.sfdpOk = true → headerBad f.header = false → t.nvm.phase = 0 ∧ t.nvm.result = 0 ∧
          t.nvm.bootf = BitVec.ofNat 6 f.header.bootf ∧ t.nvm.imgVer = f.header.imgver) ∧
        (∀ f, flash = some f → f.sfdpOk = true → headerBad f.header = true → t.nvm.phase = 0xF ∧ t.nvm.result = 2 ∧
          t.nvm.why = 2 ∧ Reported t 220 0x42) ∧
        ((flash = none ∨ ∃ f, flash = some f ∧ f.sfdpOk = false) → t.nvm.phase = 0xF ∧ t.nvm.result = 2 ∧ t.nvm.why = 1 ∧
          Reported t 220 0x41) ∧
        ((s.lcy.fuse 4).getLsbD 3 = true → (s.lcy.fuse 16).getLsbD 1 = false → s.pwr.dipActive = false →
          ∃ q, t.lcy.seq = some q ∧ q.target = 4 ∧ q.start = m ∧ q.byAdvance = false ∧
            ∀ w ∈ q.words, w ∈ eraseWords ∧ s.lcy.fuse w.1 &&& w.2 ≠ w.2) := by
  intro z m
  let y : State := z.left m flash nvmv
  have hrow : s.release a flash nvmv order = ((y.orderTold order).boot).eraseRest := State.release_eq flash nvmv order hmode hpassed
  have hload : y.pwr.mode ≠ .reset := fun h => (nomatch (show Mode.load = .reset from h))
  obtain ⟨⟨l, hl⟩, htold⟩ := y.orderTold_spec order hload
  have hboot := (y.orderTold order).boot_spec (by rw [hl]; exact hload)
  generalize y.orderTold order = w at hrow hl htold hboot
  obtain ⟨⟨nvm, k, hk⟩, hflash, hgood, hbad, hmissing⟩ := hboot
  obtain ⟨⟨q, hq⟩, herase⟩ := w.boot.eraseRest_spec
  have hnvm : w.nvm = Nvm.reset flash := by rw [hl]; rfl
  rw [hnvm] at hflash hgood hbad hmissing
  have hbooted : ∀ i : RailIx, order.getLsbD i.val = true → Reported w.boot (188 + i.val) 0x08 := fun i hi => by
    rw [hk]
    obtain ⟨x, hx, hb⟩ := htold i hi
    exact ⟨x, List.mem_append_left _ hx, hb⟩
  have hlcy : w.boot.lcy = y.lcy ∧ w.boot.pwr = y.pwr := by rw [hk, hl]; exact ⟨rfl, rfl⟩
  rw [hlcy.1, hlcy.2] at herase
  have hframe : w.boot.now = y.now ∧ w.boot.mem = s.mem ∧ w.boot.chans = s.chans := by rw [hk, hl]; exact ⟨rfl, rfl, rfl⟩
  obtain ⟨hnow, hmem, hchans⟩ := hframe
  obtain ⟨hl', hp'⟩ := hlcy
  generalize w.boot = u at *
  rw [hq] at herase
  refine ⟨_, congrArg Host.Outcome.next (hrow.trans hq), hnow, congrArg Power.mode hp', congrArg Power.prev hp', congrArg Power.mclk0 hp', congrArg Power.nvmv hp', hflash, hmem, hchans,
    (congrArg LifeCycle.fuses hl' :), (congrArg LifeCycle.state hl' :), hbooted, hgood, hbad, hmissing, herase⟩

/-- Settles O48: a reset source acts from its edge on, whatever the state; a release begins LOAD once the holds have passed. -/
theorem resetSourcesAndRelease : Obligations.ResetSourcesAndRelease := by
  intro s a counted edge
  refine ⟨?_, ?_, fun rail => ?_, ?_⟩
  · obtain ⟨hreset, hnow⟩ := resetTaken s a fun p => { Power.reset with mode := .reset, nvmv := p.nvmv, mclk0 := p.mclk0 }
    exact ⟨_, rfl, ⟨hreset.mode, hreset.chans, hreset.clocks, hreset.galley, hreset.units, hreset.synths, hreset.timebase, hreset.domains,
      hreset.fuses, hreset.life, hreset.nvm, hreset.queue⟩, hnow, rfl, rfl, rfl, rfl, rfl, rfl, rfl⟩
  · obtain ⟨hreset, hnow⟩ := resetTaken s a fun p =>
      { p with rstPin := true, thermHold := false, thermWait := p.thermWait || (s.at_ a).thm.shutdown.isSome }
    exact ⟨_, rfl, hreset, hnow, rfl, rfl, rfl, rfl, rfl, rfl, rfl, rfl, rfl⟩
  · obtain ⟨hreset, hnow⟩ := resetTaken s a fun p => { p with rstSupply := true, rstRail := BitVec.ofNat 3 rail.val }
    exact ⟨_, rfl, hreset, hnow, rfl, rfl, rfl, rfl, rfl, rfl, rfl, rfl, rfl⟩
  · intro flash nvmv order z m held
    refine ⟨fun h => ?_, fun hno hmode => resetReleased flash nvmv order hmode ((State.holdsPassed_iff _).2 hno)⟩
    have hstays : (s.at_ a).pwr.mode != .reset || !(s.at_ a).holdsPassed := by
      rcases h with h | h
      · rw [Bool.eq_false_iff.2 fun hp => (State.holdsPassed_iff _).1 hp h, Bool.not_false, Bool.or_true]
      · rw [bne_iff_ne.2 (show (s.at_ a).pwr.mode ≠ .reset from h), Bool.true_or]
    exact congrArg Host.Outcome.next (if_pos hstays)

end Sys2Proof.Proofs
end

section
/-! SUPPORT. The phases of LOAD up to CLOCKS (R484 to R486, R492 to R496). -/

namespace Sys2Proof.Machine

open Sys2Proof.Safety

/-! ## Milestones and outcomes -/

/-- The work of a phase has been done `m` mc after reset release. -/
def OnMilestone (s t : State) (m : Nat) : Prop :=
  t.now = max s.now (s.mcAt (s.pwr.mclk0 + m)) ∧ t.mem = s.mem ∧ t.pwr.mclk0 = s.pwr.mclk0 ∧ t.lcy.fuses = s.lcy.fuses

/-- LOAD has halted with its reason. -/
def LoadHalted (t : State) (why : BitVec 4) (cause : Byte) : Prop :=
  t.nvm.phase = 0xF ∧ t.nvm.result = 2 ∧ t.nvm.why = why ∧ Reported t 220 (0x40 ||| cause) ∧ t.pwr.mode = .load

/-- LOAD has gone on to a phase. -/
def LoadPassed (t : State) (p : Nat) : Prop := t.nvm.phase.toNat = p ∧ t.nvm.result = 0

/-- Later milestones are those of quick restore, later by full training, the wait for the locks and a failed restore. -/
theorem State.milestoneMc_late (s : State) {p b : Nat} (h : (p = 7 ∧ b = 18250000) ∨ (p = 8 ∧ b = 29000000) ∨ (p = 9 ∧ b = 33500000) ∨
    (p = 10 ∧ b = 34500000)) : s.milestoneMc p = s.pwr.mclk0 + (b + (if s.nvm.quick = true ∧ s.nvm.rfail = false then 0 else 10000000) +
      s.nvm.shift * 250000 + (if s.nvm.rfail = true then 250000 else 0)) := by
  have hsum : ∀ full : Bool, full = (!s.nvm.quick || s.nvm.rfail) →
      milestone full p = b + if s.nvm.quick = true ∧ s.nvm.rfail = false then 0 else 10000000 := by
    rintro _ rfl
    rcases h with ⟨rfl, rfl⟩ | ⟨rfl, rfl⟩ | ⟨rfl, rfl⟩ | ⟨rfl, rfl⟩ <;> cases s.nvm.quick <;> cases s.nvm.rfail <;> rfl
  have hp : 7 ≤ p := by omega
  unfold State.milestoneMc
  rw [hsum _ rfl, if_pos (by omega : 6 ≤ p), decide_eq_true hp, Bool.true_and]
  omega

theorem State.milestoneMc_train (s : State) : s.milestoneMc 6 = s.pwr.mclk0 + (18000000 + s.nvm.shift * 250000) := by
  have h : s.milestoneMc 6 = s.pwr.mclk0 + 18000000 + s.nvm.shift * 250000 := rfl
  omega

section Phase
variable {s t : State} {p m : Nat}

theorem State.inPhase_true (h : s.nvm.phase.toNat = p ∧ s.nvm.result = 0) : s.inPhase p = true := by
  unfold State.inPhase
  rw [h.1, h.2, beq_self_eq_true]
  rfl

/-- A phase that does nothing else to time, galley, power and fuses is on its milestone. -/
theorem OnMilestone.of_toPhase (hm : s.milestoneMc p = s.pwr.mclk0 + m) (hnow : t.now = (s.toPhase p).now) (hmem : t.mem = s.mem)
    (hclk : t.pwr.mclk0 = s.pwr.mclk0) (hfuses : t.lcy.fuses = s.lcy.fuses) : OnMilestone s t m :=
  ⟨hnow.trans (by rw [← hm]; rfl), hmem, hclk, hfuses⟩

/-- A halt of LOAD leaves everything but the NVM unit and the truss. -/
theorem State.halt_halts (z : State) (why : BitVec 4) (cause : Byte) (hmode : z.pwr.mode = .load) : LoadHalted (z.halt why cause) why cause := by
  obtain ⟨⟨l, hl⟩, htold⟩ := z.halt_spec why cause (by rw [hmode]; decide)
  rw [hl] at htold ⊢
  exact ⟨rfl, rfl, rfl, htold, hmode⟩

theorem State.halt_on (hm : s.milestoneMc p = s.pwr.mclk0 + m) (why : BitVec 4) (cause : Byte) :
    OnMilestone s ((s.toPhase p).halt why cause) m := by
  obtain ⟨l, hl⟩ := State.raise_eq { s.toPhase p with nvm := { (s.toPhase p).nvm with phase := 0xF, result := 2, why := why } } 220 (0x40 ||| cause)
  have heq : (s.toPhase p).halt why cause = _ := hl
  rw [heq]
  exact .of_toPhase hm rfl rfl rfl rfl

theorem State.haltAt_halts (z : State) (why : BitVec 4) (cause : Byte) (i : Nat) (hmode : z.pwr.mode = .load) :
    LoadHalted (z.haltAt why cause i) why cause ∧ (z.haltAt why cause i).nvm.dirent = BitVec.ofNat 8 i := by
  obtain ⟨h1, h2, h3, h4, h5⟩ := z.halt_halts why cause hmode
  exact ⟨⟨h1, h2, h3, h4.of_truss_eq rfl, h5⟩, rfl⟩

theorem State.haltAt_on (hm : s.milestoneMc p = s.pwr.mclk0 + m) (why : BitVec 4) (cause : Byte) (i : Nat) :
    OnMilestone s ((s.toPhase p).haltAt why cause i) m := State.halt_on (s := s) hm why cause

end Phase

end Sys2Proof.Machine

namespace Sys2Proof.Proofs

open Sys2Proof.Machine Sys2Proof.Safety

section Load
variable {s : State} {f : Flash} (hmode : s.pwr.mode = .load) (hf : s.nvm.flash = some f)
include hmode hf

/-- AUTH. -/
theorem authOutcome (hphase : s.nvm.phase.toNat = 0 ∧ s.nvm.result = 0) :
    let key := s.lcy.signKeyOk f.header.pubkey
    let sig := Config.ecdsaOk f.header.pubkey (Config.sha256 (signedOctets f.header)) f.header.sig
    ∃ t, exec .auth s = .next t ∧ OnMilestone s t 500000 ∧ (key = false → LoadHalted t 4 0x08) ∧
      (key = true → sig = false → LoadHalted t 5 0x10) ∧
      (∀ i, key = true → sig = true → directoryFault f.header f.density = some i →
        LoadHalted t 3 0x04 ∧ t.nvm.dirent = BitVec.ofNat 8 i) ∧
      (key = true → sig = true → directoryFault f.header f.density = none → LoadPassed t 1 ∧ t.truss = s.truss) := by
  intro key sig
  have hm : s.milestoneMc 1 = s.pwr.mclk0 + 500000 := rfl
  have hrow : s.auth = if !key then (s.toPhase 1).halt 4 0x08 else if !sig then (s.toPhase 1).halt 5 0x10 else
      match directoryFault f.header f.density with
      | some i => (s.toPhase 1).haltAt 3 0x04 i
      | none => s.toPhase 1 := by
    unfold State.auth
    rw [State.inPhase_true hphase, hmode, if_neg (by decide), hf]
    rfl
  refine ⟨_, congrArg Host.Outcome.next hrow, ?_⟩
  cases hk : key with
  | false => exact ⟨State.halt_on hm _ _, fun _ => State.halt_halts _ _ _ hmode, fun h => (nomatch h), fun _ h => (nomatch h), fun h => (nomatch h)⟩
  | true =>
    rw [if_neg (by decide)]
    cases hs : sig with
    | false => exact ⟨State.halt_on hm _ _, fun h => (nomatch h), fun _ _ => State.halt_halts _ _ _ hmode, fun _ _ h => (nomatch h), fun _ h => (nomatch h)⟩
    | true =>
      rw [if_neg (by decide)]
      cases hd : directoryFault f.header f.density with
      | some i =>
        refine ⟨State.haltAt_on hm _ _ i, fun h => (nomatch h), fun _ h => (nomatch h), fun j _ _ h => ?_, fun _ _ h => (nomatch h)⟩
        obtain rfl := Option.some.inj h
        exact State.haltAt_halts _ _ _ i hmode
      | none =>
        exact ⟨.of_toPhase hm rfl rfl rfl rfl, fun h => (nomatch h), fun _ h => (nomatch h), fun _ _ _ h => (nomatch h),
          fun _ _ _ => ⟨⟨rfl, hphase.2⟩, rfl⟩⟩

/-- IMAGE. -/
theorem imageOutcome (hphase : s.nvm.phase.toNat = 1 ∧ s.nvm.result = 0) : ∃ t, exec .image s = .next t ∧ OnMilestone s t 2500000 ∧
    (∀ i, digestFault f = some i → LoadHalted t 6 0x20 ∧ t.nvm.dirent = BitVec.ofNat 8 i) ∧
    (digestFault f = none → vaultBad f.vault = true → LoadHalted t 7 0) ∧
    (digestFault f = none → vaultBad f.vault = false → LoadPassed t 2 ∧ t.msp.fwup = true ∧ t.vlt.cfg = f.vault.cfg ∧
      t.vlt.mnt = f.vault.mnt ∧ t.truss.aliveNext.isSome = true) := by
  have hm : s.milestoneMc 2 = s.pwr.mclk0 + 2500000 := rfl
  have hrow : s.image = match digestFault f with
      | some i => (s.toPhase 2).haltAt 6 0x20 i
      | none => if vaultBad f.vault then (s.toPhase 2).halt 7 0 else State.firmwareStart { s.toPhase 2 with vlt := { (s.toPhase 2).vlt with
          cfg := f.vault.cfg, portCfg := (List.range 14).map fun i => f.vault.ports.getD i 0, mnt := f.vault.mnt } } := by
    unfold State.image
    rewrite [State.inPhase_true hphase, hmode, if_neg (by decide), hf]
    rfl
  refine ⟨_, congrArg Host.Outcome.next hrow, ?_⟩
  cases hd : digestFault f with
  | some i =>
    refine ⟨State.haltAt_on hm _ _ i, fun j h => ?_, fun h => (nomatch h), fun h => (nomatch h)⟩
    obtain rfl := Option.some.inj h
    exact State.haltAt_halts _ _ _ i hmode
  | none =>
    dsimp only
    cases hv : vaultBad f.vault with
    | true => exact ⟨State.halt_on hm _ _, fun _ h => (nomatch h), fun _ _ => State.halt_halts _ _ _ hmode, fun _ h => (nomatch h)⟩
    | false =>
      rw [if_neg Bool.false_ne_true]
      exact ⟨.of_toPhase hm rfl rfl rfl rfl, fun _ h => (nomatch h), fun _ h => (nomatch h), fun _ _ => ⟨⟨rfl, hphase.2⟩, rfl, rfl, rfl, rfl⟩⟩

end Load

end Sys2Proof.Proofs
end

section
/-! SUPPORT. CAL: trim and training slots (R471, R492, R497). -/

namespace Sys2Proof.Machine

open Sys2Proof.Safety

/-- A change of every channel of a list that looks at no other channel changes the channels alone, each of the list once. -/
theorem State.forChans_each {l : List Chan} (hl : l.Nodup) {f : Chan → State → State} {g : Chan → Channel → Channel} (s : State)
    (hf : ∀ c cs, f c { s with chans := cs } = State.modChan { s with chans := cs } c (g c)) :
    ∃ cs, s.forChans l f = { s with chans := cs } ∧
      ∀ c, State.chan { s with chans := cs } c = if c ∈ l then g c (s.chan c) else s.chan c := by
  suffices h : ∀ cs, ∃ ds, State.forChans { s with chans := cs } l f = { s with chans := ds } ∧
      ∀ c, State.chan { s with chans := ds } c =
        if c ∈ l then g c (State.chan { s with chans := cs } c) else State.chan { s with chans := cs } c from h s.chans
  induction l with
  | nil => exact fun cs => ⟨cs, rfl, fun c => (if_neg List.not_mem_nil).symm⟩
  | cons d l ih =>
    obtain ⟨hd, hl⟩ := List.nodup_cons.mp hl
    intro cs
    obtain ⟨ds, hds, hchan⟩ := ih hl (cs.set d (g d (State.chan { s with chans := cs } d)))
    have hset : ({ s with chans := cs.set d (g d (State.chan { s with chans := cs } d)) } : State) =
        State.setChan { s with chans := cs } d (g d (State.chan { s with chans := cs } d)) := rfl
    refine ⟨ds, ?_, fun c => ?_⟩
    · have hstep : State.forChans { s with chans := cs } (d :: l) f = State.forChans (f d { s with chans := cs }) l f := rfl
      rw [hstep, hf, ← hds]
      rfl
    · rw [hchan, hset]
      by_cases hc : c = d
      · subst hc
        rw [if_neg hd, State.chan_setChan_self, if_pos List.mem_cons_self]
      · rw [State.chan_setChan_ne _ _ _ _ hc]
        simp [hc]

/-- The tables of a slot go to the stores of all channels. -/
theorem State.takeSlot_spec (s : State) (t : TrimSlot) : ∃ cs, s.takeSlot t = { s with chans := cs } ∧
    ∀ c k, k < 4 → (State.chan { s with chans := cs } c).trim.table k = t.tables.getD (4 * c.val + k) TrimTable.blank := by
  obtain ⟨cs, heq, hchan⟩ := State.forChans_each nodup_allChans
    (f := fun c z => z.modChan c fun x => ({ x with trim := { x.trim with
      store := (List.range 4).map fun b => t.tables.getD (4 * c.val + b) TrimTable.blank, staged := true } } : Channel).applyTrim
        (s.bandOf c).toNat) s (fun _ _ => rfl)
  refine ⟨cs, heq, fun c k hk => ?_⟩
  rw [hchan, if_pos (mem_allChans c)]
  unfold Trim.table
  rw [(TrimStands.applyTrim _ _).store]
  simp [List.getD_eq_getElem?_getD, hk]

/-- CAL has read both slots: the generations, the slot in force and the next one, and whether quick restore may run. -/
def State.slotsRead (s : State) (a b : Option TrimSlot) (useB quick : Bool) : State :=
  let slot := if useB then b else a
  let top := match slot with
    | some t => t.tables.foldl (fun m r => max m r.gen.toNat) 0
    | none => 0
  s.modNvm fun n => { n with
    genA := (a.map (·.gen)).getD 0, genB := (b.map (·.gen)).getD 0, quick := quick
    inForce := if slot.isNone then 0 else if useB then 2 else 1
    tgen := if slot.isNone then n.tgen else nextGen (BitVec.ofNat 16 top) }

/-- Slot B is taken: it alone is valid, or its generation is the higher one. -/
def slotBTaken (a b : Option TrimSlot) : Bool :=
  b.isSome && (a.isNone || ((a.map fun t : TrimSlot => t.gen).getD 0).toNat < ((b.map fun t : TrimSlot => t.gen).getD 0).toNat)

/-- Quick restore may run: the image does not forbid it, and the training slot is valid. -/
def quickFrom (f : Flash) : Bool := f.header.flags.getLsbD 0 = false && (f.train.map (trainValid f)).getD false

theorem quickFrom_iff (f : Flash) :
    quickFrom f = true ↔ f.header.flags.getLsbD 0 = false ∧ ∃ r, f.train = some r ∧ trainValid f r = true := by
  unfold quickFrom
  cases f.train <;> simp

/-- What CAL says of missing slots. -/
def slotCause (a b : Option TrimSlot) : Byte :=
  (if a.isNone || b.isNone then 0x08 else 0) ||| (if (if slotBTaken a b then b else a).isNone then 0x10 else 0)

section Row
variable {s : State} {f : Flash} (hmode : s.pwr.mode = .load) (hf : s.nvm.flash = some f)
  (hphase : s.nvm.phase.toNat = 2 ∧ s.nvm.result = 0) {a b : Option TrimSlot} (ha : f.slotA.filter slotValid = a)
  (hb : f.slotB.filter slotValid = b)
include hmode hf hphase ha hb

/-- The work of CAL. -/
theorem State.cal_row : s.cal = (match if slotBTaken a b then b else a with
    | some t => ((s.toPhase 3).slotsRead a b (slotBTaken a b) (quickFrom f)).takeSlot t
    | none => (s.toPhase 3).slotsRead a b (slotBTaken a b) (quickFrom f)).raise 222 (slotCause a b) := by
  subst ha hb
  unfold State.cal
  rw [State.inPhase_true hphase, hmode, if_neg (by decide)]
  dsimp only
  rw [hf]
  rfl

/-- CAL with a valid slot. -/
theorem State.cal_taken {useB : Bool} {x : TrimSlot} {cause : Byte} (huse : slotBTaken a b = useB) (hx : (if useB then b else a) = some x)
    (hc : slotCause a b = cause) : s.cal = (((s.toPhase 3).slotsRead a b useB (quickFrom f)).takeSlot x).raise 222 cause := by
  rw [State.cal_row hmode hf hphase ha hb, huse, hx, hc]

omit hb ha in
/-- CAL without a valid slot. -/
theorem State.cal_bare (ha : f.slotA.filter slotValid = none) (hb : f.slotB.filter slotValid = none) :
    s.cal = ((s.toPhase 3).slotsRead none none false (quickFrom f)).raise 222 0x18 := State.cal_row hmode hf hphase ha hb

end Row

end Sys2Proof.Machine

namespace Sys2Proof.Proofs

open Sys2Proof.Machine Sys2Proof.Safety

/-- What CAL leaves of a slot that it takes. -/
structure SlotTaken (s t : State) (x : TrimSlot) (ix : BitVec 2) (a b : Option TrimSlot) (quick : Bool) : Prop where
  on : OnMilestone s t 15500000
  passed : LoadPassed t 3
  inForce : t.nvm.inForce = ix
  genA : t.nvm.genA = (a.map (·.gen)).getD 0
  genB : t.nvm.genB = (b.map (·.gen)).getD 0
  quick : t.nvm.quick = quick
  tables : ∀ c k, k < 4 → (t.chan c).trim.table k = x.tables.getD (4 * c.val + k) TrimTable.blank

section Cal
variable {s : State} {a b : Option TrimSlot} {useB quick : Bool} {x : TrimSlot}

theorem slotTaken (hphase : s.nvm.phase.toNat = 2 ∧ s.nvm.result = 0) (cause : Byte) {ix : BitVec 2} (hslot : (if useB then b else a) = some x)
    (hix : (if useB = true then 2 else 1 : BitVec 2) = ix) :
    SlotTaken s ((((s.toPhase 3).slotsRead a b useB quick).takeSlot x).raise 222 cause) x ix a b quick := by
  obtain ⟨cs, heq, htables⟩ := ((s.toPhase 3).slotsRead a b useB quick).takeSlot_spec x
  obtain ⟨l, hl⟩ := State.raise_eq { (s.toPhase 3).slotsRead a b useB quick with chans := cs } 222 cause
  rw [heq, hl]
  refine ⟨.of_toPhase (p := 3) rfl rfl rfl rfl rfl, ⟨rfl, hphase.2⟩, ?_, rfl, rfl, rfl, htables⟩
  have hforce : ((s.toPhase 3).slotsRead a b useB quick).nvm.inForce = if (if useB then b else a).isNone then 0 else if useB then 2 else 1 := rfl
  refine hforce.trans ?_
  rw [hslot]
  exact hix

/-- A slot that is missing is reported. -/
theorem slotTaken_reported (hmode : s.pwr.mode = .load) (cause : Byte) (hc : cause ≠ 0) :
    Reported ((((s.toPhase 3).slotsRead a b useB quick).takeSlot x).raise 222 cause) 222 cause := by
  obtain ⟨cs, heq, -⟩ := ((s.toPhase 3).slotsRead a b useB quick).takeSlot_spec x
  rw [heq]
  refine State.reported_raise _ 222 cause (show s.pwr.mode ≠ .reset from ?_) hc
  rw [hmode]
  decide

/-- With both slots there is nothing to report. -/
theorem slotTaken_truss : ((((s.toPhase 3).slotsRead a b useB quick).takeSlot x).raise 222 0).truss = s.truss := by
  obtain ⟨cs, heq, -⟩ := ((s.toPhase 3).slotsRead a b useB quick).takeSlot_spec x
  rw [heq]
  rfl

end Cal

/-- CAL. -/
theorem calOutcome {s : State} {f : Flash} (hmode : s.pwr.mode = .load) (hf : s.nvm.flash = some f)
    (hphase : s.nvm.phase.toNat = 2 ∧ s.nvm.result = 0) :
    let a := f.slotA.filter slotValid
    let b := f.slotB.filter slotValid
    ∃ t, exec .cal s = .next t ∧ OnMilestone s t 15500000 ∧ LoadPassed t 3 ∧
      (a = none → b = none → t.nvm.inForce = 0 ∧ Reported t 222 0x18) ∧
      (∀ x, a = some x → b = none → t.nvm.inForce = 1 ∧ t.nvm.genA = x.gen ∧ Reported t 222 0x08 ∧
        ∀ c k, k < 4 → (t.chan c).trim.table k = x.tables.getD (4 * c.val + k) TrimTable.blank) ∧
      (∀ y, a = none → b = some y → t.nvm.inForce = 2 ∧ t.nvm.genB = y.gen ∧ Reported t 222 0x08 ∧
        ∀ c k, k < 4 → (t.chan c).trim.table k = y.tables.getD (4 * c.val + k) TrimTable.blank) ∧
      (∀ x y, a = some x → b = some y → x.gen.toNat < y.gen.toNat → t.nvm.inForce = 2 ∧ t.truss = s.truss) ∧
      (∀ x y, a = some x → b = some y → y.gen.toNat ≤ x.gen.toNat → t.nvm.inForce = 1 ∧ t.truss = s.truss) ∧
      (t.nvm.quick = true ↔ f.header.flags.getLsbD 0 = false ∧ ∃ r, f.train = some r ∧ trainValid f r = true) := by
  intro a b
  have hreset : s.pwr.mode ≠ .reset := by
    rw [hmode]
    decide
  rw [← quickFrom_iff]
  cases ha : a with
  | none =>
    cases hb : b with
    | none =>
      obtain ⟨l, hl⟩ := State.raise_eq ((s.toPhase 3).slotsRead none none false (quickFrom f)) 222 0x18
      have hrep := State.reported_raise ((s.toPhase 3).slotsRead none none false (quickFrom f)) 222 0x18 hreset (by decide)
      refine ⟨_, congrArg Host.Outcome.next (State.cal_bare hmode hf hphase ha hb), ?_⟩
      rw [hl] at hrep ⊢
      exact ⟨.of_toPhase (p := 3) rfl rfl rfl rfl rfl, ⟨rfl, hphase.2⟩, fun _ _ => ⟨rfl, hrep⟩, fun _ h => (nomatch h),
        fun _ _ h => (nomatch h), fun _ _ h => (nomatch h), fun _ _ h => (nomatch h), Iff.rfl⟩
    | some y =>
      obtain ⟨on, passed, inForce, -, genB, quick, tables⟩ :=
        slotTaken (useB := true) (a := none) (b := some y) (quick := quickFrom f) (x := y) hphase 0x08 (ix := 2) rfl rfl
      have hrep := slotTaken_reported (useB := true) (a := none) (b := some y) (quick := quickFrom f) (x := y) hmode 0x08 (by decide)
      refine ⟨_, congrArg Host.Outcome.next (State.cal_taken hmode hf hphase ha hb (useB := true) rfl rfl (cause := 0x08) (by simp [slotCause, slotBTaken])), on, passed, fun _ h => (nomatch h),
        fun _ h => (nomatch h), fun z _ h => ?_, fun _ _ h => (nomatch h), fun _ _ h => (nomatch h), by rw [quick]⟩
      obtain rfl := Option.some.inj h
      exact ⟨inForce, genB, hrep, tables⟩
  | some x =>
    cases hb : b with
    | none =>
      obtain ⟨on, passed, inForce, genA, -, quick, tables⟩ :=
        slotTaken (useB := false) (a := some x) (b := none) (quick := quickFrom f) (x := x) hphase 0x08 (ix := 1) rfl rfl
      have hrep := slotTaken_reported (useB := false) (a := some x) (b := none) (quick := quickFrom f) (x := x) hmode 0x08 (by decide)
      refine ⟨_, congrArg Host.Outcome.next (State.cal_taken hmode hf hphase ha hb (useB := false) rfl rfl (cause := 0x08) (by simp [slotCause, slotBTaken])), on, passed, fun h => (nomatch h),
        fun z h _ => ?_, fun _ h => (nomatch h), fun _ _ _ h => (nomatch h), fun _ _ _ h => (nomatch h), by rw [quick]⟩
      obtain rfl := Option.some.inj h
      exact ⟨inForce, genA, hrep, tables⟩
    | some y =>
      have huse : slotBTaken (some x) (some y) = decide (x.gen.toNat < y.gen.toNat) := rfl
      by_cases hlt : x.gen.toNat < y.gen.toNat
      · rw [decide_eq_true hlt] at huse
        obtain ⟨on, passed, inForce, -, -, quick, -⟩ :=
          slotTaken (useB := true) (a := some x) (b := some y) (quick := quickFrom f) (x := y) hphase 0 (ix := 2) rfl rfl
        refine ⟨_, congrArg Host.Outcome.next (State.cal_taken hmode hf hphase ha hb huse rfl (cause := 0) (by simp [slotCause, huse])), on, passed,
          fun h => (nomatch h), fun _ _ h => (nomatch h), fun _ h => (nomatch h), fun _ _ _ _ _ => ⟨inForce, slotTaken_truss⟩,
          fun z w h g hle => ?_, by rw [quick]⟩
        obtain rfl := Option.some.inj h
        obtain rfl := Option.some.inj g
        exact absurd hle (by omega)
      · rw [decide_eq_false hlt] at huse
        obtain ⟨on, passed, inForce, -, -, quick, -⟩ :=
          slotTaken (useB := false) (a := some x) (b := some y) (quick := quickFrom f) (x := x) hphase 0 (ix := 1) rfl rfl
        refine ⟨_, congrArg Host.Outcome.next (State.cal_taken hmode hf hphase ha hb huse rfl (cause := 0) (by simp [slotCause, huse])), on, passed,
          fun h => (nomatch h), fun _ _ h => (nomatch h), fun _ h => (nomatch h), fun z w h g hle => ?_,
          fun _ _ _ _ _ => ⟨inForce, slotTaken_truss⟩, by rw [quick]⟩
        obtain rfl := Option.some.inj h
        obtain rfl := Option.some.inj g
        exact absurd hle hlt

end Sys2Proof.Proofs
end

section
/-! SUPPORT. ADMIT: every forme of the image is judged (R498). -/

namespace Sys2Proof.Machine

open Sys2Proof.Safety

/-- The checks of a forme look at the flash and the vault's threshold. -/
theorem State.checkForme_congr {s z : State} (hflash : z.nvm.flash = s.nvm.flash) (hth : z.vlt.nrrTh = s.vlt.nrrTh) (n : Nat) (f : Forme)
    (boot : Option Forme) : z.checkForme n f boot = s.checkForme n f boot := by
  have hprog : z.programOf = s.programOf := by
    funext p
    unfold State.programOf
    rw [hflash]
  have hrate : z.emitRate = s.emitRate := by
    funext p
    unfold State.emitRate
    rw [hprog]
  have hsec : z.sectionBad n f = s.sectionBad n f := by
    unfold State.sectionBad
    rw [hflash]
  have habs : z.programAbsent f = s.programAbsent f := by
    unfold State.programAbsent
    rw [hprog]
  unfold State.checkForme
  rw [hprog, hrate, hsec, habs, hth]

/-- Bit `m` after bit `n` has been set. -/
theorem getLsbD_or_two_pow (w : BitVec 64) {n m : Nat} (hm : m < 64) :
    (w ||| BitVec.ofNat 64 (2 ^ n)).getLsbD m = (w.getLsbD m || decide (n = m)) := by
  rw [BitVec.getLsbD_or, BitVec.getLsbD_ofNat, Nat.testBit_two_pow, decide_eq_true hm, Bool.true_and]

/-- What judging the formes of a list leaves of the ok bits and the reasons. -/
structure FormesJudged (s : State) (l : List Nat) (ok : BitVec 64) (whys : List Word) : Prop where
  length : whys.length = s.nvm.whys.length
  judgedOk : ∀ n f, n < 64 → n ∈ l → s.formeOf n = some f →
    ok.getLsbD n = (s.nvm.ok.getLsbD n || (s.checkForme n f s.bootForme).isNone)
  judgedWhy : ∀ n f, n ∈ l → s.formeOf n = some f → n < s.nvm.whys.length → whys.getD n 0 = whyWord (s.checkForme n f s.bootForme)
  otherOk : ∀ n, n < 64 → (n ∉ l ∨ s.formeOf n = none) → ok.getLsbD n = s.nvm.ok.getLsbD n
  otherWhy : ∀ n, n ∉ l → whys.getD n 0 = s.nvm.whys.getD n 0

/-- One forme is judged. -/
theorem State.judgeNo_spec (s : State) (n : Nat) :
    ∃ ok whys, s.judgeNo n = { s with nvm := { s.nvm with ok := ok, whys := whys } } ∧ FormesJudged s [n] ok whys := by
  unfold State.judgeNo
  cases hf : s.formeOf n with
  | none =>
    refine ⟨_, _, rfl, rfl, fun m f _ hm hmf => ?_, fun m f hm hmf => ?_, fun _ _ _ => rfl, fun _ _ => rfl⟩
    all_goals
      obtain rfl := List.mem_singleton.mp hm
      rw [hf] at hmf
      exact nomatch hmf
  | some f =>
    refine ⟨_, _, rfl, List.length_set, fun m g hlt hm hmf => ?_, fun m g hm hmf hlen => ?_, fun m hlt hm => ?_, fun m hm => ?_⟩
    · obtain rfl := List.mem_singleton.mp hm
      obtain rfl := Option.some.inj (hf.symm.trans hmf)
      cases (s.checkForme m f s.bootForme).isNone with
      | true => exact (getLsbD_or_two_pow _ hlt).trans (by simp)
      | false => simp
    · obtain rfl := List.mem_singleton.mp hm
      obtain rfl := Option.some.inj (hf.symm.trans hmf)
      simp [setAt, List.getD_eq_getElem?_getD, hlen]
    · have hne : n ≠ m := by
        rintro rfl
        simp [hf] at hm
      cases (s.checkForme n f s.bootForme).isNone with
      | true => exact (getLsbD_or_two_pow _ hlt).trans (by simp [hne])
      | false => simp
    · have hne : n ≠ m := by
        rintro rfl
        exact hm List.mem_cons_self
      simp [setAt, List.getD_eq_getElem?_getD, hne]

/-- Formes are judged one after the other. -/
theorem State.foldl_judgeNo (l : List Nat) (s : State) :
    ∃ ok whys, l.foldl State.judgeNo s = { s with nvm := { s.nvm with ok := ok, whys := whys } } ∧ FormesJudged s l ok whys := by
  induction l generalizing s with
  | nil => exact ⟨_, _, rfl, rfl, fun _ _ _ h => (nomatch h), fun _ _ h => (nomatch h), fun _ _ _ => rfl, fun _ _ => rfl⟩
  | cons n l ih =>
    obtain ⟨ok1, whys1, heq1, hone⟩ := s.judgeNo_spec n
    obtain ⟨ok, whys, heq, hrest⟩ := ih (s.judgeNo n)
    rw [heq1] at heq hrest
    have hboot : State.bootForme { s with nvm := { s.nvm with ok := ok1, whys := whys1 } } = s.bootForme := rfl
    have hcheck := fun m f => State.checkForme_congr (s := s) (z := { s with nvm := { s.nvm with ok := ok1, whys := whys1 } }) rfl rfl m f s.bootForme
    refine ⟨ok, whys, (congrArg (l.foldl State.judgeNo) heq1).trans heq, hrest.length.trans hone.length, fun m f hlt hm hmf => ?_, fun m f hm hmf hlen => ?_,
      fun m hlt hm => ?_, fun m hm => ?_⟩
    · by_cases hml : m ∈ l
      · rw [hrest.judgedOk m f hlt hml hmf, hboot, hcheck]
        by_cases hmn : m ∈ [n]
        · simp [hone.judgedOk m f hlt hmn hmf]
        · simp [hone.otherOk m hlt (.inl hmn)]
      · obtain rfl : m = n := (List.mem_cons.mp hm).resolve_right hml
        rw [hrest.otherOk m hlt (.inl hml)]
        exact hone.judgedOk m f hlt List.mem_cons_self hmf
    · by_cases hml : m ∈ l
      · rw [hrest.judgedWhy m f hml hmf (hlen.trans_eq hone.length.symm), hboot, hcheck]
      · obtain rfl : m = n := (List.mem_cons.mp hm).resolve_right hml
        rw [hrest.otherWhy m hml]
        exact hone.judgedWhy m f List.mem_cons_self hmf hlen
    · rw [hrest.otherOk m hlt (hm.imp_left fun h hl => h (List.mem_cons_of_mem _ hl))]
      exact hone.otherOk m hlt (hm.imp_left fun h hl => h (List.mem_singleton.mp hl ▸ List.mem_cons_self))
    · rw [hrest.otherWhy m fun hl => hm (List.mem_cons_of_mem _ hl)]
      exact hone.otherWhy m fun hl => hm (List.mem_singleton.mp hl ▸ List.mem_cons_self)

end Sys2Proof.Machine

namespace Sys2Proof.Proofs

open Sys2Proof.Machine Sys2Proof.Safety

/-- ADMIT shows the figures of the boot forme, which changes the vault's registers alone. -/
theorem admission_row {s : State} (hmode : s.pwr.mode = .load) (hphase : s.nvm.phase.toNat = 3 ∧ s.nvm.result = 0) :
    let z := (s.toPhase 4).formesPresent.foldl State.judgeNo (s.toPhase 4)
    ∃ v, s.admitAll = State.raise { z with vlt := v } 221
      (if z.formesPresent.any (fun n => !z.nvm.ok.getLsbD n) then 0x01 else 0) := by
  intro z
  have hrow : s.admitAll = (let s3 := (match z.bootForme with
      | some f =>
        let w := z.nvm.whys.getD z.nvm.bootf.toNat 0
        if fld w 24 8 = 0 ∨ 11 ≤ fld w 24 8 then z.showTest (admissionTest z.vlt.nrrTh fun c => figureOf f z.emitRate c) else z
      | none => z)
      s3.raise 221 (if s3.formesPresent.any (fun n => !s3.nvm.ok.getLsbD n) then 0x01 else 0)) := by
    unfold State.admitAll
    rewrite [State.inPhase_true hphase, hmode, if_neg (by decide)]
    rfl
  rw [hrow]
  dsimp only
  split
  · split <;> exact ⟨_, rfl⟩
  · exact ⟨_, rfl⟩

/-- ADMIT. -/
theorem admissionOutcome {s : State} (hmode : s.pwr.mode = .load) (hphase : s.nvm.phase.toNat = 3 ∧ s.nvm.result = 0) :
    ∃ t, exec .admission s = .next t ∧ OnMilestone s t 16000000 ∧ LoadPassed t 4 ∧ t.chans = s.chans ∧
      (∀ n f, n < 64 → s.formeOf n = some f → s.nvm.ok.getLsbD n = false →
        (t.nvm.ok.getLsbD n = true ↔ s.checkForme n f s.bootForme = none) ∧
        (n < s.nvm.whys.length → t.nvm.whys.getD n 0 = whyWord (s.checkForme n f s.bootForme))) ∧
      (∀ n, n < 64 → s.formeOf n = none → t.nvm.ok.getLsbD n = s.nvm.ok.getLsbD n) ∧
      (∀ n f, n < 64 → s.formeOf n = some f → s.nvm.ok.getLsbD n = false → s.checkForme n f s.bootForme ≠ none →
        Reported t 221 0x01) := by
  obtain ⟨v, hrow⟩ := admission_row hmode hphase
  obtain ⟨ok, whys, heq, hjudged⟩ := (s.toPhase 4).foldl_judgeNo (s.toPhase 4).formesPresent
  rw [heq] at hrow
  have hcheck : ∀ n f, (s.toPhase 4).checkForme n f (s.toPhase 4).bootForme = s.checkForme n f s.bootForme := fun n f =>
    State.checkForme_congr rfl rfl n f s.bootForme
  have hmem : ∀ n f, n < 64 → s.formeOf n = some f → n ∈ (s.toPhase 4).formesPresent := fun n f hlt hf =>
    List.mem_filter.mpr ⟨List.mem_range.mpr hlt, congrArg Option.isSome (show (s.toPhase 4).formeOf n = some f from hf)⟩
  have hok : ∀ n f, n < 64 → s.formeOf n = some f → s.nvm.ok.getLsbD n = false →
      ok.getLsbD n = (s.checkForme n f s.bootForme).isNone := fun n f hlt hf hs => by
    rw [hjudged.judgedOk n f hlt (hmem n f hlt hf) hf, hcheck]
    exact (congrArg (· || _) hs).trans (Bool.false_or _)
  have hrep : ∀ n f, n < 64 → s.formeOf n = some f → s.nvm.ok.getLsbD n = false → s.checkForme n f s.bootForme ≠ none →
      (s.toPhase 4).formesPresent.any (fun n => !ok.getLsbD n) = true := fun n f hlt hf hs hbad => by
    refine List.any_eq_true.mpr ⟨n, hmem n f hlt hf, ?_⟩
    rw [hok n f hlt hf hs]
    simpa [Option.isSome_iff_ne_none] using hbad
  have hreset : s.pwr.mode ≠ .reset := by
    rw [hmode]
    decide
  refine ⟨_, congrArg Host.Outcome.next hrow, ?_⟩
  generalize hz : ({ s.toPhase 4 with nvm := { (s.toPhase 4).nvm with ok := ok, whys := whys } } : State) = z
  have hpresent : z.formesPresent = (s.toPhase 4).formesPresent := by rw [← hz]; rfl
  generalize hc : (if z.formesPresent.any (fun n => !z.nvm.ok.getLsbD n) then 0x01 else 0 : Byte) = c
  have htold : c = 0x01 → Reported (State.raise { z with vlt := v } 221 c) 221 0x01 := by
    rintro rfl
    exact State.reported_raise _ 221 0x01 (by rw [← hz]; exact hreset) (by decide)
  obtain ⟨l, hl⟩ := State.raise_eq { z with vlt := v } 221 c
  rw [hl] at htold ⊢
  subst hz
  refine ⟨.of_toPhase (p := 4) rfl rfl rfl rfl rfl, ⟨rfl, hphase.2⟩, rfl, fun n f hlt hf hs => ⟨?_, fun hlen => ?_⟩, fun n hlt hf => ?_,
    fun n f hlt hf hs hbad => htold ?_⟩
  · exact (congrArg (· = true) (hok n f hlt hf hs)).to_iff.trans Option.isNone_iff_eq_none
  · exact (hjudged.judgedWhy n f (hmem n f hlt hf) hf hlen).trans (congrArg whyWord (hcheck n f))
  · exact hjudged.otherOk n hlt (.inr hf)
  · rw [← hc]
    exact if_pos ((congrArg (List.any · _) hpresent).trans (hrep n f hlt hf hs hbad))

end Sys2Proof.Proofs
end

section
/-! SUPPORT. CLOCKS, TRAIN and INIT (R432, R433, R495, R496). -/

namespace Sys2Proof.Machine

open Sys2Proof.Safety

/-- The timebase block and the spreads of a forme come into force, and acquisition and the locks start. -/
def State.clocksStart (s : State) (f : Forme) : State :=
  let z := (((s.modTb fun tb => { tb with cfg := f.tbsCfg, seed := f.tbsSeed, slewCfg := f.tbsSlew }).modSynth 8
    fun x => { x with ssc := f.deckSsc }).modSynth 9 fun x => { x with ssc := f.vaultSsc }).startAcquire
  (z.modSynth 8 fun x => { x with lockStart := some z.now }).modSynth 9 fun x => { x with lockStart := some z.now }

theorem State.clocksStart_deck (s : State) (f : Forme) :
    ((s.clocksStart f).synth 8).lockStart = some s.now ∧ ((s.clocksStart f).synth 8).ssc = f.deckSsc := by
  unfold State.clocksStart State.modSynth
  dsimp only
  rw [State.synth_setSynth_ne _ _ _ _ (by decide), State.synth_setSynth_self]
  refine ⟨rfl, ?_⟩
  have hlast : ∀ z : State, z.startAcquire.synth 8 = z.synth 8 := fun _ => rfl
  rw [hlast, State.synth_setSynth_ne _ _ _ _ (by decide), State.synth_setSynth_self]

theorem State.clocksStart_vault (s : State) (f : Forme) :
    ((s.clocksStart f).synth 9).lockStart = some s.now ∧ ((s.clocksStart f).synth 9).ssc = f.vaultSsc := by
  unfold State.clocksStart State.modSynth
  dsimp only
  rw [State.synth_setSynth_self]
  refine ⟨rfl, ?_⟩
  have hlast : ∀ z : State, z.startAcquire.synth 9 = z.synth 9 := fun _ => rfl
  rw [State.synth_setSynth_ne _ _ _ _ (by decide), hlast, State.synth_setSynth_self]

end Sys2Proof.Machine

namespace Sys2Proof.Proofs

open Sys2Proof.Machine Sys2Proof.Safety

section Clocks
variable {s : State} (hmode : s.pwr.mode = .load)
include hmode

/-- CLOCKS. -/
theorem clocksOutcome {f : Forme} (hphase : s.nvm.phase.toNat = 4 ∧ s.nvm.result = 0) (hboot : s.bootForme = some f) :
    ∃ t, exec .clocks s = .next t ∧ OnMilestone s t 17500000 ∧ (timebaseBad f = true → LoadHalted t 8 0) ∧
      (timebaseBad f = false → LoadPassed t 5 ∧ t.tb.st = .acquire ∧ t.tb.since = t.now ∧ t.tb.cfg = f.tbsCfg ∧
        t.tb.seed = f.tbsSeed ∧ Seeded t t ∧ (t.synth 8).lockStart = some t.now ∧ (t.synth 9).lockStart = some t.now ∧
        (t.synth 8).ssc = f.deckSsc ∧ (t.synth 9).ssc = f.vaultSsc ∧ t.truss = s.truss) := by
  have hrow : s.clocks_ = if timebaseBad f then (s.toPhase 5).halt 8 0 else (s.toPhase 5).clocksStart f := by
    unfold State.clocks_
    rw [State.inPhase_true hphase, hmode, if_neg (by decide)]
    dsimp only
    rw [show (s.toPhase 5).bootForme = some f from hboot]
    rfl
  refine ⟨_, congrArg Host.Outcome.next hrow, ?_⟩
  cases hbad : timebaseBad f with
  | true => exact ⟨State.halt_on (p := 5) rfl _ _, fun _ => State.halt_halts _ _ _ hmode, fun h => (nomatch h)⟩
  | false =>
    obtain ⟨hlock8, hssc8⟩ := (s.toPhase 5).clocksStart_deck f
    obtain ⟨hlock9, hssc9⟩ := (s.toPhase 5).clocksStart_vault f
    rw [if_neg Bool.false_ne_true]
    exact ⟨.of_toPhase (p := 5) rfl rfl rfl rfl rfl, fun h => (nomatch h),
      fun _ => ⟨⟨rfl, hphase.2⟩, rfl, rfl, rfl, rfl, ⟨rfl, rfl⟩, hlock8, hlock9, hssc8, hssc9, rfl⟩⟩

/-- CLOCKS_LOCKED: the wait past the scheduled end, in milliseconds rounded up. -/
theorem clocksLockedOutcome (hphase : s.nvm.phase.toNat = 5 ∧ s.nvm.result = 0) (hok : s.nvm.clocksOk = false) (htb : s.tb.st = .locked)
    (h8 : (s.synth 8).st = .run) (h9 : (s.synth 9).st = .run) :
    let m := s.mc (s.clocks.mgmt.next s.now)
    let due := s.milestoneMc 6
    ∃ t k, exec .clocksLocked s = .next t ∧ t = { s with nvm := { s.nvm with clocksOk := true, shift := k } } ∧
      m ≤ due + k * 250000 ∧ (0 < k → due + (k - 1) * 250000 < m) := by
  intro m due
  have hrow : s.clocksLocked = { s with nvm := { s.nvm with clocksOk := true, shift := (m - due + 249999) / 250000 } } := by
    unfold State.clocksLocked
    rw [State.inPhase_true hphase, hmode, hok, htb, h8, h9]
    rfl
  exact ⟨_, _, congrArg Host.Outcome.next hrow, rfl, by omega, by omega⟩

/-- TRAIN. -/
theorem trainOutcome (hphase : s.nvm.phase.toNat = 5 ∧ s.nvm.result = 0) (hok : s.nvm.clocksOk = true) :
    ∃ t, exec .train s = .next t ∧ OnMilestone s t (18000000 + s.nvm.shift * 250000) ∧ LoadPassed t 6 ∧
      t.vlt.st = .train ∧ t.vlt.trnStart = some (s.pwr.mclk0 + 18000000 + s.nvm.shift * 250000, s.nvm.quick) ∧
      (∀ q, (t.pch q).debt = 0) ∧ t.chans = s.chans ∧
      (∀ f, s.nvm.flash = some f → s.nvm.quick = false → f.header.flags.getLsbD 0 = false → Reported t 137 0x08) ∧
      (s.nvm.quick = true → t.truss = s.truss) := by
  generalize hz : (s.toPhase 6).trainBegin ((s.toPhase 6).milestoneMc 6) (s.toPhase 6).nvm.quick = z
  have hrow : s.train = if s.restoreInvalid then z.raise 137 0x08 else z := by
    unfold State.train
    rw [State.inPhase_true hphase, hmode, hok, if_pos (by decide), ← hz]
  have hdebt : ∀ q, (z.pch q).debt = 0 := fun q => by
    rw [← hz]
    simp [State.trainBegin, Vault.mod, State.pch]
  have hcore : ∀ l, let t : State := { z with truss := { z.truss with incoming := l } }
      OnMilestone s t (18000000 + s.nvm.shift * 250000) ∧ LoadPassed t 6 ∧ t.vlt.st = .train ∧
        t.vlt.trnStart = some (s.pwr.mclk0 + 18000000 + s.nvm.shift * 250000, s.nvm.quick) ∧ t.chans = s.chans := by
    subst hz
    exact fun l => ⟨.of_toPhase (p := 6) s.milestoneMc_train rfl rfl rfl rfl, ⟨rfl, hphase.2⟩, rfl, rfl, rfl⟩
  refine ⟨_, congrArg Host.Outcome.next hrow, ?_⟩
  cases hinvalid : s.restoreInvalid with
  | true =>
    have hquick : s.nvm.quick = false := by
      unfold State.restoreInvalid at hinvalid
      simpa using (Bool.and_eq_true_iff.mp hinvalid).1
    have hrep := z.reported_raise 137 0x08 (by rw [← hz]; exact hmode.trans_ne (by decide)) (by decide)
    obtain ⟨l, hl⟩ := z.raise_eq 137 0x08
    rw [if_pos rfl]
    rw [hl] at hrep ⊢
    obtain ⟨on, passed, hst, hstart, hchans⟩ := hcore (z.truss.incoming ++ l)
    exact ⟨on, passed, hst, hstart, hdebt, hchans, fun _ _ _ _ => hrep, fun h => Bool.noConfusion (h.symm.trans hquick)⟩
  | false =>
    obtain ⟨on, passed, hst, hstart, hchans⟩ := hcore z.truss.incoming
    rw [if_neg Bool.false_ne_true]
    refine ⟨on, passed, hst, hstart, hdebt, hchans, fun f hf hquick hflag => ?_, fun _ => by rw [← hz]; rfl⟩
    unfold State.restoreInvalid at hinvalid
    rw [hquick, hf] at hinvalid
    have hflags : (!f.header.flags.getLsbD 0) = false := hinvalid
    rw [hflag] at hflags
    exact nomatch hflags

/-- INIT. -/
theorem initOutcome (hphase : s.nvm.phase.toNat = 6 ∧ s.nvm.result = 0) (hstart : s.vlt.trnStart = none) :
    ∃ t, exec .init s = .next t ∧
      OnMilestone s t (18250000 + (if s.nvm.quick = true ∧ s.nvm.rfail = false then 0 else 10000000) + s.nvm.shift * 250000 +
        (if s.nvm.rfail = true then 250000 else 0)) ∧
      LoadPassed t 7 ∧ t.vlt.st = .init ∧ t.vlt.initStart = some (s.vc (s.clocks.vault.next t.now)) ∧ t.chans = s.chans := by
  have hrow : s.stackInit = { s.toPhase 7 with vlt := { (s.toPhase 7).vlt with
      st := .init, initStart := some ((s.toPhase 7).vc ((s.toPhase 7).clocks.vault.next (s.toPhase 7).now)) } } := by
    unfold State.stackInit
    rw [State.inPhase_true hphase, hmode, hstart]
    rfl
  exact ⟨_, congrArg Host.Outcome.next hrow, .of_toPhase (p := 7) (s.milestoneMc_late (.inl ⟨rfl, rfl⟩)) rfl rfl rfl rfl,
    ⟨rfl, hphase.2⟩, rfl, rfl, rfl⟩

end Clocks

end Sys2Proof.Proofs
end

section
/-! SUPPORT. DIST: the boot forme comes into force (R499). -/

namespace Sys2Proof.Machine

open Sys2Proof.Safety

/-! ## Staged fields of a channel change channels alone (R29, R32) -/

/-- Nothing but channels has changed. -/
def OnlyChans (s t : State) : Prop := t = { s with chans := t.chans }

namespace OnlyChans
variable {s t u : State}

theorem refl (s : State) : OnlyChans s s := rfl

theorem trans (h : OnlyChans s t) (g : OnlyChans t u) : OnlyChans s u := by
  refine (show u = { t with chans := u.chans } from g).trans ?_
  rw [show t = { s with chans := t.chans } from h]

theorem setChan (h : OnlyChans s t) (c : Chan) (x : Channel) : OnlyChans s (t.setChan c x) := h.trans rfl
theorem modChan (h : OnlyChans s t) (c : Chan) (f : Channel → Channel) : OnlyChans s (t.modChan c f) := h.trans rfl

theorem rePartner (h : OnlyChans s t) (c : Chan) (old : Option LaneIx) (at_ : Int) (idle : Bool) :
    OnlyChans s (t.rePartner c old at_ idle) := by
  unfold State.rePartner
  dsimp only
  split
  · exact h
  · split <;> split
    · exact ((h.modChan _ _).modChan _ _).modChan _ _
    · exact (h.modChan _ _).modChan _ _
    · exact (h.modChan _ _).modChan _ _
    · exact h.modChan _ _

theorem applyForme (h : OnlyChans s t) (c : Chan) (at_ : Int) (idle : Bool) : OnlyChans s (t.applyForme c at_ idle).1 := by
  unfold State.applyForme
  dsimp only
  split
  · exact h
  · split
    · exact h.setChan _ _
    · exact (h.setChan _ _).rePartner _ _ _ _

theorem applyPlaces (h : OnlyChans s t) (c : Chan) : OnlyChans s (t.applyPlaces c) := by
  unfold State.applyPlaces
  dsimp only
  split
  · exact h
  · split
    · exact h
    · exact h.setChan _ _

theorem applyStaged (h : OnlyChans s t) (c : Chan) (at_ : Int) (idle : Bool) : OnlyChans s (t.applyStaged c at_ idle).1 :=
  ((h.applyForme c at_ idle).applyPlaces c).modChan c fun x =>
    x.applyPost.applyTrim (((t.applyForme c at_ idle).1.applyPlaces c).bandOf c).toNat

theorem forChans {f : Chan → State → State} (l : List Chan) (hf : ∀ c z, OnlyChans z (f c z)) (s : State) : OnlyChans s (s.forChans l f) :=
  List.foldlRecOn (motive := OnlyChans s) l (fun z c => f c z) (.refl s) fun z h c _ => h.trans (hf c z)

end OnlyChans

/-! ## Requests to switch on (R48, R499) -/

theorem State.dom_askOn_ne_off {s : State} {d : Dom} (e : Dom) (h : s.dom d ≠ .off) : (s.askOn e).dom d ≠ .off := by
  unfold State.askOn
  split
  · exact h
  · split
    · by_cases hde : d = e
      · subst hde
        rw [State.dom_setDom_self]
        exact nofun
      · rw [State.dom_setDom_ne _ _ _ _ hde]
        exact h
    · exact h
    · exact h

theorem State.dom_pumpOn_ne_off {s : State} {d : Dom} (h : s.dom d ≠ .off) : s.pumpOn.dom d ≠ .off := by
  by_cases hw : s.dom d = .waiting
  · obtain hd | ⟨k, hd⟩ := State.dom_pumpOn_of_waiting hw <;> rw [hd] <;> exact nofun
  · rw [State.dom_pumpOn_of_ne hw]
    exact h

/-- While nothing is shed, no domain that has been requested is off. -/
theorem State.dom_requestOn_ne_off {s : State} {l : List Dom} {d : Dom} (hd : d ∈ l) (hshed : s.thm.shedFrom = none) :
    (s.requestOn l).dom d ≠ .off := by
  refine State.dom_pumpOn_ne_off ?_
  obtain ⟨l1, l2, rfl⟩ := List.append_of_mem hd
  have hthm : (l1.foldl State.askOn s).thm = s.thm :=
    List.foldlRecOn (motive := fun z : State => z.thm = s.thm) l1 State.askOn rfl fun z h e _ => by
      obtain ⟨_, _, he⟩ := z.askOn_eq e
      rw [he]
      exact h
  rw [List.foldl_append, List.foldl_cons]
  refine List.foldlRecOn (motive := fun z : State => z.dom d ≠ .off) l2 State.askOn ?_ fun z h e _ => State.dom_askOn_ne_off e h
  by_cases hoff : (l1.foldl State.askOn s).dom d = .off
  · rw [State.askOn_of_off hoff (by rw [hthm]; exact hshed), State.dom_setDom_self]
    exact nofun
  · exact State.dom_askOn_ne_off d hoff

/-- The boot forme goes to the channels of its power map. -/
def State.formeDealt (s : State) (n : Nat) (f : Forme) : State :=
  ((s.modNvm fun v => { v with powerForme := some n }).listsOf f).forChans (formeChans f) fun c z =>
    ((z.modChan c fun x => { x with stagedForme := some n }).applyStaged c (lsbUp z.now) true).1

theorem State.formeDealt_eq (s : State) (n : Nat) (f : Forme) :
    ∃ cs, s.formeDealt n f = { s with
      nvm := { s.nvm with powerForme := some n }, place := { s.place with spares := f.spares }
      thm := { s.thm with cfg := thmCfg f.shed, shed := f.shed.setWidth 96 }, chans := cs } :=
  ⟨_, OnlyChans.forChans _ (fun c z => ((OnlyChans.refl z).modChan c _).applyStaged c _ true) _⟩

/-- The placement table of the forme in force. -/
def State.tableDealt (s : State) (f : Forme) : State :=
  { s with place := { s.place with
    table := tableOf (((s.nvm.flash.bind fun fl => fl.tables.lookup f.placement)).getD []), tableNo := some f.placement } }

end Sys2Proof.Machine

namespace Sys2Proof.Proofs

open Sys2Proof.Machine Sys2Proof.Safety

/-- DIST. -/
theorem distOutcome {s : State} (hmode : s.pwr.mode = .load) (hphase : s.nvm.phase.toNat = 7 ∧ s.nvm.result = 0) :
    ∃ t, exec .dist s = .next t ∧
      OnMilestone s t (29000000 + (if s.nvm.quick = true ∧ s.nvm.rfail = false then 0 else 10000000) + s.nvm.shift * 250000 +
        (if s.nvm.rfail = true then 250000 else 0)) ∧
      LoadPassed t 8 ∧
      (∀ f, s.bootForme = some f → s.nvm.ok.getLsbD s.nvm.bootf.toNat = true →
        t.nvm.powerForme = some s.nvm.bootf.toNat ∧ t.nvm.noForme = s.nvm.noForme ∧ t.place.spares = f.spares ∧
        t.thm.shed = f.shed.setWidth 96 ∧ t.place.tableNo = some f.placement ∧
        ∀ d : Dom, f.power.getLsbD d.val = true → s.dom d = .off → s.thm.shedFrom = none → t.dom d ≠ .off) ∧
      ((s.bootForme = none ∨ s.nvm.ok.getLsbD s.nvm.bootf.toNat = false) → t.nvm.noForme = true ∧ Reported t 221 0x02 ∧
        t.pwr.doms = s.pwr.doms ∧ t.chans = s.chans) := by
  have hm := s.milestoneMc_late (p := 8) (.inr (.inl ⟨rfl, rfl⟩))
  have hrow : s.dist = match s.bootForme.filter fun _ => s.nvm.ok.getLsbD s.nvm.bootf.toNat with
      | none => ((s.toPhase 8).modNvm fun v => { v with noForme := true }).raise 221 0x02
      | some f => (((s.toPhase 8).formeDealt s.nvm.bootf.toNat f).tableDealt f).requestOn (mapDoms f) := by
    unfold State.dist
    rw [State.inPhase_true hphase, hmode, if_neg (by decide)]
    rfl
  refine ⟨_, congrArg Host.Outcome.next hrow, ?_⟩
  have hnone : (s.bootForme = none ∨ s.nvm.ok.getLsbD s.nvm.bootf.toNat = false) ↔
      (s.bootForme.filter fun _ => s.nvm.ok.getLsbD s.nvm.bootf.toNat) = none := by
    cases s.bootForme <;> simp
  cases hcase : s.bootForme.filter fun _ => s.nvm.ok.getLsbD s.nvm.bootf.toNat with
  | none =>
    have hrep := State.reported_raise ((s.toPhase 8).modNvm fun v => { v with noForme := true }) 221 0x02
      (show s.pwr.mode ≠ .reset from hmode.trans_ne (by decide)) (by decide)
    obtain ⟨l, hl⟩ := State.raise_eq ((s.toPhase 8).modNvm fun v => { v with noForme := true }) 221 0x02
    dsimp only
    rw [hl] at hrep ⊢
    refine ⟨.of_toPhase hm rfl rfl rfl rfl, ⟨rfl, hphase.2⟩, fun f hf hok => ?_, fun _ => ⟨rfl, hrep, rfl, rfl⟩⟩
    obtain h | h := hnone.mpr hcase
    · exact nomatch hf.symm.trans h
    · exact nomatch hok.symm.trans h
  | some f =>
    obtain ⟨cs, heq⟩ := (s.toPhase 8).formeDealt_eq s.nvm.bootf.toNat f
    have hpump := fun d (hd : d ∈ mapDoms f) (hshed : s.thm.shedFrom = none) =>
      State.dom_requestOn_ne_off (s := ((s.toPhase 8).formeDealt s.nvm.bootf.toNat f).tableDealt f) (l := mapDoms f) hd
        (by rw [heq]; exact hshed)
    obtain ⟨doms, cycle, hreq⟩ := (((s.toPhase 8).formeDealt s.nvm.bootf.toNat f).tableDealt f).requestOn_eq (mapDoms f)
    dsimp only
    rw [hreq, heq] at hpump ⊢
    refine ⟨.of_toPhase hm rfl rfl rfl rfl, ⟨rfl, hphase.2⟩, fun g hg hok => ?_, fun h => ?_⟩
    · have hgf : g = f := by
        rw [hg] at hcase
        simpa [Option.filter, hok] using hcase
      subst hgf
      exact ⟨rfl, rfl, rfl, rfl, rfl, fun d hd _ hshed => hpump d (List.mem_filter.mpr ⟨List.mem_finRange d, hd⟩) hshed⟩
    · exact nomatch (hnone.mp h).symm.trans hcase

end Sys2Proof.Proofs
end

section
/-! SUPPORT. What shedding and a switch of formes leave as it was; TRIM and RUN-ready (R473, R494, R620, Table 15.2). -/

namespace Sys2Proof.Machine

open Sys2Proof.Safety

/-! ## Planes that stand -/

/-- The NVM unit is as it was, or its switch of formes is done. -/
def NvmDone (m n : Nvm) : Prop := n = m ∨ n = { m with runPhase := 0, stagedForme := none }

/-- Time, galley, life cycle, mode, spares and shed list stand; of the NVM unit a switch of formes may be done. -/
structure PlanesKept (s t : State) : Prop where
  now : t.now = s.now
  mem : t.mem = s.mem
  lcy : t.lcy = s.lcy
  mode : t.pwr.mode = s.pwr.mode
  prev : t.pwr.prev = s.pwr.prev
  mclk0 : t.pwr.mclk0 = s.pwr.mclk0
  spares : t.place.spares = s.place.spares
  shed : t.thm.shed = s.thm.shed
  nvm : NvmDone s.nvm t.nvm

namespace PlanesKept
variable {s t u : State}

theorem refl (s : State) : PlanesKept s s := ⟨rfl, rfl, rfl, rfl, rfl, rfl, rfl, rfl, .inl rfl⟩

theorem trans (h : PlanesKept s t) (g : PlanesKept t u) : PlanesKept s u where
  now := g.now.trans h.now
  mem := g.mem.trans h.mem
  lcy := g.lcy.trans h.lcy
  mode := g.mode.trans h.mode
  prev := g.prev.trans h.prev
  mclk0 := g.mclk0.trans h.mclk0
  spares := g.spares.trans h.spares
  shed := g.shed.trans h.shed
  nvm := by
    obtain hn | hn := h.nvm <;> obtain gn | gn := g.nvm <;> rw [hn] at gn
    · exact .inl gn
    · exact .inr gn
    · exact .inr gn
    · exact .inr gn

theorem setChan (h : PlanesKept s t) (c : Chan) (x : Channel) : PlanesKept s (t.setChan c x) := h.trans ⟨rfl, rfl, rfl, rfl, rfl, rfl, rfl, rfl, .inl rfl⟩
theorem modChan (h : PlanesKept s t) (c : Chan) (f : Channel → Channel) : PlanesKept s (t.modChan c f) := h.trans ⟨rfl, rfl, rfl, rfl, rfl, rfl, rfl, rfl, .inl rfl⟩
theorem setDom (h : PlanesKept s t) (d : Dom) (x : DomSt) : PlanesKept s (t.setDom d x) := h.trans ⟨rfl, rfl, rfl, rfl, rfl, rfl, rfl, rfl, .inl rfl⟩
theorem modTb (h : PlanesKept s t) (f : Timebase → Timebase) : PlanesKept s (t.modTb f) := h.trans ⟨rfl, rfl, rfl, rfl, rfl, rfl, rfl, rfl, .inl rfl⟩
theorem modSynth (h : PlanesKept s t) (k : Synth) (f : SynthSt → SynthSt) : PlanesKept s (t.modSynth k f) := h.trans ⟨rfl, rfl, rfl, rfl, rfl, rfl, rfl, rfl, .inl rfl⟩

theorem of_shedOnly (h : ShedOnly s t) : PlanesKept s t := by
  obtain ⟨_, _, _, _, _, _, rfl⟩ := h
  exact ⟨rfl, rfl, rfl, rfl, rfl, rfl, rfl, rfl, .inl rfl⟩

theorem of_tableOnly (h : TableOnly s t) : PlanesKept s t := by
  obtain ⟨_, _, _, _, _, _, _, rfl, -⟩ := h
  exact ⟨rfl, rfl, rfl, rfl, rfl, rfl, rfl, rfl, .inl rfl⟩

theorem of_loopsOnly (h : LoopsOnly s t) : PlanesKept s t := by
  obtain ⟨_, _, _, _, rfl⟩ := h
  exact ⟨rfl, rfl, rfl, rfl, rfl, rfl, rfl, rfl, .inl rfl⟩

theorem of_onlyChans (h : OnlyChans s t) : PlanesKept s t := by
  rw [show t = { s with chans := t.chans } from h]
  exact ⟨rfl, rfl, rfl, rfl, rfl, rfl, rfl, rfl, .inl rfl⟩

theorem raise (h : PlanesKept s t) (n : Source) (b : Byte) : PlanesKept s (t.raise n b) := by
  obtain ⟨l, hl⟩ := t.raise_eq n b
  rw [hl]
  exact h.trans ⟨rfl, rfl, rfl, rfl, rfl, rfl, rfl, rfl, .inl rfl⟩

theorem raiseM (h : PlanesKept s t) (n : Source) (b : Byte) : PlanesKept s (t.raiseM n b) := by
  obtain ⟨l, hl⟩ := t.raiseM_eq n b
  rw [hl]
  exact h.trans ⟨rfl, rfl, rfl, rfl, rfl, rfl, rfl, rfl, .inl rfl⟩

theorem pierOffAll (h : PlanesKept s t) : PlanesKept s t.pierOffAll := h.trans (of_tableOnly t.pierOffAll_table)

theorem shedCheck (h : PlanesKept s t) : PlanesKept s t.shedCheck := by
  obtain ⟨l, hl⟩ := t.shedCheck_eq
  generalize t.shedCheck.thm.shDone = done at hl
  rw [hl]
  exact h.trans ⟨rfl, rfl, rfl, rfl, rfl, rfl, rfl, rfl, .inl rfl⟩

theorem shedChans (h : PlanesKept s t) : PlanesKept s t.shedChans := by
  have hl : (allChans.filter fun c => t.thm.shed.getLsbD c.val).Nodup := nodup_allChans.filter _
  exact (h.trans (of_shedOnly (State.shedList_spec _ hl t).1)).pierOffAll.shedCheck

end PlanesKept

/-! ## TRIM (R473) -/

/-- The common window of a channel. -/
def Channel.cellsWindow (w0 : Instant) (band : BitVec 2) (x : Channel) : Channel :=
  { x with trim := { x.trim with
    pendCells := true, pendDeskew := false, pending := false, running := true, w0 := w0, b0 := band, wasArmed := false, wasHeld := false
    cellsOk := false, failReason := 0, trial := TrimTable.blank } }

theorem State.startTrim_cells (s : State) (c : Chan) (w0 : Instant) :
    (s.modChan c fun x => { x with trim := { x.trim with pendCells := true, pendDeskew := false } }).startTrim c w0 false false =
      s.modChan c (Channel.cellsWindow w0 (s.bandOf c)) := by
  unfold State.startTrim State.modChan
  rw [State.chan_setChan_self, State.setChan_setChan]
  rfl

end Sys2Proof.Machine

namespace Sys2Proof.Proofs

open Sys2Proof.Machine Sys2Proof.Safety

/-- TRIM. -/
theorem trimOutcome {s : State} (hmode : s.pwr.mode = .load) (hphase : s.nvm.phase.toNat = 8 ∧ s.nvm.result = 0) :
    ∃ t, exec .trim s = .next t ∧
      OnMilestone s t (33500000 + (if s.nvm.quick = true ∧ s.nvm.rfail = false then 0 else 10000000) + s.nvm.shift * 250000 +
        (if s.nvm.rfail = true then 250000 else 0)) ∧
      LoadPassed t 9 ∧ t.pwr.mode = .trim ∧ t.pwr.prev = .load ∧
      ∀ c, (s.chOn c = true → s.inPowerMap (chDom c) = true → (t.chan c).trim.running = true ∧
          (t.chan c).trim.pendCells = true ∧ (t.chan c).trim.pendDeskew = false ∧
          (t.chan c).trim.w0 = s.span.vis win400 t.now ∧ (t.chan c).trim.b0 = s.bandOf c) ∧
        (s.chOn c = false → t.chan c = s.chan c) := by
  have hm := s.milestoneMc_late (p := 9) (.inr (.inr (.inl ⟨rfl, rfl⟩)))
  generalize hz : (s.toPhase 9).toMode .trim = z
  have hrow : s.trimPhase = z.forChans (allChans.filter fun c => z.chOn c && z.inPowerMap (chDom c)) fun c y =>
      (y.modChan c fun x => { x with trim := { x.trim with pendCells := true, pendDeskew := false } }).startTrim c
        (z.span.vis win400 z.now) false false := by
    unfold State.trimPhase
    rw [State.inPhase_true hphase, hmode, if_pos (by decide), ← hz]
  obtain ⟨cs, heq, hchan⟩ := State.forChans_each (nodup_allChans.filter fun c => z.chOn c && z.inPowerMap (chDom c)) z
    (f := fun c y => (y.modChan c fun x => { x with trim := { x.trim with pendCells := true, pendDeskew := false } }).startTrim c
      (z.span.vis win400 z.now) false false)
    (g := fun c => Channel.cellsWindow (z.span.vis win400 z.now) (z.bandOf c)) (fun c cs =>
      State.startTrim_cells { z with chans := cs } c (z.span.vis win400 z.now))
  refine ⟨_, congrArg Host.Outcome.next (hrow.trans heq), ?_⟩
  subst hz
  refine ⟨.of_toPhase hm rfl rfl rfl rfl, ⟨rfl, hphase.2⟩, rfl, hmode, fun c => ⟨fun hon hmap => ?_, fun hoff => ?_⟩⟩
  · have hin : c ∈ allChans.filter fun c => ((s.toPhase 9).toMode .trim).chOn c && ((s.toPhase 9).toMode .trim).inPowerMap (chDom c) :=
      List.mem_filter.mpr ⟨mem_allChans c, Bool.and_eq_true_iff.mpr ⟨hon, hmap⟩⟩
    rw [hchan c, if_pos hin]
    exact ⟨rfl, rfl, rfl, rfl, rfl⟩
  · refine (hchan c).trans ((if_neg fun hin => ?_).trans rfl)
    obtain ⟨hon, -⟩ := Bool.and_eq_true_iff.mp (List.mem_filter.mp hin).2
    exact nomatch hoff.symm.trans hon

/-- RUN_READY. -/
theorem runReadyOutcome {s : State} (hmode : s.pwr.mode = .trim) (hphase : s.nvm.phase.toNat = 9 ∧ s.nvm.result = 0) :
    ∃ t, exec .runReady s = .next t ∧
      OnMilestone s t (34500000 + (if s.nvm.quick = true ∧ s.nvm.rfail = false then 0 else 10000000) + s.nvm.shift * 250000 +
        (if s.nvm.rfail = true then 250000 else 0)) ∧
      t.nvm.phase.toNat = 10 ∧ t.nvm.result = 1 ∧
      (s.thm.expired = false → t.pwr.mode = .run ∧ t.pwr.prev = .trim ∧ t.chans = s.chans ∧ t.truss = s.truss) ∧
      (s.thm.expired = true → t.pwr.mode = .shed ∧ Reported t 182 0x04) := by
  have hm := s.milestoneMc_late (p := 10) (.inr (.inr (.inr ⟨rfl, rfl⟩)))
  generalize hz : (s.toPhase 10).modNvm (fun n => { n with result := 1 }) = z
  have hrow : s.runReady = if s.thm.expired then z.enterShed else z.toMode .run := by
    unfold State.runReady
    rw [State.inPhase_true hphase, hmode, if_pos (by decide), ← hz]
    rfl
  refine ⟨_, congrArg Host.Outcome.next hrow, ?_⟩
  cases hexp : s.thm.expired with
  | false =>
    rw [if_neg Bool.false_ne_true]
    subst hz
    exact ⟨.of_toPhase hm rfl rfl rfl rfl, rfl, rfl, fun _ => ⟨rfl, hmode, rfl, rfl⟩, fun h => (nomatch h)⟩
  | true =>
    let y : State := { (z.toMode .shed).raise 182 0x04 with thm := { ((z.toMode .shed).raise 182 0x04).thm with
      shedFrom := some ((z.toMode .shed).raise 182 0x04).nowMc, shDone := false } }
    have hy : z.enterShed = y.shedChans := rfl
    have hrep : Reported z.enterShed 182 0x04 :=
      ((z.toMode .shed).raise 182 0x04).startShed_spec.told 182 0x04 (State.reported_raise _ 182 0x04 (show Mode.shed ≠ .reset by decide) (by decide))
    have hraised : PlanesKept (z.toMode .shed) y := ((PlanesKept.refl _).raise 182 0x04).trans ⟨rfl, rfl, rfl, rfl, rfl, rfl, rfl, rfl, .inl rfl⟩
    have hkept : PlanesKept (z.toMode .shed) z.enterShed := hy ▸ hraised.shedChans
    rw [if_pos rfl]
    refine ⟨.of_toPhase hm ?_ ?_ ?_ ?_, ?_, ?_, fun h => (nomatch h), fun _ => ⟨hkept.mode, hrep⟩⟩
    · rw [hkept.now, ← hz]; rfl
    · rw [hkept.mem, ← hz]; rfl
    · rw [hkept.mclk0, ← hz]; rfl
    · rw [hkept.lcy, ← hz]; rfl
    all_goals
      obtain h | h := hkept.nvm <;> rw [h, ← hz] <;> rfl

end Sys2Proof.Proofs
end

section
/-! SUPPORT. A forme that comes into force, or is refused (R500 to R502, Table 14.10). -/

namespace Sys2Proof.Machine

open Sys2Proof.Safety

namespace PlanesKept
variable {s t : State}

theorem formeDone (h : PlanesKept s t) : PlanesKept s t.formeDone := by
  unfold State.formeDone
  split
  · have hdone : PlanesKept t { t with nvm := { t.nvm with runPhase := 0, stagedForme := none } } :=
      ⟨rfl, rfl, rfl, rfl, rfl, rfl, rfl, rfl, .inr rfl⟩
    exact (h.trans hdone).raiseM _ _
  · exact h

theorem requestOff (h : PlanesKept s t) (c : Chan) : PlanesKept s (t.requestOff c) := h.trans (of_shedOnly (.requestOff t c))

/-- At an idle point a channel takes what is staged, and the switch of formes may be done. -/
theorem settleIdle (h : PlanesKept s t) (c : Chan) : PlanesKept s (t.settleIdle c) := by
  have hstaged : PlanesKept s (t.applyStaged c (lsbUp t.now) true).1 :=
    h.trans (of_onlyChans ((OnlyChans.refl t).applyStaged c _ true))
  have hreload : PlanesKept s ((t.applyStaged c (lsbUp t.now) true).1.startReload c (t.applyStaged c (lsbUp t.now) true).1.now) :=
    hstaged.modChan c _
  unfold State.settleIdle
  dsimp only
  split
  · exact h
  · split <;> split
    · exact hreload.formeDone.modChan c _
    · exact hreload.formeDone.requestOff c
    · exact hstaged.formeDone.modChan c _
    · exact hstaged.formeDone.requestOff c

theorem tbApply (h : PlanesKept s t) : PlanesKept s t.tbApply := by
  obtain ⟨tb, ht⟩ := t.tbApply_eq
  rw [ht]
  exact h.trans ⟨rfl, rfl, rfl, rfl, rfl, rfl, rfl, rfl, .inl rfl⟩

theorem sscApply (h : PlanesKept s t) : PlanesKept s t.sscApply := h.trans (of_loopsOnly (LoopsOnly.refl t).sscApply)

theorem sweepApply (h : PlanesKept s t) (k : Fin 8) : PlanesKept s (t.sweepApply k) := by
  obtain ⟨l, ht⟩ := t.sweepApply_eq k
  rw [ht]
  exact h.trans ⟨rfl, rfl, rfl, rfl, rfl, rfl, rfl, rfl, .inl rfl⟩

theorem stageSweep (h : PlanesKept s t) (f : Forme) (k : Fin 8) : PlanesKept s (t.stageSweep f k) := by
  unfold State.stageSweep
  split
  · exact (h.modSynth _ _).sweepApply k
  · exact h

theorem stageShared (h : PlanesKept s t) (f : Forme) : PlanesKept s (t.stageShared f) := by
  unfold State.stageShared
  dsimp only
  exact (List.foldlRecOn (motive := PlanesKept s) allPiers _ (((h.modTb _).modSynth _ _).modSynth _ _).tbApply.sscApply
    fun z hz k _ => hz.stageSweep f k).trans ⟨rfl, rfl, rfl, rfl, rfl, rfl, rfl, rfl, .inl rfl⟩

theorem stageChan (h : PlanesKept s t) (f : Nat) (c : Chan) : PlanesKept s (t.stageChan f c) := by
  unfold State.stageChan
  dsimp only
  split
  · exact h.setChan c _
  · exact (h.setChan c _).settleIdle c

theorem removeChan (h : PlanesKept s t) (f : Nat) (c : Chan) : PlanesKept s (t.removeChan f c) := by
  unfold State.removeChan
  dsimp only
  split
  · exact (h.setChan c _).setDom _ _
  · exact (h.setChan c _).requestOff c

theorem requestOn (h : PlanesKept s t) (l : List Dom) : PlanesKept s (t.requestOn l) := by
  obtain ⟨doms, cycle, ht⟩ := t.requestOn_eq l
  rw [ht]
  exact h.trans ⟨rfl, rfl, rfl, rfl, rfl, rfl, rfl, rfl, .inl rfl⟩

end PlanesKept

/-- Bit `n` once it has been cleared. -/
theorem getLsbD_and_not_two_pow (w : BitVec 64) {n : Nat} (hn : n < 64) : (w &&& ~~~ BitVec.ofNat 64 (2 ^ n)).getLsbD n = false := by
  rw [BitVec.getLsbD_and, BitVec.getLsbD_not, BitVec.getLsbD_ofNat, Nat.testBit_two_pow_self, decide_eq_true hn]
  simp

/-- The forme in force changes, and every channel's change is staged. -/
def State.formeNamed (s : State) (n : Nat) (f : Forme) : State :=
  (s.modNvm fun v => { v with runPhase := 2, powerForme := some n, noForme := false }).listsOf f

theorem State.stageForme_kept (s : State) (n : Nat) (f : Forme) : PlanesKept (s.formeNamed n f) (s.stageForme n f) := by
  have hchans : PlanesKept (s.formeNamed n f) (((s.formeNamed n f).stageShared f).forChans allChans fun c z =>
      if f.power.getLsbD c.val then z.stageChan n c else z.removeChan n c) :=
    List.foldlRecOn (motive := PlanesKept (s.formeNamed n f)) allChans _ ((PlanesKept.refl _).stageShared f) fun z hz c _ => by
      dsimp only
      split
      · exact hz.stageChan n c
      · exact hz.removeChan n c
  have hpiers := (hchans.requestOn (mapDoms f)).pierOffAll
  unfold State.stageForme
  dsimp only
  split
  · exact hpiers.shedChans.formeDone
  · exact hpiers.formeDone

end Sys2Proof.Machine

namespace Sys2Proof.Proofs

open Sys2Proof.Machine Sys2Proof.Safety

/-- FORME_REREAD. -/
theorem formeRereadOutcome {s : State} {fl : Flash} {f : Forme} (hmode : s.pwr.mode ≠ .reset) (hrun : s.nvm.runPhase = 1)
    (hflash : s.nvm.flash = some fl) (hf : s.formeOf s.nvm.target.toNat = some f) :
    let n := s.nvm.target.toNat
    let good := (formeEntries fl.header n f).all (digestOk fl)
    ∃ t, exec .formeReread s = .next t ∧ t.now = s.now ∧ t.mem = s.mem ∧ t.pwr.mode = s.pwr.mode ∧
      (good = true → t.nvm.powerForme = some n ∧ t.nvm.noForme = false ∧ t.place.spares = f.spares ∧
        t.thm.shed = f.shed.setWidth 96 ∧ t.nvm.runPhase ≠ 1) ∧
      (good = false → t.nvm.ok.getLsbD n = false ∧ t.nvm.runPhase ≠ 1 ∧ Reported t 221 0x08 ∧ t.chans = s.chans ∧
        t.pwr.doms = s.pwr.doms ∧ (n < s.nvm.whys.length → t.nvm.whys.getD n 0 = 0x0D7F0000)) := by
  intro n good
  generalize hz : (s.modNvm fun v => { v with
      runPhase := if s.stillStaged then 2 else 0, ok := v.ok &&& ~~~ BitVec.ofNat 64 (2 ^ n)
      whys := setAt v.whys n (whyWord (some { code := 0x0D, ch := 127, pier := 0 })) }) = z
  have hrow : s.formeReread = if good then s.stageForme n f else z.raiseM 221 0x08 := by
    unfold State.formeReread
    rw [if_neg (by rw [hrun]; decide)]
    dsimp only
    rw [hflash, hf, ← hz]
  refine ⟨_, congrArg Host.Outcome.next hrow, ?_⟩
  cases hgood : good with
  | true =>
    have hkept := s.stageForme_kept n f
    rw [if_pos rfl]
    refine ⟨hkept.now, hkept.mem, hkept.mode, fun _ => ?_, fun h => (nomatch h)⟩
    refine ⟨?_, ?_, hkept.spares, hkept.shed, ?_⟩
    all_goals
      obtain h | h := hkept.nvm
      all_goals rw [h]
    · rfl
    · rfl
    · rfl
    · rfl
    · exact show (2 : BitVec 2) ≠ 1 by decide
    · exact show (0 : BitVec 2) ≠ 1 by decide
  | false =>
    have hrep := z.reported_raiseM 221 0x08 (by rw [← hz]; exact hmode) (by decide)
    obtain ⟨l, hl⟩ := z.raiseM_eq 221 0x08
    rw [if_neg Bool.false_ne_true]
    rw [hl] at hrep ⊢
    subst hz
    refine ⟨rfl, rfl, rfl, fun h => (nomatch h), fun _ => ⟨?_, ?_, hrep, rfl, rfl, fun hlen => ?_⟩⟩
    · have hlt : n < 64 := s.nvm.target.isLt
      exact getLsbD_and_not_two_pow s.nvm.ok hlt
    · dsimp only [State.modNvm]
      split <;> decide
    · simp [State.modNvm, setAt, List.getD_eq_getElem?_getD, hlen]
      rfl

end Sys2Proof.Proofs
end

section
/-! SUPPORT. LOAD, phase by phase. -/

namespace Sys2Proof.Proofs

open Sys2Proof.Machine Sys2Proof.Safety

/-- Settles O47: every phase of LOAD has a lemma of its own for what it leaves at its milestone. -/
theorem loadPhases : Obligations.LoadPhases := by
  intro s hmode load late slow extra on halted passed
  refine ⟨fun f hload hf => authOutcome hload.1 hf hload.2, fun f hload hf => imageOutcome hload.1 hf hload.2,
    fun f hload hf => calOutcome hload.1 hf hload.2, fun hload => admissionOutcome hload.1 hload.2,
    fun f hload hboot => clocksOutcome hload.1 hload.2 hboot,
    fun hload hok htb h8 h9 => clocksLockedOutcome hload.1 hload.2 hok htb h8 h9,
    fun hload hok => trainOutcome hload.1 hload.2 hok, fun hload hstart => initOutcome hload.1 hload.2 hstart,
    fun hload => distOutcome hload.1 hload.2, fun hload => trimOutcome hload.1 hload.2,
    fun hm hp hr => runReadyOutcome hm ⟨hp, hr⟩, fun fl f hrun hflash hf => formeRereadOutcome hmode hrun hflash hf⟩

end Sys2Proof.Proofs
end
